-- ==== Sys2Proof/Word.lean ====
section
/-! DEFINITION. Word.lean: the word types of the controller and the sizes the manual fixes. -/

namespace Sys2Proof

/-- A register: every register of the manual's maps is 64 bits wide (R11). -/
abbrev Word := BitVec 64

/-- One byte of memory. -/
abbrev Byte := BitVec 8

/-- One line: 64 bytes (R36), byte 0 in bits 7 to 0. -/
abbrev LineData := BitVec 512

/-- A global address: 60 bits, byte granular (R36). -/
abbrev Addr := BitVec 60

/-- A vector register: 1 KiB, 256 lanes of 32 bits, lane 0 in bits 31 to 0 (chapter 06, register files). -/
abbrev VecData := BitVec 8192

/-- A tensor tile: 2,560 FP32 elements (40 rows of 64), element 0 in bits 31 to 0 (chapter 06). -/
abbrev TileData := BitVec 81920

end Sys2Proof
end

