-- ==== Sys2Proof/Syntax.lean ====
section
/-! DEFINITION. Syntax.lean: the commands of the block: one constructor per row of spec/opcode_table.json, with the
row's operands. A value that a party outside the block decides (a flash outcome, a snoop's data, a sampled
temperature) is an operand of the command that brings it. -/

namespace Sys2Proof

/-- Who performs an access (R644): a bound host, a request from a PEER or UPLINK port with the domain of its header
slot, a ZCT session, the management port or Tailstock, a kernel named by its command window, or the control complex. -/
inductive Master where
  | host (n : Fin 64)
  | peer (port : Fin 16) (domain : BitVec 8)
  | session (n : Fin 256)
  | mgmt
  | kernel (win : Fin 1024)
  | control
  deriving DecidableEq, Repr

/-- An engine of the controller: a Lathe, a gather context or a kite (chapters 06, 10, 11). -/
inductive Engine where
  | lathe (n : Fin 128)
  | gctx (n : Fin 128)
  | kite (n : Fin 4096)
  deriving DecidableEq, Repr

/-- Who receives an Err FLUSHED (R519, R520): an engine, or the home-side spool of a home agent. -/
inductive Flushed where
  | engine (e : Engine)
  | spool (home : Fin 8)
  deriving DecidableEq, Repr

/-- A line that another controller answered to an engine's read: its address, its bytes, and its POISON flag (R247). -/
structure FarLine where
  addr : BitVec 60
  data : BitVec 512
  poison : Bool
  deriving DecidableEq, Repr

/-- A target of a flash channel as enumeration finds it (R106 to R109, R142): its LUNs, planes, blocks per plane, pages per block,
page data area and spare area, the rates it reports in MT/s, and its factory bad-block marks, each a LUN and a block of it. -/
structure MedTarget where
  luns : BitVec 4
  planes : BitVec 8
  blocks : BitVec 20
  pages : BitVec 13
  pageBytes : BitVec 16
  spareBytes : BitVec 16
  rates : List (BitVec 16)
  bad : List (Fin 8 × BitVec 20)
  deriving DecidableEq, Repr

/-- What enumeration finds on a flash channel (R107 to R110, R142): its number, its targets in the order of their chip enables, and
the rates at which its training succeeds. -/
structure MedChan where
  chan : Fin 32
  targets : List MedTarget
  trains : List (BitVec 16)
  deriving DecidableEq, Repr

/-- What a substitute controller rebuilds next (R158): a decision record, a ROOT unit, a MAP unit (the frame, and the units of it that
the version changes with the locators that the lost member had for them), a unit of the band table, or a DATA unit. Units come with
the bytes that the XOR gives. -/
inductive RebuildItem where
  | decision (region : BitVec 14) (version pred : BitVec 48) (roots : List (BitVec 40))
  | root (region : BitVec 14) (version : BitVec 48) (unit : BitVec 40) (lines : List (BitVec 512))
  | map (region : BitVec 14) (version : BitVec 48) (frame : BitVec 40) (units : List (BitVec 40 × BitVec 40)) (lines : List (BitVec 512))
  | bandTable (part : BitVec 8) (lines : List (BitVec 512))
  | data (region : BitVec 14) (version : BitVec 48) (unit : BitVec 40) (lines : List (BitVec 512))
  deriving DecidableEq, Repr


/-- A contribution that a parity unit names, as its member answers its read (R157): the member, its locator there, and its lines, none
for one that cannot be read. -/
structure PartRead where
  member : Fin 16
  loc : BitVec 40
  lines : Option (List (BitVec 512))
  deriving DecidableEq, Repr

/-- The addresses of a command Ethernet port (R560), which a signed composition command sets: the manual names no register for
them. -/
structure EthAddr where
  port : Fin 2
  v6 : BitVec 128
  v4 : Option (BitVec 32)
  deriving DecidableEq, Repr

/-- A management request (R574): what its block's payload says. `signedOk` is the outcome of the signature check of a SET_ADDR,
whose format the manual does not give. -/
inductive MgmtReq where
  | capRead
  | regRead (offs : List (BitVec 64))
  | regWrite (pairs : List (BitVec 64 × BitVec 64))
  | compose (off total : BitVec 32) (data : List (BitVec 8))
  | quote (vnonce : BitVec 256) (filter : BitVec 16) (cert rsvZero : Bool)
  | image (off : BitVec 64) (total rsv : BitVec 32) (data : List (BitVec 8))
  | heartbeat
  | setAddr (port : Fin 2) (addr : BitVec 128) (signedOk : Bool)
  deriving DecidableEq, Repr


/-- Where a message of another controller comes from: the fabric port on which it arrived, on which its answer goes back (R489), and the
controller that sent it. -/
structure FabSource where
  port : Fin 16
  ctrl : BitVec 10
  deriving DecidableEq, Repr

/-- Where a write of a line came from, and its address: the fabric port on which it arrived and its TXN (R489). -/
structure FabLine where
  port : Fin 16
  txn : BitVec 12
  addr : BitVec 60
  deriving DecidableEq, Repr

/-- The masks of good lanes of a link: the one that a port found itself and the one that the far end reports (R495). -/
structure LaneMasks where
  good : BitVec 4
  far : BitVec 4
  deriving DecidableEq, Repr

/-- What one PMBus poll reads of a rail (R700, R702): the rail, whether the transaction and its retry passed, whether STATUS_WORD
has a fault bit set, whether it reports an under-voltage, and the telemetry as PMB_TELEM_r holds it. -/
structure PmbRead where
  rail : Fin 8
  ok : Bool
  retryOk : Bool
  fault : Bool
  undervolt : Bool
  telem : BitVec 64
  deriving DecidableEq, Repr


/-- What another controller answers about the region or draft that slot `slot` of a RUN binds (R368, R372): whether the
kernel's domain holds the grant it needs there, whether the region is valid and VERSIONED, its size in 2 MiB units, the global
address of the region's or draft's first byte, whether a bound draft is OPEN, the region's CURRENT version, whether the kernel's output
ranges there are reserved, and whether its deciding home holds commits for the kernel's snapshot (R191). -/
structure FarRegion where
  slot : BitVec 6
  granted : Bool
  valid : Bool
  versioned : Bool
  size2m : BitVec 28
  base : BitVec 60
  draftOpen : Bool
  current : BitVec 48
  reserved : Bool
  held : Bool
  deriving DecidableEq, Repr

/-- What other controllers answer while a RUN is checked and started: about the slots that it binds; which of its plan's PARAM counter
entries the counter's controller refuses (R344, R367), bit j for entry j; and whether they hold the versions that the kernel pins there,
none while an answer is out, with the controller and the region of the first version that one does not hold (R427), and with the global
address of the first byte of each region that they hold. -/
structure FarAnswer where
  regions : List FarRegion := []
  refused : BitVec 16 := 0
  pins : Option Bool := none
  stale : BitVec 10 × BitVec 14 := (0, 0)
  bases : List (BitVec 10 × BitVec 14 × BitVec 60) := []
  deriving DecidableEq, Repr


/-- The header of a ZCT block (R563), as its bytes stand. -/
structure ZHdr where
  magic : BitVec 16
  kind : BitVec 8
  flags : BitVec 8
  session : BitVec 16
  lines : BitVec 16
  seq : BitVec 32
  ack : BitVec 32
  sack : BitVec 64
  addr : BitVec 64
  ref : BitVec 32
  reason : BitVec 8
  rsv : BitVec 184
  crc : BitVec 32
  deriving DecidableEq, Repr

/-- A frame that a command port receives: its bytes, its 802.1Q tag if it has one (R558), and the codewords under it that the port's FEC
corrected and could not correct (R579). -/
structure EthRx where
  bytes : BitVec 16
  tci : Option (BitVec 16) := none
  corr : BitVec 16 := 0
  uncorr : BitVec 16 := 0
  deriving DecidableEq, Repr

/-- Where a ZCT block came from: the sender's address and UDP port (R563), and the tag and codewords of its frame. -/
structure ZFrom where
  far : BitVec 144
  tci : Option (BitVec 16) := none
  corr : BitVec 16 := 0
  uncorr : BitVec 16 := 0
  deriving DecidableEq, Repr

/-- Where a management message came from (R574): the port, its destination address, the sender's address and UDP port, its 802.1Q tag if it
has one (R558), and ACK and SACK of its header. -/
structure MgmtFrom where
  port : Fin 2
  dst : BitVec 128
  far : BitVec 144
  tci : Option (BitVec 16) := none
  ack : BitVec 32
  sack : BitVec 64
  deriving DecidableEq, Repr


/-- The commands. -/
inductive Instr where
  /-- REGISTER_WRITE (R14): A write to a control-window register with no row of its own acts by its access type; a write of the wrong width or alignment is ignored and logged as a control-window access error. -/
  | registerWrite (off : BitVec 28) (width : BitVec 8) (v : BitVec 64)
  /-- RDS (R212): Host read request; the home grants S or E by the transition table, or defers it when the line is busy or the tracker is full. -/
  | rds (src : Master) (txn : BitVec 12) (addr : BitVec 60)
  /-- RDE (R212): Host read-for-ownership; the home snoops the other holders and grants E or M. -/
  | rde (src : Master) (txn : BitVec 12) (addr : BitVec 60)
  /-- UPGR (R212): A sharer asks for ownership without data; the home invalidates the other sharers and grants without data. -/
  | upgr (src : Master) (txn : BitVec 12) (addr : BitVec 60)
  /-- RDNC (R206): Non-coherent read of the current value; no copy is tracked, and on the control window it reads registers under R760. -/
  | rdnc (src : Master) (txn : BitVec 12) (addr : BitVec 60)
  /-- WRNC (R212): Masked write to the home copy after the holders are invalidated; also a masked register write on the control window. -/
  | wrnc (src : Master) (txn : BitVec 12) (addr : BitVec 60) (mask : BitVec 64) (data : BitVec 512) (sender : BitVec 10)
  /-- WRLINE (R212): Full-line write that invalidates every copy; in a counted area it is a counted write that may advance a counter. -/
  | wrline (src : Master) (txn : BitVec 12) (addr : BitVec 60) (data : BitVec 512) (sender : BitVec 10)
  /-- WRBACK (R212): A host returns a dirty M line to the stack, and the home answers Cmp. -/
  | wrback (src : Master) (txn : BitVec 12) (addr : BitVec 60) (data : BitVec 512)
  /-- EVICT (R212): A host drops a clean E or S line, and the home updates the record and answers Cmp. -/
  | evict (src : Master) (txn : BitVec 12) (addr : BitVec 60)
  /-- INVACK (R761): Snoop answer without data; from an M holder it is a protocol error that poisons the line. -/
  | invack (host : Fin 64) (txn : BitVec 12) (addr : BitVec 60)
  /-- SNPRSPDATA (R212): Snoop answer with data; the home takes the data and completes the transaction the snoop served. -/
  | snprspdata (host : Fin 64) (txn : BitVec 12) (addr : BitVec 60) (dirty : Bool) (data : BitVec 512)
  /-- CMPACK (R230): A host acknowledges a grant; in blocking mode this ends the busy line, and in native mode it is discarded as a protocol error. -/
  | cmpack (host : Fin 64) (txn : BitVec 12) (addr : BitVec 60)
  /-- WRDATA (R225): The data of a deferred WrNC, WrLine or WrBack, sent in answer to Fetch; the home then serves the request. -/
  | wrdata (src : Master) (txn : BitVec 12) (addr : BitVec 60) (mask : BitVec 64) (data : BitVec 512)
  /-- UNKNOWN_OPCODE_MESSAGE (R211): A message with an undefined opcode is discarded, counted and flagged as a protocol error. -/
  | unknownOpcodeMessage (home : Fin 8) (opcode : BitVec 6)
  /-- DEFER_ACTIVATE (R223): The home activates the oldest deferred request once a reserved tracker entry is free and its line is no longer busy. -/
  | deferActivate (home : Fin 8)
  /-- GRANT_RESPONSE (R505): A response arriving for a request that a controller agent sent over the fabric is returned to that agent. -/
  | grantResponse (port : Fin 16) (txn : BitVec 12) (opcode : BitVec 6) (data : BitVec 512)
  /-- ERR_FLUSHED_RECEIVED (R519): An engine that receives Err FLUSHED stops, and its kernel aborts with ABORTED. -/
  | errFlushedReceived (engine : Flushed) (addr : BitVec 60)
  /-- HOME_TIMEOUT (R242): A snoop, Fetch or CmpAck timer expires, and the home fences the host. -/
  | homeTimeout (home : Fin 8) (host : Fin 64) (addr : BitVec 60)
  /-- COMMAND_READY (R361): Line 0 has arrived and the counter reaches LEN; the home checks the lines and the command becomes ready or is refused with BADLEN. -/
  | commandReady (w : Fin 1024)
  /-- AFTER_SATISFIED (R369): The AFTER counter reaches its value, and the waiting command proceeds. -/
  | afterSatisfied (w : Fin 1024) (remote : BitVec 64)
  /-- AFTER_TIMEOUT (R369): The AFTER wait times out, and the command completes with AFTER_TIMEOUT without running. -/
  | afterTimeout (w : Fin 1024)
  /-- RUN (R368): RUN command: the loader checks the kernel once, then queues it or refuses it. -/
  | run (w : Fin 1024) (far : FarAnswer)
  /-- PLAN_LOAD (R350): The loader copies a plan container into frames and checks it. -/
  | planLoad (w : Fin 1024) (ext : List FarLine)
  /-- PLAN_LOAD_DONE (R351): Plan checks end: the plan takes a handle or is refused with its reason. -/
  | planLoadDone (w : Fin 1024)
  /-- PLAN_UNLOAD (R354): Frees a plan's frames and handle unless a kernel uses the plan. -/
  | planUnload (w : Fin 1024)
  /-- ARM_BIND (R366): ARM MODE 0 binds an area to a counter and arms it; with a whole window on its own counter it makes a mailbox. -/
  | armBind (w : Fin 1024)
  /-- ARM_REARM (R366): ARM MODE 1 re-arms an already bound area, discarding the lines of a filling window. -/
  | armRearm (w : Fin 1024)
  /-- ARM_UNBIND (R366): ARM MODE 2 unbinds an area. -/
  | armUnbind (w : Fin 1024)
  /-- ARM_COMMAND_MODE (R366): ARM MODE 3 returns a mailbox window to COMMAND mode and arms it. -/
  | armCommandMode (w : Fin 1024)
  /-- DRAFT_OPEN (R74): Creates a draft of a VERSIONED region based on CURRENT, or refuses it. -/
  | draftOpen (w : Fin 1024)
  /-- PUBLISH (R80): Accepts a publish of an OPEN draft, which enters SEALING. -/
  | publish (w : Fin 1024)
  /-- DRAFT_DISCARD (R92): Frees a CONFLICTED or unbound OPEN draft with its frames and reservation, or refuses it with BUSY. -/
  | draftDiscard (w : Fin 1024)
  /-- COMPOSE (R661): A signed composition command in a window is checked and applied whole or refused. -/
  | compose (w : Fin 1024)
  /-- SEAL_COMPLETE (R80): A SEALING draft's writers have committed and its host lines are recalled; it compares and goes to CONFLICTED, WRITING or DECIDING. -/
  | sealComplete (d : Fin 1024)
  /-- WRITING_DONE (R154): A publish's units are programmed and every contribution is accepted, and the draft enters DECIDING. -/
  | writingDone (d : Fin 1024) (accepted : List (BitVec 40))
  /-- PUBLISH_DECIDE (R81): In the deciding home's serial order, the draft is compared and checked for held versions, and CURRENT is set at the commit point. -/
  | publishDecide (d : Fin 1024)
  /-- KERNEL_START (R372): A ready RUN at its queue head reserves its outputs, loads its engines, takes its snapshot and reaches its start point. -/
  | kernelStart (w : Fin 1024) (far : FarAnswer) (ext : List FarLine)
  /-- SCHEDULE_FIRE (R347): A schedule entry's trigger counter reaches its value, and its home-side spool descriptor or prefetch is issued. -/
  | scheduleFire (w : Fin 1024) (entry : BitVec 13) (far : BitVec 64)
  /-- KERNEL_COMMIT (R166): Every engine has reported done; the homes prepare, remap the shadow frames at the commit point and release held accesses. -/
  | kernelCommit (w : Fin 1024)
  /-- SLI (R273): S slot: load a sign-extended 16-bit immediate. -/
  | sli (l : Fin 128) (sd : BitVec 5) (imm : BitVec 16) (last : Bool)
  /-- SLUI (R273): S slot: shift left 16 and OR in an immediate. -/
  | slui (l : Fin 128) (sd : BitVec 5) (imm : BitVec 16) (last : Bool)
  /-- SADD (R273): S slot: 64-bit add. -/
  | sadd (l : Fin 128) (sd sa sb : BitVec 5) (last : Bool)
  /-- SSUB (R273): S slot: 64-bit subtract. -/
  | ssub (l : Fin 128) (sd sa sb : BitVec 5) (last : Bool)
  /-- SMUL (R273): S slot: low 64 bits of a product. -/
  | smul (l : Fin 128) (sd sa sb : BitVec 5) (last : Bool)
  /-- SAND (R273): S slot: bitwise AND. -/
  | sand (l : Fin 128) (sd sa sb : BitVec 5) (last : Bool)
  /-- SOR (R273): S slot: bitwise OR. -/
  | sor (l : Fin 128) (sd sa sb : BitVec 5) (last : Bool)
  /-- SXOR (R273): S slot: bitwise XOR. -/
  | sxor (l : Fin 128) (sd sa sb : BitVec 5) (last : Bool)
  /-- SSHL (R273): S slot: shift left. -/
  | sshl (l : Fin 128) (sd sa sb : BitVec 5) (last : Bool)
  /-- SSHR (R273): S slot: logical shift right. -/
  | sshr (l : Fin 128) (sd sa sb : BitVec 5) (last : Bool)
  /-- SSRA (R273): S slot: arithmetic shift right. -/
  | ssra (l : Fin 128) (sd sa sb : BitVec 5) (last : Bool)
  /-- SADDI (R273): S slot: add a sign-extended immediate. -/
  | saddi (l : Fin 128) (sd sa : BitVec 5) (imm : BitVec 14) (last : Bool)
  /-- SMIN (R273): S slot: signed minimum. -/
  | smin (l : Fin 128) (sd sa sb : BitVec 5) (last : Bool)
  /-- SMAX (R273): S slot: signed maximum. -/
  | smax (l : Fin 128) (sd sa sb : BitVec 5) (last : Bool)
  /-- SPARAM (R273): S slot: read a command parameter. -/
  | sparam (l : Fin 128) (sd : BitVec 5) (p : BitVec 8) (last : Bool)
  /-- SID (R273): S slot: read an identity item. -/
  | sid (l : Fin 128) (sd : BitVec 5) (k : BitVec 4) (last : Bool)
  /-- LOOP (R275): Opens a loop of a static trip count over the following bundles. -/
  | loop (l : Fin 128) (len1 n1 : BitVec 12) (last : Bool)
  /-- LOOP_P (R275): Opens a loop whose trip count is a parameter; zero skips the body. -/
  | loopP (l : Fin 128) (len1 : BitVec 12) (p : BitVec 8) (last : Bool)
  /-- ASET (R278): Sets a field of an address generator. -/
  | aset (l : Fin 128) (ad f : BitVec 4) (sa : BitVec 5) (last : Bool)
  /-- AGET (R278): Reads PTR of an address generator. -/
  | aget (l : Fin 128) (sd : BitVec 5) (ad : BitVec 4) (last : Bool)
  /-- COMMIT (R307): The Lathe stops issuing and enters DRAINING. -/
  | commit (l : Fin 128) (last : Bool)
  /-- NOP (R274): No operation in any slot. -/
  | nop (l : Fin 128) (last : Bool)
  /-- ILLEGAL_BUNDLE (R274): An undefined opcode or operand, or two writes to one register, raises ILLEGAL. -/
  | illegalBundle (l : Fin 128) (no : Fin 4)
  /-- NOCOMMIT_FAULT (R309): The program counter passes the last bundle without commit. -/
  | nocommitFault (l : Fin 128)
  /-- MLOAD (R282): Loads 1 KiB from a Chuck into a vector register. -/
  | mload (l : Fin 128) (vd : BitVec 5) (ag : BitVec 4) (last : Bool)
  /-- MSTORE (R282): Stores 1 KiB of a vector register to a Chuck as full-line writes. -/
  | mstore (l : Fin 128) (vs : BitVec 5) (ag : BitVec 4) (last : Bool)
  /-- SLD (R282): Loads 8 B from a Chuck into a scalar register. -/
  | sld (l : Fin 128) (sd : BitVec 5) (ag : BitVec 4) (last : Bool)
  /-- SST (R282): Stores 8 B of a scalar register to a Chuck. -/
  | sst (l : Fin 128) (sa : BitVec 5) (ag : BitVec 4) (last : Bool)
  /-- MSPOOL (R290): Issues a spool descriptor with offsets. -/
  | mspool (l : Fin 128) (dix : BitVec 10) (sa sb : BitVec 5) (last : Bool)
  /-- SPOOL_DESC_DONE (R291): A spool descriptor completes with all its reads and writes served. -/
  | spoolDescDone (spool : Fin 136) (k : Fin 64) (ext : List FarLine)
  /-- CARM (R286): Arms the counted area bound to a handle. -/
  | carm (l : Fin 128) (ch : BitVec 4) (last : Bool)
  /-- CWAIT (R287): Waits for a counter to reach a target. -/
  | cwait (l : Fin 128) (ch : BitVec 4) (st so : BitVec 5) (far : BitVec 64) (last : Bool)
  /-- CWAIT_SATISFIED (R289): The counter reaches the target and issue resumes. -/
  | cwaitSatisfied (l : Fin 128) (far : BitVec 64)
  /-- CWAIT_TIMEOUT (R287): A counter wait times out and aborts the kernel with TIMEOUT. -/
  | cwaitTimeout (l : Fin 128)
  /-- CREAD (R273): Reads a counter's value into a scalar. -/
  | cread (l : Fin 128) (sd : BitVec 5) (ch : BitVec 4) (far : BitVec 64) (last : Bool)
  /-- MFENCE (R285): Orders later bundles after earlier writes. -/
  | mfence (l : Fin 128) (last : Bool)
  /-- MFENCE_DONE (R285): Every earlier write has been served and issue resumes. -/
  | mfenceDone (l : Fin 128)
  /-- MDRAIN (R285): Orders later bundles after earlier descriptors complete. -/
  | mdrain (l : Fin 128) (last : Bool)
  /-- MDRAIN_DONE (R285): Every earlier descriptor has completed and issue resumes. -/
  | mdrainDone (l : Fin 128)
  /-- TMMA_BF16 (R299): Tensor multiply-accumulate, BF16 operands. -/
  | tmmaBf16 (l : Fin 128) (td : BitVec 3) (aA aB : BitVec 4) (kb : BitVec 10) (acc : Bool) (shape : BitVec 2) (last : Bool)
  /-- TMMA_FP16 (R299): Tensor multiply-accumulate, FP16 operands. -/
  | tmmaFp16 (l : Fin 128) (td : BitVec 3) (aA aB : BitVec 4) (kb : BitVec 10) (acc : Bool) (shape : BitVec 2) (last : Bool)
  /-- TMMA_E4M3 (R299): Tensor multiply-accumulate, E4M3 operands. -/
  | tmmaE4m3 (l : Fin 128) (td : BitVec 3) (aA aB : BitVec 4) (kb : BitVec 10) (acc : Bool) (shape : BitVec 2) (last : Bool)
  /-- TMMA_E5M2 (R299): Tensor multiply-accumulate, E5M2 operands. -/
  | tmmaE5m2 (l : Fin 128) (td : BitVec 3) (aA aB : BitVec 4) (kb : BitVec 10) (acc : Bool) (shape : BitVec 2) (last : Bool)
  /-- TMMA_INT8 (R299): Tensor multiply-accumulate, INT8 operands. -/
  | tmmaInt8 (l : Fin 128) (td : BitVec 3) (aA aB : BitVec 4) (kb : BitVec 10) (acc : Bool) (shape : BitVec 2) (last : Bool)
  /-- TMMA_MXFP8 (R299): Tensor multiply-accumulate, MXFP8 E4M3 operands. -/
  | tmmaMxfp8 (l : Fin 128) (td : BitVec 3) (aA aB : BitVec 4) (kb : BitVec 10) (acc : Bool) (shape : BitVec 2) (last : Bool)
  /-- TMMA_MXFP8E5 (R299): Tensor multiply-accumulate, MXFP8 E5M2 operands. -/
  | tmmaMxfp8e5 (l : Fin 128) (td : BitVec 3) (aA aB : BitVec 4) (kb : BitVec 10) (acc : Bool) (shape : BitVec 2) (last : Bool)
  /-- TMMA_MXFP6 (R299): Tensor multiply-accumulate, MXFP6 E2M3 operands. -/
  | tmmaMxfp6 (l : Fin 128) (td : BitVec 3) (aA aB : BitVec 4) (kb : BitVec 10) (acc : Bool) (shape : BitVec 2) (last : Bool)
  /-- TMMA_MXFP6E3 (R299): Tensor multiply-accumulate, MXFP6 E3M2 operands. -/
  | tmmaMxfp6e3 (l : Fin 128) (td : BitVec 3) (aA aB : BitVec 4) (kb : BitVec 10) (acc : Bool) (shape : BitVec 2) (last : Bool)
  /-- TMMA_MXINT8 (R299): Tensor multiply-accumulate, MXINT8 operands. -/
  | tmmaMxint8 (l : Fin 128) (td : BitVec 3) (aA aB : BitVec 4) (kb : BitVec 10) (acc : Bool) (shape : BitVec 2) (last : Bool)
  /-- TMMA_MXFP4 (R299): Tensor multiply-accumulate, MXFP4 operands. -/
  | tmmaMxfp4 (l : Fin 128) (td : BitVec 3) (aA aB : BitVec 4) (kb : BitVec 10) (acc : Bool) (shape : BitVec 2) (last : Bool)
  /-- TMMA_INT4 (R299): Tensor multiply-accumulate, INT4 operands. -/
  | tmmaInt4 (l : Fin 128) (td : BitVec 3) (aA aB : BitVec 4) (kb : BitVec 10) (acc : Bool) (shape : BitVec 2) (last : Bool)
  /-- TMMA_MXFP4X8 (R299): Tensor multiply-accumulate, MXFP8 A and MXFP4 B. -/
  | tmmaMxfp4x8 (l : Fin 128) (td : BitVec 3) (aA aB : BitVec 4) (kb : BitVec 10) (acc : Bool) (shape : BitVec 2) (last : Bool)
  /-- TMMA_T2 (R299): Tensor multiply-accumulate, E4M3 A and ternary B. -/
  | tmmaT2 (l : Fin 128) (td : BitVec 3) (aA aB : BitVec 4) (kb : BitVec 10) (acc : Bool) (shape : BitVec 2) (last : Bool)
  /-- TMMA_T2I (R299): Tensor multiply-accumulate, INT8 A and ternary B. -/
  | tmmaT2i (l : Fin 128) (td : BitVec 3) (aA aB : BitVec 4) (kb : BitVec 10) (acc : Bool) (shape : BitVec 2) (last : Bool)
  /-- TMMA_WRITEBACK (R302): A tmma writes its tile and frees its tensor queue entry. -/
  | tmmaWriteback (l : Fin 128)
  /-- TZERO (R303): Clears a tile. -/
  | tzero (l : Fin 128) (td : BitVec 3) (last : Bool)
  /-- TREAD (R303): Reads 256 elements of a tile into a vector. -/
  | tread (l : Fin 128) (vd : BitVec 5) (ts : BitVec 3) (part : BitVec 4) (last : Bool)
  /-- TLOAD (R303): Writes a vector into 256 elements of a tile. -/
  | tload (l : Fin 128) (td : BitVec 3) (vs : BitVec 5) (part : BitVec 4) (last : Bool)
  /-- TFENCE (R304): Orders later bundles after earlier tmma operand reads. -/
  | tfence (l : Fin 128) (last : Bool)
  /-- TFENCE_DONE (R304): Every earlier tmma has finished reading and issue resumes. -/
  | tfenceDone (l : Fin 128)
  /-- VADD (R330): Lane-wise add. -/
  | vadd (l : Fin 128) (vd va vb : BitVec 5) (last : Bool)
  /-- VSUB (R330): Lane-wise subtract. -/
  | vsub (l : Fin 128) (vd va vb : BitVec 5) (last : Bool)
  /-- VMUL (R330): Lane-wise multiply. -/
  | vmul (l : Fin 128) (vd va vb : BitVec 5) (last : Bool)
  /-- VFMA (R330): Lane-wise fused multiply-add. -/
  | vfma (l : Fin 128) (vd va vb vc : BitVec 5) (last : Bool)
  /-- VMAX (R331): Lane-wise maximum. -/
  | vmax (l : Fin 128) (vd va vb : BitVec 5) (last : Bool)
  /-- VMIN (R331): Lane-wise minimum. -/
  | vmin (l : Fin 128) (vd va vb : BitVec 5) (last : Bool)
  /-- VABS (R331): Absolute value. -/
  | vabs (l : Fin 128) (vd va : BitVec 5) (last : Bool)
  /-- VNEG (R331): Negation. -/
  | vneg (l : Fin 128) (vd va : BitVec 5) (last : Bool)
  /-- VSEL (R331): Lane select. -/
  | vsel (l : Fin 128) (vd va vb vc : BitVec 5) (last : Bool)
  /-- VCMP (R331): Lane compare. -/
  | vcmp (l : Fin 128) (vd va vb : BitVec 5) (mod : BitVec 4) (last : Bool)
  /-- VEXP (R335): Correctly rounded e to the x. -/
  | vexp (l : Fin 128) (vd va : BitVec 5) (last : Bool)
  /-- VLOG (R335): Correctly rounded natural log. -/
  | vlog (l : Fin 128) (vd va : BitVec 5) (last : Bool)
  /-- VRCP (R335): Correctly rounded reciprocal. -/
  | vrcp (l : Fin 128) (vd va : BitVec 5) (last : Bool)
  /-- VRSQRT (R335): Correctly rounded reciprocal square root. -/
  | vrsqrt (l : Fin 128) (vd va : BitVec 5) (last : Bool)
  /-- VTANH (R335): Correctly rounded tanh. -/
  | vtanh (l : Fin 128) (vd va : BitVec 5) (last : Bool)
  /-- VSIGM (R335): Correctly rounded sigmoid. -/
  | vsigm (l : Fin 128) (vd va : BitVec 5) (last : Bool)
  /-- VSIN (R335): Correctly rounded sine. -/
  | vsin (l : Fin 128) (vd va : BitVec 5) (last : Bool)
  /-- VCOS (R335): Correctly rounded cosine. -/
  | vcos (l : Fin 128) (vd va : BitVec 5) (last : Bool)
  /-- VREDSUM (R332): Sum of all lanes in a fixed tree. -/
  | vredsum (l : Fin 128) (vd va : BitVec 5) (last : Bool)
  /-- VREDMAX (R332): Maximum of all lanes in a fixed tree. -/
  | vredmax (l : Fin 128) (vd va : BitVec 5) (last : Bool)
  /-- VSCAN (R333): Prefix sum in lane order. -/
  | vscan (l : Fin 128) (vd va : BitVec 5) (last : Bool)
  /-- VARGMAX (R334): Lowest lane holding the maximum. -/
  | vargmax (l : Fin 128) (sd va : BitVec 5) (last : Bool)
  /-- VFIRST (R334): Lowest lane at or above a threshold. -/
  | vfirst (l : Fin 128) (sd va vb : BitVec 5) (last : Bool)
  /-- VBCAST (R331): Broadcasts a scalar to every lane. -/
  | vbcast (l : Fin 128) (vd sa : BitVec 5) (last : Bool)
  /-- VEXT (R331): Extracts one lane to a scalar. -/
  | vext (l : Fin 128) (sd va : BitVec 5) (idx : BitVec 8) (last : Bool)
  /-- VROTL (R331): Rotates the lanes. -/
  | vrotl (l : Fin 128) (vd va : BitVec 5) (n : BitVec 8) (last : Bool)
  /-- VCVT (R305): Converts FP32 lanes to a narrower format part. -/
  | vcvt (l : Fin 128) (vd va : BitVec 5) (part mod : BitVec 4) (last : Bool)
  /-- VUNP (R305): Unpacks a narrower format part into FP32 lanes. -/
  | vunp (l : Fin 128) (vd va : BitVec 5) (part mod : BitVec 4) (last : Bool)
  /-- VRNG (R339): Counter-based random numbers. -/
  | vrng (l : Fin 128) (vd sa sb : BitVec 5) (last : Bool)
  /-- LATHE_DONE (R307): A DRAINING Lathe's queue, results, stores and descriptors are all served; it reports done and enters DONE. -/
  | latheDone (l : Fin 128)
  /-- LATHE_WATCHDOG (R312): LATHE_CYC_L reaches LATHE_WDOG_L before done, and the WATCHDOG fault starts hang recovery. -/
  | latheWatchdog (l : Fin 128)
  /-- LATHE_RESET (R313): A Lathe is reset: registers and queues cleared, Chuck zeroed, replicas rewritten and areas marked not arrived. -/
  | latheReset (lathe : Fin 128)
  /-- LATHE_INJ_CLEAR (R316): LATHE_INJ KIND 0 clears a persistent injection. -/
  | latheInjClear (l : Fin 128)
  /-- LATHE_INJ_CHUCK_CE (R316): LATHE_INJ KIND 1: a correctable error on the next Chuck read. -/
  | latheInjChuckCe (l : Fin 128)
  /-- LATHE_INJ_CHUCK_UE (R316): LATHE_INJ KIND 2: an uncorrectable error on the next Chuck read. -/
  | latheInjChuckUe (l : Fin 128)
  /-- LATHE_INJ_PARITY (R316): LATHE_INJ KIND 3: a parity error on the next register read. -/
  | latheInjParity (l : Fin 128)
  /-- LATHE_INJ_WATCHDOG (R316): LATHE_INJ KIND 4: fires the watchdog. -/
  | latheInjWatchdog (l : Fin 128)
  /-- LATHE_INJ_CWAIT_FAIL (R316): LATHE_INJ KIND 5: fails the next cwait as a timeout. -/
  | latheInjCwaitFail (l : Fin 128)
  /-- LATHE_INJ_STOP (R316): LATHE_INJ KIND 6: stops issuing at the next bundle, recurring when PERSIST is set. -/
  | latheInjStop (l : Fin 128) (persist : Bool)
  /-- LDR_INJ_DIGEST (R381): LDR_INJ KIND 1: fails the DIGEST check of the next PLAN_LOAD. -/
  | ldrInjDigest
  /-- LDR_INJ_AFTER (R381): LDR_INJ KIND 2: times out the next AFTER wait. -/
  | ldrInjAfter
  /-- LDR_INJ_BADLEN (R381): LDR_INJ KIND 3: fails the count check of the next command in window WIN. -/
  | ldrInjBadlen (w : Fin 1024)
  /-- GNOP (R444): Gouge no-op. -/
  | gnop (n : Fin 128)
  /-- GLI (R444): Gouge load immediate. -/
  | gli (n : Fin 128) (gd : BitVec 4) (imm : BitVec 16)
  /-- GLUI (R444): Gouge shift and OR an immediate. -/
  | glui (n : Fin 128) (gd : BitVec 4) (imm : BitVec 16)
  /-- GADD (R444): Gouge add. -/
  | gadd (n : Fin 128) (gd ga gb : BitVec 4)
  /-- GADDI (R444): Gouge add immediate. -/
  | gaddi (n : Fin 128) (gd ga : BitVec 4) (imm : BitVec 12)
  /-- GMUL (R444): Gouge multiply. -/
  | gmul (n : Fin 128) (gd ga gb : BitVec 4)
  /-- GPARAM (R444): Gouge reads a parameter. -/
  | gparam (n : Fin 128) (gd : BitVec 4) (p : BitVec 8)
  /-- GID (R444): Gouge reads an identity item. -/
  | gid (n : Fin 128) (gd k : BitVec 4)
  /-- GRUN (R437): Starts a gather batch from its descriptor. -/
  | grun (n : Fin 128) (ga : BitVec 4) (ext : List FarLine)
  /-- SEGMENT_START (R437): A context starts a segment's pass A once SEG_MAX combining entries are free. -/
  | segmentStart (n : Fin 128) (ext : List FarLine)
  /-- ROW_LANDED (R437): A fetched embedding row lands in the context's buffer. -/
  | rowLanded (n : Fin 128) (slot : BitVec 16) (far : List (BitVec 512)) (poison : Bool)
  /-- PASS_B_START (R437): Every row of a segment has landed; the context rescans, combines and pools. -/
  | passBStart (n : Fin 128) (ext : List FarLine)
  /-- BATCH_COMPLETE (R446): A batch's last output, drop and counted line is served, and grun returns. -/
  | batchComplete (n : Fin 128)
  /-- GWAIT (R446): Gouge waits on a counter. -/
  | gwait (n : Fin 128) (ch gv gt : BitVec 4) (far : BitVec 64)
  /-- GWAIT_SATISFIED (R446): The gouge's counter reaches its value. -/
  | gwaitSatisfied (n : Fin 128) (far : BitVec 64)
  /-- GWAIT_TIMEOUT (R446): A gwait times out and aborts the kernel. -/
  | gwaitTimeout (n : Fin 128)
  /-- GSIG (R446): Gouge counted signal write. -/
  | gsig (n : Fin 128) (ga : BitVec 4)
  /-- GLOOP (R445): Gouge static loop. -/
  | gloop (n : Fin 128) (len1 n1 : BitVec 12)
  /-- GLOOP_P (R445): Gouge loop with a parameter trip count. -/
  | gloopP (n : Fin 128) (len1 : BitVec 12) (p : BitVec 8)
  /-- GEND (R447): Ends the context and reports done. -/
  | gend (n : Fin 128)
  /-- CONTEXT_WATCHDOG (R448): A gather context's watchdog expires. -/
  | contextWatchdog (n : Fin 128)
  /-- GOUGE_INJ_CLEAR (R451): GOUGE_INJ KIND 0 clears a persistent injection. -/
  | gougeInjClear (g : Fin 16)
  /-- GOUGE_INJ_TABLE_UE (R451): GOUGE_INJ KIND 1: an uncorrectable error on the next combining table read. -/
  | gougeInjTableUe (g : Fin 16)
  /-- GOUGE_INJ_WATCHDOG (R451): GOUGE_INJ KIND 2: fires the watchdog of the next context to start. -/
  | gougeInjWatchdog (g : Fin 16)
  /-- GOUGE_INJ_GWAIT (R451): GOUGE_INJ KIND 3: fails the next gwait. -/
  | gougeInjGwait (g : Fin 16)
  /-- GOUGE_INJ_POISON (R451): GOUGE_INJ KIND 4: poisons the next row fetched. -/
  | gougeInjPoison (g : Fin 16)
  /-- GOUGE_INJ_STOP (R451): GOUGE_INJ KIND 5: stops the next context to start. -/
  | gougeInjStop (g : Fin 16) (persist : Bool)
  /-- KNOP (R480): Kite no-op. -/
  | knop (n : Fin 4096)
  /-- KLI (R480): Kite load immediate. -/
  | kli (n : Fin 4096) (kd : BitVec 4) (imm : BitVec 16)
  /-- KLUI (R480): Kite shift and OR an immediate. -/
  | klui (n : Fin 4096) (kd : BitVec 4) (imm : BitVec 16)
  /-- KADD (R480): Kite add. -/
  | kadd (n : Fin 4096) (kd ka kb : BitVec 4)
  /-- KADDI (R480): Kite add immediate. -/
  | kaddi (n : Fin 4096) (kd ka : BitVec 4) (imm : BitVec 12)
  /-- KMUL (R480): Kite multiply. -/
  | kmul (n : Fin 4096) (kd ka kb : BitVec 4)
  /-- KPARAM (R480): Kite reads a parameter. -/
  | kparam (n : Fin 4096) (kd : BitVec 4) (p : BitVec 8)
  /-- KID (R480): Kite reads an identity item. -/
  | kid (n : Fin 4096) (kd k : BitVec 4)
  /-- KWALK (R472): Runs one graph query from its descriptor. -/
  | kwalk (n : Fin 4096) (ka : BitVec 4) (ext : List FarLine)
  /-- KITE_READ_RETURN (R454): A kite's memory read returns, and the kite continues its walk step. -/
  | kiteReadReturn (n : Fin 4096) (ext : List FarLine)
  /-- QUERY_COMPLETE (R476): The walk ends, the result record is served and kwalk returns. -/
  | queryComplete (n : Fin 4096)
  /-- KWAIT (R481): Kite waits on a counter. -/
  | kwait (n : Fin 4096) (ch kv kt : BitVec 4) (far : BitVec 64)
  /-- KWAIT_SATISFIED (R481): The kite's counter reaches its value. -/
  | kwaitSatisfied (n : Fin 4096) (far : BitVec 64)
  /-- KWAIT_TIMEOUT (R481): A kwait times out and aborts the kernel. -/
  | kwaitTimeout (n : Fin 4096)
  /-- KSIG (R481): Kite counted signal write. -/
  | ksig (n : Fin 4096) (ka : BitVec 4)
  /-- KLOOP (R481): Kite static loop. -/
  | kloop (n : Fin 4096) (len1 n1 : BitVec 12)
  /-- KLOOP_P (R481): Kite loop with a parameter trip count. -/
  | kloopP (n : Fin 4096) (len1 : BitVec 12) (p : BitVec 8)
  /-- KEND (R481): Ends the kite and reports done. -/
  | kend (n : Fin 4096)
  /-- KITE_WATCHDOG (R481): A kite's watchdog expires. -/
  | kiteWatchdog (n : Fin 4096)
  /-- WALKER_INJ_CLEAR (R484): WALKER_INJ KIND 0 clears a persistent injection. -/
  | walkerInjClear (w : Fin 32)
  /-- WALKER_INJ_KMEM_UE (R484): WALKER_INJ KIND 1: an uncorrectable kite memory error. -/
  | walkerInjKmemUe (w : Fin 32)
  /-- WALKER_INJ_WATCHDOG (R484): WALKER_INJ KIND 2: fires the watchdog of the next kite to start. -/
  | walkerInjWatchdog (w : Fin 32)
  /-- WALKER_INJ_KWAIT (R484): WALKER_INJ KIND 3: fails the next kwait. -/
  | walkerInjKwait (w : Fin 32)
  /-- WALKER_INJ_POISON (R484): WALKER_INJ KIND 4: poisons the next node line read. -/
  | walkerInjPoison (w : Fin 32)
  /-- WALKER_INJ_STOP (R484): WALKER_INJ KIND 5: stops the next kite to start. -/
  | walkerInjStop (w : Fin 32) (persist : Bool)
  /-- UNIT_FETCH_DONE (R60): A tier-cache unit fetched from the medium is decoded into its frame, and the waiting accesses are served. -/
  | unitFetchDone (unit : BitVec 96)
  /-- REGION_DELETE_FINAL (R758): The last hold on a DELETING region ends, and the region is deleted and its storage released. -/
  | regionDeleteFinal (region : Fin 16384)
  /-- MIRROR_PEER_WRITE (R98): A mirror peer applies a write to its copy, which lets the home complete the write. -/
  | mirrorPeerWrite (line : FabLine) (data : BitVec 512)
  /-- MIRROR_PEER_LOST (R100): The mirror peer is lost; the home serves writes alone and marks the region degraded. -/
  | mirrorPeerLost (peer : BitVec 10)
  /-- PARITY_FOLD_RECORD (R104): A holder receives a fold record, XORs the delta into its parity line and acknowledges. -/
  | parityFoldRecord (slot : Fin 16) (unit : BitVec 32) (line : Fin 1024) (addr : BitVec 60) (delta : BitVec 512)
  /-- PARITY_FOLD_ACK (R104): A fold acknowledgement arrives, and the parity region write completes. -/
  | parityFoldAck (addr : BitVec 60)
  /-- MEDIUM_ENUMERATE (R109): The channels are reset, identified and trained, and the quads are enabled. -/
  | mediumEnumerate (chans : List MedChan) (profile : BitVec 8) (peRated : BitVec 16)
  /-- LOG_REPLAY (R129): At start-up, band headers and decision logs are read and the held version maps are rebuilt. -/
  | logReplay
  /-- PAGE_READ_DONE (R138): A page read completes and its codewords decode, or climb the next retry step, or are declared lost. -/
  | pageReadDone (loc : BitVec 40) (page : Fin 4) (cws : List (BitVec 4 × BitVec 16))
  /-- PAGE_PROGRAM_DONE (R145): A page program completes, or fails and is rewritten elsewhere with the block retired. -/
  | pageProgramDone (loc : BitVec 40) (fail : Option (Fin 4))
  /-- BLOCK_ERASE_DONE (R145): A block erase completes, or fails and the block is retired. -/
  | blockEraseDone (loc : BitVec 40) (fail : Option (Fin 4))
  /-- STATUS_TIMEOUT (R145): A flash status timeout fails the operation and resets the LUN, which goes out of service after three. -/
  | statusTimeout (chan : Fin 32) (loc : BitVec 40) (op : Fin 3)
  /-- BAND_RECLAIM (R132): Firmware reclaims a band: it relocates the units, rewrites the locators and requests retractions. -/
  | bandReclaim (loc : BitVec 40)
  /-- RETRACTION (R156): A holder removes a retracted contribution from its parity unit and acknowledges. -/
  | retraction (member : Fin 16) (loc : BitVec 40) (lines : List (BitVec 512))
  /-- RETRACTION_ACK (R156): The last retraction is acknowledged, and the band is erased. -/
  | retractionAck (loc : BitVec 40)
  /-- SCRUB_READ (R147): The scrubber reads a unit and records its retry step and corrected bits. -/
  | scrubRead (loc : BitVec 40) (page : Fin 4) (cws : List (BitVec 4 × BitVec 16))
  /-- CONTRIBUTION_ARRIVE (R151): A holder XORs a contribution into an open stripe, opening or closing stripes as needed. -/
  | contributionArrive (member : Fin 16) (loc : BitVec 40) (lines : List (BitVec 512))
  /-- STRIPE_CLOSE_TIMER (R152): A stripe's close time passes, and it is written as a PARITY unit and its contributions acknowledged. -/
  | stripeCloseTimer
  /-- CONTRIBUTION_COVERED (R155): A member receives a covered acknowledgement and lowers its uncovered count. -/
  | contributionCovered (loc : BitVec 40)
  /-- DEGRADED_READ (R157): A unit is rebuilt by reading its parity unit and the other contributions. Bit 40 of `loc` marks the locator of
  a lost member (R158). -/
  | degradedRead (chan : Fin 32) (loc : BitVec 41) (parity : Option (List (BitVec 512))) (others : List PartRead)
  /-- SUBSTITUTE_REBUILD (R158): A substitute rebuilds a lost member's medium in order of decisions, roots, maps and data. -/
  | substituteRebuild (item : RebuildItem) (last : Bool)
  /-- MED_INJ_FLIP (R160): MED_CH_INJ KIND 1: flips bits in one codeword. -/
  | medInjFlip (chan : Fin 32) (arg : BitVec 8)
  /-- MED_INJ_RETRY (R160): MED_CH_INJ KIND 2: fails decoding until a step. -/
  | medInjRetry (chan : Fin 32) (arg : BitVec 8)
  /-- MED_INJ_UNCORR (R160): MED_CH_INJ KIND 3: an uncorrectable read. -/
  | medInjUncorr (chan : Fin 32)
  /-- MED_INJ_PROG_FAIL (R160): MED_CH_INJ KIND 4: a program failure. -/
  | medInjProgFail (chan : Fin 32)
  /-- MED_INJ_ERASE_FAIL (R160): MED_CH_INJ KIND 5: an erase failure. -/
  | medInjEraseFail (chan : Fin 32)
  /-- MED_INJ_TIMEOUT (R160): MED_CH_INJ KIND 6: a status timeout. -/
  | medInjTimeout (chan : Fin 32)
  /-- HA_INJ_DROP_SNOOP_ANSWER (R253): HA_INJ KIND 1: discards the next snoop answer from HOST. -/
  | haInjDropSnoopAnswer (home : Fin 8) (host : Fin 64)
  /-- HA_INJ_DROP_CMPACK (R253): HA_INJ KIND 2: discards the next CmpAck from HOST. -/
  | haInjDropCmpack (home : Fin 8) (host : Fin 64)
  /-- HA_INJ_DIR_UE (R253): HA_INJ KIND 3: an uncorrectable directory error. -/
  | haInjDirUe (home : Fin 8)
  /-- HA_INJ_SF_UE (R253): HA_INJ KIND 4: an uncorrectable filter error. -/
  | haInjSfUe (home : Fin 8)
  /-- HA_INJ_POISON (R253): HA_INJ KIND 5: poisons the line of the next RdS. -/
  | haInjPoison (home : Fin 8)
  /-- PORT_DETECT (R493): A signal is detected on a lane, and the port enters EQUALIZE. -/
  | portDetect (port : Fin 16)
  /-- EQUALIZE_DONE (R493): The lanes converge or 100 ms pass, and the port enters ALIGN. -/
  | equalizeDone (port : Fin 16) (converged : BitVec 4)
  /-- ALIGN_DONE (R494): Lane order and deskew are settled, and the width is chosen. -/
  | alignDone (port : Fin 16) (order : List (Fin 4)) (far : BitVec 4)
  /-- CONFIG_DONE (R496): The identities match the binding, and the port enters ACTIVE. -/
  | configDone (port : Fin 16) (isHost : Bool) (far : BitVec 10) (credits : List (BitVec 6 × BitVec 12))
  /-- RETRAIN_DONE (R511): A retrain ends, and the sender resumes from ACK + 1. -/
  | retrainDone (port : Fin 16) (lanes : LaneMasks)
  /-- RETRAIN_TIMEOUT (R493): A retrain does not finish within 20 ms, and the port goes DOWN. -/
  | retrainTimeout (port : Fin 16)
  /-- TRAIN_RETRY_TIMER (R499): A DOWN port retries training once a second. -/
  | trainRetryTimer (port : Fin 16)
  /-- FLIT_PAYLOAD (R507): A PAYLOAD flit is received, checked, accepted in order or NAKed, and its messages pass to the switch. -/
  | flitPayload (port : Fin 16) (hdr : BitVec 64) (slots : List (BitVec 128)) (crcOk : Bool)
  /-- FLIT_IDLE (R502): An IDLE flit delivers its ACK and credits. -/
  | flitIdle (port : Fin 16) (hdr : BitVec 64) (crcOk : Bool)
  /-- ABORT_FLIT (R626): An ABORT CONTROL flit aborts the kernels of the named composition. -/
  | abortFlit (port : Fin 16) (hdr : BitVec 64) (slot : BitVec 128) (crcOk : Bool)
  /-- ACK_TIMER (R509): 256 switch cycles pass with something unacknowledged, and an ACK is sent. -/
  | ackTimer (port : Fin 16)
  /-- RESEND_TIMEOUT (R509): The oldest unacknowledged flit has waited 2,048 switch cycles, and it is resent. -/
  | resendTimeout (port : Fin 16)
  /-- CELL_PACK_TIMEOUT (R535): A partly filled cell is sent after 32 switch cycles. -/
  | cellPackTimeout (inp : Fin 42)
  /-- SWITCH_CYCLE (R538): Each switch cycle the scheduler matches inputs to outputs in three iterations and moves cells. -/
  | switchCycle
  /-- EPOCH_BOUNDARY (R552): A new scheduling epoch refills the budgets and applies pending configuration. -/
  | epochBoundary
  /-- SWITCH_CORE_RESET (R554): The switch core discards every cell, takes every port down and retrains the fabric ports. -/
  | switchCoreReset (parity : Bool)
  /-- REEL_READ_SERVE (R523): A remote gateway reads a requested reel from its homes and returns it, or answers STALE. -/
  | reelReadServe (src : FabSource) (txn : BitVec 12) (dom : BitVec 8) (addr : BitVec 60) (version : Option (BitVec 48))
  /-- REEL_FETCH_DONE (R522): All lines of a fetched reel arrive; the slot becomes CLEAN and the waiting accesses are served. -/
  | reelFetchDone (txn : Nat) (lines : List (BitVec 512 × Bool)) (err : Option (BitVec 4))
  /-- REEL_WB_APPLY (R529): The receiving gateway holds every line of a write-back, applies the reel whole and sends Cmp. -/
  | reelWbApply (src : FabSource) (txn : BitVec 12) (dom : BitVec 8) (base : BitVec 60) (lines : List (BitVec 10 × BitVec 512 × Bool))
  /-- REEL_WB_DONE (R529): Cmp for a write-back arrives, and the slot is freed. -/
  | reelWbDone (txn : Nat)
  /-- REEL_TIMEOUT (R532): A reel read or write-back gets no answer in time; reads are freed with Err FLUSHED and writes are resent. -/
  | reelTimeout (txn : Nat)
  /-- SW_MIRROR_WRITE (R545): A write to SW_MIRROR starts or stops mirroring, counting from EN. -/
  | swMirrorWrite (value : BitVec 64)
  /-- FAB_INJ_CRC (R556): FAB_INJ KIND 1: corrupts the CRC of the next flit sent. -/
  | fabInjCrc (port : Fin 16)
  /-- FAB_INJ_BAD_RX (R556): FAB_INJ KIND 2: treats the next flit received as bad. -/
  | fabInjBadRx (port : Fin 16)
  /-- FAB_INJ_LANE_FAIL (R556): FAB_INJ KIND 3: fails a lane at the next training. -/
  | fabInjLaneFail (port : Fin 16) (lane : Fin 4)
  /-- FAB_INJ_RETRAIN (R556): FAB_INJ KIND 4: forces a retrain. -/
  | fabInjRetrain (port : Fin 16)
  /-- FAB_INJ_DOWN (R556): FAB_INJ KIND 5: forces the port down. -/
  | fabInjDown (port : Fin 16)
  /-- SW_INJ_CELL_UE (R556): SW_INJ KIND 1: an uncorrectable error on the next cell read. -/
  | swInjCellUe
  /-- SW_INJ_PORT_DOWN (R556): SW_INJ KIND 2: takes a port down. -/
  | swInjPortDown (port : Fin 42)
  /-- SW_INJ_MIRROR_DROP (R556): SW_INJ KIND 3: drops the next mirror copy. -/
  | swInjMirrorDrop
  /-- GW_INJ_REMOTE_ERR (R556): GW_INJ KIND 1: answers the next reel read as REMOTE_ERR. -/
  | gwInjRemoteErr
  /-- GW_INJ_TIMEOUT (R556): GW_INJ KIND 2: times out the next reel read. -/
  | gwInjTimeout
  /-- GW_INJ_STAGE_UE (R556): GW_INJ KIND 3: an uncorrectable staging error. -/
  | gwInjStageUe
  /-- ETH_LINK_UP (R557): A command port completes autonegotiation and training, and its link comes up. -/
  | ethLinkUp (port : Fin 2)
  /-- ETH_LINK_DOWN (R562): A command port loses its link and goes down as a switch port. -/
  | ethLinkDown (port : Fin 2)
  /-- ARP_REQUEST (R559): ARP for the port's address is answered. -/
  | arpRequest (port : Fin 2) (target : BitVec 32) (frame : EthRx)
  /-- NEIGHBOR_SOLICITATION (R559): IPv6 Neighbour Solicitation is answered. -/
  | neighborSolicitation (port : Fin 2) (target : BitVec 128) (frame : EthRx)
  /-- ICMP_ECHO (R559): ICMP echo is answered. -/
  | icmpEcho (port : Fin 2) (dst : BitVec 32) (ident seq : BitVec 16) (frame : EthRx) (payload : List (BitVec 8))
  /-- ICMPV6_ECHO (R559): ICMPv6 echo is answered. -/
  | icmpv6Echo (port : Fin 2) (dst : BitVec 128) (ident seq : BitVec 16) (frame : EthRx) (payload : List (BitVec 8))
  /-- PFC_FRAME (R561): A received PFC frame pauses or resumes a priority. -/
  | pfcFrame (port : Fin 2) (prio : Fin 8) (pause : Bool)
  /-- OTHER_FRAME_DROP (R559): Any other non-ZCT frame is dropped and counted. -/
  | otherFrameDrop (port : Fin 2) (frame : EthRx)
  /-- ZCT_WRITE (R569): A WRITE block's lines are written in session order, with FENCE honoured, then acknowledged or refused by ERR. -/
  | zctWrite (port : Fin 2) (src : ZFrom) (h : ZHdr) (data : List (BitVec 512))
  /-- ZCT_READ (R563): A READ block is answered with one DATA block. -/
  | zctRead (port : Fin 2) (src : ZFrom) (h : ZHdr) (data : List (BitVec 512))
  /-- ZCT_ACK (R571): An ACK block acknowledges outbound blocks and reveals gaps by SACK. -/
  | zctAck (port : Fin 2) (src : ZFrom) (h : ZHdr)
  /-- ZCT_ACK_TIMER (R571): The controller acknowledges within 20 µs. -/
  | zctAckTimer (session : Fin 256)
  /-- ZCT_RESEND_TIMEOUT (R571): RTO passes and an outbound block is resent; after 16 resends the session is LOST. -/
  | zctResendTimeout (session : Fin 256) (seq : BitVec 32)
  /-- CAP_READ (R574): Management request answered with the capability block. -/
  | capRead (src : MgmtFrom) (seq : BitVec 32)
  /-- REG_READ (R574): Management read of up to 128 registers. -/
  | regRead (src : MgmtFrom) (seq : BitVec 32) (offs : List (BitVec 64))
  /-- REG_WRITE (R575): Management write of RW, W1C and WO registers in domain 0. -/
  | regWrite (src : MgmtFrom) (seq : BitVec 32) (pairs : List (BitVec 64 × BitVec 64))
  /-- MGMT_COMPOSE (R659): A signed composition command arrives in chunks and is acted on when complete. -/
  | mgmtCompose (src : MgmtFrom) (seq off total : BitVec 32) (data : List (BitVec 8))
  /-- QUOTE (R677): An attestation request is answered with a signed quote. -/
  | quote (src : MgmtFrom) (seq : BitVec 32) (vnonce : BitVec 256) (filter : BitVec 16) (cert rsvZero : Bool)
  /-- IMAGE (R672): Image chunks are received; a complete image is checked and written to the slot. -/
  | image (src : MgmtFrom) (seq : BitVec 32) (off : BitVec 64) (total rsv : BitVec 32) (data : List (BitVec 8))
  /-- SLOT_WRITE_DONE (R673): The slot write finishes and is verified in place, rewritten once on a mismatch. -/
  | slotWriteDone (bad : List (BitVec 25 × BitVec 8)) (rails : List (BitVec 17))
  /-- HEARTBEAT (R574): A received heartbeat marks its port alive. -/
  | heartbeat (src : MgmtFrom) (seq : BitVec 32)
  /-- HEARTBEAT_TIMER (R578): Every 100 ms a heartbeat goes out on both ports, and silent ports are marked SUSPECT. -/
  | heartbeatTimer
  /-- SET_ADDR (R574): A signed message sets a management port's global address. -/
  | setAddr (src : MgmtFrom) (seq : BitVec 32) (target : Fin 2) (addr : BitVec 128) (signedOk : Bool)
  /-- MGMT_ACK (R586): A manager acknowledgement frees the FAULT entries it covers. -/
  | mgmtAck (src : MgmtFrom) (ack : BitVec 32)
  /-- MGMT_RESEND_TIMEOUT (R577): An unacknowledged message is resent on the other port after 20 ms. -/
  | mgmtResendTimeout (msg : BitVec 32)
  /-- ETH_INJ_CRC (R580): ETH_INJ KIND 1: corrupts the next ZCT block received. -/
  | ethInjCrc (port : Fin 2)
  /-- ETH_INJ_DROP (R580): ETH_INJ KIND 2: drops the next ZCT block sent. -/
  | ethInjDrop (port : Fin 2)
  /-- ETH_INJ_FEC (R580): ETH_INJ KIND 3: an uncorrectable FEC codeword. -/
  | ethInjFec (port : Fin 2)
  /-- ETH_INJ_LINK_DOWN (R580): ETH_INJ KIND 4: takes the link down. -/
  | ethInjLinkDown (port : Fin 2)
  /-- ERR_ACK (R586): A write to ERR_ACK_c frees the N oldest entries. -/
  | errAck (cls : Fin 12) (n : BitVec 8)
  /-- HOME_WARM_RESET (R591): The home writes back its store and filter, flushes its tracker and clears its queues. -/
  | homeWarmReset (home : Fin 8)
  /-- HOME_COLD_RESET (R593): The stack is retrained and its contents poisoned, restored, dropped or invalidated by kind. -/
  | homeColdReset (home : Fin 8)
  /-- BACKGROUND_RESTORE (R594): The home restores lines in the background after a cold reset. -/
  | backgroundRestore (home : Fin 8)
  /-- MEDIUM_CHANNEL_RESET (R595): A medium channel engine and its decoders are reset and retrained. -/
  | mediumChannelReset (chan : Fin 32) (trains : List (BitVec 16))
  /-- KERNEL_CONTEXT_RECOVERY (R600): A kernel's engine state is reset, and its engines are released with a FAULT completion. -/
  | kernelContextRecovery (w : Fin 1024)
  /-- ENGINE_RESET (R595): A walker or gouge is reset with all its contexts. -/
  | engineReset (engine : Fin 48)
  /-- RESET_DEADLINE (R597): A reset exceeds its target time and counts as a further error. -/
  | resetDeadline (kind : Fin 17) (unit : BitVec 12)
  /-- REPLAY_START (R612): The next suspect is replayed alone on the engine once its Lathes are IDLE. -/
  | replayStart (w : Fin 1024)
  /-- FROZEN_TIMEOUT (R614): FROZEN_MS passes, and a guilty kernel is dumped, released and completed with WATCHDOG. -/
  | frozenTimeout (w : Fin 1024)
  /-- TETHER_SWEEP (R635): Every lease the tether records are read, and the expired ones are orphaned and listed. -/
  | tetherSweep (tether : Fin 16)
  /-- ORPH_ACK (R643): A write frees the oldest orphan entries and clears OVERFLOW. -/
  | orphAck (n : BitVec 13)
  /-- DUMP_RELEASE (R643): DUMP_SEL RELEASE clears UNREAD of a slot. -/
  | dumpRelease (slot : Fin 2)
  /-- WHOLE_DEVICE_RESET (R641): Every fast domain is reset, the tables are emptied, Headstock runs again and the device rejoins. -/
  | wholeDeviceReset
  /-- RECOV_INJ_CW_ACCESS (R587): RECOV_INJ KIND 1: a control-window access error. -/
  | recovInjCwAccess
  /-- RECOV_INJ_RESET (R587): RECOV_INJ KIND 2: resets the domain of UNIT. -/
  | recovInjReset (unit : BitVec 16)
  /-- RECOV_INJ_NESTED (R587): RECOV_INJ KIND 3: an error in the running recovery. -/
  | recovInjNested (unit : BitVec 16)
  /-- RECOV_INJ_RIP (R587): RECOV_INJ KIND 4: pulls the rip panel. -/
  | recovInjRip
  /-- RECOV_INJ_TETHER_SWEEP (R587): RECOV_INJ KIND 5: runs the tether sweep now. -/
  | recovInjTetherSweep
  /-- RECOV_INJ_ABORT (R587): RECOV_INJ KIND 6: sends ABORT for a domain's composition. -/
  | recovInjAbort (dom : BitVec 8)
  /-- RECOV_INJ_CTRL_UE (R587): RECOV_INJ KIND 7: an uncorrectable control core error. -/
  | recovInjCtrlUe
  /-- STK_INJ_CE (R587): STK_INJ KIND 1: a correctable line error. -/
  | stkInjCe (stack : Fin 8)
  /-- STK_INJ_UE (R587): STK_INJ KIND 2: an uncorrectable line error. -/
  | stkInjUe (stack : Fin 8)
  /-- STK_INJ_TRK_UE (R587): STK_INJ KIND 3: a tracker error calling for a warm reset. -/
  | stkInjTrkUe (stack : Fin 8)
  /-- STK_INJ_CTR_UE (R587): STK_INJ KIND 4: a counter store error calling for a cold reset. -/
  | stkInjCtrUe (stack : Fin 8)
  /-- STK_INJ_TRAIN (R587): STK_INJ KIND 5: a stack training loss. -/
  | stkInjTrain (stack : Fin 8)
  /-- REG_SET (R660): Composition operation that writes composer-only registers. -/
  | regSet (pairs : List (BitVec 64 × BitVec 64)) (eth : List EthAddr)
  /-- REGION_SET (R756): Composition operation that creates or changes a region entry. -/
  | regionSet (index : BitVec 64) (entry : BitVec 512)
  /-- REGION_DELETE (R758): A REGION_SET with VALID 0 deletes a region at once or marks it DELETING. -/
  | regionDelete (index : BitVec 64)
  /-- DOMAIN_SET (R647): Composition operation that writes a domain table entry. -/
  | domainSet (domain : BitVec 64) (entry : BitVec 2048)
  /-- GROUP_SET (R541): Composition operation that writes a multicast group. -/
  | groupSet (group : BitVec 64) (entry : BitVec 2048)
  /-- HOST_RELEASE (R251): Sweeps the homes to poison the host's lines, then clears FENCED. -/
  | hostRelease (host buf bytes : BitVec 64)
  /-- LINE_RESTORE (R250): Overwrites poisoned lines from a source version. -/
  | lineRestore (first count region version offset : BitVec 64)
  /-- MASTER_RELEASE (R655): Clears the freeze of a host, session or kernel. -/
  | masterRelease (kind number : BitVec 64)
  /-- RECOVER_RELEASE (R614): Releases a guilty frozen kernel. -/
  | recoverRelease (win : BitVec 64)
  /-- UNIT_RETURN (R598): Returns a unit to service. -/
  | unitReturn (unit : BitVec 64)
  /-- RIP_RELEASE (R608): Ends the rip panel with a whole-device reset. -/
  | ripRelease
  /-- KEY_REVOKE (R666): Burns an owner slot's revoke fuse. -/
  | keyRevoke (slot : BitVec 64) (signer : BitVec 2)
  /-- HEADSTOCK (R668): The standby core verifies and measures the image and starts the control cores or enters recovery. -/
  | headstock (spiOk identityOk : Bool) (rails : List (BitVec 17))
  /-- SVN_ADVANCE (R670): Once every home is READY, MIN_SVN is burnt up to the image SVN. -/
  | svnAdvance
  /-- BOOT_INJ_SIG (R680): BOOT_INJ KIND 1: fails the next composition signature check. -/
  | bootInjSig
  /-- BOOT_INJ_VERIFY (R680): BOOT_INJ KIND 2: fails the next verification in place. -/
  | bootInjVerify
  /-- ISO_INJ_HOST (R680): ISO_INJ KIND 1: treats a host's next request as a violation. -/
  | isoInjHost (host : Fin 64)
  /-- ISO_INJ_SESSION (R680): ISO_INJ KIND 2: treats a session's next block as a violation. -/
  | isoInjSession (session : Fin 256)
  /-- AON_PG_RISE (R735): The always-on domain leaves reset. -/
  | aonPgRise
  /-- AON_PG_FALL (R740): The always-on domain is held in reset. -/
  | aonPgFall
  /-- STBY_PG_RISE (R682): The straps are sampled, the standby domain comes up and Headstock runs. -/
  | stbyPgRise (slot : BitVec 4) (hold tsEn ref0 : Bool)
  /-- STBY_PG_FALL (R740): The standby domain is held in reset. -/
  | stbyPgFall
  /-- XTAL_START (R743): The crystal oscillator starts and the always-on clock begins counting. -/
  | xtalStart
  /-- RESET_N_PULSE (R740): A low pulse starts a whole-device reset, is ignored under the rip panel, or reruns Headstock in recovery. -/
  | resetNPulse (held : Bool)
  /-- PLL_UNLOCK (R684): A PLL loses lock or a reference clock stops, starting a whole-device reset. -/
  | pllUnlock (which : BitVec 8)
  /-- BALLAST_TICK (R688): Each pace tick refills the ledger and grants queued clock requests in priority order. -/
  | ballastTick
  /-- CLOCK_IDLE_STOP (R685): A unit idle for IDLE_US requests its clock stop. -/
  | clockIdleStop (unit : BitVec 16)
  /-- POWER_SAMPLE (R695): Every 10 µs power and temperature are sampled, and the clock is throttled or stepped up. -/
  | powerSample (watts : BitVec 16) (temp : BitVec 8)
  /-- PWR_REQ_RUN (R699): REQ 1 runs the rest of the reset from STANDBY, or is refused. -/
  | pwrReqRun
  /-- PWR_REQ_STANDBY (R699): REQ 2 dumps and turns the fast domains off. -/
  | pwrReqStandby
  /-- RAIL_TIMEOUT (R738): A rail not in tolerance within 10 ms aborts the power-up sequence. -/
  | railTimeout (rail : Fin 7)
  /-- BALLAST_CFG_WRITE (R692): A BALLAST_CFG write takes effect, raising DEPTH to 64 if lower. -/
  | ballastCfgWrite (v : BitVec 64)
  /-- PMBUS_POLL (R700): Each millisecond the enabled rails are read, and faults and under-voltages are handled. -/
  | pmbusPoll (reads : List PmbRead)
  /-- PWR_INJ_HOT (R704): PWR_INJ KIND 1: a hot sample. -/
  | pwrInjHot
  /-- PWR_INJ_PMB_FAIL (R704): PWR_INJ KIND 2: fails the next PMBus transaction. -/
  | pwrInjPmbFail
  /-- PWR_INJ_STATUS_FAULT (R704): PWR_INJ KIND 3: reports a regulator fault. -/
  | pwrInjStatusFault
  /-- PWR_INJ_TRIP (R704): PWR_INJ KIND 4: a thermal trip. -/
  | pwrInjTrip
  /-- PMU_FREEZE (R713): FREEZE 1 stops every counter at one freeze point. -/
  | pmuFreeze
  /-- PMU_UNFREEZE (R714): FREEZE 0 resumes counting and applies pending additions. -/
  | pmuUnfreeze
  /-- PMU_SNAP (R715): SNAP copies every counter at one freeze point. -/
  | pmuSnap
  /-- SNAP_DONE (R715): Every snapshot copy is held, and SNAP_BUSY clears. -/
  | snapDone
  /-- PMC_CNT_WRITE (R711): Sets a counter to the written value plus the events of that cycle. -/
  | pmcCntWrite (block : Fin 207) (ctr : Fin 16) (v : BitVec 64)
  /-- TAG_ACK (R726): Frees the oldest tag ring entries. -/
  | tagAck (n : BitVec 13)
  /-- MIR_ACK (R727): Frees the oldest mirror ring entries. -/
  | mirAck (n : BitVec 13)
  /-- TS_EN_FALL (R749): Tailstock ends its session and abandons the command in progress. -/
  | tsEnFall
  /-- TS_SESSION_START (R750): The first character starts a Tailstock session and logs a BOOT entry. -/
  | tsSessionStart (tsEn : Bool)
  /-- TS_STAT (R753): Tailstock prints the status registers. -/
  | tsStat
  /-- TS_RD (R753): Tailstock reads a register. -/
  | tsRd (off : BitVec 64)
  /-- TS_WR (R753): Tailstock writes a register. -/
  | tsWr (off v : BitVec 64)
  /-- TS_MRD (R753): Tailstock reads memory lines. -/
  | tsMrd (addr : BitVec 60) (lines : BitVec 8)
  /-- TS_MWR (R753): Tailstock writes a memory line. -/
  | tsMwr (addr : BitVec 60) (data : BitVec 512)
  /-- TS_LOG (R753): Tailstock prints an error log class. -/
  | tsLog (cls : Fin 12)
  /-- TS_ACK (R753): Tailstock acknowledges log entries. -/
  | tsAck (cls : Fin 12) (n : BitVec 8)
  /-- TS_DUMP (R753): Tailstock reads a dump slot. -/
  | tsDump (slot : Fin 2) (off : BitVec 64) (lines : BitVec 16)
  /-- TS_INJ (R753): Tailstock writes an injection register. -/
  | tsInj (off : BitVec 64) (kind : BitVec 4) (arg : BitVec 24)
  /-- TS_RECOVER_RESET (R753): Tailstock starts a whole-device reset and ends the rip panel. -/
  | tsRecoverReset
  /-- TS_RECOVER_BOOT (R753): Tailstock forces a recovery boot. -/
  | tsRecoverBoot
  /-- TS_LOAD (R754): Tailstock receives an image by XMODEM and writes it. -/
  | tsLoad (image : List (BitVec 8))
  /-- TS_ENROL (R755): Tailstock enrols an owner key digest. -/
  | tsEnrol (slot : Fin 4) (key : List (BitVec 8))
  /-- EXTEST (R744): JTAG EXTEST instruction. -/
  | extest (pins : List Bool) (vals : List (Fin 22 × Bool))
  /-- SAMPLE_PRELOAD (R744): JTAG SAMPLE/PRELOAD instruction. -/
  | samplePreload (pins : List Bool) (vals : List (Fin 22 × Bool))
  /-- IDCODE (R745): JTAG IDCODE returns 0x2748_056B. -/
  | idcode
  /-- CLAMP (R746): JTAG CLAMP instruction, only with the fast domain off. -/
  | clamp
  /-- HIGHZ (R746): JTAG HIGHZ instruction, only with the fast domain off. -/
  | highz
  /-- BYPASS (R744): JTAG BYPASS instruction, also taken by every other opcode. -/
  | bypass (opcode : BitVec 8)
  /-- RESET_N_RISE (R740): RESET_N rises after a held-low reset, and the whole-device reset that waited with its fast domains off proceeds. -/
  | resetNRise
  /-- MGMT_LINK_DOWN (R578): A management port loses its link, is marked DOWN in MGMT_STAT and sets MGMT_ERR.LINK0 or LINK1. -/
  | mgmtLinkDown (port : Fin 2)
  /-- MGMT_LINK_UP (R578): A management port regains its link and leaves DOWN in MGMT_STAT. -/
  | mgmtLinkUp (port : Fin 2)
  /-- STACK_TRAINING_LOSS (R590): A stack loses its training, which sets STK_ERR_h.TRAIN and calls for a cold reset of its home agent. -/
  | stackTrainingLoss (stack : Fin 8)
  /-- CONTROL_CORE_UE (R587): An uncorrectable control core error sets RECOV_ERR.CTRL_UE and starts a whole-device reset. -/
  | controlCoreUe
  /-- RELEASE_SWEEP_DONE (R251): The last home finishes its HOST_RELEASE directory sweep, FENCED clears and the composition completion is written. -/
  | releaseSweepDone (host : Fin 64)
  /-- PEER_COPY_DONE (R100): The copy of a region to a new mirror peer or parity cover completes, protection is restored and the old cover is released. -/
  | peerCopyDone (region : Fin 16384)
  /-- FRAME_ZEROED (R651): A released frame finishes zeroing at the lowest spool priority and TIER_STAT.FREE_FRAMES counts it again. -/
  | frameZeroed
  deriving DecidableEq, Repr

end Sys2Proof
end

