-- ==== Sys2Proof/Decode.lean ====
section
/-! DEFINITION. Decode.lean: the command that a word spells: by the opcode table, which gives no row any bits, and by the layouts of
the programs that Lathes, gather contexts and kites run, whose slots and instructions are rows of the table (R273, R274, R444, R480). -/

namespace Sys2Proof

/-- The command that the bits of a word spell by the opcode table: the table gives no row any, so there is none. -/
def decodeTableWord (_nbits _w : Nat) : Option Instr := none

/-! Words of programs: an opcode in bits [31:24] and operand fields below it. -/

/-- The field of `n` bits that begins at bit `lo`. -/
def field (w n lo : Nat) : BitVec n := BitVec.ofNat n (w / 2 ^ lo)

/-- A word of an opcode and its operand fields, each with the bit that it begins at; every other bit is zero. -/
def opWord (op : Nat) (fs : List (Nat × Nat)) : Nat := op * 2 ^ 24 + (fs.map (fun f => f.1 * 2 ^ f.2)).sum

/-- The word of a command that is a slot of a bundle or an instruction of a gouge or kite program (R273 to R282, R298, R303, R305, R444,
R480). What the command carries from outside the word is left out of it. -/
def Instr.progWord (c : Instr) : Option Nat :=
  match c with
  | .nop _ _ => some (opWord 0x00 [])
  | .sli _ sd imm _ => some (opWord 0x01 [(sd.toNat, 19), (imm.toNat, 0)])
  | .slui _ sd imm _ => some (opWord 0x02 [(sd.toNat, 19), (imm.toNat, 0)])
  | .sadd _ sd sa sb _ => some (opWord 0x03 [(sd.toNat, 19), (sa.toNat, 14), (sb.toNat, 9)])
  | .ssub _ sd sa sb _ => some (opWord 0x04 [(sd.toNat, 19), (sa.toNat, 14), (sb.toNat, 9)])
  | .smul _ sd sa sb _ => some (opWord 0x05 [(sd.toNat, 19), (sa.toNat, 14), (sb.toNat, 9)])
  | .sand _ sd sa sb _ => some (opWord 0x06 [(sd.toNat, 19), (sa.toNat, 14), (sb.toNat, 9)])
  | .sor _ sd sa sb _ => some (opWord 0x07 [(sd.toNat, 19), (sa.toNat, 14), (sb.toNat, 9)])
  | .sxor _ sd sa sb _ => some (opWord 0x08 [(sd.toNat, 19), (sa.toNat, 14), (sb.toNat, 9)])
  | .sshl _ sd sa sb _ => some (opWord 0x09 [(sd.toNat, 19), (sa.toNat, 14), (sb.toNat, 9)])
  | .sshr _ sd sa sb _ => some (opWord 0x0A [(sd.toNat, 19), (sa.toNat, 14), (sb.toNat, 9)])
  | .ssra _ sd sa sb _ => some (opWord 0x0B [(sd.toNat, 19), (sa.toNat, 14), (sb.toNat, 9)])
  | .smin _ sd sa sb _ => some (opWord 0x0D [(sd.toNat, 19), (sa.toNat, 14), (sb.toNat, 9)])
  | .smax _ sd sa sb _ => some (opWord 0x0E [(sd.toNat, 19), (sa.toNat, 14), (sb.toNat, 9)])
  | .saddi _ sd sa imm _ => some (opWord 0x0C [(sd.toNat, 19), (sa.toNat, 14), (imm.toNat, 0)])
  | .sparam _ sd p _ => some (opWord 0x10 [(sd.toNat, 19), (p.toNat, 0)])
  | .sid _ sd k _ => some (opWord 0x11 [(sd.toNat, 19), (k.toNat, 0)])
  | .loop _ len n _ => some (opWord 0x20 [(len.toNat, 12), (n.toNat, 0)])
  | .loopP _ len p _ => some (opWord 0x21 [(len.toNat, 12), (p.toNat, 0)])
  | .aset _ ad f sa _ => some (opWord 0x30 [(ad.toNat, 20), (f.toNat, 16), (sa.toNat, 11)])
  | .aget _ sd ad _ => some (opWord 0x31 [(sd.toNat, 19), (ad.toNat, 15)])
  | .commit _ _ => some (opWord 0x3F [])
  | .mload _ vd ag _ => some (opWord 0x01 [(vd.toNat, 19), (ag.toNat, 15)])
  | .mstore _ vs ag _ => some (opWord 0x02 [(vs.toNat, 19), (ag.toNat, 15)])
  | .sld _ sd ag _ => some (opWord 0x03 [(sd.toNat, 19), (ag.toNat, 15)])
  | .sst _ sa ag _ => some (opWord 0x04 [(sa.toNat, 19), (ag.toNat, 15)])
  | .mspool _ dix sa sb _ => some (opWord 0x08 [(dix.toNat, 14), (sa.toNat, 9), (sb.toNat, 4)])
  | .carm _ ch _ => some (opWord 0x10 [(ch.toNat, 20)])
  | .cwait _ ch st so _ _ => some (opWord 0x11 [(ch.toNat, 20), (st.toNat, 15), (so.toNat, 10)])
  | .cread _ sd ch _ _ => some (opWord 0x12 [(sd.toNat, 19), (ch.toNat, 15)])
  | .mfence _ _ => some (opWord 0x18 [])
  | .mdrain _ _ => some (opWord 0x19 [])
  | .tmmaBf16 _ td aA aB kb acc shape _ => some (opWord 0x01 [(td.toNat, 21), (aA.toNat, 17), (aB.toNat, 13), (kb.toNat, 3), (acc.toNat, 2), (shape.toNat, 0)])
  | .tmmaFp16 _ td aA aB kb acc shape _ => some (opWord 0x02 [(td.toNat, 21), (aA.toNat, 17), (aB.toNat, 13), (kb.toNat, 3), (acc.toNat, 2), (shape.toNat, 0)])
  | .tmmaE4m3 _ td aA aB kb acc shape _ => some (opWord 0x03 [(td.toNat, 21), (aA.toNat, 17), (aB.toNat, 13), (kb.toNat, 3), (acc.toNat, 2), (shape.toNat, 0)])
  | .tmmaE5m2 _ td aA aB kb acc shape _ => some (opWord 0x04 [(td.toNat, 21), (aA.toNat, 17), (aB.toNat, 13), (kb.toNat, 3), (acc.toNat, 2), (shape.toNat, 0)])
  | .tmmaInt8 _ td aA aB kb acc shape _ => some (opWord 0x05 [(td.toNat, 21), (aA.toNat, 17), (aB.toNat, 13), (kb.toNat, 3), (acc.toNat, 2), (shape.toNat, 0)])
  | .tmmaMxfp8 _ td aA aB kb acc shape _ => some (opWord 0x06 [(td.toNat, 21), (aA.toNat, 17), (aB.toNat, 13), (kb.toNat, 3), (acc.toNat, 2), (shape.toNat, 0)])
  | .tmmaMxfp8e5 _ td aA aB kb acc shape _ => some (opWord 0x07 [(td.toNat, 21), (aA.toNat, 17), (aB.toNat, 13), (kb.toNat, 3), (acc.toNat, 2), (shape.toNat, 0)])
  | .tmmaMxfp6 _ td aA aB kb acc shape _ => some (opWord 0x08 [(td.toNat, 21), (aA.toNat, 17), (aB.toNat, 13), (kb.toNat, 3), (acc.toNat, 2), (shape.toNat, 0)])
  | .tmmaMxfp6e3 _ td aA aB kb acc shape _ => some (opWord 0x09 [(td.toNat, 21), (aA.toNat, 17), (aB.toNat, 13), (kb.toNat, 3), (acc.toNat, 2), (shape.toNat, 0)])
  | .tmmaMxint8 _ td aA aB kb acc shape _ => some (opWord 0x0A [(td.toNat, 21), (aA.toNat, 17), (aB.toNat, 13), (kb.toNat, 3), (acc.toNat, 2), (shape.toNat, 0)])
  | .tmmaMxfp4 _ td aA aB kb acc shape _ => some (opWord 0x0B [(td.toNat, 21), (aA.toNat, 17), (aB.toNat, 13), (kb.toNat, 3), (acc.toNat, 2), (shape.toNat, 0)])
  | .tmmaInt4 _ td aA aB kb acc shape _ => some (opWord 0x0C [(td.toNat, 21), (aA.toNat, 17), (aB.toNat, 13), (kb.toNat, 3), (acc.toNat, 2), (shape.toNat, 0)])
  | .tmmaMxfp4x8 _ td aA aB kb acc shape _ => some (opWord 0x0D [(td.toNat, 21), (aA.toNat, 17), (aB.toNat, 13), (kb.toNat, 3), (acc.toNat, 2), (shape.toNat, 0)])
  | .tmmaT2 _ td aA aB kb acc shape _ => some (opWord 0x0E [(td.toNat, 21), (aA.toNat, 17), (aB.toNat, 13), (kb.toNat, 3), (acc.toNat, 2), (shape.toNat, 0)])
  | .tmmaT2i _ td aA aB kb acc shape _ => some (opWord 0x0F [(td.toNat, 21), (aA.toNat, 17), (aB.toNat, 13), (kb.toNat, 3), (acc.toNat, 2), (shape.toNat, 0)])
  | .tzero _ td _ => some (opWord 0x20 [(td.toNat, 21)])
  | .tread _ vd ts part _ => some (opWord 0x21 [(vd.toNat, 19), (ts.toNat, 16), (part.toNat, 0)])
  | .tload _ td vs part _ => some (opWord 0x22 [(td.toNat, 21), (vs.toNat, 16), (part.toNat, 0)])
  | .tfence _ _ => some (opWord 0x30 [])
  | .vadd _ vd va vb _ => some (opWord 0x01 [(vd.toNat, 19), (va.toNat, 14), (vb.toNat, 9)])
  | .vsub _ vd va vb _ => some (opWord 0x02 [(vd.toNat, 19), (va.toNat, 14), (vb.toNat, 9)])
  | .vmul _ vd va vb _ => some (opWord 0x03 [(vd.toNat, 19), (va.toNat, 14), (vb.toNat, 9)])
  | .vmax _ vd va vb _ => some (opWord 0x05 [(vd.toNat, 19), (va.toNat, 14), (vb.toNat, 9)])
  | .vmin _ vd va vb _ => some (opWord 0x06 [(vd.toNat, 19), (va.toNat, 14), (vb.toNat, 9)])
  | .vfma _ vd va vb vc _ => some (opWord 0x04 [(vd.toNat, 19), (va.toNat, 14), (vb.toNat, 9), (vc.toNat, 4)])
  | .vabs _ vd va _ => some (opWord 0x07 [(vd.toNat, 19), (va.toNat, 14)])
  | .vneg _ vd va _ => some (opWord 0x08 [(vd.toNat, 19), (va.toNat, 14)])
  | .vsel _ vd va vb vc _ => some (opWord 0x09 [(vd.toNat, 19), (va.toNat, 14), (vb.toNat, 9), (vc.toNat, 4)])
  | .vcmp _ vd va vb mod _ => some (opWord 0x0A [(vd.toNat, 19), (va.toNat, 14), (vb.toNat, 9), (mod.toNat, 0)])
  | .vexp _ vd va _ => some (opWord 0x10 [(vd.toNat, 19), (va.toNat, 14)])
  | .vlog _ vd va _ => some (opWord 0x11 [(vd.toNat, 19), (va.toNat, 14)])
  | .vrcp _ vd va _ => some (opWord 0x12 [(vd.toNat, 19), (va.toNat, 14)])
  | .vrsqrt _ vd va _ => some (opWord 0x13 [(vd.toNat, 19), (va.toNat, 14)])
  | .vtanh _ vd va _ => some (opWord 0x14 [(vd.toNat, 19), (va.toNat, 14)])
  | .vsigm _ vd va _ => some (opWord 0x15 [(vd.toNat, 19), (va.toNat, 14)])
  | .vsin _ vd va _ => some (opWord 0x16 [(vd.toNat, 19), (va.toNat, 14)])
  | .vcos _ vd va _ => some (opWord 0x17 [(vd.toNat, 19), (va.toNat, 14)])
  | .vredsum _ vd va _ => some (opWord 0x20 [(vd.toNat, 19), (va.toNat, 14)])
  | .vredmax _ vd va _ => some (opWord 0x21 [(vd.toNat, 19), (va.toNat, 14)])
  | .vscan _ vd va _ => some (opWord 0x22 [(vd.toNat, 19), (va.toNat, 14)])
  | .vargmax _ sd va _ => some (opWord 0x23 [(sd.toNat, 19), (va.toNat, 14)])
  | .vfirst _ sd va vb _ => some (opWord 0x24 [(sd.toNat, 19), (va.toNat, 14), (vb.toNat, 9)])
  | .vbcast _ vd sa _ => some (opWord 0x28 [(vd.toNat, 19), (sa.toNat, 14)])
  | .vext _ sd va idx _ => some (opWord 0x29 [(sd.toNat, 19), (va.toNat, 14), (idx.toNat, 5)])
  | .vrotl _ vd va n _ => some (opWord 0x2A [(vd.toNat, 19), (va.toNat, 14), (n.toNat, 5)])
  | .vcvt _ vd va part mod _ => some (opWord 0x30 [(vd.toNat, 19), (va.toNat, 14), (part.toNat, 9), (mod.toNat, 0)])
  | .vunp _ vd va part mod _ => some (opWord 0x31 [(vd.toNat, 19), (va.toNat, 14), (part.toNat, 9), (mod.toNat, 0)])
  | .vrng _ vd sa sb _ => some (opWord 0x38 [(vd.toNat, 19), (sa.toNat, 14), (sb.toNat, 9)])
  | .gnop _ => some (opWord 0x00 [])
  | .gli _ d imm => some (opWord 0x01 [(d.toNat, 20), (imm.toNat, 0)])
  | .glui _ d imm => some (opWord 0x02 [(d.toNat, 20), (imm.toNat, 0)])
  | .gadd _ d a b => some (opWord 0x03 [(d.toNat, 20), (a.toNat, 16), (b.toNat, 12)])
  | .gaddi _ d a imm => some (opWord 0x04 [(d.toNat, 20), (a.toNat, 16), (imm.toNat, 0)])
  | .gmul _ d a b => some (opWord 0x05 [(d.toNat, 20), (a.toNat, 16), (b.toNat, 12)])
  | .gparam _ d p => some (opWord 0x06 [(d.toNat, 20), (p.toNat, 0)])
  | .gid _ d k => some (opWord 0x07 [(d.toNat, 20), (k.toNat, 0)])
  | .grun _ a _ => some (opWord 0x10 [(a.toNat, 20)])
  | .gwait _ ch v t _ => some (opWord 0x11 [(ch.toNat, 20), (v.toNat, 16), (t.toNat, 12)])
  | .gsig _ a => some (opWord 0x12 [(a.toNat, 20)])
  | .gloop _ len n => some (opWord 0x20 [(len.toNat, 12), (n.toNat, 0)])
  | .gloopP _ len p => some (opWord 0x21 [(len.toNat, 12), (p.toNat, 0)])
  | .gend _ => some (opWord 0x3F [])
  | .knop _ => some (opWord 0x00 [])
  | .kli _ d imm => some (opWord 0x01 [(d.toNat, 20), (imm.toNat, 0)])
  | .klui _ d imm => some (opWord 0x02 [(d.toNat, 20), (imm.toNat, 0)])
  | .kadd _ d a b => some (opWord 0x03 [(d.toNat, 20), (a.toNat, 16), (b.toNat, 12)])
  | .kaddi _ d a imm => some (opWord 0x04 [(d.toNat, 20), (a.toNat, 16), (imm.toNat, 0)])
  | .kmul _ d a b => some (opWord 0x05 [(d.toNat, 20), (a.toNat, 16), (b.toNat, 12)])
  | .kparam _ d p => some (opWord 0x06 [(d.toNat, 20), (p.toNat, 0)])
  | .kid _ d k => some (opWord 0x07 [(d.toNat, 20), (k.toNat, 0)])
  | .kwalk _ a _ => some (opWord 0x10 [(a.toNat, 20)])
  | .kwait _ ch v t _ => some (opWord 0x11 [(ch.toNat, 20), (v.toNat, 16), (t.toNat, 12)])
  | .ksig _ a => some (opWord 0x12 [(a.toNat, 20)])
  | .kloop _ len n => some (opWord 0x20 [(len.toNat, 12), (n.toNat, 0)])
  | .kloopP _ len p => some (opWord 0x21 [(len.toNat, 12), (p.toNat, 0)])
  | .kend _ => some (opWord 0x3F [])
  | _ => none

/-- The parts that vcvt and vunp know of a format (R305): 2 of 16 bits, 4 of 8 bits, 8 of 4 bits. -/
def cvtParts (mod : Nat) : Nat :=
  match mod with
  | 2 => 2
  | 3 => 2
  | 4 => 4
  | 5 => 4
  | 12 => 4
  | 13 => 8
  | _ => 0

/-- Does each operand field of the command hold a value that its instruction defines (R274, R279, R298, R303, R305)? -/
def Instr.operandsOk (c : Instr) : Bool :=
  match c with
  | .sid _ _ k _ => decide (k.toNat < 8)
  | .aset _ _ f _ _ => decide (f.toNat < 11)
  | .tread _ _ _ part _ => decide (part.toNat < 10)
  | .tload _ _ _ part _ => decide (part.toNat < 10)
  | .vcmp _ _ _ _ mod _ => decide (mod.toNat < 4)
  | .vcvt _ _ _ part mod _ => decide (part.toNat < cvtParts mod.toNat)
  | .vunp _ _ _ part mod _ => decide (part.toNat < cvtParts mod.toNat)
  | .tmmaBf16 _ _ _ _ _ _ shape _ => shape != 3
  | .tmmaFp16 _ _ _ _ _ _ shape _ => shape != 3
  | .tmmaE4m3 _ _ _ _ _ _ shape _ => shape != 3
  | .tmmaE5m2 _ _ _ _ _ _ shape _ => shape != 3
  | .tmmaInt8 _ _ _ _ _ _ shape _ => shape != 3
  | .tmmaMxfp8 _ _ _ _ _ _ shape _ => shape != 3
  | .tmmaMxfp8e5 _ _ _ _ _ _ shape _ => shape != 3
  | .tmmaMxfp6 _ _ _ _ _ _ shape _ => shape != 3
  | .tmmaMxfp6e3 _ _ _ _ _ _ shape _ => shape != 3
  | .tmmaMxint8 _ _ _ _ _ _ shape _ => shape != 3
  | .tmmaMxfp4 _ _ _ _ _ _ shape _ => shape != 3
  | .tmmaInt4 _ _ _ _ _ _ shape _ => shape != 3
  | .tmmaMxfp4x8 _ _ _ _ _ _ shape _ => shape != 3
  | .tmmaT2 _ _ _ _ _ _ shape _ => shape != 3
  | .tmmaT2i _ _ _ _ _ _ shape _ => shape != 3
  | .gid _ _ k => decide (k.toNat < 4)
  | .kid _ _ k => decide (k.toNat < 4)
  | _ => true

/-- The command that an opcode and its fields pick in the S slot (R273), on Lathe `l`. -/
def sPick (l : Fin 128) (w : Nat) (last : Bool) : Option Instr :=
  match w / 2 ^ 24 with
  | 0x00 => some (.nop l last)
  | 0x01 => some (.sli l (field w 5 19) (field w 16 0) last)
  | 0x02 => some (.slui l (field w 5 19) (field w 16 0) last)
  | 0x03 => some (.sadd l (field w 5 19) (field w 5 14) (field w 5 9) last)
  | 0x04 => some (.ssub l (field w 5 19) (field w 5 14) (field w 5 9) last)
  | 0x05 => some (.smul l (field w 5 19) (field w 5 14) (field w 5 9) last)
  | 0x06 => some (.sand l (field w 5 19) (field w 5 14) (field w 5 9) last)
  | 0x07 => some (.sor l (field w 5 19) (field w 5 14) (field w 5 9) last)
  | 0x08 => some (.sxor l (field w 5 19) (field w 5 14) (field w 5 9) last)
  | 0x09 => some (.sshl l (field w 5 19) (field w 5 14) (field w 5 9) last)
  | 0x0A => some (.sshr l (field w 5 19) (field w 5 14) (field w 5 9) last)
  | 0x0B => some (.ssra l (field w 5 19) (field w 5 14) (field w 5 9) last)
  | 0x0D => some (.smin l (field w 5 19) (field w 5 14) (field w 5 9) last)
  | 0x0E => some (.smax l (field w 5 19) (field w 5 14) (field w 5 9) last)
  | 0x0C => some (.saddi l (field w 5 19) (field w 5 14) (field w 14 0) last)
  | 0x10 => some (.sparam l (field w 5 19) (field w 8 0) last)
  | 0x11 => some (.sid l (field w 5 19) (field w 4 0) last)
  | 0x20 => some (.loop l (field w 12 12) (field w 12 0) last)
  | 0x21 => some (.loopP l (field w 12 12) (field w 8 0) last)
  | 0x30 => some (.aset l (field w 4 20) (field w 4 16) (field w 5 11) last)
  | 0x31 => some (.aget l (field w 5 19) (field w 4 15) last)
  | 0x3F => some (.commit l last)
  | _ => none

/-- The same in the M slot (R282): `far` is the value of another controller's counter, for one that asks for it. -/
def mPick (l : Fin 128) (w : Nat) (far : BitVec 64) (last : Bool) : Option Instr :=
  match w / 2 ^ 24 with
  | 0x00 => some (.nop l last)
  | 0x01 => some (.mload l (field w 5 19) (field w 4 15) last)
  | 0x02 => some (.mstore l (field w 5 19) (field w 4 15) last)
  | 0x03 => some (.sld l (field w 5 19) (field w 4 15) last)
  | 0x04 => some (.sst l (field w 5 19) (field w 4 15) last)
  | 0x08 => some (.mspool l (field w 10 14) (field w 5 9) (field w 5 4) last)
  | 0x10 => some (.carm l (field w 4 20) last)
  | 0x11 => some (.cwait l (field w 4 20) (field w 5 15) (field w 5 10) far last)
  | 0x12 => some (.cread l (field w 5 19) (field w 4 15) far last)
  | 0x18 => some (.mfence l last)
  | 0x19 => some (.mdrain l last)
  | _ => none

/-- The same in the T slot (R298, R303). -/
def tPick (l : Fin 128) (w : Nat) (last : Bool) : Option Instr :=
  match w / 2 ^ 24 with
  | 0x00 => some (.nop l last)
  | 0x01 => some (.tmmaBf16 l (field w 3 21) (field w 4 17) (field w 4 13) (field w 10 3) (w.testBit 2) (field w 2 0) last)
  | 0x02 => some (.tmmaFp16 l (field w 3 21) (field w 4 17) (field w 4 13) (field w 10 3) (w.testBit 2) (field w 2 0) last)
  | 0x03 => some (.tmmaE4m3 l (field w 3 21) (field w 4 17) (field w 4 13) (field w 10 3) (w.testBit 2) (field w 2 0) last)
  | 0x04 => some (.tmmaE5m2 l (field w 3 21) (field w 4 17) (field w 4 13) (field w 10 3) (w.testBit 2) (field w 2 0) last)
  | 0x05 => some (.tmmaInt8 l (field w 3 21) (field w 4 17) (field w 4 13) (field w 10 3) (w.testBit 2) (field w 2 0) last)
  | 0x06 => some (.tmmaMxfp8 l (field w 3 21) (field w 4 17) (field w 4 13) (field w 10 3) (w.testBit 2) (field w 2 0) last)
  | 0x07 => some (.tmmaMxfp8e5 l (field w 3 21) (field w 4 17) (field w 4 13) (field w 10 3) (w.testBit 2) (field w 2 0) last)
  | 0x08 => some (.tmmaMxfp6 l (field w 3 21) (field w 4 17) (field w 4 13) (field w 10 3) (w.testBit 2) (field w 2 0) last)
  | 0x09 => some (.tmmaMxfp6e3 l (field w 3 21) (field w 4 17) (field w 4 13) (field w 10 3) (w.testBit 2) (field w 2 0) last)
  | 0x0A => some (.tmmaMxint8 l (field w 3 21) (field w 4 17) (field w 4 13) (field w 10 3) (w.testBit 2) (field w 2 0) last)
  | 0x0B => some (.tmmaMxfp4 l (field w 3 21) (field w 4 17) (field w 4 13) (field w 10 3) (w.testBit 2) (field w 2 0) last)
  | 0x0C => some (.tmmaInt4 l (field w 3 21) (field w 4 17) (field w 4 13) (field w 10 3) (w.testBit 2) (field w 2 0) last)
  | 0x0D => some (.tmmaMxfp4x8 l (field w 3 21) (field w 4 17) (field w 4 13) (field w 10 3) (w.testBit 2) (field w 2 0) last)
  | 0x0E => some (.tmmaT2 l (field w 3 21) (field w 4 17) (field w 4 13) (field w 10 3) (w.testBit 2) (field w 2 0) last)
  | 0x0F => some (.tmmaT2i l (field w 3 21) (field w 4 17) (field w 4 13) (field w 10 3) (w.testBit 2) (field w 2 0) last)
  | 0x20 => some (.tzero l (field w 3 21) last)
  | 0x21 => some (.tread l (field w 5 19) (field w 3 16) (field w 4 0) last)
  | 0x22 => some (.tload l (field w 3 21) (field w 5 16) (field w 4 0) last)
  | 0x30 => some (.tfence l last)
  | _ => none

/-- The same in the V slot (R305). -/
def vPick (l : Fin 128) (w : Nat) (last : Bool) : Option Instr :=
  match w / 2 ^ 24 with
  | 0x00 => some (.nop l last)
  | 0x01 => some (.vadd l (field w 5 19) (field w 5 14) (field w 5 9) last)
  | 0x02 => some (.vsub l (field w 5 19) (field w 5 14) (field w 5 9) last)
  | 0x03 => some (.vmul l (field w 5 19) (field w 5 14) (field w 5 9) last)
  | 0x05 => some (.vmax l (field w 5 19) (field w 5 14) (field w 5 9) last)
  | 0x06 => some (.vmin l (field w 5 19) (field w 5 14) (field w 5 9) last)
  | 0x04 => some (.vfma l (field w 5 19) (field w 5 14) (field w 5 9) (field w 5 4) last)
  | 0x07 => some (.vabs l (field w 5 19) (field w 5 14) last)
  | 0x08 => some (.vneg l (field w 5 19) (field w 5 14) last)
  | 0x09 => some (.vsel l (field w 5 19) (field w 5 14) (field w 5 9) (field w 5 4) last)
  | 0x0A => some (.vcmp l (field w 5 19) (field w 5 14) (field w 5 9) (field w 4 0) last)
  | 0x10 => some (.vexp l (field w 5 19) (field w 5 14) last)
  | 0x11 => some (.vlog l (field w 5 19) (field w 5 14) last)
  | 0x12 => some (.vrcp l (field w 5 19) (field w 5 14) last)
  | 0x13 => some (.vrsqrt l (field w 5 19) (field w 5 14) last)
  | 0x14 => some (.vtanh l (field w 5 19) (field w 5 14) last)
  | 0x15 => some (.vsigm l (field w 5 19) (field w 5 14) last)
  | 0x16 => some (.vsin l (field w 5 19) (field w 5 14) last)
  | 0x17 => some (.vcos l (field w 5 19) (field w 5 14) last)
  | 0x20 => some (.vredsum l (field w 5 19) (field w 5 14) last)
  | 0x21 => some (.vredmax l (field w 5 19) (field w 5 14) last)
  | 0x22 => some (.vscan l (field w 5 19) (field w 5 14) last)
  | 0x23 => some (.vargmax l (field w 5 19) (field w 5 14) last)
  | 0x24 => some (.vfirst l (field w 5 19) (field w 5 14) (field w 5 9) last)
  | 0x28 => some (.vbcast l (field w 5 19) (field w 5 14) last)
  | 0x29 => some (.vext l (field w 5 19) (field w 5 14) (field w 8 5) last)
  | 0x2A => some (.vrotl l (field w 5 19) (field w 5 14) (field w 8 5) last)
  | 0x30 => some (.vcvt l (field w 5 19) (field w 5 14) (field w 4 9) (field w 4 0) last)
  | 0x31 => some (.vunp l (field w 5 19) (field w 5 14) (field w 4 9) (field w 4 0) last)
  | 0x38 => some (.vrng l (field w 5 19) (field w 5 14) (field w 5 9) last)
  | _ => none

/-- The command of an instruction word of a gather context (R444). -/
def gPick (n : Fin 128) (w : Nat) (far : BitVec 64) : Option Instr :=
  match w / 2 ^ 24 with
  | 0x00 => some (.gnop n)
  | 0x01 => some (.gli n (field w 4 20) (field w 16 0))
  | 0x02 => some (.glui n (field w 4 20) (field w 16 0))
  | 0x03 => some (.gadd n (field w 4 20) (field w 4 16) (field w 4 12))
  | 0x04 => some (.gaddi n (field w 4 20) (field w 4 16) (field w 12 0))
  | 0x05 => some (.gmul n (field w 4 20) (field w 4 16) (field w 4 12))
  | 0x06 => some (.gparam n (field w 4 20) (field w 8 0))
  | 0x07 => some (.gid n (field w 4 20) (field w 4 0))
  | 0x10 => some (.grun n (field w 4 20) [])
  | 0x11 => some (.gwait n (field w 4 20) (field w 4 16) (field w 4 12) far)
  | 0x12 => some (.gsig n (field w 4 20))
  | 0x20 => some (.gloop n (field w 12 12) (field w 12 0))
  | 0x21 => some (.gloopP n (field w 12 12) (field w 8 0))
  | 0x3F => some (.gend n)
  | _ => none

/-- The command of an instruction word of a kite (R480). -/
def kPick (n : Fin 4096) (w : Nat) (far : BitVec 64) : Option Instr :=
  match w / 2 ^ 24 with
  | 0x00 => some (.knop n)
  | 0x01 => some (.kli n (field w 4 20) (field w 16 0))
  | 0x02 => some (.klui n (field w 4 20) (field w 16 0))
  | 0x03 => some (.kadd n (field w 4 20) (field w 4 16) (field w 4 12))
  | 0x04 => some (.kaddi n (field w 4 20) (field w 4 16) (field w 12 0))
  | 0x05 => some (.kmul n (field w 4 20) (field w 4 16) (field w 4 12))
  | 0x06 => some (.kparam n (field w 4 20) (field w 8 0))
  | 0x07 => some (.kid n (field w 4 20) (field w 4 0))
  | 0x10 => some (.kwalk n (field w 4 20) [])
  | 0x11 => some (.kwait n (field w 4 20) (field w 4 16) (field w 4 12) far)
  | 0x12 => some (.ksig n (field w 4 20))
  | 0x20 => some (.kloop n (field w 12 12) (field w 12 0))
  | 0x21 => some (.kloopP n (field w 12 12) (field w 8 0))
  | 0x3F => some (.kend n)
  | _ => none

/-- The command that a word picks, none when the opcode is not listed, a field holds an undefined value or a bit of no field is set
(R274): the word is then not the one of the command. -/
def defined (c : Option Instr) (w : Nat) : Option Instr := c.filter (fun i => i.operandsOk && i.progWord == some w)

/-- The command of slot `no` of a bundle (R273): 0 the S slot, 1 the M, 2 the T and 3 the V slot. -/
def slotCommand (l : Fin 128) (no w : Nat) (far : BitVec 64) (last : Bool) : Option Instr :=
  defined (if no = 0 then sPick l w last else if no = 1 then mPick l w far last else if no = 2 then tPick l w last else vPick l w last) w

/-- The command of an instruction word of a gather context, and of a kite. -/
def gougeCommand (n : Fin 128) (w : Nat) (far : BitVec 64) : Option Instr := defined (gPick n w far) w
def kiteCommand (n : Fin 4096) (w : Nat) (far : BitVec 64) : Option Instr := defined (kPick n w far) w

/-- A bundle's slot word (R273). -/
def slotWord (b no : Nat) : Nat := b / 2 ^ (32 * no) % 2 ^ 32

/-- The commands that Lathe `l` issues for a bundle of 128 bits, one for each slot (R273): a slot whose word is not defined is
ILLEGAL (R274). -/
def bundleCommands (l : Fin 128) (b : Nat) (far : BitVec 64) : List Instr :=
  (List.finRange 4).map (fun no => (slotCommand l no.val (slotWord b no.val) far (no.val == 3)).getD (.illegalBundle l no))

end Sys2Proof
end

