-- ==== Sys2Proof/Config.lean ====
section
/-! DEFINITION. Config.lean: what an implementation fixes and what the spec leaves open. Every constant here is
opaque: nothing in Lean can evaluate it, so a claim about the model holds for every value of it. -/

namespace Sys2Proof.Config

/-- The set of a home agent's snoop filter that holds a line. R236 gives 8,192 sets of 16 ways and no set index
function (assumption 12). -/
opaque filterSet : Nat → Nat

/-- The reading of the always-on clock that a log entry or a tag record carries (R583, R725), by the model's own
counter of free values (assumption 5). -/
opaque freeTime : Nat → BitVec 48

/-- The entropy of a fresh COMP_NONCE (R663), by the model's own counter of free values (assumption 5). -/
opaque freeNonce : Nat → BitVec 64

/-- An unstated number, by the model's own counter of free values (assumption 5). -/
opaque freeWord : Nat → BitVec 64

/-- A 64-bit word of a collected dump, by the dump's free number and the byte offset in its slot: R618 gives the parts of a
dump and no byte layout (assumption 21). -/
opaque dumpWord : Nat → Nat → BitVec 64

/-- The arrival counter that member `m`'s parity fold ring is bound to: R176 and R104 name none (assumption 164). -/
opaque ringCounter : Nat → Nat

/-- The parity that the LDPC code of R113 gives 4,096 B of data and 32 B of metadata: the manual prints no code (assumption 169). -/
opaque ldpcParity : List (BitVec 512) → BitVec 256 → BitVec 3840

/-- A line of a BAND_HEADER, a DECISION unit or the band table, by the numbers it records: R115, R122, R125 and R135 say what they
hold and give no layout (assumption 170). -/
opaque recordLine : List Nat → Nat → BitVec 512

/-- The value that the controller gives an ONFI feature address at a rate in MT/s: R112 names the addresses alone (assumption 171). -/
opaque featureValue : Nat → Nat → Nat

/-- The LUN feature address and its value for an entry of the retry table of a medium profile (R112, R138, assumption 171). -/
opaque retryFeature : Nat → Nat → Nat × Nat

/-- SHAKE256 over bytes, to 64 bytes: the digest the manual names and defines elsewhere (assumption 14). -/
opaque shake256 : List (BitVec 8) → BitVec 512

/-- Falcon-1024 verification of a signature over bytes by a public key, defined elsewhere (assumption 14). -/
opaque falconVerify : List (BitVec 8) → List (BitVec 8) → List (BitVec 8) → Bool

/-- A Falcon-1024 signature by the device key over bytes (R677, assumption 14). -/
opaque falconSign : List (BitVec 8) → List (BitVec 8)

/-- Skeica's two firmware keys in the Headstock ROM (R668): Falcon-1024 public keys that the manual does not print (assumption
14). -/
opaque romKey : Nat → List (BitVec 8)

/-- Skeica's device certificate, 3,200 B in the identity sector (R675, assumption 14). -/
opaque certificate : List (BitVec 8)

/-- The MAC address that the fuses give an Ethernet port (R560): 0 and 1 command, 2 and 3 management (assumption 194). -/
opaque macAddr : Nat → BitVec 48

/-- The addresses of command ports that the pairs of a signed REG_SET in those ports' register blocks set: R560 has a signed composition
command set them, and the manual names neither a register nor a layout for them (assumption 194). -/
opaque ethAddrs : List (BitVec 64 × BitVec 64) → List EthAddr

end Sys2Proof.Config
end

