-- ==== Sys2Proof/Machine/Sparse.lean ====
section
/-! DEFINITION. Machine/Sparse.lean: maps held as sorted lists of key and value in one canonical form: keys strictly
rising and no entry equal to what an unlisted key reads as. Registers and every table of units use these. -/

namespace Sys2Proof.Machine

/-- What key `k` holds: the listed value, or the default of an unlisted key. -/
def Sparse.get {α : Type} (m : List (Nat × α)) (k : Nat) (d : α) : α :=
  match m with
  | [] => d
  | (k', v) :: rest => if k' = k then v else Sparse.get rest k d

/-- The list without key `k`. -/
def Sparse.del {α : Type} (m : List (Nat × α)) (k : Nat) : List (Nat × α) :=
  m.filter (fun e => e.1 != k)

/-- The list with `k` holding `v`, in rising order of keys. -/
def Sparse.ins {α : Type} (m : List (Nat × α)) (k : Nat) (v : α) : List (Nat × α) :=
  match m with
  | [] => [(k, v)]
  | (k', v') :: rest =>
    if k < k' then (k, v) :: (k', v') :: rest
    else if k' = k then (k, v) :: rest
    else (k', v') :: Sparse.ins rest k v

/-- Write `v` at `k`: the default of the key leaves the list (the canonical form). -/
def Sparse.set {α : Type} [DecidableEq α] (m : List (Nat × α)) (k : Nat) (d v : α) : List (Nat × α) :=
  if v = d then Sparse.del m k else Sparse.ins m k v

/-- The keys rise strictly. -/
def Sparse.sorted {α : Type} : List (Nat × α) → Bool
  | [] => true
  | [_] => true
  | a :: b :: rest => decide (a.1 < b.1) && Sparse.sorted (b :: rest)

/-- A sorted list of numbers used as a set: add. -/
def Sparse.add (m : List Nat) (k : Nat) : List Nat :=
  match m with
  | [] => [k]
  | k' :: rest => if k < k' then k :: k' :: rest else if k' = k then k' :: rest else k' :: Sparse.add rest k

/-- A list used as a set: remove. -/
def Sparse.rem (m : List Nat) (k : Nat) : List Nat := m.filter (fun e => e != k)

end Sys2Proof.Machine
end

