-- ==== Sys2Proof/Machine/RegTable.lean ====
section
/-! DEFINITION. Machine/RegTable.lean: every register map of the manual as rows: where its registers lie in the local
control window, what they hold after reset, and which of their bits are RW, W1C and WO (R14). Each row names the rule
that stands before its map. -/

namespace Sys2Proof.Machine

/-- One row of a register map: registers at base + i * s1 + j * s2 for i < n1 and j < n2; `keep` marks the bits that a
whole-device reset keeps: sticky fields and counts, and what lies outside the fast domain (R641, R17). -/
structure RegRow where
  base : Nat
  n1 : Nat
  s1 : Nat
  n2 : Nat
  s2 : Nat
  reset : Nat
  rw : Nat
  w1c : Nat
  wo : Nat
  keep : Nat
  deriving DecidableEq, Repr

/-- The register maps of chapter 01. -/
def regTable01 : List RegRow := [
  -- CAP_ID (R27)
  ⟨0x0, 1, 0x8, 1, 0x8, 0x5c1a748020000000, 0x0, 0x0, 0x0, 0x0⟩,
  -- CAP_CONTRACT (R27)
  ⟨0x8, 1, 0x8, 1, 0x8, 0x2000000010001, 0x0, 0x0, 0x0, 0x0⟩,
  -- CAP_LATHE (R27)
  ⟨0x10, 1, 0x8, 1, 0x8, 0x80081006284008, 0x0, 0x0, 0x0, 0x0⟩,
  -- CAP_CLOCK (R27)
  ⟨0x18, 1, 0x8, 1, 0x8, 0x960064004b00000, 0x0, 0x0, 0x0, 0x0⟩,
  -- CAP_MEM (R27)
  ⟨0x20, 1, 0x8, 1, 0x8, 0x800400c00800800, 0x0, 0x0, 0x0, 0x0⟩,
  -- CAP_MEDIUM (R27)
  ⟨0x28, 1, 0x8, 1, 0x8, 0x2048100e10000000, 0x0, 0x0, 0x0, 0x0⟩,
  -- CAP_SEARCH (R27)
  ⟨0x30, 1, 0x8, 1, 0x8, 0x2040802004001000, 0x0, 0x0, 0x0, 0x0⟩,
  -- CAP_GATHER (R27)
  ⟨0x38, 1, 0x8, 1, 0x8, 0x1001000002000000, 0x0, 0x0, 0x0, 0x0⟩,
  -- CAP_SPOOL (R27)
  ⟨0x40, 1, 0x8, 1, 0x8, 0x88400c14100400, 0x0, 0x0, 0x0, 0x0⟩,
  -- CAP_ADDR (R27)
  ⟨0x48, 1, 0x8, 1, 0x8, 0x3c40001004000100, 0x0, 0x0, 0x0, 0x0⟩,
  -- CAP_HOME (R27)
  ⟨0x50, 1, 0x8, 1, 0x8, 0x82000010004143e8, 0x0, 0x0, 0x0, 0x0⟩,
  -- CAP_SWITCH (R27)
  ⟨0x58, 1, 0x8, 1, 0x8, 0x2a10020401904030, 0x0, 0x0, 0x0, 0x0⟩,
  -- CAP_FEATURE (R27)
  ⟨0x60, 1, 0x8, 1, 0x8, 0x3f, 0x0, 0x0, 0x0, 0x0⟩,
  -- CAP_CLOCK2 (R27)
  ⟨0x68, 1, 0x8, 1, 0x8, 0x64007d003840000, 0x0, 0x0, 0x0, 0x0⟩,
  -- CAP_WALK (R27)
  ⟨0x70, 1, 0x8, 1, 0x8, 0x200200010000, 0x0, 0x0, 0x0, 0x0⟩]

/-- The register maps of chapter 02. -/
def regTable02 : List RegRow := [
  -- ADDR_SELF (R48)
  ⟨0x1000, 1, 0x8, 1, 0x8, 0x3f0, 0x0, 0x0, 0x0, 0xf⟩,
  -- ADDR_MIRROR_POOL (R48)
  ⟨0x1008, 1, 0x8, 1, 0x8, 0x0, 0x0, 0x0, 0x0, 0x0⟩,
  -- TIER_STAT (R48)
  ⟨0x1010, 1, 0x8, 1, 0x8, 0x7f8000, 0x0, 0x0, 0x0, 0x0⟩,
  -- DRAFT_STAT_d (R764)
  ⟨0x220000, 1024, 0x10, 1, 0x8, 0x0, 0x0, 0x0, 0x0, 0x0⟩,
  -- DRAFT_BASE_d (R764)
  ⟨0x220008, 1024, 0x10, 1, 0x8, 0x0, 0x0, 0x0, 0x0, 0x0⟩,
  -- QUOTA_STACK_n (R97)
  ⟨0x210000, 256, 0x40, 1, 0x8, 0x0, 0x0, 0x0, 0x0, 0x0⟩,
  -- USE_STACK_n (R97)
  ⟨0x210008, 256, 0x40, 1, 0x8, 0x0, 0x0, 0x0, 0x0, 0x0⟩,
  -- QUOTA_MEDIUM_n (R97)
  ⟨0x210010, 256, 0x40, 1, 0x8, 0x0, 0x0, 0x0, 0x0, 0x0⟩,
  -- USE_MEDIUM_n (R97)
  ⟨0x210018, 256, 0x40, 1, 0x8, 0x0, 0x0, 0x0, 0x0, 0x0⟩,
  -- QUOTA_DRAFT_n (R97)
  ⟨0x210020, 256, 0x40, 1, 0x8, 0x0, 0x0, 0x0, 0x0, 0x0⟩,
  -- USE_DRAFT_n (R97)
  ⟨0x210028, 256, 0x40, 1, 0x8, 0x0, 0x0, 0x0, 0x0, 0x0⟩,
  -- QUOTA_STAT_n (R97)
  ⟨0x210030, 256, 0x40, 1, 0x8, 0x0, 0x0, 0x0, 0x0, 0x7⟩,
  -- PGRP_n (R104)
  ⟨0x230000, 16, 0x8, 1, 0x8, 0x0, 0x0, 0x0, 0x0, 0x0⟩,
  -- region table (R47)
  ⟨0x100000, 16384, 0x40, 8, 0x8, 0x0, 0x0, 0x0, 0x0, 0x0⟩]

/-- The register maps of chapter 03. -/
def regTable03 : List RegRow := [
  -- MED_CFG (R159)
  ⟨0x300000, 1, 0x8, 1, 0x8, 0x2640000, 0xffff0000, 0x0, 0x0, 0x0⟩,
  -- MED_STAT (R159)
  ⟨0x300008, 1, 0x8, 1, 0x8, 0x0, 0x0, 0x0, 0x0, 0x0⟩,
  -- MED_PARITY (R159)
  ⟨0x300010, 1, 0x8, 1, 0x8, 0x6400000000, 0x0, 0x0, 0x0, 0x0⟩,
  -- MED_WEAR (R159)
  ⟨0x300018, 1, 0x8, 1, 0x8, 0x1f400000000, 0xffff00000000, 0x0, 0x0, 0x0⟩,
  -- MED_SCRUB (R159)
  ⟨0x300020, 1, 0x8, 1, 0x8, 0x5a00a800300400, 0xffffffffffffff00, 0x0, 0x0, 0x0⟩,
  -- MED_DRESV_n (R159)
  ⟨0x300800, 256, 0x8, 1, 0x8, 0x0, 0x0, 0x0, 0x0, 0x0⟩,
  -- MED_CH_GEOM_c (R159)
  ⟨0x301000, 32, 0x100, 1, 0x8, 0x0, 0x0, 0x0, 0x0, 0x0⟩,
  -- MED_CH_STAT_c (R159)
  ⟨0x301008, 32, 0x100, 1, 0x8, 0x0, 0x0, 0x0, 0x0, 0x0⟩,
  -- MED_CH_ERR_c (R159)
  ⟨0x301080, 32, 0x100, 1, 0x8, 0x0, 0x0, 0xff, 0x0, 0xff⟩,
  -- MED_CH_INJ_c (R159)
  ⟨0x301088, 32, 0x100, 1, 0x8, 0x0, 0x0, 0x0, 0xff0f, 0x0⟩,
  -- health counters (R159)
  ⟨0x301010, 32, 0x100, 14, 0x8, 0x0, 0x0, 0x0, 0x0, 0xffffffffffff⟩]

/-- The register maps of chapter 05. -/
def regTable05 : List RegRow := [
  -- COH_CFG (R252)
  ⟨0x600000, 1, 0x8, 1, 0x8, 0x1400004000, 0x0, 0x0, 0x0, 0x0⟩,
  -- COH_HOST_n (R252)
  ⟨0x601000, 64, 0x8, 1, 0x8, 0x0, 0x0, 0x0, 0x0, 0x2⟩,
  -- HA_STAT_h (R252)
  ⟨0x400000, 8, 0x40000, 1, 0x8, 0x0, 0x0, 0x0, 0x0, 0x0⟩,
  -- HA_ERR_h (R252)
  ⟨0x400008, 8, 0x40000, 1, 0x8, 0x0, 0x0, 0xff, 0x0, 0xff⟩,
  -- HA_INJ_h (R252)
  ⟨0x400010, 8, 0x40000, 1, 0x8, 0x0, 0x0, 0x0, 0x3f0f, 0x0⟩,
  -- HA_TMO_CNT_h (R252)
  ⟨0x400018, 8, 0x40000, 1, 0x8, 0x0, 0x0, 0x0, 0x0, 0xffffffffffff⟩,
  -- HA_POISON_CNT_h (R252)
  ⟨0x400020, 8, 0x40000, 1, 0x8, 0x0, 0x0, 0x0, 0x0, 0xffffffffffff⟩,
  -- HA_PROTO_CNT_h (R252)
  ⟨0x400028, 8, 0x40000, 1, 0x8, 0x0, 0x0, 0x0, 0x0, 0xffffffffffff⟩,
  -- HA_SF_ERR_CNT_h (R252)
  ⟨0x400030, 8, 0x40000, 1, 0x8, 0x0, 0x0, 0x0, 0x0, 0xffffffffffff⟩,
  -- HA_DIR_ERR_CNT_h (R252)
  ⟨0x400038, 8, 0x40000, 1, 0x8, 0x0, 0x0, 0x0, 0x0, 0xffffffffffff⟩,
  -- HA_LATE_CNT_h (R252)
  ⟨0x400040, 8, 0x40000, 1, 0x8, 0x0, 0x0, 0x0, 0x0, 0xffffffffffff⟩]

/-- The register maps of chapter 06. -/
def regTable06 : List RegRow := [
  -- LATHE_STAT_L (R315)
  ⟨0x800000, 128, 0x10000, 1, 0x8, 0x0, 0x0, 0x0, 0x0, 0x0⟩,
  -- LATHE_FAULT_L (R315)
  ⟨0x800008, 128, 0x10000, 1, 0x8, 0x0, 0x0, 0x0, 0x0, 0x0⟩,
  -- LATHE_FADDR_L (R315)
  ⟨0x800010, 128, 0x10000, 1, 0x8, 0x0, 0x0, 0x0, 0x0, 0x0⟩,
  -- LATHE_PC_L (R315)
  ⟨0x800018, 128, 0x10000, 1, 0x8, 0x0, 0x0, 0x0, 0x0, 0x0⟩,
  -- LATHE_CYC_L (R315)
  ⟨0x800020, 128, 0x10000, 1, 0x8, 0x0, 0x0, 0x0, 0x0, 0x0⟩,
  -- LATHE_WDOG_L (R315)
  ⟨0x800028, 128, 0x10000, 1, 0x8, 0x0, 0x0, 0x0, 0x0, 0x0⟩,
  -- LATHE_ERR_L (R315)
  ⟨0x800030, 128, 0x10000, 1, 0x8, 0x0, 0x0, 0x7f, 0x0, 0x7f⟩,
  -- LATHE_INJ_L (R315)
  ⟨0x800038, 128, 0x10000, 1, 0x8, 0x0, 0x0, 0x0, 0x10f, 0x0⟩,
  -- LATHE_ECC_CNT_L (R315)
  ⟨0x800040, 128, 0x10000, 1, 0x8, 0x0, 0x0, 0x0, 0x0, 0xffffffffffff⟩,
  -- LATHE_FAULT_CNT_L (R315)
  ⟨0x800048, 128, 0x10000, 1, 0x8, 0x0, 0x0, 0x0, 0x0, 0xffffffffffff⟩]

/-- The register maps of chapter 08. -/
def regTable08 : List RegRow := [
  -- LDR_STAT (R380)
  ⟨0x1200000, 1, 0x8, 1, 0x8, 0x0, 0x0, 0x0, 0x0, 0x0⟩,
  -- LDR_ERR (R380)
  ⟨0x1200008, 1, 0x8, 1, 0x8, 0x0, 0x0, 0x3f, 0x0, 0x3f⟩,
  -- LDR_INJ (R380)
  ⟨0x1200010, 1, 0x8, 1, 0x8, 0x0, 0x0, 0x0, 0x3ff000f, 0x0⟩,
  -- LDR_REFUSE_CNT (R380)
  ⟨0x1200018, 1, 0x8, 1, 0x8, 0x0, 0x0, 0x0, 0x0, 0xffffffffffff⟩,
  -- PLAN_STAT_p (R380)
  ⟨0x1201000, 256, 0x10, 1, 0x8, 0x0, 0x0, 0x0, 0x0, 0x0⟩,
  -- PLAN_BUDGET_p (R380)
  ⟨0x1201008, 256, 0x10, 1, 0x8, 0x0, 0x0, 0x0, 0x0, 0x0⟩,
  -- WIN_STAT_w (R380)
  ⟨0x1204000, 1024, 0x10, 1, 0x8, 0x7, 0x0, 0x0, 0x0, 0x0⟩]

/-- The register maps of chapter 10. -/
def regTable10 : List RegRow := [
  -- GOUGE_STAT_g (R450)
  ⟨0x1100000, 16, 0x1000, 1, 0x8, 0x0, 0x0, 0x0, 0x0, 0x0⟩,
  -- GOUGE_ERR_g (R450)
  ⟨0x1100008, 16, 0x1000, 1, 0x8, 0x0, 0x0, 0x3f, 0x0, 0x3f⟩,
  -- GOUGE_INJ_g (R450)
  ⟨0x1100010, 16, 0x1000, 1, 0x8, 0x0, 0x0, 0x0, 0x10f, 0x0⟩,
  -- GOUGE_DROP_CNT_g (R450)
  ⟨0x1100018, 16, 0x1000, 1, 0x8, 0x0, 0x0, 0x0, 0x0, 0xffffffffffff⟩,
  -- GOUGE_SEG_CNT_g (R450)
  ⟨0x1100020, 16, 0x1000, 1, 0x8, 0x0, 0x0, 0x0, 0x0, 0xffffffffffff⟩,
  -- GOUGE_FAULT_CNT_g (R450)
  ⟨0x1100028, 16, 0x1000, 1, 0x8, 0x0, 0x0, 0x0, 0x0, 0xffffffffffff⟩,
  -- GCTX_STAT_k (R450)
  ⟨0x1110000, 128, 0x20, 1, 0x8, 0x0, 0x0, 0x0, 0x0, 0x0⟩,
  -- GCTX_FAULT_k (R450)
  ⟨0x1110008, 128, 0x20, 1, 0x8, 0x0, 0x0, 0x0, 0x0, 0x0⟩,
  -- GCTX_FADDR_k (R450)
  ⟨0x1110010, 128, 0x20, 1, 0x8, 0x0, 0x0, 0x0, 0x0, 0x0⟩]

/-- The register maps of chapter 11. -/
def regTable11 : List RegRow := [
  -- WALKER_STAT_w (R483)
  ⟨0x1000000, 32, 0x1000, 1, 0x8, 0x0, 0x0, 0x0, 0x0, 0x0⟩,
  -- WALKER_ERR_w (R483)
  ⟨0x1000008, 32, 0x1000, 1, 0x8, 0x0, 0x0, 0x3f, 0x0, 0x3f⟩,
  -- WALKER_INJ_w (R483)
  ⟨0x1000010, 32, 0x1000, 1, 0x8, 0x0, 0x0, 0x0, 0x10f, 0x0⟩,
  -- WALKER_EVAL_CNT_w (R483)
  ⟨0x1000018, 32, 0x1000, 1, 0x8, 0x0, 0x0, 0x0, 0x0, 0xffffffffffff⟩,
  -- WALKER_FEWER_CNT_w (R483)
  ⟨0x1000020, 32, 0x1000, 1, 0x8, 0x0, 0x0, 0x0, 0x0, 0xffffffffffff⟩,
  -- WALKER_FAULT_CNT_w (R483)
  ⟨0x1000028, 32, 0x1000, 1, 0x8, 0x0, 0x0, 0x0, 0x0, 0xffffffffffff⟩,
  -- KITE_STAT_k (R483)
  ⟨0x1020000, 4096, 0x20, 1, 0x8, 0x0, 0x0, 0x0, 0x0, 0x0⟩,
  -- KITE_FAULT_k (R483)
  ⟨0x1020008, 4096, 0x20, 1, 0x8, 0x0, 0x0, 0x0, 0x0, 0x0⟩,
  -- KITE_FADDR_k (R483)
  ⟨0x1020010, 4096, 0x20, 1, 0x8, 0x0, 0x0, 0x0, 0x0, 0x0⟩,
  -- WALK_LIMITS (R483)
  ⟨0x1040000, 1, 0x8, 1, 0x8, 0x200200010000, 0x0, 0x0, 0x0, 0x0⟩]

/-- The register maps of chapter 12, in part. -/
def regTable12a : List RegRow := [
  -- FAB_BIND_p (R555)
  ⟨0x2000000, 16, 0x10000, 1, 0x8, 0x0, 0x0, 0x0, 0x0, 0x0⟩,
  -- FAB_STAT_p (R555)
  ⟨0x2000008, 16, 0x10000, 1, 0x8, 0x0, 0x0, 0x0, 0x0, 0x0⟩,
  -- FAB_ERR_p (R555)
  ⟨0x2000010, 16, 0x10000, 1, 0x8, 0x0, 0x0, 0xff, 0x0, 0xff⟩,
  -- FAB_INJ_p (R555)
  ⟨0x2000018, 16, 0x10000, 1, 0x8, 0x0, 0x0, 0x0, 0x30f, 0x0⟩,
  -- FAB_CRC_CNT_p (R555)
  ⟨0x2000020, 16, 0x10000, 1, 0x8, 0x0, 0x0, 0x0, 0x0, 0xffffffffffff⟩,
  -- FAB_RESEND_CNT_p (R555)
  ⟨0x2000028, 16, 0x10000, 1, 0x8, 0x0, 0x0, 0x0, 0x0, 0xffffffffffff⟩,
  -- FAB_RETRAIN_CNT_p (R555)
  ⟨0x2000030, 16, 0x10000, 1, 0x8, 0x0, 0x0, 0x0, 0x0, 0xffffffffffff⟩,
  -- FAB_FLUSH_CNT_p (R555)
  ⟨0x2000038, 16, 0x10000, 1, 0x8, 0x0, 0x0, 0x0, 0x0, 0xffffffffffff⟩,
  -- SW_CFG (R555)
  ⟨0x2100000, 1, 0x8, 1, 0x8, 0x8, 0x0, 0x0, 0x0, 0x0⟩,
  -- SW_STAT (R555)
  ⟨0x2100008, 1, 0x8, 1, 0x8, 0x0, 0x0, 0x0, 0x0, 0x0⟩,
  -- SW_ERR (R555)
  ⟨0x2100010, 1, 0x8, 1, 0x8, 0x0, 0x0, 0x3f, 0x0, 0x3f⟩,
  -- SW_INJ (R555)
  ⟨0x2100018, 1, 0x8, 1, 0x8, 0x0, 0x0, 0x0, 0x3f0f, 0x0⟩,
  -- SW_MIRROR (R555)
  ⟨0x2100020, 1, 0x8, 1, 0x8, 0x0, 0xff0000ffff000000, 0x0, 0x0, 0x0⟩,
  -- SW_MIRROR_DROP_CNT (R555)
  ⟨0x2100028, 1, 0x8, 1, 0x8, 0x0, 0x0, 0x0, 0x0, 0xffffffffffff⟩,
  -- SW_FLUSH_CNT (R555)
  ⟨0x2100030, 1, 0x8, 1, 0x8, 0x0, 0x0, 0x0, 0x0, 0xffffffffffff⟩,
  -- SW_BUDGET_o_c (R555)
  ⟨0x2110000, 42, 0x80, 16, 0x8, 0x0, 0x0, 0x0, 0x0, 0x0⟩,
  -- SW_DCLASS_n (R555)
  ⟨0x2120000, 256, 0x8, 1, 0x8, 0x0, 0x0, 0x0, 0x0, 0x0⟩,
  -- GW_STAT (R555)
  ⟨0x2300000, 1, 0x8, 1, 0x8, 0x0, 0x0, 0x0, 0x0, 0x0⟩,
  -- GW_ERR (R555)
  ⟨0x2300008, 1, 0x8, 1, 0x8, 0x0, 0x0, 0x1f, 0x0, 0x1f⟩,
  -- GW_INJ (R555)
  ⟨0x2300010, 1, 0x8, 1, 0x8, 0x0, 0x0, 0x0, 0xf, 0x0⟩,
  -- GW_CFG (R555)
  ⟨0x2300018, 1, 0x8, 1, 0x8, 0x2710, 0xffff, 0x0, 0x0, 0x0⟩,
  -- GW_FETCH_CNT (R555)
  ⟨0x2300020, 1, 0x8, 1, 0x8, 0x0, 0x0, 0x0, 0x0, 0xffffffffffff⟩,
  -- GW_WB_CNT (R555)
  ⟨0x2300028, 1, 0x8, 1, 0x8, 0x0, 0x0, 0x0, 0x0, 0xffffffffffff⟩,
  -- GW_ERR_CNT (R555)
  ⟨0x2300030, 1, 0x8, 1, 0x8, 0x0, 0x0, 0x0, 0x0, 0xffffffffffff⟩]

/-- The register maps of chapter 12, in part. -/
def regTable12b : List RegRow := [
  -- multicast group table (R541)
  ⟨0x2200000, 1024, 0x100, 32, 0x8, 0x0, 0x0, 0x0, 0x0, 0x0⟩]

/-- The register maps of chapter 13. -/
def regTable13 : List RegRow := [
  -- ETH_STAT_e (R579)
  ⟨0x3000000, 2, 0x1000, 1, 0x8, 0x0, 0x0, 0x0, 0x0, 0x0⟩,
  -- ETH_ERR_e (R579)
  ⟨0x3000008, 2, 0x1000, 1, 0x8, 0x0, 0x0, 0xf, 0x0, 0xf⟩,
  -- ETH_INJ_e (R579)
  ⟨0x3000010, 2, 0x1000, 1, 0x8, 0x0, 0x0, 0x0, 0xf, 0x0⟩,
  -- ETH_FEC_CORR_CNT_e (R579)
  ⟨0x3000018, 2, 0x1000, 1, 0x8, 0x0, 0x0, 0x0, 0x0, 0xffffffffffff⟩,
  -- ETH_FEC_UNCORR_CNT_e (R579)
  ⟨0x3000020, 2, 0x1000, 1, 0x8, 0x0, 0x0, 0x0, 0x0, 0xffffffffffff⟩,
  -- ETH_DROP_CNT_e (R579)
  ⟨0x3000028, 2, 0x1000, 1, 0x8, 0x0, 0x0, 0x0, 0x0, 0xffffffffffff⟩,
  -- ZCT_CRC_CNT_e (R579)
  ⟨0x3000030, 2, 0x1000, 1, 0x8, 0x0, 0x0, 0x0, 0x0, 0xffffffffffff⟩,
  -- ZCT_RESEND_CNT_e (R579)
  ⟨0x3000038, 2, 0x1000, 1, 0x8, 0x0, 0x0, 0x0, 0x0, 0xffffffffffff⟩,
  -- ZCT_SESS_s (R579)
  ⟨0x3010000, 256, 0x10, 1, 0x8, 0x0, 0x0, 0x0, 0x0, 0x0⟩,
  -- ZCT_SSTAT_s (R579)
  ⟨0x3010008, 256, 0x10, 1, 0x8, 0x0, 0x0, 0x0, 0x0, 0x0⟩,
  -- MGMT_STAT (R579)
  ⟨0x3080000, 1, 0x8, 1, 0x8, 0x0, 0x0, 0x0, 0x0, 0xffffffffffffffff⟩,
  -- MGMT_ERR (R579)
  ⟨0x3080008, 1, 0x8, 1, 0x8, 0x0, 0x0, 0x7, 0x0, 0xffffffffffffffff⟩,
  -- ZCT_CFG (R579)
  ⟨0x3080010, 1, 0x8, 1, 0x8, 0xc8, 0xffff, 0x0, 0x0, 0x0⟩]

/-- The register maps of chapter 14. -/
def regTable14 : List RegRow := [
  -- RECOV_CFG (R643)
  ⟨0x5000000, 1, 0x8, 1, 0x8, 0x7d000400300, 0xffff00ff0f00, 0x0, 0x0, 0x0⟩,
  -- RECOV_STAT (R643)
  ⟨0x5000008, 1, 0x8, 1, 0x8, 0x0, 0x0, 0x0, 0x0, 0x0⟩,
  -- RIP_STAT (R643)
  ⟨0x5000010, 1, 0x8, 1, 0x8, 0x0, 0x0, 0x0, 0x0, 0xffffffffffffffff⟩,
  -- RECOV_ERR (R643)
  ⟨0x5000018, 1, 0x8, 1, 0x8, 0x0, 0x0, 0xfff, 0x0, 0xfff⟩,
  -- RECOV_INJ (R643)
  ⟨0x5000020, 1, 0x8, 1, 0x8, 0x0, 0x0, 0x0, 0xffffff0f, 0x0⟩,
  -- RECOV_CNT_k (R643)
  ⟨0x5000040, 12, 0x8, 1, 0x8, 0x0, 0x0, 0x0, 0x0, 0xffffffffffff⟩,
  -- UNIT_SVC_u (R643)
  ⟨0x50000c0, 4, 0x8, 1, 0x8, 0x0, 0x0, 0x0, 0x0, 0x0⟩,
  -- DUMP_CFG (R643)
  ⟨0x5000100, 1, 0x8, 1, 0x8, 0x10, 0x7ff00f1, 0x0, 0x0, 0x0⟩,
  -- DUMP_STAT (R643)
  ⟨0x5000108, 1, 0x8, 1, 0x8, 0x0, 0x0, 0x0, 0x0, 0xffffffffffffffff⟩,
  -- DUMP_SEL (R643)
  ⟨0x5000110, 1, 0x8, 1, 0x8, 0x0, 0x8000007f, 0x0, 0x40000000, 0x0⟩,
  -- ERR_HEAD_c (R643)
  ⟨0x5001000, 12, 0x10, 1, 0x8, 0x0, 0x0, 0x0, 0x0, 0xffffffffffffffff⟩,
  -- ERR_ACK_c (R643)
  ⟨0x5001008, 12, 0x10, 1, 0x8, 0x0, 0x0, 0x0, 0xff, 0x0⟩,
  -- ERR_OVF_c (R643)
  ⟨0x5001800, 12, 0x8, 1, 0x8, 0x0, 0x0, 0x0, 0x0, 0xffffffffffff⟩,
  -- STK_ERR_h (R643)
  ⟨0x5020000, 8, 0x40, 1, 0x8, 0x0, 0x0, 0x7f, 0x0, 0x7f⟩,
  -- STK_CE_CNT_h (R643)
  ⟨0x5020008, 8, 0x40, 1, 0x8, 0x0, 0x0, 0x0, 0x0, 0xffffffffffff⟩,
  -- STK_UE_CNT_h (R643)
  ⟨0x5020010, 8, 0x40, 1, 0x8, 0x0, 0x0, 0x0, 0x0, 0xffffffffffff⟩,
  -- STK_INJ_h (R643)
  ⟨0x5020018, 8, 0x40, 1, 0x8, 0x0, 0x0, 0x0, 0xf, 0x0⟩,
  -- DOM_COMP_d (R643)
  ⟨0x5030000, 256, 0x8, 1, 0x8, 0x0, 0x0, 0x0, 0x0, 0x0⟩,
  -- TETHER_CFG_t (R643)
  ⟨0x5040000, 16, 0x8, 1, 0x8, 0x0, 0x0, 0x0, 0x0, 0x0⟩,
  -- TETHER_STAT (R643)
  ⟨0x5040080, 1, 0x8, 1, 0x8, 0x0, 0x0, 0x0, 0x0, 0x1⟩,
  -- ORPH_ACK (R643)
  ⟨0x5040088, 1, 0x8, 1, 0x8, 0x0, 0x0, 0x0, 0x1fff, 0x0⟩,
  -- ERR_LOG_c_i (R583)
  ⟨0x5010000, 12, 0x1000, 512, 0x8, 0x0, 0x0, 0x0, 0x0, 0xffffffffffffffff⟩,
  -- ORPHAN_j (R637)
  ⟨0x5050000, 8192, 0x8, 1, 0x8, 0x0, 0x0, 0x0, 0x0, 0x0⟩]

/-- The register maps of chapter 15. -/
def regTable15 : List RegRow := [
  -- BOOT_STAT (R679)
  ⟨0x8000000, 1, 0x8, 1, 0x8, 0x0, 0x0, 0x0, 0x0, 0xffffffffffffffff⟩,
  -- BOOT_ERR (R679)
  ⟨0x8000008, 1, 0x8, 1, 0x8, 0x0, 0x0, 0xff, 0x0, 0xffffffffffffffff⟩,
  -- BOOT_INJ (R679)
  ⟨0x8000010, 1, 0x8, 1, 0x8, 0x0, 0x0, 0x0, 0xff0f, 0xffffffffffffffff⟩,
  -- BOOT_CNT (R679)
  ⟨0x8000018, 1, 0x8, 1, 0x8, 0x0, 0x0, 0x0, 0x0, 0xffffffffffff⟩,
  -- BOOT_MEAS_i (R679)
  ⟨0x8000040, 8, 0x8, 1, 0x8, 0x0, 0x0, 0x0, 0x0, 0xffffffffffffffff⟩,
  -- DEV_SERIAL (R679)
  ⟨0x8000080, 1, 0x8, 1, 0x8, 0x0, 0x0, 0x0, 0x0, 0xffffffffffffffff⟩,
  -- COMP_NONCE (R679)
  ⟨0x8000088, 1, 0x8, 1, 0x8, 0x0, 0x0, 0x0, 0x0, 0x0⟩,
  -- COMP_SEQ_k (R679)
  ⟨0x8000090, 4, 0x8, 1, 0x8, 0x0, 0x0, 0x0, 0x0, 0x0⟩,
  -- OWNER_KEY_STAT (R679)
  ⟨0x80000b0, 1, 0x8, 1, 0x8, 0x0, 0x0, 0x0, 0x0, 0xffffffffffffffff⟩,
  -- FW_SVN (R679)
  ⟨0x80000b8, 1, 0x8, 1, 0x8, 0x0, 0x0, 0x0, 0x0, 0xffffffffffffffff⟩,
  -- FRZ_HOST (R679)
  ⟨0x8000100, 1, 0x8, 1, 0x8, 0x0, 0x0, 0x0, 0x0, 0x0⟩,
  -- FRZ_SESS_j (R679)
  ⟨0x8000108, 4, 0x8, 1, 0x8, 0x0, 0x0, 0x0, 0x0, 0x0⟩,
  -- ISO_ERR (R679)
  ⟨0x8000128, 1, 0x8, 1, 0x8, 0x0, 0x0, 0xf, 0x0, 0xffffffffffffffff⟩,
  -- ISO_VIOL_CNT (R679)
  ⟨0x8000130, 1, 0x8, 1, 0x8, 0x0, 0x0, 0x0, 0x0, 0xffffffffffff⟩,
  -- ISO_INJ (R679)
  ⟨0x8000138, 1, 0x8, 1, 0x8, 0x0, 0x0, 0x0, 0xff0f, 0xffffffffffffffff⟩,
  -- domain table (R647)
  ⟨0x200000, 256, 0x100, 32, 0x8, 0x0, 0x0, 0x0, 0x0, 0x0⟩]

/-- The register maps of chapter 16. -/
def regTable16 : List RegRow := [
  -- PWR_CTL (R703)
  ⟨0x6000000, 1, 0x8, 1, 0x8, 0x0, 0xf, 0x0, 0x0, 0xffffffffffffffff⟩,
  -- PWR_STAT (R703)
  ⟨0x6000008, 1, 0x8, 1, 0x8, 0x0, 0x0, 0x0, 0x0, 0xffffffffffffffff⟩,
  -- CLK_STAT (R703)
  ⟨0x6000010, 1, 0x8, 1, 0x8, 0x64007d003840960, 0x0, 0x0, 0x0, 0xffffffffffffffff⟩,
  -- BALLAST_CFG (R703)
  ⟨0x6000018, 1, 0x8, 1, 0x8, 0xc800400190, 0xffff00ffffff, 0x0, 0x0, 0xffffffffffffffff⟩,
  -- BALLAST_STAT (R703)
  ⟨0x6000020, 1, 0x8, 1, 0x8, 0x0, 0x0, 0x0, 0x0, 0xffffffffffffffff⟩,
  -- PWR_CAP (R703)
  ⟨0x6000028, 1, 0x8, 1, 0x8, 0xc64047e, 0xffffffff, 0x0, 0x0, 0xffffffffffffffff⟩,
  -- PWR_ERR (R703)
  ⟨0x6000030, 1, 0x8, 1, 0x8, 0x0, 0x0, 0x3f, 0x0, 0xffffffffffffffff⟩,
  -- PWR_INJ (R703)
  ⟨0x6000038, 1, 0x8, 1, 0x8, 0x0, 0x0, 0x0, 0xf, 0xffffffffffffffff⟩,
  -- BALLAST_WAIT_CNT (R703)
  ⟨0x6000040, 1, 0x8, 1, 0x8, 0x0, 0x0, 0x0, 0x0, 0xffffffffffff⟩,
  -- THROTTLE_CNT (R703)
  ⟨0x6000048, 1, 0x8, 1, 0x8, 0x0, 0x0, 0x0, 0x0, 0xffffffffffff⟩,
  -- PMB_ERR_CNT (R703)
  ⟨0x6000050, 1, 0x8, 1, 0x8, 0x0, 0x0, 0x0, 0x0, 0xffffffffffff⟩,
  -- PMB_RAIL_r (R703)
  ⟨0x6000100, 8, 0x8, 1, 0x8, 0x0, 0x1ff7f, 0x0, 0x0, 0xffffffffffffffff⟩,
  -- PMB_TELEM_r (R703)
  ⟨0x6000200, 8, 0x8, 1, 0x8, 0x0, 0x0, 0x0, 0x0, 0xffffffffffffffff⟩]

/-- The register maps of chapter 17, in part. -/
def regTable17a : List RegRow := [
  -- PMC_CFG_b_i (R729)
  ⟨0x7000000, 128, 0x200, 12, 0x8, 0x0, 0xc0000000000000ff, 0x0, 0x0, 0x0⟩,
  -- PMC_CFG_b_i (R729)
  ⟨0x7010000, 32, 0x200, 10, 0x8, 0x0, 0xc0000000000000ff, 0x0, 0x0, 0x0⟩,
  -- PMC_CFG_b_i (R729)
  ⟨0x7014000, 16, 0x200, 8, 0x8, 0x0, 0xc0000000000000ff, 0x0, 0x0, 0x0⟩,
  -- PMC_CFG_b_i (R729)
  ⟨0x7016000, 8, 0x200, 12, 0x8, 0x0, 0xc0000000000000ff, 0x0, 0x0, 0x0⟩,
  -- PMC_CFG_b_i (R729)
  ⟨0x7017000, 23, 0x200, 8, 0x8, 0x0, 0xc0000000000000ff, 0x0, 0x0, 0x0⟩,
  -- PMC_CNT_b_i (R729)
  ⟨0x7000080, 128, 0x200, 12, 0x8, 0x0, 0xffffffffffff, 0x0, 0x0, 0x0⟩,
  -- PMC_CNT_b_i (R729)
  ⟨0x7010080, 32, 0x200, 10, 0x8, 0x0, 0xffffffffffff, 0x0, 0x0, 0x0⟩,
  -- PMC_CNT_b_i (R729)
  ⟨0x7014080, 16, 0x200, 8, 0x8, 0x0, 0xffffffffffff, 0x0, 0x0, 0x0⟩,
  -- PMC_CNT_b_i (R729)
  ⟨0x7016080, 8, 0x200, 12, 0x8, 0x0, 0xffffffffffff, 0x0, 0x0, 0x0⟩,
  -- PMC_CNT_b_i (R729)
  ⟨0x7017080, 23, 0x200, 8, 0x8, 0x0, 0xffffffffffff, 0x0, 0x0, 0x0⟩,
  -- PMC_SNAP_b_i (R729)
  ⟨0x7000100, 128, 0x200, 12, 0x8, 0x0, 0x0, 0x0, 0x0, 0x0⟩,
  -- PMC_SNAP_b_i (R729)
  ⟨0x7010100, 32, 0x200, 10, 0x8, 0x0, 0x0, 0x0, 0x0, 0x0⟩,
  -- PMC_SNAP_b_i (R729)
  ⟨0x7014100, 16, 0x200, 8, 0x8, 0x0, 0x0, 0x0, 0x0, 0x0⟩,
  -- PMC_SNAP_b_i (R729)
  ⟨0x7016100, 8, 0x200, 12, 0x8, 0x0, 0x0, 0x0, 0x0, 0x0⟩,
  -- PMC_SNAP_b_i (R729)
  ⟨0x7017100, 23, 0x200, 8, 0x8, 0x0, 0x0, 0x0, 0x0, 0x0⟩,
  -- PMC_OVF_b (R729)
  ⟨0x7000180, 207, 0x200, 1, 0x8, 0x0, 0x0, 0xffff, 0x0, 0xffff⟩,
  -- PMU_CTL (R729)
  ⟨0x7080000, 1, 0x8, 1, 0x8, 0x0, 0x5, 0x0, 0x2, 0x0⟩,
  -- PMU_STAT (R729)
  ⟨0x7080008, 1, 0x8, 1, 0x8, 0x0, 0x0, 0x0, 0x0, 0x0⟩,
  -- TAG_CFG (R729)
  ⟨0x7080010, 1, 0x8, 1, 0x8, 0x100000c08, 0xffffffff00001f0f, 0x0, 0x0, 0x0⟩,
  -- TAG_STAT (R729)
  ⟨0x7080018, 1, 0x8, 1, 0x8, 0x0, 0x0, 0x0, 0x0, 0x0⟩,
  -- TAG_ACK (R729)
  ⟨0x7080020, 1, 0x8, 1, 0x8, 0x0, 0x0, 0x0, 0x1fff, 0x0⟩,
  -- MIR_STAT (R729)
  ⟨0x7080028, 1, 0x8, 1, 0x8, 0x0, 0x0, 0x0, 0x0, 0x0⟩,
  -- MIR_ACK (R729)
  ⟨0x7080030, 1, 0x8, 1, 0x8, 0x0, 0x0, 0x0, 0x1fff, 0x0⟩,
  -- tag ring (R726)
  ⟨0x7100000, 4096, 0x80, 16, 0x8, 0x0, 0x0, 0x0, 0x0, 0x0⟩]

/-- The register maps of chapter 17, in part. -/
def regTable17b : List RegRow := [
  -- mirror ring (R727)
  ⟨0x7180000, 4096, 0x80, 16, 0x8, 0x0, 0x0, 0x0, 0x0, 0x0⟩]

/-- Every register map. -/
def regTable : List RegRow :=
  regTable01 ++ regTable02 ++ regTable03 ++ regTable05 ++ regTable06 ++ regTable08 ++ regTable10 ++ regTable11 ++ regTable12a ++ regTable12b ++ regTable13 ++ regTable14 ++ regTable15 ++ regTable16 ++ regTable17a ++ regTable17b

end Sys2Proof.Machine
end

