-- ==== Sys2Proof/Machine/State.lean ====
section
/-! DEFINITION. Machine/State.lean: everything the manual gives the controller, as plain data. A register lives in
`regs` alone (its offset in the local control window is its key); the other fields hold what is not a register. -/

namespace Sys2Proof.Machine

/-- Line states at the home agent (R200). -/
inductive LState where
  | I | S | E | M | O
  deriving DecidableEq, Repr

/-- A snoop filter entry (R236): the line's number (slice offset over 64), its state and the exact sharer vector;
for E and M the vector names the one holder. The list of a home's entries runs from the most recently used. -/
structure FEntry where
  line : Nat
  st : LState
  vec : BitVec 64
  deriving DecidableEq, Repr

/-- A line of the write-absorbing line store (R203), with the reference bit of clock replacement (R217). -/
structure StoreEnt where
  line : Nat
  data : LineData
  ref : Bool
  deriving DecidableEq, Repr

/-- The requests of the coherence protocol (R211), and `recall`, the home agent's own invalidation of a line (R215, R216). -/
inductive ReqOp where
  | rds | rde | upgr | rdnc | wrnc | wrline | wrback | evict | recall
  deriving DecidableEq, Repr

/-- A request as it reached the home agent: the opcode, its transaction number, who sent it, the byte offset of its
line in the slice, the data and the byte mask. -/
structure Req where
  op : ReqOp
  txn : BitVec 12
  src : Master
  off : Nat
  data : LineData
  mask : BitVec 64
  deriving DecidableEq, Repr

/-- An access that waits in the gateway's miss queue (R526): its address, and for a kernel's read the region and version that it reads. -/
structure Miss where
  addr : Nat
  req : Req
  ver : Option (Nat × Nat) := none
  deriving DecidableEq, Repr

/-- What a tracker entry waits for: the answers to its snoops, the data of a Fetch (R225), a CmpAck (R230), the end of
the kernel of a window (R171; 1,024 stands for a reel that is being applied, R529), a unit's fetch from the medium (R61), or a
mirror peer or parity holder (R98, R104). -/
inductive Phase where
  | snoop | fetch | cmpAck | held (win : Nat) | unit | cover
  deriving DecidableEq, Repr

/-- A tracker entry (R219). `wait` lists the hosts that still owe an answer; `inv` says the snoop was SnpInv; `got`
holds dirty data returned; `bad` records an InvAck from an M holder (R761), and of a Fetch that the line's draft was freed (R77); `ue` says that the snoops answer an
uncorrectable directory (true, R241) or filter (R240) error. -/
structure Txn where
  home : Nat
  req : Req
  act : Bool
  phase : Phase
  wait : List Nat
  inv : Bool
  got : Option LineData
  bad : Bool
  ue : Option Bool
  deriving DecidableEq, Repr

/-- A line that the home owes an invalidation for itself (R172, R215, R216): its number, and whether the data that a holder
returns is discarded, because the draft that the line belonged to is gone (R77). -/
structure Recall where
  line : Nat
  drop : Bool
  deriving DecidableEq, Repr

/-- A write-back of another box that the gateway holds whole (R529): the port on which it came, its sender, its TXN, its domain, the slice offset of its
reel, and its lines by their number in the reel, each with its POISON flag. -/
structure WbHold where
  via : Nat
  ctrl : Nat
  txn : Nat
  dom : Nat
  base : Nat
  lines : List (Nat × LineData × Bool)
  deriving DecidableEq, Repr

/-- Who waits for the mirror peer or parity holder of a line that is written already (R98, R104): the completion of the kernel of
a window, the Cmp of a write-back (the port on which it came, its sender and its TXN), or a LINE_RESTORE. -/
inductive CoverFor where
  | kernel (win : Nat)
  | reel (via ctrl txn : Nat)
  | restore
  deriving DecidableEq, Repr

/-- A message of the coherence protocol that the controller sends (the message header fields of chapter 05). -/
structure Msg where
  op : Nat
  txn : Nat
  dst : Master
  home : Nat
  addr : Nat
  act : Bool := false
  rsn : Nat := 0
  state : Nat := 0
  poison : Bool := false
  err : Nat := 0
  data : LineData := 0
  deriving DecidableEq, Repr

/-- A counted area (R176): its first line's slice offset, its lines, its counter, the lines marked arrived, and whether a
kernel bound it for its own run (R367). -/
structure Area where
  base : Nat
  lines : Nat
  counter : Nat
  arrived : List Nat
  armed : Bool
  kernel : Option Nat
  deriving DecidableEq, Repr

/-- An injection waiting for its event: the offset of the injection register, the kind, its argument and whether it
persists. -/
structure Inj where
  off : Nat
  kind : Nat
  arg : Nat
  persist : Bool
  deriving DecidableEq, Repr

/-- A management message that the controller has sent and not yet seen acknowledged (R577): its number, its kind, its
payload words, the port it went out of, its error log class when it is a FAULT, and whether a SACK covers it (R563). -/
structure MgmtOut where
  msg : Nat
  kind : Nat
  payload : List Word
  port : Nat
  cls : Option Nat
  covered : Bool := false
  deriving DecidableEq, Repr

/-- The ONFI commands that the controller issues (R111), and no other. -/
inductive Onfi where
  | reset | syncReset | resetLun | readId | readParam | getFeature | setFeature | getLunFeature | setLunFeature | readStatus
  | readStatusEnhanced | read | multiRead | changeColumn | program | multiProgram | erase | multiErase | zqLong | zqShort
  | volumeSelect | odtConfigure
  deriving DecidableEq, Repr

/-- An LDPC codeword as it is written (R113): 4,096 B of data, 32 B of metadata and 480 B of parity. -/
structure Codeword where
  data : List LineData
  info : BitVec 256
  parity : BitVec 3840
  deriving DecidableEq, Repr

/-- What the controller sends to the outside, oldest first: the model's own record, which no rule reads. `coh` is a
coherence message; `fab` words a fabric port sends; `zct` a ZCT block (port, session, words); `eth` a frame;
`mgmt` a management message (port, kind, words); `flash` an ONFI command on a medium channel and its address words; `page` the
codewords that go with a program; `peer` a message to another
controller with its line and the fabric port that it takes, none when no port is ACTIVE; `train` what a fabric port tells the far end while it trains; `text` a line of Tailstock; `pin` a pin and its level; `tdo` bits that the test access port shifts out. -/
inductive Out where
  | coh (m : Msg)
  | fab (port : Nat) (words : List Nat)
  | zct (port session : Nat) (words : List Nat) (data : List LineData)
  | eth (port : Nat) (kind : Nat) (words : List Nat)
  | mgmt (port kind : Nat) (payload : List Nat)
  | flash (chan : Nat) (cmd : Onfi) (words : List Nat)
  | page (chan : Nat) (cws : List Codeword)
  | peer (ctrl : Nat) (addr : Nat) (words : List Nat) (data : LineData) (via : Option Nat := none)
  | train (port : Nat) (words : List Nat)
  | text (words : List Nat)
  | pin (name : Nat) (level : Bool)
  | tdo (bits : List Bool)
  deriving DecidableEq, Repr

/-- A command window beside its register WIN_STAT_w: the lines marked arrived, the domain that wrote line 0 and every
domain that wrote a line (R645), whether its command passed the checks of R361, and when it did, as a number that rises from one
command that became ready to the next (R370, R378). -/
structure Win where
  arrived : List Nat
  dom0 : Option Nat
  doms : List Nat
  ready : Bool
  readyAt : Nat := 0
  deriving DecidableEq, Repr

/-- What the completion record of a command past its start point says of the command when a cold reset of the home agent has closed its
window (R360, R382): its SEQ, OPCODE and CPL_ADDR and the window's domain. -/
structure KeptCpl where
  seq : Nat
  op : Nat
  cpl : Nat
  dom : Nat
  deriving DecidableEq, Repr

/-- A 64 KiB unit of a VERSIONED region that the tier cache holds (R62): its memory key over 65,536, with the reference
bit of clock replacement. -/
structure CacheEnt where
  key : Nat
  ref : Bool
  deriving DecidableEq, Repr

/-- A shadow frame (R164): the unit it shadows (slice offset over 65,536), the window of its kernel, the domain it is
charged to, and whether it becomes a draft's first frame (R165). -/
structure Shadow where
  unit : Nat
  win : Nat
  dom : Nat
  draft : Bool
  deriving DecidableEq, Repr
/-- An open loop (R275): the first and last bundle of its body, its trips and the trip that runs, from 0. -/
structure LoopLvl where
  first : Nat
  last : Nat
  trips : Nat
  iter : Nat
  deriving DecidableEq, Repr

/-- A piece of an embedding table (R420): rows from `first`, the region and version that hold it, its format, pitch and
offset. -/
structure Piece where
  first : Nat
  count : Nat
  ctrl : Nat
  region : Nat
  version : Nat
  fmt : Nat
  pitch : Nat
  offset : Nat
  deriving DecidableEq, Repr

/-- An embedding table as its pinned root describes it (R420, R426): `pres` names the controller, region and version of the
presence bitmap. -/
structure GTab where
  dim : Nat
  rows : Nat
  pres : Option (Nat × Nat × Nat)
  pieces : List Piece
  deriving DecidableEq, Repr

/-- A search index as its pinned root describes it (R457), with its side list (R463): the address of its ring and its
capacity, the entry pitch, the hidden labels with their latest sequence numbers and the sequence numbers of the live entries (R467, R468). -/
structure KIdx where
  base : Nat
  dim : Nat
  fmt : Nat
  metric : Nat
  degree : Nat
  nodes : Nat
  pitch : Nat
  off : Nat
  entries : List Nat
  side : Nat
  cap : Nat
  spitch : Nat
  hidden : List (Nat × Nat)
  live : List Nat
  deriving DecidableEq, Repr

/-- A batch that a gather context runs (R429, R437): its descriptor's fields, the bag offsets, the segment that runs (first
and last position plus one, none between segments), its indices, its combining slots (row and, once landed, the row's bytes
as a number), the bags in progress from the first not yet written with their accumulators and counts, the drops, and how many of the
slots' rows have been asked for, in slot order; `closed` says that everything is written and its lines at other controllers are awaited (R446). -/
structure Batch where
  tab : Nat
  pool : Nat
  outFmt : Nat
  idx64 : Bool
  weighted : Bool
  counted : Bool
  nidx : Nat
  nbags : Nat
  pitch : Nat
  idxAddr : Nat
  wgtAddr : Nat
  outAddr : Nat
  dropAddr : Nat
  dropMax : Nat
  offs : List Nat
  pos : Nat
  seg : Option Nat
  idx : List Nat
  slots : List (Nat × Option Nat)
  bag : Nat
  acc : List Nat
  n : Nat
  drops : List (Nat × Nat)
  issued : Nat := 0
  closed : Bool := false
  deriving DecidableEq, Repr

/-- An item of a walk's candidate queue or result list (R462): distance, label, source, node index or side sequence number,
and whether the candidate was expanded. -/
structure Item where
  dist : Nat
  label : Nat
  src : Nat
  id : Nat
  done : Bool
  deriving DecidableEq, Repr

/-- A query that a kite runs (R469, R472): its descriptor's fields, its vector, the nodes still to evaluate, the side entries
still to scan, the visited set, the candidate queue and the results in key order, and the counts of the result record;
`wide` says that a widening expansion is under way (R472), and `closed` that the result's lines at other controllers are awaited (R476). -/
structure Query where
  index : Nat
  fmode : Nat
  k : Nat
  ef : Nat
  widen : Nat
  visit : Nat
  counted : Bool
  fmask : Nat
  fval : Nat
  resAddr : Nat
  vec : List Nat
  todo : List Nat
  side : List Nat
  visited : List Nat
  q : List Item
  r : List Item
  evaluated : Nat
  expanded : Nat
  sideLive : Nat
  bad : Nat
  widened : Nat
  budget : Bool
  ended : Bool
  wide : Bool := false
  closed : Bool := false
  deriving DecidableEq, Repr

/-- A gather context or a kite beside its registers (R417, R480): its registers g0 to g15 or k0 to k15, the instruction index,
the open loops from the innermost, its kernel's window and its rank, the batches or queries run, the wait it is in (counter
and target), whether it was stopped by an injection, the batch or query that runs, and the steps that a kite has begun since
its start point (R722), the walker cycles left on its watchdog (R448), and of a kite's read that is next or in flight its place in the
walker's rotation (R454) and, while a kwalk reads its descriptor and its vector, its lines (R453). -/
structure Ctx where
  g : List (Nat × Word) := []
  pc : Nat := 0
  loops : List LoopLvl := []
  ninsn : Nat := 0
  win : Nat := 0
  rank : Nat := 0
  ran : Nat := 0
  wait : Option (Nat × Nat) := none
  stopped : Bool := false
  batch : Option Batch := none
  query : Option Query := none
  steps : Nat := 0
  dog : Nat := 0
  turn : Nat := 0
  fetch : Option Nat := none
  deriving DecidableEq, Repr


/-- A ZCT block of a session (R563): one received and held, or one sent. `resends` counts the resends of one sent. `fence` is the
FENCE flag of one received, and of one sent whether a SACK covers it. `reason` is the REASON of one sent, and of one received the
port whose buffer holds it. -/
structure ZBlk where
  kind : Nat
  fence : Bool := false
  seq : Nat
  ref : Nat := 0
  reason : Nat := 0
  addr : Nat
  data : List LineData
  resends : Nat := 0
  deriving DecidableEq, Repr

/-- A block that a session's lines are being served for (R569, R570): its SEQ, kind, address and lines, the lines served so far,
the data read by line, whether one of them was poisoned, and the first refusal (reason and address). -/
structure ZPend where
  seq : Nat
  kind : Nat
  addr : Nat
  lines : Nat
  served : Nat
  data : List (Nat × LineData)
  poison : Bool
  err : Option (Nat × Nat)
  deriving DecidableEq, Repr

/-- A ZCT session beside its registers: inbound blocks beyond a gap (R568), outbound blocks unacknowledged (R571) and
waiting for the window of 256 (R567), the last SEQ sent, the blocks received since the last ACK, the far address and
UDP port of the last valid block (R563), and the blocks whose lines are being served (R570). -/
structure Sess where
  held : List ZBlk
  out : List ZBlk
  wait : List ZBlk
  seq : Nat
  unacked : Nat
  far : Nat
  pend : List ZPend
  deriving DecidableEq, Repr

/-- A counter handle of a rank (R344): the counter's global address and the counted area's address and bytes. -/
structure Handle where
  ctr : Nat
  area : Option (Nat × Nat)
  deriving DecidableEq, Repr

/-- The first fault of a kernel (R314, R373): code, engine number of the completion record, address, and whether a
received ABORT was the cause (R625). -/
structure FaultRec where
  code : Nat
  engine : Nat
  addr : Nat
  rx : Bool := false
  deriving DecidableEq, Repr

/-- How far a spool has moved a descriptor (R291): the destination lines written, the source lines that it holds for the next ones, and,
of a line for a multicast group, the targets at this controller and behind the gateway that have not taken it yet (R542, R544). -/
structure SpoolPos where
  moved : Nat := 0
  src : List LineData := []
  left : Option (List Nat) := none
  deriving DecidableEq, Repr

/-- A home-side spool descriptor that a schedule entry issued (R347): its spool, its words, its entry, how far it has been moved, and its
place in the order in which entries fired. -/
structure HSpool where
  spool : Nat
  desc : List Word
  entry : Nat
  pos : SpoolPos := {}
  seq : Nat := 0
  deriving DecidableEq, Repr

/-- A region slot that a plan declares, as its RUN binds it (R344, R368): the slot, its role, the controller and region (or
draft), the global address of the region's or draft's first byte, its size, whether it is VERSIONED, and the version that
the kernel reads when another controller holds the region (R194). -/
structure KSlot where
  slot : Nat
  role : Nat
  ctrl : Nat
  region : Nat
  draft : Option Nat
  base : Nat
  size : Nat
  versioned : Bool
  ver : Option Nat
  deriving DecidableEq, Repr

/-- A kernel, by its command window: from the RUN's checks to its end (R764). `pins` are region and version; `outs` are
output ranges as first and last global unit; `handles` are each rank's handles by 16 * rank + j; `owned` are areas the
kernel bound for its own run; `done` the engines that reported; `fired` the schedule entries that fired; `units` the
units a PREFETCH named (R348); `tabs` and `idxs` are its tables and indices; `work` its work
frames (R438, R456); `told` that its abort went to the composition's members (R625); `prep` that its commit has begun to prepare
(R166); `kiteWork` the walker cycles that served its kites' reads and distances, by walker (R720, R721); `asked` the
controllers whose reservation of its output ranges, pins or bindings of areas have been asked for, this one once it has reserved its own
(R372); `queued` that its RUN went into a queue, so that it counts in USERS of its plan (R354); `digest` the DIGEST of the plan that was
checked (R355); `loaded` that step 2 of its start sequence is over (R372); `holding` that the deciding homes of its far PINNED slots have
been asked to hold commits (R191); `pinSent` that pins have been asked for at other controllers (R427); `reelsDue` the remote reels
that a PREFETCH named and that no slot has held yet, by version and address (R348, R349); `port` the switch port of the engine that acts
for the kernel, 41 for the loader (R18); and `bases` the global addresses of the regions at other controllers that its tables name, as they
answered its pins: controller, region and address. -/
structure Kernel where
  win : Nat
  plan : Nat
  dom : Nat
  params : List Word
  binds : List Word
  slots : List KSlot
  ctrBase : Nat
  baseRow : Nat
  baseCol : Nat
  started : Bool
  lathes : List Nat
  ctxs : List Nat
  kites : List Nat
  pins : List (Nat × Nat)
  outs : List (Nat × Nat)
  handles : List (Nat × Handle)
  done : List Engine
  fault : Option FaultRec
  frozen : Bool
  fired : List Nat
  hspool : List HSpool
  replays : Nat
  suspect : Bool
  guilty : Bool
  tabs : List GTab
  idxs : List KIdx
  work : Nat
  units : List Nat
  told : Bool
  prep : Bool
  kiteWork : List (Nat × Nat) := []
  asked : List Nat := []
  queued : Bool := false
  digest : BitVec 512 := 0
  loaded : Bool := false
  holding : Bool := false
  pinSent : Bool := false
  reelsDue : List (Option (Nat × Nat) × Nat) := []
  port : Nat := 41
  eng : Option Engine := none
  bases : List (Nat × Nat × Nat) := []
  deriving DecidableEq, Repr

/-- An address generator (R278). -/
structure AGen where
  ptr : BitVec 30
  step : BitVec 24
  wrap : BitVec 16
  jump : BitVec 24
  sptr : BitVec 30
  sstep : BitVec 24
  lstr0 : BitVec 24
  lstr1 : BitVec 24
  lstr2 : BitVec 24
  lstr3 : BitVec 24
  cnt : BitVec 16
  deriving DecidableEq, Repr

/-- The operand stripes of a tmma as it has read them: elements of A, scales of A, elements of B, scales of B (R300, R301). -/
structure TmmaVals where
  a : List (List Nat)
  sa : List (List Nat)
  b : List (List Nat)
  sb : List (List Nat)
  deriving DecidableEq, Repr

/-- A tmma in the tensor queue (R299 to R302): its opcode, tile, shape, blocks of 32 K steps and ACC, its bundle, the Chuck
addresses of its stripes, and its operands once it has read them. -/
structure Tmma where
  op : Nat
  td : Nat
  shape : Nat
  blocks : Nat
  acc : Bool
  pc : Nat
  a : List (BitVec 30)
  sa : List (BitVec 30)
  b : List (BitVec 30)
  sb : List (BitVec 30)
  vals : Option TmmaVals := none
  deriving DecidableEq, Repr

/-- An entry of a tensor queue (R302, R303). -/
inductive TqEnt where
  | tmma (t : Tmma)
  | tzero (td : Nat)
  | tread (vd ts part : Nat)
  | tload (td part : Nat) (data : VecData)
  deriving DecidableEq, Repr

/-- A spool descriptor in flight (R291): its index, its eight words with the offsets added, its bundle, and how far it has been
moved. -/
structure SpoolEnt where
  dix : Nat
  words : List Word
  pc : Nat
  pos : SpoolPos := {}
  deriving DecidableEq, Repr

/-- What a Lathe's M slot makes its next bundle wait for (R285, R287): a cwait with its counter, its target and its bundle. -/
inductive LWait where
  | none
  | cwait (ctr target pc : Nat)
  | mfence
  | mdrain
  deriving DecidableEq, Repr

/-- A register write of the bundle that issues, kept until its last slot has read its sources (R268); `mark` names the
register of a tread that the bundle puts in the tensor queue (R269), and `uses` the uses of a generator, or of its scale stripes,
that advance it (R281). -/
inductive Stage where
  | sreg (i : Nat) (v : Word)
  | vreg (i : Nat) (v : VecData)
  | agen (i f : Nat) (v : Word)
  | mark (i : Nat)
  | uses (i n : Nat) (scale : Bool)
  deriving DecidableEq, Repr

/-- A Lathe beside its registers (R271): its register files, open loops from the innermost, tensor queue, spool descriptors in
flight, what it waits for, the staged writes of the bundle that issues, the loop that the bundle opens (trips and body length),
whether it commits, whether a bundle has issued in part, its kernel's window and its rank, a stop injected, a reset owed for an
uncorrectable Chuck error, the slots of the run that are RETIRED, BACK_STOCK and BACK_TOOL (R718), the records of tagged bundles
whose tensor instruction has not ended (the queue entries that end before it and with it, and the words, R725), and of the bundle
that issues: the first address its M slot read, and whether it has put an entry into the tensor queue; whether a tfence holds the
next bundle (R304); the slot of the bundle that cannot issue yet (R267); whether the program counter has passed bundle
1,048,575, the last that LATHE_PC can show (R309); and the window of the kernel that met an uncorrectable error in this Chuck while no
kernel ran here, whose recovery the reset waits for (R258). -/
structure Lathe where
  s : List (Nat × Word) := []
  a : List (Nat × AGen) := []
  t : List (Nat × TileData) := []
  v : List (Nat × VecData) := []
  loops : List LoopLvl := []
  tq : List TqEnt := []
  spool : List SpoolEnt := []
  wait : LWait := .none
  stage : List Stage := []
  opening : Option (Nat × Nat) := none
  commit : Bool := false
  mid : Bool := false
  win : Nat := 0
  rank : Nat := 0
  ncode : Nat := 0
  image : Nat := 0
  stopped : Bool := false
  owedReset : Bool := false
  slots : List Nat := [0, 0, 0]
  tagged : List (Nat × List Word) := []
  mread : Nat := 0
  tqNew : Bool := false
  tfence : Bool := false
  stall : Option Nat := none
  pastEnd : Bool := false
  owedBy : Option Nat := none
  deriving DecidableEq, Repr

/-- Reel slot states other than FREE (R521). -/
inductive RState where
  | fetching | clean | dirty | output | writing
  deriving DecidableEq, Repr

/-- A reel slot that is not FREE: the global address of its reel, the region and version it is read at, its staging stamp (R525), its
dirty lines, whether it holds the whole reel and not its dirty lines alone (R522), the reference bit of clock replacement (R526),
whether one of the dirty lines is partial (R528), the observer or the kernel's window that wrote it, whether it is an
overflow frame (R527), its transaction number, and the accesses that wait on it, a kernel's by its window and address. -/
structure Reel where
  addr : Nat
  st : RState
  ver : Option (Nat × Nat) := none
  stamp : Nat := 0
  dirty : List Nat := []
  whole : Bool := true
  ref : Bool := false
  partly : Bool := false
  observer : Option Master := none
  win : Option Nat := none
  overflow : Bool := false
  txn : Nat := 0
  waiting : List (Nat × Req) := []
  kwait : List (Nat × Nat) := []
  deriving DecidableEq, Repr

/-- A publish between its acceptance and its completion (R80): its draft, its command's window, the predecessor it expects,
the lines of the draft that carried poison when it was accepted (R248), and, of a DURABLE one, how far its log writes have come
(R124, R125): 1, 2, 3 while its DATA, MAP and ROOT units are written, 4 while its DECISION record is, 5 once that is on the
medium. -/
structure Pub where
  draft : Nat
  win : Nat
  pred : Nat
  poisoned : List Nat
  stage : Nat := 0
  deriving DecidableEq, Repr

/-- A hang under recovery (R610 to R617): the engine whose watchdog fired, by its number in a completion record (R373), the
suspects whose replay has not ended, and whether one of them was found guilty. -/
structure Hang where
  eng : Nat
  left : List Nat
  guilty : Bool
  deriving DecidableEq, Repr


/-- A record of a decision log: a DECISION record (R125) names the region, the new version, its predecessor and the locators of the
root units; a region record (R130) the region's index and its eight entry words, or none for a deletion. -/
inductive LogRec where
  | decision (region version pred : Nat) (roots : List Nat)
  | region (index : Nat) (words : List Word)
  deriving DecidableEq, Repr

/-- A unit of the log by its metadata (R115): TYPE, REGION, VERSION, UNIT, SEQ, the holder of its contribution (R150), and the
contribution list of a PARITY unit; and what else its bytes say: the records of a DECISION unit and the home whose log it is
(R126), and of a BAND_HEADER the erase counts and the free value of the opening time (R122). A DECISION unit's UNIT numbers it
and its VERSION says which of the two copies it is; a band table's UNIT is its quad, target and LUN. `draft` is the draft whose publish
writes the unit, until its version is decided (R128); `bytes` are the unit's 1,024 lines, none before it is programmed. `acks` are the
acknowledgements that the program of a PARITY unit owes: code, member and locator (R152, R156). -/
structure LogUnit where
  type : Nat
  region : Nat := 0
  version : Nat := 0
  unit : Nat := 0
  seq : Nat := 0
  holder : Option Nat := none
  parts : List (Nat × Nat) := []
  recs : List LogRec := []
  home : Nat := 0
  erases : List Nat := []
  openAt : Nat := 0
  draft : Option Nat := none
  bytes : List LineData := []
  acks : List (Nat × Nat × Nat) := []
  deriving DecidableEq, Repr

/-- The name of a unit of the log that is no DATA unit: its TYPE, REGION, VERSION and UNIT. -/
structure LogName where
  type : Nat
  region : Nat
  version : Nat
  unit : Nat
  deriving DecidableEq, Repr

/-- A program in flight (R123): where it goes, its unit, and the place that it is relocated from (R132). -/
structure Prog where
  loc : Nat
  unit : LogUnit
  src : Option Nat
  deriving DecidableEq, Repr

/-- What the band table keeps of a block (R135): its erase count, its reads since, and the free value of the reading of the
always-on clock at its last program. -/
structure MedBlock where
  erases : Nat := 0
  reads : Nat := 0
  progAt : Nat := 0
  deriving DecidableEq, Repr

/-- The geometry that the four channels of a quad share (R107): the targets in service, their LUNs, the blocks of a LUN and the
pages of a block. -/
structure QuadGeo where
  targets : List Nat
  luns : Nat
  blocks : Nat
  pages : Nat
  deriving DecidableEq, Repr

/-- A band of the medium (R121, R122): whether it is open, its next page, the unit that each programmed page position holds, the
highest retry step and corrected bits that scrubbing or reads met (R148), whether it waits for refresh (R139), its contributions
that no holder has acknowledged as covered (R155), whether it was retired whole (R144), the blocks, by channel, that its written
units lie in although a spare has taken their place (R143), and how far its reclaim has come (R132): 1 relocating, 2 retracting, 3
waiting for reads in flight, 4 erasing. -/
structure Band where
  isOpen : Bool := false
  next : Nat := 0
  units : List (Nat × LogUnit) := []
  step : Nat := 0
  bits : Nat := 0
  refresh : Bool := false
  uncovered : Nat := 0
  gone : Bool := false
  was : List (Nat × Nat) := []
  reclaim : Nat := 0
  deriving DecidableEq, Repr

/-- A parity stripe of a holder (R151), or a PARITY unit that it has closed (R152): its number, its contributions, each a member's
slot and locator, and of an open stripe the unit of the parity pool that is its frame. -/
structure Stripe where
  id : Nat
  parts : List (Nat × Nat)
  frame : Nat := 0
  deriving DecidableEq, Repr

/-- A member's contribution (R150): its locator, the holder's slot, whether the holder has accepted it into an open stripe (R154),
and whether it has acknowledged it as covered (R152). -/
structure Contrib where
  loc : Nat
  holder : Nat
  acc : Bool
  cov : Bool
  deriving DecidableEq, Repr

/-- A domain instance whose error is being handled (R602): the unit kind of the error log (16 for a kernel context, by its
window), the unit's number, the escalations so far, and the units of the inner recoveries that it took over (R603). -/
structure Recov where
  kind : Nat
  unit : Nat
  esc : Nat
  inner : List (Nat × Nat)
  deriving DecidableEq, Repr

/-- A cell of the switch core (R534): its input port, the outputs whose queue still holds its pointer (with the controller
number that a multicast copy goes to), its class and reservation class, its domain, its slots (16 B each), whether it is a
mirror copy, whether it is packed (R535), whether it holds a reserve cell (R537), the switch cycles it has waited at the
head of its queue (R539), and the multicast group that it names (R542). -/
structure Cell where
  inp : Nat
  outs : List (Nat × Nat)
  cls : Nat
  rc : Nat
  dom : Nat
  slots : List Nat
  mirror : Bool := false
  ready : Bool := true
  resv : Bool := false
  age : Nat := 0
  grp : Option Nat := none
  deriving DecidableEq, Repr

/-- Who waits for the answer to a request of one of the controller's own agents (R505): a kernel that reads or writes a line, a completion
record of a domain (R375), the cover of a protected line (R104), a host, a session, the management port or
Tailstock with its own TXN, or a block that needs no more than to know. -/
inductive ReqWho where
  | kread (win : Nat) (eng : Option Engine)
  | kwrite (win : Nat) (eng : Option Engine)
  | cpl (dom : Nat)
  | cover
  | fwd (src : Master) (txn : Nat)
  | agent
  deriving DecidableEq, Repr

/-- A request that an agent of this controller has sent to another controller (R505): the switch port of the agent, the agent's TXN, the line
(its address over 64), the opcode, who waits for the answer, and the mask and data that a Fetch asks for (R211). -/
structure AgentReq where
  port : Nat
  txn : Nat
  addr : Nat
  op : Nat
  who : ReqWho
  mask : Nat := 0
  data : LineData := 0
  deriving DecidableEq, Repr

/-- A reel read of another box's gateway that waits (R523): the port on which it arrived, the controller, its TXN and domain, the slice
offset of the reel, and the version that it names. -/
structure ReelWait where
  port : Nat
  ctrl : Nat
  txn : Nat
  dom : Nat
  off : Nat
  ver : Option Nat
  deriving DecidableEq, Repr

/-- What has arrived of a write-back that another box sends (R528, R529): its port, controller and TXN, its domain, the base address and the
number of lines once its WrNC has come, and the lines with their indices and POISON flags. -/
structure WbPart where
  port : Nat
  ctrl : Nat
  txn : Nat
  dom : Nat
  base : Option (Nat × Nat)
  lines : List (Nat × LineData × Bool)
  deriving DecidableEq, Repr

/-- The link layer of a fabric port beside its registers: the SEQ of the last flit sent and of the last one received good and
in order, the replay buffer (SEQ, the times it went again, and words, R506, R510), whether a NAK has been sent for the awaited flit (R507), the flits received
since the last ACK (R509), the credits held and granted by channel and reservation class (R513, R550), the free values of the times of the last resends and retrains (R510), the trainings that failed in a row (R499),
the lanes that converged, the credits that the far end granted at CONFIG (R513), the messages that wait for the switch core (R537), the CONTROL flits that wait for an ACK of earlier
ones (R515), the far end's buffer by channel and class as it is split now (R550), and the slots that a class has in use beyond its share of
the far end's buffer and of the own one, which come back without a credit (assumption 236). -/
structure Link where
  tx : Nat := 4095
  rx : Nat := 4095
  replay : List (Nat × Nat × List Nat) := []
  nak : Bool := false
  got : Nat := 0
  crd : List (Nat × Nat) := []
  grant : List (Nat × Nat) := []
  resends : List Nat := []
  retrains : List Nat := []
  fails : Nat := 0
  conv : Nat := 0
  crd0 : List (Nat × Nat) := []
  rxq : List Cell := []
  ctl : List (List Nat) := []
  share : List (Nat × Nat) := []
  oweTx : List (Nat × Nat) := []
  oweRx : List (Nat × Nat) := []
  deriving DecidableEq, Repr

/-- A request that a controller agent sent out of a fabric port (R505): the port, the TXN it carries there, the switch port
of its agent, the agent's own TXN, the line address, its header slot, and the responses still due. -/
structure FabReq where
  port : Nat
  txn : Nat
  agent : Nat
  own : Nat
  addr : Nat
  hdr : Nat := 0
  left : Nat := 1
  deriving DecidableEq, Repr
/-- A request that Ballast holds (R689, R690): its priority, the pace tick of its arrival, the unit by 4096 * kind + number (kind
16 for the arithmetic step), whether it starts a clock, and whether it has waited for tokens. -/
structure BReq where
  prio : Nat
  tick : Nat
  unit : Nat
  start : Bool
  waited : Bool
  deriving DecidableEq, Repr

/-- What arrives in chunks (R659, R672, R754): the total length and the parts received, each its offset and length. -/
structure Chunks where
  total : Nat
  parts : List (Nat × Nat)
  deriving DecidableEq, Repr


/-- A HOST_RELEASE sweep (R251): its host, the slice offset and the bytes of its buffer, the lines that it poisoned, whether it sets
OVERFLOW, and how far it has come: 0 the homes sweep, 1 the addresses are being written, 2 the result is. -/
structure Sweep where
  host : Nat
  off : Nat
  len : Nat
  count : Nat := 0
  ovf : Bool := false
  stage : Nat := 0
  deriving DecidableEq, Repr

/-- An accepted composition command that has not finished (R662): its window (65,536 for one of the management protocol, whose
request is `ref`, and 65,537 for a row of its own), the SEQ of its header and of its body, the hosts whose HOST_RELEASE sweeps run,
the regions whose host copies are being recalled (R756), the lines that a LINE_RESTORE has not served yet (R250), and what its
completion reports. -/
structure CmpWait where
  win : Nat
  ref : Nat
  hseq : Nat
  seq : Nat
  hosts : List Nat
  regions : List Nat
  lines : List Nat
  poisoned : Nat
  missed : Nat
  overflow : Bool
  deriving DecidableEq, Repr

/-- A dump (R618, R619): the free value that stands for its bytes, since the manual gives no layout; its header (SEQ of the causing
entry, domain, kind and number of the unit, action, time); and what it collects: the registers, which hold the error logs, the
counters of performance, WIN_STAT and every sticky bit and count; the arrival counters; the queues of Lathes and engines, the homes'
trackers and retry lists, the switch's cells and the gateway's slots; the Lathes, contexts and kites of the units being reset; and the
bytes of the Chuck samples of those Lathes. -/
structure Dump where
  tag : Nat
  seq : BitVec 48
  dom : Nat
  kind : Nat
  unit : Nat
  action : Nat
  time : BitVec 48
  regs : List (Nat × Word)
  counters : List (Nat × Word)
  lathQ : List Nat
  engQ : List Nat
  trk : List Txn
  retry : List (Nat × Req)
  cells : List Cell
  reels : List (Nat × Reel)
  lathes : List (Nat × Lathe)
  ctxs : List (Nat × Ctx)
  kites : List (Nat × Ctx)
  chucks : List Host.Cell
  deriving DecidableEq, Repr

set_option maxRecDepth 4096 in
/-- The state of the block. -/
structure State where
  /-- The commands that wait, first in, first out. -/
  pending : List Instr
  /-- Every register of the local control window (R47) by its offset; an unlisted register holds its reset value (RegTable.lean). -/
  regs : List (Nat × Word)
  /-- Every addressed byte of the machine, in canonical form; Ops.lean gives the key of each space. -/
  mem : List Host.Cell
  /-- The lines that carry poison (R202), by their memory key over 64, rising. -/
  poison : List Nat
  /-- Directory entries (R235) by line number. -/
  dir : List (Nat × BitVec 32)
  /-- The snoop filters of the eight homes (R236), most recently used first. -/
  filt : List FEntry
  /-- The line stores of the eight homes (R203), in clock order from the hand. -/
  store : List StoreEnt
  /-- The trackers of the eight homes (R219), oldest first. -/
  trk : List Txn
  /-- The retry lists of the eight homes (R221): home and request header, in the order of their Defer. -/
  retry : List (Nat × Req)
  /-- Requests that wait for a busy line or a tracker entry, in arrival order: in blocking mode (R231), and in native mode while the
  home's retry list holds 4,096 entries (assumption 160). -/
  blockq : List (Nat × Req)
  /-- Lines that the homes owe an invalidation, oldest first (R172, R215, R216). -/
  recallq : List Recall
  /-- Write-backs of other boxes held whole and not applied yet (R529). -/
  wbq : List WbHold
  /-- Lines written whose cover has not acknowledged yet, oldest first: slice offset and who waits (R98, R104). -/
  covers : List (Nat × CoverFor)
  /-- The messages to mirror peers and parity holders that are not acknowledged yet (R98, R104), oldest first, by the global address
  of their line, with twice the controller number of the mirror peer, or twice the box slot of the holder plus one. -/
  coverSent : List (Nat × Nat)
  /-- Lines of LINE_RESTOREs not served yet, oldest first: slice offset and the source's line, none when the source is lost (R250). -/
  restoreq : List (Nat × Option LineData)
  /-- REQ credits that the homes withhold in blocking mode while their trackers are full: the port and the message (R231). -/
  credHeld : List (Nat × Nat × Nat × Nat × Nat)
  /-- Counted areas bound to counters, other than the windows' own (R176). -/
  areas : List Area
  /-- Arrival counters (R45) by number; an unlisted counter holds zero. -/
  counters : List (Nat × Word)
  /-- Command windows by number, beside WIN_STAT_w (R360). -/
  wins : List (Nat × Win)
  /-- Windows that a cold reset closed while their kernels ran or their completions waited (R360): what the completions say. -/
  keptCpl : List (Nat × KeptCpl)
  /-- Injections written and not yet taken. -/
  inj : List Inj
  /-- What the block has sent (the model's own record). -/
  out : List Out
  /-- The model's own counter of free values: each one a step draws advances it. -/
  free : Nat
  /-- The last SEQ given to an error log entry (R585). -/
  seq : BitVec 48
  /-- Management messages not yet acknowledged (R577). -/
  mgmtOut : List MgmtOut
  /-- The number of the last management message sent. -/
  mgmtMsg : Nat
  /-- Frames neither allocated nor caching nor waiting to be zeroed: TIER_STAT.FREE_FRAMES (R46). -/
  freeFrames : Nat
  /-- Released frames that wait to be zeroed (R651). -/
  dirtyFrames : Nat
  /-- 64 KiB units of drafts that have a frame of their own (R78), by slice offset over 65,536. -/
  draftUnits : List Nat
  /-- The management port that last received a valid block (R577). -/
  mgmtPort : Nat
  /-- Where the last valid management block came from (R563, R574): the sender's address and UDP port, and its tag. -/
  mgmtFar : Nat × Nat
  /-- Private map frames of DURABLE drafts (R118), by draft-range slice offset over 2^29. -/
  draftMaps : List Nat
  /-- Medium use of each domain in 64 KiB units, exact (R93). -/
  medUse : List (Nat × Nat)
  /-- Medium reservation of each domain in 64 KiB units, exact (R93). -/
  medResv : List (Nat × Nat)
  /-- The tier cache (R62), in clock order from the hand. -/
  tierCache : List CacheEnt
  /-- Units whose fetch from the medium is in flight (R61), by memory key over 65,536. -/
  fetches : List Nat
  /-- The domain of the access that each fetch in flight serves first (R706), by unit. -/
  fetchDoms : List (Nat × Nat)
  /-- Units whose locator reads LOST (R140), by memory key over 65,536. -/
  lost : List Nat
  /-- Shadow frames of running kernels (R164). -/
  shadows : List Shadow
  /-- Protected regions that have lost their peer (R100). -/
  degraded : List Nat
  /-- Ranges of memory (key and length) that await restoration after a cold reset (R594). -/
  toRestore : List (Nat × Nat)
  /-- ZCT sessions by number, beside ZCT_SESS_s and ZCT_SSTAT_s. -/
  sess : List (Nat × Sess)
  /-- The Lathe queue (R370): windows, head first. -/
  lathQ : List Nat
  /-- The engine queue (R370): windows, head first. -/
  engQ : List Nat
  /-- Kernels from the RUN's checks to their end. -/
  kernels : List Kernel
  /-- The number of the last command that became ready (R370, R378). -/
  readyNo : Nat
  /-- The number of the last home-side spool descriptor that a schedule entry issued (R347). -/
  fireNo : Nat
  /-- Plan copies that the loader is checking: window, bytes and frames (R350). -/
  planLoads : List (Nat × Nat × Nat)
  /-- Lines that running kernels have output to the home or draft range of other controllers of the box, held until their commit
  points (R30, R168, R293): window, global address, bytes, and the multicast group of a line for several (R542). -/
  peerOuts : List (Nat × Nat × LineData × Option Nat)
  /-- The DIGEST of each loaded plan's handle (R353). -/
  planDigests : List (Nat × BitVec 512)
  /-- Lathes by number, beside their registers. -/
  lathes : List (Nat × Lathe)
  /-- Scratch granules whose valid bit is set (R186): 128 per Lathe, by 128 * Lathe + 64 KiB index. -/
  granules : List Nat
  /-- The version that each CHUCK region's replica holds, plus one (R90). -/
  replicas : List (Nat × Nat)
  /-- Reel slots that are not FREE, by number: 0 to 1,023 the staging area, beyond that overflow frames (R527), in clock order of
  their listing. -/
  reels : List (Nat × Reel)
  /-- The gateway's staging sequence (R525). -/
  reelStamp : Nat
  /-- The last transaction number the gateway chose. -/
  reelTxn : Nat
  /-- The gateway's miss queue (R526), oldest first. -/
  missq : List Miss
  /-- The staging sequence each running kernel recorded at its start point (R525), by window. -/
  kstamps : List (Nat × Nat)
  /-- The dumps of the slots that hold one (R618, R620). -/
  dumps : List (Nat × Dump)
  /-- Units of STREAM regions held for the engine accesses that wait on them (R55), by memory key over 65,536. -/
  streamUnits : List Nat
  /-- The engine accesses that wait on a unit of a STREAM region (R55): the unit, the kernel's window, and whether it has read it. -/
  streamWait : List (Nat × Nat × Bool)
  /-- Lines that engine accesses which have not ended have read through the gateway (R33, R35): window, line address and bytes. -/
  lineBuf : List (Nat × Nat × LineData)
  /-- The pool unit of each frame of a parity region that has been written (R102), by 16 times the frame's memory key over
  65,536, plus the group. -/
  poolMap : List (Nat × Nat)
  /-- The next byte of this controller's ring at each holder and of each member's ring here (R104): 2 * slot, plus one for a ring here. -/
  ringPos : List (Nat × Nat)
  /-- The held versions of each VERSIONED region (R83): region and version, rising within a region. -/
  versions : List (Nat × Nat)
  /-- The units that each publish changed: region, version and unit (R116, R131). -/
  verUnits : List (Nat × Nat × Nat)
  /-- Publishes accepted and not yet completed (R80). -/
  pubs : List Pub
  /-- Hangs under recovery (R610). -/
  hangs : List Hang
  /-- The context of each gouge that is served next, 0 to 7 (R418). -/
  rowTurn : List (Nat × Nat)
  /-- The number that the last kite to ask for lines has in its walker's rotation (R454). -/
  kiteNo : Nat
  /-- Gather contexts by number, beside their registers. -/
  ctxs : List (Nat × Ctx)
  /-- Kites by number, beside their registers. -/
  kites : List (Nat × Ctx)
  /-- Committed kernels whose reels are not all acknowledged (R195): the window, the replays, VALUE0 and VALUE2 of the completion. -/
  cplWait : List (Nat × List Nat)
  /-- The band table (R135), by locator over 4,096. -/
  bands : List (Nat × Band)
  /-- The locators of the version maps (R116), and of the units of undecided publishes by their draft's unit: bits 39 to 0 by unit name; VALID, ZERO and LOST follow from the unit's bytes and from
  lost. -/
  locs : List (Nat × Nat)
  /-- The locators of MAP, ROOT, PARITY and DECISION units (R116, R124, R126, R152). -/
  metaLocs : List (LogName × Nat)
  /-- The last log sequence number of the medium (R115). -/
  logSeq : Nat
  /-- Programs in flight, in the order of their issue (R121, R123). -/
  progs : List Prog
  /-- Units that wait for a place in the log, with the place that they are relocated from (R123, R132). -/
  logQ : List (LogUnit × Option Nat)
  /-- The next place in the log's rotation over quads, LUNs and targets (R123). -/
  logPtr : Nat
  /-- The next holder in the rotation over the other members (R150). -/
  parPtr : Nat
  /-- Records that wait for their home's next DECISION page (R126): home and record, in order. -/
  decQ : List (Nat × LogRec)
  /-- DECISION records on the medium, oldest first (R125): region, version and predecessor. -/
  decisions : List (Nat × Nat × Nat)
  /-- The newest region record of each region (R130): its eight entry words, or none for a deletion. -/
  regRecs : List (Nat × List Word)
  /-- Versions that replay has rebuilt and no REGION_SET has attached yet (R130). -/
  rebuilt : List (Nat × Nat)
  /-- Open stripes of this holder, oldest first (R151). -/
  stripes : List Stripe
  /-- PARITY units that this holder has written (R152). -/
  parUnits : List Stripe
  /-- Contributions of this member (R150, R155). -/
  contribs : List Contrib
  /-- The geometry of each quad in service (R107). -/
  quadGeo : List (Nat × QuadGeo)
  /-- The rates in MT/s that every target of a channel in service reports (R109). -/
  chanRates : List (Nat × List Nat)
  /-- What the band table keeps of each block (R135), by channel, target, LUN and block packed. -/
  blockTab : List (Nat × MedBlock)
  /-- Bad blocks, marked at the factory or retired (R142, R145), by channel, target, LUN and block packed. -/
  badBlocks : List Nat
  /-- The band remap table (R143): channel and band, packed, to a spare's block number. -/
  remaps : List (Nat × Nat)
  /-- The block numbers of the spares left of each LUN (R142), by channel, target and LUN packed. -/
  spares : List (Nat × List Nat)
  /-- Consecutive status timeouts of each LUN (R146). -/
  lunTmo : List (Nat × Nat)
  /-- LUNs out of service (R146). -/
  lunOut : List Nat
  /-- Raw bytes of each target in service (R25), by 4 times the channel, plus the target. -/
  targetBytes : List (Nat × Nat)
  /-- The locator that each fetch in flight looked up (R133), by unit; 2^40 plus the locator of a lost member for a unit of its (R158),
  and 2^41 for a unit that is not read from the medium. -/
  reading : List (Nat × Nat)
  /-- The controller has been without power since the last replay (R136). -/
  unpowered : Bool
  /-- Bands whose sentinel page is being read (R136). -/
  sentinels : List Nat
  /-- Page reads of replay and of read-disturb scrubs in flight (R129, R133, R135), by 4 times the locator, plus the page. -/
  scrubs : List Nat
  /-- Bands whose refresh (true) or read-disturb scrub (false) waits behind reclaim while the log is full (R134), in order. -/
  lateQ : List (Nat × Bool)
  /-- The class of item that a rebuild has come to (R158): 0 decisions, 1 ROOT, 2 MAP and band table, 3 DATA. -/
  rebuildAt : Nat
  /-- Units of a lost member that are not rebuilt yet (R158), with 2^40 plus the locator that it had for them. -/
  foreign : List (Nat × Nat)
  /-- Retractions that a band's erase still waits for (R132, R156). -/
  retracts : List (Nat × Nat)
  /-- Regions whose new mirror or parity cover is being written (R100, R756): region, and the old PROTECT, PEER and PGROUP. -/
  copying : List (Nat × Nat × Nat × Nat)
  /-- Domain instances being handled (R602). -/
  recovs : List Recov
  /-- Units that a running kernel's spool descriptor has named (R62): window and unit name. -/
  nameds : List (Nat × Nat)
  /-- The link layers of the fabric ports, beside their registers. -/
  links : List (Nat × Link)
  /-- The cells in the switch core's buffer, oldest first (R536). -/
  cells : List Cell
  /-- The rotating pointer of each output (R538). -/
  swOut : List (Nat × Nat)
  /-- The rotating pointer of each input (R538). -/
  swIn : List (Nat × Nat)
  /-- The next reservation class in each output's rotation (R548). -/
  swTurn : List (Nat × Nat)
  /-- The reserved-credit registers as the scheduling epoch uses them (R552), by offset. -/
  swLive : List (Nat × Word)
  /-- Cells that each output and class has sent this epoch (R547), by 16 * output + class. -/
  swSpent : List (Nat × Nat)
  /-- Cells counted towards the next mirror copy (R545). -/
  mirCnt : Nat
  /-- Requests of controller agents outstanding at the fabric ports (R505). -/
  fabReqs : List FabReq
  /-- The messages of the controller's own agents that have not entered the switch core yet, oldest first (R537). -/
  agentq : List Cell
  /-- The requests of its own agents to other controllers that have no answer yet (R505). -/
  agentReqs : List AgentReq
  /-- The TXN of the last such request (R505). -/
  agentTxn : Nat
  /-- Lines that other controllers have answered to a kernel and that it has not taken yet (R173): the window, the line, the data and
  POISON. -/
  farGot : List (Nat × Nat × LineData × Bool)
  /-- The writes of hosts that are on their way to another controller, and whether each carries a byte mask (R504). -/
  fwdWrites : List (Nat × Bool)
  /-- The reservation class that each input serves next (R548). -/
  swInTurn : List (Nat × Nat)
  /-- The switch cycles of the epoch so far (R547). -/
  swCycles : Nat
  /-- Reel reads of other boxes that wait (R523). -/
  reelWaits : List ReelWait
  /-- Write-backs of other boxes of which not every line has come (R529). -/
  wbParts : List WbPart
  /-- The lines that have come of reel reads: the reel read's TXN, the line's index, the data and POISON (R523). -/
  reelParts : List (Nat × Nat × LineData × Bool)
  /-- The free values of the times of each unit's last resets (R598), by 4096 * unit kind + number. -/
  resetAt : List (Nat × List Nat)
  /-- The always-on domain is out of reset (R735, R740). -/
  aonUp : Bool
  /-- The standby domain is out of reset (R682). -/
  stbyUp : Bool
  /-- The crystal oscillator runs (R743). -/
  xtal : Bool
  /-- A RUN request asked for this Headstock run, so it goes on to RUNNING whatever HOLD says (R699). -/
  wake : Bool
  /-- REQ 2 came while a reset was under way: the device stays in STANDBY once Headstock has passed (R699). -/
  stay : Bool
  /-- RESET_N is held low, and a whole-device reset waits for its rise (R740). -/
  resetLow : Bool
  /-- THERMTRIP_N is driven low (R740). -/
  thermTrip : Bool
  /-- The next Headstock run enters recovery after step 3 (R753). -/
  forceRecovery : Bool
  /-- The hottest sensor's last reading in °C (R696). -/
  hotJ : Nat
  /-- The requests queued at Ballast, in order of arrival (R690). -/
  ballastQ : List BReq
  /-- The units whose clocks run, by 4096 * kind + number (R685). -/
  clocked : List Nat
  /-- Consecutive power samples below the limits (R695). -/
  coolRun : Nat
  /-- The free value of the time of the last arithmetic step (R687). -/
  stepAt : List Nat
  /-- Rails whose last PMBus transaction failed once (R702). -/
  pmbFails : List Nat
  /-- The firmware image being received (R672, R673); its bytes lie in memory. -/
  imgRx : Chunks
  /-- A slot write in progress: the attempts made (R673), 16 more in recovery (R672). -/
  imgWrite : Option Nat
  /-- Who sent the image: the management port, or 2 for Tailstock. -/
  imgPort : Nat
  /-- The management COMPOSE image being received (R659); its bytes lie in memory. -/
  cmpRx : Chunks
  /-- Accepted composition commands that have not finished (R662), oldest first. -/
  cmpWait : List CmpWait
  /-- HOST_RELEASE sweeps that run (R251). -/
  sweeps : List Sweep
  /-- The fused digests of the owner key slots (R665). -/
  owner : List (Nat × BitVec 512)
  /-- The fuse that marks a production part (R748). -/
  production : Bool
  /-- The strap TS_EN, sampled continuously (R732). -/
  tsEn : Bool
  /-- A Tailstock session has started (R750). -/
  tsOpen : Bool
  /-- Tailstock's mrd or mwr in service (R751): its command, the transactions of its lines not yet answered, and the reason of
  the first refusal (0: none). -/
  tsWait : Option (Nat × List Nat × Nat)
  /-- Heartbeat intervals since each management port last received a valid block (R578). -/
  mgmtIdle : List (Nat × Nat)
  /-- The global address of each management port (R574). -/
  mgmtAddr : List (Nat × Nat)
  /-- The next SEQ expected of the manager (R567, R574). -/
  mgmtNext : Nat
  /-- The IPv6 and IPv4 addresses of the command ports (R560): by 2 * port, plus one for IPv4. -/
  ethAddr : List (Nat × Nat)
  /-- ZCT blocks that wait at a command port for a paused priority (R561), in order: port, session and block. -/
  pfcQ : List (Nat × Nat × ZBlk)
  /-- Priorities that received PFC frames pause (R561), by 8 * port + priority. -/
  paused : List Nat
  /-- Priorities that the ports have paused (R561), by 8 * port + priority. -/
  xoff : List Nat
  /-- Each tether record's EPOCH and RENEW at the last sweep (R635), packed, by slice offset. -/
  tetherSeen : List (Nat × Nat)
  /-- Pending additions of frozen counters (R714), by 16 * block + counter. -/
  pmcHeld : List (Nat × Nat)
  /-- Tag registers (R722): by Lathe number, and 128 + kite number. -/
  tagRegs : List (Nat × Nat)
  /-- Tag registers that have been loaded since TAG_CFG was last written (R723). -/
  tagFresh : List Nat
  /-- The test access port's instruction register (R744). -/
  jtag : Nat
  /-- The boundary register's update latches (R746), by ball. -/
  boundary : List (Nat × Bool)
  /-- Rails that are switched on, by PMBus index (R737). -/
  rails : List Nat
  /-- Ballast pace ticks so far (R688). -/
  pace : Nat
  /-- FLAGS of the running firmware image (R670). -/
  imgFlags : Nat
  /-- Management requests received beyond a gap (R568, R574): SEQ, port and request. -/
  mgmtHeld : List (Nat × Nat × MgmtReq)
  deriving DecidableEq, Repr

/-- Why a step could stop with a fault. Nobody raises one: every command of the table has an effect. -/
inductive Fault where
  /-- Raised by no command (safe). -/
  | none
  deriving DecidableEq, Repr

/-- Why a step could be refused. -/
inductive Refusal where
  /-- Raised by the arm of a command that the model gives no meaning yet: safe, since the machine stops there. -/
  | notModelled (mnemonic : String)
  deriving DecidableEq, Repr

/-- The machine right after reset: no power domain is up beyond the always-on registers' reset values; every register
holds the value its map gives; every other piece of state is empty or zero (assumption 2). -/
def State.reset : State where
  pending := []
  regs := []
  mem := []
  poison := []
  dir := []
  filt := []
  store := []
  trk := []
  retry := []
  blockq := []
  recallq := []
  wbq := []
  covers := []
  coverSent := []
  restoreq := []
  credHeld := []
  areas := []
  counters := []
  wins := []
  keptCpl := []
  inj := []
  out := []
  free := 0
  seq := 0
  mgmtOut := []
  mgmtMsg := 0
  freeFrames := 8355840
  dirtyFrames := 0
  draftUnits := []
  mgmtPort := 0
  mgmtFar := (0, 0)
  draftMaps := []
  medUse := []
  medResv := []
  tierCache := []
  fetches := []
  fetchDoms := []
  lost := []
  shadows := []
  degraded := []
  toRestore := []
  sess := []
  lathQ := []
  engQ := []
  kernels := []
  readyNo := 0
  fireNo := 0
  planLoads := []
  peerOuts := []
  planDigests := []
  lathes := []
  granules := []
  replicas := []
  reels := []
  reelStamp := 0
  reelTxn := 0
  missq := []
  kstamps := []
  dumps := []
  streamUnits := []
  streamWait := []
  lineBuf := []
  poolMap := []
  ringPos := []
  versions := []
  verUnits := []
  pubs := []
  hangs := []
  rowTurn := []
  kiteNo := 0
  ctxs := []
  kites := []
  cplWait := []
  bands := []
  locs := []
  metaLocs := []
  logSeq := 0
  progs := []
  logQ := []
  logPtr := 0
  parPtr := 0
  decQ := []
  decisions := []
  regRecs := []
  rebuilt := []
  stripes := []
  parUnits := []
  contribs := []
  quadGeo := []
  chanRates := []
  blockTab := []
  badBlocks := []
  remaps := []
  spares := []
  lunTmo := []
  lunOut := []
  targetBytes := []
  reading := []
  unpowered := false
  sentinels := []
  scrubs := []
  lateQ := []
  rebuildAt := 0
  foreign := []
  retracts := []
  copying := []
  recovs := []
  nameds := []
  links := []
  cells := []
  swOut := []
  swIn := []
  swTurn := []
  swLive := []
  swSpent := []
  mirCnt := 0
  fabReqs := []
  agentq := []
  agentReqs := []
  agentTxn := 0
  farGot := []
  fwdWrites := []
  swInTurn := []
  swCycles := 0
  reelWaits := []
  wbParts := []
  reelParts := []
  resetAt := []
  aonUp := false
  stbyUp := false
  xtal := false
  wake := false
  stay := false
  resetLow := false
  thermTrip := false
  forceRecovery := false
  hotJ := 0
  ballastQ := []
  clocked := []
  coolRun := 0
  stepAt := []
  pmbFails := []
  imgRx := ⟨0, []⟩
  imgWrite := none
  imgPort := 0
  cmpRx := ⟨0, []⟩
  cmpWait := []
  sweeps := []
  owner := []
  production := false
  tsEn := false
  tsOpen := false
  tsWait := none
  mgmtIdle := []
  mgmtAddr := []
  mgmtNext := 1
  ethAddr := []
  pfcQ := []
  paused := []
  xoff := []
  tetherSeen := []
  pmcHeld := []
  tagRegs := []
  tagFresh := []
  jtag := 255
  boundary := []
  rails := []
  pace := 0
  imgFlags := 0
  mgmtHeld := []

end Sys2Proof.Machine
end

