-- ==== Sys2Proof/Machine/Regs.lean ====
section
/-! DEFINITION. Machine/Regs.lean: reading and writing registers and their fields, sticky bits and saturating counts. -/

namespace Sys2Proof.Machine

/-- Does a row of a register map hold the register at `off`? -/
def RegRow.has (r : RegRow) (off : Nat) : Bool :=
  let d := off - r.base
  decide (r.base ≤ off) && decide (d / r.s1 < r.n1) && decide (d % r.s1 % r.s2 = 0) && decide (d % r.s1 / r.s2 < r.n2)

/-- The row of the register at `off`, none at an RSV offset. -/
def regRow (off : Nat) : Option RegRow := regTable.find? (fun r => r.has off)

/-- What the register at `off` holds after reset (R16). Entry 0 of the domain table is fixed: VALID, and one CONTROL
grant with R and W on all twenty blocks (R648). -/
def regReset (off : Nat) : Word :=
  if off = 0x200000 then 0x8000000000000000
  else if off = 0x200010 then 0x6C000000000FFFFF
  else match regRow off with
    | some r => BitVec.ofNat 64 r.reset
    | none => 0

/-- The register at offset `off` of the local control window. -/
def reg (s : State) (off : Nat) : Word := Sparse.get s.regs off (regReset off)

/-- Set the register at `off`. -/
def regSet (s : State) (off : Nat) (v : Word) : State :=
  { s with regs := Sparse.set s.regs off (regReset off) v }

/-- Bits `hi` to `lo` of a number. -/
def bits (n hi lo : Nat) : Nat := n / 2 ^ lo % 2 ^ (hi - lo + 1)

/-- A word with bits `hi` to `lo` replaced by `v`. -/
def putBits (w : Word) (hi lo v : Nat) : Word :=
  BitVec.ofNat 64 (w.toNat - bits w.toNat hi lo * 2 ^ lo + v % 2 ^ (hi - lo + 1) * 2 ^ lo)

/-- A field of a register. -/
def regFld (s : State) (off hi lo : Nat) : Nat := bits (reg s off).toNat hi lo

/-- Set a field of a register. -/
def regPut (s : State) (off hi lo v : Nat) : State := regSet s off (putBits (reg s off) hi lo v)

/-- One bit of a register. -/
def regBit (s : State) (off b : Nat) : Bool := (reg s off).toNat.testBit b

/-- Set a sticky bit. -/
def setBit (s : State) (off b : Nat) : State := regPut s off b b 1

/-- Clear a bit. -/
def clrBit (s : State) (off b : Nat) : State := regPut s off b b 0

/-- A 48-bit count that saturates (R587). -/
def addCnt (s : State) (off n : Nat) : State :=
  regPut s off 47 0 (min (2 ^ 48 - 1) (regFld s off 47 0 + n))

/-- One more event in a saturating count. -/
def incCnt (s : State) (off : Nat) : State := addCnt s off 1

/-- Raise a register field by `n` (wrapping at its width). -/
def regAdd (s : State) (off hi lo n : Nat) : State := regPut s off hi lo (regFld s off hi lo + n)

/-- Lower a register field by `n`, not below zero. -/
def regSub (s : State) (off hi lo n : Nat) : State := regPut s off hi lo (regFld s off hi lo - n)

/-- Set several registers from consecutive offsets, eight bytes apart. -/
def regSetList (s : State) (off : Nat) (ws : List Word) : State :=
  match ws with
  | [] => s
  | w :: rest => regSetList (regSet s off w) (off + 8) rest

/-- Apply a change for each number of a list. -/
def forEach {α : Type} (l : List α) (s : State) (f : State → α → State) : State := l.foldl f s

/-- Apply a change when a condition holds. -/
def whenB (c : Bool) (f : State → State) (s : State) : State := if c then f s else s

/-- Draw a fresh number of the model's free values (assumption 5). -/
def drawFree (s : State) : Nat × State := (s.free, { s with free := s.free + 1 })

/-- Draw the first of `k` fresh numbers in a row. -/
def drawFrees (s : State) (k : Nat) : Nat × State := (s.free, { s with free := s.free + k })

/-- Is the time between two readings of the clock below a limit? Readings are free values (assumption 5). -/
def within (old new limit : Nat) : Bool :=
  decide ((Config.freeTime new).toNat - (Config.freeTime old).toNat < limit)

/-- Take the first injection that matches: a persistent one stays (R253, R316). -/
def takeInj (s : State) (off kind : Nat) (p : Nat → Bool) : Option (Nat × State) :=
  match s.inj.find? (fun i => i.off == off && i.kind == kind && p i.arg) with
  | none => none
  | some i => some (i.arg, if i.persist then s else { s with inj := s.inj.erase i })

/-- Arm an injection: one write of a kind replaces the earlier one that has not been taken. -/
def armInj (s : State) (off kind arg : Nat) (persist : Bool) : State :=
  { s with inj := s.inj.filter (fun i => !(i.off == off && i.kind == kind && i.arg == arg)) ++ [⟨off, kind, arg, persist⟩] }

/-- KIND 0 clears a persistent injection of the register (R316). -/
def clearInj (s : State) (off : Nat) : State :=
  { s with inj := s.inj.filter (fun i => !(i.off == off && i.persist)) }

/-! Offsets of the registers the meanings use. -/

/-- Region table word `i` of region `r` (R47). -/
def rRegion (r i : Nat) : Nat := 0x100000 + 64 * r + 8 * i
/-- Domain table word `i` of domain `d` (R647). -/
def rDomain (d i : Nat) : Nat := 0x200000 + 256 * d + 8 * i
/-- Quota register `i` of domain `d`: 0 limit and 1 use of frames, 2 and 3 of medium GiB, 4 and 5 of drafts, 6 status. -/
def rQuota (d i : Nat) : Nat := 0x210000 + 64 * d + 8 * i
/-- DRAFT_STAT_d. -/
def rDraftStat (d : Nat) : Nat := 0x220000 + 16 * d
/-- DRAFT_BASE_d. -/
def rDraftBase (d : Nat) : Nat := 0x220008 + 16 * d
/-- PGRP_n. -/
def rPgrp (n : Nat) : Nat := 0x230000 + 8 * n
/-- ADDR_SELF. -/
def rAddrSelf : Nat := 0x1000
/-- COH_CFG. -/
def rCohCfg : Nat := 0x600000
/-- COH_HOST_n. -/
def rCohHost (n : Nat) : Nat := 0x601000 + 8 * n
/-- Home register `k` (byte offset) of home `h`: 0 HA_STAT, 8 HA_ERR, 0x10 HA_INJ, 0x18 HA_TMO_CNT, 0x20 HA_POISON_CNT,
0x28 HA_PROTO_CNT, 0x30 HA_SF_ERR_CNT, 0x38 HA_DIR_ERR_CNT, 0x40 HA_LATE_CNT. -/
def rHome (h k : Nat) : Nat := 0x400000 + 0x40000 * h + k
/-- Lathe register `k` (byte offset) of Lathe `l`. -/
def rLathe (l k : Nat) : Nat := 0x800000 + 0x10000 * l + k
/-- Walker register `k` of walker `w`. -/
def rWalker (w k : Nat) : Nat := 0x1000000 + 0x1000 * w + k
/-- Kite register `k` of kite `n`. -/
def rKite (n k : Nat) : Nat := 0x1020000 + 32 * n + k
/-- Gouge register `k` of gouge `g`. -/
def rGouge (g k : Nat) : Nat := 0x1100000 + 0x1000 * g + k
/-- Gather context register `k` of context `n`. -/
def rGctx (n k : Nat) : Nat := 0x1110000 + 32 * n + k
/-- LDR_STAT. -/
def rLdrStat : Nat := 0x1200000
/-- LDR_ERR. -/
def rLdrErr : Nat := 0x1200008
/-- LDR_INJ. -/
def rLdrInj : Nat := 0x1200010
/-- LDR_REFUSE_CNT. -/
def rLdrRefuse : Nat := 0x1200018
/-- PLAN_STAT_p. -/
def rPlanStat (p : Nat) : Nat := 0x1201000 + 16 * p
/-- PLAN_BUDGET_p. -/
def rPlanBudget (p : Nat) : Nat := 0x1201008 + 16 * p
/-- WIN_STAT_w. -/
def rWinStat (w : Nat) : Nat := 0x1204000 + 16 * w
/-- Fabric port register `k` of port `p`. -/
def rFab (p k : Nat) : Nat := 0x2000000 + 0x10000 * p + k
/-- Switch register `k`: 0 SW_CFG, 8 SW_STAT, 0x10 SW_ERR, 0x18 SW_INJ, 0x20 SW_MIRROR, 0x28 SW_MIRROR_DROP_CNT, 0x30
SW_FLUSH_CNT. -/
def rSw (k : Nat) : Nat := 0x2100000 + k
/-- Gateway register `k`: 0 GW_STAT, 8 GW_ERR, 0x10 GW_INJ, 0x18 GW_CFG, 0x20 GW_FETCH_CNT, 0x28 GW_WB_CNT, 0x30
GW_ERR_CNT. -/
def rGw (k : Nat) : Nat := 0x2300000 + k
/-- Command Ethernet register `k` of port `e`. -/
def rEth (e k : Nat) : Nat := 0x3000000 + 0x1000 * e + k
/-- ZCT_SESS_s. -/
def rSess (n : Nat) : Nat := 0x3010000 + 16 * n
/-- ZCT_SSTAT_s. -/
def rSstat (n : Nat) : Nat := 0x3010008 + 16 * n
/-- MGMT_STAT. -/
def rMgmtStat : Nat := 0x3080000
/-- MGMT_ERR. -/
def rMgmtErr : Nat := 0x3080008
/-- Recovery register `k`: 0 RECOV_CFG, 8 RECOV_STAT, 0x10 RIP_STAT, 0x18 RECOV_ERR, 0x20 RECOV_INJ, 0x40 + 8k
RECOV_CNT_k, 0xC0 + 8u UNIT_SVC_u, 0x100 DUMP_CFG, 0x108 DUMP_STAT, 0x110 DUMP_SEL. -/
def rRecov (k : Nat) : Nat := 0x5000000 + k
/-- ERR_HEAD_c. -/
def rErrHead (c : Nat) : Nat := 0x5001000 + 16 * c
/-- ERR_OVF_c. -/
def rErrOvf (c : Nat) : Nat := 0x5001800 + 8 * c
/-- ERR_LOG_c_i, its first word. -/
def rErrLog (c i : Nat) : Nat := 0x5010000 + 4096 * c + 64 * i
/-- Stack register `k` of stack `h`: 0 STK_ERR, 8 STK_CE_CNT, 0x10 STK_UE_CNT, 0x18 STK_INJ. -/
def rStk (h k : Nat) : Nat := 0x5020000 + 64 * h + k
/-- DOM_COMP_d. -/
def rDomComp (d : Nat) : Nat := 0x5030000 + 8 * d
/-- TETHER_CFG_t. -/
def rTether (t : Nat) : Nat := 0x5040000 + 8 * t
/-- TETHER_STAT. -/
def rTetherStat : Nat := 0x5040080
/-- ORPHAN_j, its first word. -/
def rOrphan (j : Nat) : Nat := 0x5050000 + 16 * j
/-- Boot register `k`: 0 BOOT_STAT, 8 BOOT_ERR, 0x10 BOOT_INJ, 0x18 BOOT_CNT, 0x40 + 8i BOOT_MEAS_i, 0x80 DEV_SERIAL,
0x88 COMP_NONCE, 0x90 + 8k COMP_SEQ_k, 0xB0 OWNER_KEY_STAT, 0xB8 FW_SVN, 0x100 FRZ_HOST, 0x108 + 8j FRZ_SESS_j, 0x128
ISO_ERR, 0x130 ISO_VIOL_CNT, 0x138 ISO_INJ. -/
def rBoot (k : Nat) : Nat := 0x8000000 + k
/-- Power register `k`: 0 PWR_CTL, 8 PWR_STAT, 0x10 CLK_STAT, 0x18 BALLAST_CFG, 0x20 BALLAST_STAT, 0x28 PWR_CAP, 0x30
PWR_ERR, 0x38 PWR_INJ, 0x40 BALLAST_WAIT_CNT, 0x48 THROTTLE_CNT, 0x50 PMB_ERR_CNT, 0x100 + 8r PMB_RAIL, 0x200 + 8r
PMB_TELEM. -/
def rPwr (k : Nat) : Nat := 0x6000000 + k
/-- Performance register `k` of block `b`. -/
def rPmc (b k : Nat) : Nat := 0x7000000 + 0x200 * b + k
/-- Central performance register `k`: 0 PMU_CTL, 8 PMU_STAT, 0x10 TAG_CFG, 0x18 TAG_STAT, 0x20 TAG_ACK, 0x28 MIR_STAT,
0x30 MIR_ACK. -/
def rPmu (k : Nat) : Nat := 0x7080000 + k
/-- Medium register `k`: 0 MED_CFG, 8 MED_STAT, 0x10 MED_PARITY, 0x18 MED_WEAR, 0x20 MED_SCRUB. -/
def rMed (k : Nat) : Nat := 0x300000 + k
/-- MED_DRESV_n. -/
def rMedResv (n : Nat) : Nat := 0x300800 + 8 * n
/-- Medium channel register `k` of channel `c`: 0 MED_CH_GEOM, 8 MED_CH_STAT, 0x10 + 8i health counters, 0x80
MED_CH_ERR, 0x88 MED_CH_INJ. -/
def rMedCh (c k : Nat) : Nat := 0x301000 + 256 * c + k

/-- PWR_STAT.STATE reads RUNNING (chapter 16): the fast domains are up and the block serves commands. -/
def running (s : State) : Bool := regFld s (rPwr 8) 2 0 == 4

/-- A command of a fast domain acts only while the block is RUNNING (assumption 4). -/
def whenRunning (s : State) (f : State → State) : State := if running s then f s else s

/-! Performance counters (R705 to R716). -/

/-- Add to a counter: a wrap sets its overflow bit, and with FRZ_ON_OVF freezes every counter (R710, R716). -/
def pmcAdd (s : State) (b i n : Nat) : State :=
  let v := regFld s (rPmc b (0x80 + 8 * i)) 47 0 + n
  let s := regPut s (rPmc b (0x80 + 8 * i)) 47 0 v
  if v < 2 ^ 48 then s
  else
    let s := setBit s (rPmc b 0x180) i
    if regBit s (rPmu 0) 2 then setBit s (rPmu 8) 0 else s

/-- Does counter `i` of block `b` count an event of domain `dom` (R707)? -/
def pmcCounts (s : State) (b i : Nat) (dom : Option Nat) : Bool :=
  regBit s (rPmc b (8 * i)) 63 && (regBit s (rPmc b (8 * i)) 62 || dom == some (regFld s (rPmc b (8 * i)) 7 0))

/-- Count `n` events of domain `dom` (none: no domain) in counter `i` of block `b` (R707, R713). -/
def pmc (s : State) (b i n : Nat) (dom : Option Nat) : State :=
  if n = 0 || !pmcCounts s b i dom || regBit s (rPmu 8) 0 then s else pmcAdd s b i n

/-- An addition at the end of a run (R714, R719): while the counters are frozen it is held. -/
def pmcEnd (s : State) (b i n : Nat) (dom : Option Nat) : State :=
  if n = 0 || !pmcCounts s b i dom then s
  else if regBit s (rPmu 8) 0 then { s with pmcHeld := Sparse.set s.pmcHeld (16 * b + i) 0 (Sparse.get s.pmcHeld (16 * b + i) 0 + n) }
  else pmcAdd s b i n

/-! Messages leave by a fabric port (R488, R491). -/

/-- The fabric ports ACTIVE toward a peer, or, with kind 3, the UPLINK ports (R488, R491). -/
def portsTo (s : State) (kind c : Nat) : List Nat :=
  (List.range 16).filter (fun p => regFld s (rFab p 0) 63 62 == kind && regFld s (rFab p 8) 3 0 == 5
    && (kind == 3 || regFld s (rFab p 0) 61 52 == c))

/-- The port that a line's messages for a peer take. -/
def rankPort (ps : List Nat) (addr : Nat) : Option Nat := ps[addr / 64 % max 1 ps.length]?

/-- The port that a message for controller `c` takes: by its line toward a controller of the box (R488), by the reel's address
toward another box (R491). -/
def portOf (s : State) (c addr : Nat) : Option Nat :=
  if c / 16 = regFld s rAddrSelf 9 4 then rankPort (portsTo s 1 c) addr else rankPort (portsTo s 3 c) (addr / 65536 * 65536)

/-- A message with the port it takes: the one that it names, as an answer does (R489), or the one that R488 or R491 gives. -/
def viaPort (s : State) (o : Out) : Out :=
  match o with
  | .peer c a w d none => .peer c a w d (portOf s c a)
  | o => o

/-- Send something to the outside. -/
def send (s : State) (o : Out) : State := { s with out := s.out ++ [viaPort s o] }

end Sys2Proof.Machine
end

