-- ==== Sys2Proof/Machine/Operands.lean ====
section
/-! DEFINITION. Machine/Operands.lean: what an address names: routing by box and slot, the slice map, regions, drafts,
windows, counters and Chucks (chapter 02). -/

namespace Sys2Proof.Machine

/-- A rounding up. -/
def cdiv (a b : Nat) : Nat := (a + b - 1) / b

/-- Where an access goes (R38). -/
inductive Route where
  /-- This controller, at a slice offset. -/
  | own (off : Nat)
  /-- Another controller of the box, over Ziula Link. -/
  | peer (slot off : Nat)
  /-- Another box, through the gateway. -/
  | gateway (ctrl off : Nat)
  /-- An address fault. -/
  | fault
  deriving DecidableEq, Repr

/-- R38 and R39: the route of a global address. -/
def route (s : State) (addr : Nat) : Route :=
  let box := addr / 2 ^ 54 % 64
  let slot := addr / 2 ^ 50 % 16
  let off := addr % 2 ^ 50
  let ownBox := regFld s rAddrSelf 9 4
  let ownSlot := regFld s rAddrSelf 3 0
  if box = 63 then (if slot = 0 then .own off else .fault)
  else if ownBox = 63 then .fault
  else if box = ownBox then (if slot = ownSlot then .own off else .peer slot off)
  else .gateway (addr / 2 ^ 50 % 1024) off

/-- The controller's own number (R37). -/
def ownCtrl (s : State) : Nat := regFld s rAddrSelf 9 0

/-- The global address of a slice offset of this controller: the self alias while no box is assigned. -/
def globalAddr (s : State) (off : Nat) : Nat :=
  if regFld s rAddrSelf 9 4 = 63 then 63 * 2 ^ 54 + off else ownCtrl s * 2 ^ 50 + off

/-- What a slice offset names (R41, R43). -/
inductive Target where
  | home
  | draft (d x : Nat)
  | chuck (l x : Nat)
  | window (w x : Nat)
  | counters (k : Nat)
  | control (off : Nat)
  | hole
  deriving DecidableEq, Repr

/-- The slice map of R41; the last 2 MiB of a Chuck slot is a hole (R43). -/
def target (off : Nat) : Target :=
  if off < 2 ^ 48 then .home
  else if off < 2 ^ 49 then .draft ((off - 2 ^ 48) / 2 ^ 38) ((off - 2 ^ 48) % 2 ^ 38)
  else if off < 2 ^ 49 + 2 ^ 30 then
    (if (off - 2 ^ 49) % 2 ^ 23 < 6 * 2 ^ 20 then .chuck ((off - 2 ^ 49) / 2 ^ 23) ((off - 2 ^ 49) % 2 ^ 23) else .hole)
  else if off < 2 ^ 49 + 2 ^ 30 + 2 ^ 26 then
    .window ((off - 2 ^ 49 - 2 ^ 30) / 65536) ((off - 2 ^ 49 - 2 ^ 30) % 65536)
  else if off < 2 ^ 49 + 0x44200000 then .counters ((off - 2 ^ 49 - 0x44000000) / 8)
  else if 2 ^ 49 + 2 ^ 31 ≤ off ∧ off < 2 ^ 49 + 0x90000000 then .control (off - 2 ^ 49 - 2 ^ 31)
  else .hole

/-- The home agent of a line of the home or draft range (R42). -/
def homeOf (off : Nat) : Nat := off / 4096 % 8

/-- The slice offset of Chuck byte `x` of Lathe `l` (R43). -/
def chuckOff (l x : Nat) : Nat := 2 ^ 49 + l * 2 ^ 23 + x

/-- The slice offset of byte `x` of command window `w` (R44). -/
def winOff (w x : Nat) : Nat := 2 ^ 49 + 2 ^ 30 + w * 65536 + x

/-- The slice offset of counter `k` (R45). -/
def ctrOff (k : Nat) : Nat := 2 ^ 49 + 0x44000000 + 8 * k

/-- The slice offset of control window byte `x` (R41). -/
def ctlOff (x : Nat) : Nat := 2 ^ 49 + 2 ^ 31 + x

/-- The home agent that serves command window `w` (R44). -/
def winHome (w : Nat) : Nat := w / 16 % 8

/-- The home agent that holds counter `k` (R45). -/
def ctrHome (k : Nat) : Nat := k / 512 % 8

/-- The arrival counter of command window `w` (R358). -/
def winCtr (w : Nat) : Nat := 512 * (w / 16 % 8) + 16 * (w / 128) + w % 16

/-- Does a command window own counter `k` (R358)? -/
def isWinCtr (k : Nat) : Bool :=
  decide (k < 4096) && decide (k % 512 < 128)

/-- A field of a region table entry, by the entry's own bit numbers (chapter 02). -/
def rgFld (s : State) (r hi lo : Nat) : Nat := regFld s (rRegion r (lo / 64)) (hi % 64) (lo % 64)

/-- Set a field of a region table entry. -/
def rgPut (s : State) (r hi lo v : Nat) : State := regPut s (rRegion r (lo / 64)) (hi % 64) (lo % 64) v

def rgValid (s : State) (r : Nat) : Bool := rgFld s r 63 63 == 1
def rgVersioned (s : State) (r : Nat) : Bool := rgFld s r 62 62 == 1
def rgCoherent (s : State) (r : Nat) : Bool := rgFld s r 61 61 == 1
def rgDurable (s : State) (r : Nat) : Bool := rgFld s r 60 60 == 1
def rgPlace (s : State) (r : Nat) : Nat := rgFld s r 59 56
def rgBase (s : State) (r : Nat) : Nat := rgFld s r 55 28 * 2 ^ 21
def rgSize (s : State) (r : Nat) : Nat := rgFld s r 27 0 * 2 ^ 21
def rgDomain (s : State) (r : Nat) : Nat := rgFld s r 127 120
def rgProtect (s : State) (r : Nat) : Nat := rgFld s r 119 116
def rgPeer (s : State) (r : Nat) : Nat := rgFld s r 115 106
def rgPgroup (s : State) (r : Nat) : Nat := rgFld s r 105 102
def rgDeleting (s : State) (r : Nat) : Bool := rgFld s r 101 101 == 1
def rgRetain (s : State) (r : Nat) : Nat := rgFld s r 98 96
def rgResident (s : State) (r : Nat) : Nat := rgFld s r 91 64 * 2 ^ 21
def rgCurrent (s : State) (r : Nat) : Nat := rgFld s r 175 128
def rgChuckFirst (s : State) (r : Nat) : Nat := rgFld s r 342 336
def rgChuckCount (s : State) (r : Nat) : Nat := rgFld s r 335 328
def rgChuckOff (s : State) (r : Nat) : Nat := rgFld s r 327 320 * 65536

/-- The indices of the valid regions, rising. -/
def validRegions (s : State) : List Nat :=
  s.regs.filterMap (fun e =>
    if 0x100000 ≤ e.1 ∧ e.1 < 0x200000 ∧ e.1 % 64 = 0 ∧ e.2.toNat.testBit 63 then some ((e.1 - 0x100000) / 64) else none)

/-- The valid region that covers a home-range offset (R51). -/
def regionAt (s : State) (off : Nat) : Option Nat :=
  (validRegions s).find? (fun r => decide (rgBase s r ≤ off) && decide (off < rgBase s r + rgSize s r))

/-- DRAFT_STAT_d.STATE. -/
def drState (s : State) (d : Nat) : Nat := regFld s (rDraftStat d) 63 61
/-- DRAFT_STAT_d.REGION. -/
def drRegion (s : State) (d : Nat) : Nat := regFld s (rDraftStat d) 57 44
/-- DRAFT_STAT_d.SLOTS. -/
def drSlots (s : State) (d : Nat) : Nat := regFld s (rDraftStat d) 35 24
/-- DRAFT_BASE_d.BASE. -/
def drBase (s : State) (d : Nat) : Nat := regFld s (rDraftBase d) 47 0

/-- The drafts that are not free, rising. -/
def openDrafts (s : State) : List Nat :=
  s.regs.filterMap (fun e =>
    if 0x220000 ≤ e.1 ∧ e.1 < 0x224000 ∧ e.1 % 16 = 0 ∧ e.2.toNat / 2 ^ 61 ≠ 0 then some ((e.1 - 0x220000) / 16) else none)

/-- The draft and region offset that a draft-range offset names (R76). -/
def draftAt (s : State) (off : Nat) : Option (Nat × Nat) :=
  let y := off - 2 ^ 48
  let slot := y / 2 ^ 38
  match (openDrafts s).find? (fun d => decide (d ≤ slot) && decide (slot < d + drSlots s d)) with
  | none => none
  | some d =>
    let x := y - d * 2 ^ 38
    if x < rgSize s (drRegion s d) then some (d, x) else none

/-! Keys of memory: the plain slice is space 0; versions, shadow frames, reels, dumps, plans and the small arrays of the
standby domain have spaces of their own, 2^50 bytes apart. -/

/-- The memory key of byte `off` of space `n`. -/
def spKey (n off : Nat) : Nat := n * 2 ^ 50 + off
/-- The space of version `v` of region `r`. -/
def spVersion (r v : Nat) : Nat := 8 * (r + 16384 * v) + 1
/-- The space of the shadow frames of window `w`'s kernel (R164), by slice offset. -/
def spShadow (w : Nat) : Nat := 8 * w + 2
/-- The space of reel slot `k` of the gateway. -/
def spReel (k : Nat) : Nat := 8 * k + 3
/-- The space of dump slot `k` (R622). -/
def spDump (k : Nat) : Nat := 8 * k + 4
/-- The space of plan `p`. -/
def spPlan (p : Nat) : Nat := 8 * p + 5
/-- Small arrays: 0 and 1 the image slots of the NOR, 2 the parity fold area, 3 the composition image being received, 4
the firmware image being received, 5 the mirror pool and the parity pool of peers, 6 the medium. -/
def spMisc (n : Nat) : Nat := 8 * n + 6

/-- The memory key of a home-range or draft-range line's bytes in the stacks: a VERSIONED region's plain address reads
its current version (R88), and a draft unit without a frame reads the draft's base version (R77). -/
def backing (s : State) (off : Nat) : Option Nat :=
  if off < 2 ^ 48 then
    match regionAt s off with
    | none => none
    | some r => if rgVersioned s r then some (spKey (spVersion r (rgCurrent s r)) (off - rgBase s r)) else some off
  else if off < 2 ^ 49 then
    match draftAt s off with
    | none => none
    | some (d, x) =>
      if s.draftUnits.contains (off / 65536) then some off
      else some (spKey (spVersion (drRegion s d) (drBase s d)) x)
  else some off

/-- The region of a home-range or draft-range offset. -/
def regionOf (s : State) (off : Nat) : Option Nat :=
  if off < 2 ^ 48 then regionAt s off else (draftAt s off).map (fun p => drRegion s p.1)

/-- A CHUCK region's replica byte at Chuck byte `x` of Lathe `l` (R65): the region and its offset. -/
def replicaAt (s : State) (l x : Nat) : Option (Nat × Nat) :=
  (validRegions s).findSome? (fun r =>
    if rgPlace s r = 2 ∧ rgChuckCount s r ≠ 0 ∧ rgChuckFirst s r ≤ l ∧ l < rgChuckFirst s r + rgChuckCount s r ∧
        rgChuckOff s r ≤ x then
      let row := (x - rgChuckOff s r) / 65536
      let i := row * rgChuckCount s r + (l - rgChuckFirst s r)
      if i * 65536 < rgSize s r then some (r, i * 65536 + x % 65536) else none
    else none)

end Sys2Proof.Machine
end

