-- ==== Sys2Proof/Machine/Cells.lean ====
section
/-! DEFINITION. Machine/Cells.lean: messages and cells: header slots, the slots of messages, the division of the cell buffer, and the
messages of the controller's own agents (R488, R503 to R505, R534 to R537, R547). -/

namespace Sys2Proof.Machine

/-! Header slots (R503, R504). -/

/-- The message header fields of a slot (R503). -/
def hClass (h : Nat) : Nat := bits h 127 126
def hOpcode (h : Nat) : Nat := bits h 125 120
def hTxn (h : Nat) : Nat := bits h 119 108
def hHost (h : Nat) : Nat := bits h 107 102
def hCtrl (h : Nat) : Nat := bits h 101 92
def hHome (h : Nat) : Nat := bits h 91 89
def hAddr (h : Nat) : Nat := bits h 88 35 * 64
def hState (h : Nat) : Nat := bits h 31 29
def hPoison (h : Nat) : Bool := h.testBit 27
def hErr (h : Nat) : Nat := bits h 26 23
def hSrc (h : Nat) : Nat := bits h 22 13
def hDomain (h : Nat) : Nat := bits h 12 5
def hGw (h : Nat) : Bool := h.testBit 3

/-- The class of an opcode (R211). -/
def opClass (op : Nat) : Nat := if op < 0x10 then 0 else if op < 0x20 then 1 else if op < 0x30 then 2 else 3

/-- The header slot of a request that an agent of this controller sends (R503): a controller requester. -/
def reqHdr (s : State) (op txn ctrl addr dom : Nat) (gw : Bool) : Nat :=
  op * 2 ^ 120 + txn % 4096 * 2 ^ 108 + ctrl % 1024 * 2 ^ 92 + homeOf (addr % 2 ^ 50) * 2 ^ 89 + addr / 64 % 2 ^ 54 * 2 ^ 35
    + ownCtrl s * 2 ^ 13 + dom % 256 * 2 ^ 5 + 16 + (if gw then 8 else 0)

/-- The same of a request of a host behind this controller (R503): its number stands in HOST, and SRC_KIND is 0. -/
def hostHdr (s : State) (n op txn ctrl addr dom : Nat) : Nat := reqHdr s op txn ctrl addr dom false - 16 + n % 64 * 2 ^ 102

/-- The header slot of a response to the request of controller `src` (R503). -/
def respHdr (s : State) (op txn src addr err : Nat) (poison : Bool) (gw : Bool := true) : Nat :=
  opClass op * 2 ^ 126 + op * 2 ^ 120 + txn % 4096 * 2 ^ 108 + ownCtrl s * 2 ^ 92 + homeOf (addr % 2 ^ 50) * 2 ^ 89
    + addr / 64 % 2 ^ 54 * 2 ^ 35 + (if poison then 2 ^ 27 else 0) + err % 16 * 2 ^ 23 + src % 1024 * 2 ^ 13 + 16 + (if gw then 8 else 0)

/-- The header slot of a home's snoop or response (R210, R503), in the request's domain: ACT, RSN, STATE, POISON and ERR as the message
has them. One for a host names it; one for a requester behind another controller has that controller in SRC_CTRL. -/
def msgHdr (s : State) (m : Msg) (src dom : Nat) : Nat :=
  let (host, kind) := match m.dst with
    | .host n => (n.val, 0)
    | _ => (0, 16)
  opClass m.op * 2 ^ 126 + m.op % 64 * 2 ^ 120 + m.txn % 4096 * 2 ^ 108 + host * 2 ^ 102 + ownCtrl s * 2 ^ 92 + m.home % 8 * 2 ^ 89
    + m.addr / 64 % 2 ^ 54 * 2 ^ 35 + (if m.act then 2 ^ 34 else 0) + m.rsn % 4 * 2 ^ 32 + m.state % 8 * 2 ^ 29
    + (if m.poison then 2 ^ 27 else 0) + m.err % 16 * 2 ^ 23 + src % 1024 * 2 ^ 13 + dom % 256 * 2 ^ 5 + kind

/-- The four slots of a line. -/
def lineSlots (d : LineData) : List Nat := (List.range 4).map (fun i => d.toNat / 2 ^ (128 * i) % 2 ^ 128)

/-- The line of a message's last four slots. -/
def slotsLine (l : List Nat) : LineData := BitVec.ofNat 512 (((l.reverse.take 4).reverse).foldr (fun x n => x % 2 ^ 128 + 2 ^ 128 * n) 0)

/-- The slots of a message (R504): its header, the mask slot of a WrNC or of its WrData or the version slot of an RdNC with DST_GW, and
the line of those that carry one. -/
def msgBody (h : Nat) (masked : Bool) (mask : Nat) (d : LineData) : List Nat :=
  let op := hOpcode h
  if op = 0x05 ∨ (op = 0x32 ∧ masked = true) then h :: mask :: lineSlots d
  else if op = 0x04 ∧ hGw h = true then [h, mask]
  else if op = 0x06 ∨ op = 0x07 ∨ op = 0x30 ∨ op = 0x31 ∨ op = 0x32 then h :: lineSlots d
  else [h]

/-- The slots that the message of a header takes (R504); WrData counts as the one that answers a WrNC. -/
def msgSlots (h : Nat) : Nat :=
  let op := hOpcode h
  if op = 0x04 ∧ hGw h then 2
  else if op = 0x06 ∨ op = 0x07 ∨ op = 0x31 ∨ op = 0x30 then 5
  else if op = 0x05 ∨ op = 0x32 then 6
  else 1

/-- The messages of a flit's slots; `size` gives the slots of each. -/
def messages (size : Nat → Nat) (fuel : Nat) (slots : List Nat) : List (List Nat) :=
  match fuel, slots with
  | 0, _ => []
  | _, [] => []
  | k + 1, h :: rest => (h :: rest.take (size h - 1)) :: messages size k (rest.drop (size h - 1))

/-- The header of a multicast message with its target's controller number in ADDR and HOME (R543). -/
def targetHdr (h t : Nat) : Nat := h + t % 1024 * 2 ^ 79 + t % 1024 * 2 ^ 92

/-- The messages of a cell's copy for target `t`. -/
def targetMsgs (c : Cell) (t : Nat) : List (List Nat) :=
  (messages msgSlots 15 c.slots).map (fun m => match c.grp, m with
    | some _, h :: tl => targetHdr h t :: tl
    | _, m => m)

/-- The opcode of a request on the wire (R211). -/
def ReqOp.code (op : ReqOp) : Nat := op.ctorIdx + 1

/-! Switch ports (R18, R488). -/

/-- The switch port of the agent that a slice offset selects (R18, R42 to R45). -/
def agentPort (off : Nat) : Nat :=
  match target off with
  | .home => 18 + homeOf off
  | .draft _ _ => 18 + homeOf off
  | .chuck l _ => 26 + l / 16
  | .window w _ => 18 + winHome w
  | .counters k => 18 + ctrHome k
  | _ => 41

/-- The switch port of a Lathe's row gate, and of the cluster of a walker or a gouge (R18, R415, R452). -/
def lathePort (l : Nat) : Nat := 26 + l / 16
def walkerPort (w : Nat) : Nat := 34 + w / 8
def gougePort (g : Nat) : Nat := 34 + g / 4

/-- The number that stands for the stream links and the mesh, which no switch port carries (R260, R262). -/
def noPort : Nat := 42

/-! Reservation classes and the cell buffer (R536, R537, R547). -/

/-- A configuration register as the epoch uses it (R552). -/
def liveReg (s : State) (off : Nat) : Word := Sparse.get s.swLive off (regReset off)
def rBudget (o c : Nat) : Nat := 0x2110000 + 8 * (16 * o + c)
def rcMode (s : State) : Bool := (liveReg s (rSw 0)).toNat.testBit 8
/-- The reservation classes that have a budget at output `o`, as the epoch uses them. -/
def rcClasses (s : State) (o : Nat) : List Nat := (List.range 16).filter (fun c => bits (liveReg s (rBudget o c)).toNat 16 0 != 0)

/-- The reservation class of a domain. -/
def rclass (s : State) (d : Nat) : Nat := if rcMode s then bits (liveReg s (0x2120000 + 8 * d)).toNat 3 0 else 0

/-- Shared cells in use, and those that an output and class hold. -/
def sharedUsed (s : State) : Nat := (s.cells.filter (fun c => !c.mirror && !c.resv)).length
def sharedOf (s : State) (o cls : Nat) : Nat :=
  (s.cells.filter (fun c => !c.mirror && !c.resv && c.cls == cls && c.outs.any (fun t => t.1 == o))).length

/-- The shared cells that a reservation class holds at an output, and those of the classes' reserves that stand unused (R547). -/
def heldRc (s : State) (o c : Nat) : Nat := s.cells.countP (fun x => !x.mirror && !x.resv && x.rc == c && x.outs.any (fun t => t.1 == o))
def reserveOf (s : State) (o c : Nat) : Nat := bits (liveReg s (rBudget o c)).toNat 47 32
def reserveLeft (s : State) : Nat :=
  if !rcMode s then 0
  else s.swLive.foldl (fun m e =>
    let k := (e.1 - 0x2110000) / 8
    if 0x2110000 ≤ e.1 ∧ e.1 < 0x2120000 then m + (bits e.2.toNat 47 32 - heldRc s (k / 16) (k % 16)) else m) 0

/-- Find a place for an arriving cell: shared, else its input and class reserve, else none (R537). In reserved-credit mode a class
below its reserve at the output has a shared cell when one is free, and what the reserves keep is not free for others (R547). -/
def placeCell (s : State) (c : Cell) : Option Cell :=
  let free := 193664 - sharedUsed s - reserveLeft s
  let o := (c.outs.head?.map (fun t => t.1)).getD 0
  if (rcMode s ∧ heldRc s o c.rc < reserveOf s o c.rc ∧ sharedUsed s < 193664)
      ∨ sharedOf s o c.cls * 4 < regFld s (rSw 0) 3 0 * free then some { c with resv := false }
  else if (s.cells.filter (fun x => x.resv && x.inp == c.inp && x.cls == c.cls)).length < 16 then some { c with resv := true }
  else none

/-! Messages of the controller's own agents (R505, R534 to R537). -/

/-- Put a message of the agent at input `p` before the switch core, for its outputs. -/
def agentCell (s : State) (p : Nat) (outs : List (Nat × Nat)) (dom : Nat) (slots : List Nat) (grp : Option Nat := none) : State :=
  match slots, outs with
  | h :: _, _ :: _ => { s with agentq := s.agentq ++ [{ inp := p, outs := outs, cls := hClass h, rc := rclass s dom, dom := dom, slots := slots, ready := false, grp := grp }] }
  | _, _ => s

/-- The same of a message for one output; a port of 42 or more stands for the stream links and the mesh, which the switch core does not
see (R262). -/
def fromAgent (s : State) (p : Nat) (o : Option Nat) (dom : Nat) (slots : List Nat) : State :=
  match o with
  | some o => if 42 ≤ p then s else agentCell s p [(o, 0)] dom slots
  | none => s

/-- Does the switch core hold the agent at input `p`: one of its messages finds no place in the cell buffer (R537), or it has 4,096
requests without an answer? -/
def agentHeld (s : State) (p : Nat) : Bool :=
  s.agentq.any (fun c => c.inp == p && (placeCell s c).isNone) || decide (4096 ≤ (s.agentReqs.filter (fun r => r.port == p)).length)

/-- Open a request of the agent at port `p`: its TXN there is the next that none in flight has, those of the gateway's reels among
them (R505). -/
def openReq (s : State) (r : AgentReq) : Nat × State :=
  let busy := fun (t : Nat) => s.agentReqs.any (fun x => x.port == r.port && x.txn == t) ||
    (r.port == 40 && s.reels.any (fun e => (e.2.st == .fetching || e.2.st == .writing) && e.2.txn == t))
  let t := (((List.range 4096).map (fun i => (s.agentTxn + 1 + i) % 4096)).find? (fun t => !busy t)).getD ((s.agentTxn + 1) % 4096)
  (t, { s with agentTxn := t, agentReqs := s.agentReqs ++ [{ r with txn := t }] })

/-- A transfer of a line between the agent at port `p` and the one at port `o` crosses the switch core (R297): its request and its
response. What lies behind one port, and what the mesh carries between two row gates, does not (R260). -/
def crossCore (s : State) (p o dom addr : Nat) (write : Bool) (d : LineData) : State :=
  let gate := fun (x : Nat) => decide (26 ≤ x) && decide (x < 34)
  if 42 ≤ p ∨ 42 ≤ o ∨ p = o ∨ (gate p && gate o) = true then s
  else
    let op := if write then 6 else 4
    let r := if write then 0x26 else 0x31
    fromAgent (fromAgent s p (some o) dom (msgBody (reqHdr s op 0 (ownCtrl s) addr dom false) false 0 d))
      o (some p) dom (msgBody (respHdr s r 0 (ownCtrl s) addr 0 false false) false 0 d)

/-- An agent sends a request to controller `c`: the record of it, and its message before the switch core. One for another box goes to the
gateway, which sends it on from port 40 with DST_GW (R491, R530). -/
def sendReq (s : State) (p op c addr dom : Nat) (who : ReqWho) (words : List Nat) (mask : Nat) (d : LineData) : State :=
  let gw := decide (c / 16 ≠ regFld s rAddrSelf 9 4)
  let s := if gw then crossCore s p 40 dom addr (op != 4) d else s
  let q := if gw then 40 else p
  let (t, s) := openReq s { port := q, txn := 0, addr := addr / 64, op := op, who := who, mask := mask, data := d }
  fromAgent (send s (.peer c addr words d)) q (portOf s c addr) dom (msgBody (reqHdr s op t c addr dom gw) false mask d)

/-- The response of the agent at port `p` to controller `c`, on port `via` (R489): one for a port that is down is discarded and counted
(R517). -/
def sendResp (s : State) (p via c addr op txn err dom : Nat) (gw poison : Bool) (words : List Nat) (d : LineData) : State :=
  if via < 16 ∧ regFld s (rFab via 8) 3 0 ≠ 5 ∧ regFld s (rFab via 8) 3 0 ≠ 6 then incCnt (incCnt s (rSw 0x30)) (rFab via 0x38)
  else fromAgent (send s (.peer c addr words d (some via))) p (some via) dom (msgBody (respHdr s op txn c addr err poison gw) false 0 d)

end Sys2Proof.Machine
end

