-- ==== Sys2Proof/Machine/Frames.lean ====
section
/-! DEFINITION. Machine/Frames.lean: which frames of stacked memory a region takes: its own, those of its versions and drafts, its
map frames, and the parity pool they come from (R57, R78, R101 to R103, R116 to R118, R131). -/

namespace Sys2Proof.Machine

/-! Versions (R83, R116, R131). -/

/-- Does unit `u` of region `r` live in stacked memory (R55)? -/
def inStack (s : State) (r u : Nat) : Bool :=
  rgPlace s r == 0 || rgPlace s r == 2 || (rgPlace s r == 1 && decide (u < rgResident s r / 65536))

/-- Frames of stacked memory that a region's own bytes take (R57). -/
def stackUnits (s : State) (r : Nat) : Nat :=
  if rgPlace s r = 0 ∨ rgPlace s r = 2 then rgSize s r / 65536
  else if rgPlace s r = 1 then rgResident s r / 65536
  else 0

/-- Map frames of one version map of a DURABLE region (R117). -/
def mapFrames (s : State) (r : Nat) : Nat := if rgDurable s r then (rgSize s r + 2 ^ 29 - 1) / 2 ^ 29 else 0

/-- The recorded versions of a region, rising. -/
def versionsOf (s : State) (r : Nat) : List Nat := (s.versions.filter (fun p => p.1 == r)).map (fun p => p.2)

/-- Does version `c` with `lo < c ≤ hi` change unit `u` of region `r`? -/
def changedIn (s : State) (r u lo hi : Nat) : Bool :=
  s.verUnits.any (fun e => e.1 == r && e.2.2 == u && decide (lo < e.2.1) && decide (e.2.1 ≤ hi))

/-- Does the recorded version `v` of region `r` differ, by the test `changed`, from both the next newer and the next older one? -/
def ownTo (s : State) (r v : Nat) (changed : Nat → Nat → Bool) : Bool :=
  let vs := versionsOf s r
  (match vs.filter (fun x => decide (v < x)) with
   | [] => true
   | n :: _ => changed v n) &&
  (match (vs.filter (fun x => decide (x < v))).reverse with
   | [] => true
   | o :: _ => changed o v)

/-- The units of version `v` that neither the next older nor the next newer held version shares (R131). -/
def ownUnits (s : State) (r v : Nat) : List Nat :=
  ((s.verUnits.filter (fun e => e.1 == r)).map (fun e => e.2.2)).dedup.filter (fun u =>
    ownTo s r v (fun lo hi => changedIn s r u lo hi))

/-- The map frames of version `v` that its neighbours do not share (R118). -/
def ownMaps (s : State) (r v : Nat) : List Nat :=
  if !rgDurable s r then [] else
  ((s.verUnits.filter (fun e => e.1 == r)).map (fun e => e.2.2 / 8192)).dedup.filter (fun m =>
    ownTo s r v (fun lo hi => s.verUnits.any (fun e => e.1 == r && e.2.2 / 8192 == m && decide (lo < e.2.1) && decide (e.2.1 ≤ hi))))

/-- The units of version `v` that the next newer held version does not share: of the versions that share a frame, the newest one counts
it (R756). -/
def lastTo (s : State) (r v : Nat) (changed : Nat → Nat → Bool) : Bool :=
  match (versionsOf s r).filter (fun x => decide (v < x)) with
  | [] => true
  | n :: _ => changed v n

/-- The units of version `v` whose frames no newer held version shares. -/
def lastUnits (s : State) (r v : Nat) : List Nat :=
  ((s.verUnits.filter (fun e => e.1 == r)).map (fun e => e.2.2)).dedup.filter (fun u => lastTo s r v (fun lo hi => changedIn s r u lo hi))

/-- The map frames of version `v` that no newer held version shares (R118). -/
def lastMaps (s : State) (r v : Nat) : List Nat :=
  if !rgDurable s r then [] else
  ((s.verUnits.filter (fun e => e.1 == r)).map (fun e => e.2.2 / 8192)).dedup.filter (fun m =>
    lastTo s r v (fun lo hi => s.verUnits.any (fun e => e.1 == r && e.2.2 / 8192 == m && decide (lo < e.2.1) && decide (e.2.1 ≤ hi))))

/-- The region of a unit name in a version's space, none for a unit of the plain slice. -/
def unitRegion (u : Nat) : Option Nat :=
  let sp := u * 65536 / 2 ^ 50
  if sp % 8 = 1 then some (sp / 8 % 16384) else none

/-- The region whose frame has a name: a unit of a version, of the plain slice or of a draft. -/
def regionOfKey (s : State) (u : Nat) : Option Nat :=
  match unitRegion u with
  | some r => some r
  | none => regionOf s (u * 65536)

/-! Drafts (R78, R118). -/

/-- The 64 KiB units of draft `d` that have a frame, by slice offset over 65,536. -/
def draftOwn (s : State) (d : Nat) : List Nat :=
  let lo := (2 ^ 48 + d * 2 ^ 38) / 65536
  s.draftUnits.filter (fun u => decide (lo ≤ u) && decide (u < lo + drSlots s d * 2 ^ 22))

/-- The private map frames of draft `d`. -/
def draftOwnMaps (s : State) (d : Nat) : List Nat :=
  let lo := (2 ^ 48 + d * 2 ^ 38) / 2 ^ 29
  s.draftMaps.filter (fun m => decide (lo ≤ m) && decide (m < lo + drSlots s d * 512))

/-! What a region takes in all. -/

/-- The frames of region `r` beyond those of its current version and its map: its older versions', its drafts' and the shadow
frames of its units (R131, R78, R118, R165). A frame that several older versions share counts once. -/
def regionExtra (s : State) (r : Nat) : Nat :=
  let older := (versionsOf s r).filter (fun v => v != rgCurrent s r)
  let drafts := (openDrafts s).filter (fun d => drRegion s d == r)
  (older.map (fun v => ((lastUnits s r v).filter (fun u => inStack s r u)).length + (lastMaps s r v).length)).sum
    + (drafts.map (fun d => (draftOwn s d).length + (draftOwnMaps s d).length)).sum
    + (s.shadows.filter (fun x => regionOf s (x.unit * 65536) == some r)).length

/-- Every frame of region `r`. -/
def regionTotal (s : State) (r : Nat) : Nat := stackUnits s r + mapFrames s r + regionExtra s r

/-! Parity groups (R101 to R103). -/

/-- The member controllers' slots of a parity group, rising (R101). -/
def pgMembers (s : State) (g : Nat) : List Nat :=
  (List.range 16).filter (fun i => (regFld s (rPgrp g) 15 0).testBit i)

/-- This controller's rank in group `g` (R101). -/
def pgRank (s : State) (g : Nat) : Nat := ((pgMembers s g).findIdx? (fun i => i == regFld s rAddrSelf 3 0)).getD 0

/-- Is unit `u` of this controller's pool for group `g` its parity unit (R102)? -/
def poolParity (s : State) (g u : Nat) : Bool := u % (pgMembers s g).length == pgRank s g

/-- The units of this controller's pool for group `g` (R102). -/
def poolUnits (s : State) (g : Nat) : Nat := regFld s (rPgrp g) 63 48 * 16384

/-- The data units of this controller's pool for group `g` (R102). -/
def poolData (s : State) (g : Nat) : Nat :=
  let n := poolUnits s g
  let w := (pgMembers s g).length
  n - (n + w - 1 - pgRank s g) / w

/-- The parity group that region `r` takes its frames from (R103). -/
def poolOf (s : State) (r : Nat) : Option Nat := if rgProtect s r = 2 then some (rgPgroup s r) else none

/-- The pool units that the regions of group `g` take, those that a region which moves to another cover still has there until its new
one is complete (R756), and the open stripes of the medium parity group (R151). -/
def poolUsed (s : State) (g : Nat) : Nat :=
  (((validRegions s).filter (fun r => poolOf s r == some g)).map (regionTotal s)).sum
    + (s.poolMap.filter (fun e => e.1 % 16 == g && (match regionOfKey s (e.1 / 16) with
        | some r => poolOf s r != some g
        | none => false))).length
    + (if regFld s (rMed 0x10) 3 0 = g then (s.stripes.filter (fun x => decide (x.frame < poolUnits s g))).length else 0)

/-- The pool unit of the frame named `key` (its memory key over 65,536) in group `g`: the one it was given, else the lowest data
unit of the pool that no frame has, if any. The manual does not say which one a frame takes (assumption 16). -/
def poolUnit (s : State) (g key : Nat) : Option Nat :=
  match s.poolMap.find? (fun e => e.1 == 16 * key + g) with
  | some e => some e.2
  | none =>
    (List.range (min (2 * s.poolMap.length + 3) (poolUnits s g))).find? (fun u =>
      !poolParity s g u && !s.poolMap.any (fun e => e.1 % 16 == g && e.2 == u))

end Sys2Proof.Machine
end

