-- ==== Sys2Proof/Machine/Ops.lean ====
section
/-! DEFINITION. Machine/Ops.lean: the named operations over memory, logs, grants, frames and counters. -/

namespace Sys2Proof.Machine

/-! Memory: a list of address and byte pairs in canonical form. A byte that nothing has written reads as zero
(assumption 1). -/

/-- The byte at key `a`. -/
def Mem.read (m : List Host.Cell) (a : Nat) : Byte := Sparse.get m a 0

/-- Write the byte at key `a`. -/
def Mem.write (m : List Host.Cell) (a : Nat) (b : Byte) : List Host.Cell := Sparse.set m a 0 b

/-- The canonical form: keys strictly rising, no zero byte listed. -/
abbrev Memory.wf (m : List Host.Cell) : Prop := m.Pairwise (fun a b => a.1 < b.1) ∧ ∀ c ∈ m, c.2 ≠ 0

/-- `n` bytes from key `a`, as a little-endian number. -/
def Mem.readN (m : List Host.Cell) (a n : Nat) : Nat :=
  match n with
  | 0 => 0
  | k + 1 => (Mem.read m a).toNat + 256 * Mem.readN m (a + 1) k

/-- Write `n` bytes of a number from key `a`, least significant first. -/
def Mem.writeN (m : List Host.Cell) (a n v : Nat) : List Host.Cell :=
  match n with
  | 0 => m
  | k + 1 => Mem.writeN (Mem.write m a (BitVec.ofNat 8 v)) (a + 1) k (v / 256)

/-- The line at key `a`. -/
def Mem.line (m : List Host.Cell) (a : Nat) : LineData := BitVec.ofNat 512 (Mem.readN m a 64)

/-- Write a line at key `a`. -/
def Mem.putLine (m : List Host.Cell) (a : Nat) (d : LineData) : List Host.Cell := Mem.writeN m a 64 d.toNat

/-- A line with the bytes that a mask covers replaced. -/
def mergeLine (old new : LineData) (mask : BitVec 64) : LineData :=
  BitVec.ofNat 512 ((List.range 64).foldl (fun acc i =>
    acc + ((if mask.toNat.testBit i then new else old).toNat / 2 ^ (8 * i) % 256) * 2 ^ (8 * i)) 0)

/-- Copy `len` bytes from key `src` to key `dst`. -/
def Mem.copy (m : List Host.Cell) (src dst len : Nat) : List Host.Cell :=
  let kept := m.filter (fun c => !(decide (dst ≤ c.1) && decide (c.1 < dst + len)))
  let moved := m.filter (fun c => decide (src ≤ c.1) && decide (c.1 < src + len))
  moved.foldl (fun acc c => Mem.write acc (c.1 - src + dst) c.2) kept

/-- Zero `len` bytes from key `a`. -/
def Mem.zero (m : List Host.Cell) (a len : Nat) : List Host.Cell :=
  m.filter (fun c => !(decide (a ≤ c.1) && decide (c.1 < a + len)))

/-- 64-bit word `i` of a line. -/
def lineWord (d : LineData) (i : Nat) : Word := BitVec.ofNat 64 (d.toNat / 2 ^ (64 * i))

/-- A line from its eight words. -/
def lineOfWords (ws : List Word) : LineData :=
  BitVec.ofNat 512 (ws.foldr (fun w acc => w.toNat + 2 ^ 64 * acc) 0)

/-- Bytes `a` to `a + n - 1` of a line as a number. -/
def lineFld (d : LineData) (a n : Nat) : Nat := d.toNat / 2 ^ (8 * a) % 2 ^ (8 * n)

def State.readLine (s : State) (a : Nat) : LineData := Mem.line s.mem a
def State.putLine (s : State) (a : Nat) (d : LineData) : State := { s with mem := Mem.putLine s.mem a d }
def State.readN (s : State) (a n : Nat) : Nat := Mem.readN s.mem a n
def State.writeN (s : State) (a n v : Nat) : State := { s with mem := Mem.writeN s.mem a n v }

/-- Write the bytes of a list of lines from key `a`. -/
def putLines (s : State) (a : Nat) (ds : List LineData) : State :=
  match ds with
  | [] => s
  | d :: rest => putLines (s.putLine a d) (a + 64) rest

/-! Poison (R202), by memory key over 64. -/

def poisoned (s : State) (key : Nat) : Bool := s.poison.contains (key / 64)
def setPoison (s : State) (key : Nat) : State := { s with poison := Sparse.add s.poison (key / 64) }
def clrPoison (s : State) (key : Nat) : State := { s with poison := Sparse.rem s.poison (key / 64) }
/-- Clear the poison of a range. -/
def clrPoisonRange (s : State) (key len : Nat) : State :=
  { s with poison := s.poison.filter (fun l => !(decide (key / 64 ≤ l) && decide (l < (key + len) / 64))) }
/-- Copy the poison of a range with its bytes. -/
def copyPoison (s : State) (src dst len : Nat) : State :=
  (s.poison.filter (fun l => decide (src / 64 ≤ l) && decide (l < (src + len) / 64))).foldl
    (fun t l => setPoison t ((l - src / 64) * 64 + dst)) (clrPoisonRange s dst len)

/-- Copy bytes and poison of a range of memory. -/
def copyMem (s : State) (src dst len : Nat) : State :=
  copyPoison { s with mem := Mem.copy s.mem src dst len } src dst len

/-- Zero a range of memory and clear its poison. -/
def zeroMem (s : State) (a len : Nat) : State :=
  clrPoisonRange { s with mem := Mem.zero s.mem a len } a len

/-! The error log. -/

/-- The IPv6 link-local address of management port `p` (R574), derived from its MAC address as a modified EUI-64 (assumption 194). -/
def mgmtLinkLocal (p : Nat) : Nat :=
  let m := (Config.macAddr (2 + p)).toNat
  0xFE80 * 2 ^ 112 + (m / 2 ^ 24 ^^^ 0x20000) * 2 ^ 40 + 0xFFFE * 2 ^ 24 + m % 2 ^ 24

/-- The addresses of management port `p`: its global one, once the manager has set it, and its link-local one. -/
def mgmtOwn (s : State) (p dst : Nat) : Bool := (Sparse.get s.mgmtAddr p 0 == dst && dst != 0) || mgmtLinkLocal p == dst

/-- The SACK bits of a management message (R563, R574): bit i for message ACK + 1 + i, held beyond a gap. -/
def mgmtSack (s : State) : Nat :=
  (List.range 64).foldl (fun m i => if s.mgmtHeld.any (fun e => e.1 == (s.mgmtNext + 1 + i) % 2 ^ 32) then m + 2 ^ i else m) 0

/-- What leads a management message on port `p` (R558, R563, R574): the tag, addresses and UDP port that it goes to and comes from, and SEQ,
ACK and SACK of its header. -/
def mgmtWords (s : State) (p seq : Nat) : List Nat :=
  let g := Sparse.get s.mgmtAddr p 0
  [s.mgmtFar.2, s.mgmtFar.1, if g = 0 then mgmtLinkLocal p else g, seq, s.mgmtNext, mgmtSack s]

/-- Emit a management message. -/
def mgmtEmit (s : State) (m : MgmtOut) : State := send s (.mgmt m.port m.kind (mgmtWords s m.port m.msg ++ m.payload.map BitVec.toNat))

/-- Send a management message on the port that last received a valid block, and keep it until it is acknowledged (R577); beyond 16
unacknowledged it waits (R574). -/
def mgmtSend (s : State) (kind : Nat) (payload : List Word) (cls : Option Nat := none) : State :=
  let n := (s.mgmtMsg + 1) % 2 ^ 32
  let m : MgmtOut := { msg := n, kind := kind, payload := payload, port := s.mgmtPort, cls := cls }
  let t := { s with mgmtMsg := n, mgmtOut := s.mgmtOut ++ [m] }
  if s.mgmtOut.length < 16 then mgmtEmit t m else t

/-- What an error log entry says (the table under R586). -/
structure LogArgs where
  cls : Nat
  code : Nat
  kind : Nat := 0
  unit : Nat := 0
  dom : Nat := 0
  action : Nat := 0
  esc : Nat := 0
  addr : Nat := 0
  d0 : Nat := 0
  d1 : Nat := 0
  win : Nat := 0xFFFFFFFF
  cseq : Nat := 0
  deriving DecidableEq, Repr

/-- Log an error (R583 to R586): the entry takes the next SEQ and the next place of its class's 64, and goes out as a
FAULT message; a full class counts it in ERR_OVF_c instead. -/
def logErr (s : State) (a : LogArgs) : State :=
  let held := regFld s (rErrHead a.cls) 63 56
  if 64 ≤ held then incCnt s (rErrOvf a.cls)
  else
    let (n, s) := drawFree s
    let q := s.seq.toNat + 1
    let old := regFld s (rErrHead a.cls) 55 48
    let i := (old + held) % 64
    let w0 := BitVec.ofNat 64 (q % 2 ^ 48 + a.cls * 2 ^ 48 + a.code % 256 * 2 ^ 56)
    let w1 := BitVec.ofNat 64 ((a.kind * 4096 + a.unit % 4096) % 65536 + a.dom % 256 * 2 ^ 16 + a.action * 2 ^ 24 + a.esc * 2 ^ 32)
    let ws := [w0, w1, BitVec.ofNat 64 a.addr, (Config.freeTime n).zeroExtend 64, BitVec.ofNat 64 a.d0,
      BitVec.ofNat 64 a.d1, BitVec.ofNat 64 (a.win % 2 ^ 32 + a.cseq % 2 ^ 32 * 2 ^ 32), 0]
    let s := regSetList { s with seq := BitVec.ofNat 48 q } (rErrLog a.cls i) ws
    let s := regPut s (rErrHead a.cls) 63 56 (held + 1)
    let s := if held = 0 then regPut s (rErrHead a.cls) 47 0 q else s
    mgmtSend s 20 ws (some a.cls)

/-- Free the oldest entry of a class (R586). -/
def errAckOne (s : State) (c : Nat) : State :=
  let held := regFld s (rErrHead c) 63 56
  if held = 0 then s
  else
    let i := (regFld s (rErrHead c) 55 48 + 1) % 64
    let s := regPut s (rErrHead c) 63 56 (held - 1)
    let s := regPut s (rErrHead c) 55 48 i
    regPut s (rErrHead c) 47 0 (if held = 1 then 0 else regFld s (rErrLog c i) 47 0)

/-- Free the `n` oldest entries of a class. -/
def errAck (s : State) (c n : Nat) : State :=
  match n with
  | 0 => s
  | k + 1 => errAck (errAckOne s c) c k

/-- A control-window access error (R13). -/
def cwAccessErr (s : State) (off dom : Nat) : State :=
  logErr (incCnt (setBit s (rRecov 0x18) 0) (rRecov 0x40)) { cls := 0, code := 0, dom := dom, action := 1, addr := globalAddr s (ctlOff off) }

/-- An address fault (R40), recorded in the address class. -/
def addrFault (s : State) (addr dom : Nat) : State :=
  logErr s { cls := 0, code := 1, dom := dom, action := 1, addr := addr }

/-! Domains and grants (R644 to R657). -/

/-- The domain that a kernel's window carries is looked up by the kernel operations; every other master has it here. -/
def masterDom (s : State) (m : Master) : Nat :=
  match m with
  | .host n => regFld s (rCohHost n.val) 23 16
  | .peer _ d => d.toNat
  | .session n => regFld s (rSess n.val) 62 55
  | .mgmt => 0
  | .kernel w => ((Sparse.get s.wins w.val ⟨[], none, [], false, 0⟩).dom0).getD 0
  | .control => 0

/-- The grant entries of a domain (R647). -/
def grants (s : State) (d : Nat) : List Nat :=
  (List.range 30).map (fun j => (reg s (rDomain d (2 + j))).toNat)

/-- DOM_CTL_d.VALID. -/
def domValid (s : State) (d : Nat) : Bool := regBit s (rDomain d 0) 63

/-- Does domain `d` hold a grant with the right (bit 59 R, 58 W, 57 X) that meets `p`? -/
def holds (s : State) (d right : Nat) (p : Nat → Bool) : Bool :=
  domValid s d && (grants s d).any (fun g => g.testBit right && p g)

/-- The bit of a grant entry for reading and for writing. -/
def rightBit (wr : Bool) : Nat := if wr then 58 else 59

/-- R649: a region's lines. -/
def permitRegion (s : State) (d r : Nat) (wr : Bool) : Bool :=
  domValid s d && (rgDomain s r == d || holds s d (rightBit wr) (fun g =>
    (g / 2 ^ 60 == 2 && bits g 13 0 == r) || (g / 2 ^ 60 == 1 && bits g 7 0 == rgDomain s r)))

/-- R649: command windows. -/
def permitWindow (s : State) (d w : Nat) (wr : Bool) : Bool :=
  holds s d (rightBit wr) (fun g => g / 2 ^ 60 == 4 && decide (bits g 25 16 ≤ w) && decide (w < bits g 25 16 + bits g 10 0))

/-- R649: arrival counters. -/
def permitCounter (s : State) (d k : Nat) (wr : Bool) : Bool :=
  holds s d (rightBit wr) (fun g => g / 2 ^ 60 == 3 && decide (bits g 53 36 ≤ k) && decide (k < bits g 53 36 + bits g 17 0))

/-- R649: loaded plans. -/
def permitPlan (s : State) (d p : Nat) : Bool :=
  domValid s d && (regFld s (rPlanStat p) 62 55 == d ||
    holds s d 57 (fun g => g / 2 ^ 60 == 1 && bits g 7 0 == regFld s (rPlanStat p) 62 55))

/-- R649: the Chuck of a Lathe, by any master other than the kernel on it. -/
def permitChuck (s : State) (d l : Nat) (wr : Bool) : Bool :=
  holds s d (rightBit wr) (fun g => g / 2 ^ 60 == 5 && decide (bits g 14 8 ≤ l) && decide (l < bits g 14 8 + bits g 7 0))
    && regFld s (rLathe l 0) 47 40 == d

/-- The block of the control window map (R47) that holds an offset, in table order. -/
def ctlBlock (off : Nat) : Option Nat :=
  [(0, 0x1000), (0x1000, 0x1000), (0x100000, 0x100000), (0x200000, 0x10000), (0x210000, 0x4000), (0x220000, 0x4000),
   (0x230000, 0x80), (0x300000, 0x100000), (0x400000, 0x400000), (0x800000, 0x800000), (0x1000000, 0x100000),
   (0x1100000, 0x100000), (0x1200000, 0x100000), (0x2000000, 0x1000000), (0x3000000, 0x100000), (0x4000000, 0x1000000),
   (0x5000000, 0x1000000), (0x6000000, 0x100000), (0x7000000, 0x1000000), (0x8000000, 0x100000)].findIdx?
    (fun b => decide (b.1 ≤ off) && decide (off < b.1 + b.2))

/-- R649: blocks of the local control window. -/
def permitControl (s : State) (d off : Nat) (wr : Bool) : Bool :=
  holds s d (rightBit wr) (fun g => g / 2 ^ 60 == 6 && match ctlBlock off with
    | some b => g.testBit b
    | none => true)

/-- Is the master frozen (R653)? -/
def frozen (s : State) (m : Master) : Bool :=
  match m with
  | .host n => regBit s (rBoot 0x100) n.val
  | .session n => regBit s (rBoot (0x108 + 8 * (n.val / 64))) (n.val % 64)
  | _ => false

/-- Freeze a host or session (R573, R653). -/
def freeze (s : State) (m : Master) : State :=
  match m with
  | .host n => setBit s (rBoot 0x100) n.val
  | .session n =>
    let s := setBit s (rBoot (0x108 + 8 * (n.val / 64))) (n.val % 64)
    if regFld s (rSstat n.val) 63 61 = 1 then regPut s (rSstat n.val) 63 61 3 else s
  | _ => s

/-- The ISO_ERR bit of a kind of master. -/
def isoBit (m : Master) : Option Nat :=
  match m with
  | .host _ => some 0
  | .session _ => some 1
  | .kernel _ => some 2
  | .peer _ _ => some 3
  | _ => none

/-! Frames and quotas (R93 to R97). -/

/-- The outcome of an allocation (R63, R94). -/
inductive Alloc where
  | ok (s : State)
  | quota
  | capacity

/-- A domain's exact medium use and reservation, in 64 KiB units (R93). -/
def medTotal (s : State) (d : Nat) : Nat := Sparse.get s.medUse d 0 + Sparse.get s.medResv d 0

/-- Clear an over-quota bit whose use fell below its limit (R96); the medium's use is the exact sum (R93). -/
def quotaClear (s : State) (d : Nat) : State :=
  let s := if regFld s (rQuota d 1) 23 0 < regFld s (rQuota d 0) 23 0 then clrBit s (rQuota d 6) 0 else s
  let s := if medTotal s d < regFld s (rQuota d 2) 23 0 * 16384 then clrBit s (rQuota d 6) 1 else s
  if regFld s (rQuota d 5) 10 0 < regFld s (rQuota d 4) 10 0 then clrBit s (rQuota d 6) 2 else s

/-- Charge `n` frames to domain `d`. -/
def chargeFrames (s : State) (d n : Nat) : State := regAdd s (rQuota d 1) 23 0 n

/-- End the charge of `n` frames. -/
def unchargeFrames (s : State) (d n : Nat) : State := quotaClear (regSub s (rQuota d 1) 23 0 n) d

/-- Release `n` frames of domain `d`: they wait to be zeroed (R651). -/
def releaseFrames (s : State) (d n : Nat) : State :=
  let s := unchargeFrames s d n
  { s with dirtyFrames := s.dirtyFrames + n }

/-- Does a limit refuse `n` more frames to domain `d` (R94)? -/
def overStack (s : State) (d n : Nat) : Bool := decide (regFld s (rQuota d 0) 23 0 < regFld s (rQuota d 1) 23 0 + n)

/-- Mark a cached unit as used by clock replacement (R62). -/
def cacheTouch (s : State) (u : Nat) : State :=
  { s with tierCache := s.tierCache.map (fun e => if e.key == u then { e with ref := true } else e) }

/-- The next entry of the tier cache in clock order (R62): the first from the hand whose reference bit is clear and that no
spool descriptor of a running kernel has named; the entries passed over lose the bit and go behind the hand. `last` lets a named
unit go too. A unit that an engine access which has not ended waited on stays held for it without a frame, so that an access to more
units than the cache has frames ends (R33). The eviction carries no domain and is counted at home 0 (R705, assumption 5). -/
def clockCache (last : Bool) (s : State) : Option State :=
  let s := pmc s 176 5 1 none
  let held := fun (e : CacheEnt) => !last && s.nameds.any (fun p => p.2 == e.key)
  let free := fun (e : CacheEnt) => !e.ref && !held e
  let keep := fun (k : Nat) => match s.tierCache[k]? with
    | some e => if s.streamWait.any (fun w => w.1 == e.key) then Sparse.add s.streamUnits e.key else s.streamUnits
    | none => s.streamUnits
  match s.tierCache.findIdx? free with
  | some k => some { s with
      streamUnits := keep k
      tierCache := s.tierCache.drop (k + 1) ++ (s.tierCache.take k).map (fun x => { x with ref := false }) }
  | none =>
    match s.tierCache.findIdx? (fun e => !held e) with
    | some k => some { s with
        streamUnits := keep k
        tierCache := (s.tierCache.drop (k + 1) ++ s.tierCache.take k).map (fun x => { x with ref := false }) }
    | none => none

/-- A frame for another unit of the tier cache: a free one, or that of a cached unit no descriptor has named (R62). -/
def cacheFrame (s : State) : Option State :=
  if 0 < s.freeFrames then some { s with freeFrames := s.freeFrames - 1 } else clockCache false s

/-- Take one frame for an allocation: from the pool, else from the tier cache (R63), where a unit that a descriptor has named
(R62) goes only when no other is left (assumption 161). -/
def takeFrame (s : State) : Option State :=
  match cacheFrame s with
  | some t => some t
  | none => clockCache true s

/-- Take `n` frames. -/
def takeFrames (s : State) (n : Nat) : Option State :=
  match n with
  | 0 => some s
  | k + 1 => match takeFrame s with
    | none => none
    | some t => takeFrames t k

/-- Allocate `n` frames to domain `d` (R63, R94): what takes no frame is no allocation. -/
def allocFrames (s : State) (d n : Nat) : Alloc :=
  if n = 0 then .ok s
  else if overStack s d n then .quota
  else match takeFrames s n with
    | none => .capacity
    | some t => .ok (chargeFrames t d n)

/-- Allocate `n` frames for region `r` to domain `d`: a parity region takes them from its group's pool (R103), any other from the
frame pool. -/
def allocFor (s : State) (r d n : Nat) : Alloc :=
  match poolOf s r with
  | none => allocFrames s d n
  | some g =>
    if n = 0 then .ok s
    else if overStack s d n then .quota
    else if poolData s g < poolUsed s g + n then .capacity
    else .ok (chargeFrames s d n)

/-- Release `n` frames of region `r` that domain `d` was charged: a pool unit stays reserved for its pool (R102), any other frame
waits to be zeroed (R651). -/
def releaseFor (s : State) (r d n : Nat) : State :=
  match poolOf s r with
  | none => releaseFrames s d n
  | some _ => unchargeFrames s d n

/-- Units of 64 KiB as GiB, rounded up (R93). -/
def unitsGib (n : Nat) : Nat := (n + 16383) / 16384

/-- Change a domain's medium use, exact and as its register shows it (R93). -/
def setMedUse (s : State) (d n : Nat) : State :=
  quotaClear (regPut { s with medUse := Sparse.set s.medUse d 0 n } (rQuota d 3) 23 0 (unitsGib n)) d

/-- Change a domain's medium reservation (R93, R119). -/
def setMedResv (s : State) (d n : Nat) : State :=
  quotaClear (regPut { s with medResv := Sparse.set s.medResv d 0 n } (rMedResv d) 23 0 (unitsGib n)) d

/-- Would `n` more units pass the medium limit (R94, R119)? -/
def overMedium (s : State) (d n : Nat) : Bool := decide (regFld s (rQuota d 2) 23 0 * 16384 < medTotal s d + n)

/-- The name of the frame or medium unit that holds a version's byte at memory key `key` of region `r`: versions that have
not changed a unit share it (R62, R116), so it is named by the version that last changed it. -/
def locUnit (s : State) (r key : Nat) : Nat :=
  let v := key / 2 ^ 50 / 131072
  let u := key % 2 ^ 50 / 65536
  let c := s.verUnits.foldl (fun m e => if e.1 = r ∧ e.2.2 = u ∧ e.2.1 ≤ v then max m e.2.1 else m) 0
  spKey (spVersion r c) (u * 65536) / 65536

/-- The name by which the tier cache keeps the unit at memory key `key` of region `r` (R62): units of one locator, as that of a unit
which went back to an older version's bytes (R116), share it. -/
def cacheUnit (s : State) (r key : Nat) : Nat :=
  let u := locUnit s r key
  match s.locs.find? (fun e => e.1 == u) with
  | none => u
  | some e => match s.locs.find? (fun x => x.2 == e.2 && unitOf x.1 == unitOf u) with
    | some x => x.1
    | none => u
where
  /-- A unit's name without its version: its region and its place. -/
  unitOf (u : Nat) : Nat := u * 65536 % (131072 * 2 ^ 50)

/-- Does a byte await restoration after a cold reset (R594)? -/
def awaitsRestore (s : State) (key : Nat) : Bool :=
  s.toRestore.any (fun p => decide (p.1 ≤ key) && decide (key < p.1 + p.2))

/-- The unit of the medium that an access to a byte at memory key `key` of region `r` needs and the stacks do not hold
(R60, R594): one that awaits restoration, a TIERED unit beyond RESIDENT_2M that the tier cache does not hold, or any unit of
a STREAM region, whose units no access finds in a frame (R55). -/
def missAt (s : State) (r key : Nat) : Option Nat :=
  if awaitsRestore s key then some (key / 65536)
  else if key < 2 ^ 50 then none
  else
    let u := cacheUnit s r key
    if rgPlace s r = 1 then
      (if key % 2 ^ 50 < rgResident s r then none
       else if s.tierCache.any (fun e => e.key == u) then none else some u)
    else if rgPlace s r = 3 && !s.tierCache.any (fun e => e.key == u) then some u
    else none

/-- The unit that an engine access of the kernel of window `w` needs and does not find: a unit that has no frame of its own is held for the
accesses that have waited on it (R55, R62). -/
def missFor (s : State) (w r key : Nat) : Option Nat :=
  match missAt s r key with
  | none => none
  | some u => if s.streamUnits.contains u && s.streamWait.any (fun e => e.1 == u && e.2.1 == w) then none else some u

/-- An engine access of window `w` waits on a unit of a STREAM region (R55), or of a TIERED one, which may find no frame in the tier
cache (R62). -/
def streamAwait (s : State) (w r u : Nat) : State :=
  if (rgPlace s r ≠ 3 ∧ rgPlace s r ≠ 1) ∨ s.streamWait.any (fun e => e.1 == u && e.2.1 == w) then s
  else { s with streamWait := s.streamWait ++ [(u, w, false)] }

/-- An engine access of window `w` reads a unit of a STREAM region that it has waited on. -/
def streamRead (s : State) (w u : Nat) : State :=
  { s with streamWait := s.streamWait.map (fun e => if e.1 == u && e.2.1 == w then (u, w, true) else e) }

/-- The engine access of window `w` that read its units has ended: a unit held for it that nothing waits on any longer leaves its
frame (R55). -/
def streamDrop (s : State) (p : Nat × Nat × Bool → Bool) : State :=
  if !s.streamWait.any p then s
  else
    let left := s.streamWait.filter (fun e => !p e)
    { s with streamWait := left, streamUnits := s.streamUnits.filter (fun u => left.any (fun e => e.1 == u)) }

/-- Is a byte at memory key `key` of region `r` poisoned (R202), or in a unit whose locator reads LOST (R140)? -/
def poisonedAt (s : State) (r key : Nat) : Bool :=
  poisoned s key || (decide (2 ^ 50 ≤ key) && s.lost.contains (locUnit s r key))

/-- The unit that an access to a line waits for, by its memory key over 65,536. -/
def unitMiss (s : State) (off : Nat) : Option Nat :=
  match regionOf s off, backing s off with
  | some r, some key => missAt s r key
  | _, _ => none

/-! Messages between controllers (R503). -/

/-- Send the answer to a request of another controller's gateway, on the port on which the request arrived (R489);
one for a port that is down is discarded and counted (R517). -/
def gwSend (s : State) (via c addr op txn err : Nat) (poison : Bool := false) (d : LineData := 0) : State :=
  sendResp s 40 via c addr op txn err 0 true poison [respHdr s op txn c addr err poison] d

/-! Mirror and parity covers (R98 to R104). -/

/-- The name of the frame that holds a byte of the home or draft range, over 65,536. -/
def frameKey (s : State) (off : Nat) : Nat :=
  match backing s off with
  | some k => (match regionOf s off with
    | some r => if k < 2 ^ 50 then k / 65536 else locUnit s r k
    | none => k / 65536)
  | none => off / 65536

/-- Is a port to peer controller `c` ACTIVE (R488, R518)? -/
def peerUp (s : State) (c : Nat) : Bool :=
  (List.range 16).any (fun p => regFld s (rFab p 0) 63 62 == 1 && regFld s (rFab p 0) 61 52 == c && regFld s (rFab p 8) 3 0 == 5)

/-- The slice offset of member `m`'s ring in a controller's parity fold area (R104). -/
def ringBase (m : Nat) : Nat := ctlOff 0x4000000 + m * 2 ^ 20

/-- The address of the line at byte `pos` of this controller's ring in the fold area of member `m` of the box. -/
def ringAddr (s : State) (m pos : Nat) : Nat :=
  (regFld s rAddrSelf 9 4 * 16 + m) * 2 ^ 50 + ringBase (ownCtrl s % 16) + pos % 2 ^ 20

/-- Send a write of a line to one cover (R98, R104): the whole line to a mirror peer, the XOR delta to the holder of the parity
unit, as a record of two line writes, a header and the delta, in this controller's ring there; a record for a holder that no ACTIVE port reaches is
not sent, and Err FLUSHED answers it (R518). `key` names the line's frame. -/
def coverOne (s : State) (prot peer pgroup key addr : Nat) (old new : LineData) : State :=
  if prot = 1 then sendReq { s with coverSent := s.coverSent ++ [(addr, 2 * peer)] } (18 + homeOf addr) 6 peer addr 0 .cover [1] 0 new
  else if prot = 2 then match poolUnit s pgroup key with
    | none => s
    | some u =>
    let ms := pgMembers s pgroup
    let holder := (ms[u % ms.length]?).getD 0
    let pos := Sparse.get s.ringPos (2 * holder) 0
    let c := regFld s rAddrSelf 9 4 * 16 + holder
    let s := { s with poolMap := Sparse.ins s.poolMap (16 * key + pgroup) u }
    if peerUp s c then
      let s := sendReq { s with coverSent := s.coverSent ++ [(addr, 2 * holder + 1)], ringPos := Sparse.ins s.ringPos (2 * holder) ((pos + 128) % 2 ^ 20) }
        (18 + homeOf addr) 6 c (ringAddr s holder pos) 0 .agent [2, u, addr / 64 % 1024, addr] 0 (BitVec.ofNat 512 (u + addr / 64 % 1024 * 2 ^ 32))
      sendReq s (18 + homeOf addr) 6 c (ringAddr s holder (pos + 64)) 0 .agent [2, u, addr / 64 % 1024, addr] 0 (old ^^^ new)
    else s
  else s

/-- The mirror peer `c` that a region had before its new cover is lost while the region is copied: only the new cover is told of writes
(R100, R756). -/
def dropOldPeer (s : State) (c : Nat) : State :=
  { s with copying := s.copying.map (fun e => if e.2.1 = 1 ∧ e.2.2.1 = c then (e.1, 0, 0, 0) else e) }

/-- Tell the cover of region `r` of a write of the line at `addr` in frame `key` (R98, R104); while a new cover is being written,
the old one still gets the writes (R756). A mirror peer that no ACTIVE port reaches is lost (R518), and the region degraded (R100). -/
def coverLine (s : State) (r key addr : Nat) (old new : LineData) : State :=
  let s := if s.degraded.contains r then s
    else if rgProtect s r == 1 && !peerUp s (rgPeer s r) then { s with degraded := Sparse.add s.degraded r }
    else coverOne s (rgProtect s r) (rgPeer s r) (rgPgroup s r) key addr old new
  match s.copying.find? (fun e => e.1 == r) with
  | some (_, a, b, c) => if a = 1 ∧ peerUp s b = false then dropOldPeer s b else coverOne s a b c key addr old new
  | none => s

/-- Tell the cover of a protected region of a write (R98, R104). -/
def coverSend (s : State) (off : Nat) (old new : LineData) : State :=
  match regionOf s off with
  | none => s
  | some r => coverLine s r (frameKey s off) (globalAddr s off) old new

/-- Does a write to the line wait for a cover (R98, R104): has a message for it gone out that is not acknowledged yet? -/
def covered (s : State) (off : Nat) : Bool := s.coverSent.any (fun e => e.1 == globalAddr s off)

/-- Does no ACTIVE port reach the holder of the parity unit of a line's frame, so that Err FLUSHED answered its record (R104, R518)? -/
def foldLost (s : State) (off : Nat) : Bool :=
  match regionOf s off with
  | some r => (match poolOf s r with
    | some g => (match s.poolMap.find? (fun e => e.1 == 16 * frameKey s off + g) with
      | some e =>
        let ms := pgMembers s g
        !peerUp s (regFld s rAddrSelf 9 4 * 16 + (ms[e.2 % ms.length]?).getD 0)
      | none => false)
    | none => false)
  | none => false

/-- The lines of a range of memory that hold a byte other than zero, by key. -/
def liveLines (s : State) (key len : Nat) : List Nat :=
  ((s.mem.filter (fun (c : Host.Cell) => decide (key ≤ c.1) && decide (c.1 < key + len))).map (fun (c : Host.Cell) => c.1 / 64 * 64)).dedup

/-- Tell a region's cover of the bytes that a frame took from elsewhere (R78, R100): the lines at memory key `key`, which appear
from global address `addr` on, against zeros. -/
def coverFill (s : State) (r key addr len : Nat) : State :=
  if rgProtect s r = 0 then s
  else forEach (liveLines s key len) s (fun s l => coverLine s r (key / 65536 + (l - key) / 65536) (addr + (l - key)) 0 (s.readLine l))

/-- What covers a region: PROTECT, and the PEER or PGROUP that it names. -/
def coverOf (s : State) (r : Nat) : Nat × Nat × Nat :=
  (rgProtect s r, if rgProtect s r = 1 then rgPeer s r else 0, if rgProtect s r = 2 then rgPgroup s r else 0)

/-- Copy region `r` to its new cover (R100, R756): to a mirror peer the lines of its plain addresses and of its drafts, to a parity
group those of every frame that it has. A peer that no ACTIVE port reaches leaves the region degraded (R100, R518). -/
def coverCopy (s : State) (r : Nat) : State :=
  let one := fun (s : State) (key addr l : Nat) => coverOne s (rgProtect s r) (rgPeer s r) (rgPgroup s r) key addr 0 (s.readLine l)
  if rgProtect s r = 1 ∧ peerUp s (rgPeer s r) = false then { s with degraded := Sparse.add s.degraded r } else
  let s := if rgVersioned s r then
      forEach (versionsOf s r) s (fun s v => forEach (liveLines s (spKey (spVersion r v) 0) (rgSize s r)) s (fun s l =>
        let x := l - spKey (spVersion r v) 0
        let sent := if rgProtect s r = 1 then v != rgCurrent s r
          else (versionsOf s r).any (fun w => decide (w < v) && locUnit s r (spKey (spVersion r w) x) == locUnit s r l)
        if inStack s r (x / 65536) && !sent then one s (locUnit s r l) (globalAddr s (rgBase s r + x)) l else s))
    else forEach (liveLines s (rgBase s r) (rgSize s r)) s (fun s l => one s (l / 65536) (globalAddr s l) l)
  forEach ((openDrafts s).filter (fun d => drRegion s d == r)) s (fun s d => forEach (draftOwn s d) s (fun s u =>
    forEach (liveLines s (u * 65536) 65536) s (fun s l => one s u (globalAddr s l) l)))

/-- The frames named by `p` go back to their parity pool (R102): what they held leaves their parity units. Such a frame has no address
any longer, so its records name the line in the last 64 KiB of this controller's addresses, where no region lies. -/
def poolDrop (s : State) (g : Nat) (p : Nat → Bool) : State :=
  let mine := s.poolMap.filter (fun e => e.1 % 16 == g && p (e.1 / 16))
  if mine = [] then s
  else
    let s := forEach mine s (fun s e => forEach (liveLines s (e.1 / 16 * 65536) 65536) s (fun s l =>
      coverOne s 2 0 g (e.1 / 16) (globalAddr s (2 ^ 50 - 65536 + l % 65536)) (s.readLine l) 0))
    { s with poolMap := s.poolMap.filter (fun e => !(e.1 % 16 == g && p (e.1 / 16))) }

/-- Copy a unit of region `r` from memory key `src` to key `dst`: every line of a unit whose locator reads LOST is poison there
(R140, R141). -/
def copyUnit (s : State) (r src dst : Nat) : State :=
  let t := copyMem s src dst 65536
  if decide (2 ^ 50 ≤ src) && s.lost.contains (locUnit s r src) then forEach (List.range 1024) t (fun t i => setPoison t (dst + 64 * i))
  else t

/-- Give a draft unit its own frame at its first write (R78): the unit's bytes of the base version are copied into it;
a DURABLE draft also takes a private map frame (R118) and reserves medium space (R119). -/
def ensureUnit (s : State) (off : Nat) : Alloc :=
  let u := off / 65536
  if s.draftUnits.contains u then .ok s
  else match draftAt s off with
    | none => .ok s
    | some (d, _) =>
      let r := drRegion s d
      let dom := rgDomain s r
      let m := off / 2 ^ 29
      let newMap := rgDurable s r && !s.draftMaps.contains m
      if rgDurable s r && overMedium s dom 1 then .quota
      else match allocFor s r dom (if newMap then 2 else 1) with
        | .quota => .quota
        | .capacity => .capacity
        | .ok t =>
          let t := match backing s (u * 65536) with
            | some src => copyUnit t r src (u * 65536)
            | none => t
          let t := coverFill { t with draftUnits := Sparse.add t.draftUnits u } r (u * 65536) (globalAddr t (u * 65536)) 65536
          let t := if newMap then { t with draftMaps := Sparse.add t.draftMaps m } else t
          let t := if rgDurable s r then setMedResv t dom (Sparse.get t.medResv dom 0 + 1) else t
          .ok (regAdd t (rDraftStat d) 23 0 1)

/-! Arrival counters and counted areas (R176 to R184). -/

def counter (s : State) (k : Nat) : Word := Sparse.get s.counters k 0
def setCounter (s : State) (k : Nat) (v : Word) : State := { s with counters := Sparse.set s.counters k 0 v }

/-- The counted area that holds a line. -/
def areaAt (s : State) (off : Nat) : Option Area :=
  s.areas.find? (fun a => decide (a.base ≤ off) && decide (off < a.base + 64 * a.lines))

/-- Replace an area of the list. -/
def putArea (s : State) (a : Area) : State :=
  { s with areas := s.areas.map (fun b => if b.base == a.base then a else b) }

/-- Arm an area (R177): its counter is zero and no line is marked arrived. -/
def armArea (s : State) (a : Area) : State :=
  setCounter (putArea s { a with arrived := [], armed := true }) a.counter 0

/-- A counted write to an area (R178): the bytes are stored, and the first arrival at a line of an armed area advances
the counter by one. -/
def countedWrite (s : State) (a : Area) (off dom : Nat) (d : LineData) : State :=
  let s := clrPoison (s.putLine off d) off
  let i := (off - a.base) / 64
  if !a.armed || a.arrived.contains i then s
  else
    let s := pmc s (176 + ctrHome a.counter) 10 1 (some dom)
    setCounter (putArea s { a with arrived := Sparse.add a.arrived i }) a.counter (counter s a.counter + 1)

/-! Ports toward other controllers. -/

/-- Is an UPLINK port ACTIVE (R533)? -/
def uplinkUp (s : State) : Bool :=
  (List.range 16).any (fun p => regFld s (rFab p 0) 63 62 == 3 && regFld s (rFab p 8) 3 0 == 5)


/-! The parity fold area (R47, R104, R176): a 1 MiB ring for each member of the box. -/

/-- The counted area that is member `m`'s ring (R176), bound to its arrival counter. The manual names neither the counter nor when a
ring is armed: the counter is a free value, and a ring is armed at its first line and whenever it starts over (assumption
164). -/
def ringArea (m : Nat) : Area := ⟨ringBase m, 16384, Config.ringCounter m, [], true, none⟩

/-- Is a control window offset in the parity fold area? -/
def inRings (x : Nat) : Bool := decide (0x4000000 ≤ x) && decide (x < 0x5000000)

/-- A line is written at byte `pos` of member `m`'s ring: a counted write (R178). -/
def ringPut (s : State) (m pos dom : Nat) (d : LineData) : State :=
  let s := if s.areas.any (fun a => a.base == ringBase m) then s
    else setCounter { s with areas := s.areas ++ [ringArea m] } (ringArea m).counter 0
  match areaAt s (ringBase m + pos) with
  | some a => countedWrite s a (ringBase m + pos) dom d
  | none => s

end Sys2Proof.Machine
end

