-- ==== Sys2Proof/Machine/Flags.lean ====
section
/-! DEFINITION. Machine/Flags.lean: the status bits of the units: each event sets its sticky bit, advances its count and
is logged in its class (R587). -/

namespace Sys2Proof.Machine

/-- An event of home `h`: HA_ERR_h bit `b`, the count at byte `cnt`, and the COHERENCE log (R244, R587). -/
def haEvent (s : State) (h b : Nat) (cnt : Option Nat) (addr d0 : Nat) : State :=
  let s := setBit s (rHome h 8) b
  let s := match cnt with
    | some k => incCnt s (rHome h k)
    | none => s
  logErr s { cls := 2, code := b, kind := 6, unit := h, addr := addr, d0 := d0 }

/-- A corrected line error of stack `h` (R588). -/
def stkCe (s : State) (h addr : Nat) : State :=
  logErr (incCnt (setBit s (rStk h 0) 0) (rStk h 8)) { cls := 3, code := 0, kind := 7, unit := h, addr := addr }

/-- An uncorrectable line error of stack `h` (R589). -/
def stkUe (s : State) (h addr : Nat) : State :=
  logErr (incCnt (setBit s (rStk h 0) 1) (rStk h 0x10)) { cls := 3, code := 1, kind := 7, unit := h, addr := addr }

/-- A recovery event: RECOV_ERR bit `b` and RECOV_CNT_k (R587, chapter 14), with its log. -/
def recovEvent (s : State) (b k : Nat) (a : LogArgs) : State :=
  logErr (incCnt (setBit s (rRecov 0x18) b) (rRecov (0x40 + 8 * k))) a

/-- Is unit `n` of kind `kind` (1 Lathe, 2 kite, 4 gather context) in the domain of a reset of unit `unit` of kind `of`: the whole
device (15), the unit itself, which holds `per` of them, or a kernel's context (16)? -/
def inDump (s : State) (of unit kind per : Nat) (mine : Kernel → List Nat) (n : Nat) : Bool :=
  of == 15 || (of == kind && unit == n / per) || (of == 16 && s.kernels.any (fun k => k.win == unit && (mine k).contains n))

/-- The bytes of Lathe `l`'s Chuck that a dump samples, as DUMP_CFG sets (R619). -/
def chuckSample (s : State) (l : Nat) : List Host.Cell :=
  let log := regFld s (rRecov 0x100) 7 4
  let start := regFld s (rRecov 0x100) 26 16 * 4096 % (6 * 2 ^ 20)
  let size := if log = 0 then 0 else if 12 ≤ log then 6 * 2 ^ 20 else 2 ^ (log + 1) * 1024
  let lo := chuckOff l 0
  s.mem.filter (fun c => decide (lo ≤ c.1) && decide (c.1 < lo + 6 * 2 ^ 20) &&
    decide ((c.1 - lo + 6 * 2 ^ 20 - start) % (6 * 2 ^ 20) < size))

/-- Collect a dump before a reset of unit `unit` of kind `kind` or before a freeze (R618 to R620): an invalid slot first, else the
older one; with KEEP set an unread slot is not overwritten, and the dump is counted as lost. The manual gives the dump's parts and no
byte layout, so the bytes that the aperture shows are a free value (assumption 21). -/
def collectDump (s : State) (kind unit action dom : Nat) : State :=
  let st := (reg s (rRecov 0x108)).toNat
  let newest := bits st 5 5
  let slot := if !st.testBit 0 then 0 else if !st.testBit 1 then 1 else 1 - newest
  if st.testBit (2 + slot) && regBit s (rRecov 0x100) 0 then
    recovEvent s 10 10 { cls := 8, code := 10, kind := 0 }
  else
    let (n, s) := drawFree s
    let lathe := inDump s kind unit 1 1 (fun k => k.lathes)
    let d : Dump :=
      { tag := n, seq := s.seq, dom := dom, kind := kind, unit := unit, action := action, time := Config.freeTime n
        regs := s.regs, counters := s.counters, lathQ := s.lathQ, engQ := s.engQ, trk := s.trk, retry := s.retry
        cells := s.cells, reels := s.reels
        lathes := s.lathes.filter (fun e => lathe e.1)
        ctxs := s.ctxs.filter (fun e => inDump s kind unit 4 8 (fun k => k.ctxs) e.1)
        kites := s.kites.filter (fun e => inDump s kind unit 2 128 (fun k => k.kites) e.1)
        chucks := ((List.range 128).filter lathe).flatMap (chuckSample s) }
    let s := { s with dumps := Sparse.ins s.dumps slot d }
    let s := regPut s (rRecov 0x108) 57 10 s.seq.toNat
    let s := regPut s (rRecov 0x108) 5 5 slot
    setBit (setBit s (rRecov 0x108) slot) (rRecov 0x108) (2 + slot)

/-- A violation (R652 to R654): counted, and on a master that is not frozen yet logged, flagged and frozen. A kernel's
engines are frozen by the kernel operations; a management request freezes nothing (R653): it is counted and logged as refused (assumption
234). -/
def violate (s : State) (m : Master) (addr : Nat) : State :=
  match isoBit m with
  | none =>
    if m = .mgmt then logErr (incCnt (incCnt s (rDomain 0 1)) (rBoot 0x130)) { cls := 1, code := 4, action := 1, addr := addr } else s
  | some b =>
    let d := masterDom s m
    let s1 := incCnt (incCnt s (rDomain d 1)) (rBoot 0x130)
    if frozen s m then s1
    else
      let s2 := logErr s1 { cls := 1, code := b, dom := d, action := 12, addr := addr }
      let s3 := setBit (setBit s2 (rDomain d 1) 63) (rBoot 0x128) b
      match m with
      | .host _ => freeze (collectDump s3 0 0 12 d) m
      | .session _ => freeze (collectDump s3 0 0 12 d) m
      | _ => s3

end Sys2Proof.Machine
end

