-- ==== Sys2Proof/Machine/Ballast.lean ====
section
/-! DEFINITION. Machine/Ballast.lean: clock requests and what Ballast grants (R685, R688 to R693). -/

namespace Sys2Proof.Machine

/-- The code of a unit whose clock Ballast paces: kinds as the error log numbers them, with walker clusters as kind 2, medium ports as
kind 8, and kind 16 for the arithmetic step (assumption 195). -/
def unitCode (kind n : Nat) : Nat := 4096 * kind + n

/-- CLK_STAT.ARITH_MHZ. -/
def arithMhz (s : State) : Nat := regFld s (rPwr 0x10) 15 0

/-- The Lathes whose clocks run. -/
def lathesClocked (s : State) : Nat := (s.clocked.filter (fun u => u / 4096 == 1)).length

/-- What a unit's start or stop costs, in tokens (R689). -/
def clockCost (s : State) (u : Nat) : Nat :=
  let k := u / 4096
  if k = 0 then 12 else if k = 6 then 30 else if k = 11 then 60 else if k = 9 then 6 else if k = 10 then 8
  else if k = 8 then 10 else if k = 12 then 4 else if k = 1 then (7 * arithMhz s + 2399) / 2400 else if k = 2 then 24
  else if k = 16 then (7 * lathesClocked s + 23) / 24 else 0

/-- The priority of a start (R689). -/
def startPrio (u : Nat) : Nat :=
  let k := u / 4096
  if k = 0 ∨ k = 6 ∨ k = 11 then 1 else if k = 1 ∨ k = 2 then 3 else if k = 16 then 4 else 2

/-- BALLAST_STAT.QUEUED and HEAD_PRIO. -/
def showQueue (s : State) : State :=
  let best := s.ballastQ.foldl (fun m q => min m q.prio) 255
  regPut (regPut s (rPwr 0x20) 39 24 s.ballastQ.length) (rPwr 0x20) 23 16 (if s.ballastQ = [] then 0 else best)

/-- A request for a unit's clock (R691): one at a time, and the opposite one that is queued is cancelled instead. -/
def askClock (s : State) (u : Nat) (start : Bool) (prio : Nat) : State :=
  match s.ballastQ.find? (fun q => q.unit == u) with
  | some q =>
    if q.start = start then s else showQueue { s with ballastQ := s.ballastQ.filter (fun x => x.unit != u) }
  | none =>
    if s.clocked.contains u = start ∧ u / 4096 ≠ 16 then s
    else showQueue { s with ballastQ := s.ballastQ ++ [⟨prio, s.pace, u, start, false⟩] }

/-- Ask for the start of a unit's clock; a queued stop is cancelled, and a unit that is clocked asks for nothing. -/
def askStart (s : State) (u : Nat) : State := askClock s u true (startPrio u)
/-- Ask for the stop of a unit's clock. -/
def askStop (s : State) (u prio : Nat) : State := askClock s u false prio

/-- The unit that a register belongs to, when its clock starts with work (R685): a Lathe, a walker cluster with its gouges, a medium
port or the gateway. -/
def unitOfReg (off : Nat) : Option Nat :=
  let at' := fun (base n stride : Nat) => decide (base ≤ off) && decide (off < base + n * stride)
  if at' (rLathe 0 0) 128 0x10000 then some (unitCode 1 ((off - rLathe 0 0) / 0x10000))
  else if at' (rWalker 0 0) 32 0x1000 then some (unitCode 2 ((off - rWalker 0 0) / 0x8000))
  else if at' (rKite 0 0) 4096 32 then some (unitCode 2 ((off - rKite 0 0) / 0x8000))
  else if at' (rGouge 0 0) 16 0x1000 then some (unitCode 2 ((off - rGouge 0 0) / 0x4000))
  else if at' (rGctx 0 0) 128 32 then some (unitCode 2 ((off - rGctx 0 0) / 0x400))
  else if at' (rMedCh 0 0) 32 256 then some (unitCode 8 ((off - rMedCh 0 0) / 0x1000))
  else if at' (rGw 0) 1 0x1000 then some (unitCode 12 0)
  else none

/-- A register access is work for its unit, whose clock starts (R685). -/
def touchUnit (s : State) (off : Nat) : State :=
  match unitOfReg off with
  | some u => if running s then askStart s u else s
  | none => s

/-- The request that Ballast serves next (R690): by priority, then arrival, then unit. -/
def headReq (qs : List BReq) : Option BReq :=
  qs.foldl (fun best q =>
    match best with
    | none => some q
    | some b =>
      if q.prio < b.prio ∨ (q.prio = b.prio ∧ (q.tick < b.tick ∨ (q.tick = b.tick ∧ q.unit < b.unit))) then some q else some b) none

end Sys2Proof.Machine
end

