-- ==== Sys2Proof/Machine/LogOps.lean ====
section
/-! DEFINITION. Machine/LogOps.lean: the publish log of the medium: locators, blocks and places, the units that are written and
their programs, the reads that fetches issue, relocation, reclaim and retirement, the units of a publish, and the decision logs
(R111 to R126, R132 to R134, R142 to R146, R150). Medium.lean gives the events of the channel engines their meaning over these. -/

namespace Sys2Proof.Machine

/-! Locators (R116, R120): QUAD, TARGET, LUN, BLOCK and PAGE. A band is named by the bits above PAGE. -/

def locQuad (l : Nat) : Nat := bits l 39 37
def locTarget (l : Nat) : Nat := bits l 36 35
def locLun (l : Nat) : Nat := bits l 34 32
/-- The band of a locator. -/
def locBand (l : Nat) : Nat := bits l 39 12
def locPage (l : Nat) : Nat := bits l 11 0
/-- The channel of page `i` of a unit (R114). -/
def locChan (l i : Nat) : Nat := locQuad l + 8 * i
/-- A LUN of a channel, packed. -/
def lunKey (c l : Nat) : Nat := 32 * c + 8 * locTarget l + locLun l
/-- The locator of page 0 of a band. -/
def bandLoc (b : Nat) : Nat := b * 4096
/-- The channels of a band. -/
def bandChans (b : Nat) : List Nat := (List.range 4).map (fun i => locChan (bandLoc b) i)
/-- A block of the LUN of band `b` on channel `c`, packed. -/
def blockKey (c b blk : Nat) : Nat := lunKey c (bandLoc b) * 2 ^ 20 + blk

/-- The name of unit `u` of version `v` of region `r` when that version changes it. -/
def unitName (r v u : Nat) : Nat := spKey (spVersion r v) (u * 65536) / 65536

def bandOf (s : State) (b : Nat) : Band := Sparse.get s.bands b {}
def putBand (s : State) (b : Nat) (x : Band) : State := { s with bands := Sparse.set s.bands b {} x }
def blockOf (s : State) (k : Nat) : MedBlock := Sparse.get s.blockTab k {}
def putBlock (s : State) (k : Nat) (x : MedBlock) : State := { s with blockTab := Sparse.set s.blockTab k {} x }

/-- Add to a health counter of a channel (R159): one that saturates sets SAT. -/
def medCnt (s : State) (c k n : Nat) : State :=
  let s := addCnt s (rMedCh c k) n
  if n ≠ 0 ∧ regFld s (rMedCh c k) 47 0 = 2 ^ 48 - 1 then setBit s (rMedCh c 0x80) 1 else s

/-- A medium event of a channel: MED_CH_ERR_c bit `b` and the MEDIUM log. -/
def medEvent (s : State) (c b action addr : Nat) : State :=
  logErr (setBit s (rMedCh c 0x80) b) { cls := 4, code := b, kind := 8, unit := c, action := action, d0 := addr }

/-- The value of element `i` of a list, and the list with it replaced. -/
def nth (l : List Nat) (i : Nat) : Nat := (l[i]?).getD 0

/-- MED_STAT.READY: the medium serves reads and writes (R129). -/
def medReady (s : State) : Bool := regBit s (rMed 8) 0

/-! ONFI commands (R111, R112). -/

/-- The opcodes of a command, its confirming cycle after it (R111). -/
def Onfi.opcodes (c : Onfi) : List (BitVec 8) :=
  match c with
  | .reset => [0xFF]
  | .syncReset => [0xFC]
  | .resetLun => [0xFA]
  | .readId => [0x90]
  | .readParam => [0xEC]
  | .getFeature => [0xEE]
  | .setFeature => [0xEF]
  | .getLunFeature => [0xD4]
  | .setLunFeature => [0xD5]
  | .readStatus => [0x70]
  | .readStatusEnhanced => [0x78]
  | .read => [0x00, 0x30]
  | .multiRead => [0x00, 0x32]
  | .changeColumn => [0x06, 0xE0]
  | .program => [0x80, 0x10]
  | .multiProgram => [0x80, 0x11]
  | .erase => [0x60, 0xD0]
  | .multiErase => [0x60, 0xD1]
  | .zqLong => [0xF9]
  | .zqShort => [0xD9]
  | .volumeSelect => [0xE1]
  | .odtConfigure => [0xE2]

/-- Send commands to a channel, whose port's clock they start (R685). -/
def orders (s : State) (c : Nat) (l : List (Onfi × List Nat)) : State :=
  forEach l (if running s then askStart s (unitCode 8 (c / 16)) else s) (fun s e => send s (.flash c e.1 e.2))

/-! Blocks and places (R121, R123, R142 to R144). -/

/-- The block of band `b` on channel `c` (R120): the spare that the remap table names, or the one of the band's number; the units
written before a spare took the place lie in the old block (R143). -/
def physBlock (s : State) (c b : Nat) : Nat :=
  match (bandOf s b).was.find? (fun e => e.1 == c) with
  | some e => e.2
  | none => Sparse.get s.remaps (c * 2 ^ 28 + b) (b % 2 ^ 20)

/-- Is the block of band `b`'s number on channel `c` a spare, in use or left (R142)? -/
def reservedBlock (s : State) (c b : Nat) : Bool :=
  let k := lunKey c (bandLoc b)
  (Sparse.get s.spares k []).contains (b % 2 ^ 20)
    || s.remaps.any (fun e => e.1 / 2 ^ 28 == c && lunKey c (bandLoc (e.1 % 2 ^ 28)) == k && e.2 == b % 2 ^ 20)

/-- Is channel `c` in service? -/
def chanOn (s : State) (c : Nat) : Bool := regBit s (rMedCh c 0) 0

/-- Place `n` of the rotation over quads, then LUNs, then targets (R123), as the number of its block 0. -/
def placeBand (n : Nat) : Nat := ((n % 8 * 4 + n / 64 % 4) * 8 + n / 8 % 8) * 2 ^ 20

/-- Can the four channels of a locator serve its LUN? -/
def lunUp (s : State) (l : Nat) : Bool :=
  (List.range 4).all (fun i => chanOn s (locChan l i) && !s.lunOut.contains (lunKey (locChan l i) l))

/-- The geometry of a place in service. -/
def placeGeo (s : State) (n : Nat) : Option QuadGeo :=
  match s.quadGeo.find? (fun e => e.1 == n % 8) with
  | some (_, g) =>
    if g.targets.contains (n / 64 % 4) && decide (n / 8 % 8 < g.luns) && lunUp s (bandLoc (placeBand n)) then some g else none
  | none => none

/-- The bands in service of a place: its blocks that no channel keeps as a spare and that were not retired whole. -/
def placeBands (s : State) (n : Nat) : List Nat :=
  match placeGeo s n with
  | some g => ((List.range g.blocks).map (fun b => placeBand n + b)).filter (fun b =>
      !(bandOf s b).gone && (bandChans b).all (fun c => !reservedBlock s c b))
  | none => []

/-- Is a band erased and ready to open? -/
def bandFree (s : State) (b : Nat) : Bool := (bandOf s b).next == 0 && !(bandOf s b).isOpen && (bandOf s b).reclaim == 0

/-- The erases of a band's four blocks. -/
def bandWear (s : State) (b : Nat) : Nat := ((bandChans b).map (fun c => (blockOf s (blockKey c b (physBlock s c b))).erases)).sum

/-- The band with the least value of a measure, the first of several. -/
def leastBand (f : Nat → Nat) (bs : List Nat) : Option Nat :=
  bs.foldl (fun m b => match m with
    | none => some b
    | some a => if f b < f a then some b else m) none

/-- The pages of a block of a band. -/
def bandPages (s : State) (b : Nat) : Nat :=
  match s.quadGeo.find? (fun e => e.1 == locQuad (bandLoc b)) with
  | some (_, g) => g.pages
  | none => 0

/-- The LUNs of quads in service, by the number of their band table's unit: the parts that the whole band table consists of (R135,
assumption 170). -/
def tableParts (s : State) : List Nat := ((List.range 256).filter (fun n => (placeGeo s n).isSome)).map (fun n => placeBand n / 2 ^ 20)

/-- The band that the next unit at place `n` goes into: the open band of its LUN, else, as a band to open, the free band with the
lowest erase count (the default policy of R135's table). A block has a page for more than its band's header. -/
def bandFor (s : State) (n : Nat) : Option (Nat × Bool) :=
  match placeGeo s n with
  | none => none
  | some g =>
    match s.bands.find? (fun e => e.2.isOpen && e.1 / 2 ^ 20 == placeBand n / 2 ^ 20) with
    | some e => some (e.1, false)
    | none => if g.pages < 2 then none
      else (leastBand (bandWear s) ((placeBands s n).filter (bandFree s))).map (fun b => (b, true))

/-- FREE_BANDS and LOG_FULL follow the bands in use (R134). -/
def countBands (s : State) : State :=
  let all := (List.range 256).flatMap (placeBands s)
  let free := (all.filter (bandFree s)).length
  regPut (regPut s (rMed 8) 47 24 free) (rMed 8) 2 2 (if free * 50 < all.length then 1 else 0)

/-- SPARES_MIN of a channel. -/
def countSpares (s : State) (c : Nat) : State :=
  match (s.spares.filter (fun e => e.1 / 32 == c)).map (fun e => e.2.length) with
  | [] => s
  | x :: xs => regPut s (rMedCh c 8) 31 8 (xs.foldl min x)

/-- QUAD_DEGRADED (R159's map): the quads with a channel or LUN out of service. -/
def degradeQuads (s : State) : State :=
  let out := fun (c : Nat) => (regFld s (rMedCh c 0) 15 12 != 0 && !chanOn s c) || s.lunOut.any (fun k => k / 32 == c)
  regPut s (rMed 8) 23 16 ((List.range 8).foldl (fun a q => if (List.range 4).any (fun i => out (q + 8 * i)) then a + 2 ^ q else a) 0)

/-- The good blocks of a band that was retired whole become spares on their own channels (R144). -/
def freeGone (s : State) (b : Nat) : State :=
  forEach (bandChans b) s (fun s c =>
    let k := lunKey c (bandLoc b)
    let x := Sparse.get s.remaps (c * 2 ^ 28 + b) (b % 2 ^ 20)
    let s := { s with remaps := Sparse.del s.remaps (c * 2 ^ 28 + b) }
    if s.badBlocks.contains (blockKey c b x) then s
    else countSpares { s with spares := Sparse.ins s.spares k (Sparse.add (Sparse.get s.spares k []) x) } c)

/-- A spare of the same channel, target and LUN takes the place of the block of band `b` on channel `c` (R143), the lowest left
(assumption 172); with none left the band is retired whole (R144), which sets RETIRE, and its good blocks become spares once nothing lies in it. -/
def substitute (s : State) (c b : Nat) : State :=
  let k := lunKey c (bandLoc b)
  let old := physBlock s c b
  match Sparse.get s.spares k [] with
  | x :: rest =>
    let s := countSpares { s with spares := Sparse.ins s.spares k rest, remaps := Sparse.ins s.remaps (c * 2 ^ 28 + b) x } c
    if (bandOf s b).units = [] then s else putBand s b { bandOf s b with was := (bandOf s b).was ++ [(c, old)] }
  | [] =>
    let s := setBit (putBand s b { bandOf s b with gone := true, isOpen := false }) (rMedCh c 0x80) 0
    if (bandOf s b).next = 0 then freeGone s b else s

/-- Retire the block of band `b` on channel `c` (R143 to R145). -/
def retireBlock (s : State) (c b : Nat) : State :=
  let s := setBit (medCnt s c 0x70 1) (rMedCh c 0x80) 0
  substitute { s with badBlocks := Sparse.add s.badBlocks (blockKey c b (physBlock s c b)) } c b

/-! The bytes of a unit (R113, R115, R124). -/

/-- The name of unit `u` of draft `d`. -/
def draftName (d u : Nat) : Nat := (2 ^ 48 + d * 2 ^ 38) / 65536 + u

/-- Is a unit name one of draft `d`? -/
def ofDraft (s : State) (d name : Nat) : Bool := decide (draftName d 0 ≤ name) && decide (name < draftName d (drSlots s d * 2 ^ 22))

/-- The name that a DATA unit's locator goes by: its version's, or its draft's unit until the version is decided (R128). -/
def LogUnit.dataName (u : LogUnit) : Nat :=
  match u.draft with
  | some d => draftName d u.unit
  | none => unitName u.region u.version u.unit

/-- The version that names the map of a draft's publish until it is decided (R128), or that of a version. -/
def metaVersion (draft : Option Nat) (v : Nat) : Nat :=
  match draft with
  | some d => (d + 1) * 2 ^ 48 + v
  | none => v

/-- The name of a unit of the log that is no DATA unit. -/
def LogUnit.metaName (u : LogUnit) : LogName := ⟨u.type, u.region, metaVersion u.draft u.version, u.unit⟩

/-- Is a 64 KiB unit of memory all zero? -/
def zeroUnit (s : State) (key : Nat) : Bool := !s.mem.any (fun c => decide (key ≤ c.1) && decide (c.1 < key + 65536))

/-- The locator of unit `u` in the map of version `v` of region `r` (R116): VALID, ZERO or LOST. The map of a publish that is not
decided names the units of its draft, and its base version's where the draft has none (R77). -/
def locWord (s : State) (draft : Option Nat) (r v u : Nat) : Nat :=
  let at' := fun (w : Nat) => locUnit s r (spKey (spVersion r w) (u * 65536))
  let name := match draft with
    | some d => if s.draftUnits.contains (draftName d u) then draftName d u else at' (drBase s d)
    | none => if s.locs.any (fun e => e.1 == unitName r v u) then unitName r v u else at' v
  if s.lost.contains name then 2 ^ 61
  else match s.locs.find? (fun e => e.1 == name) with
    | some e => 2 ^ 63 + e.2
    | none => 2 ^ 62

/-- The locator of a unit of the log that is no DATA unit, VALID or not. -/
def metaWord (s : State) (n : LogName) : Nat :=
  match s.metaLocs.find? (fun e => e.1 == n) with
  | some e => 2 ^ 63 + e.2
  | none => 0

/-- A line of eight 8-byte words. -/
def wordsLine (f : Nat → Nat) (i : Nat) : LineData :=
  BitVec.ofNat 512 ((List.range 8).foldl (fun a j => a + f (8 * i + j) * 2 ^ (64 * j)) 0)

/-- The version that last changed map frame `m` of region `r` up to version `v` (R118). -/
def mapVersion (s : State) (r v m : Nat) : Nat :=
  s.verUnits.foldl (fun a e => if e.1 = r ∧ e.2.2 / 8192 = m ∧ e.2.1 ≤ v then max a e.2.1 else a) 0

/-- The numbers that a record of a decision log holds. -/
def LogRec.nums (x : LogRec) : List Nat :=
  match x with
  | .decision r v p roots => [1, r, v, p] ++ roots
  | .region r ws => [2, r] ++ ws.map BitVec.toNat

/-- The 1,024 lines of a unit of the log as it is programmed: those it has, or of a new one a DATA unit's bytes, the locators of a MAP
or ROOT unit (R116, R124), the records of a DECISION unit, a header or the band table of a LUN (R122, R125, R135). -/
def unitBytes (s : State) (u : LogUnit) : List LineData :=
  if !u.bytes.isEmpty then u.bytes
  else (List.range 1024).map (fun i =>
    if u.type = 1 then s.readLine (u.dataName * 65536 + 64 * i)
    else if u.type = 2 ∧ u.region ≠ 0xFFFF then wordsLine (fun k => locWord s u.draft u.region u.version (8192 * u.unit + k)) i
    else if u.type = 3 then wordsLine (fun k =>
      let m := 8192 * u.unit + k
      let mine := metaVersion u.draft u.version
      let v := if s.metaLocs.any (fun e => e.1 == ⟨2, u.region, mine, m⟩) then mine else mapVersion s u.region u.version m
      metaWord s ⟨2, u.region, v, m⟩) i
    else if u.type = 4 then 0
    else if u.type = 5 then Config.recordLine (u.recs.flatMap LogRec.nums) i
    else if u.type = 6 then Config.recordLine (u.seq :: u.openAt :: u.erases) i
    else Config.recordLine ((s.blockTab.filter (fun e => e.1 / 2 ^ 20 % 32 == u.unit % 32 && e.1 / 2 ^ 25 % 8 == u.unit / 32)).flatMap (fun e =>
      [e.1, e.2.erases, e.2.reads, e.2.progAt])) i)

/-- The 128 B of metadata of a unit's pages (R115). The group and the holder's rank (R101) take a byte of GROUP each, and an entry of a
contribution list six bytes (assumption 170). -/
def metaNum (s : State) (u : LogUnit) : Nat :=
  let group := match u.holder with
    | some h => regFld s (rMed 0x10) 3 0 + 256 * ((pgMembers s (regFld s (rMed 0x10) 3 0)).findIdx (fun m => m == h))
    | none => 0
  u.seq + u.type * 2 ^ 64 + u.region * 2 ^ 72 + u.version * 2 ^ 88 + u.unit * 2 ^ 136 + group * 2 ^ 176
    + ((List.range u.parts.length).zip u.parts).foldl (fun a e => a + (e.2.1 * 2 ^ 40 + e.2.2) * 2 ^ (192 + 48 * e.1)) 0

/-- The four codewords of page `i` of a unit (R113); every page repeats the metadata (R115). -/
def pageCodewords (s : State) (u : LogUnit) (i : Nat) : List Codeword :=
  (List.range 4).map (fun j =>
    let d := ((unitBytes s u).drop (256 * i + 64 * j)).take 64
    let m := BitVec.ofNat 256 (metaNum s u / 2 ^ (256 * j))
    ⟨d, m, Config.ldpcParity d m⟩)

/-! Writing to the log (R121 to R124). -/

/-- Is a unit of the log one of the band table (R135)? -/
def tableUnit (u : LogUnit) : Bool := u.type == 2 && u.region == 0xFFFF

/-- The other members of the medium parity group, in rank order (R149, R150). -/
def otherMembers (s : State) : List Nat :=
  (pgMembers s (regFld s (rMed 0x10) 3 0)).filter (fun m => m != regFld s rAddrSelf 3 0)

/-- Choose the holder of a unit's contribution (R150): in rotation among the other members; a unit that is written again elsewhere
keeps the one it has (R145). A PARITY unit is no contribution (assumption 173). -/
def chooseHolder (s : State) (u : LogUnit) : LogUnit × State :=
  let ms := otherMembers s
  if !regBit s (rMed 0x10) 4 || u.type == 4 || ms.isEmpty then ({ u with holder := none }, s)
  else if u.holder.any ms.contains then (u, s)
  else ({ u with holder := some (nth ms (s.parPtr % ms.length)) }, { s with parPtr := (s.parPtr + 1) % ms.length })

/-- Program a unit at the next page of band `b`: the fourth of its pages on each channel. -/
def issueUnit (s : State) (b : Nat) (u : LogUnit) (src : Option Nat) : State :=
  let x := bandOf s b
  let l := bandLoc b + x.next
  let (u, s) := chooseHolder s u
  let u := { u with seq := s.logSeq + 1 }
  let u := { u with bytes := unitBytes s u }
  let s := putBand s b { x with isOpen := decide (x.next + 1 < bandPages s b), next := x.next + 1 }
  let s := { s with logSeq := s.logSeq + 1, progs := s.progs ++ [⟨l, u, src⟩] }
  forEach (List.range 4) s (fun s i =>
    let c := locChan l i
    orders (send s (.page c (pageCodewords s u i))) c [(.program, [lunKey c l, physBlock s c b, locPage l]), (.readStatusEnhanced, [lunKey c l])])

/-- Open a band: its BAND_HEADER is unit 0 (R122), and the band table is written, as MAP units of region 0xFFFF, one for
each LUN (R135, assumption 170), which take their turns in the rotation of R123 behind what waits (assumption 214). The free bands are
counted again (R134). -/
def openBand (s : State) (b : Nat) : State :=
  let (n, s) := drawFree s
  let erases := (bandChans b).map (fun c => (blockOf s (blockKey c b (physBlock s c b))).erases)
  let s := issueUnit s b { type := 6, erases := erases, openAt := n } none
  countBands { s with logQ := s.logQ ++ (tableParts s).map (fun n => ({ type := 2, region := 0xFFFF, unit := n }, none)) }

/-- Does a place lie in the quad of the other copy of a DECISION unit (R126)? -/
def otherCopy (s : State) (u : LogUnit) (n : Nat) : Bool :=
  u.type == 5 && (s.progs.any (fun p => p.unit.type == 5 && p.unit.unit == u.unit && locQuad p.loc == n % 8)
    || s.metaLocs.any (fun e => e.1.type == 5 && e.1.unit == u.unit && e.1.version != u.version && locQuad e.2 == n % 8))

/-- The next place of the rotation with a band for a unit (R123), the two copies of a DECISION unit in different quads while
another quad can take one (R126). -/
def nextPlace (s : State) (u : LogUnit) : Option (Nat × Nat × Bool) :=
  let at' := fun (ok : Nat → Bool) => (List.range 256).findSome? (fun i =>
    let n := (s.logPtr + i) % 256
    if ok n then (bandFor s n).map (fun b => (n, b)) else none)
  match at' (fun n => !otherCopy s u n) with
  | some x => some x
  | none => if u.type = 5 then at' (fun _ => true) else none

/-- Write a unit to the log, or let it wait for a place. -/
def logWrite (s : State) (u : LogUnit) (src : Option Nat) : State :=
  match (if medReady s then nextPlace s u else none) with
  | none => { s with logQ := s.logQ ++ [(u, src)] }
  | some (n, b, fresh) =>
    let s := { s with logPtr := (n + 1) % 256 }
    issueUnit (if fresh then openBand s b else s) b u src

/-- Give the units that wait for a place in the log one, in order. -/
def pumpLog (s : State) : State := forEach s.logQ { s with logQ := [] } (fun s e => logWrite s e.1 e.2)

/-! Reading (R60, R111, R129, R133, R157). -/

/-- The unit names whose locator is `loc`: own ones, or from 2^40 on those of a lost member (R158). -/
def unitsAt (s : State) (loc : Nat) : List Nat :=
  ((if loc < 2 ^ 40 then s.locs else s.foreign).filter (fun e => e.2 == loc)).map (fun e => e.1)

/-- The unit that a page position of a band holds. -/
def logUnitAt (s : State) (loc : Nat) : Option LogUnit :=
  ((bandOf s (locBand loc)).units.find? (fun e => e.1 == locPage loc)).map (fun e => e.2)

/-- Order the read of page `i` of a unit, and its transfer. -/
def readPage (s : State) (l i : Nat) : State :=
  let c := locChan l i
  orders s c [(.read, [lunKey c l, physBlock s c (locBand l), locPage l]), (.readStatusEnhanced, [lunKey c l]), (.changeColumn, [lunKey c l])]

/-- Order the read of the four pages of a unit, at the same time. -/
def readUnit (s : State) (l : Nat) : State := forEach (List.range 4) s (fun s i => readPage s l i)

/-- UNIT_LOST (R140): the locators of a unit read LOST, and a lost member's unit waits for its rebuild no longer (R158). -/
def loseUnit (s : State) (c loc : Nat) : State :=
  medEvent (medCnt { s with
    lost := (unitsAt s loc).foldl Sparse.add s.lost
    foreign := s.foreign.filter (fun e => e.2 != loc) } c 0x50 1) c 7 0 loc

/-- The global address prefix of member `m` of the box. -/
def peerOf (s : State) (m : Nat) : Nat := regFld s rAddrSelf 9 4 * 16 + m

/-- Ask for the contribution of member `m` at the member's locator `loc` (R157 step 2). -/
def askPart (s : State) (m loc : Nat) : State := send s (.peer (peerOf s m) 0 [0x56, loc] 0)

/-- Ask for the rebuild of the unit at `loc` (R138 step 10, R157): its parity unit at its holder, which names the other
contributions; of a PARITY unit of this holder, the contributions that it lists (R146). For a unit of a lost member (from 2^40 on), whose holder is
not known, every other member is asked (R158). Without parity it is lost. -/
def askRebuild (s : State) (c loc : Nat) : State :=
  if !regBit s (rMed 0x10) 4 then loseUnit s c loc
  else if 2 ^ 40 ≤ loc then forEach (otherMembers s) s (fun s m => send s (.peer (peerOf s m) 0 [0x55, loc] 0))
  else match s.contribs.find? (fun x => x.loc == loc), (logUnitAt s loc).filter (fun u => u.type == 4) with
    | some x, _ => send s (.peer (peerOf s x.holder) 0 [0x55, loc] 0)
    | none, some u => forEach u.parts s (fun s p => askPart s p.1 p.2)
    | none, none => loseUnit s c loc

/-- Issue the read of a unit that a fetch waits for (R60): the medium serves reads once the replay has ended (R129), and the locator
that the fetch looked up is kept (R133). A unit on a channel or LUN out of service is rebuilt (R146), one of a lost member too
(R158); one that is not on the medium needs no read. -/
def startRead (s : State) (u : Nat) : State :=
  if s.reading.any (fun e => e.1 == u) then s
  else if unitRegion u = none then { s with reading := Sparse.ins s.reading u (2 ^ 41) }
  else if !medReady s then s
  else match s.locs.find? (fun e => e.1 == u) with
    | some (_, l) =>
      let s := { s with reading := Sparse.ins s.reading u l }
      if s.lost.contains u then s
      else if lunUp s l then readUnit s l
      else askRebuild s (((List.range 4).map (locChan l)).find? (fun c => !chanOn s c || s.lunOut.contains (lunKey c l)) |>.getD (locChan l 0)) l
    | none => match s.foreign.find? (fun e => e.1 == u) with
      | some (_, l) => askRebuild { s with reading := Sparse.ins s.reading u l } (locChan l 0) l
      | none => { s with reading := Sparse.ins s.reading u (2 ^ 41) }

/-- Issue the reads that the fetches in flight wait for. -/
def startReads (s : State) : State := forEach s.fetches s startRead

/-! Relocation, reclaim and erase (R132 to R134, R156). -/

/-- Is a record of a decision log still needed: a decision whose version replay may take, or a region's newest record (R129, R130)? -/
def recNeeded (s : State) (x : LogRec) : Bool :=
  match x with
  | .decision r v p _ => s.decisions.contains (r, v, p)
  | .region r ws => s.regRecs.contains (r, ws)

/-- Is the unit at a locator valid: does a held version map, or what else names it, still name it there? -/
def unitLive (s : State) (l : Nat) (u : LogUnit) : Bool :=
  if u.type = 1 then s.locs.any (fun e => e.2 == l && !s.lost.contains e.1)
  else s.metaLocs.any (fun e => e.2 == l) && (u.type != 5 || u.recs.any (recNeeded s))

/-- A unit that is written again under another SEQ: a MAP or ROOT unit takes the locators as they are then; the band table of a lost
member keeps its bytes (R158). -/
def LogUnit.again (u : LogUnit) : LogUnit :=
  if u.type = 3 ∨ (u.type = 2 ∧ !(u.region == 0xFFFF && u.version == 1)) then { u with bytes := [] } else u

/-- The page positions of a band that hold valid units. -/
def bandLive (s : State) (b : Nat) : List (Nat × LogUnit) := (bandOf s b).units.filter (fun e => unitLive s (bandLoc b + e.1) e.2)

/-- Relocate the valid units of a band into open bands (R132). -/
def relocateBand (s : State) (b : Nat) : State :=
  let live := bandLive s b
  let s := pmc (pmc s 184 5 live.length none) 185 5 live.length none
  let s := if (bandOf s b).refresh then forEach (bandChans b) s (fun s c => medCnt s c 0x78 live.length) else s
  forEach live s (fun s e => logWrite s { e.2.again with holder := none } (some (bandLoc b + e.1)))

/-- Begin the reclaim of a band. -/
def startReclaim (s : State) (b : Nat) : State :=
  if (bandOf s b).reclaim ≠ 0 then s
  else relocateBand (putBand s b { bandOf s b with isOpen := false, reclaim := 1 }) b

/-- Send a member's contribution or retraction: its locator and its 64 KiB as it was programmed, as line writes into this controller's
ring at the holder (R150, R156). -/
def sendUnit (s : State) (code holder loc : Nat) (u : LogUnit) : State :=
  let lines := BitVec.ofNat 512 loc :: u.bytes
  forEach ((List.range 1025).zip lines) s (fun s e =>
    let pos := Sparse.get s.ringPos (2 * holder) 0
    send { s with ringPos := Sparse.ins s.ringPos (2 * holder) ((pos + 64) % 2 ^ 20) } (.peer (peerOf s holder) 0 [code, loc, e.1, pos] e.2))

/-- Send a contribution, or send it again (R150, R155). -/
def sendContrib (s : State) (c : Contrib) : State :=
  let s := pmc s (184 + locChan c.loc 0 / 16) 6 1 none
  match logUnitAt s c.loc with
  | some u => sendUnit s 0x50 c.holder c.loc u
  | none => s

/-- Retract what a band contributed, once nothing of it is valid and every contribution of it is covered (R156). A band on a LUN out of
service stays as it is (R146). -/
def retractBand (s : State) (b : Nat) : State :=
  let x := bandOf s b
  let moving := fun (o : Option Nat) => match o with
    | some l => locBand l == b
    | none => false
  let cs := s.contribs.filter (fun c => locBand c.loc == b)
  if x.reclaim ≠ 1 ∨ lunUp s (bandLoc b) = false ∨ s.progs.any (fun p => moving p.src || locBand p.loc == b) ∨ s.logQ.any (fun e => moving e.2) ∨ bandLive s b ≠ [] ∨ cs.any (fun c => !c.cov) then s
  else
    let s := forEach cs s (fun s c => match logUnitAt s c.loc with
      | some u => sendUnit s 0x51 c.holder c.loc u
      | none => s)
    { (putBand s b { x with reclaim := 2 }) with retracts := Sparse.set s.retracts b 0 cs.length }

/-- Is a read that named a unit of band `b` in flight (R133): of a fetch, of replay, of its sentinel page or of a read-disturb scrub? -/
def bandReading (s : State) (b : Nat) : Bool :=
  s.reading.any (fun e => decide (e.2 < 2 ^ 40) && locBand e.2 == b) || s.sentinels.contains b || s.scrubs.any (fun x => locBand (x / 4) == b)

/-- Erase a band whose retractions are acknowledged, once no read that named one of its units is in flight (R132, R133). -/
def eraseBand (s : State) (b : Nat) : State :=
  let x := bandOf s b
  if x.reclaim ≠ 2 ∨ lunUp s (bandLoc b) = false ∨ Sparse.get s.retracts b 0 ≠ 0 ∨ bandReading s b then s
  else
    let s := putBand s b { x with reclaim := 4 }
    forEach (bandChans b) s (fun s c =>
      orders s c [(.erase, [lunKey c (bandLoc b), Sparse.get s.remaps (c * 2 ^ 28 + b) (b % 2 ^ 20)]), (.readStatusEnhanced, [lunKey c (bandLoc b)])])

/-- The reclaims in progress go on as far as they can. -/
def reclaimStep (s : State) : State :=
  forEach ((s.bands.filter (fun e => e.2.reclaim != 0)).map (fun e => e.1)) s (fun s b => eraseBand (retractBand s b) b)

/-- The written bands that reclaim may take: closed, in service, with nothing in flight to them. -/
def closedBands (s : State) : List Nat :=
  (s.bands.filter (fun e => decide (0 < e.2.next) && !e.2.isOpen && e.2.reclaim == 0 && lunUp s (bandLoc e.1)
    && !s.progs.any (fun p => locBand p.loc == e.1))).map (fun e => e.1)

/-- The default policy's band to reclaim (R135's table): the fewest valid units, ties to the lowest erase count. -/
def reclaimVictim (s : State) : Option Nat :=
  leastBand (fun b => (bandLive s b).length * 2 ^ 64 + bandWear s b) (closedBands s)

/-- Reclaim a band now, and count the free bands. -/
def reclaimNow (s : State) (b : Nat) : State := countBands (reclaimStep (startReclaim s b))

/-- While free bands are fewer than the reserve, reclaim runs; a refresh that is under way does not hold it up (R134). -/
def keepReserve (s : State) : State :=
  if regBit s (rMed 8) 2 && !s.bands.any (fun e => e.2.reclaim != 0 && !e.2.refresh) then
    (match reclaimVictim s with
     | some b => reclaimNow s b
     | none => s)
  else s

/-- The highest erase count of a block. -/
def topErase (s : State) : Nat := s.blockTab.foldl (fun m e => max m e.2.erases) 0

/-- Static levelling, the default policy (R135's table): the coldest written band is moved when the spread of the erase counts exceeds
MED_WEAR.SPREAD. -/
def levelWear (s : State) : State :=
  if s.bands.any (fun e => e.2.reclaim != 0) then s
  else match leastBand (bandWear s) (closedBands s) with
    | some b =>
      if (bandChans b).any (fun c => decide ((blockOf s (blockKey c b (physBlock s c b))).erases + regFld s (rMed 0x18) 47 32 < topErase s))
      then reclaimNow s b else s
    | none => s

/-- Read the four pages of a unit for replay or a scrub: the reads are in flight until each page's ends (R133). -/
def scrubUnit (s : State) (l : Nat) : State :=
  readUnit { s with scrubs := s.scrubs ++ (List.range 4).map (fun i => 4 * l + i) } l

/-- Read every valid unit of a band for the read-disturb scrub (R135's table). -/
def scrubBand (s : State) (b : Nat) : State :=
  forEach (bandLive s b) s (fun s e =>
    scrubUnit s (bandLoc b + e.1))

/-- The refreshes and scrubs that waited for reclaim begin once the log is full no longer (R134). -/
def lateWork (s : State) : State :=
  if regBit s (rMed 8) 2 then s
  else forEach s.lateQ { s with lateQ := [] } (fun s e =>
    if e.2 then (if (closedBands s).contains e.1 && (bandOf s e.1).refresh then reclaimNow s e.1 else s) else scrubBand s e.1)

/-- What follows a change of the log: waiting units are written, reclaims go on, the free bands are counted and kept, wear is levelled,
and the refreshes and scrubs that waited begin. -/
def logStep (s : State) : State := lateWork (levelWear (keepReserve (countBands (reclaimStep (pumpLog s)))))

/-! The units of a publish and the decision logs (R124 to R126, R130). -/

/-- The units that the log writes of a publish consist of at a stage (R124): 1 the changed units, 2 the changed map frames, 3 the root
units of the new version. -/
def stageUnits (s : State) (p : Pub) (k : Nat) : List LogUnit :=
  let r := drRegion s p.draft
  let v := p.pred + 1
  let lo := draftName p.draft 0
  let us := (draftOwn s p.draft).map (fun u => u - lo)
  let mk := fun (t u : Nat) => ({ type := t, region := r, version := v, unit := u, draft := some p.draft } : LogUnit)
  let back := (s.verUnits.filter (fun e => e.1 == r && decide (drBase s p.draft < e.2.1) && decide (e.2.1 ≤ p.pred))).map (fun e => e.2.2)
  if k = 1 then (us.filter (fun u => !zeroUnit s ((lo + u) * 65536))).map (mk 1)
  else if k = 2 then ((us ++ back).map (fun u => u / 8192)).dedup.map (mk 2)
  else (List.range ((mapFrames s r + 8191) / 8192)).map (mk 3)

def setStage (s : State) (d k : Nat) : State :=
  { s with pubs := s.pubs.map (fun p => if p.draft == d then { p with stage := k } else p) }

/-- Write the units of a publish from stage `k` on: the first that has any. -/
def writeStage (s : State) (p : Pub) (k : Nat) : State :=
  match [1, 2, 3].find? (fun j => decide (k ≤ j) && !(stageUnits s p j).isEmpty) with
  | some j => forEach (stageUnits s p j) (setStage s p.draft j) (fun s u => logWrite s u none)
  | none => setStage s p.draft 3

/-- Is a unit of the publish of draft `d` being written or waiting for a place? -/
def writingUnits (s : State) (d : Nat) : Bool :=
  let mine := fun (u : LogUnit) => u.draft == some d
  s.progs.any (fun p => mine p.unit && p.src.isNone) || s.logQ.any (fun e => mine e.1 && e.2.isNone)

/-- A program of a unit of draft `d`'s publish has ended: the next stage begins when it was the last of its stage (R124). -/
def writeOn (s : State) (d : Nat) : State :=
  match s.pubs.find? (fun p => p.draft == d) with
  | some p => if decide (1 ≤ p.stage) && decide (p.stage ≤ 2) && !writingUnits s d then writeStage s p (p.stage + 1) else s
  | none => s

/-- Has a publish written all its units, and has every contribution of them been accepted (R154)? -/
def pubWritten (s : State) (p : Pub) : Bool :=
  p.stage == 3 && !writingUnits s p.draft
    && s.contribs.all (fun c => c.acc || c.cov || (match logUnitAt s c.loc with
      | some u => u.draft != some p.draft
      | none => true))

/-- The publish of draft `d` is decided (R128): the units that it wrote are version `v`'s of region `r`. -/
def adoptUnits (s : State) (d r v : Nat) : State :=
  let ren := fun (k : Nat) => unitName r v (k - draftName d 0)
  let own := fun (u : LogUnit) => if u.draft == some d then { u with draft := none } else u
  { s with
    locs := (s.locs.filter (fun e => ofDraft s d e.1)).foldl (fun m e => Sparse.ins m (ren e.1) e.2) (s.locs.filter (fun e => !ofDraft s d e.1))
    lost := (s.lost.filter (ofDraft s d)).foldl (fun m k => Sparse.add m (ren k)) (s.lost.filter (fun k => !ofDraft s d k))
    metaLocs := s.metaLocs.map (fun e => if e.1.version == metaVersion (some d) v then ({ e.1 with version := v }, e.2) else e)
    bands := s.bands.map (fun e => (e.1, { e.2 with units := e.2.units.map (fun x => (x.1, own x.2)) }))
    progs := s.progs.map (fun p => { p with unit := own p.unit })
    logQ := s.logQ.map (fun e => (own e.1, e.2)) }

/-- What the publish of draft `d` wrote has no locator any longer: its version was not made. -/
def dropDraftUnits (s : State) (d : Nat) : State :=
  { s with
    locs := s.locs.filter (fun e => !ofDraft s d e.1)
    lost := s.lost.filter (fun k => !ofDraft s d k)
    metaLocs := s.metaLocs.filter (fun e => e.1.version / 2 ^ 48 != d + 1) }

/-- Is a page of home `h`'s decision log being written? -/
def deciding (s : State) (h : Nat) : Bool :=
  s.progs.any (fun p => p.unit.type == 5 && p.unit.home == h && p.src.isNone) || s.logQ.any (fun e => e.1.type == 5 && e.1.home == h && e.2.isNone)

/-- Write home `h`'s next DECISION page (R126): the records that wait, packed, in two copies; one page at a time. -/
def decideNext (s : State) (h : Nat) : State :=
  let recs := (s.decQ.filter (fun e => e.1 == h)).map (fun e => e.2)
  if recs = [] ∨ deciding s h = true then s
  else
    let id := s.logSeq + 1
    let s := { s with decQ := s.decQ.filter (fun e => e.1 != h) }
    let u : LogUnit := { type := 5, unit := id, recs := recs, home := h }
    logWrite (logWrite s u none) { u with version := 1 } none

/-- Append a record to the decision log of the region's deciding home, home r mod 8 (R75, R125, R130). -/
def appendRecord (s : State) (r : Nat) (x : LogRec) : State := decideNext { s with decQ := s.decQ ++ [(r % 8, x)] } (r % 8)

/-- Drop the locators of the MAP and ROOT units that `p` names. -/
def dropMeta (s : State) (p : LogName → Bool) : State :=
  { s with metaLocs := s.metaLocs.filter (fun e => !((e.1.type == 2 || e.1.type == 3) && p e.1)) }

end Sys2Proof.Machine
end

