-- ==== Sys2Proof/Machine/SessOps.lean ====
section
/-! DEFINITION. Machine/SessOps.lean: outbound ZCT blocks, and what a session's blocks make of the answers to their lines
(chapter 13). -/

namespace Sys2Proof.Machine

/-! Outbound ZCT (R563, R567, R571). -/

def sess0 : Sess := ⟨[], [], [], 0, 0, 0, []⟩
def sessOf (s : State) (n : Nat) : Sess := Sparse.get s.sess n sess0
def putSess (s : State) (n : Nat) (x : Sess) : State :=
  regPut { s with sess := Sparse.set s.sess n sess0 x } (rSstat n) 40 32 x.out.length

/-- Is sequence number `a` before `b`, modulo 2^32? -/
def seqLt (a b : Nat) : Bool := decide ((b + 2 ^ 32 - a - 1) % 2 ^ 32 < 2 ^ 31)

/-- The ACK that the controller sends (R563, R570): the SEQ after the last one received in order, or the lowest WRITE whose lines
are not all served. -/
def zctAck (s : State) (n : Nat) : Nat :=
  match ((sessOf s n).pend.filter (fun p => p.kind == 1)).map (fun p => p.seq) with
  | q :: _ => q
  | [] => regFld s (rSstat n) 31 0

/-- The SACK bits that the controller sends (R563): bit i for block ACK + 1 + i, received in order with lines still unserved before it
or held beyond a gap. -/
def zctSack (s : State) (n : Nat) : Nat :=
  let got := fun (q : Nat) => seqLt q (regFld s (rSstat n) 31 0) || (sessOf s n).held.any (fun b => b.seq == q)
  (List.range 64).foldl (fun m i => if got ((zctAck s n + 1 + i) % 2 ^ 32) then m + 2 ^ i else m) 0

/-! CRC32C (Castagnoli, R563), bytes in the order in which they are sent. -/

/-- A byte more: the polynomial 0x1EDC6F41, bits reflected. -/
def crc32cByte (c b : Nat) : Nat :=
  (List.range 8).foldl (fun c _ => if c % 2 = 1 then c / 2 ^^^ 0x82F63B78 else c / 2) (c ^^^ b)

/-- The CRC32C of bytes. -/
def crc32c (bs : List Nat) : Nat := bs.foldl crc32cByte 0xFFFFFFFF ^^^ 0xFFFFFFFF

/-- The `n` bytes of a little-endian number. -/
def natBytes (n v : Nat) : List Nat := (List.range n).map (fun i => v / 256 ^ i % 256)

/-- The 64 bytes of a block header as one little-endian number (R563). -/
def zhdrNum (h : ZHdr) : Nat :=
  h.magic.toNat + h.kind.toNat * 2 ^ 16 + h.flags.toNat * 2 ^ 24 + h.session.toNat * 2 ^ 32 + h.lines.toNat * 2 ^ 48 + h.seq.toNat * 2 ^ 64
    + h.ack.toNat * 2 ^ 96 + h.sack.toNat * 2 ^ 128 + h.addr.toNat * 2 ^ 192 + h.ref.toNat * 2 ^ 256 + h.reason.toNat * 2 ^ 288
    + h.rsv.toNat * 2 ^ 296 + h.crc.toNat * 2 ^ 480

/-- The CRC of a block: over its header with CRC taken as zero, then its payload. -/
def zctCrc (h : ZHdr) (data : List LineData) : Nat :=
  crc32c (natBytes 64 (zhdrNum { h with crc := 0 }) ++ data.flatMap (fun d => natBytes 64 d.toNat))

/-- The header of a block as the controller sends it. -/
def zctHdr (s : State) (n : Nat) (b : ZBlk) : ZHdr :=
  let h : ZHdr :=
    { magic := 0x5A43, kind := BitVec.ofNat 8 b.kind, flags := 0, session := BitVec.ofNat 16 n, lines := BitVec.ofNat 16 b.data.length,
      seq := BitVec.ofNat 32 b.seq, ack := BitVec.ofNat 32 (zctAck s n), sack := BitVec.ofNat 64 (zctSack s n), addr := BitVec.ofNat 64 b.addr,
      ref := BitVec.ofNat 32 b.ref, reason := BitVec.ofNat 8 b.reason, rsv := 0, crc := 0 }
  { h with crc := BitVec.ofNat 32 (zctCrc h b.data) }

/-- What leads a block as the controller sends it: the far address and UDP port, the 802.1Q tag of the session's PFC priority and VLAN
(R558, R565), and its header. -/
def zctWords (s : State) (n : Nat) (b : ZBlk) : List Nat :=
  [(sessOf s n).far, regFld s (rSess n) 42 40 * 2 ^ 13 + regFld s (rSess n) 54 43, zhdrNum (zctHdr s n b)]

/-- The bytes of the frame of a block of `n` payload lines: Ethernet header and tag, IPv6, UDP, block header and FCS. -/
def zctBytes (n : Nat) : Nat := 134 + 64 * n

/-- A session's domain. -/
def sessDom (s : State) (n : Nat) : Nat := regFld s (rSess n) 62 55

/-- Put a block on port `p`; ETH_INJ KIND 2 drops it (R580). -/
def zctPut (s : State) (p n : Nat) (b : ZBlk) : State :=
  match takeInj s (rEth p 0x10) 2 (fun _ => true) with
  | some (_, t) => t
  | none =>
    let s := pmc (pmc s (202 + p) 1 1 none) (202 + p) 3 (zctBytes b.data.length) none
    send (pmc s (202 + p) 5 1 (some (sessDom s n))) (.zct (16 + p) n (zctWords s n b) b.data)

/-- The port for a session's blocks: that of its last valid block, or the other one when that is down (R571). -/
def zctPort (s : State) (n : Nat) : Option Nat :=
  let p := regFld s (rSstat n) 60 60
  if regBit s (rEth p 0) 0 then some p else if regBit s (rEth (1 - p) 0) 0 then some (1 - p) else none

/-- Emit a block on the session's port; it waits there while its priority is paused (R561). -/
def zctEmit (s : State) (n : Nat) (b : ZBlk) : State :=
  match zctPort s n with
  | none => s
  | some p =>
    if s.paused.contains (8 * p + regFld s (rSess n) 42 40) then { s with pfcQ := s.pfcQ ++ [(p, n, b)] } else zctPut s p n b

/-- Send a block on a session: it takes the next SEQ; beyond 256 unacknowledged it waits (R567). A session that is not
open sends nothing. -/
def zctSend (s : State) (n kind ref reason addr : Nat) (data : List LineData) : State :=
  if regFld s (rSstat n) 63 61 ≠ 1 ∧ regFld s (rSstat n) 63 61 ≠ 3 then s
  else
    let x := sessOf s n
    let q := (x.seq + 1) % 2 ^ 32
    let b : ZBlk := { kind := kind, seq := q, ref := ref, reason := reason, addr := addr, data := data }
    if x.out.length < 256 then zctEmit (putSess s n { x with seq := q, out := x.out ++ [b] }) n b
    else putSess s n { x with seq := q, wait := x.wait ++ [b] }

/-! Answers to a session's lines (R569, R570). -/

/-- The REASON of an ERR block for a code of a coherence Err (R563); 12 stands for a busy window (R570). -/
def zctReason (e : Nat) : Nat :=
  if e = 2 then 1 else if e = 8 then 4 else if e = 5 then 5 else if e = 11 then 7 else if e = 12 then 3 else 2

/-- The blocks that a served block sends: a READ is answered with DATA, and with ERR POISON when a line was poisoned; a refusal
is one ERR block that names the block refused (R563, R570). -/
def zctFinish (s : State) (n : Nat) (p : ZPend) : State :=
  match p.err with
  | some (e, a) => zctSend s n 6 p.seq e a []
  | none =>
    if p.kind = 2 then
      let ds := (List.range p.lines).map (fun i => Sparse.get p.data i 0)
      let s := zctSend s n 3 p.seq 0 p.addr ds
      if p.poison then zctSend s n 6 p.seq 5 p.addr [] else s
    else s

/-- One line of a session's block is served: `ok` brings its data and whether it is poisoned, `bad` the REASON of its refusal. -/
def zctServed (s : State) (n txn addr : Nat) (ok : LineData × Bool) (bad : Option Nat) : State :=
  let x := sessOf s n
  match x.pend.find? (fun p => p.seq % 4096 == txn) with
  | none => s
  | some p =>
    let i := (addr % 2 ^ 50 - p.addr % 2 ^ 50) / 64
    let p' := { p with
      served := p.served + 1
      data := if bad.isSome || p.kind != 2 then p.data else Sparse.set p.data i 0 (if ok.2 then 0 else ok.1)
      poison := p.poison || (ok.2 && bad.isNone)
      err := match p.err, bad with
        | some e, _ => some e
        | none, some b => some (b, addr)
        | none, none => none }
    if p'.served < p.lines then
      putSess s n { x with pend := x.pend.map (fun q => if q.seq == p.seq then p' else q) }
    else zctFinish (putSess s n { x with pend := x.pend.filter (fun q => q.seq != p.seq) }) n p'

/-! A line of output is the number of the command in the manual's table (0 stat to 12 enrol), 0 for OK or the reason of ERR, and the
values printed (assumption 25). -/

def tsText (s : State) (cmd res : Nat) (vals : List Nat) : State := send s (.text (cmd :: res :: vals))

def tsAddr : Nat := 1
def tsGrant : Nat := 2
def tsAccess : Nat := 3
def tsBusy : Nat := 4
def tsStrap : Nat := 5
def tsEnrolled : Nat := 6
/-- ERR with the Headstock CODE of a refused image. -/
def tsCode (c : Nat) : Nat := 16 + c

/-- ERR POISON (mrd). -/
def tsPoison : Nat := 7
/-- ERR for a refusal that the manual's table does not name (assumption 25). -/
def tsRefused : Nat := 8

/-- The reason that Tailstock gives for the code of an Err. -/
def tsReason (e : Nat) : Nat := if e = 1 then tsAddr else if e = 2 then tsGrant else if e = 5 then tsPoison else tsRefused

/-- A line of Tailstock's mrd or mwr is answered (R751, R753): a read line's data are printed, and the last answer ends the command
with OK or the first refusal. -/
def tsAnswer (s : State) (cmd : Nat) (due : List Nat) (err : Nat) (m : Msg) : State :=
  let bad := if m.op = 0x27 then tsReason m.err else if m.poison then tsPoison else 0
  let s := if cmd = 3 ∧ bad = 0 then tsText s 3 0 [m.addr, m.data.toNat] else s
  let e := if err ≠ 0 then err else bad
  if due.erase m.txn = [] then tsText { s with tsWait := none } cmd e []
  else { s with tsWait := some (cmd, due.erase m.txn, e) }

/-- A home's message leaves for fabric port `p`, to a host behind this controller or to a requester behind controller `src`; one for a port
that has gone DOWN is discarded and counted (R517). -/
def homeOut (s : State) (p src : Nat) (m : Msg) : State :=
  if p < 16 ∧ regFld s (rFab p 8) 3 0 = 7 then incCnt (incCnt s (rSw 0x30)) (rFab p 0x38)
  else fromAgent (send s (.coh m)) (18 + m.home % 8) (some p) (masterDom s m.dst) (msgBody (msgHdr s m src (masterDom s m.dst)) false 0 m.data)

/-- Send the answer to a request: one of a session ends a line of its block, every other is a message. A session is told of no
Defer: its port keeps the data of a deferred line. Tailstock's line is printed. The control complex waits for no answer. One for a host whose fabric port has gone DOWN is discarded and
counted (R517). -/
def answer (s : State) (m : Msg) : State :=
  match m.dst with
  | .session n =>
    if m.op = 0x24 then s
    else if m.op = 0x27 then zctServed s n.val m.txn m.addr (0, false) (some (zctReason m.err))
    else zctServed s n.val m.txn m.addr (m.data, m.poison) none
  | .mgmt =>
    (match s.tsWait with
     | some (cmd, due, err) =>
       if due.contains m.txn then (if m.op = 0x24 then s else tsAnswer s cmd due err m) else send s (.coh m)
     | none => send s (.coh m))
  | .control =>
    if m.op = 0x27 then { s with sweeps := s.sweeps.map (fun e => if m.txn = 2048 + e.host then { e with ovf := true } else e) } else s
  | .host n =>
    let p := regFld s (rCohHost n.val) 15 8
    homeOut s p (ownCtrl s) m
  | .peer p _ => homeOut s p.val (regFld s (rFab p.val 0) 61 52) m
  | _ => send s (.coh m)

end Sys2Proof.Machine
end

