-- ==== Sys2Proof/Machine/WindowOps.lean ====
section
/-! DEFINITION. Machine/WindowOps.lean: writes into command windows, the command header and the completion record (chapters
08 and 13). -/

namespace Sys2Proof.Machine

/-- R572: a line that arrived in mailbox `w` goes to the sessions that forward it. -/
def zctForward (s : State) (w off : Nat) (d : LineData) : State :=
  forEach ((List.range 256).filter (fun n => regBit s (rSess n) 63 && regBit s (rSess n) 39 && regFld s (rSess n) 38 29 == w)) s
    (fun s n => zctSend s n 4 0 0 (globalAddr s off) [d])

/-! Command windows (R358 to R364). -/

def win0 : Win := ⟨[], none, [], false, 0⟩
def winOf (s : State) (w : Nat) : Win := Sparse.get s.wins w win0
def putWin (s : State) (w : Nat) (x : Win) : State := { s with wins := Sparse.set s.wins w win0 x }
/-- WIN_STAT_w.STATE. -/
def winState (s : State) (w : Nat) : Nat := regFld s (rWinStat w) 2 0
def setWinState (s : State) (w v : Nat) : State := regPut s (rWinStat w) 2 0 v
/-- WIN_STAT_w.MODE is MAILBOX. -/
def mailbox (s : State) (w : Nat) : Bool := regBit s (rWinStat w) 3

/-- Arm a window (R177): its counter is zero, no line is marked arrived, and in COMMAND mode it is READY; LEN is 0 until a line 0
arrives (R380). -/
def armWindow (s : State) (w : Nat) : State :=
  setWinState (regPut (setCounter (putWin s w win0) (winCtr w) 0) (rWinStat w) 31 21 0) w 0

/-- `n` bytes at byte `a` of the command in window `w`. -/
def hdr (s : State) (w a n : Nat) : Nat := s.readN (winOff w a) n

/-- The outcome of a write to a window: whether it was refused as busy (R362). -/
def windowWrite (s : State) (w x dom : Nat) (d : LineData) : Bool × State :=
  let off := winOff w (x / 64 * 64)
  let i := x / 64
  let st := winState s w
  let rec1 := winOf s w
  if !mailbox s w && (rec1.ready || (st != 0 && st != 1 && st != 7)) then
    (true, logErr (setBit s rLdrErr 3) { cls := 0, code := 3, kind := 13, dom := dom, action := 1, addr := globalAddr s off, win := w })
  else
    let s := clrPoison (s.putLine off d) off
    if st == 7 && !mailbox s w then (false, s)
    else if rec1.arrived.contains i then (false, s)
    else
      let s := pmc s (176 + winHome w) 10 1 (some dom)
      let s := setCounter s (winCtr w) (counter s (winCtr w) + 1)
      let rec2 := { rec1 with
        arrived := Sparse.add rec1.arrived i
        dom0 := if i = 0 then some dom else rec1.dom0
        doms := Sparse.add rec1.doms dom }
      let s := putWin s w rec2
      if mailbox s w then (false, zctForward s w off d)
      else
        let s := setWinState s w 1
        if i = 0 then
          (false, regPut (regPut s (rWinStat w) 31 21 (lineFld d 0 2)) (rWinStat w) 63 32 (lineFld d 4 4))
        else (false, s)

/-- What the completion of window `w`'s command says when a cold reset has closed the window under it (R360). -/
def keptOf (s : State) (w : Nat) : Option KeptCpl := (s.keptCpl.find? (fun e => e.1 == w)).map (fun e => e.2)

/-- The domain of the command in a window: that of the access that wrote its line 0 (R645). -/
def winDom (s : State) (w : Nat) : Nat :=
  match keptOf s w with
  | some c => c.dom
  | none => ((winOf s w).dom0).getD 0

/-- The sequence number of the command in a window. -/
def winSeq (s : State) (w : Nat) : Nat :=
  match keptOf s w with
  | some c => c.seq
  | none => regFld s (rWinStat w) 63 32

/-- A kernel's step moves its window on, unless a cold reset has closed the window (R360). -/
def moveWindow (s : State) (w v : Nat) : State := if (keptOf s w).isSome then s else setWinState s w v

/-! Completion (R363, R373, R375). -/

/-- What a completion record says beside the command's own header. -/
structure Cpl where
  status : Nat
  detail : Nat := 0
  replays : Nat := 0
  engine : Nat := 0
  addr : Nat := 0
  v0 : Nat := 0
  v1 : Nat := 0
  v2 : Nat := 0
  v3 : Nat := 0
  deriving DecidableEq, Repr

/-- The 64 B completion record. -/
def cplLine (seq w op : Nat) (c : Cpl) : LineData :=
  lineOfWords [BitVec.ofNat 64 (seq % 2 ^ 32 + w % 65536 * 2 ^ 32 + op % 256 * 2 ^ 48 + c.status % 256 * 2 ^ 56),
    BitVec.ofNat 64 (c.detail % 256 + c.replays % 256 * 2 ^ 8 + c.engine % 65536 * 2 ^ 16),
    BitVec.ofNat 64 c.addr, BitVec.ofNat 64 c.v0, BitVec.ofNat 64 c.v1, BitVec.ofNat 64 c.v2, BitVec.ofNat 64 c.v3, 0]

/-- A counted write of a line at a slice offset of this controller: `none` when no armed counted area of domain `dom`'s
grants holds it. -/
def countedLine (s : State) (dom off : Nat) (d : LineData) : Option State :=
  match target off with
  | .window w x =>
    if mailbox s w && permitWindow s dom w true then some (windowWrite s w x dom d).2
    else if !mailbox s w && winState s w != 7 && permitWindow s dom w true then
      (match windowWrite s w x dom d with
       | (true, _) => none
       | (false, t) => some t)
    else none
  | .chuck l x =>
    match (if (replicaAt s l x).isSome then none else areaAt s off) with
    | some a => if a.armed && permitChuck s dom l true then some (countedWrite s a off dom d) else none
    | none => none
  | _ => none

/-- An event of the plan loader: LDR_ERR bit `b` and its entry in the ENGINE class (R587). -/
def ldrEvent (s : State) (b action dom addr : Nat) : State :=
  logErr (setBit s rLdrErr b) { cls := 6, code := b, kind := 13, dom := dom, action := action, addr := addr }

/-- Can a line at offset `off` of another controller's slice lie in an armed counted area (R176)? -/
def counterPlace (off : Nat) : Bool :=
  match target off with
  | .window _ _ => true
  | .chuck _ x => decide (x < 6 * 2 ^ 20)
  | _ => false

/-- Write the completion record of window `w`'s command at CPL_ADDR, or flag BADCPL (R375). A record for another controller goes
out when its line can lie in a counted area there and a port to it is ACTIVE; an Err that answers it sets BADCPL as well. -/
def writeCpl (s : State) (dom cpl : Nat) (line : LineData) : State :=
  if cpl = 0 then s
  else match (if cpl % 64 = 0 then route s cpl else .fault) with
    | .own off =>
      match countedLine s dom off line with
      | some t => t
      | none => ldrEvent s 5 0 dom cpl
    | .peer slot off =>
      let c := regFld s rAddrSelf 9 4 * 16 + slot
      if counterPlace off && peerUp s c then sendReq s 41 6 c cpl dom (.cpl dom) [6] 0 line else ldrEvent s 5 0 dom cpl
    | .gateway c off => if counterPlace off && uplinkUp s then sendReq s 41 6 c cpl dom (.cpl dom) [6] 0 line else ldrEvent s 5 0 dom cpl
    | .fault => ldrEvent s 5 0 dom cpl

/-- Complete the command of window `w`: the window is re-armed first (R363), then the record is written. Number 1,024 stands for a
command that a cold reset has discarded (R382): it has no completion. A window that a cold reset closed while the command ran is armed
already, or will be when its home agent is ready. -/
def complete (s : State) (w : Nat) (c : Cpl) : State :=
  if 1024 ≤ w then s else
  match keptOf s w with
  | some x => writeCpl { s with keptCpl := s.keptCpl.filter (fun e => e.1 != w) } x.dom x.cpl (cplLine x.seq w x.op c)
  | none =>
  let line := cplLine (hdr s w 4 4) w (hdr s w 2 1) c
  let cpl := hdr s w 28 8
  let dom := winDom s w
  writeCpl (armWindow s w) dom cpl line

/-- The loader refuses the command of window `w`: counted, flagged and logged (R373, R587, R705), by the bit `b` of LDR_ERR that
names the cause. -/
def countRefusalBy (s : State) (w b : Nat) : State :=
  pmc (incCnt (setBit (ldrEvent s b 1 (winDom s w) 0) rLdrErr 0) rLdrRefuse) 206 7 1 (some (winDom s w))
def countRefusal (s : State) (w : Nat) : State := countRefusalBy s w 0

/-- Complete with REFUSED (R373). -/
def refuse (s : State) (w reason : Nat) : State :=
  complete (countRefusal s w) w { status := 2, detail := reason }

/-- Refuse a command that failed the count check (R361). -/
def refuseLen (s : State) (w : Nat) : State := complete (countRefusalBy s w 1) w { status := 2, detail := 1 }

end Sys2Proof.Machine
end

