-- ==== Sys2Proof/Machine/HomeOps.lean ====
section
/-! DEFINITION. Machine/HomeOps.lean: the home agent: the snoop filter and directory, the line store, the tracker, the
transition table, fences and poison (chapter 05). -/

namespace Sys2Proof.Machine

/-! Directory and snoop filter (R235 to R239). -/

/-- The hosts that a coarse group vector names (R237). -/
def expandGroups (g : Nat) : BitVec 64 :=
  BitVec.ofNat 64 ((List.range 16).foldl (fun acc i => if g.testBit i then acc + 15 * 2 ^ (4 * i) else acc) 0)

/-- The groups of a sharer vector (R235). -/
def groupsOf (v : BitVec 64) : Nat :=
  (List.range 16).foldl (fun acc i => if v.toNat / 2 ^ (4 * i) % 16 ≠ 0 then acc + 2 ^ i else acc) 0

/-- The hosts of a vector, rising. -/
def hostsOf (v : BitVec 64) : List Nat := (List.range 64).filter (fun n => v.toNat.testBit n)

/-- The vector of one host. -/
def oneHost (n : Nat) : BitVec 64 := BitVec.ofNat 64 (2 ^ n)

/-- A vector without a host, and with a host. -/
def vecDel (v : BitVec 64) (n : Nat) : BitVec 64 := v &&& ~~~(oneHost n)
def vecAdd (v : BitVec 64) (n : Nat) : BitVec 64 := v ||| oneHost n

/-- The code of a line state (R235). -/
def LState.code (st : LState) : Nat :=
  match st with
  | .I => 0 | .S => 1 | .E => 2 | .M => 3 | .O => 4

/-- The line state of a code; reserved codes are never written. -/
def LState.ofCode (c : Nat) : LState :=
  if c = 1 then .S else if c = 2 then .E else if c = 3 then .M else if c = 4 then .O else .I

/-- A directory entry from a state and a sharer vector (R235, R238): one host exactly, more as groups. -/
def dirEncode (st : LState) (v : BitVec 64) : BitVec 32 :=
  match st with
  | .I => 0
  | _ =>
    match hostsOf v with
    | [n] => BitVec.ofNat 32 (st.code * 2 ^ 29 + n * 2 ^ 21)
    | _ => BitVec.ofNat 32 (st.code * 2 ^ 29 + 2 ^ 27 + groupsOf v)

/-- A state and a sharer vector from a directory entry (R237). -/
def dirDecode (w : BitVec 32) : LState × BitVec 64 :=
  let st := LState.ofCode (bits w.toNat 31 29)
  match st with
  | .I => (.I, 0)
  | _ => if w.toNat.testBit 27 then (st, expandGroups (bits w.toNat 15 0)) else (st, oneHost (bits w.toNat 26 21))

/-- The record of a line: from the filter, or on a miss from the directory (R237). -/
def lineRec (s : State) (off : Nat) : LState × BitVec 64 :=
  match s.filt.find? (fun e => e.line == off / 64) with
  | some e => (e.st, e.vec)
  | none => dirDecode (Sparse.get s.dir (off / 64) 0)

/-- The 32-bit directory entry of a line as the metadata holds it, its POISON bit included (R235). -/
def dirEntry (s : State) (off : Nat) : BitVec 32 :=
  let w := Sparse.get s.dir (off / 64) 0
  match backing s off with
  | some k => if poisoned s k then w ||| 0x10000000 else w
  | none => w

/-- Write a filter entry back to the directory and drop it (R238). -/
def filtDrop (s : State) (e : FEntry) : State :=
  { s with filt := s.filt.erase e, dir := Sparse.set s.dir e.line 0 (dirEncode e.st e.vec) }

/-- The current bytes of a line of the stacks. -/
def stackLine (s : State) (off : Nat) : LineData :=
  match backing s off with
  | some k => s.readLine k
  | none => 0

/-- Write a line to the stack and to its cover. -/
def putStack (s : State) (off : Nat) (d : LineData) : State :=
  match backing s off with
  | none => s
  | some k => coverSend (s.putLine k d) off (s.readLine k) d

/-- The store's entry of a line. -/
def storeFind (s : State) (off : Nat) : Option LineData :=
  (s.store.find? (fun e => e.line == off / 64)).map (fun e => e.data)

/-- Free the store's entry of a line. -/
def storeFree (s : State) (off : Nat) : State :=
  { s with store := s.store.filter (fun e => e.line != off / 64) }

/-- Set the record of a line in place. -/
def recPut (s : State) (line : Nat) (st : LState) (v : BitVec 64) : State :=
  { s with filt := s.filt.map (fun e => if e.line == line then ⟨line, st, v⟩ else e) }

/-- Write the stored line `e` to the stack; it goes to S and keeps its sharers (R217). -/
def storeEvict (s : State) (e : StoreEnt) : State :=
  let s := putStack { s with store := s.store.erase e } (e.line * 64) e.data
  let (st, v) := lineRec s (e.line * 64)
  match st with
  | .O => recPut { s with dir := if s.filt.any (fun f => f.line == e.line) then s.dir else Sparse.set s.dir e.line 0 (dirEncode .S v) } e.line .S v
  | _ => s

/-- The next victim of clock replacement among a home's stored lines (R217): the first entry from the hand whose
reference bit is clear; the entries passed over lose theirs and go behind the hand. -/
def clockStep (s : State) (h : Nat) : State :=
  let mine := s.store.filter (fun e => homeOf (e.line * 64) == h)
  let rest := s.store.filter (fun e => homeOf (e.line * 64) != h)
  let k := (mine.findIdx? (fun e => !e.ref)).getD 0
  match mine[k]? with
  | none => s
  | some e =>
    let passed := (mine.take k).map (fun x => { x with ref := false })
    let tail := if mine.any (fun x => !x.ref) then mine.drop (k + 1) else (mine.drop (k + 1)).map (fun x => { x with ref := false })
    storeEvict { s with store := rest ++ [e] ++ tail ++ passed } e

/-- Put a line into its home's store of 65,536 lines, evicting one when it is full (R203, R218). -/
def storePut (s : State) (off : Nat) (d : LineData) : State :=
  let h := homeOf off
  let s := storeFree s off
  let s := if 65536 ≤ (s.store.filter (fun e => homeOf (e.line * 64) == h)).length then clockStep s h else s
  { s with store := s.store ++ [⟨off / 64, d, false⟩] }

/-- Mark a stored line as used by clock replacement. -/
def storeTouch (s : State) (off : Nat) : State :=
  { s with store := s.store.map (fun e => if e.line == off / 64 then { e with ref := true } else e) }

/-- Make room in a full set of a home's filter (R236, R238): the least recently used entry not in O leaves; when all are in
O, the store first evicts the oldest of them. -/
def filtRoom (s : State) (off : Nat) : State :=
  let h := homeOf off
  let mine := s.filt.filter (fun e => homeOf (e.line * 64) == h)
  if mine.length < 17 then s
  else
    let set := mine.filter (fun e => Config.filterSet e.line % 8192 == Config.filterSet (off / 64) % 8192)
    if set.length < 17 then s
    else
      let old := set.reverse.filter (fun e => e.line != off / 64)
      match old.find? (fun e => e.st != .O) with
      | some e => filtDrop s e
      | none =>
        match s.store.find? (fun x => old.any (fun e => e.line == x.line)) with
        | none => s
        | some x =>
          let s := storeEvict s x
          match s.filt.find? (fun e => e.line == x.line) with
          | some e => filtDrop s e
          | none => s

/-- Set the record of a line: a line in I holds no entry (R236). -/
def setRec (s : State) (off : Nat) (st : LState) (v : BitVec 64) : State :=
  let line := off / 64
  let s := { s with filt := s.filt.filter (fun e => e.line != line) }
  match st with
  | .I => { s with dir := Sparse.set s.dir line 0 0 }
  | _ => filtRoom { s with filt := ⟨line, st, v⟩ :: s.filt } off

/-- The bytes of a line as the home serves them: from the store in O, else from the stack. -/
def curLine (s : State) (off : Nat) : LineData := (storeFind s off).getD (stackLine s off)

/-! Hosts, fences and poison (R242 to R248). -/

/-- COH_HOST_n.VALID. -/
def hostValid (s : State) (n : Nat) : Bool := regBit s (rCohHost n) 0
/-- COH_HOST_n.FENCED. -/
def fenced (s : State) (n : Nat) : Bool := regBit s (rCohHost n) 1
/-- The host's fabric port is ACTIVE or retraining, so that a snoop can be delivered (R243). -/
def hostPortUp (s : State) (n : Nat) : Bool :=
  let st := regFld s (rFab (regFld s (rCohHost n) 15 8 % 16) 8) 3 0
  st == 5 || st == 6

/-- COH_CFG.MODE is blocking (R230). -/
def blocking (s : State) : Bool := regBit s rCohCfg 0

/-- Are copies of the line, as a draft that is gone had it, still being invalidated (R77)? -/
def dropping (s : State) (off : Nat) : Bool :=
  s.recallq.any (fun q => q.drop && q.line == off / 64)
    || s.trk.any (fun t => t.req.op == .recall && t.req.mask != 0 && t.req.off / 64 == off / 64)

/-- Poison a line (R246, R247): flagged, counted and logged. The line of a draft that is gone has no bytes to poison, and its slot's
next user reads its own base version (R77). -/
def poisonLine (s : State) (off : Nat) : State :=
  if dropping s off then s
  else match backing s off with
  | none => s
  | some k => haEvent (setPoison s k) (homeOf off) 1 (some 0x20) (globalAddr s off) 0

/-- Is a line poisoned? A unit whose locator reads LOST reads as poison (R140). -/
def isPoisoned (s : State) (off : Nat) : Bool :=
  match backing s off, regionOf s off with
  | some k, some r => poisonedAt s r k
  | some k, none => poisoned s k
  | _, _ => false

/-- Clear a line's poison. -/
def clearPoison (s : State) (off : Nat) : State :=
  match backing s off with
  | none => s
  | some k => clrPoison s k

/-- Apply R246 to a line: a fenced E or M holder poisons it, a fenced sharer leaves its record. -/
def touchLine (s : State) (off : Nat) : State :=
  let (st, v) := lineRec s off
  let bad := (hostsOf v).filter (fun n => fenced s n)
  if bad = [] then s
  else match st with
    | .E => setRec (poisonLine s off) off .I 0
    | .M => setRec (poisonLine s off) off .I 0
    | .S =>
      let v' := bad.foldl vecDel v
      setRec s off (if v' = 0 then .I else .S) v'
    | .O => setRec s off .O (bad.foldl vecDel v)
    | .I => s

/-- A timer for a host expires at home `h`: flagged and counted (R244). -/
def timerEnds (s : State) (h : Nat) : State :=
  incCnt (setBit (setBit s (rHome h 8) 0) (rHome h 8) 3) (rHome h 0x18)

/-- The ERR codes (message header fields of chapter 05). -/
def errAddr : Nat := 1
def errGrant : Nat := 2
def errNoncoh : Nat := 3
def errFenced : Nat := 4
def errPoison : Nat := 5
def errQuota : Nat := 6
def errCapacity : Nat := 7
def errFlushed : Nat := 8
def errProto : Nat := 9
def errStale : Nat := 10
def errTether : Nat := 11

/-- A message that answers a request. -/
def reply (s : State) (r : Req) (op : Nat) (act : Bool) : Msg :=
  { op := op, txn := r.txn.toNat, dst := r.src, home := homeOf r.off, addr := globalAddr s r.off, act := act }

/-- Answer a request with Err. -/
def sendErr (s : State) (r : Req) (e : Nat) (act : Bool := false) : State :=
  answer s { reply s r 0x27 act with err := e }

/-- Fence a host (R244): the sticky bit, the flags and the log; every timer for it expires, each flagged and counted at its own home
(assumption 162), so its answers are no longer awaited, the Fetches and grants that wait for it are dropped (R228), and its
deferred requests go and those that wait in a queue (R231) are refused (R245). -/
def fenceHost (s : State) (h n : Nat) (addr : Nat) : State :=
  if fenced s n then s
  else
    let s := setBit s (rCohHost n) 1
    let s := haEvent (timerEnds s h) h 3 none addr n
    let s := forEach (s.trk.filter (fun t => t.wait.contains n && !(t.home == h && globalAddr s t.req.off == addr))) s
      (fun s t => timerEnds s t.home)
    let mine := fun (r : Req) => decide (r.src = Master.host (Fin.ofNat 64 n))
    let queued := s.blockq.filter (fun p => mine p.2)
    forEach queued { s with
      trk := (s.trk.filter (fun t => !(mine t.req && (t.phase == .fetch || t.phase == .cmpAck)))).map
        (fun t => { t with wait := t.wait.filter (fun x => x != n) })
      retry := s.retry.filter (fun p => !mine p.2)
      blockq := s.blockq.filter (fun p => !mine p.2) } (fun s p => sendErr s p.2 errFenced)

/-- Is a line busy (R220)? A line of a freed draft is, until its old copies are gone (R77). -/
def busy (s : State) (off : Nat) : Bool :=
  s.trk.any (fun t => t.req.off / 64 == off / 64) || s.recallq.any (fun q => q.drop && q.line == off / 64)

/-- Does a transaction on the line keep the home from invalidating it for itself? One that is held for a kernel's end (R171) or
waits for its unit (R61) does not: it has not been served. -/
def lineActive (s : State) (off : Nat) : Bool :=
  s.trk.any (fun t => t.req.off / 64 == off / 64 && (match t.phase with
    | .held _ => false
    | .unit => false
    | _ => true))

/-- The tracker entries of a home in use (R219). -/
def trkUsed (s : State) (h : Nat) : Nat := (s.trk.filter (fun t => t.home == h)).length

/-- The tracker entries of a home that plain and activated requests use (R219). -/
def trkPlain (s : State) (h : Nat) : Nat := (s.trk.filter (fun t => t.home == h && !t.act)).length
def trkReserved (s : State) (h : Nat) : Nat := (s.trk.filter (fun t => t.home == h && t.act)).length

/-- Is a tracker entry of home `h` free that is not reserved for activated requests (R219)? -/
def trkRoom (s : State) (h : Nat) : Bool := decide (trkPlain s h < 1792)

/-! Messages. -/

/-- Answer a request with Cmp. -/
def sendCmp (s : State) (r : Req) (act : Bool) : State := answer s (reply s r 0x26 act)

/-- Answer a request with data and the state granted. -/
def sendData (s : State) (r : Req) (act : Bool) (st : LState) (d : LineData) (poison : Bool) : State :=
  answer s { reply s r 0x31 act with state := st.code, data := d, poison := poison }

/-- Answer an Upgr with ownership alone. -/
def sendNoData (s : State) (r : Req) (act : Bool) (st : LState) : State :=
  answer s { reply s r 0x28 act with state := st.code }

/-- A protocol error at a home (R205, R211, R220). -/
def protoErr (s : State) (h addr : Nat) : State := haEvent s h 2 (some 0x28) addr 0

/-! Serving requests. -/

/-- The number of the requester when it is a host. -/
def hostNo (m : Master) : Option Nat :=
  match m with
  | .host n => some n.val
  | _ => none

/-- A vector without the requester. -/
def others (v : BitVec 64) (m : Master) : BitVec 64 :=
  match hostNo m with
  | some n => vecDel v n
  | none => v

/-- The snoops a request calls for in a line state (R212): the hosts to snoop, and whether with SnpInv. -/
def snoopPlan (op : ReqOp) (st : LState) (v : BitVec 64) (m : Master) : BitVec 64 × Bool :=
  match op, st with
  | .rds, .E => (v, false)
  | .rds, .M => (v, false)
  | .rdnc, .E => (v, false)
  | .rdnc, .M => (v, false)
  | .rde, .S => (others v m, true)
  | .rde, .O => (others v m, true)
  | .rde, .E => (v, true)
  | .rde, .M => (v, true)
  | .upgr, .S => (others v m, true)
  | .upgr, .O => (others v m, true)
  | .upgr, .E => (v, true)
  | .upgr, .M => (v, true)
  | .wrnc, .I => (0, false)
  | .wrnc, _ => (v, true)
  | .wrline, .I => (0, false)
  | .recall, .I => (0, false)
  | .recall, _ => (v, true)
  | .wrline, _ => (v, true)
  | _, _ => (0, false)

/-- Send a snoop to each host of a list; one that cannot be delivered counts as timed out at once (R243). A fenced host
gets no snoop (R245). The hosts that owe an answer come back. -/
def sendSnoops (s : State) (off : Nat) (txn : Nat) (inv : Bool) (hosts : List Nat) : List Nat × State :=
  match hosts with
  | [] => ([], s)
  | n :: rest =>
    if fenced s n then sendSnoops s off txn inv rest
    else if hostPortUp s n then
      let s := homeOut s (regFld s (rCohHost n) 15 8) (ownCtrl s) { op := if inv then 0x11 else 0x10, txn := txn, dst := .host (Fin.ofNat 64 n), home := homeOf off, addr := globalAddr s off }
      let (w, s) := sendSnoops s off txn inv rest
      (n :: w, s)
    else
      let s := haEvent s (homeOf off) 6 none (globalAddr s off) n
      sendSnoops (fenceHost s (homeOf off) n (globalAddr s off)) off txn inv rest

/-- The domain that an event of a request carries (R706): the home's own requests serve none. -/
def reqDom (s : State) (r : Req) : Option Nat :=
  match r.src with
  | .control => none
  | m => some (masterDom s m)

/-- Count an event of the home of a byte (R705). -/
def homeCount (s : State) (off i : Nat) (dom : Option Nat) : State := pmc s (176 + homeOf off) i 1 dom

/-- Enter a transaction into the tracker with its snoops sent. -/
def startTxn (s : State) (r : Req) (act : Bool) (targets : BitVec 64) (inv : Bool) (ue : Option Bool) : State :=
  let (w, s) := sendSnoops s r.off r.txn.toNat inv (hostsOf targets)
  let s := pmc s (176 + homeOf r.off) 6 w.length (reqDom s r)
  { s with trk := s.trk ++ [⟨homeOf r.off, r, act, .snoop, w, inv, none, false, ue⟩] }

/-- The VALID hosts, as a vector (R240, R241). -/
def validHosts (s : State) : BitVec 64 :=
  BitVec.ofNat 64 ((List.range 64).foldl (fun acc n => if hostValid s n then acc + 2 ^ n else acc) 0)

/-- The kernel that shadows a line's frame (R170). -/
def shadowOf (s : State) (off : Nat) : Option Shadow := s.shadows.find? (fun x => x.unit == off / 65536)

/-- Is the request a write or a demand for ownership? -/
def ReqOp.writes (op : ReqOp) : Bool :=
  match op with
  | .rde => true
  | .upgr => true
  | .wrnc => true
  | .wrline => true
  | _ => false

/-- A write mask that covers the whole line. -/
def fullMask (r : Req) : Bool := r.op == .wrline || (r.op == .wrnc && r.mask == BitVec.ofNat 64 (2 ^ 64 - 1))

/-- The tether region entries that are in use and name a region (R629). -/
def isTether (s : State) (r : Nat) : Bool :=
  (List.range 16).any (fun t => regBit s (rTether t) 63 && regFld s (rTether t) 49 36 == r)

/-- Does R631 accept a write of record `w` over record `old` by a master of domain `d`? -/
def tetherOk (s : State) (r d : Nat) (m : Master) (old w : LineData) : Bool :=
  let re := lineFld old 0 6
  let we := lineFld w 0 6
  let rh := lineFld old 6 2
  let orphan := (lineFld old 26 1).testBit 0
  let holderDom := rh / 256
  let zero : Bool := match m with
    | .control => true
    | .mgmt => true
    | _ => d == 0
  let holder := rh != 0xFFFF && d == holderDom
  (holder && we == re && lineFld w 6 2 == rh && !orphan)
    || (holder && !orphan && we == re + 1)
    || (zero && we == re + 1)
    || (re == 0 && we == 1 && permitRegion s d r true)

/-- Refuse a tether write (R632). -/
def tetherRefuse (s : State) (d addr : Nat) : State :=
  logErr (incCnt (setBit s (rRecov 0x18) 8) (rRecov 0x80)) { cls := 9, code := 8, dom := d, action := 1, addr := addr }

/-- Enter the wait for a CmpAck after a grant to a host in blocking mode (R230). -/
def awaitAck (s : State) (r : Req) (act : Bool) : State :=
  match hostNo r.src with
  | some n =>
    if blocking s then { s with trk := s.trk ++ [⟨homeOf r.off, r, act, .cmpAck, [n], false, none, false, none⟩] } else s
  | none => s

/-- End a write: with a cover, Cmp waits for the peer (R98, R104). A write whose fold no port can carry is answered as the fold is, with
Err FLUSHED (R518, assumption 218). -/
def endWrite (s : State) (r : Req) (act : Bool) : State :=
  if foldLost s r.off then sendErr s r errFlushed act
  else if covered s r.off then { s with trk := s.trk ++ [⟨homeOf r.off, r, act, .cover, [], false, none, false, none⟩] }
  else sendCmp s r act

/-- Take dirty data that SnpData brought: to the store in O with the holder as sharer; in blocking mode to the stack,
and S (R232). -/
def takeDirty (s : State) (off : Nat) (v : BitVec 64) (d : LineData) : State :=
  if blocking s then setRec (putStack s off d) off .S v
  else setRec (storePut s off d) off .O v

/-- Does a draft accept writes at the line (R759)? A line outside the draft range does. -/
def draftOpen (s : State) (off : Nat) : Bool :=
  decide (off < 2 ^ 48) || (match draftAt s off with
    | some (d, _) => drState s d == 1
    | none => false)

/-- A stored line that is poisoned keeps its sharers in S (R202): its store entry is freed. -/
def poisonShared (s : State) (off : Nat) : State :=
  let (st, v) := lineRec s off
  let s := poisonLine s off
  match st with
  | .O => setRec (storeFree s off) off .S v
  | _ => s

/-- Serve RdS once the line holds no dirty copy at a host. HA_INJ KIND 5 poisons the line first (R253). A line of a draft that
accepts no writes is granted in S (R759). -/
def grantRead (s : State) (r : Req) (act : Bool) : State :=
  let s := match takeInj s (rHome (homeOf r.off) 0x10) 5 (fun _ => true) with
    | some (_, t) => poisonShared t r.off
    | none => s
  let (st, v) := lineRec s r.off
  let p := isPoisoned s r.off
  let s := storeTouch s r.off
  let d := if p then 0 else curLine s r.off
  match hostNo r.src with
  | none => sendData s r act .I d p
  | some n =>
    let only : Bool := match st with
      | .I => !p && (shadowOf s r.off).isNone && (backing s r.off == some r.off) && draftOpen s r.off
      | _ => false
    let st' := match st with
      | .O => LState.O
      | _ => if only then LState.E else LState.S
    let s := setRec s r.off st' (vecAdd (match st with | .I => 0 | _ => v) n)
    awaitAck (sendData s r act (if only then .E else .S) d p) r act

/-- Serve RdE, or an Upgr whose requester is no sharer, once every other copy is gone; `got` is the dirty data of the
holder. -/
def grantOwn (s : State) (r : Req) (act : Bool) (noData : Bool) (got : Option LineData) : State :=
  match hostNo r.src with
  | none => s
  | some n =>
    let stored := storeFind s r.off
    let dirty := match got with
      | some d => some d
      | none => stored
    let blk := blocking s
    let s := storeFree s r.off
    let (st, s) := match dirty with
      | some d => if blk then (LState.E, putStack s r.off d) else (LState.M, s)
      | none => (LState.E, s)
    let d := match dirty with
      | some x => x
      | none => stackLine s r.off
    let s := setRec s r.off st (oneHost n)
    awaitAck (if noData then sendNoData s r act st else sendData s r act st d false) r act

/-- Serve WrNC or WrLine once every copy is gone (R212, R247); `got` is the dirty data of the holder. A tether region
accepts only the writes of R631. -/
def doWrite (s : State) (r : Req) (act : Bool) (got : Option LineData) : State :=
  let old := match got with
    | some d => d
    | none => curLine s r.off
  let new := if r.op == .wrline then r.data else mergeLine old r.data r.mask
  let dom := masterDom s r.src
  let teth : Bool := match regionOf s r.off with
    | some rg => isTether s rg && !tetherOk s rg dom r.src old new
    | none => false
  if teth then sendErr (tetherRefuse s dom (globalAddr s r.off)) r errTether act
  else
    let s := storeFree s r.off
    let s := if fullMask r then clearPoison s r.off else s
    let s := setRec (putStack s r.off new) r.off .I 0
    endWrite s r act

/-- Serve a request whose snoops are answered: `t` has left the tracker. -/
def finishServe (s : State) (t : Txn) : State :=
  let r := t.req
  let s := match r.op with
    | .rds => homeCount s r.off 0 (reqDom s r)
    | .rdnc => homeCount s r.off 0 (reqDom s r)
    | .rde => homeCount s r.off 0 (reqDom s r)
    | .wrnc => homeCount s r.off 1 (reqDom s r)
    | .wrline => homeCount s r.off 1 (reqDom s r)
    | _ => s
  let (st, v) := lineRec s r.off
  match r.op with
  | .rds =>
    (match st, t.got with
     | .E, some d => grantRead (takeDirty s r.off v d) r t.act
     | .M, some d => grantRead (takeDirty s r.off v d) r t.act
     | .E, none => grantRead (setRec s r.off .S v) r t.act
     | _, _ => grantRead s r t.act)
  | .rdnc =>
    let s := match st, t.got with
      | .E, some d => takeDirty s r.off v d
      | .M, some d => takeDirty s r.off v d
      | .E, none => setRec s r.off .S v
      | _, _ => s
    let p := isPoisoned s r.off
    awaitAck (sendData s r t.act .I (if p then 0 else curLine s r.off) p) r t.act
  | .rde => grantOwn s r t.act false t.got
  | .upgr =>
    let sharer : Bool := match hostNo r.src with
      | some n => (st == .S || st == .O) && v.toNat.testBit n
      | none => false
    grantOwn s r t.act sharer t.got
  | .wrnc => doWrite s r t.act t.got
  | .wrline => doWrite s r t.act none
  | .wrback =>
    let mine : Bool := match hostNo r.src with
      | some n => (st == .M || st == .E) && v == oneHost n
      | none => false
    if mine then
      let s := homeCount s r.off 1 (reqDom s r)
      endWrite (setRec (clearPoison (putStack s r.off r.data) r.off) r.off .I 0) r t.act
    else sendCmp s r t.act
  | .evict =>
    let s := match hostNo r.src with
      | none => s
      | some n =>
        match st with
        | .S =>
          let v' := vecDel v n
          if v.toNat.testBit n then setRec s r.off (if v' = 0 then .I else .S) v' else s
        | .O => if v.toNat.testBit n then setRec s r.off .O (vecDel v n) else s
        | .E => if v == oneHost n then setRec s r.off .I 0 else s
        | _ => s
    sendCmp s r t.act
  | .recall =>
    let s := match t.got with
      | some d => if r.mask = 0 then putStack s r.off d else s
      | none => match storeFind s r.off with
        | some d => if r.mask = 0 then putStack s r.off d else s
        | none => s
    setRec (storeFree s r.off) r.off .I 0

/-- A host's request frame check and the poison rules before any snoop (R171, R247, R759, R762). What comes back is the
refusal, an address fault, the kernel that holds the request, the unit that it waits for, or the state to go on with. -/
inductive Pre where
  | err (e : Nat)
  | addr
  | held (w : Nat)
  | miss (u : Nat)
  | go (s : State)

/-- Has the kernel of window `w` begun to prepare its commit (R166)? -/
def prepared (s : State) (w : Nat) : Bool := s.kernels.any (fun k => k.win == w && k.prep)

/-- Does a write-back that the gateway holds whole, and that no kernel holds up, cover the line (R529)? -/
def reelHolds (s : State) (off : Nat) : Bool :=
  s.wbq.any (fun w => w.base / 65536 == off / 65536 && (shadowOf s off).isNone && w.lines.any (fun l => w.base + 64 * l.1 == off / 64 * 64))

/-- Is the request one that reaches the bytes of a line, and not a copy's return or the home's own? -/
def ReqOp.accesses (op : ReqOp) : Bool :=
  match op with
  | .wrback => false
  | .evict => false
  | .recall => false
  | _ => true

/-- The checks of a request at the moment the home serves it. An address whose draft or region has gone meanwhile is an address fault
(R76, R759). A frame that a kernel has written holds the writes to it (R171), and
every access once that kernel prepares (R166); `waited` says that the request has waited for its unit. -/
def preServe (waited : Bool) (s : State) (r : Req) : Pre :=
  let hold : Option Nat := match shadowOf s r.off with
    | some x => if r.op.writes || (r.op.accesses && prepared s x.win) then some x.win else none
    | none => if r.op.accesses && reelHolds s r.off then some 1024 else none
  match hold with
  | some w => .held w
  | none =>
    match (if waited || !r.op.accesses then none else unitMiss s r.off) with
    | some u => .miss u
    | none =>
      if (regionOf s r.off).isNone && r.op.accesses then .addr
      else if isPoisoned s r.off && (r.op == .rde || r.op == .upgr || (r.op == .wrnc && !fullMask r)) then .err errPoison
      else if r.op.writes && !draftOpen s r.off then .addr
      else if r.op.writes && decide (2 ^ 48 ≤ r.off) then
        match ensureUnit s r.off with
        | .ok t => .go t
        | .quota => .err errQuota
        | .capacity => .err errCapacity
      else .go s

/-- Hold a request in the tracker in a waiting phase. -/
def holdTxn (s : State) (r : Req) (act : Bool) (p : Phase) : State :=
  { s with trk := s.trk ++ [⟨homeOf r.off, r, act, p, [], false, none, false, none⟩] }

/-- Ask the medium for a unit (R60), once (R61), for an access of domain `dom` to the byte `off`. -/
def fetchUnit (s : State) (u off : Nat) (dom : Option Nat) : State :=
  if s.fetches.contains u then s
  else
    let s := homeCount s off 3 dom
    let ds := match dom with
      | some d => Sparse.ins s.fetchDoms u d
      | none => s.fetchDoms
    startRead { s with fetches := s.fetches ++ [u], fetchDoms := ds } u

/-- An access to the byte `off`, which lies at memory key `key`, found its unit in a frame: counted for TIERED and STREAM regions
(R705), and marked for clock replacement in the tier cache (R62). -/
def frameHit (s : State) (off key : Nat) (dom : Option Nat) : State :=
  match regionOf s off with
  | some r =>
    if rgPlace s r = 1 ∨ rgPlace s r = 3 then homeCount (cacheTouch s (if key < 2 ^ 50 then key / 65536 else cacheUnit s r key)) off 2 dom
    else s
  | none => s

/-- The injected errors of a look-up of a line's record (R253): an uncorrectable filter error (false, R240), or on a filter miss
an uncorrectable directory error (true, R241). -/
def lookupErr (s : State) (off : Nat) : State × Option Bool :=
  let h := homeOf off
  match takeInj s (rHome h 0x10) 4 (fun _ => true) with
  | some (_, t) => (haEvent t h 4 (some 0x30) (globalAddr t off) 0, some false)
  | none =>
    if s.filt.any (fun e => e.line == off / 64) then (s, none)
    else match takeInj s (rHome h 0x10) 3 (fun _ => true) with
      | some (_, t) => (haEvent t h 5 (some 0x38) (globalAddr t off) 0, some true)
      | none => (s, none)

/-- The injected errors of a read of a line (R253, R588, R589): what the home does about them before it serves. What comes back
with the state is the recovery that snoops first: whether a line without returned data is poisoned, and whom it snoops. -/
def lineErrors (s : State) (off : Nat) : State × Option (Bool × BitVec 64) :=
  let h := homeOf off
  let s := match takeInj s (rStk h 0x18) 1 (fun _ => true) with
    | some (_, t) => stkCe t h (globalAddr t off)
    | none => s
  let (s, take) := match takeInj s (rStk h 0x18) 2 (fun _ => true) with
    | some (_, t) =>
      let t := stkUe t h (globalAddr t off)
      let (st, v) := lineRec t off
      (match st with
       | .E => (t, some (true, v))
       | .M => (t, some (true, v))
       | _ => (poisonShared t off, none))
    | none => (s, none)
  match lookupErr s off with
  | (s, some d) => (s, some (d, validHosts s))
  | (s, none) => (s, take)

/-- Was the request's host fenced since (R245)? -/
def reqFenced (s : State) (r : Req) : Bool :=
  match hostNo r.src with
  | some n => fenced s n
  | none => false

/-- Serve a request on a line that is not busy: the checks, then its snoops. `waited` says that it has waited for its unit. -/
def serveFrom (waited : Bool) (s : State) (r : Req) (act : Bool) : State :=
  if reqFenced s r then sendErr s r errFenced act else
  let (s, ue) := lineErrors s r.off
  match ue with
  | some (d, v) => startTxn s r act v true (some d)
  | none =>
    let s := touchLine s r.off
    match preServe waited s r with
    | .err e => sendErr s r e act
    | .addr => sendErr (addrFault s (globalAddr s r.off) (masterDom s r.src)) r errAddr act
    | .held w => holdTxn s r act (.held w)
    | .miss u => holdTxn (fetchUnit s u r.off (reqDom s r)) r act .unit
    | .go s =>
      let s := if waited then s else frameHit s r.off ((backing s r.off).getD r.off) (reqDom s r)
      let (st, v) := lineRec s r.off
      let (t, inv) := snoopPlan r.op st v r.src
      startTxn s r act t inv none

/-- Serve a request for the first time. -/
def serve (s : State) (r : Req) (act : Bool) : State := serveFrom false s r act

/-- Keep what the snoops of a request brought whose host has been fenced since (R245): dirty data stays at the home, and the record
says which copies are left. -/
def absorb (s : State) (t : Txn) : State :=
  let off := t.req.off
  let (st, v) := lineRec s off
  match t.got, t.inv with
  | some d, true => setRec (putStack (storeFree s off) off d) off .I 0
  | some d, false => takeDirty s off v d
  | none, true =>
    (match st, storeFind s off with
     | .I, _ => s
     | _, some d => setRec (putStack (storeFree s off) off d) off .I 0
     | _, none => setRec s off .I 0)
  | none, false => if st == .E then setRec s off .S v else s

/-- End a transaction whose snoops are all answered. An uncorrectable filter or directory error leaves the line in I with
any dirty data taken, poisoned when a directory error brought none (R240, R241); a holder that was fenced, or an M holder
that answered InvAck, leaves it poisoned (R246, R761); the request is then served anew. The invalidation of a line of a freed draft
only ends its record, whatever came back (R77). -/
def endSnoop (s : State) (t : Txn) : State :=
  let r := t.req
  let s := { s with trk := s.trk.erase t }
  if r.op == .recall && r.mask != 0 then setRec (storeFree s r.off) r.off .I 0
  else match t.ue with
  | some dirErr =>
    let s := match t.got with
      | some d => putStack s r.off d
      | none => match storeFind s r.off with
        | some d => putStack s r.off d
        | none => if dirErr then poisonLine s r.off else s
    serve (setRec (storeFree s r.off) r.off .I 0) r t.act
  | none =>
    if t.bad then
      serve (setRec (poisonLine s r.off) r.off .I 0) r t.act
    else
      let (st, v) := lineRec s r.off
      let lostHolder := (st == .E || st == .M) && t.got.isNone && (hostsOf v).any (fun n => fenced s n)
      if lostHolder && r.op != .wrback && r.op != .evict && r.op != .recall then serve (touchLine s r.off) r t.act
      else if reqFenced s r then sendErr (absorb (touchLine s r.off) t) r errFenced t.act
      else finishServe (touchLine s r.off) t

/-- The home starts to invalidate a line with SnpInv for itself (R172, R215, R216); the look-up may meet an injected error. -/
def startRecall (s : State) (q : Recall) : State :=
  let off := q.line * 64
  let r : Req := ⟨.recall, 0, .control, off, 0, if q.drop then 1 else 0⟩
  match lookupErr s off with
  | (s, some d) => startTxn s r false (validHosts s) true (some d)
  | (s, none) =>
    let s := if q.drop then s else touchLine s off
    startTxn s r false (((hostsOf (lineRec s off).2).filter (fenced s)).foldl vecDel (lineRec s off).2) true none

/-- Can the home start to invalidate the line: no request on it is in service, and its tracker has room (R219, R220)? -/
def recallReady (s : State) (line : Nat) : Bool := !lineActive s (line * 64) && trkRoom s (homeOf (line * 64))

/-- The home owes a line an invalidation. -/
def owe (s : State) (drop : Bool) (line : Nat) : State :=
  if s.recallq.any (fun q => q.line == line && q.drop == drop) then s else { s with recallq := s.recallq ++ [⟨line, drop⟩] }

/-- The home's look-ups of lines for itself (R253): the state, and whether one met an injected error, which the home recovers from
before it goes on (R240, R241). -/
def lookups (s : State) (offs : List Nat) : State × Bool :=
  match offs with
  | [] => (s, false)
  | o :: rest =>
    match lookupErr s o with
    | (s, some d) => (startTxn s ⟨.recall, 0, .control, o, 0, 0⟩ false (validHosts s) true (some d), true)
    | (s, none) => lookups s rest

/-- The lines of a write-back, by slice offset. -/
def WbHold.offs (w : WbHold) : List Nat := w.lines.map (fun l => w.base + 64 * l.1)

/-- Serve a write-back that no kernel holds up (R529): while a host holds a copy of one of its lines, the line is invalidated
first; then the reel is applied whole, but for a tether record that R631 refuses. Cmp waits for the covers of its lines (R98, R104). -/
def wbStep (s : State) (w : WbHold) : State :=
  let (s, found) := lookups s w.offs
  if found then s
  else
  let copies := w.offs.filter (fun o => (lineRec s o).1 != .I)
  if copies ≠ [] then forEach copies s (fun s o => owe s false (o / 64))
  else
    let s := { s with wbq := s.wbq.erase w }
    let fail := fun (s : State) (e : Nat) => gwSend s w.via w.ctrl (globalAddr s w.base) 0x27 w.txn e
    let s := if !draftOpen s w.base then fail (addrFault s (globalAddr s w.base) w.dom) errAddr
      else match ensureUnit s w.base with
        | .quota => fail s errQuota
        | .capacity => fail s errCapacity
        | .ok s =>
          let (lines, bad) := w.lines.partition (fun l => match regionOf s w.base with
            | some r => !isTether s r || tetherOk s r w.dom (.peer 0 (BitVec.ofNat 8 w.dom)) (curLine s (w.base + 64 * l.1)) l.2.1
            | none => true)
          let s := forEach lines s (fun s l =>
            let o := w.base + 64 * l.1
            let s := homeCount s o 1 (some w.dom)
            let s := clearPoison (putStack (storeFree s o) o l.2.1) o
            setRec (if l.2.2 then poisonLine s o else s) o .I 0)
          let due := (lines.map (fun l => w.base + 64 * l.1)).filter (fun o => covered s o)
          if foldLost s w.base then fail s errFlushed
          else if bad ≠ [] then fail (forEach bad s (fun s l => tetherRefuse s w.dom (globalAddr s (w.base + 64 * l.1)))) errTether
          else if due = [] then gwSend s w.via w.ctrl (globalAddr s w.base) 0x26 w.txn 0
          else { s with covers := s.covers ++ due.map (fun o => (o, CoverFor.reel w.via w.ctrl w.txn)) }
    let mine := s.trk.filter (fun t => t.phase == .held 1024 && w.offs.contains t.req.off)
    forEach mine { s with trk := s.trk.filter (fun t => !mine.contains t) } (fun s t => serve s t.req t.act)

/-- Does a deferred request wait for the line (R221)? -/
def deferred (s : State) (off : Nat) : Bool := s.retry.any (fun p => p.2.off / 64 == off / 64)

/-- Can the homes do something for a write-back: no kernel has written its frame (R171), none of its lines is in service or has a deferred
request (R226), their trackers have room, and no invalidation of one is still owed? -/
def wbReady (s : State) (w : WbHold) : Bool :=
  (shadowOf s w.base).isNone && w.offs.all (fun o => trkRoom s (homeOf o) && !lineActive s o && !deferred s o
    && !s.recallq.any (fun q => q.line == o / 64))

/-- One line of a LINE_RESTORE is served: it is restored, or counts as NOT_POISONED (R250, R662). -/
def restoreEnd (s : State) (off : Nat) (hit : Bool) : State :=
  let next : CmpWait → CmpWait := fun c => { c with lines := c.lines.erase off, missed := if hit then c.missed else c.missed + 1 }
  match s.cmpWait.findIdx? (fun c => c.lines.contains off) with
  | some i => { s with cmpWait := s.cmpWait.zipIdx.map (fun p => if p.2 = i then next p.1 else p.1) }
  | none => s

/-- Serve a line of a LINE_RESTORE in the home's serial order (R250): only a poisoned line is overwritten, after its sharers'
copies are gone, in a frame of its own (R78); any other counts as NOT_POISONED. A line whose source is lost, whose draft accepts no
writes (R759) or gets no frame stays poisoned (assumption 49). -/
def restoreStep (s : State) (e : Nat × Option LineData) : State :=
  let off := e.1
  let (s, found) := lookups s [off]
  if found then s
  else
  let s := touchLine s off
  let hit := isPoisoned s off
  match hit, e.2, draftOpen s off with
  | true, some d, true =>
    if (lineRec s off).1 != .I then owe s false (off / 64)
    else
      let s := { s with restoreq := s.restoreq.erase e }
      (match ensureUnit s off with
       | .ok s =>
         let s := setRec (clearPoison (putStack (storeFree s off) off d) off) off .I 0
         if covered s off then { s with covers := s.covers ++ [(off, CoverFor.restore)] } else restoreEnd s off true
       | _ => restoreEnd s off true)
  | _, _, _ => restoreEnd { s with restoreq := s.restoreq.erase e } off hit

/-- Can the home serve a line of a LINE_RESTORE: no request on it is in service, no invalidation of it is owed, its tracker has room,
and no kernel has written its frame (R171, assumption 49)? -/
def restoreReady (s : State) (off : Nat) : Bool :=
  !lineActive s off && !deferred s off && trkRoom s (homeOf off) && (shadowOf s off).isNone && !s.recallq.any (fun q => q.line == off / 64)

/-! The buffers of HOST_RELEASE (R251). -/

/-- The transaction number of the homes' writes into the release buffer of host `n`. -/
def sweepTxn (n : Nat) : BitVec 12 := BitVec.ofNat 12 (2048 + n)

/-- Is a write into the release buffer of host `n` still in service? -/
def sweepBusy (s : State) (n : Nat) : Bool :=
  let mine := fun (r : Req) => decide (r.src = Master.control) && r.txn == sweepTxn n
  s.trk.any (fun t => mine t.req) || s.blockq.any (fun p => mine p.2)

/-- Change the sweep of host `n`. -/
def putSweep (s : State) (n : Nat) (f : Sweep → Sweep) : State :=
  { s with sweeps := s.sweeps.map (fun e => if e.host == n then f e else e) }

/-- Write eight bytes of a release buffer at slice offset `off`: the write waits for its line as any request does, and its refusal sets
OVERFLOW. It fails at once outside every region, and in one that is being deleted or holds tethers (R629). -/
def bufferWord (s : State) (n off v : Nat) : State :=
  let shut := match regionOf s off with
    | some r => rgDeleting s r || isTether s r
    | none => true
  if shut then putSweep s n (fun e => { e with ovf := true })
  else
    let x := off % 64
    let o := off / 64 * 64
    { s with blockq := s.blockq ++ [(homeOf o, ⟨.wrnc, sweepTxn n, .control, o, BitVec.ofNat 512 (v * 2 ^ (8 * x)),
      BitVec.ofNat 64 (255 * 2 ^ x)⟩)] }

/-- A sweep whose writes have ended goes on (R251): the result is written after the addresses, and then FENCED clears and the command
that waited has its count. -/
def sweepStep (s : State) (e : Sweep) : State :=
  if e.stage = 1 then
    bufferWord (putSweep s e.host (fun e => { e with stage := 2 })) e.host e.off (e.count % 2 ^ 48 + if e.ovf then 2 ^ 63 else 0)
  else
    let s := clrBit (clrBit s (rCohHost e.host) 1) (rCohHost e.host) 2
    { s with
      sweeps := s.sweeps.filter (fun x => x.host != e.host)
      cmpWait := s.cmpWait.map (fun c =>
        if c.hosts.contains e.host then
          { c with hosts := c.hosts.filter (fun x => x != e.host), poisoned := c.poisoned + e.count, overflow := c.overflow || e.ovf }
        else c) }

/-- Carry on every transaction that nothing holds up: those whose snoops are all answered, the invalidations that the homes owe,
the requests that wait (R231), each behind the deferred ones of its line (R226), the write-backs of other boxes, the restores and the sweeps. `fuel` bounds the number of them. -/
def settle (fuel : Nat) (s : State) : State :=
  match fuel with
  | 0 => s
  | k + 1 =>
    match s.trk.find? (fun t => t.phase == .snoop && t.wait == []) with
    | some t => settle k (endSnoop s t)
    | none =>
      match s.recallq.find? (fun q => recallReady s q.line) with
      | some q => settle k (startRecall { s with recallq := s.recallq.erase q } q)
      | none =>
        match s.blockq.find? (fun p => !busy s p.2.off && !deferred s p.2.off && trkRoom s p.1) with
        | some p => settle k (serve { s with blockq := s.blockq.erase p } p.2 false)
        | none =>
          match s.wbq.find? (wbReady s) with
          | some w => settle k (wbStep s w)
          | none =>
            match s.restoreq.find? (fun e => restoreReady s e.1) with
            | some e => settle k (restoreStep s e)
            | none =>
              match s.sweeps.find? (fun e => e.stage != 0 && !sweepBusy s e.host) with
              | some e => settle k (sweepStep s e)
              | none => s

/-- The lines that the homes hold a record of, by filter or directory. -/
def recordedLines (s : State) : List Nat := ((s.filt.map (fun e => e.line)) ++ (s.dir.map (fun e => e.1))).dedup

/-- The recorded lines of a region and of its drafts that are not in I. -/
def regionCopies (s : State) (r : Nat) : List Nat :=
  (recordedLines s).filter (fun l => regionOf s (l * 64) == some r && (lineRec s (l * 64)).1 != .I)

/-- Write the completion of a composition command that has finished (R662): in its window, or in one REPLY of the management
protocol. -/
def cmpFinish (s : State) (c : CmpWait) : State :=
  let r : Cpl := { status := 0, v0 := c.seq, v1 := c.poisoned, v2 := c.missed, v3 := if c.overflow then 1 else 0 }
  if c.win < 1024 then complete s c.win r
  else if c.win = 65536 then
    let l := cplLine c.hseq 0xFFFF 0x10 r
    mgmtSend s 25 (BitVec.ofNat 64 c.ref :: (List.range 8).map (lineWord l))
  else s

/-- Finish the composition commands whose sweeps and recalls have ended. -/
def cmpCheck (s : State) : State :=
  let ws := s.cmpWait.map (fun c => { c with regions := c.regions.filter (fun r => regionCopies s r != []) })
  let ended := fun (c : CmpWait) => c.hosts == [] && c.regions == [] && c.lines == []
  forEach (ws.filter ended) { s with cmpWait := ws.filter (fun c => !ended c) } cmpFinish

/-- The homes owe the host copies of regions that are no longer COHERENT their invalidation (R756). -/
def oweRegions (s : State) : State :=
  forEach (s.cmpWait.flatMap (fun c => c.regions)) s (fun s r => forEach (regionCopies s r) s (fun s l => owe s false l))

/-- Enough fuel for every transaction, waiting request, invalidation and write-back to end; then the composition commands that
waited for them. -/
def settleAll (s : State) : State :=
  let s := oweRegions s
  let t := settle (4 * (s.trk.length + s.blockq.length + s.recallq.length) + 4096 * s.wbq.length + 6 * s.restoreq.length + 12 * s.sweeps.length + 3) s
  if t.cmpWait = [] then t else cmpCheck t

/-- Requests of a master outstanding at a home (R222). -/
def outstanding (s : State) (h : Nat) (m : Master) : Nat :=
  (s.trk.filter (fun t => t.home == h && decide (t.req.src = m))).length
    + (s.retry.filter (fun p => p.1 == h && decide (p.2.src = m))).length

/-- The data of a deferred request stays with its sender (R221); the controller is the sender for its ZCT sessions, management
requests, Tailstock and the control complex. -/
def keepsData (m : Master) : Bool :=
  match m with
  | .session _ => true
  | .mgmt => true
  | .control => true
  | _ => false

/-- Defer a request (R221): a data-bearing one leaves its data with its sender. -/
def deferReq (s : State) (h : Nat) (r : Req) (rsn : Nat) : State :=
  let s := pmc { s with retry := s.retry ++ [(h, if keepsData r.src then r else { r with data := 0, mask := 0 })] } (176 + h) 7 1 (reqDom s r)
  answer s { reply s r 0x24 false with rsn := rsn }

/-- The home activates a deferred request (R223 to R225): a data-bearing one is answered with Fetch, whose host is fenced when its
port is down (R243); any other is served. -/
def activate (s : State) (p : Nat × Req) : State :=
  let s := { s with retry := s.retry.erase p }
  let r := p.2
  if (r.op == .wrnc || r.op == .wrline || r.op == .wrback) && !keepsData r.src then
    match hostNo r.src with
    | some n =>
      if hostPortUp s n then send { s with trk := s.trk ++ [⟨p.1, r, true, .fetch, [n], false, none, false, none⟩] } (.coh (reply s r 0x25 false))
      else settleAll (fenceHost (haEvent s p.1 6 none (globalAddr s r.off) n) p.1 n (globalAddr s r.off))
    | none => send { s with trk := s.trk ++ [⟨p.1, r, true, .fetch, [], false, none, false, none⟩] } (.coh (reply s r 0x25 false))
  else settleAll (serve s r true)

/-- The deferred request that home `h` activates next (R223): the oldest one whose line is free, while a reserved entry is. -/
def nextDeferred (s : State) (h : Nat) : Option (Nat × Req) :=
  if 256 ≤ trkReserved s h then none else s.retry.find? (fun p => p.1 == h && !busy s p.2.off)

/-- Activate the deferred requests of home `h` that can be, in order; `fuel` bounds their number. -/
def activateAll (fuel : Nat) (s : State) (h : Nat) : State :=
  match fuel with
  | 0 => s
  | k + 1 => match nextDeferred s h with
    | none => s
    | some p => activateAll k (activate s p) h

/-- Accept a request that passed its checks: serve it, defer it, or queue it: in blocking mode (R231), and in native mode when the
home's retry list is full (R221, assumption 160). The deferred requests that can be activated are activated first (R223), and a line
for which one still waits is busy for any new request (R226, assumption 160). -/
def takeRequest (s : State) (r : Req) : State :=
  let h := homeOf r.off
  let s := if deferred s r.off then activateAll s.retry.length s h else s
  let wait := { s with blockq := s.blockq ++ [(h, r)] }
  let full := decide (4096 ≤ (s.retry.filter (fun p => p.1 == h)).length)
  if blocking s then
    if busy s r.off || !trkRoom s h then wait else settleAll (serve s r false)
  else if busy s r.off || deferred s r.off then (if full then wait else deferReq s h r 1)
  else if !trkRoom s h then (if full then wait else deferReq s h r 2)
  else settleAll (serve s r false)

/-- The home invalidates a line with SnpInv for itself or for a kernel (R172, R215, R216): now, or once no request on it is in
service and its tracker has room. -/
def recallLine (s : State) (off : Nat) : State := settleAll (owe s false (off / 64))

/-- The lines of a unit that a host holds in E or M. -/
def heldLines (s : State) (unit : Nat) : List Nat :=
  let inUnit := fun (l : Nat) => l * 64 / 65536 == unit
  ((s.filt.map (fun e => e.line)) ++ (s.dir.map (fun e => e.1))).dedup.filter (fun l =>
    inUnit l && ((lineRec s (l * 64)).1 == .E || (lineRec s (l * 64)).1 == .M))

/-- The lines of a unit with any host copy or stored line. -/
def sharedLines (s : State) (unit : Nat) : List Nat :=
  ((s.filt.map (fun e => e.line)) ++ (s.dir.map (fun e => e.1))).dedup.filter (fun l =>
    l * 64 / 65536 == unit && (lineRec s (l * 64)).1 != .I)

/-- Recall every line of a list. -/
def recallAll (s : State) (ls : List Nat) : State := settleAll (forEach ls s (fun s l => owe s false l))

/-- The homes look up the lines of units for themselves, to find the copies that hosts hold; a line whose look-up meets an injected error is
recovered first (R240, R241, R253), and `true` says so. -/
def unitLookups (s : State) (units : List Nat) : State × Bool :=
  if !(List.range 8).any (fun h => s.inj.any (fun i => i.off == rHome h 0x10 && (i.kind == 3 || i.kind == 4))) then (s, false)
  else
    let (t, hit) := (units.flatMap (fun u => (List.range 1024).map (fun i => u * 65536 + 64 * i))).foldl (fun (acc : State × Bool) o =>
      if acc.2 || lineActive acc.1 o || !trkRoom acc.1 (homeOf o) then acc
      else match lookupErr acc.1 o with
        | (t, some d) => (startTxn t ⟨.recall, 0, .control, o, 0, 0⟩ false (validHosts t) true (some d), true)
        | (t, none) => (t, false)) (s, false)
    if hit then (settleAll t, true) else (t, false)

/-- An engine's read of a line that a host holds in E or M asks for its data (R212), when the line is free, no deferred request waits for
it (R226) and the home's tracker has room. -/
def askData (s : State) (src : Master) (off : Nat) : State :=
  if busy s off || deferred s off || !trkRoom s (homeOf off) then s
  else settleAll (startTxn s ⟨.rdnc, 0, src, off, 0, 0⟩ false (lineRec s off).2 false none)

/-- The checks of a request for a line of the home or draft range, before it is accepted (assumption 20 gives their
order). -/
def homeRequest (s : State) (r : Req) : State :=
  let h := homeOf r.off
  let ga := globalAddr s r.off
  let dom := masterDom s r.src
  let coh := r.op == .rds || r.op == .rde || r.op == .upgr || r.op == .wrback || r.op == .evict
  let back := r.op == .wrback || r.op == .evict
  if coh && (hostNo r.src).isNone then sendErr (protoErr s h ga) r errProto
  else if decide (regFld s rCohCfg 15 8 ≤ outstanding s h r.src) && (hostNo r.src).isSome then sendErr (protoErr s h ga) r errProto
  else match regionOf s r.off with
    | none => sendErr (addrFault s ga dom) r errAddr
    | some rg =>
      if coh && !rgCoherent s rg then sendErr (incCnt s (rHome h 0x28)) r errNoncoh
      else if decide (r.off < 2 ^ 48) && rgDeleting s rg then sendErr (addrFault s ga dom) r errAddr
      else if !back && !permitRegion s dom rg r.op.writes then sendErr (violate s r.src ga) r errGrant
      else if decide (r.off < 2 ^ 48) && rgVersioned s rg && r.op.writes then sendErr (violate s r.src ga) r errGrant
      else if decide (2 ^ 48 ≤ r.off) && r.op.writes && (match draftAt s r.off with
          | some (d, _) => drState s d != 1
          | none => false) then sendErr (addrFault s ga dom) r errAddr
      else if isTether s rg && (r.op == .wrnc && !fullMask r) then sendErr (addrFault s ga dom) r errAddr
      else takeRequest s r

end Sys2Proof.Machine
end

