-- ==== Sys2Proof/Machine/GatewayOps.lean ====
section
/-! DEFINITION. Machine/GatewayOps.lean: the gateway's staging area and the accesses that go through it (R521 to
R533). -/

namespace Sys2Proof.Machine

/-- A gateway event (chapter 12): GW_ERR bit, GW_ERR_CNT and the LINK log. -/
def gwEvent (s : State) (b addr : Nat) : State :=
  logErr (incCnt (setBit s (rGw 8) b) (rGw 0x30)) { cls := 5, code := b, kind := 12, addr := addr }

/-- Does a port reach controller `c` (R518, R533)? That none reaches another box is an event of the gateway. -/
def farUp (s : State) (c ga : Nat) : Bool × State :=
  if c / 16 = regFld s rAddrSelf 9 4 then (peerUp s c, s) else if uplinkUp s then (true, s) else (false, gwEvent s 3 ga)

/-- Tell another controller what no message of R211 carries, when a port reaches it. -/
def tellFar (s : State) (c ga : Nat) (words : List Nat) : State :=
  match farUp s c ga with
  | (true, s) => send s (.peer c ga words 0)
  | (false, s) => s

/-- The reel of a global address (R521). -/
def reelBase (addr : Nat) : Nat := addr / 65536 * 65536

/-- The staged reel of an address that satisfies `p`, with its slot. -/
def findReel (s : State) (addr : Nat) (p : Reel → Bool) : Option (Nat × Reel) :=
  s.reels.find? (fun e => e.2.addr == reelBase addr && p e.2)

/-- Replace a reel slot's record. -/
def putReel (s : State) (k : Nat) (r : Reel) : State :=
  { s with reels := s.reels.map (fun e => if e.1 == k then (k, r) else e) }

/-- Free a reel slot: its bytes go. -/
def freeReel (s : State) (k : Nat) : State :=
  zeroMem { s with reels := s.reels.filter (fun e => e.1 != k) } (spKey (spReel k) 0) 65536

/-- The memory key of a byte of a staged reel. -/
def reelKey (k addr : Nat) : Nat := spKey (spReel k) (addr % 65536)

/-- A message of the gateway to controller `c` (R491): it goes before the switch core at port 40. -/
def gwMsg (s : State) (c addr dom : Nat) (slots : List Nat) (words : List Nat) (d : LineData) : State :=
  fromAgent (send s (.peer c addr words d)) 40 (portOf s c addr) dom slots

/-- Send the messages of a write-back (R528): a WrNC of the reel's base with the number of lines in its mask
slot, and the dirty lines, all with DST_GW and one TXN. Each line carries its POISON flag (R247); an injected error of the staging area
poisons the first that is read (R556). -/
def writebackLines (s : State) (k : Nat) (r : Reel) : State :=
  let c := r.addr / 2 ^ 50 % 1024
  let dom := match r.observer, r.win with
    | some m, _ => masterDom s m
    | none, some w => winDom s w
    | none, none => 0
  let s := match r.dirty, takeInj s (rGw 0x10) 3 (fun _ => true) with
    | i :: _, some (_, t) => setPoison (gwEvent t 1 r.addr) (reelKey k (64 * i))
    | _, _ => s
  let count := (r.dirty.length - 1) * 2 ^ 64
  let h := reqHdr s 5 r.txn c r.addr dom true
  forEach r.dirty (gwMsg s c r.addr dom (msgBody h true count 0) [h, count] 0) (fun s i =>
    let a := r.addr + 64 * i
    let bad := poisoned s (reelKey k (64 * i))
    let h := reqHdr s 6 r.txn c a dom true + (if bad then 2 ^ 27 else 0)
    let d := if bad then 0 else s.readLine (reelKey k (64 * i))
    gwMsg s c a dom (msgBody h false 0 d) [h] d)

/-- A reel is work for the gateway, whose clock starts (R685). -/
def gwWork (s : State) : State := askStart s (unitCode 12 0)

/-- The TXN of a new reel read or write-back: the next of 4,096 that none in flight has (R503). -/
def reelTxnNext (s : State) : Nat :=
  (((List.range 4096).map (fun i => (s.reelTxn + 1 + i) % 4096)).find? (fun t =>
    !s.reels.any (fun e => (e.2.st == .fetching || e.2.st == .writing) && e.2.txn == t)
      && !s.agentReqs.any (fun x => x.port == 40 && x.txn == t))).getD ((s.reelTxn + 1) % 4096)

/-- Write back slot `k` (R528). CLEAN copies of the reel that no access waits on are older than what it sends, and go. -/
def sendWriteback (s : State) (k : Nat) (r : Reel) : State :=
  let old := s.reels.filter (fun e => e.2.addr == r.addr && e.2.st == .clean && e.2.ver.isNone && e.2.waiting == [] && e.2.kwait == [])
  let s := forEach old s (fun s e => freeReel s e.1)
  let n := reelTxnNext s
  let s := gwWork (incCnt { s with reelTxn := n } (rGw 0x28))
  let dom := match r.observer, r.win with
    | some m, _ => some (masterDom s m)
    | none, some w => some (winDom s w)
    | none, none => none
  let s := pmc s 205 4 (64 * r.dirty.length) dom
  let r := { r with st := .writing, txn := n }
  writebackLines (putReel s k r) k r

/-- A slot of the staging area for a new reel (R526): a FREE one, else a CLEAN one that no access waits on, in clock order: one
whose reference bit is set loses it and goes behind. A DIRTY one is written back first, so it is no slot yet. -/
def takeSlot (s : State) : Option (Nat × State) :=
  match (List.range 1024).find? (fun k => !s.reels.any (fun e => e.1 == k)) with
  | some k => some (k, s)
  | none =>
    let cand := fun (e : Nat × Reel) => e.2.st == .clean && e.2.waiting == [] && e.2.kwait == []
    let clear := fun (e : Nat × Reel) => (e.1, { e.2 with ref := false })
    match s.reels.find? (fun e => cand e && !e.2.ref) with
    | some (k, _) =>
      let passed := (s.reels.takeWhile (fun e => e.1 != k)).filter cand
      some (k, freeReel { s with reels := s.reels.filter (fun e => !passed.contains e) ++ passed.map clear } k)
    | none =>
      match s.reels.find? cand with
      | some (k, _) => some (k, freeReel { s with reels := s.reels.map (fun e => if cand e then clear e else e) } k)
      | none => none

/-- Write back the oldest DIRTY reel so that its slot can be reused (R526). -/
def pressDirty (s : State) : State :=
  match s.reels.find? (fun e => e.2.st == .dirty) with
  | some (k, r) => sendWriteback s k r
  | none => s

/-- Send a reel read for slot `k` (R523): an RdNC with DST_GW, and its version slot. -/
def sendReelRead (s : State) (k : Nat) (r : Reel) : State :=
  let n := reelTxnNext s
  let s := gwWork (incCnt { s with reelTxn := n } (rGw 0x20))
  let s := { s with reels := s.reels ++ [(k, { r with txn := n })] }
  let c := r.addr / 2 ^ 50 % 1024
  let dom := match r.waiting, r.kwait with
    | w :: _, _ => (reqDom s w.2).getD 0
    | [], e :: _ => winDom s e.1
    | [], [] => 0
  let h := reqHdr s 4 n c r.addr dom true
  let v := match r.ver with
    | some v => 2 ^ 48 + v.2
    | none => 0
  gwMsg s c r.addr dom (msgBody h false v 0) [h, v] 0

/-- Answer a request that reached the gateway. -/
def gwReply (s : State) (addr : Nat) (r : Req) (op : Nat) (st : Nat) (err : Nat) (d : LineData) (p : Bool) : State :=
  answer s { op := op, txn := r.txn.toNat, dst := r.src, home := 0, addr := addr, state := st, err := err, data := d, poison := p }

/-- Serve a request at a staged reel: a read returns its line (poisoned when staging fails
uncorrectably, GW_INJ KIND 3), a write makes its line dirty; a partial write, which reads the staged line, is refused when it is poisoned (R247), and so is a request
whose host has been fenced while it waited (R245). -/
def reelServe (s : State) (k : Nat) (addr : Nat) (r : Req) : State :=
  let key := reelKey k (addr / 64 * 64)
  if reqFenced s r then gwReply s addr r 0x27 0 errFenced 0 false else
  let s := { s with reels := s.reels.map (fun e => if e.1 == k then (k, { e.2 with ref := true }) else e) }
  match r.op with
  | .rdnc =>
    (match takeInj s (rGw 0x10) 3 (fun _ => true) with
     | some (_, t) => gwReply (gwEvent t 1 addr) addr r 0x31 0 0 0 true
     | none => gwReply s addr r 0x31 0 0 (if poisoned s key then 0 else s.readLine key) (poisoned s key))
  | _ =>
    match s.reels.find? (fun e => e.1 == k) with
    | none => s
    | some (_, x) =>
      let s := match (if fullMask r then none else takeInj s (rGw 0x10) 3 (fun _ => true)) with
        | some (_, t) => setPoison (gwEvent t 1 addr) key
        | none => s
      if poisoned s key && !fullMask r then gwReply s addr r 0x27 0 errPoison 0 false else
      let old := s.readLine key
      let new := if r.op == .wrline then r.data else mergeLine old r.data r.mask
      let s := s.putLine key new
      let s := if fullMask r then clrPoison s key else s
      let s := putReel s k { x with st := .dirty, dirty := Sparse.add x.dirty (addr / 64 % 1024), partly := x.partly || !fullMask r, observer := some r.src }
      gwReply s addr r 0x26 0 0 0 false

/-- Serve an access of a host, session or peer through the gateway (R522, R526, R530, R533); `first` says that it has not
waited yet. A DIRTY reel that was never fetched serves its dirty lines alone; a reel that its observer's write-back holds in flight
is waited for. One of a Chuck, window or counter address is sent on as a line, and what answers it goes back (R530); a partial write is a
WrNC, which has its mask. -/
def gwServe (first : Bool) (s : State) (addr : Nat) (r : Req) : State :=
  let count := fun (s : State) (i : Nat) => if first then pmc s 205 i 1 (reqDom s r) else s
  if reqFenced s r then gwReply s addr r 0x27 0 errFenced 0 false
  else if !uplinkUp s then gwReply (gwEvent s 3 addr) addr r 0x27 0 errFlushed 0 false
  else if 2 ^ 49 ≤ addr % 2 ^ 50 then
    let dirty := s.reels.filter (fun e => e.2.st == .dirty && e.2.observer == some r.src)
    let s := if r.op == .rdnc then s else forEach dirty s (fun s e => sendWriteback s e.1 e.2)
    let op := if r.op == .rdnc then 4 else if fullMask r then 6 else 5
    sendReq s 40 op (addr / 2 ^ 50 % 1024) addr ((reqDom s r).getD 0) (.fwd r.src r.txn.toNat) [if op = 4 then 7 else 6, r.txn.toNat] r.mask.toNat r.data
  else
    let i := addr / 64 % 1024
    let mine := fun (x : Reel) => x.ver == none && x.st == .dirty && (r.op == .rdnc || x.observer == some r.src)
    let usable := fun (x : Reel) => (x.ver == none && x.st == .clean) || (mine x && (x.whole || fullMask r))
    match (match findReel s addr (fun x => mine x && x.dirty.contains i) with
        | some e => some e
        | none => findReel s addr usable) with
    | some (k, _) => reelServe (count s 1) k addr r
    | none =>
      let s := count s 2
      if (findReel s addr (fun x => x.ver == none && x.st == .writing && x.observer == some r.src)).isSome then
        { s with missq := s.missq ++ [⟨addr, r, none⟩] }
      else match findReel s addr (fun x => x.st == .fetching && x.ver == none) with
      | some (k, x) => putReel s k { x with waiting := x.waiting ++ [(addr, r)] }
      | none =>
        match takeSlot s with
        | none => pressDirty { s with missq := s.missq ++ [⟨addr, r, none⟩] }
        | some (k, s) =>
          if fullMask r then
            let x : Reel := { addr := reelBase addr, st := .dirty, whole := false, observer := some r.src }
            reelServe { s with reels := s.reels ++ [(k, x)] } k addr r
          else sendReelRead s k { addr := reelBase addr, st := .fetching, waiting := [(addr, r)] }

/-- An access through the gateway: counted (R705), then served. While the miss queue is full the gateway takes none (R526). -/
def gwAccess (s : State) (addr : Nat) (r : Req) : State :=
  if 4096 ≤ s.missq.length then s else gwServe true (pmc s 205 0 1 (reqDom s r)) addr r

/-- Stage the reel of a kernel's read (R522): the access joins the reel read that is under way, or a slot is taken for a new one; none when no slot
can be freed. -/
def kernelFetch (s : State) (win : Nat) (ver : Option (Nat × Nat)) (addr : Nat) : Option State :=
  match findReel s addr (fun x => x.st == .fetching && x.ver == ver) with
  | some (k, x) => some (putReel s k { x with kwait := if x.kwait.contains (win, addr) then x.kwait else x.kwait ++ [(win, addr)] })
  | none => (takeSlot s).map (fun p => sendReelRead p.2 p.1 { addr := reelBase addr, st := .fetching, ver := ver, kwait := [(win, addr)] })

/-- A slot for a kernel's OUTPUT reel (R527), none when none can be freed. -/
def kernelOutput (s : State) (win addr : Nat) : Option State :=
  (takeSlot s).map (fun p => { p.2 with reels := p.2.reels ++ [(p.1, { addr := reelBase addr, st := .output, win := some win })] })

/-- The reel that holds what a kernel outputs at an address, and the CLEAN one that it may read there (R193, R194, R525). -/
def outputReel (s : State) (win addr : Nat) : Option (Nat × Reel) := findReel s addr (fun x => x.st == .output && x.win == some win)
def cleanReel (s : State) (win : Nat) (ver : Option (Nat × Nat)) (addr : Nat) : Option (Nat × Reel) :=
  findReel s addr (fun x => x.st == .clean && x.ver == ver && (ver.isSome || decide (Sparse.get s.kstamps win 0 < x.stamp)))

/-- Serve waiting accesses in order while a slot can be had; the rest waits on. What a kernel waits for is staged, and the kernel's access
finds it there. -/
def serveMissq (s : State) (q : List Miss) : State :=
  match q with
  | [] => s
  | m :: rest =>
    match m.req.src with
    | .kernel w =>
      let done := if m.req.op == .rdnc then (cleanReel s w.val m.ver m.addr).isSome else (outputReel s w.val m.addr).isSome
      if done then serveMissq s rest
      else match (if m.req.op == .rdnc then kernelFetch s w.val m.ver m.addr else kernelOutput s w.val m.addr) with
        | some s => serveMissq s rest
        | none => { s with missq := s.missq ++ q }
    | _ => if (takeSlot s).isNone then { s with missq := s.missq ++ q } else serveMissq (gwServe false s m.addr m.req) rest

/-- Serve the miss queue's accesses for which a slot can now be had, in order (R526). -/
def drainMissq (s : State) : State := serveMissq { s with missq := [] } s.missq

/-- Does an access of a kernel to a reel wait in the miss queue? -/
def kernelMissed (s : State) (win : Nat) (op : ReqOp) (ver : Option (Nat × Nat)) (addr : Nat) : Bool :=
  s.missq.any (fun m => reelBase m.addr == reelBase addr && m.ver == ver && m.req.op == op && m.req.src == .kernel (Fin.ofNat 1024 win))

/-- An access of a kernel for which no slot can be freed waits in the miss queue (R526). -/
def kernelQueue (s : State) (win : Nat) (op : ReqOp) (ver : Option (Nat × Nat)) (addr : Nat) : State :=
  pressDirty { s with missq := s.missq ++ [⟨addr, ⟨op, 0, .kernel (Fin.ofNat 1024 win), 0, 0, 0⟩, ver⟩] }

/-- The outcome of a kernel's access: its value, a fault code of R314, or a wait, with what the wait has set off. -/
inductive KAcc (α : Type) where
  | ok (a : α) (s : State)
  | fault (code : Nat) (s : State)
  | wait (s : State)

/-- A kernel's read of a line that it has not output itself: from a CLEAN reel that it may read, or the kernel waits for its reel. -/
def kernelStage (s : State) (win : Nat) (ver : Option (Nat × Nat)) (addr : Nat) (miss : State → State) (dom : Option Nat)
    (staged : Nat → KAcc LineData) : KAcc LineData :=
  match cleanReel s win ver addr with
  | some (k, x) =>
    (match staged k with
     | .ok d t => .ok d (putReel t k { x with ref := true })
     | r => r)
  | none =>
    if kernelMissed s win .rdnc ver addr then .wait s
    else if (findReel s addr (fun x => x.st == .fetching && x.ver == ver && x.kwait.any (fun e => e.1 == win))).isSome then
      .wait ((kernelFetch s win ver addr).getD s)
    else if 4096 ≤ s.missq.length then .wait s
    else
      let again : Bool := (findReel s addr (fun x => x.st == .clean && x.ver == none && ver.isNone)).isSome
      let s := miss s
      let s := if again then pmc s 205 6 1 dom else s
      match kernelFetch s win ver addr with
      | some t => .wait t
      | none => .wait (kernelQueue s win .rdnc ver addr)

/-- A kernel's read through the gateway, at a region and version or of mutable content (R193, R194, R525): its own output, a reel of the version it reads, or a mutable
reel staged after its start point; anything else is fetched, and the kernel waits. -/
def gwKernelRead (s : State) (win : Nat) (ver : Option (Nat × Nat)) (addr : Nat) : KAcc LineData :=
  let dom := some (winDom s win)
  let hit := fun (s : State) => pmc (pmc s 205 0 1 dom) 205 1 1 dom
  let miss := fun (s : State) => pmc (pmc s 205 0 1 dom) 205 2 1 dom
  let staged := fun (k : Nat) =>
    let key := reelKey k (addr / 64 * 64)
    match takeInj s (rGw 0x10) 3 (fun _ => true) with
    | some (_, t) => KAcc.fault 10 (gwEvent t 1 addr)
    | none => if poisoned s key then .fault 10 s else .ok (s.readLine key) (hit s)
  if !uplinkUp s then .fault 17 (gwEvent s 3 addr)
  else
    match outputReel s win addr with
    | some (k, x) => if x.dirty.contains (addr / 64 % 1024) then staged k else kernelStage s win ver addr miss dom staged
    | none => kernelStage s win ver addr miss dom staged

/-- A kernel's full-line write through the gateway (R195, R527): into its OUTPUT reel, in an overflow frame beyond 512 of
them. One that finds no slot waits for one (R526). -/
def gwKernelWrite (s : State) (win dom : Nat) (addr : Nat) (d : LineData) : KAcc Unit :=
  let store := fun (s : State) (k : Nat) (x : Reel) =>
    let key := reelKey k (addr / 64 * 64)
    KAcc.ok () (putReel (clrPoison (s.putLine key d) key) k { x with dirty := Sparse.add x.dirty (addr / 64 % 1024) })
  if !uplinkUp s then .fault 17 (gwEvent s 3 addr) else
  match outputReel s win addr with
  | some (k, x) => store s k x
  | none =>
    if (s.reels.filter (fun e => e.2.st == .output && !e.2.overflow)).length < 512 then
      if kernelMissed s win .wrline none addr ∨ 4096 ≤ s.missq.length then .wait s
      else match kernelOutput s win addr with
        | none => .wait (kernelQueue s win .wrline none addr)
        | some s =>
          (match outputReel s win addr with
           | some (k, x) => store s k x
           | none => .wait s)
    else
      match allocFrames s dom 1 with
      | .quota => .fault 11 s
      | .capacity => .fault 12 s
      | .ok s =>
        let k := 1024 + (s.reels.foldl (fun m e => max m (e.1 + 1)) 1024 - 1024)
        let x : Reel := { addr := reelBase addr, st := .output, win := some win, overflow := true }
        store { s with reels := s.reels ++ [(k, x)] } k x

end Sys2Proof.Machine
end

