-- ==== Sys2Proof/Machine/RegView.lean ====
section
/-! DEFINITION. Machine/RegView.lean: what a read of a register returns: the stored value, with the fields that show other
state filled in. -/

namespace Sys2Proof.Machine

/-- The number of units of a kind of one home: its stored lines (R203). -/
def oLines (s : State) (h : Nat) : Nat := (s.store.filter (fun e => homeOf (e.line * 64) == h)).length

/-- The Lathe that a Lathe register's offset belongs to. -/
def latheAt (s : State) (l : Nat) : Lathe := Sparse.get s.lathes l {}

/-- HA_STAT_h as read: TRK_USED, RETRY_WAIT, O_LINES and DEGRADED show the home's own state (R252). -/
def viewHaStat (s : State) (h : Nat) (w : Word) : Word :=
  let w := putBits (putBits (putBits w 47 36 (trkUsed s h)) 35 23 ((s.retry.filter (fun p => p.1 == h)).length)) 22 6 (oLines s h)
  putBits w 1 1 (if s.degraded.any (fun r => rgProtect s r == 1) then 1 else 0)

/-- LATHE_STAT_L as read: TQ, SPOOL and LOOPS show the Lathe's own state (R315). -/
def viewLatheStat (s : State) (l : Nat) (w : Word) : Word :=
  let x := latheAt s l
  putBits (putBits (putBits w 34 32 x.tq.length) 31 24 x.spool.length) 18 16 x.loops.length

/-- Kernels between STARTING and COMPLETING. -/
def liveKernels (s : State) : Nat := (s.wins.filter (fun e => [4, 5, 6].contains (regFld s (rWinStat e.1) 2 0) &&
  s.kernels.any (fun k => k.win == e.1))).length

/-- LDR_STAT as read (R380). -/
def viewLdrStat (s : State) (w : Word) : Word :=
  let plans := ((List.range 256).filter (fun p => regBit s (rPlanStat p) 63)).length
  putBits (putBits (putBits (putBits (putBits w 57 48 s.lathQ.length) 47 38 s.engQ.length) 37 29 plans) 28 18 (liveKernels s)) 0 0
    (if running s then 1 else 0)

/-- GW_STAT as read (R555): slots beyond the staging area are overflow frames and are not counted. -/
def viewGwStat (s : State) (w : Word) : Word :=
  let slots := s.reels.filter (fun e => decide (e.1 < 1024))
  let dirty := slots.filter (fun e => e.2.st == .dirty || e.2.st == .output || e.2.st == .writing)
  putBits (putBits (putBits w 42 32 dirty.length) 31 21 slots.length) 20 8 (min 4096 s.missq.length)

/-- The state that GOUGE_STAT_g and WALKER_STAT_w show: RESETTING and OUT_OF_SERVICE are stored; FROZEN shows while a context is
frozen, RUNNING while one is in use. -/
def engineState (st used frozen : Nat) : Nat := if 3 ≤ st then st else if 0 < frozen then 2 else if 0 < used then 1 else 0

/-- Contexts and kites in use: those of kernels that have taken them and have not reached their start point, among them (assumption 190). -/
def ctxUsed (s : State) (n : Nat) : Bool := regFld s (rGctx n 0) 2 0 != 0 || s.kernels.any (fun k => !k.started && k.ctxs.contains n)
def kiteUsed (s : State) (n : Nat) : Bool := regFld s (rKite n 0) 2 0 != 0 || s.kernels.any (fun k => !k.started && k.kites.contains n)

/-- The row fetches in flight on gouge `g`: rows of its contexts' combining slots that have been asked for and have not landed. -/
def rowsOut (s : State) (g : Nat) : Nat :=
  (List.range 8).foldl (fun m i => m + match (Sparse.get s.ctxs (8 * g + i) {}).batch with
    | some b => ((b.slots.take b.issued).filter (fun x => x.2.isNone)).length
    | none => 0) 0

/-- GOUGE_STAT_g as read: CTX_USED, INFLIGHT and STATE. -/
def viewGouge (s : State) (g : Nat) (w : Word) : Word :=
  let ns := (List.range 8).map (fun i => 8 * g + i)
  let used := (ns.filter (ctxUsed s)).length
  let st := engineState (bits w.toNat 3 0) used ((ns.filter (fun n => regFld s (rGctx n 0) 2 0 == 5)).length)
  putBits (putBits (putBits w 35 32 used) 21 12 (rowsOut s g)) 3 0 st

/-- Bytes of a row, none for a format that no row has. -/
def rowBytes (fmt dim : Nat) : Option Nat :=
  if fmt = 1 then some (4 * dim)
  else if fmt = 2 ∨ fmt = 3 then some (2 * dim)
  else if fmt = 4 ∨ fmt = 5 then some dim
  else if fmt = 12 then some (dim + 4)
  else if fmt = 13 then some (cdiv dim 2 + 4)
  else if fmt = 6 then some (33 * cdiv dim 32)
  else if fmt = 10 then some (17 * cdiv dim 32)
  else none

/-- Where the vector stands in a node record (R458). -/
def vecOff (x : KIdx) : Nat := 64 * cdiv (64 + 4 * x.degree) 64

/-- The candidate that a walk expands next, and whether it widens: the first among the best EF, and once none of those is left, while
too few results are found and the budget lasts, the first of all (R472). A walk that has begun to widen goes on so. -/
def nextExpand (q : Query) : Option (Item × Bool) :=
  match (if q.widened = 0 then (q.q.take q.ef).find? (fun e => !e.done) else none) with
  | some e => some (e, false)
  | none =>
    if q.r.length < q.k ∧ q.widened < q.widen then (q.q.find? (fun e => !e.done)).map (fun e => (e, true)) else none

/-- The lines that `n` bytes at `a` lie in. -/
def linesOf (a n : Nat) : Nat := cdiv (a % 64 + n) 64

/-- What the next step of a walk reads: its kind (1 evaluation, 2 expansion, 3 side entry, 0 none), its node index or side
sequence, its first address, its lines and its distance terms. An evaluation reads line 0 of the record and the vector lines, an
expansion line 0 and the neighbour lines, and a visited check one line (R475). -/
def nextStep (x : KIdx) (q : Query) : Nat × Nat × Nat × Nat × Nat :=
  let node := fun (i : Nat) => x.base + x.off + i * x.pitch
  let vec := (rowBytes x.fmt x.dim).getD 0
  match q.todo, q.side with
  | i :: _, _ =>
    if x.nodes ≤ i then (0, i, 0, 0, 0)
    else if q.visited.contains i ∨ q.visited.length = q.visit then (0, i, 0, 1, 0)
    else (1, i, node i, 2 + linesOf (node i + vecOff x) vec, x.dim)
  | [], sq :: _ =>
    let a := x.side + 64 + sq % x.cap * x.spitch
    (3, sq, a, linesOf a (64 + vec), x.dim)
  | [], [] =>
    match nextExpand q with
    | some (e, _) => (2, e.id, node e.id, linesOf (node e.id) (64 + 4 * x.degree), 0)
    | none => (0, 0, 0, 0, 0)

/-- Insert a kite's read, its turn first, among others in the order of their turns. -/
def insertTurn (l : List (Nat × Nat × Nat)) (e : Nat × Nat × Nat) : List (Nat × Nat × Nat) :=
  match l with
  | [] => [e]
  | x :: rest => if e.1 < x.1 then e :: x :: rest else x :: insertTurn rest e

/-- The kites of walker `w` that have reads to make, in rotation (R454), each with the lines of its walk's next step, or of the descriptor or
vector that its kwalk reads. -/
def walkWaits (s : State) (w : Nat) : List (Nat × Nat) :=
  ((s.kites.filterMap (fun e =>
    if e.1 / 128 ≠ w then none
    else match e.2.query, e.2.fetch, s.kernels.find? (fun k => k.win == e.2.win && k.started && k.fault.isNone) with
      | some q, _, some k =>
        (match k.idxs[q.index]? with
         | some x => if q.ended then none else some (e.2.turn, e.1, (nextStep x q).2.2.2.1)
         | none => none)
      | none, some n, some _ => some (e.2.turn, e.1, n)
      | _, _, _ => none)).foldl insertTurn []).map (fun e => e.2)

/-- The kites of walker `w` whose reads are in flight: the first of those that have reads to make, while no more than 1,024 lines are
(R453). -/
def walkReads (s : State) (w : Nat) : List (Nat × Nat) :=
  ((walkWaits s w).foldl (fun (acc : List (Nat × Nat) × Nat) e =>
      if acc.2 + e.2 ≤ 1024 then (acc.1 ++ [e], acc.2 + e.2) else (acc.1, 1025)) ([], 0)).1

/-- WALKER_STAT_w as read: KITES_USED, INFLIGHT (line reads in flight) and STATE. -/
def viewWalker (s : State) (w : Nat) (v : Word) : Word :=
  let ns := (List.range 128).map (fun i => 128 * w + i)
  let used := (ns.filter (kiteUsed s)).length
  let fly := (walkReads s w).foldl (fun m e => m + e.2) 0
  let st := engineState (bits v.toNat 3 0) used ((ns.filter (fun n => regFld s (rKite n 0) 2 0 == 4)).length)
  putBits (putBits (putBits v 39 32 used) 21 11 fly) 3 0 st

/-- The domain instances being handled (R602): those recorded, the kernels that have faulted and hold their engines, and the
Lathes that owe a reset. -/
def active (s : State) : List Recov :=
  let ks := ((s.kernels.filter (fun k => k.fault.isSome && !k.frozen && !k.guilty)).map (fun k => (16, k.win)))
  let ls := ((s.lathes.filter (fun e => e.2.owedReset)).map (fun e => (1, e.1)))
  s.recovs ++ ((ks ++ ls).filter (fun p => !s.recovs.any (fun r => r.kind == p.1 && r.unit == p.2))).map (fun p => ⟨p.1, p.2, 0, []⟩)

/-- RECOV_STAT as read: recoveries running, suspects not yet replayed, guilty kernels frozen, and the state. -/
def viewRecov (s : State) (w : Word) : Word :=
  let esc := s.recovs.any (fun r => decide (0 < r.esc))
  let act := active s
  let st := if bits w.toNat 3 0 = 3 then 3
    else if esc then 2 else if act != [] then 1 else 0
  let due := (s.kernels.filter (fun k => k.suspect && !k.guilty && k.fault.isSome)).length
  let cold := (s.kernels.filter (fun k => k.guilty)).length
  putBits (putBits (putBits (putBits w 47 40 act.length) 39 32 due) 31 24 cold) 3 0 st

/-- What a read of the register at `off` returns; write-only bits read as zero (R14). -/
def regView (s : State) (off : Nat) : Word :=
  let w := reg s off
  if off = 0x1010 then putBits (putBits w 55 32 s.tierCache.length) 23 0 s.freeFrames
  else if 0x400000 ≤ off ∧ off < 0x600000 ∧ off % 0x40000 = 0 then viewHaStat s ((off - 0x400000) / 0x40000) w
  else if 0x800000 ≤ off ∧ off < 0x1000000 ∧ off % 0x10000 = 0 then viewLatheStat s ((off - 0x800000) / 0x10000) w
  else if 0x1100000 ≤ off ∧ off < 0x1110000 ∧ off % 0x1000 = 0 then viewGouge s ((off - 0x1100000) / 0x1000) w
  else if 0x1000000 ≤ off ∧ off < 0x1020000 ∧ off % 0x1000 = 0 then viewWalker s ((off - 0x1000000) / 0x1000) w
  else if off = rSw 8 then putBits w 45 28 s.cells.length
  else if off = rRecov 8 then viewRecov s w
  else if off = rPmu 8 then putBits w 2 2 (if s.regs.any (fun e => decide (0x7000000 ≤ e.1) && decide (e.1 < 0x7080000) && e.1 % 0x200 == 0x180) then 1 else 0)
  else if off = rLdrStat then viewLdrStat s w
  else if off = rGw 0 then viewGwStat s w
  else if 0x5800000 ≤ off ∧ off < 0x6000000 then
    -- the dump aperture (R622): the dump's bytes are a free value (assumption 21)
    let sel := (reg s (rRecov 0x110)).toNat
    let slot := bits sel 31 31
    let win := bits sel 6 0
    (match s.dumps.find? (fun e => e.1 == slot) with
     | some e => if win < 100 then Config.dumpWord e.2.tag (win * 0x800000 + (off - 0x5800000)) else 0
     | none => 0)
  else match regRow off with
    | some r => BitVec.ofNat 64 (w.toNat - (w.toNat &&& r.wo))
    | none => 0

/-- The domain of an entry of the tag ring (byte 2) or the mirror ring (the DOMAIN field of its cell header). -/
def ringDomain (s : State) (off : Nat) : Nat :=
  let e := off / 128 * 128
  if off < 0x7180000 then regFld s e 23 16 else bits ((reg s (e + 8)).toNat) 34 27

/-- What a read of a register by an access of domain `d` returns: counts, snapshots and ring entries only to their own domain and
to domain 0 (R709, R728). -/
def regViewFor (s : State) (d off : Nat) : Word :=
  let w := regView s off
  if d = 0 then w
  else if 0x7000000 ≤ off ∧ off < 0x7080000 then
    (if 0x80 ≤ off % 0x200 ∧ off % 0x200 < 0x180 then
      let cfg := reg s (off / 0x200 * 0x200 + off % 0x80)
      (if cfg.toNat.testBit 62 || bits cfg.toNat 7 0 != d then 0 else w)
    else w)
  else if 0x7100000 ≤ off ∧ off < 0x7200000 then (if ringDomain s off = d then w else 0)
  else w

/-- The eight registers of a line of the control window, as an access of domain `d` reads them (R760); a line of the parity fold
rings as it is stored (R104). -/
def controlLine (s : State) (d x : Nat) : LineData :=
  if inRings x then s.readLine (ctlOff (x / 64 * 64))
  else lineOfWords ((List.range 8).map (fun i => regViewFor s d (x / 64 * 64 + 8 * i)))

end Sys2Proof.Machine
end

