-- ==== Sys2Proof/Machine/Tags.lean ====
section
/-! DEFINITION. Machine/Tags.lean: tag registers and the tag ring (R722 to R726). -/

namespace Sys2Proof.Machine

/-- TAG_CFG. -/
def rTagCfg : Nat := rPmu 0x10

/-- One advance of a tag register (R722). -/
def tagNext (v : Nat) : Nat := if v % 2 = 1 then (v / 2) ^^^ 0x80200003 else v / 2

/-- Is a tag register's unit tagged after the advance: tagging is on for its kind (`bit` of TAG_CFG), and the low N bits are zero? -/
def tagHit (s : State) (bit v : Nat) : Bool :=
  regBit s rTagCfg 0 && regBit s rTagCfg bit && v % 2 ^ min 24 (max 4 (regFld s rTagCfg 12 8)) == 0

/-- Load a tag register at a kernel's start point (R723). -/
def tagLoad (s : State) (key rank : Nat) : State :=
  if !regBit s rTagCfg 3 && s.tagFresh.contains key then s
  else
    let v := regFld s rTagCfg 63 32 ^^^ (rank * 0x9E3779B9 % 2 ^ 32)
    { s with tagRegs := Sparse.set s.tagRegs key 0 (if v = 0 then 1 else v), tagFresh := Sparse.add s.tagFresh key }

/-- Advance a tag register; its new value comes back. -/
def tagAdvance (s : State) (key : Nat) : Nat × State :=
  let v := tagNext (Sparse.get s.tagRegs key 0)
  (v, { s with tagRegs := Sparse.set s.tagRegs key 0 v })

/-- Put an entry of sixteen words into a ring at `base`, whose status register is `st`; a full ring drops it (R726, R727). -/
def ringPush (s : State) (st base : Nat) (ws : List Word) : State :=
  let held := regFld s st 28 16
  if 4096 ≤ held then regPut s st 55 32 (min (2 ^ 24 - 1) (regFld s st 55 32 + 1))
  else regPut (regSetList s (base + 128 * ((regFld s st 11 0 + held) % 4096)) ws) st 28 16 (held + 1)

/-- Write a tag record (R725, R726): Lathe counter 11 counts it. -/
def tagPush (s : State) (lathe : Option Nat) (dom : Nat) (ws : List Word) : State :=
  let s := match lathe with
    | some l => pmc s l 11 1 (some dom)
    | none => s
  ringPush s (rPmu 0x18) 0x7100000 ws

/-- What a tag record says beside its own kind's words. -/
structure TagArgs where
  kind : Nat
  replay : Bool
  dom : Nat
  unit : Nat
  rank : Nat
  win : Nat
  cseq : Nat
  reg : Nat
  index : Nat
  addr : Nat

/-- The sixteen words of a tag record: ISSUE is a free value (assumption 5). -/
def tagWords (a : TagArgs) (issue : Nat) (w4 w5 w6 w7 : Word) : List Word :=
  [BitVec.ofNat 64 (a.kind + (if a.replay then 512 else 0) + a.dom % 256 * 2 ^ 16 + a.unit % 65536 * 2 ^ 32 + a.rank % 65536 * 2 ^ 48),
    BitVec.ofNat 64 (a.win % 2 ^ 32 + a.cseq % 2 ^ 32 * 2 ^ 32), BitVec.ofNat 64 (a.reg % 2 ^ 32 + a.index % 2 ^ 32 * 2 ^ 32),
    Config.freeWord issue, w4, w5, w6, w7, BitVec.ofNat 64 a.addr, 0, 0, 0, 0, 0, 0, 0]

/-- A bundle's record at its kernel's abort: ABORTED is set, and the queue and the tile write, not reached, read all ones. -/
def tagAborted (ws : List Word) : List Word :=
  ws.zipIdx.map (fun p => if p.2 = 0 then p.1 ||| 256 else if p.2 = 7 then p.1 ||| 0xFFFFFFFFFFFF else p.1)

end Sys2Proof.Machine
end

