-- ==== Sys2Proof/Machine/VersionOps.lean ====
section
/-! DEFINITION. Machine/VersionOps.lean: the versions of a region: which are held, what a region and its versions take in the
frame pool and on the medium, and the release of a version (R57, R83, R89, R116 to R119, R131). -/

namespace Sys2Proof.Machine

/-- Is version `v` of region `r` held (R83)? `cur` is the current version. -/
def heldBy (s : State) (r cur v : Nat) : Bool :=
  v == cur || s.kernels.any (fun k => k.pins.contains (r, v))
    || (((versionsOf s r).filter (fun x => decide (x < cur))).reverse.take (rgRetain s r)).contains v
    || (openDrafts s).any (fun d => drRegion s d == r && drBase s d == v)

/-- Versions that would be held with `cur` current. -/
def heldCount (s : State) (r cur : Nat) : Nat := ((versionsOf s r).filter (fun v => heldBy s r cur v)).length

/-- Is a unit of a version all zero: a ZERO locator, which takes no medium space (R116)? -/
def unitZero (s : State) (r v u : Nat) : Bool :=
  let k := spKey (spVersion r v) (u * 65536)
  !s.mem.any (fun c => decide (k ≤ c.1) && decide (c.1 < k + 65536))

/-- Where a unit named `name` lies on the medium: its locator, which a unit that went back to an older version shares with it (R116), or
the name itself. -/
def medPlace (s : State) (name : Nat) : Nat :=
  match s.locs.find? (fun e => e.1 == name) with
  | some e => 2 ^ 120 + e.2
  | none => name

/-- Drop units from the tier cache (R62): their frames are freed. -/
def dropCached (s : State) (keys : List Nat) : State :=
  let n := (s.tierCache.filter (fun e => keys.contains e.key)).length
  { s with tierCache := s.tierCache.filter (fun e => !keys.contains e.key), dirtyFrames := s.dirtyFrames + n }

/-- The tier cache, the reads for it and what waits on them name a unit anew, whose version is released while another one's unit has its
locator (R62). -/
def recache (s : State) (old new : Nat) : State :=
  let mv := fun (u : Nat) => if u = old then new else u
  let moved := fun (l : List (Nat × Nat)) => match l.find? (fun e => e.1 == old) with
    | some e => Sparse.ins (Sparse.del l old) new e.2
    | none => l
  { s with
    tierCache := s.tierCache.map (fun e => { e with key := mv e.key })
    nameds := s.nameds.map (fun p => (p.1, mv p.2))
    kernels := s.kernels.map (fun k => { k with units := k.units.map mv })
    streamUnits := if s.streamUnits.contains old then Sparse.add (Sparse.rem s.streamUnits old) new else s.streamUnits
    streamWait := s.streamWait.map (fun e => (mv e.1, e.2))
    fetches := s.fetches.map mv
    fetchDoms := moved s.fetchDoms
    reading := moved s.reading }

/-- Zero what version `v` of region `r` leaves: its own units, by the names of their frames, and of its space all but the units that a
newer version shares with it. -/
def zeroVersion (s : State) (r v : Nat) (us keys : List Nat) : State :=
  let lo := spKey (spVersion r v) 0
  let kept := (s.verUnits.filter (fun e => e.1 == r && e.2.1 == v && !us.contains e.2.2)).map (fun e => e.2.2)
  let left := fun (k : Nat) => decide (lo ≤ k) && decide (k < lo + rgSize s r) && !kept.contains ((k - lo) / 65536)
  let s := forEach keys s (fun s k => zeroMem s (k * 65536) 65536)
  { s with
    mem := s.mem.filter (fun c => !left c.1)
    poison := s.poison.filter (fun l => !left (l * 64)) }

/-- Release version `v` of region `r` (R89, R131): its own frames, map frames and medium pages go; a page whose locator another held
version has stays (R93), and so does the tier cache's frame of it (R62). -/
def releaseVersion (s : State) (r v : Nat) : State :=
  let us := ownUnits s r v
  let ms := ownMaps s r v
  let n := (us.filter (fun u => inStack s r u)).length + ms.length
  let name := fun (u : Nat) => locUnit s r (spKey (spVersion r v) (u * 65536))
  let keys := us.map name
  let shared := fun (u : Nat) => s.locs.any (fun e => !keys.contains e.1 && 2 ^ 120 + e.2 == medPlace s (name u))
  let med := if rgDurable s r then (us.filter (fun u => !unitZero s r v u && !shared u)).length else 0
  let dom := rgDomain s r
  let cached := fun (u : Nat) => cacheUnit s r (spKey (spVersion r v) (u * 65536))
  let heirs := (us.filter shared).filterMap (fun u =>
    (s.locs.find? (fun e => !keys.contains e.1 && 2 ^ 120 + e.2 == medPlace s (name u))).map (fun e => (cached u, e.1)))
  let s := dropCached s ((us.filter (fun u => !shared u)).map cached)
  let s := forEach (heirs.filter (fun h => keys.contains h.1)) s (fun s h => recache s h.1 h.2)
  let s := poolDrop s (rgPgroup s r) (fun k => keys.contains k)
  let s := { s with
    lost := s.lost.filter (fun k => !keys.contains k)
    versions := s.versions.filter (fun p => p != (r, v))
    locs := s.locs.filter (fun e => !keys.contains e.1) }
  let s := dropMeta s (fun n => n.region == r && ((n.type == 3 && n.version == v) || (n.type == 2 && ms.any (fun m => m == n.unit && n.version == mapVersion s r v m))))
  let s := zeroVersion s r v us keys
  let s := if n = 0 then s else releaseFor s r dom n
  if med = 0 then s else setMedUse s dom (Sparse.get s.medUse dom 0 - med)

/-- Release every version of a region that nothing holds, and advance OLDEST (R89). -/
def sweepVersions (s : State) (r : Nat) : State :=
  if !rgVersioned s r then s else
  let gone := (versionsOf s r).filter (fun v => !heldBy s r (rgCurrent s r) v)
  let s := forEach gone s (fun s v => releaseVersion s r v)
  match versionsOf s r with
  | [] => s
  | v :: _ => rgPut s r 239 192 v

/-- Sweep the regions of a list of pins. -/
def sweepPins (s : State) (ps : List (Nat × Nat)) : State :=
  forEach (ps.map (fun p => p.1)).dedup s (fun s r => sweepVersions s r)

/-- Rewrite a CHUCK region's replica from its current version (R65, R90): a unit whose locator reads LOST is poison there too (R140, R292). -/
def writeReplica (s : State) (r : Nat) : State :=
  let v := rgCurrent s r
  let s := forEach (List.range (rgSize s r / 65536)) s (fun s i =>
    let l := rgChuckFirst s r + i % rgChuckCount s r
    copyUnit s r (spKey (spVersion r v) (i * 65536)) (chuckOff l (rgChuckOff s r + i / rgChuckCount s r * 65536)))
  { s with replicas := Sparse.set s.replicas r 0 (v + 1) }

/-- Rewrite a region's replica unless a running kernel pins an older version (R90). -/
def refreshReplica (s : State) (r : Nat) : State :=
  if rgPlace s r ≠ 2 ∨ Sparse.get s.replicas r 0 = rgCurrent s r + 1 then s
  else if s.kernels.any (fun k => (k.started || k.pinSent) && k.fault.isNone && k.pins.any (fun p => p.1 == r && p.2 != rgCurrent s r)) then s
  else writeReplica s r

/-- Does anything hold a region against its deletion or shrinking (R757, R758): an open draft, a bound RUN, a pin? -/
def regionHeld (s : State) (r : Nat) : Bool :=
  (openDrafts s).any (fun d => drRegion s d == r)
    || s.kernels.any (fun k => k.pins.any (fun p => p.1 == r) || k.slots.any (fun x => x.region == r && x.ctrl == ownCtrl s))

/-- Drop the directory's record of a range of lines. -/
def dropRecords (s : State) (lo len : Nat) : State :=
  let out := fun (l : Nat) => !(decide (lo ≤ l * 64) && decide (l * 64 < lo + len))
  { s with
    filt := s.filt.filter (fun e => out e.line)
    dir := s.dir.filter (fun e => out e.1)
    store := s.store.filter (fun e => out e.line) }

/-- Medium units that version `v` of region `r` takes: those that are not all zero (R116). -/
def medUnits (s : State) (r v : Nat) : Nat :=
  if rgDurable s r then ((List.range (rgSize s r / 65536)).filter (fun u => !unitZero s r v u)).length else 0

/-- Delete region `r` at once (R758): its frames, map frames and medium pages are released and its entry reads VALID 0. -/
def deleteRegion (s : State) (r : Nat) : State :=
  let cur := rgCurrent s r
  let dom := rgDomain s r
  let s := forEach ((versionsOf s r).filter (fun v => v != cur)) s (fun s v => releaseVersion s r v)
  let n := stackUnits s r + mapFrames s r
  let med := medUnits s r cur
  let mine := fun (k : Nat) => k * 65536 / 2 ^ 50 % 8 == 1 && k * 65536 / 2 ^ 50 / 8 % 16384 == r
  let s := dropCached s ((s.tierCache.map (fun e => e.key)).filter mine)
  let s := poolDrop s (rgPgroup s r) (fun k => mine k || (decide (rgBase s r / 65536 ≤ k) && decide (k < (rgBase s r + rgSize s r) / 65536)))
  let s := if rgVersioned s r then zeroMem s (spKey (spVersion r cur) 0) (rgSize s r) else zeroMem s (rgBase s r) (rgSize s r)
  let s := dropRecords s (rgBase s r) (rgSize s r)
  let s := if n = 0 then s else releaseFor s r dom n
  let s := if med = 0 then s else setMedUse s dom (Sparse.get s.medUse dom 0 - med)
  let s := { s with
    versions := s.versions.filter (fun p => p.1 != r)
    verUnits := s.verUnits.filter (fun p => p.1 != r)
    locs := s.locs.filter (fun e => !mine e.1)
    lost := s.lost.filter (fun k => !mine k)
    replicas := Sparse.del s.replicas r
    degraded := Sparse.rem s.degraded r
    copying := s.copying.filter (fun e => e.1 != r)
    decisions := s.decisions.filter (fun e => e.1 != r) }
  let s := dropMeta s (fun n => n.region == r)
  regSetList s (rRegion r 0) [0, 0, 0, 0, 0, 0, 0, 0]

end Sys2Proof.Machine
end

