-- ==== Sys2Proof/Machine/KernelOps.lean ====
section
/-! DEFINITION. Machine/KernelOps.lean: plans in memory, a kernel's record, what a kernel reads and writes, its abort and its
end (chapters 04, 06 and 08). -/

namespace Sys2Proof.Machine

/-! Plans (R342, R343): a loaded plan's bytes lie in a space of their own. -/

/-- `n` bytes at byte `a` of plan `p`. -/
def planN (s : State) (p a n : Nat) : Nat := s.readN (spKey (spPlan p) a) n

/-- Section table entries that an image at memory key `b` claims: type, index, count and offset. -/
def sectionsAt (s : State) (b : Nat) : List (Nat × Nat × Nat × Nat) :=
  (List.range (s.readN (b + 26) 2)).map (fun i =>
    let e := b + 256 + 16 * i
    (s.readN e 2, s.readN (e + 2) 2, s.readN (e + 4) 4, s.readN (e + 8) 8))

/-- The count and offset of a section of plan `p`; an absent one has no entries. -/
def planSect (s : State) (p ty ix : Nat) : Nat × Nat :=
  match (sectionsAt s (spKey (spPlan p) 0)).find? (fun e => e.1 == ty && e.2.1 == ix) with
  | some e => e.2.2
  | none => (0, 0)

def planRows (s : State) (p : Nat) : Nat := planN s p 24 1
def planCols (s : State) (p : Nat) : Nat := planN s p 25 1
/-- Ranks of a plan's kernel. -/
def planRanks (s : State) (p : Nat) : Nat := planRows s p * planCols s p

/-- A 64 B descriptor of a section of plan `p`, as its eight words. -/
def planDesc (s : State) (p ty ix i : Nat) : Option (List Word) :=
  let (n, o) := planSect s p ty ix
  if i < n then some ((List.range 8).map (fun j => BitVec.ofNat 64 (planN s p (o + 64 * i + 8 * j) 8))) else none

/-- The digest that PLAN_LOAD recorded. -/
def planDigest (s : State) (p : Nat) : BitVec 512 :=
  match s.planDigests.find? (fun e => e.1 == p) with
  | some e => e.2
  | none => 0

/-! The kernel's record. -/

def kernelOf (s : State) (w : Nat) : Option Kernel := s.kernels.find? (fun k => k.win == w)
def putKernel (s : State) (k : Kernel) : State :=
  { s with kernels := s.kernels.map (fun x => if x.win == k.win then k else x) }
/-- Is the kernel running: past its start point and not ended? -/
def Kernel.live (k : Kernel) : Bool := k.started && k.fault.isNone

/-- The kernel as the engine at switch port `p` acts for it. -/
def Kernel.at (k : Kernel) (p : Nat) (e : Option Engine := none) : Kernel := { k with port := p, eng := e }

/-- Does a kernel's engine wait for the answer: to a read, or to a read or a write? -/
def ReqWho.reads (r : ReqWho) (w : Nat) : Bool :=
  match r with
  | .kread x _ => x == w
  | _ => false
def ReqWho.ofKernel (r : ReqWho) (w : Nat) : Bool :=
  match r with
  | .kread x _ => x == w
  | .kwrite x _ => x == w
  | _ => false

/-- The kernel of window `w` when it runs. -/
def liveKernel (s : State) (w : Nat) : Option Kernel := s.kernels.find? (fun k => k.win == w && k.live)

/-- Parameter `p` of a kernel (sparam: zero when the command carries fewer). -/
def Kernel.param (k : Kernel) (p : Nat) : Nat := ((k.params[p]?).getD 0).toNat

/-- The slot whose region holds a global address. -/
def Kernel.slotAt (k : Kernel) (ga : Nat) : Option KSlot :=
  k.slots.find? (fun x => decide (x.base ≤ ga) && decide (ga < x.base + x.size))

/-- Does an output range of the kernel hold the address (R346)? -/
def Kernel.outOk (k : Kernel) (ga : Nat) : Bool :=
  k.outs.any (fun r => decide (r.1 ≤ ga / 65536) && decide (ga / 65536 ≤ r.2))

/-! Lathes. -/

def putLathe (s : State) (l : Nat) (x : Lathe) : State := { s with lathes := Sparse.set s.lathes l {} x }
def latheState (s : State) (l : Nat) : Nat := regFld s (rLathe l 0) 3 0
def setLatheState (s : State) (l v : Nat) : State := regPut s (rLathe l 0) 3 0 v

/-- Does Lathe `l` run the kernel of window `w`? -/
def runsKernel (s : State) (l w : Nat) : Bool :=
  [1, 2, 3, 4, 5, 6].contains (latheState s l) && (latheAt s l).win == w

/-- Does Lathe `l` run some kernel? -/
def latheBusy (s : State) (l : Nat) : Bool := [1, 2, 3, 4, 5, 6].contains (latheState s l)

/-! Chucks (R186, R189, R258). -/

/-- Is a line of a Chuck scratch: in no counted area and in no CHUCK replica (R161)? -/
def scratchLine (s : State) (l x : Nat) : Bool := (areaAt s (chuckOff l x)).isNone && (replicaAt s l x).isNone

/-- The granule of a Chuck byte, in the list of valid granules. -/
def granuleOf (l x : Nat) : Nat := 128 * l + x / 65536

/-- A line of a Chuck as every reader sees it: scratch of a granule that is not valid reads as zero (R186). -/
def chuckLine (s : State) (l x : Nat) : LineData :=
  if scratchLine s l x && !s.granules.contains (granuleOf l x) then 0 else s.readLine (chuckOff l (x / 64 * 64))

/-- Validate a granule at a kernel's first write to it: its other scratch bytes are zeroed (R186). -/
def openGranule (s : State) (l x : Nat) : State :=
  if s.granules.contains (granuleOf l x) then s
  else
    let g := chuckOff l (x / 65536 * 65536)
    { s with
      granules := Sparse.add s.granules (granuleOf l x)
      mem := s.mem.filter (fun c => !(decide (g ≤ c.1) && decide (c.1 < g + 65536) &&
        scratchLine s l ((c.1 - chuckOff l 0) / 64 * 64))) }

/-- Store a line of scratch. -/
def putScratch (s : State) (l x : Nat) (d : LineData) : State :=
  (openGranule s l x).putLine (chuckOff l (x / 64 * 64)) d

/-- Store `n` bytes of scratch. -/
def putScratchN (s : State) (l x n v : Nat) : State := (openGranule s l x).writeN (chuckOff l x) n v

/-- The errors that an injection makes a read of Lathe `l`'s Chuck meet (R258, R316): whether it is uncorrectable. An
uncorrectable error owes the Lathe a reset. -/
def chuckErrors (s : State) (l : Nat) : Bool × State :=
  let s := match takeInj s (rLathe l 0x38) 1 (fun _ => true) with
    | some (_, t) => logErr (incCnt (setBit t (rLathe l 0x30) 4) (rLathe l 0x40)) { cls := 3, code := 4, kind := 1, unit := l }
    | none => s
  match takeInj s (rLathe l 0x38) 2 (fun _ => true) with
  | some (_, t) =>
    let t := setBit t (rLathe l 0x30) 5
    (true, putLathe t l { latheAt t l with owedReset := true })
  | none => (false, s)

/-- Does a range of offsets meet an area already bound, the areas of the windows among them? -/
def overlapsArea (s : State) (off size : Nat) : Bool :=
  (match target off with
   | .window _ _ => true
   | _ => false) || s.areas.any (fun a => decide (a.base < off + size) && decide (off < a.base + 64 * a.lines))

/-- The bound area that an ARM names exactly. -/
def sameArea (s : State) (off size ctr : Nat) : Option Area :=
  s.areas.find? (fun a => a.base == off && 64 * a.lines == size && a.counter == ctr)

/-- The kernel of window `w` has met an uncorrectable error in the Chuck of a Lathe that it does not run on: the Lathe is reset once the
recovery of the reading kernel ends (R258). -/
def chuckUeBy (s : State) (l w : Nat) : State :=
  if runsKernel s l w then s else putLathe s l { latheAt s l with owedBy := some w }

/-! Aborting and ending (R168, R310). -/

/-- The ENGINE number of a completion record (R373). -/
def engineNo (e : Engine) : Nat :=
  match e with
  | .lathe n => n.val
  | .gctx n => 288 + n.val / 8
  | .kite n => 256 + n.val / 128

/-- Release the charge of a shadow frame (R165): it goes back to where its region's frames come from (R103). -/
def releaseShadow (s : State) (x : Shadow) : State :=
  match regionOf s (x.unit * 65536) with
  | some r => releaseFor s r x.dom 1
  | none => releaseFrames s x.dom 1

/-- The region of a shadow frame that is to become the first frame of a unit of a DURABLE draft: it has reserved medium space
(R119). -/
def Shadow.reserved (x : Shadow) (s : State) : Option Nat :=
  match regionOf s (x.unit * 65536) with
  | some r => if x.draft && rgDurable s r then some (rgDomain s r) else none
  | none => none

/-- Discard a kernel's shadow frames: their charge and their reservation end (R165, R119), and what the home held for them goes on
(R171). -/
def freeShadows (s : State) (w : Nat) : State :=
  let mine := s.shadows.filter (fun x => x.win == w)
  let s := { s with shadows := s.shadows.filter (fun x => x.win != w) }
  forEach mine s (fun s x =>
    let s := match x.reserved s with
      | some d => setMedResv s d (Sparse.get s.medResv d 0 - 1)
      | none => s
    releaseShadow (zeroMem s (spKey (spShadow w) (x.unit * 65536)) 65536) x)

/-- Free the reels that hold a kernel's outputs (R195); an overflow frame's charge ends. -/
def freeOutputs (s : State) (w dom : Nat) : State :=
  forEach (s.reels.filter (fun e => e.2.st == .output && e.2.win == some w)) s (fun s e =>
    let s := freeReel s e.1
    if e.2.overflow then releaseFrames s dom 1 else s)

/-- Serve the requests that the home held for a kernel's frames (R171). -/
def releaseHeld (s : State) (w : Nat) : State :=
  let mine := s.trk.filter (fun t => t.phase == .held w)
  let s := { s with trk := s.trk.filter (fun t => t.phase != .held w) }
  settleAll (forEach mine s (fun s t => serve s t.req t.act))

/-- A Lathe of an aborted kernel stops (R310): its tensor queue and descriptors go, its registers stay. One that has no fault
of its own records ABORTED (R314). Every slot of its run is WASTED (R718, R719), and the tagged bundles that have not ended are
recorded with ABORTED (R725). -/
def stopLathe (s : State) (l : Nat) : State :=
  let x := latheAt s l
  let dom := (kernelOf s x.win).map (fun k => k.dom)
  let s := forEach x.tagged s (fun s e => tagPush s (some l) (dom.getD 0) (tagAborted e.2))
  let cyc := if [2, 3, 4].contains (latheState s l) then (reg s (rLathe l 0x20)).toNat else 0
  let s := pmcEnd (pmcEnd s l 0 cyc dom) l 2 cyc dom
  let s := putLathe s l { x with
    tagged := [], mread := 0, tqNew := false, tq := [], spool := [], wait := .none, stage := [], opening := none
    commit := false, mid := false, tfence := false, stall := none }
  let s := if regFld s (rLathe l 8) 63 56 = 0 then
      incCnt (setBit (regSet (regPut s (rLathe l 8) 63 56 17) (rLathe l 0x10) 0) (rLathe l 0x30) 0) (rLathe l 0x48)
    else s
  setLatheState s l 6

/-- A gather context or kite of an aborted kernel stops; a context's row fetches are in flight no more. One that has no fault of its own
records ABORTED, with its instruction and its position or evaluations (R449, R482). -/
def stopCtx (s : State) (n : Nat) : State :=
  let c := Sparse.get s.ctxs n {}
  let s := match c.batch with
    | some b => { s with ctxs := Sparse.set s.ctxs n {} { c with batch := some { b with issued := 0 } } }
    | none => s
  let s := if regFld s (rGctx n 8) 63 56 ≠ 0 then s
    else regSet (incCnt (setBit s (rGouge (n / 8) 8) 0) (rGouge (n / 8) 0x28)) (rGctx n 8)
      (BitVec.ofNat 64 (17 * 2 ^ 56 + regFld s (rGctx n 0) 31 8 * 2 ^ 32 + c.pc % 4096))
  regPut s (rGctx n 0) 2 0 5
def stopKite (s : State) (n : Nat) : State :=
  let c := Sparse.get s.kites n {}
  let evals := match c.query with
    | some q => q.evaluated + q.sideLive
    | none => 0
  let s := if regFld s (rKite n 8) 63 56 ≠ 0 then s
    else regSet (incCnt (setBit s (rWalker (n / 128) 8) 0) (rWalker (n / 128) 0x28)) (rKite n 8)
      (BitVec.ofNat 64 (17 * 2 ^ 56 + evals % 2 ^ 32 * 2 ^ 24 + c.pc % 4096))
  regPut s (rKite n 0) 2 0 4

/-- The units of this controller, in regions of placement `place`, that `len` bytes at global address `ga` lie in, as the kernel
reads them, by the name of their frame (R60, R62). -/
def nameKeys (s : State) (k : Kernel) (place ga len : Nat) : List Nat :=
  match route s ga with
  | .own off =>
    (List.range ((off % 65536 + len + 65535) / 65536)).filterMap (fun j =>
      let o := off / 65536 * 65536 + j * 65536
      match target o, regionOf s o with
      | .home, some r =>
        if rgPlace s r ≠ place then none
        else if rgVersioned s r then
          (match k.pins.find? (fun p => p.1 == r) with
           | some p => some (cacheUnit s r (spKey (spVersion r p.2) (o - rgBase s r)))
           | none => none)
        else (backing s o).map (cacheUnit s r)
      | _, _ => none)
  | _ => []

/-- A spool descriptor names the units of its source: the tier cache keeps them until it completes (R62). -/
def nameUnits (s : State) (k : Kernel) (ga len : Nat) : State :=
  { s with nameds := s.nameds ++ (nameKeys s k 1 ga len).map (fun u => (k.win, u)) }

/-- The engine access of window `w` has ended: the STREAM units that it read leave their frames (R55), and the lines that it has read
through the gateway are kept no longer. -/
def readDone (s : State) (w : Nat) : State :=
  streamDrop { s with lineBuf := s.lineBuf.filter (fun e => e.1 != w) } (fun e => e.2.1 == w && e.2.2)

/-- A descriptor that completes names its units no more, and STREAM units that it read leave their frames (R60). -/
def unnameUnits (s : State) (k : Kernel) (ga len : Nat) : State :=
  readDone { s with nameds := (nameKeys s k 1 ga len).foldl (fun l u => l.erase (k.win, u)) s.nameds } k.win

/-- At a kernel's end the walker cycles that its kites' work took are added to counter `i` of their walkers: 1 RETIRED, 2 WASTED
(R720, R721). -/
def walkTally (s : State) (k : Kernel) (i : Nat) : State :=
  forEach k.kiteWork s (fun s e => pmcEnd s (128 + e.1) i e.2 (some k.dom))

/-- Abort the kernel of window `w` (R168, R310): its engines stop, its unserved writes are cancelled and its shadow frames
are freed. A kernel has one first fault. -/
def kernelAbort (s : State) (w : Nat) (f : FaultRec) : State :=
  match kernelOf s w with
  | none => s
  | some k =>
    if k.fault.isSome then s
    else
      let s := walkTally (pmc s 206 2 1 (some k.dom)) k 2
      let s := putKernel { s with nameds := s.nameds.filter (fun p => p.1 != w), peerOuts := s.peerOuts.filter (fun p => p.1 != w) } { k with fault := some f, hspool := [], done := [], prep := false, kiteWork := [], reelsDue := [] }
      let s := forEach k.lathes s stopLathe
      let s := forEach k.ctxs s stopCtx
      let s := forEach k.kites s stopKite
      releaseHeld (freeOutputs (freeShadows s w) w k.dom) w

/-- The suspect of window `w` is out of its hang: the last one to leave ends the hang, which was transient when no replay
hung again (R617). -/
def leaveHang (s : State) (w : Nat) (guilty : Bool) : State :=
  let mine := s.hangs.filter (fun h => h.left.contains w)
  let s := { s with hangs := s.hangs.filterMap (fun h =>
    if h.left.contains w then
      (if h.left.erase w = [] then none else some { h with left := h.left.erase w, guilty := h.guilty || guilty })
    else some h) }
  if mine.any (fun h => h.left.erase w == [] && !h.guilty) && !guilty then
    recovEvent s 5 5 { cls := 7, code := 5, win := w }
  else s

/-- A watchdog fired on engine `eng` (R610, R611): the kernel of window `w`, whose watchdog it was, and the other kernels with
a context there are suspects, and the controller collects the dump. A suspect that hangs in its replay is guilty (R614). -/
def startHang (s : State) (eng w : Nat) (others : List Nat) : State :=
  let s := incCnt (setBit s (rRecov 0x18) 3) (rRecov (0x40 + 8 * 3))
  match kernelOf s w with
  | none => s
  | some k =>
    if k.suspect then
      leaveHang (putKernel (recovEvent s 4 4 { cls := 7, code := 4, action := 12, win := w, dom := k.dom }) { k with guilty := true }) w true
    else
      let others := others.filter (fun v => v != w && s.kernels.any (fun x => x.win == v && x.live))
      let s := forEach others s (fun s v => kernelAbort s v { code := 17, engine := eng, addr := 0 })
      let s := collectDump s 16 w 2 k.dom
      { s with
        kernels := s.kernels.map (fun x => if x.win == w || others.contains x.win then { x with suspect := true } else x)
        hangs := s.hangs ++ [⟨eng, (s.kernels.filter (fun x => x.win == w || others.contains x.win)).map (fun x => x.win), false⟩] }

/-- A fault of a kernel, logged in its class (R40, R314, R582), with the ENGINE number of the completion record and the unit of the log
entry: a GRANT fault freezes the kernel's context after the dump (R618, R653), a watchdog starts hang recovery. -/
def kernelFaultAt (s : State) (w eng kind unit code addr : Nat) (others : List Nat) : State :=
  match kernelOf s w with
  | none => s
  | some k =>
    if k.fault.isSome then s
    else
      let s := if code = 6 then violate s (.kernel (Fin.ofNat 1024 w)) addr
        else if code = 17 then s
        else logErr s { cls := if code = 4 then 0 else if code = 16 then 7 else if code = 14 ∨ code = 15 ∨ code = 35 ∨ code = 40 then 3 else 6,
                        code := code, kind := kind, unit := unit, dom := k.dom, action := 3, addr := addr, win := w,
                        cseq := winSeq s w }
      let s := if code = 6 then collectDump s 16 w 12 k.dom else s
      let s := kernelAbort s w { code := code, engine := eng, addr := addr }
      if code = 6 then
        (match kernelOf s w with
         | some k => putKernel s { k with frozen := true }
         | none => s)
      else if code = 16 then startHang s eng w others
      else s

/-- A fault of a kernel at one of its engines. -/
def kernelFault (s : State) (w : Nat) (e : Engine) (code addr : Nat) (others : List Nat := []) : State :=
  let (kind, unit) := match e with
    | .lathe n => (1, n.val)
    | .gctx n => (5, n.val)
    | .kite n => (3, n.val)
  kernelFaultAt s w (engineNo e) kind unit code addr others

/-- LATHE_PC_L. -/
def lathePc (s : State) (l : Nat) : Nat := regFld s (rLathe l 0x18) 19 0 + (if (latheAt s l).pastEnd then 2 ^ 20 else 0)

/-- A fault of Lathe `l` in slot `slot` (0 S, 1 M, 2 T, 3 V) of the bundle at `pc`: its registers record the first one (R314). -/
def latheFaultAt (s : State) (l code slot pc addr : Nat) : State :=
  let s := incCnt (setBit s (rLathe l 0x30) 0) (rLathe l 0x48)
  let s := if code = 16 then setBit s (rLathe l 0x30) 1
    else if code = 9 then setBit s (rLathe l 0x30) 2
    else if code = 6 then setBit s (rLathe l 0x30) 3
    else if code = 15 then setBit s (rLathe l 0x30) 6
    else s
  let s := if regFld s (rLathe l 8) 63 56 = 0 then
      let w := BitVec.ofNat 64 (code * 2 ^ 56 + slot * 2 ^ 54 + pc % 2 ^ 20)
      regSet (regSet s (rLathe l 8) w) (rLathe l 0x10) (BitVec.ofNat 64 (addr % 2 ^ 60))
    else s
  kernelFault s (latheAt s l).win (.lathe (Fin.ofNat 128 l)) code addr

/-- A fault of Lathe `l` in the bundle that issues. -/
def latheFault (s : State) (l code slot addr : Nat) : State := latheFaultAt s l code slot (lathePc s l) addr

/-- The PINNED slots of a kernel that other controllers hold (R191, R194): those of the box, whose deciding homes hold commits for its
snapshot, and those of other boxes, whose CURRENT the gateway reads. -/
def Kernel.farPinned (s : State) (k : Kernel) (box : Bool) : List KSlot :=
  k.slots.filter (fun x => x.role == 1 && x.ctrl != ownCtrl s && (x.ctrl / 16 == ownCtrl s / 16) == box)

/-- Release the commits that other controllers hold for a kernel's snapshot (R191). -/
def releaseHolds (s : State) (k : Kernel) : State :=
  forEach (k.farPinned s true) s (fun s x => tellFar s x.ctrl (x.ctrl * 2 ^ 50) [0x5A, k.win, x.region])

/-- Remove a kernel's record at its end: its binding, pins, plan use, the areas it bound and its reservations, pins and areas at other
controllers go (R367, R764, R89, R372), and the units of STREAM regions that its schedule fetched leave the tier cache (R348). -/
def endKernel (s : State) (w : Nat) : State :=
  match kernelOf s w with
  | none => s
  | some k =>
    let s := if k.queued then regSub s (rPlanStat k.plan) 37 27 1 else s
    let s := if k.holding then releaseHolds s k else s
    let s := if k.work = 0 then s else releaseFrames s k.dom k.work
    let s := { (streamDrop s (fun e => e.2.1 == w)) with
      kernels := s.kernels.filter (fun x => x.win != w)
      areas := s.areas.filter (fun a => a.kernel != some w)
      kstamps := s.kstamps.filter (fun p => p.1 != w)
      nameds := s.nameds.filter (fun p => p.1 != w)
      lineBuf := s.lineBuf.filter (fun p => p.1 != w)
      missq := s.missq.filter (fun m => m.req.src != .kernel (Fin.ofNat 1024 w))
      farGot := s.farGot.filter (fun p => p.1 != w)
      agentReqs := s.agentReqs.map (fun r => if r.who.ofKernel w then { r with who := .agent } else r)
      lathQ := Sparse.rem s.lathQ w
      engQ := Sparse.rem s.engQ w }
    let s := forEach (k.asked.filter (fun c => c != ownCtrl s)) s (fun s c => tellFar s c (c * 2 ^ 50) [13, w])
    let s := dropCached s ((s.tierCache.map (fun e => e.key)).filter (fun u => !s.nameds.any (fun p => p.2 == u) &&
      (match unitRegion u with
       | some r => rgPlace s r == 3
       | none => false)))
    forEach (k.pins.map (fun p => p.1)).dedup (sweepPins s k.pins) refreshReplica

/-- Release a Lathe at its kernel's end (R308): its fault record is held until then (R315). One that owes a reset for an
uncorrectable Chuck error enters RESETTING instead of IDLE, but for one whose reset waits for the recovery of another kernel, the
reader (R258). -/
def freeLathe (s : State) (l : Nat) : State :=
  setLatheState (regSet (regSet s (rLathe l 8) 0) (rLathe l 0x10) 0) l (if (latheAt s l).owedReset && (latheAt s l).owedBy.isNone then 7 else 0)

/-- Release a context or a kite at its kernel's end: its fault and the address of it are held until then (R450, R483). -/
def freeCtx (s : State) (n : Nat) : State := regPut (regSet (regSet s (rGctx n 8) 0) (rGctx n 0x10) 0) (rGctx n 0) 2 0 0
def freeKite (s : State) (n : Nat) : State := regPut (regSet (regSet s (rKite n 8) 0) (rKite n 0x10) 0) (rKite n 0) 2 0 0

/-- Release every engine of a kernel. -/
def freeEngines (s : State) (k : Kernel) : State :=
  forEach k.kites (forEach k.ctxs (forEach k.lathes s freeLathe) freeCtx) freeKite

/-- Release a kernel's engines and complete it with FAULT (R374, R600). -/
def releaseKernel (s : State) (w : Nat) : State :=
  match kernelOf s w with
  | none => s
  | some k =>
    match k.fault with
    | none => s
    | some f =>
      let s := freeEngines s k
      let s := endKernel s w
      complete s w { status := 1, detail := f.code, replays := k.replays, engine := f.engine, addr := f.addr }

/-- A RUN that has not reached its start point ends: its engines are free again, and it completes with FAULT, DETAIL 17 (ABORTED)
(R382, R626). -/
def dropStart (s : State) (w addr : Nat) : State :=
  match kernelOf s w with
  | none => s
  | some k => complete (endKernel (freeEngines s k) w) w { status := 1, detail := 17, addr := addr }

/-- R659, R653: an access of a kernel that the grants refuse. -/
def kGrant {α : Type} (s : State) : KAcc α := .fault 6 s

/-! What a kernel reads (R173 to R175, R292). -/

/-- A line of a version at memory key `key` as the kernel reads it (R60, R85): it waits for the line's unit, and a read that finds a
STREAM unit it has waited for is its last wait on it (R55). The home's look-up of the line may meet an injected error (R253). -/
def kReadUnit (s : State) (k : Kernel) (r off key : Nat) : KAcc LineData :=
  match missFor s k.win r key with
  | some u => .wait (fetchUnit (streamAwait s k.win r u) u off (some k.dom))
  | none =>
    if (lookupErr s off).2.isSome && !trkRoom s (homeOf off) then .wait s
    else match lookupErr s off with
    | (s, some d) => .wait (settleAll (startTxn s ⟨.recall, 0, .control, off, 0, 0⟩ false (validHosts s) true (some d)))
    | (s, none) =>
    if poisonedAt s r key then .fault 10 s
    else .ok (s.readLine key) (frameHit (streamRead s k.win (cacheUnit s r key)) off key (some k.dom))

/-- The unit that an access of the kernel to a line of the home or draft range needs and does not find (R33, R60). -/
def kMiss (s : State) (k : Kernel) (r off : Nat) : Option Nat :=
  match backing s off with
  | some key => missFor s k.win r key
  | none => none

/-- The kernel waits for a unit (R55, R60). -/
def kAwait (s : State) (k : Kernel) (r off u : Nat) : State := fetchUnit (streamAwait s k.win r u) u off (some k.dom)

/-- The kernel has read a line of the home or draft range: its wait on the line's unit is over (R55). -/
def kFound (s : State) (k : Kernel) (r off : Nat) : State :=
  match backing s off with
  | some key => if key < 2 ^ 50 then s else streamRead s k.win (cacheUnit s r key)
  | none => s

/-- A line of the home or draft range as the kernel reads it. The frames of a kernel that prepares its commit (R166) and the lines
of a reel that is being applied (R529) are held. -/
def kReadHome (s : State) (k : Kernel) (lathe : Bool) (off : Nat) : KAcc LineData :=
  match regionOf s off with
  | none => .fault 4 s
  | some r =>
    let bound := k.slots.any (fun x => x.region == r && x.ctrl == ownCtrl s) || k.pins.any (fun p => p.1 == r)
    if decide (off < 2 ^ 48) && rgDeleting s r && !bound then .fault 4 s
    else if !permitRegion s k.dom r false then kGrant s
    else if s.shadows.any (fun x => x.unit == off / 65536 && x.win == k.win) then
      let key := spKey (spShadow k.win) off
      if poisoned s key then .fault 10 s else .ok (s.readLine key) s
    else if decide (off < 2 ^ 48) && rgVersioned s r then
      let v := match k.pins.find? (fun p => p.1 == r) with
        | some p => p.2
        | none => rgCurrent s r
      let x := off - rgBase s r
      let key := spKey (spVersion r v) x
      if lathe && rgPlace s r == 2 && Sparse.get s.replicas r 0 == v + 1 then
        let i := x / 65536
        let l := rgChuckFirst s r + i % rgChuckCount s r
        let c := rgChuckOff s r + i / rgChuckCount s r * 65536 + x % 65536
        let (ue, s) := chuckErrors s l
        if ue then .fault 14 (chuckUeBy s l k.win)
        else if poisoned s (chuckOff l c) then .fault 10 s
        else .ok (s.readLine (chuckOff l c)) s
      else kReadUnit s k r off key
    else if s.shadows.any (fun x => x.unit == off / 65536 && prepared s x.win) || reelHolds s off || dropping s off then .wait s
    else
      match kMiss s k r off with
      | some u => .wait (kAwait s k r off u)
      | none =>
        if (lookupErr s off).2.isSome && !trkRoom s (homeOf off) then .wait s
        else match lookupErr s off with
        | (s, some d) => .wait (settleAll (startTxn s ⟨.recall, 0, .control, off, 0, 0⟩ false (validHosts s) true (some d)))
        | (s, none) =>
          let s := touchLine s off
          let (st, _) := lineRec s off
          if st == .E || st == .M then .wait (askData s (.kernel (Fin.ofNat 1024 k.win)) off)
          else if isPoisoned s off then .fault 10 s
          else .ok (curLine s off) (frameHit (kFound s k r off) off ((backing s off).getD off) (some k.dom))

/-- Count a line that a home serves for a kernel: READS (0) or WRITES (1) (R705). -/
def KAcc.counted {α : Type} (a : KAcc α) (k : Kernel) (off i : Nat) : KAcc α :=
  match a with
  | .ok v s => .ok v (homeCount s off i (some k.dom))
  | r => r

/-- An access of a kernel's engine to a line of this controller crosses the switch core when it is served (R297). -/
def KAcc.crossed {α : Type} (a : KAcc α) (k : Kernel) (off : Nat) (write : Bool) (d : α → LineData) : KAcc α :=
  match a with
  | .ok v s => .ok v (crossCore s k.port (agentPort off) k.dom (globalAddr s off) write (d v))
  | r => r

/-- The leg of a reel access between the engine and the gateway (R35, R297). -/
def KAcc.throughGw {α : Type} (a : KAcc α) (k : Kernel) (ga : Nat) (write : Bool) (d : α → LineData) : KAcc α :=
  match a with
  | .ok v s => .ok v (crossCore s k.port 40 k.dom ga write (d v))
  | r => r

/-- A line of a Chuck as a kernel reads it; a poisoned line of a CHUCK replica is a POISON fault (R292). -/
def kReadChuck (s : State) (k : Kernel) (l x : Nat) : KAcc LineData :=
  if !runsKernel s l k.win && !permitChuck s k.dom l false then kGrant s
  else
    let (ue, s) := chuckErrors s l
    if ue then .fault 14 (chuckUeBy s l k.win)
    else if (replicaAt s l x).isSome && poisoned s (chuckOff l x) then .fault 10 s
    else .ok (chuckLine s l x) s

/-- The eight counters of a line of counter space (R182). -/
def counterLine (s : State) (k : Nat) : LineData :=
  lineOfWords ((List.range 8).map (fun i => counter s (k / 8 * 8 + i)))

/-- A line that another controller sends back when a kernel reads there; `ext` is the line when it has come: a poisoned one is a
POISON fault (R247). The request names the version that the kernel reads (R31), and a line that the kernel has output there itself
is read back (R175). One that has come over the fabric is taken, and one request is out for a line at a time. `up` says that a port to it is ACTIVE: else the read is answered Err FLUSHED (R518, R519). -/
def kReadFar (s : State) (k : Kernel) (c ga : Nat) (up : Bool) (ext : Option FarLine) : KAcc LineData :=
  match s.peerOuts.find? (fun e => e.1 == k.win && e.2.1 == ga / 64 * 64) with
  | some e => .ok e.2.2.1 s
  | none =>
    let line := ga / 64
    let got : Option (LineData × Bool) := match ext with
      | some l => some (l.data, l.poison)
      | none => (s.farGot.find? (fun e => e.1 == k.win && e.2.1 == line)).map (fun e => e.2.2)
    match got with
    | some l =>
      let s := { s with
        farGot := s.farGot.filter (fun e => !(e.1 == k.win && e.2.1 == line))
        agentReqs := s.agentReqs.map (fun r => if r.who.reads k.win ∧ r.addr = line then { r with who := .agent } else r) }
      if l.2 then .fault 10 s else .ok l.1 s
    | none =>
      let ver := match (k.slotAt ga).bind (fun x => x.ver) with
        | some v => [1, v]
        | none => [0, 0]
      if !up then .fault 17 s
      else if s.agentReqs.any (fun r => r.who.reads k.win && r.addr == line) then .wait s
      else .wait (sendReq s k.port 4 c ga k.dom (.kread k.win k.eng) (7 :: k.win :: ver) 0 0)

/-- A line that a kernel outputs to the home or draft range of another controller of the box (R293, R346): it is held until the
commit point, and an abort drops it (R30, R168). `grp` is the multicast group of one that goes to several. -/
def kWriteFar (s : State) (k : Kernel) (ga : Nat) (d : LineData) (grp : Option Nat := none) : KAcc Unit :=
  let a := ga / 64 * 64
  .ok () { s with peerOuts := s.peerOuts.filter (fun e => !(e.1 == k.win && e.2.1 == a)) ++ [(k.win, a, d, grp)] }

/-- Write a line at the same offset of several peer controllers (R296, R542, R543): one cell of group `g`, which the switch core stores once
with a pointer for each target, and whose message carries ADDR with bits [59:50] zero. Every target answers; its request has the one TXN. -/
def sendMulticast (s : State) (k : Kernel) (g off : Nat) (outs : List (Nat × Nat)) (ts : List Nat) (who : ReqWho) (d : LineData) : State :=
  let ga := fun (c : Nat) => c * 2 ^ 50 + off
  let req := fun (t c : Nat) => ({ port := k.port, txn := t, addr := ga c / 64, op := 6, who := who } : AgentReq)
  let (t, s) := match ts with
    | [] => (0, s)
    | c :: rest =>
      let (t, s) := openReq s (req 0 c)
      (t, { s with agentReqs := s.agentReqs ++ rest.map (req t) })
  let s := forEach ts s (fun s c => send s (.peer c (ga c) [6, k.win] d))
  agentCell s k.port (outs ++ ts.map (fun c => ((portOf s c (ga c)).getD 41, c))) k.dom (msgBody (reqHdr s 6 t 0 off k.dom false) false 0 d) (some g)

/-- The lines that a kernel has output to other controllers of the box are sent at its commit point: a line of a multicast group in one
cell. -/
def sendOutputs (s : State) (k : Kernel) : State :=
  let mine := s.peerOuts.filter (fun e => e.1 == k.win)
  let s := { s with peerOuts := s.peerOuts.filter (fun e => e.1 != k.win) }
  let casts := (mine.filterMap (fun e => e.2.2.2.map (fun g => (g, e.2.1 % 2 ^ 50, e.2.2.1)))).dedup
  let s := forEach casts s (fun s c =>
    let ts := (mine.filter (fun e => e.2.2.2 == some c.1 && e.2.1 % 2 ^ 50 == c.2.1 && e.2.2.1 == c.2.2)).map (fun e => e.2.1 / 2 ^ 50 % 1024)
    sendMulticast s k c.1 c.2.1 [] ts .agent c.2.2)
  forEach (mine.filter (fun e => e.2.2.2.isNone)) s (fun s e =>
    sendReq s k.port 6 (e.2.1 / 2 ^ 50 % 1024) e.2.1 k.dom .agent [6, k.win] 0 e.2.2.1)

/-- The region and version that a kernel reads through a slot: what a reel staged for it is tagged with (R521). -/
def KSlot.tag (x : KSlot) : Option (Nat × Nat) := x.ver.map (fun v => (x.region, v))

/-- A kernel's read of the line at a global address (R173, R292). An engine that the switch core holds waits (R537). -/
def kRead (s : State) (k : Kernel) (lathe : Bool) (ga : Nat) (ext : Option FarLine) : KAcc LineData :=
  if agentHeld s k.port then .wait s else
  match route s ga with
  | .fault => .fault 4 s
  | .peer slot _ =>
    let c := regFld s rAddrSelf 9 4 * 16 + slot
    kReadFar s k c ga (peerUp s c) ext
  | .gateway c off =>
    if 2 ^ 49 ≤ off then kReadFar (if uplinkUp s then s else gwEvent s 3 ga) k c ga (uplinkUp s) ext
    else (gwKernelRead s k.win ((k.slotAt ga).bind KSlot.tag) ga).throughGw k ga false id
  | .own off =>
    KAcc.crossed (d := id) (k := k) (off := off) (write := false) <| match target off with
    | .home => (kReadHome s k lathe (off / 64 * 64)).counted k off 0
    | .draft _ _ => (kReadHome s k lathe (off / 64 * 64)).counted k off 0
    | .chuck l x => kReadChuck s k l x
    | .window w _ =>
      if w = k.win ∨ permitWindow s k.dom w false then .ok (s.readLine (off / 64 * 64)) s else kGrant s
    | .counters c => if permitCounter s k.dom c false then .ok (counterLine s c) s else kGrant s
    | .control x => if permitControl s k.dom x false then .ok (controlLine s k.dom x) s else kGrant s
    | .hole => .fault 4 s

/-! What a kernel writes (R164, R165, R283, R293, R346). -/

/-- Make the kernel's shadow frame of a unit (R164): host E and M copies are recalled first, and the unit's current bytes,
stored O lines included, are copied. A frame for a draft unit that has none also reserves medium space for a DURABLE draft (R119),
and a unit that reads as lost passes its poison on (R140, R141). -/
def makeShadow (s : State) (k : Kernel) (off : Nat) : KAcc Unit :=
  let unit := off / 65536
  if s.shadows.any (fun x => x.unit == unit && x.win == k.win) then .ok () s
  else if (unitLookups s [unit]).2 then .wait (unitLookups s [unit]).1
  else if heldLines s unit != [] then .wait (recallAll s (heldLines s unit))
  else if s.trk.any (fun t => t.req.off / 65536 == unit && t.phase != .unit && t.phase != .cmpAck)
      || s.recallq.any (fun q => q.drop && q.line * 64 / 65536 == unit) || s.wbq.any (fun w => w.base / 65536 == unit) then .wait s
  else
    let fresh := decide (2 ^ 48 ≤ off) && !s.draftUnits.contains unit
    match regionOf s off with
    | none => .fault 4 s
    | some r =>
      let m := off / 2 ^ 29
      let newMap := fresh && rgDurable s r && !s.draftMaps.contains m
      let dom := if fresh then rgDomain s r else k.dom
      if fresh && rgDurable s r && overMedium s dom 1 then .fault 11 s
      else match kMiss s k r off with
        | some u => .wait (kAwait s k r off u)
        | none =>
          match allocFor s r dom (if newMap then 2 else 1) with
          | .quota => .fault 11 s
          | .capacity => .fault 12 s
          | .ok t =>
            let t := match backing t (unit * 65536) with
              | some src => copyUnit (kFound t k r off) r src (spKey (spShadow k.win) (unit * 65536))
              | none => t
            let t := if fresh && rgDurable s r then setMedResv t dom (Sparse.get t.medResv dom 0 + 1) else t
            let t := forEach (t.store.filter (fun e => e.line * 64 / 65536 == unit)) t (fun t e =>
              t.putLine (spKey (spShadow k.win) (e.line * 64)) e.data)
            .ok () { (homeCount t off 9 (some k.dom)) with
              shadows := t.shadows ++ [⟨unit, k.win, dom, fresh⟩]
              draftMaps := if newMap then Sparse.add t.draftMaps m else t.draftMaps }

/-- A kernel's write to its output in the home or draft range: the bytes that `mask` covers go to the shadow frame. A
partial write of a poisoned line is a POISON fault (R247). -/
def kWriteHome (s : State) (k : Kernel) (off ga : Nat) (d : LineData) (mask : BitVec 64) : KAcc Unit :=
  match regionOf s off with
  | none => .fault 4 s
  | some r =>
    if (decide (off < 2 ^ 48) && rgVersioned s r) || !k.outOk ga || !permitRegion s k.dom r true then kGrant s
    else match makeShadow s k off with
      | .ok _ s =>
        let key := spKey (spShadow k.win) (off / 64 * 64)
        let full := mask == BitVec.ofNat 64 (2 ^ 64 - 1)
        if !full && poisoned s key then .fault 10 s
        else .ok () (clrPoison (s.putLine key (mergeLine (s.readLine key) d mask)) key)
      | .fault c s => .fault c s
      | .wait s => .wait s

/-- A kernel's full-line write to a Chuck of this controller (R189, R283): a counted write in a counted area, scratch on a
Lathe of its own, and otherwise a GRANT fault, as is a write to a replica (R68). -/
def kWriteChuck (s : State) (k : Kernel) (l x : Nat) (d : LineData) : KAcc Unit :=
  if (replicaAt s l x).isSome then kGrant s
  else match areaAt s (chuckOff l x) with
  | some a =>
    if runsKernel s l k.win || permitChuck s k.dom l true then .ok () (countedWrite s a (chuckOff l (x / 64 * 64)) k.dom d) else kGrant s
  | none =>
    if runsKernel s l k.win then .ok () (putScratch s l x d)
    else if latheBusy s l || !permitChuck s k.dom l true then kGrant s
    else .ok () (putScratch s l x d)

/-- What a line written to the control window does (R760), as the later files define it. -/
abbrev CtlWrite := State → Nat → Nat → LineData → State

/-- A kernel's full-line write at a global address (a write to another controller with no ACTIVE port toward it is answered Err
FLUSHED, R518, R519, R533); `ctl` writes the registers of a line of the control window. An engine that the switch core holds waits
(R537). -/
def kWrite (ctl : CtlWrite) (s : State) (k : Kernel) (ga : Nat) (d : LineData) : KAcc Unit :=
  if agentHeld s k.port then .wait s else
  match route s ga with
  | .fault => .fault 4 s
  | .peer slot off =>
    let c := regFld s rAddrSelf 9 4 * 16 + slot
    if off < 2 ^ 49 then (if k.outOk ga then kWriteFar s k ga d else kGrant s)
    else if !peerUp s c then .fault 17 s
    else .ok () (sendReq s k.port 6 c ga k.dom (.kwrite k.win k.eng) [6, k.win] 0 d)
  | .gateway c off =>
    if off < 2 ^ 49 then (if k.outOk ga then (gwKernelWrite s k.win k.dom ga d).throughGw k ga true (fun _ => d) else kGrant s)
    else if !uplinkUp s then .fault 17 (gwEvent s 3 ga)
    else .ok () (sendReq s k.port 6 c ga k.dom (.kwrite k.win k.eng) [6, k.win] 0 d)
  | .own off =>
    KAcc.crossed (d := fun _ => d) (k := k) (off := off) (write := true) <| match target off with
    | .home => (kWriteHome s k (off / 64 * 64) ga d (BitVec.ofNat 64 (2 ^ 64 - 1))).counted k off 1
    | .draft _ _ => (kWriteHome s k (off / 64 * 64) ga d (BitVec.ofNat 64 (2 ^ 64 - 1))).counted k off 1
    | .chuck l x => kWriteChuck s k l x d
    | .window w x =>
      if !permitWindow s k.dom w true then kGrant s
      else match windowWrite s w x k.dom d with
        | (true, s) => .fault 4 s
        | (false, s) => .ok () s
    | .counters _ => kGrant s
    | .control x => if permitControl s k.dom x true then .ok () (ctl s x k.dom d) else kGrant s
    | .hole => .fault 4 s

/-- Lines that other controllers have answered, by address. -/
abbrev Ext := List FarLine

/-- The line at an address, when another controller answered it. -/
def Ext.at (e : Ext) (ga : Nat) : Option FarLine := e.find? (fun p => p.addr.toNat / 64 == ga / 64)

/-- A line that an engine access has read through the gateway is kept until the access ends: it may wait for more reels than the staging
area holds (R33). -/
def keepLine (s : State) (k : Kernel) (ga : Nat) (d : LineData) : State :=
  match route s ga with
  | .gateway _ off => if off < 2 ^ 49 then { s with lineBuf := (k.win, ga / 64, d) :: s.lineBuf } else s
  | _ => s

/-- The line at an address that an engine access of the kernel has read already, unless the kernel has output there since (R175). -/
def keptLine (s : State) (k : Kernel) (ga : Nat) : Option LineData :=
  if s.reels.any (fun e => e.2.st == .output && e.2.win == some k.win && e.2.addr == ga / 65536 * 65536 && e.2.dirty.contains (ga / 64 % 1024))
  then none
  else (s.lineBuf.find? (fun e => e.1 == k.win && e.2.1 == ga / 64)).map (fun e => e.2.2)

/-- A line of an access to several lines: the one that it has read already, or a read that is kept. -/
def kReadKept (s : State) (k : Kernel) (lathe : Bool) (ga : Nat) (ext : Option FarLine) : KAcc LineData :=
  match keptLine s k ga with
  | some d => .ok d s
  | none => match kRead s k lathe ga ext with
    | .ok d s => .ok d (keepLine s k ga d)
    | r => r

/-- Read consecutive lines; `ext` holds those of other controllers. -/
def kReadLines (s : State) (k : Kernel) (lathe : Bool) (ga n : Nat) (ext : Ext) : KAcc (List LineData) :=
  match n with
  | 0 => .ok [] s
  | m + 1 =>
    match kReadKept s k lathe ga (ext.at ga) with
    | .ok d s =>
      (match kReadLines s k lathe (ga + 64) m ext with
       | .ok ds s => .ok (d :: ds) s
       | .fault c s => .fault c s
       | .wait s => .wait s)
    | .fault c s => .fault c s
    | .wait s => .wait s

/-- `n` bytes at a global address, as a little-endian number. -/
def kBytes (s : State) (k : Kernel) (ga n : Nat) (ext : Ext) : KAcc Nat :=
  match kReadLines s k false (ga / 64 * 64) ((ga % 64 + n + 63) / 64) ext with
  | .ok ds s => .ok (ds.foldr (fun d acc => d.toNat + 2 ^ 512 * acc) 0 / 2 ^ (8 * (ga % 64)) % 2 ^ (8 * n)) s
  | .fault c s => .fault c s
  | .wait s => .wait s

/-- The outcome of accesses that tell where one of them faulted. -/
inductive Start (α : Type) where
  | ok (a : α) (s : State)
  | fault (code addr : Nat) (s : State)
  | wait (s : State)

/-- An access's outcome with the address of it. -/
def KAcc.start {α β : Type} (a : KAcc α) (ga : Nat) (f : α → State → Start β) : Start β :=
  match a with
  | .ok v s => f v s
  | .fault c s => .fault c ga s
  | .wait s => .wait s

/-- An engine's output or counted line (R432, R476): without `counted` it must lie in the home or draft range of some
controller, with it in a counted area: one of another controller goes where a counted area can lie (R176). -/
def kOutLine (s : State) (k : Kernel) (counted : Bool) (ga : Nat) (d : LineData) : KAcc Unit :=
  if agentHeld s k.port then .wait s else
  match route s ga with
  | .fault => .fault 4 s
  | .peer slot off =>
    if !counted && decide (2 ^ 49 ≤ off) then .fault 4 s
    else if !counted then (if k.outOk ga then kWriteFar s k ga d else kGrant s)
    else if !counterPlace off then .fault 4 s
    else if !peerUp s (regFld s rAddrSelf 9 4 * 16 + slot) then .fault 17 s
    else .ok () (sendReq s k.port 6 (regFld s rAddrSelf 9 4 * 16 + slot) ga k.dom (.kwrite k.win k.eng) [6, k.win] 0 d)
  | .gateway c off =>
    if counted then
      (if !counterPlace off then .fault 4 s
       else if !uplinkUp s then .fault 17 (gwEvent s 3 ga)
       else .ok () (sendReq s k.port 6 c ga k.dom (.kwrite k.win k.eng) [6, k.win] 0 d))
    else if 2 ^ 49 ≤ off then .fault 4 s
    else if k.outOk ga then (gwKernelWrite s k.win k.dom ga d).throughGw k ga true (fun _ => d) else kGrant s
  | .own off =>
    KAcc.crossed (d := fun _ => d) (k := k) (off := off) (write := true) <| if counted then
      (match areaAt s off with
       | some a =>
         (match target off with
          | .chuck l x => kWriteChuck s k l x d
          | _ =>
            match regionOf s off with
            | some r => if permitRegion s k.dom r true then .ok () (countedWrite s a (off / 64 * 64) k.dom d) else kGrant s
            | none => .fault 4 s)
       | none =>
         match target off with
         | .window w x =>
           if !permitWindow s k.dom w true then kGrant s
           else (match windowWrite s w x k.dom d with
             | (true, s) => .fault 4 s
             | (false, s) => .ok () s)
         | _ => .fault 4 s)
    else match target off with
      | .home => (kWriteHome s k (off / 64 * 64) ga d (BitVec.ofNat 64 (2 ^ 64 - 1))).counted k off 1
      | .draft _ _ => (kWriteHome s k (off / 64 * 64) ga d (BitVec.ofNat 64 (2 ^ 64 - 1))).counted k off 1
      | _ => .fault 4 s

/-- Write consecutive lines of an engine's output. -/
def kOutLines (s : State) (k : Kernel) (counted : Bool) (ga : Nat) (ds : List LineData) : Start Unit :=
  match ds with
  | [] => .ok () s
  | d :: rest => (kOutLine s k counted ga d).start ga fun _ s => kOutLines s k counted (ga + 64) rest

/-- Handle cj of a Lathe's rank (R344). -/
def handleOf (k : Kernel) (rank j : Nat) : Option Handle := (k.handles.find? (fun h => h.1 == 16 * rank + j)).map (fun h => h.2)

/-- The value of a handle's counter: this controller's own, or the value `far` that another controller answers. A domain
without a grant to the counter takes a GRANT fault (R649, R650). -/
def handleValue (s : State) (k : Kernel) (h : Handle) (far : Word) : Option Word :=
  match route s h.ctr with
  | .own off =>
    match target off with
    | .counters c => if permitCounter s k.dom c false || permitCounter s k.dom c true then some (counter s c) else none
    | _ => none
  | _ => some far

/-- Arm a handle's counted area (R286); one of another controller is armed there. -/
def armHandle (s : State) (h : Handle) : State :=
  match h.area with
  | none => s
  | some (ga, _) =>
    match route s ga with
    | .own off =>
      (match areaAt s off with
       | some a => armArea s a
       | none => s)
    | .fault => s
    | _ => tellFar s (ga / 2 ^ 50 % 1024) ga [8, h.ctr]

end Sys2Proof.Machine
end

