-- ==== Sys2Proof/Machine/Commands.lean ====
section
/-! DEFINITION. Machine/Commands.lean: commands in windows: readiness, AFTER conditions, ARM, drafts and publishing
(chapters 02, 04 and 08). -/

namespace Sys2Proof.Machine

/-! Readiness (R361 to R365, R645). -/

/-- The header bytes that an opcode leaves unused (R364, R365). -/
def unusedBytes (op : Nat) : List Nat :=
  let r := fun (a b : Nat) => (List.range (b + 1 - a)).map (fun i => a + i)
  3 :: (if op = 1 then [42, 43] ++ r 48 63
    else if op = 2 then r 52 63
    else if op = 3 then r 38 63
    else if op = 4 then r 53 63
    else if op = 5 then r 38 63
    else if op = 6 then [38, 39] ++ r 46 63
    else if op = 7 then r 38 63
    else r 40 63)

/-- The opcodes of R365. -/
def knownOp (op : Nat) : Bool := (decide (1 ≤ op) && decide (op ≤ 7)) || op == 0x10

/-- What a ready command's header fails on first: its refusal reason. -/
def headerFault (s : State) (w : Nat) : Option Nat :=
  let op := hdr s w 2 1
  let len := hdr s w 0 2
  let x := winOf s w
  if !knownOp op then some 2
  else if (unusedBytes op).any (fun b => hdr s w b 1 != 0) then some 3
  else if op == 4 && decide (3 < hdr s w 52 1) then some 3
  else if op == 1 && decide (len < 1 + (hdr s w 38 1 + 7) / 8 + (hdr s w 39 1 + 7) / 8) then some 3
  else if hdr s w 8 8 % 8 != 0 then some 3
  else if x.doms != [x.dom0.getD 0] then some 4
  else none

/-- Read the AFTER counter of window `w` when another controller holds it (R369) and a port reaches it (R518, R533). -/
def pollAfter (s : State) (w : Nat) : State :=
  let ga := hdr s w 8 8
  match route s ga with
  | .own _ => s
  | .fault => s
  | _ =>
    let c := ga / 2 ^ 50 % 1024
    match farUp s c ga with
    | (true, s) => sendReq s 41 4 c ga (winDom s w) .agent [14, w] 0 0
    | (false, s) => s

/-- COMMAND_READY (R361): line 0 has arrived and the counter holds at least LEN. The command is ready when exactly lines 0 to
LEN - 1 have arrived; LDR_INJ KIND 3 fails that check. A LEN above 1,024, which no counter reaches, fails it as soon as line 0 has
arrived (assumption 217). A window that a cold reset closed holds the next command back until the kernel before it has completed. -/
def doCommandReady (w : Fin 1024) (s : State) : State :=
  whenRunning s fun s =>
    let w := w.val
    let x := winOf s w
    let len := hdr s w 0 2
    if (keptOf s w).isSome || mailbox s w || winState s w != 1 || x.ready || !x.arrived.contains 0 || (decide ((counter s (winCtr w)).toNat < len) && decide (len ≤ 1024)) then s
    else
      let inj := takeInj s rLdrInj 3 (fun a => a == w)
      let s := match inj with
        | some (_, t) => t
        | none => s
      if inj.isSome || decide (len = 0) || decide (1024 < len) || x.arrived != List.range len then
        refuseLen s w
      else match headerFault s w with
        | some r => refuse s w r
        | none =>
          let s := putWin { s with readyNo := s.readyNo + 1 } w { x with ready := true, readyAt := s.readyNo + 1 }
          if hdr s w 2 1 = 1 then s
          else if hdr s w 8 8 ≠ 0 then pollAfter (setWinState s w 2) w
          else setWinState s w 5

/-- Did the command of window `v` become ready before that of window `w` (R370)? Window numbers order those of one moment. -/
def readyBefore (s : State) (v w : Nat) : Bool :=
  decide ((winOf s v).readyAt < (winOf s w).readyAt) || ((winOf s v).readyAt == (winOf s w).readyAt && decide (v < w))

/-- The deciding home agent of the DRAFT_OPEN, PUBLISH or DRAFT_DISCARD in window `w` (R75). -/
def decidingHome (s : State) (w : Nat) : Nat :=
  let n := hdr s w 36 2
  (if hdr s w 2 1 = 5 then n else if n < 1024 then drRegion s n else 0) % 8

/-- Does a command that its deciding home serves first wait in window `v` (R378)? A PUBLISH that is accepted has had its turn. -/
def waitsTurn (s : State) (v : Nat) : Bool :=
  winState s v == 5 && (winOf s v).ready && decide (5 ≤ hdr s v 2 1) && decide (hdr s v 2 1 ≤ 7) && !s.pubs.any (fun p => p.win == v)

/-- Does the window hold a ready command of an opcode that is being served? A deciding home agent serves its commands in the order in
which they became ready (R378). -/
def serving (s : State) (w op : Nat) : Bool :=
  running s && winState s w == 5 && (winOf s w).ready && hdr s w 2 1 == op &&
    (decide (op < 5) || decide (7 < op) ||
      !s.wins.any (fun e => e.1 != w && waitsTurn s e.1 && decidingHome s e.1 == decidingHome s w && readyBefore s e.1 w))

/-- The value of the AFTER counter, as far as this controller can read it: its own counter when the window's domain may read
it, else the value that the far controller answers. -/
def afterValue (s : State) (w : Nat) (remote : Word) : Option Word :=
  match route s (hdr s w 8 8) with
  | .own off =>
    match target off with
    | .counters k => if permitCounter s (winDom s w) k false then some (counter s k) else none
    | _ => none
  | .fault => none
  | _ => some remote

/-- Is the plan that a kernel's RUN was checked against still loaded and valid (R355)? -/
def planKept (s : State) (k : Kernel) : Bool := regBit s (rPlanStat k.plan) 63 && planDigest s k.plan == k.digest

/-- Put window `w` into a queue, in the order in which its commands became ready (R370). -/
def queueIn (s : State) (l : List Nat) (w : Nat) : List Nat :=
  l.filter (fun v => readyBefore s v w) ++ [w] ++ l.filter (fun v => !readyBefore s v w)

/-- Let a command whose AFTER condition is met proceed: a RUN into its queue, where it counts as a user of its plan (R354), any other
into service. A RUN whose plan is gone by now is refused with PLAN (R355). -/
def proceed (s : State) (w : Nat) : State :=
  match kernelOf s w with
  | some k =>
    if !planKept s k then refuse (endKernel s w) w 5
    else
      let s := setWinState (regAdd (putKernel s { k with queued := true }) (rPlanStat k.plan) 37 27 1) w 3
      if planRanks s k.plan = 0 then { s with engQ := queueIn s s.engQ w } else { s with lathQ := queueIn s s.lathQ w }
  | none => setWinState s w 5

/-- Time out an AFTER wait (R369): the command does not run, and what a RUN bound is free again. -/
def afterTimeout (s : State) (w : Nat) : State :=
  complete (ldrEvent (endKernel s w) 2 0 (winDom s w) 0) w { status := 10 }

/-- AFTER_SATISFIED (R369, R180): the AFTER counter is read; one on another controller that is short of its value is read again.
LDR_INJ KIND 2 makes the wait time out instead. -/
def doAfterSatisfied (w : Fin 1024) (remote : BitVec 64) (s : State) : State :=
  whenRunning s fun s =>
    if winState s w.val != 2 then s
    else match takeInj s rLdrInj 2 (fun _ => true) with
      | some (_, t) => afterTimeout t w.val
      | none =>
        match afterValue s w.val remote with
        | some v => if hdr s w.val 16 8 ≤ v.toNat then proceed s w.val else pollAfter s w.val
        | none => s

/-- AFTER_TIMEOUT (R369). -/
def doAfterTimeout (w : Fin 1024) (s : State) : State :=
  whenRunning s fun s =>
    if winState s w.val != 2 then s
    else
      let s := match takeInj s rLdrInj 2 (fun _ => true) with
        | some (_, t) => t
        | none => s
      afterTimeout s w.val

/-! ARM (R366, R367). -/

/-- Does an area meet R176: aligned, of a size that is allowed, inside one command window or the first 6 MiB of one Chuck slot? -/
def areaShape (ga off size : Nat) : Bool :=
  ga % 64 == 0 && size != 0 && size % 64 == 0 && decide (size ≤ 2 ^ 20) &&
    (match target off, target (off + size - 1) with
     | .window a _, .window b _ => a == b
     | .chuck a _, .chuck b _ => a == b
     | _, _ => false)

/-- The area that an ARM names: an offset of this controller and a size, when R367 accepts it. -/
def armRange (s : State) (ga size : Nat) : Option Nat :=
  match route s ga with
  | .own off => if areaShape ga off size then some off else none
  | _ => none

/-- May domain `d` arm there (R649: W on the counter and on what holds the area)? -/
def armPermit (s : State) (d ctr off : Nat) : Bool :=
  permitCounter s d ctr true && (match target off with
    | .window w _ => permitWindow s d w true
    | .chuck l _ => permitChuck s d l true
    | _ => false)

/-- Is the area busy for ARM (R366): its window's command ready and not completed, or its Lathe running a kernel? -/
def armBusy (s : State) (off : Nat) : Bool :=
  match target off with
  | .window w _ => (winOf s w).ready || (!mailbox s w && (winState s w != 0 && winState s w != 1))
  | .chuck l _ => latheBusy s l
  | _ => false

/-- The checks that every ARM meets: the refusal reason, or the area's offset. -/
def armCheck (s : State) (w : Nat) : Nat ⊕ Nat :=
  let ga := hdr s w 36 8
  let size := hdr s w 44 4
  let ctr := hdr s w 48 4
  let mode := hdr s w 52 1
  if 262144 ≤ ctr then .inl 13
  else match armRange s ga size with
    | none => .inl 13
    | some off =>
      let own : Bool := match target off with
        | .window v x => isWinCtr ctr && winCtr v == ctr && x == 0 && size == 65536 && mode != 2
        | _ => false
      if isWinCtr ctr && !own then .inl 4
      else if !armPermit s (winDom s w) ctr off then .inl 4
      else if armBusy s off then .inl 17
      else .inr off

/-- Serve an ARM whose MODE is `mode`. -/
def armServe (w mode : Nat) (s : State) (f : Nat → Nat → Nat → Nat ⊕ State) : State :=
  if !serving s w 4 || hdr s w 52 1 != mode then s
  else match armCheck s w with
    | .inl r => refuse s w r
    | .inr off =>
      match f off (hdr s w 44 4) (hdr s w 48 4) with
      | .inl r => refuse s w r
      | .inr t => complete t w { status := 0 }

/-- ARM_BIND, MODE 0: bind and arm; a whole window on its own counter becomes a mailbox. -/
def doArmBind (w : Fin 1024) (s : State) : State :=
  armServe w.val 0 s fun off size ctr =>
    match target off with
    | .window v _ =>
      if isWinCtr ctr && !mailbox s v then .inr (armWindow (regPut s (rWinStat v) 3 3 1) v) else .inl 13
    | _ =>
      if overlapsArea s off size || s.areas.any (fun a => a.counter == ctr) then .inl 13
      else .inr (setCounter { s with areas := s.areas ++ [⟨off, size / 64, ctr, [], true, none⟩] } ctr 0)

/-- ARM_REARM, MODE 1: arm what is already bound; a window in FILLING loses the lines that have arrived. -/
def doArmRearm (w : Fin 1024) (s : State) : State :=
  armServe w.val 1 s fun off size ctr =>
    match target off with
    | .window v _ => if isWinCtr ctr then .inr (armWindow s v) else .inl 13
    | _ =>
      match sameArea s off size ctr with
      | some a => .inr (armArea s a)
      | none => .inl 13

/-- ARM_UNBIND, MODE 2. -/
def doArmUnbind (w : Fin 1024) (s : State) : State :=
  armServe w.val 2 s fun off size ctr =>
    match sameArea s off size ctr with
    | some a => .inr { s with areas := s.areas.filter (fun b => b.base != a.base) }
    | none => .inl 13

/-- ARM_COMMAND_MODE, MODE 3: a mailbox returns to COMMAND mode and is armed. -/
def doArmCommandMode (w : Fin 1024) (s : State) : State :=
  armServe w.val 3 s fun off _ ctr =>
    match target off with
    | .window v _ => if isWinCtr ctr && mailbox s v then .inr (armWindow (regPut s (rWinStat v) 3 3 0) v) else .inl 13
    | _ => .inl 13

/-! Drafts (R74 to R92, R759). -/

/-- Is a draft slot part of a draft? -/
def slotTaken (s : State) (n : Nat) : Bool :=
  (openDrafts s).any (fun d => decide (d ≤ n) && decide (n < d + drSlots s d))

/-- The lowest run of free draft slots: the manual does not say which run DRAFT_OPEN takes (assumption 163). -/
def freeSlots (s : State) (n : Nat) : Option Nat :=
  (List.range 1024).find? (fun d => decide (d + n ≤ 1024) && (List.range n).all (fun i => !slotTaken s (d + i)))

/-- Is a publish of the region past its compare (R83, R125)? Until it ends, no draft is opened at the region's CURRENT and no kernel pins
it: the deciding home takes them in one order (R75). -/
def regionDeciding (s : State) (r : Nat) : Bool := s.pubs.any (fun p => drRegion s p.draft == r && decide (4 ≤ p.stage))

/-- DRAFT_OPEN (R74, R75, R91): it waits while a publish of the region is past its compare. When several causes refuse it, the model's order is REGION, GRANT, QUOTA, CAPACITY (assumption 163). -/
def doDraftOpen (w : Fin 1024) (s : State) : State :=
  let w := w.val
  if !serving s w 5 then s
  else
    let r := hdr s w 36 2
    let dom := winDom s w
    if 16384 ≤ r ∨ !rgValid s r ∨ !rgVersioned s r ∨ rgDeleting s r then refuse s w 14
    else if !permitRegion s dom r true then refuse s w 4
    else if regionDeciding s r then s
    else if regFld s (rQuota dom 4) 10 0 ≤ regFld s (rQuota dom 5) 10 0 then complete s w { status := 6 }
    else
      let n := (rgSize s r + 2 ^ 38 - 1) / 2 ^ 38
      match freeSlots s n with
      | none => complete s w { status := 7 }
      | some d =>
        let s := regSet s (rDraftStat d) (BitVec.ofNat 64 (2 ^ 61 + r * 2 ^ 44 + dom * 2 ^ 36 + n * 2 ^ 24))
        let s := regSet s (rDraftBase d) (BitVec.ofNat 64 (rgCurrent s r))
        let s := rgPut s r 271 256 (rgFld s r 271 256 + 1)
        let s := regAdd s (rQuota dom 5) 10 0 1
        complete s w { status := 0, v0 := d }

/-- Invalidate the copies of lines whose bytes are gone: what a holder returns is discarded (R77). -/
def recallGone (s : State) (ls : List Nat) : State := settleAll (forEach ls s (fun s l => owe s true l))

/-- Does a request of another than the home itself wait for a kernel or a unit, not served yet? -/
def unserved (t : Txn) : Bool :=
  match t.phase with
  | .held _ => true
  | .unit => true
  | _ => false

/-- Does a request of another than the home itself wait for its snoops? -/
def snooping (t : Txn) : Bool := t.phase == .snoop && t.req.op != .recall

/-- What is left of a transaction on a line of a draft that is freed (R77): its snoops go on for the home, which discards what they bring,
and a Fetch's data is refused when it comes. -/
def goneTxn (t : Txn) : Txn :=
  match t.phase with
  | .snoop => { t with req := { t.req with op := .recall, src := if t.req.op == .recall then t.req.src else .control, mask := 1 }, inv := true, got := none, ue := none }
  | .fetch => { t with bad := true }
  | _ => t

/-- Free a draft's slots; its frames are the caller's. Copies that hosts still hold of its lines are invalidated, and what they
return, now or after an invalidation that is under way, is discarded, whoever uses the slots next (R77); the requests on them that wait
meet an address of a free slot (R76). -/
def freeDraft (s : State) (d : Nat) : State :=
  let us := draftOwn s d
  let ms := draftOwnMaps s d
  let r := drRegion s d
  let dom := regFld s (rDraftStat d) 43 36
  let lo := 2 ^ 48 + d * 2 ^ 38
  let mine := fun (off : Nat) => decide (lo ≤ off) && decide (off < lo + drSlots s d * 2 ^ 38)
  let copies := (recordedLines s).filter (fun l => mine (l * 64) && (lineRec s (l * 64)).1 != .I)
  let ended := ((s.trk.filter (fun t => mine t.req.off && (unserved t || snooping t))).map (fun t => (t.req, t.act)))
    ++ ((s.retry.filter (fun p => mine p.2.off)).map (fun p => (p.2, true)))
    ++ ((s.blockq.filter (fun p => mine p.2.off)).map (fun p => (p.2, false)))
  let s := { s with
    store := s.store.filter (fun e => !mine (e.line * 64))
    trk := (s.trk.filter (fun t => !(mine t.req.off && unserved t))).map (fun t => if mine t.req.off then goneTxn t else t)
    retry := s.retry.filter (fun p => !mine p.2.off)
    blockq := s.blockq.filter (fun p => !mine p.2.off)
    recallq := s.recallq.filter (fun q => !mine (q.line * 64)) }
  let s := recallGone (forEach ended s (fun s e => sendErr (addrFault s (globalAddr s e.1.off) (masterDom s e.1.src)) e.1 errAddr e.2)) copies
  let s := poolDrop s (rgPgroup s r) (fun u => us.contains u)
  let s := forEach us s (fun s u => zeroMem s (u * 65536) 65536)
  let s := { s with
    draftUnits := s.draftUnits.filter (fun u => !us.contains u)
    draftMaps := s.draftMaps.filter (fun m => !ms.contains m)
    pubs := s.pubs.filter (fun p => p.draft != d) }
  let s := rgPut s r 271 256 (rgFld s r 271 256 - 1)
  let s := quotaClear (regSub s (rQuota dom 5) 10 0 1) dom
  regSet (regSet s (rDraftStat d) 0) (rDraftBase d) 0

/-- Does a queued or running kernel bind the draft (R764)? -/
def draftBound (s : State) (d : Nat) : Bool := s.kernels.any (fun k => k.slots.any (fun x => x.draft == some d && x.ctrl == ownCtrl s))

/-- The state of a draft slot: 0 for one that is free or continues a larger draft. -/
def draftStateOf (s : State) (d : Nat) : Nat := if d < 1024 then drState s d else 0

/-- DRAFT_DISCARD (R92). When several causes refuse it, the model's order is DRAFT, GRANT, BUSY (assumption 163). -/
def doDraftDiscard (w : Fin 1024) (s : State) : State :=
  let w := w.val
  if !serving s w 7 then s
  else
    let d := hdr s w 36 2
    let st := draftStateOf s d
    if st = 0 then refuse s w 18
    else if !permitRegion s (winDom s w) (drRegion s d) true then refuse s w 4
    else if st = 2 ∨ st = 3 ∨ st = 4 ∨ (st = 1 ∧ draftBound s d) then refuse s w 17
    else
      let r := drRegion s d
      let n := (draftOwn s d).length
      let m := (draftOwnMaps s d).length
      let s := freeDraft s d
      let s := if n + m = 0 then s else releaseFor s r (rgDomain s r) (n + m)
      let s := if rgDurable s r then setMedResv s (rgDomain s r) (Sparse.get s.medResv (rgDomain s r) 0 - n) else s
      complete (sweepVersions s r) w { status := 0 }

/-- The lines of a draft that a host holds in E or M. -/
def draftHeld (s : State) (d : Nat) : List Nat := (draftOwn s d).flatMap (fun u => heldLines s u)

/-- The poisoned lines of a draft, by line number. -/
def draftPoison (s : State) (d : Nat) : List Nat :=
  s.poison.filter (fun l => (draftOwn s d).contains (l * 64 / 65536))

/-- PUBLISH (R80, R92): accepted for an OPEN draft, which enters SEALING and has its host E and M lines recalled. When several causes
refuse it, the model's order is DRAFT for a slot that is not OPEN, GRANT, DRAFT for a region that is being deleted (assumption 163). -/
def doPublish (w : Fin 1024) (s : State) : State :=
  let w := w.val
  if !serving s w 6 then s
  else
    let d := hdr s w 36 2
    if draftStateOf s d ≠ 1 then refuse s w 18
    else if !permitRegion s (winDom s w) (drRegion s d) true then refuse s w 4
    else if rgDeleting s (drRegion s d) then refuse s w 18
    else
      let s := { s with pubs := s.pubs ++ [⟨d, w, hdr s w 40 6, draftPoison s d, 0⟩] }
      let s := regPut s (rDraftStat d) 63 61 2
      let s := (unitLookups s (draftOwn s d)).1
      recallAll s (draftHeld s d)

/-- A publish ends without a new version: its draft's next state and its completion. What it wrote to the medium for the
version it did not make has no locator any longer. -/
def endPublish (s : State) (p : Pub) (st : Nat) (c : Cpl) : State :=
  let t := dropDraftUnits s p.draft
  complete { (regPut t (rDraftStat p.draft) 63 61 st) with pubs := s.pubs.filter (fun q => q.draft != p.draft) } p.win c

/-- SEAL_COMPLETE (R80, R82, R84, R216, R248): every kernel that writes the draft has ended and no host holds a line of it in E or
M; the compare then sends it on. A line that a host holds still, since a request accepted before the PUBLISH was served after it,
is recalled first. -/
def doSealComplete (d : Fin 1024) (s : State) : State :=
  whenRunning s fun s =>
    let d := d.val
    match s.pubs.find? (fun p => p.draft == d) with
    | none => s
    | some p =>
      let active := s.trk.any (fun t => (draftOwn s d).contains (t.req.off / 65536) && lineActive s t.req.off)
        || s.recallq.any (fun q => (draftOwn s d).contains (q.line * 64 / 65536))
      if drState s d ≠ 2 then s
      else if draftHeld s d ≠ [] then recallAll s (draftHeld s d)
      else if active ∨ s.kernels.any (fun k => k.slots.any (fun x => x.draft == some d && x.role == 3 && x.ctrl == ownCtrl s)) then s
      else
        let r := drRegion s d
        if (draftPoison s d).any (fun l => !p.poisoned.contains l) then endPublish s p 1 { status := 9 }
        else if rgCurrent s r ≠ p.pred then endPublish s p 5 { status := 3, v0 := rgCurrent s r }
        else if p.pred = 2 ^ 48 - 1 then endPublish s p 5 { status := 5 }
        else if rgDurable s r then
          let own := draftOwn s d
          writeStage (forEach (s.store.filter (fun e => own.contains (e.line * 64 / 65536))) (regPut s (rDraftStat d) 63 61 3) storeEvict) p 1
        else regPut s (rDraftStat d) 63 61 4

/-- WRITING_DONE (R154): the holders have accepted the contributions of the units at `accepted`; the draft enters DECIDING once its
DATA, MAP and ROOT units are programmed and every contribution of them is accepted. -/
def doWritingDone (d : Fin 1024) (accepted : List (BitVec 40)) (s : State) : State :=
  whenRunning s fun s =>
    let s := { s with contribs := s.contribs.map (fun c => if accepted.any (fun l => l.toNat == c.loc) then { c with acc := true } else c) }
    match s.pubs.find? (fun p => p.draft == d.val) with
    | some p => if drState s d.val = 3 && pubWritten s p then regPut s (rDraftStat d.val) 63 61 4 else s
    | none => s

/-- The units of its region that draft `d` has written, and those that it leaves as they were in its base version although a
version up to `pred` has changed them since: the new version differs from its predecessor in both. -/
def newUnits (s : State) (d pred : Nat) : List Nat × List Nat :=
  let r := drRegion s d
  let us := (draftOwn s d).map (fun u => u - (2 ^ 48 + d * 2 ^ 38) / 65536)
  (us, ((s.verUnits.filter (fun e => e.1 == r && decide (drBase s d < e.2.1) && decide (e.2.1 ≤ pred))).map (fun e => e.2.2)).dedup.filter
    (fun u => !us.contains u))

/-- Frames of stacked memory that a publish takes beyond its draft's: those of the units that go back to the base version, and of the map
frames that change with them and that the draft has no copy of (R118). -/
def backUnits (s : State) (p : Pub) : Nat :=
  let r := drRegion s p.draft
  let us := (newUnits s p.draft p.pred).2
  let ms := if rgDurable s r then (us.map (fun u => u / 8192)).dedup else []
  (us.filter (fun u => inStack s r u)).length + (ms.filter (fun m => !s.draftMaps.contains ((2 ^ 48 + p.draft * 2 ^ 38) / 2 ^ 29 + m))).length

/-- Tell the mirror peer of a region of the lines that a new version changes at the region's plain address (R98, R100). -/
def mirrorVersion (s : State) (r pred v : Nat) (us : List Nat) : State :=
  if rgProtect s r ≠ 1 then s
  else forEach us s (fun s u => forEach (List.range 1024) s (fun s i =>
    let x := u * 65536 + 64 * i
    let old := s.readLine (spKey (spVersion r pred) x)
    let new := s.readLine (spKey (spVersion r v) x)
    if old = new then s else coverLine s r 0 (globalAddr s (rgBase s r + x)) old new))

/-- The bytes of a new version and the units that it changes (R78, R116): the base version's with the draft's content, its stored O
lines included; on the medium a unit that goes back to the base version has the base version's locator. -/
def versionBytes (s : State) (p : Pub) : State :=
  let d := p.draft
  let r := drRegion s d
  let v := p.pred + 1
  let lo := (2 ^ 48 + d * 2 ^ 38) / 65536
  let own := draftOwn s d
  let (us, between) := newUnits s d p.pred
  let old := fun (u : Nat) => locUnit s r (spKey (spVersion r (drBase s d)) (u * 65536))
  let back := between.flatMap (fun u => (s.locs.filter (fun e => e.1 == old u)).map (fun e => (unitName r v u, e.2)))
  let lostBack := (between.filter (fun u => s.lost.contains (old u))).map (unitName r v)
  let s := forEach (s.store.filter (fun e => own.contains (e.line * 64 / 65536))) s storeEvict
  let s := copyMem s (spKey (spVersion r (drBase s d)) 0) (spKey (spVersion r v) 0) (rgSize s r)
  let s := forEach us s (fun s u => copyMem s ((lo + u) * 65536) (spKey (spVersion r v) (u * 65536)) 65536)
  { s with
    verUnits := s.verUnits ++ (us ++ between).map (fun u => (r, v, u))
    locs := back.foldl (fun m e => Sparse.ins m e.1 e.2) s.locs
    lost := lostBack.foldl Sparse.add s.lost }

/-- The commit point of a publish (R81): the new version, whose bytes are there, is current, the draft's frames and map frames are the
version's, and the draft is freed; a unit that lies on the medium alone leaves its frame and the parity pool (R102). The units that go
back to the base version take no medium space, since they have its locators (R93), and their frames are the caller's. -/
def publishCommit (s : State) (p : Pub) (us between : List Nat) : State :=
  let d := p.draft
  let r := drRegion s d
  let dom := rgDomain s r
  let v := p.pred + 1
  let lo := (2 ^ 48 + d * 2 ^ 38) / 65536
  let own := draftOwn s d
  let s := rgPut { s with versions := s.versions ++ [(r, v)] } r 175 128 v
  let gone := us.filter (fun u => !inStack s r u)
  let s := poolDrop s (rgPgroup s r) (fun k => gone.any (fun u => k == lo + u))
  let s := { s with poolMap := s.poolMap.map (fun e =>
    if own.contains (e.1 / 16) then (16 * unitName r v (e.1 / 16 - lo) + e.1 % 16, e.2) else e) }
  let s := if rgProtect s r ≠ 2 then mirrorVersion s r p.pred v (us ++ between)
    else forEach between s (fun s u => coverFill s r (spKey (spVersion r v) (u * 65536)) (globalAddr s (rgBase s r + u * 65536)) 65536)
  let s := if gone = [] then s else releaseFor s r dom gone.length
  let s := if rgDurable s r then
      let n := (us.filter (fun u => !unitZero s r v u)).length
      setMedUse (setMedResv s dom (Sparse.get s.medResv dom 0 - own.length)) dom (Sparse.get s.medUse dom 0 + n)
    else s
  let s := freeDraft s d
  let s := sweepVersions s r
  refreshReplica s r

/-- The versions of a region that stay held beside a new one that `p` makes (R83). -/
def heldBeside (s : State) (p : Pub) : List Nat :=
  let r := drRegion s p.draft
  (versionsOf s r).filter (fun v => s.kernels.any (fun k => k.pins.contains (r, v))
    || (((versionsOf s r).filter (fun x => decide (x < p.pred + 1))).reverse.take (rgRetain s r)).contains v
    || (openDrafts s).any (fun e => e != p.draft && drRegion s e == r && drBase s e == v))

/-- The host copies of the current version's units in which a new version differs from it. -/
def staleLines (s : State) (p : Pub) (us between : List Nat) : List Nat :=
  (us ++ between).flatMap (fun u => sharedLines s (rgBase s (drRegion s p.draft) / 65536 + u))

/-- The look-ups of those lines (R253). -/
def staleLookups (s : State) (p : Pub) (us between : List Nat) : State × Bool :=
  unitLookups s ((us ++ between).map (fun u => rgBase s (drRegion s p.draft) / 65536 + u))

/-- A publish whose version is made commits and completes (R81). -/
def publishEnd (s : State) (p : Pub) (us between : List Nat) : State :=
  let s := pmc s (176 + drRegion s p.draft % 8) 11 1 (some (winDom s p.win))
  complete (publishCommit s p us between) p.win { status := 0, v0 := p.pred + 1 }

/-- The units that a decided version changes: those of the draft, and the others. -/
def decidedUnits (s : State) (p : Pub) : List Nat × List Nat :=
  let r := drRegion s p.draft
  let us := (draftOwn s p.draft).map (fun u => u - (2 ^ 48 + p.draft * 2 ^ 38) / 65536)
  (us, ((s.verUnits.filter (fun e => e.1 == r && e.2.1 == p.pred + 1)).map (fun e => e.2.2)).filter (fun u => !us.contains u))

/-- A RETAIN that was raised while the publish was past its compare holds no version beyond the eighth (R83, R756, assumption 232): the
oldest versions that RETAIN alone holds are released. -/
def retainEight (s : State) (r : Nat) : State :=
  let vs := versionsOf s r
  let only := vs.filter (fun v => v != rgCurrent s r && !s.kernels.any (fun k => k.pins.contains (r, v))
    && !(openDrafts s).any (fun d => drRegion s d == r && drBase s d == v))
  forEach (only.take (vs.length - 8)) s (fun s v => releaseVersion s r v)

/-- A publish whose DECISION record is on the medium (R125) sets CURRENT once no host holds a stale copy. -/
def decidedOn (s : State) (p : Pub) : State :=
  let us := decidedUnits s p
  let (s, found) := staleLookups s p us.1 us.2
  let lines := staleLines s p us.1 us.2
  if found then s
  else if lines ≠ [] then recallAll s lines else retainEight (publishEnd s p us.1 us.2) (drRegion s p.draft)

/-- Is another publish of the region past its compare, its DECISION record being written (R125)? -/
def decisionOut (s : State) (p : Pub) : Bool :=
  s.pubs.any (fun q => q.draft != p.draft && drRegion s q.draft == drRegion s p.draft && decide (4 ≤ q.stage))

/-- PUBLISH_DECIDE (R81 to R84, R125): in the serial order of the deciding home, home r mod 8 (R75). Host copies of the units in
which the new version differs from the current one are invalidated first; while a snoop is out the publish waits. For a DURABLE
region the DECISION record is programmed before CURRENT is set; until then no other publish of the region is compared. A publish
that needs frames for units that go back to its base version and cannot have them ends as one with HELD does, with QUOTA or
CAPACITY (assumption 163). -/
def doPublishDecide (d : Fin 1024) (s : State) : State :=
  whenRunning s fun s =>
    let d := d.val
    match s.pubs.find? (fun p => p.draft == d) with
    | none => s
    | some p =>
      if drState s d ≠ 4 ∨ p.stage = 4 ∨ decisionOut s p = true then s
      else if p.stage = 5 then decidedOn s p
      else
        let r := drRegion s d
        if rgCurrent s r ≠ p.pred then endPublish s p 5 { status := 3, v0 := rgCurrent s r }
        else if 8 < (heldBeside s p).length + 1 then endPublish s p 1 { status := 4 }
        else
          let us := newUnits s d p.pred
          let (s, found) := staleLookups s p us.1 us.2
          let lines := staleLines s p us.1 us.2
          if found then s
          else if lines ≠ [] then recallAll s lines
          else match allocFor s r (rgDomain s r) (backUnits s p) with
          | .quota => endPublish s p 1 { status := 6 }
          | .capacity => endPublish s p 1 { status := 7 }
          | .ok s =>
            if rgDurable s r then
              let roots := (stageUnits s p 3).map (fun u => metaWord s u.metaName)
              appendRecord (setStage s d 4) r (.decision r (p.pred + 1) p.pred roots)
            else publishEnd (versionBytes s p) p us.1 us.2

/-- PLAN_UNLOAD (R354), of a plan that a cold reset has made invalid too: its frames and its handle are free again. -/
def doPlanUnload (w : Fin 1024) (s : State) : State :=
  let w := w.val
  if !serving s w 3 then s
  else
    let p := hdr s w 36 2
    if 256 ≤ p ∨ reg s (rPlanStat p) = 0 then refuse s w 5
    else if !permitPlan s (winDom s w) p then refuse s w 4
    else if regFld s (rPlanStat p) 37 27 ≠ 0 then refuse s w 17
    else
      let n := regFld s (rPlanStat p) 26 14
      let dom := regFld s (rPlanStat p) 62 55
      let s := zeroMem s (spKey (spPlan p) 0) (n * 65536)
      let s := releaseFrames s dom n
      let s := { s with planDigests := s.planDigests.filter (fun e => e.1 != p) }
      complete (regSet (regSet s (rPlanStat p) 0) (rPlanBudget p) 0) w { status := 0 }

def execCommandReady (w : Fin 1024) (s : State) : Host.Outcome State Fault Refusal := .next (doCommandReady w s)
def execAfterSatisfied (w : Fin 1024) (remote : BitVec 64) (s : State) : Host.Outcome State Fault Refusal :=
  .next (doAfterSatisfied w remote s)
def execAfterTimeout (w : Fin 1024) (s : State) : Host.Outcome State Fault Refusal := .next (doAfterTimeout w s)
def execArmBind (w : Fin 1024) (s : State) : Host.Outcome State Fault Refusal := .next (doArmBind w s)
def execArmRearm (w : Fin 1024) (s : State) : Host.Outcome State Fault Refusal := .next (doArmRearm w s)
def execArmUnbind (w : Fin 1024) (s : State) : Host.Outcome State Fault Refusal := .next (doArmUnbind w s)
def execArmCommandMode (w : Fin 1024) (s : State) : Host.Outcome State Fault Refusal := .next (doArmCommandMode w s)
def execDraftOpen (w : Fin 1024) (s : State) : Host.Outcome State Fault Refusal := .next (doDraftOpen w s)
def execDraftDiscard (w : Fin 1024) (s : State) : Host.Outcome State Fault Refusal := .next (doDraftDiscard w s)
def execPublish (w : Fin 1024) (s : State) : Host.Outcome State Fault Refusal := .next (doPublish w s)
def execSealComplete (d : Fin 1024) (s : State) : Host.Outcome State Fault Refusal := .next (doSealComplete d s)
def execWritingDone (d : Fin 1024) (accepted : List (BitVec 40)) (s : State) : Host.Outcome State Fault Refusal :=
  .next (doWritingDone d accepted s)
def execPublishDecide (d : Fin 1024) (s : State) : Host.Outcome State Fault Refusal := .next (doPublishDecide d s)
def execPlanUnload (w : Fin 1024) (s : State) : Host.Outcome State Fault Refusal := .next (doPlanUnload w s)

end Sys2Proof.Machine
end

