-- ==== Sys2Proof/Machine/Float.lean ====
section
/-! DEFINITION. Machine/Float.lean: the numeric formats and their arithmetic (chapter 07): every value is taken exactly and
rounded once. -/

namespace Sys2Proof.Machine

/-- An exact value: NaN, an infinity, or (-1)^neg * m * 2^e; zero keeps its sign. -/
inductive FVal where
  | nan
  | inf (neg : Bool)
  | fin (neg : Bool) (m : Nat) (e : Int)
  deriving DecidableEq, Repr

/-- A floating-point format (R319): exponent and mantissa bits and bias; `ieee` formats have infinities and NaNs at the
top exponent, `topNan` ones only the NaN of E4M3, the others neither. -/
structure FFmt where
  eb : Nat
  mb : Nat
  bias : Nat
  ieee : Bool
  topNan : Bool
  deriving DecidableEq, Repr

def fp32 : FFmt := ⟨8, 23, 127, true, false⟩
def bf16 : FFmt := ⟨8, 7, 127, true, false⟩
def fp16 : FFmt := ⟨5, 10, 15, true, false⟩
def e4m3 : FFmt := ⟨4, 3, 7, false, true⟩
def e5m2 : FFmt := ⟨5, 2, 15, true, false⟩
def e2m3 : FFmt := ⟨2, 3, 1, false, false⟩
def e3m2 : FFmt := ⟨3, 2, 3, false, false⟩
def e2m1 : FFmt := ⟨2, 1, 1, false, false⟩

/-- The value of a bit pattern (R319). -/
def fDecode (f : FFmt) (b : Nat) : FVal :=
  let neg := b.testBit (f.eb + f.mb)
  let e := b / 2 ^ f.mb % 2 ^ f.eb
  let m := b % 2 ^ f.mb
  if f.ieee && e == 2 ^ f.eb - 1 then (if m = 0 then .inf neg else .nan)
  else if f.topNan && e == 2 ^ f.eb - 1 && m == 2 ^ f.mb - 1 then .nan
  else if e = 0 then .fin neg m (1 - f.bias - f.mb)
  else .fin neg (2 ^ f.mb + m) ((e : Int) - f.bias - f.mb)

/-- The canonical NaN (R324). -/
def fNan (f : FFmt) : Nat :=
  if f.topNan then 2 ^ (f.eb + f.mb) - 1 else (2 ^ f.eb - 1) * 2 ^ f.mb + 2 ^ (f.mb - 1)

/-- The largest finite pattern, without its sign. -/
def fMax (f : FFmt) : Nat :=
  if f.ieee then (2 ^ f.eb - 1) * 2 ^ f.mb - 1 else if f.topNan then 2 ^ (f.eb + f.mb) - 2 else 2 ^ (f.eb + f.mb) - 1

/-- A number over 2^d, rounded to nearest with ties to even (R323). -/
def roundShift (m d : Nat) : Nat :=
  if d = 0 then m
  else
    let q := m / 2 ^ d
    let r := m % 2 ^ d
    let half := 2 ^ (d - 1)
    if half < r ∨ (r = half ∧ q % 2 = 1) then q + 1 else q

/-- m * 2^e as a number of units of 2^q, rounded (R323). -/
def roundTo (m : Nat) (e q : Int) : Nat :=
  if q ≤ e then m * 2 ^ (e - q).toNat else roundShift m (q - e).toNat

/-- Round an exact value into a format (R323 to R325); beyond the largest finite value it saturates or becomes infinite. -/
def fEncode (f : FFmt) (sat : Bool) (v : FVal) : Nat :=
  let sgn := fun (neg : Bool) => if neg then 2 ^ (f.eb + f.mb) else 0
  let beyondMax := fun (neg : Bool) => sgn neg + (if sat || !f.ieee then fMax f else (2 ^ f.eb - 1) * 2 ^ f.mb)
  match v with
  | .nan => fNan f
  | .inf neg => beyondMax neg
  | .fin neg m e =>
    if m = 0 then sgn neg
    else
      let emin : Int := 1 - f.bias
      let q : Int := max ((Nat.log2 m : Int) + e) emin - f.mb
      let n := roundTo m e q
      let (n, q) := if n = 2 ^ (f.mb + 1) then (2 ^ f.mb, q + 1) else (n, q)
      let code : Int := if n < 2 ^ f.mb then (n : Int) else (q + f.mb + f.bias) * 2 ^ f.mb + ((n : Int) - 2 ^ f.mb)
      if (fMax f : Int) < code then beyondMax neg else sgn neg + code.toNat

/-- An exact integer as a value. -/
def FVal.ofInt (n : Int) (e : Int) : FVal := .fin (decide (n < 0)) n.natAbs e

/-- The exact sum; a zero sum is -0 only of two negative zeros. -/
def FVal.add (a b : FVal) : FVal :=
  match a, b with
  | .nan, _ => .nan
  | _, .nan => .nan
  | .inf s, .inf t => if s == t then .inf s else .nan
  | .inf s, _ => .inf s
  | _, .inf t => .inf t
  | .fin s m e, .fin t n g =>
    let lo := min e g
    let x : Int := (if s then -1 else 1) * (m * 2 ^ (e - lo).toNat : Nat)
    let y : Int := (if t then -1 else 1) * (n * 2 ^ (g - lo).toNat : Nat)
    if x + y = 0 then .fin (s && t) 0 0 else .ofInt (x + y) lo

/-- The exact product. -/
def FVal.mul (a b : FVal) : FVal :=
  match a, b with
  | .nan, _ => .nan
  | _, .nan => .nan
  | .inf s, .inf t => .inf (s != t)
  | .inf s, .fin t n _ => if n = 0 then .nan else .inf (s != t)
  | .fin s m _, .inf t => if m = 0 then .nan else .inf (s != t)
  | .fin s m e, .fin t n g => .fin (s != t) (m * n) (e + g)

/-- The value with its sign turned. -/
def FVal.neg (a : FVal) : FVal :=
  match a with
  | .nan => .nan
  | .inf s => .inf (!s)
  | .fin s m e => .fin (!s) m e

/-- FP32 lanes. -/
def f32 (b : Nat) : FVal := fDecode fp32 b
def toF32 (v : FVal) : Nat := fEncode fp32 false v
def fadd (a b : Nat) : Nat := toF32 ((f32 a).add (f32 b))
def fsub (a b : Nat) : Nat := toF32 ((f32 a).add (f32 b).neg)
def fmul (a b : Nat) : Nat := toF32 ((f32 a).mul (f32 b))
def ffma (a b c : Nat) : Nat := toF32 (((f32 a).mul (f32 b)).add (f32 c))

/-- Is an FP32 pattern a NaN? -/
def isNan32 (b : Nat) : Bool := f32 b == .nan

/-- The rank of an FP32 number, -0 below +0 (R331). -/
def rank32 (b : Nat) : Int := if b.testBit 31 then -((b % 2 ^ 31 : Nat) : Int) - 1 else (b % 2 ^ 31 : Nat)

/-- vmax and vmin (R331). -/
def fmax (a b : Nat) : Nat := if isNan32 a || isNan32 b then fNan fp32 else if rank32 a < rank32 b then b else a
def fmin (a b : Nat) : Nat := if isNan32 a || isNan32 b then fNan fp32 else if rank32 a < rank32 b then a else b

/-- IEEE comparisons: a NaN is unordered, and the zeros are equal. -/
def feq (a b : Nat) : Bool := !isNan32 a && !isNan32 b && (a == b || (a % 2 ^ 31 == 0 && b % 2 ^ 31 == 0))
def flt (a b : Nat) : Bool := !isNan32 a && !isNan32 b && decide (rank32 a < rank32 b) && !(a % 2 ^ 31 == 0 && b % 2 ^ 31 == 0)
def fle (a b : Nat) : Bool := flt a b || feq a b

/-- Two's complement of `w` bits. -/
def sInt (w b : Nat) : Int := if b.testBit (w - 1) then (b % 2 ^ w : Nat) - (2 ^ w : Nat) else (b % 2 ^ w : Nat)

/-- FP32 to an integer of `w` bits: rounded, saturating; a NaN gives 0 (R325). -/
def toIntSat (w : Nat) (v : FVal) : Nat :=
  let hi := 2 ^ (w - 1) - 1
  match v with
  | .nan => 0
  | .inf neg => if neg then 2 ^ (w - 1) else hi
  | .fin neg m e =>
    let n := roundTo m e 0
    if neg then (if 2 ^ (w - 1) ≤ n then 2 ^ (w - 1) else (2 ^ w - n) % 2 ^ w) else min hi n

/-- The bits of an element of a format code, 0 when it has no plain element (the format code table of chapter 06). -/
def fmtBits (c : Nat) : Nat :=
  if c = 0 ∨ c = 4 ∨ c = 5 ∨ c = 6 ∨ c = 7 ∨ c = 11 ∨ c = 12 then 8
  else if c = 1 then 32
  else if c = 2 ∨ c = 3 then 16
  else if c = 8 ∨ c = 9 then 6
  else if c = 10 ∨ c = 13 then 4
  else if c = 14 then 2
  else 0

/-- The value of an element of a format code (R319, R320). -/
def elemVal (c b : Nat) : FVal :=
  if c = 1 then fDecode fp32 b
  else if c = 2 then fDecode bf16 b
  else if c = 3 then fDecode fp16 b
  else if c = 4 ∨ c = 6 then fDecode e4m3 b
  else if c = 5 ∨ c = 7 then fDecode e5m2 b
  else if c = 8 then fDecode e2m3 b
  else if c = 9 then fDecode e3m2 b
  else if c = 10 then fDecode e2m1 b
  else if c = 11 then .ofInt (sInt 8 b) (-6)
  else if c = 12 then .ofInt (sInt 8 b) 0
  else if c = 13 then .ofInt (sInt 4 b) 0
  else if c = 14 then (if b % 4 = 1 then .fin false 1 0 else if b % 4 = 3 then .fin true 1 0 else .fin false 0 0)
  else .fin false 0 0

/-- A value as an element of a plain format code (R325). -/
def toElem (c : Nat) (v : FVal) : Nat :=
  if c = 1 then fEncode fp32 false v
  else if c = 2 then fEncode bf16 false v
  else if c = 3 then fEncode fp16 false v
  else if c = 4 ∨ c = 6 then fEncode e4m3 true v
  else if c = 5 ∨ c = 7 then fEncode e5m2 true v
  else if c = 8 then fEncode e2m3 true v
  else if c = 9 then fEncode e3m2 true v
  else if c = 10 then fEncode e2m1 true v
  else if c = 12 then toIntSat 8 v
  else if c = 13 then toIntSat 4 v
  else 0

/-- The value of an E8M0 scale byte (R320). -/
def scaleVal (b : Nat) : FVal := if b = 255 then .nan else .fin false 1 ((b : Int) - 127)

/-- The exponent of a format's largest normal (R326). -/
def fmtEmax (c : Nat) : Int := if c = 6 then 8 else if c = 7 then 15 else if c = 9 then 4 else 2

/-- The exponent of the largest magnitude of a list, none when every value is zero. -/
def topExp (vs : List FVal) : Option Int :=
  vs.foldl (fun acc v =>
    match v with
    | .fin _ m e =>
      if m = 0 then acc
      else
        let x : Int := (Nat.log2 m : Int) + e
        (match acc with
         | none => some x
         | some y => some (max x y))
    | _ => acc) none

/-- R326: the elements and the scale byte of an MX block. -/
def mxBlock (c : Nat) (vs : List FVal) : List Nat × Nat :=
  if vs.any (fun v => match v with | .fin _ _ _ => false | _ => true) then (vs.map (fun _ => 0), 255)
  else match topExp vs with
    | none => (vs.map (fun _ => 0), 127)
    | some x =>
      let es := max (-127) (min 127 (x - fmtEmax c))
      (vs.map (fun v => match v with
        | .fin s m e => toElem c (.fin s m (e - es))
        | _ => 0), (es + 127).toNat)

/-! The tensor array's sum (R327 to R329). -/

/-- The exact value of a block: the products of its element pairs, times the two scales. An exact zero is -0 only when
every product is. -/
def blockVal (ps : List (FVal × FVal)) (sa sb : FVal) : FVal :=
  match ps with
  | [] => .fin false 0 0
  | (x, y) :: rest => ((rest.foldl (fun acc p => acc.add (p.1.mul p.2)) (x.mul y)).mul sa).mul sb

/-! Vector functions (R335): fixed-point evaluation to far more bits than FP32 holds, rounded once (assumption 22). -/

/-- exp series: the sum from term `i` of r^i / i! in units of 2^-p. -/
def expSeries (p : Nat) (r : Int) (n : Nat) (i : Nat) (term acc : Int) : Int :=
  match n with
  | 0 => acc
  | k + 1 =>
    let t := term * r / 2 ^ p / (i : Int)
    expSeries p r k (i + 1) t (acc + t)

/-- atanh or atan series: the sum of z^(2i+1) / (2i+1), with alternating signs for atan. -/
def atanSeries (p : Nat) (alt : Bool) (z2 : Int) (n : Nat) (i : Nat) (pw acc : Int) : Int :=
  match n with
  | 0 => acc
  | k + 1 =>
    let t := pw / ((2 * i + 1 : Nat) : Int)
    atanSeries p alt z2 k (i + 1) (pw * z2 / 2 ^ p) (if alt && i % 2 == 1 then acc - t else acc + t)

/-- atanh of z, in units of 2^-p. -/
def atanhFix (p : Nat) (z : Int) : Int := atanSeries p false (z * z / 2 ^ p) p 0 z 0
/-- atan of 1/n, in units of 2^-p. -/
def atanInv (p n : Nat) : Int :=
  let z : Int := 2 ^ p / (n : Int)
  atanSeries p true (z * z / 2 ^ p) (p / 2) 0 z 0
/-- ln 2 and pi, in units of 2^-p. -/
def ln2Fix (p : Nat) : Int := 2 * atanhFix p (2 ^ p / 3)
def piFix (p : Nat) : Int := 16 * atanInv p 5 - 4 * atanInv p 239

/-- A value in units of 2^-p. -/
def fixOf (p : Nat) (neg : Bool) (m : Nat) (e : Int) : Int :=
  let q := e + p
  let n : Nat := if 0 ≤ q then m * 2 ^ q.toNat else m / 2 ^ (-q).toNat
  if neg then -(n : Int) else n

/-- e^x for a fixed-point x: mantissa in units of 2^-p, and the power of two. -/
def expFix (p : Nat) (x : Int) : Int × Int :=
  let l := ln2Fix p
  let k := (2 * x + l) / (2 * l)
  (expSeries p (x - k * l) 160 1 (2 ^ p) (2 ^ p), k)

/-- Does the value lie beyond 2^b in magnitude? -/
def beyond (m : Nat) (e : Int) (b : Int) : Bool := decide (m ≠ 0) && decide (b ≤ (Nat.log2 m : Int) + e)

def expVal (neg : Bool) (m : Nat) (e : Int) : FVal :=
  if beyond m e 8 then (if neg then .fin false 1 (-400) else .fin false 1 400)
  else
    let (n, k) := expFix 320 (fixOf 320 neg m e)
    .fin false n.toNat (k - 320)

def fexp (b : Nat) : Nat :=
  match f32 b with
  | .nan => fNan fp32
  | .inf neg => if neg then 0 else 0x7F800000
  | .fin neg m e => toF32 (expVal neg m e)

def flog (b : Nat) : Nat :=
  match f32 b with
  | .nan => fNan fp32
  | .inf neg => if neg then fNan fp32 else 0x7F800000
  | .fin neg m e =>
    if m = 0 then 0xFF800000
    else if neg then fNan fp32
    else
      -- x = f * 2^k with f from 0.75 to 1.5
      let lg := Nat.log2 m
      let up := decide (3 * 2 ^ lg ≤ 2 * m)
      let k : Int := (lg : Int) + e + (if up then 1 else 0)
      let f : Int := ((m : Int) * 2 ^ 320) / 2 ^ (lg + (if up then 1 else 0))
      let one : Int := 2 ^ 320
      let z := (f - one) * 2 ^ 320 / (f + one)
      toF32 (.ofInt (2 * atanhFix 320 z + k * ln2Fix 320) (-320))

/-- A quotient to 400 bits, its last bit sticky. -/
def quotVal (neg : Bool) (n d : Nat) : FVal :=
  let q := n * 2 ^ 400 / d
  .fin neg (2 * q + (if n * 2 ^ 400 % d = 0 then 0 else 1)) (-401)

def frcp (b : Nat) : Nat :=
  match f32 b with
  | .nan => fNan fp32
  | .inf neg => if neg then 0x80000000 else 0
  | .fin neg m e =>
    if m = 0 then (if neg then 0xFF800000 else 0x7F800000)
    else match quotVal neg 1 m with
      | .fin s q g => toF32 (.fin s q (g - e))
      | v => toF32 v

/-- The integer square root, from bit `n` down. -/
def isqrt (n : Nat) (x acc : Nat) : Nat :=
  match n with
  | 0 => if (acc + 1) * (acc + 1) ≤ x then acc + 1 else acc
  | k + 1 => let a := acc + 2 ^ (k + 1); isqrt k x (if a * a ≤ x then a else acc)

def frsqrt (b : Nat) : Nat :=
  match f32 b with
  | .nan => fNan fp32
  | .inf neg => if neg then fNan fp32 else 0
  | .fin neg m e =>
    if m = 0 then (if neg then 0xFF800000 else 0x7F800000)
    else if neg then fNan fp32
    else
      let (m, e) := if e % 2 = 0 then (m, e) else (2 * m, e - 1)
      let q := 2 ^ 400 / m
      let r := isqrt 201 q 0
      let exact := decide (r * r * m = 2 ^ 400)
      toF32 (.fin false (2 * r + (if exact then 0 else 1)) (-201 - e / 2))

def ftanh (b : Nat) : Nat :=
  match f32 b with
  | .nan => fNan fp32
  | .inf neg => if neg then 0xBF800000 else 0x3F800000
  | .fin neg m e =>
    if m = 0 then b
    else if beyond m e 6 then (if neg then 0xBF800000 else 0x3F800000)
    else
      let x := 2 * fixOf 512 false m e
      let (n, k) := expFix 512 x
      let ex : Int := n * 2 ^ k.toNat
      let one : Int := 2 ^ 512
      toF32 (quotVal neg (ex - one).toNat (ex + one).toNat)

def fsigm (b : Nat) : Nat :=
  match f32 b with
  | .nan => fNan fp32
  | .inf neg => if neg then 0 else 0x3F800000
  | .fin neg m e =>
    if beyond m e 8 then (if neg then 0 else 0x3F800000)
    else
      -- E = e^(-|x|) = n * 2^(k - 320), k ≤ 0
      let (n, k) := expFix 320 (fixOf 320 true m e)
      let one : Nat := 2 ^ (320 - k).toNat
      toF32 (if neg then quotVal false n.toNat (one + n.toNat) else quotVal false one (one + n.toNat))

/-- sin and cos series of r in units of 2^-p. -/
def sinSeries (p : Nat) (r2 : Int) (n : Nat) (i : Nat) (term acc : Int) : Int :=
  match n with
  | 0 => acc
  | k + 1 =>
    let t := -(term * r2 / 2 ^ p / (((i + 1) * (i + 2) : Nat) : Int))
    sinSeries p r2 k (i + 2) t (acc + t)

/-- sin of x plus `quarter` right angles (R335): x is reduced by right angles exactly enough for every finite FP32. -/
def sinVal (neg : Bool) (m : Nat) (e : Int) (quarter : Int) : FVal :=
  let p := 704
  let h := piFix p / 2
  let x := fixOf p neg m e
  let k := (2 * x + h) / (2 * h)
  let r := x - k * h
  let r2 := r * r / 2 ^ p
  let q := (k + quarter) % 4
  let v := if q % 2 = 0 then sinSeries p r2 80 1 r r else sinSeries p r2 80 0 (2 ^ p) (2 ^ p)
  .ofInt (if q < 2 then v else -v) (-704)

def fsin (b : Nat) : Nat :=
  match f32 b with
  | .nan => fNan fp32
  | .inf _ => fNan fp32
  | .fin neg m e => if m = 0 then b else toF32 (sinVal neg m e 0)

def fcos (b : Nat) : Nat :=
  match f32 b with
  | .nan => fNan fp32
  | .inf _ => fNan fp32
  | .fin neg m e => toF32 (sinVal neg m e 1)

/-- R339: the counter-based generator. -/
def mix (key ctr : Word) : Word :=
  let round := fun (z : Word) (r : Nat) =>
    let z := z + key + BitVec.ofNat 64 r * 0x9E3779B97F4A7C15
    let z := (z ^^^ (z >>> 30)) * 0xBF58476D1CE4E5B9
    let z := (z ^^^ (z >>> 27)) * 0x94D049BB133111EB
    z ^^^ (z >>> 31)
  round (round (round (round ctr 0) 1) 2) 3

end Sys2Proof.Machine
end

