-- ==== Sys2Proof/Machine/SpoolOps.lean ====
section
/-! DEFINITION. Machine/SpoolOps.lean: spool descriptors: their checks and the transforms of blanks in flight (R69 to R72,
R290 to R296). -/

namespace Sys2Proof.Machine

/-- The fields of a spool descriptor. -/
structure Desc where
  op : Nat
  sl : Nat
  dl : Nat
  sf : Nat
  df : Nat
  slog : Nat
  dlog : Nat
  rows : Nat
  cols : Nat
  src : Nat
  dst : Nat
  spitch : Nat
  dpitch : Nat
  mcast : Nat
  rsv : Bool
  deriving DecidableEq, Repr

/-- Read the fields from the descriptor's eight words. -/
def Desc.ofWords (ws : List Word) : Desc :=
  let w := fun i => ((ws[i]?).getD 0).toNat
  { op := bits (w 0) 63 60, sl := bits (w 0) 59 56, dl := bits (w 0) 55 52, sf := bits (w 0) 51 47, df := bits (w 0) 46 42,
    slog := bits (w 0) 41 38, dlog := bits (w 0) 37 34, rows := bits (w 0) 31 16, cols := bits (w 0) 15 0,
    src := bits (w 1) 59 0, dst := bits (w 2) 59 0, spitch := bits (w 3) 63 40, dpitch := bits (w 3) 39 16,
    mcast := bits (w 3) 15 0,
    rsv := bits (w 0) 33 32 != 0 || bits (w 1) 63 60 != 0 || bits (w 2) 63 60 != 0 || w 4 != 0 || w 5 != 0 || w 6 != 0 || w 7 != 0 }

/-- The words with the offsets of mspool added to SRC and DST (R290), modulo 2^60. -/
def addOffsets (ws : List Word) (a b : Word) : List Word :=
  let f := fun (w x : Word) => BitVec.ofNat 64 (w.toNat / 2 ^ 60 * 2 ^ 60 + (w.toNat + x.toNat) % 2 ^ 60)
  match ws with
  | w0 :: w1 :: w2 :: rest => w0 :: f w1 a :: f w2 b :: rest
  | l => l

def Desc.srcBytes (d : Desc) : Nat := 2 ^ (12 + d.slog)
def Desc.dstBytes (d : Desc) : Nat := 2 ^ (12 + d.dlog)

/-- The plain formats and RAW, which ROWMAJ and TILE_V carry; and the MX formats (R70). -/
def fmtPlain (f : Nat) : Bool := decide (f ≤ 5) || f == 12 || f == 13
def fmtMx (f : Nat) : Bool := decide (6 ≤ f) && decide (f ≤ 11)

/-- The formats that a layout carries (R70). -/
def layoutFmt (l f : Nat) : Bool :=
  if l = 0 then decide (f ≤ 14)
  else if l = 1 ∨ l = 3 then fmtPlain f
  else if l = 2 then fmtPlain f || fmtMx f
  else if l = 4 then fmtMx f
  else if l = 5 then f == 14
  else false

/-- Where element (r, c) stands in a layout, as a bit position (R70, R71). -/
def elemBit (l f rows cols pitch r c : Nat) : Nat :=
  let w := fmtBits f
  if l = 1 then 8 * pitch * r + w * c
  else if l = 2 then w * (((r / 40) * cdiv cols 64 + c / 64) * 2560 + (r % 40) * 64 + c % 64)
  else if l = 3 then w * ((r * cdiv cols 256 + c / 256) * 256 + c % 256)
  else if l = 4 then w * (r * (32 * cdiv cols 32) + c)
  else w * (r * cols + c) + 0 * rows

/-- Bytes of a layout's elements, without a scale plane. -/
def elemBytes (l f rows cols pitch : Nat) : Nat :=
  let w := fmtBits f
  if l = 1 then (if rows = 0 then 0 else (rows - 1) * pitch + cdiv (w * cols) 8)
  else if l = 2 then cdiv rows 40 * cdiv cols 64 * 320 * w
  else if l = 3 then rows * cdiv cols 256 * 32 * w
  else if l = 4 then rows * cdiv cols 32 * 4 * w
  else cdiv (w * rows * cols) 8

/-- Where the scale of row `r`, block `b` of 32 columns stands, in bytes (R70, R71). -/
def scaleAt (l f rows cols r b : Nat) : Nat :=
  if l = 2 then cdiv (elemBytes 2 f rows cols 0) 64 * 64 + r * (2 * cdiv cols 64) + b
  else elemBytes l f rows cols 0 + r * cdiv cols 32 + b

/-- Bytes of a whole image in a layout, its scale plane included. -/
def imageBytes (l f rows cols pitch : Nat) : Nat :=
  if !fmtMx f then elemBytes l f rows cols pitch
  else if l = 2 then cdiv (elemBytes 2 f rows cols 0) 64 * 64 + cdiv rows 40 * 40 * (2 * cdiv cols 64)
  else elemBytes l f rows cols 0 + rows * cdiv cols 32

/-- Do the source bytes go through as they lie (R71, R294)? -/
def Desc.plainCopy (d : Desc) : Bool :=
  (d.sl == d.dl && d.sf == d.df) || (d.dl == 0 && d.sf == d.df && (d.sl == 0 || d.sl == 4 || d.sl == 5))

/-- The pairs of R71. -/
def Desc.pairOk (d : Desc) : Bool :=
  d.plainCopy
    || (d.dl == 0 && d.sf == d.df && (d.sl == 1 || d.sl == 2 || d.sl == 3))
    || (d.sl == 1 && (d.dl == 2 || d.dl == 3) && d.sf == d.df)
    || ((d.sl == 2 || d.sl == 3) && d.dl == 1 && d.sf == d.df)
    || (d.sl == 1 && d.sf == 1 && (d.dl == 1 || d.dl == 2 || d.dl == 3) && decide (2 ≤ d.df) && decide (d.df ≤ 5))
    || (d.sl == 1 && (d.sf == 2 || d.sf == 3) && d.dl == 4 && decide (6 ≤ d.df) && decide (d.df ≤ 10))
    || (d.sl == 4 && d.dl == 2 && d.sf == d.df)

/-- Does a layout take ROWS and COLS? -/
def needsDims (l : Nat) : Bool := l == 1 || l == 2 || l == 3

/-- The bytes that the source image takes of its blank. -/
def Desc.srcImage (d : Desc) : Nat :=
  if needsDims d.sl || !d.plainCopy then imageBytes d.sl d.sf d.rows d.cols d.spitch else d.srcBytes

/-- The bytes that the transform gives. -/
def Desc.outBytes (d : Desc) : Nat :=
  if d.op = 2 then 0
  else if d.plainCopy then d.srcBytes
  else imageBytes d.dl d.df d.rows d.cols d.dpitch

/-- The checks of R294 that depend on neither runtime offsets nor multicast binding. -/
def Desc.staticOk (d : Desc) : Bool :=
  decide (d.op ≤ 2) && decide (d.sl ≤ 5) && decide (d.dl ≤ 5) && layoutFmt d.sl d.sf && layoutFmt d.dl d.df && !d.rsv
    && decide (d.slog ≤ 8) && decide (d.dlog ≤ 8)
    && (!(needsDims d.sl || needsDims d.dl || !d.plainCopy) || (d.rows != 0 && d.cols != 0))
    && (d.sl != 1 || (d.spitch % 64 == 0 && decide (cdiv (fmtBits d.sf * d.cols) 8 ≤ d.spitch)))
    && (d.dl != 1 || (d.dpitch % 64 == 0 && decide (cdiv (fmtBits d.df * d.cols) 8 ≤ d.dpitch)))
    && decide (d.srcImage ≤ d.srcBytes) && d.pairOk && decide (d.outBytes ≤ d.dstBytes)

/-- The targets of a multicast group (R541): none when it is not bound. -/
def groupTargets (s : State) (g : Nat) : List Nat :=
  let b := 0x2200000 + 256 * g
  if 1024 ≤ g then []
  else (List.range (regFld s b 15 0)).map (fun j =>
    (reg s (b + 64 + 2 * j / 8 * 8)).toNat / 2 ^ (16 * (j % 4)) % 1024)

/-- The checks of R294 at run time: the static ones, alignment after the offsets and the group's binding. -/
def Desc.ok (s : State) (d : Desc) : Bool :=
  d.staticOk && d.dst % d.dstBytes == 0 && d.src % d.srcBytes == 0
    && (d.op != 1 || groupTargets s d.mcast != [])

/-- A field of a blank held as one little-endian number. -/
def blankBits (n pos w : Nat) : Nat := n / 2 ^ pos % 2 ^ w

/-- Sum `f i` for i below `n`. -/
def sumTo (n : Nat) (f : Nat → Nat) : Nat := (List.range n).foldl (fun acc i => acc + f i) 0

/-- The destination image of a transform, as one little-endian number (R71, R325, R326). -/
def Desc.image (d : Desc) (n : Nat) : Nat :=
  if d.op = 2 then 0
  else if d.plainCopy then n
  else
    let get := fun (r c : Nat) => blankBits n (elemBit d.sl d.sf d.rows d.cols d.spitch r c) (fmtBits d.sf)
    let put := fun (r c v : Nat) => v * 2 ^ elemBit d.dl d.df d.rows d.cols d.dpitch r c
    if d.dl = 4 then
      -- quantisation by blocks of 32 (R326)
      sumTo d.rows (fun r => sumTo (cdiv d.cols 32) (fun b =>
        let vs := (List.range 32).map (fun j =>
          if 32 * b + j < d.cols then elemVal d.sf (get r (32 * b + j)) else FVal.fin false 0 0)
        let (es, sc) := mxBlock d.df vs
        sumTo 32 (fun j => put r (32 * b + j) ((es[j]?).getD 0)) + sc * 2 ^ (8 * scaleAt 4 d.df d.rows d.cols r b)))
    else
      let elems := sumTo d.rows (fun r => sumTo d.cols (fun c =>
        put r c (if d.sf = d.df then get r c else toElem d.df (elemVal d.sf (get r c)))))
      if !fmtMx d.sf then elems
      else if d.dl = 2 then
        -- MX_BLOCK to TILE_T: scales of padding rows and blocks read 127 (R71)
        elems + sumTo (cdiv d.rows 40 * 40) (fun r => sumTo (2 * cdiv d.cols 64) (fun b =>
          (if r < d.rows ∧ b < cdiv d.cols 32 then blankBits n (8 * scaleAt 4 d.sf d.rows d.cols r b) 8 else 127)
            * 2 ^ (8 * scaleAt 2 d.df d.rows d.cols r b)))
      else
        -- MX TILE_T to LINEAR: the plane stands as MX_BLOCK places it
        elems + sumTo d.rows (fun r => sumTo (cdiv d.cols 32) (fun b =>
          blankBits n (8 * scaleAt 2 d.sf d.rows d.cols r b) 8 * 2 ^ (8 * (elemBytes 0 d.df d.rows d.cols 0 + r * cdiv d.cols 32 + b))))

/-- The lines of a number as a blank of `len` bytes. -/
def blankLines (n len : Nat) : List LineData :=
  (List.range (len / 64)).map (fun i => BitVec.ofNat 512 (n / 2 ^ (512 * i)))

/-- The number of a list of lines. -/
def linesNum (ds : List LineData) : Nat := ds.foldr (fun d acc => d.toNat + 2 ^ 512 * acc) 0

/-- A line of the destination blank, of the leading lines of the source (R71, R295: bytes beyond the output are zeros). -/
def Desc.line (d : Desc) (src : List LineData) (j : Nat) : LineData := BitVec.ofNat 512 (d.image (linesNum src) / 2 ^ (512 * j))

/-- What a transform writes: for each element and each scale of the destination, its bit position, its width, and the end of the source
bits that it is made of (R70, R71, R326). -/
def Desc.parts (d : Desc) : List (Nat × Nat × Nat) :=
  let w := fmtBits d.sf
  let last := fun (r c : Nat) => elemBit d.sl d.sf d.rows d.cols d.spitch r (if d.dl = 4 then min (c / 32 * 32 + 31) (d.cols - 1) else c) + w
  let elems := (List.range d.rows).flatMap (fun r => (List.range d.cols).map (fun c =>
    (elemBit d.dl d.df d.rows d.cols d.dpitch r c, fmtBits d.df, last r c)))
  let blocks := (List.range d.rows).flatMap (fun r => (List.range (cdiv d.cols 32)).map (fun b => (r, b)))
  let scales := if d.dl = 4 then blocks.map (fun e => (8 * scaleAt 4 d.df d.rows d.cols e.1 e.2, 8, last e.1 (32 * e.2)))
    else if !fmtMx d.sf then []
    else if d.dl = 2 then blocks.map (fun e => (8 * scaleAt 2 d.df d.rows d.cols e.1 e.2, 8, 8 * scaleAt 4 d.sf d.rows d.cols e.1 e.2 + 8))
    else blocks.map (fun e => (8 * (elemBytes 0 d.df d.rows d.cols 0 + e.1 * cdiv d.cols 32 + e.2), 8, 8 * scaleAt 2 d.sf d.rows d.cols e.1 e.2 + 8))
  elems ++ scales

/-- Destination lines of a descriptor. -/
def Desc.lines (d : Desc) : Nat := d.dstBytes / 64

/-- How many leading lines of the source destination line `j` is made of (R291); the last destination line waits for the whole source
image. -/
def Desc.needs (d : Desc) (j : Nat) : Nat :=
  if d.op = 2 then 0
  else if d.plainCopy then min (j + 1) (d.srcBytes / 64)
  else if d.lines ≤ j + 1 then cdiv d.srcImage 64
  else (d.parts.filter (fun p => decide (p.1 < 512 * (j + 1)) && decide (512 * j < p.1 + p.2.1))).foldl (fun m p => max m (cdiv p.2.2 512)) 0

end Sys2Proof.Machine
end

