-- ==== Sys2Proof/Machine/EngineOps.lean ====
section
/-! DEFINITION. Machine/EngineOps.lean: what gather contexts and kites share: registers, programs, loops, waits and the layout
of a row (R417, R422, R444 to R448, R480, R481). -/

namespace Sys2Proof.Machine

def ctxOf (s : State) (n : Nat) : Ctx := Sparse.get s.ctxs n {}
def putCtx (s : State) (n : Nat) (c : Ctx) : State := { s with ctxs := Sparse.set s.ctxs n {} c }
def kiteOf (s : State) (n : Nat) : Ctx := Sparse.get s.kites n {}
def putKite (s : State) (n : Nat) (c : Ctx) : State := { s with kites := Sparse.set s.kites n {} c }

/-- The kernels with a context on gouge `g`, and those with a kite on walker `w` (R610). -/
def gougeKernels (s : State) (g : Nat) : List Nat :=
  (s.kernels.filter (fun k => k.live && k.ctxs.any (fun n => n / 8 == g))).map (fun k => k.win)
def walkerKernels (s : State) (w : Nat) : List Nat :=
  (s.kernels.filter (fun k => k.live && k.kites.any (fun n => n / 128 == w))).map (fun k => k.win)

/-- The sticky bit of GOUGE_ERR or WALKER_ERR that a fault code sets beside FAULT; `ue` is the code of the memory error. -/
def engErrBit (ue code : Nat) : Option Nat :=
  if code = 16 then some 1 else if code = 9 then some 2 else if code = 6 then some 3 else if code = ue then some 4
  else if code = 10 then some 5 else none

/-- Record a unit's fault: its sticky bits and its count (R587). -/
def engErr (s : State) (err cnt ue code : Nat) : State :=
  let s := incCnt (setBit s err 0) cnt
  match engErrBit ue code with
  | some b => setBit s err b
  | none => s

/-- A fault of gather context `n` (R449). -/
def ctxFault (s : State) (n code addr : Nat) : State :=
  let s := engErr s (rGouge (n / 8) 8) (rGouge (n / 8) 0x28) 35 code
  let s := if regFld s (rGctx n 8) 63 56 = 0 then
      regSet (regSet s (rGctx n 8) (BitVec.ofNat 64 (code * 2 ^ 56 + regFld s (rGctx n 0) 31 8 * 2 ^ 32 + (ctxOf s n).pc % 4096)))
        (rGctx n 0x10) (BitVec.ofNat 64 (addr % 2 ^ 60))
    else s
  kernelFault s (ctxOf s n).win (.gctx (Fin.ofNat 128 n)) code addr (gougeKernels s (n / 8))

/-- A fault of kite `n` (R482). -/
def kiteFault (s : State) (n code addr : Nat) : State :=
  let w := n / 128
  let s := engErr s (rWalker w 8) (rWalker w 0x28) 40 code
  let s := if regFld s (rKite n 8) 63 56 = 0 then
      regSet (regSet s (rKite n 8) (BitVec.ofNat 64 (code * 2 ^ 56 +
          (match (kiteOf s n).query with | some q => (q.evaluated + q.sideLive) % 2 ^ 32 | none => 0) * 2 ^ 24 + (kiteOf s n).pc % 4096)))
        (rKite n 0x10) (BitVec.ofNat 64 (addr % 2 ^ 60))
    else s
  kernelFault s (kiteOf s n).win (.kite (Fin.ofNat 4096 n)) code addr (walkerKernels s w)

/-- A walker cycle that serves kite `n` (R720): a slot of class `i`, 3 FRONT_STARVED or 5 BACK_TOOL. -/
def kiteCycle (i : Nat) (s : State) (n dom : Nat) : State :=
  pmc (pmc s (128 + n / 128) 0 1 (some dom)) (128 + n / 128) i 1 (some dom)

/-- A walker cycle that serves a read or a distance of kite `n` (R720): its kernel's end decides between RETIRED and WASTED (R721). A
kernel that has just aborted has wasted it. -/
def kiteWorkCycle (s : State) (n dom : Nat) : State :=
  let s := pmc s (128 + n / 128) 0 1 (some dom)
  match liveKernel s (kiteOf s n).win with
  | some k => putKernel s { k with kiteWork := Sparse.set k.kiteWork (n / 128) 0 (Sparse.get k.kiteWork (n / 128) 0 + 1) }
  | none => pmcEnd s (128 + n / 128) 2 1 (some dom)

/-- What tells gather contexts and kites apart: where their state lies, the codes of their states and of their faults, and what the
cycle of an instruction counts, from the engine and its kernel's domain. -/
structure EngKind where
  get : State → Nat → Ctx
  put : State → Nat → Ctx → State
  stat : Nat → Nat
  fault : State → Nat → Nat → Nat → State
  illegal : Nat
  run : Nat
  wait : Nat
  done : Nat
  eng : Nat → Engine
  port : Nat → Nat
  cycle : State → Nat → Nat → State

def gougeKind : EngKind :=
  { get := ctxOf, put := putCtx, stat := fun n => rGctx n 0, fault := ctxFault, illegal := 32, run := 6, wait := 3, done := 4,
    eng := fun n => .gctx (Fin.ofNat 128 n), port := fun n => gougePort (n / 8), cycle := fun s _ _ => s }
def kiteKind : EngKind :=
  { get := kiteOf, put := putKite, stat := fun n => rKite n 0, fault := kiteFault, illegal := 36, run := 1, wait := 2, done := 3,
    eng := fun n => .kite (Fin.ofNat 4096 n), port := fun n => walkerPort (n / 128), cycle := kiteCycle 3 }

/-- A kite's kwalk issues reads. -/
def kwalkKind : EngKind := { kiteKind with cycle := kiteWorkCycle }

/-- How an instruction ends: the engine goes to the next one, it stays at this one, or it faults. -/
inductive CRes where
  | next (c : Ctx) (s : State)
  | stay (s : State)
  | fault (code addr : Nat) (s : State)

/-- Close the trips that end with the instruction at `pc` (R275, R445): the open loops and the next instruction. -/
def loopNext (fuel : Nat) (ls : List LoopLvl) (pc : Nat) : List LoopLvl × Nat :=
  match fuel, ls with
  | k + 1, v :: rest =>
    if v.last ≠ pc then (ls, pc + 1)
    else if v.iter + 1 < v.trips then ({ v with iter := v.iter + 1 } :: rest, v.first)
    else loopNext k rest pc
  | _, _ => (ls, pc + 1)

/-- Move past the instruction at `pc`; a program that runs past its end raises NOCOMMIT (R447). -/
def ctxAdvance (e : EngKind) (s : State) (n : Nat) (c : Ctx) (pc : Nat) : State :=
  let (ls, p) := loopNext 3 c.loops pc
  let s := e.put s n { c with loops := ls, pc := p }
  if c.ninsn ≤ p then e.fault s n 3 0 else s

/-- Run one instruction of an engine. One that is not running its program, has stopped or has no live kernel does nothing. -/
def insn (e : EngKind) (n : Nat) (s : State) (f : Ctx → Kernel → State → CRes) : State :=
  whenRunning s fun s =>
    let c := e.get s n
    if regFld s (e.stat n) 2 0 ≠ e.run ∨ c.stopped ∨ c.query.isSome then s
    else match liveKernel s c.win with
      | none => s
      | some k =>
        e.cycle (match f c (k.at (e.port n) (some (e.eng n))) s with
          | .next c s => ctxAdvance e (readDone s k.win) n c c.pc
          | .stay s => s
          | .fault code a s => e.fault s n code a) n k.dom

/-- Register `i` of an engine: register 0 reads zero. -/
def cGet (c : Ctx) (i : BitVec 4) : Word := if i = 0 then 0 else Sparse.get c.g i.toNat 0
def cSet (c : Ctx) (i : BitVec 4) (v : Word) : Ctx := if i = 0 then c else { c with g := Sparse.set c.g i.toNat 0 v }

/-- An instruction that writes one register. -/
def cOp (e : EngKind) (n : Nat) (d : BitVec 4) (s : State) (f : Ctx → Kernel → Word) : State :=
  insn e n s fun c k s => .next (cSet c d (f c k)) s

/-- Identity items (R444): rank, engines of the kernel, the unit's number and the controller's; others are undefined. -/
def cId (e : EngKind) (n : Nat) (d k : BitVec 4) (count : Kernel → Nat) (unit : Nat) (s : State) : State :=
  insn e n s fun c kn s =>
    if 4 ≤ k.toNat then .fault e.illegal 0 s
    else .next (cSet c d (BitVec.ofNat 64
      (if k = 0 then c.rank else if k = 1 then count kn else if k = 2 then unit else ownCtrl s))) s

/-- A loop over the next `len` instructions (R445): two levels, no crossing; zero trips skip it. -/
def cLoop (e : EngKind) (n len : Nat) (trips : Kernel → Nat) (s : State) : State :=
  insn e n s fun c k s =>
    let crosses : Bool := match c.loops with
      | [] => false
      | v :: _ => decide (v.last < c.pc + len)
    if 2 ≤ c.loops.length ∨ crosses then .fault e.illegal 0 s
    else if trips k = 0 then .stay (ctxAdvance e s n c (c.pc + len))
    else .stay (
      let c := { c with loops := ⟨c.pc + 1, c.pc + len, trips k, 0⟩ :: c.loops, pc := c.pc + 1 }
      let s := e.put s n c
      if c.ninsn ≤ c.pc then e.fault s n 3 0 else s)

/-- The counter handle cj of the kernel's gather contexts and kites: every rank shares it (R344, R443). -/
def engHandle (k : Kernel) (j : Nat) : Option Handle := (k.handles.find? (fun h => h.1 == 65536 + j)).map (fun h => h.2)

/-- A wait on a counter (R446): `inj` is the unit's injection register. -/
def cWait (e : EngKind) (n : Nat) (ch gv gt : BitVec 4) (far : Word) (inj : Nat) (s : State) : State :=
  insn e n s fun c k s =>
    match engHandle k ch.toNat with
    | none => .fault e.illegal 0 s
    | some h =>
      match takeInj s inj 3 (fun _ => true) with
      | some (_, t) => .fault 9 h.ctr t
      | none =>
        match handleValue s k h far with
        | none => .fault 6 h.ctr s
        | some v =>
          if (cGet c gv).toNat ≤ v.toNat then .next c s
          else if cGet c gt = 0 then .fault 9 h.ctr s
          else .stay (regPut (e.put s n { c with wait := some (h.ctr, (cGet c gv).toNat) }) (e.stat n) 2 0 e.wait)

/-- The counter of a wait holds its target. -/
def cWaitEnd (e : EngKind) (n : Nat) (far : Word) (s : State) : State :=
  whenRunning s fun s =>
    let c := e.get s n
    match c.wait, liveKernel s c.win with
    | some (ctr, target), some k =>
      (match handleValue s k ⟨ctr, none⟩ far with
       | some v =>
         if target ≤ v.toNat then
           ctxAdvance e (regPut s (e.stat n) 2 0 e.run) n { c with wait := none } c.pc
         else s
       | none => s)
    | _, _ => s

/-- A wait times out. -/
def cWaitFail (e : EngKind) (n : Nat) (s : State) : State :=
  whenRunning s fun s =>
    let c := e.get s n
    match c.wait, liveKernel s c.win with
    | some (ctr, _), some _ => e.fault s n 9 ctr
    | _, _ => s

/-- Does the watchdog of an engine count: it has started and has neither reported done nor been frozen (R448)? -/
def engAwake (e : EngKind) (s : State) (n : Nat) : Bool :=
  let st := regFld s (e.stat n) 2 0
  st != 0 && st != e.done && st != e.done + 1 && (liveKernel s (e.get s n).win).isSome

/-- The watchdog of an engine that has not reported done expires (R448). -/
def engWatchdog (e : EngKind) (n : Nat) (s : State) : State :=
  if engAwake e s n then e.fault (e.put s n { e.get s n with dog := 0 }) n 16 0 else s

/-- One walker cycle of an engine's watchdog (R448). -/
def dogTick (e : EngKind) (s : State) (n : Nat) : State :=
  if !engAwake e s n then s
  else if (e.get s n).dog ≤ 1 then engWatchdog e n s
  else e.put s n { e.get s n with dog := (e.get s n).dog - 1 }

/-- A counted full-line write of the rank and the batches or queries run (R444). -/
def cSig (e : EngKind) (n : Nat) (a : BitVec 4) (s : State) : State :=
  insn e n s fun c k s =>
    let ga := (cGet c a).toNat % 2 ^ 60
    match kOutLine s k true ga (BitVec.ofNat 512 (c.rank % 2 ^ 32 + c.ran % 2 ^ 32 * 2 ^ 32)) with
    | .ok _ s => .next c s
    | .fault f s => .fault f ga s
    | .wait s => .stay s

/-- The engine reports done (R447). -/
def cEnd (e : EngKind) (n : Nat) (s : State) : State :=
  insn e n s fun c k s =>
    .stay (regPut (putKernel (e.put s n c) { (k.at 41) with done := k.done ++ [e.eng n] }) (e.stat n) 2 0 e.done)

/-! Rows of tables and vectors of nodes (R422). -/

/-- Element `i` of a row in FP32, from the row's bytes as a number. -/
def rowElem (fmt dim n i : Nat) : Nat :=
  let v := elemVal fmt (blankBits n (fmtBits fmt * i) (fmtBits fmt))
  if fmt = 12 then toF32 (v.mul (f32 (blankBits n (8 * dim) 32)))
  else if fmt = 13 then toF32 (v.mul (f32 (blankBits n (8 * cdiv dim 2) 32)))
  else if fmt = 6 then toF32 (v.mul (scaleVal (blankBits n (8 * (32 * cdiv dim 32 + i / 32)) 8)))
  else if fmt = 10 then toF32 (v.mul (scaleVal (blankBits n (8 * (16 * cdiv dim 32 + i / 32)) 8)))
  else toF32 v

/-- A row as FP32 elements. -/
def rowElems (fmt dim n : Nat) : List Nat := (List.range dim).map (rowElem fmt dim n)

/-- FP32 division, rounded once. -/
def fdiv (a b : Nat) : Nat :=
  match f32 a, f32 b with
  | .nan, _ => fNan fp32
  | _, .nan => fNan fp32
  | .inf _, .inf _ => fNan fp32
  | .inf x, .fin y _ _ => toF32 (.inf (x != y))
  | .fin x _ _, .inf y => toF32 (.fin (x != y) 0 0)
  | .fin x m e, .fin y n f =>
    if n = 0 then (if m = 0 then fNan fp32 else toF32 (.inf (x != y)))
    else match quotVal (x != y) m n with
      | .fin sg q g => toF32 (.fin sg q (g + e - f))
      | v => toF32 v

/-- A line of version `v` of region `r` of this controller, which the kernel has pinned (R426). -/
def verLine (s : State) (k : Kernel) (r v x : Nat) : KAcc LineData :=
  let key := spKey (spVersion r v) (x / 64 * 64)
  if !permitRegion s k.dom r false then kGrant s
  else (kReadUnit s k r (rgBase s r + x) key).counted k (rgBase s r + x) 0

/-- Lines of a version. -/
def verLines (s : State) (k : Kernel) (r v x n : Nat) : KAcc (List LineData) :=
  match n with
  | 0 => .ok [] s
  | m + 1 =>
    match verLine s k r v x with
    | .ok d s =>
      (match verLines s k r v (x + 64) m with
       | .ok ds s => .ok (d :: ds) s
       | .fault c s => .fault c s
       | .wait s => .wait s)
    | .fault c s => .fault c s
    | .wait s => .wait s

/-- `n` bytes at byte `x` of a list of lines that starts with the line of `x`. -/
def linesBytes (ds : List LineData) (x n : Nat) : Nat := linesNum ds / 2 ^ (8 * (x % 64)) % 2 ^ (8 * n)

/-- `n` bytes of a version from byte `x`. -/
def verBytes (s : State) (k : Kernel) (r v x n : Nat) : KAcc Nat :=
  match verLines s k r v x ((x % 64 + n + 63) / 64) with
  | .ok ds s => .ok (linesBytes ds x n) s
  | .fault c s => .fault c s
  | .wait s => .wait s

end Sys2Proof.Machine
end

