-- ==== Sys2Proof/Machine/PlanCheck.lean ====
section
/-! DEFINITION. Machine/PlanCheck.lean: the checks that a plan container passes when it is loaded (R342, R343, R351, R443,
R479). -/

namespace Sys2Proof.Machine

/-! Instruction words (R273, R274, R444, R480): Decode.lean gives the command of each. -/

/-- Is the word of slot `no` defined (R274)? -/
def slotOk (no w : Nat) : Bool := (slotCommand 0 no w 0 true).isSome

/-- The register that a slot writes (R269): its file, 0 scalars, 1 vectors, 2 generators. -/
def slotDest (no w : Nat) : Option (Nat × Nat) :=
  let op := w / 2 ^ 24 % 256
  let s := if bits w 23 19 = 0 then none else some (0, bits w 23 19)
  let v := some (1, bits w 23 19)
  if no = 0 then (if op = 0x30 then some (2, bits w 23 20)
    else if (1 ≤ op ∧ op ≤ 0x11) ∨ op = 0x31 then s else none)
  else if no = 1 then (if op = 1 then v else if op = 3 ∨ op = 0x12 then s else none)
  else if no = 2 then (if op = 0x21 then v else none)
  else if op = 0 then none
  else if op = 0x23 ∨ op = 0x24 ∨ op = 0x29 then s
  else v

/-- Does a bundle meet R269 and R274? -/
def bundleOk (b : Nat) : Bool :=
  let ds := (List.range 4).filterMap (fun no => slotDest no (slotWord b no))
  (List.range 4).all (fun no => slotOk no (slotWord b no)) && ds.dedup.length == ds.length

/-- Walk a program's loops: `op` gives each instruction's loop length and whether it ends the program; `opens` holds the last
instruction of each open body, innermost first. Answers the first loop that breaks R276 or R255. -/
def loopWalk (depth lim : Nat) (op : Nat → Option Nat × Bool) (n i : Nat) (opens : List Nat) : Option Nat :=
  match n with
  | 0 => none
  | m + 1 =>
    let opens := opens.filter (fun e => decide (i ≤ e))
    match (op i).1 with
    | some len =>
      let crosses : Bool := match opens with
        | [] => false
        | e :: _ => decide (e < i + len)
      if depth ≤ opens.length ∨ crosses ∨ (opens = [] ∧ lim < len) then some i
      else loopWalk depth lim op m (i + 1) ((i + len) :: opens)
    | none => loopWalk depth lim op m (i + 1) opens

/-- The first end instruction that lies inside a loop body (R277): `past` is where the bodies opened so far are left. -/
def endInside (op : Nat → Option Nat × Bool) (n i past : Nat) : Option Nat :=
  match n with
  | 0 => none
  | m + 1 =>
    match op i with
    | (some len, _) => endInside op m (i + 1) (max past (i + len + 1))
    | (none, e) => if e && decide (i < past) then some i else endInside op m (i + 1) past

/-- Does an end instruction lie outside every loop body (R277, R351)? -/
def endOutside (op : Nat → Option Nat × Bool) (n i past : Nat) : Bool :=
  match n with
  | 0 => false
  | m + 1 =>
    match op i with
    | (some len, _) => endOutside op m (i + 1) (max past (i + len + 1))
    | (none, e) => (e && decide (past ≤ i)) || endOutside op m (i + 1) past

/-- The loop length and the end mark of a bundle's S slot. -/
def bundleLoop (b : Nat) : Option Nat × Bool :=
  let w := slotWord b 0
  let op := w / 2 ^ 24
  (if op = 0x20 ∨ op = 0x21 then some (bits w 23 12 + 1) else none, op == 0x3F)

/-! The container. -/

/-- `n` bytes at byte `a` of the container at memory key `b`. -/
def cN (s : State) (b a n : Nat) : Nat := s.readN (b + a) n

/-- The section table's entries: type, index, count, offset. -/
def cSect (s : State) (b ty ix : Nat) : Nat × Nat :=
  match (sectionsAt s b).find? (fun e => e.1 == ty && e.2.1 == ix) with
  | some e => e.2.2
  | none => (0, 0)

/-- Where a section stands in the table, as the ADDR of R351 names it: the image index for CODE and DESC. -/
def cPlace (s : State) (b ty ix i : Nat) : Nat :=
  (if ty = 1 ∨ ty = 2 then ix else ((sectionsAt s b).findIdx? (fun e => e.1 == ty && e.2.1 == ix)).getD 0) * 2 ^ 48 + i

/-- The bytes of an entry and the most entries of a section type (R343). -/
def sectSize (ty : Nat) : Option (Nat × Nat) :=
  match ty with
  | 1 => some (16, 1048576)
  | 2 => some (64, 1024)
  | 3 => some (1, 128)
  | 4 => some (16, 16)
  | 5 => some (16, 64)
  | 6 => some (16, 64)
  | 7 => some (64, 4096)
  | 8 => some (16, 8192)
  | 9 => some (16, 1 + 8 + 1024)
  | 10 => some (16, 1 + 16 + 1024)
  | _ => none

/-- All bytes of the container, for the DIGEST, with bytes 64 to 127 taken as zero. -/
def digestBytes (s : State) (b size : Nat) : List Byte :=
  (List.range size).map (fun i => if 64 ≤ i ∧ i < 128 then 0 else Mem.read s.mem (b + i))

/-- Entry 0 of a GOUGE or WALK section: entries that follow for tables, and instructions; none when a field is out of range
or an unused byte is not zero (R442, R443, R479). -/
def engFields (s : State) (b ty : Nat) : Option (Nat × Nat) :=
  let (_, o) := cSect s b ty 0
  let n := fun a k => cN s b (o + a) k
  if ty = 10 then
    let okay := decide (1 ≤ n 0 2) && decide (n 0 2 ≤ 128) && decide (1 ≤ n 2 2) && decide (n 2 2 ≤ 16) && decide (1 ≤ n 4 4)
      && decide (n 4 4 ≤ regFld s 0x38 55 32) && decide (1 ≤ n 8 2) && decide (n 8 2 ≤ 4096) && n 10 2 % 16 == 0
      && decide (n 10 2 ≤ 16384) && n 12 4 == 0
    if okay then some (n 2 2, n 8 2) else none
  else
    let okay := decide (1 ≤ n 0 2) && decide (n 0 2 ≤ 4096) && decide (1 ≤ n 2 1) && decide (n 2 1 ≤ 8) && n 3 1 == 0
      && n 4 4 % 16 == 0 && decide (1024 ≤ n 4 4) && decide (n 4 4 ≤ regFld s 0x70 16 0) && decide (1 ≤ n 8 2)
      && decide (n 8 2 ≤ 4096) && n 10 6 == 0
    if okay then some (n 2 1, n 8 2) else none

/-- The first of `t` table entries of a GOUGE or WALK section whose unused bytes are not zero: its entry index. -/
def engTable (s : State) (b ty t : Nat) : Option Nat :=
  let k := if ty = 10 then 1 else 2
  ((List.range t).find? (fun i => cN s b ((cSect s b ty 0).2 + 16 * (i + 1) + k) (16 - k) != 0)).map (fun i => i + 1)

/-- A sound head: entry 0 and the table entries. -/
def engHead (s : State) (b ty : Nat) : Option (Nat × Nat) :=
  match engFields s b ty with
  | none => none
  | some (t, m) => if (engTable s b ty t).isSome then none else some (t, m)

/-- Instruction `i` of a GOUGE or WALK program with `t` table entries. -/
def engInsn (s : State) (b ty t i : Nat) : Nat := cN s b ((cSect s b ty 0).2 + 16 * (1 + t) + 4 * i) 4

/-- Is an instruction word of a GOUGE or WALK section defined (R444, R480)? -/
def engOk (ty w : Nat) : Bool := if ty = 10 then (gougeCommand 0 w 0).isSome else (kiteCommand 0 w 0).isSome

/-- The engine sections that a container has. -/
def engSects (s : State) (b : Nat) : List Nat := [9, 10].filter (fun ty => (sectionsAt s b).any (fun e => e.1 == ty))

/-- A counter table entry of a container: kind, flags, parameter, area offset and size (R344). -/
def cCounter (s : State) (b j : Nat) : Nat × Nat × Nat × Nat × Nat :=
  let (n, o) := cSect s b 4 0
  if j < n then
    let f := fun a k => cN s b (o + 16 * j + a) k
    (f 0 1, f 1 1, f 2 1, f 4 4, f 8 4)
  else (0, 0, 0, 0, 0)

/-- Check 1. -/
def checkFmt (s : State) (b : Nat) : Bool :=
  cN s b 0 4 == 0x50544B53 && cN s b 4 2 == regFld s 8 15 0 && decide (cN s b 8 4 ≤ regFld s 8 63 48)
    && cN s b 12 4 == 0 && cN s b 30 2 == 0 && cN s b 39 1 == 0 && cN s b 48 16 == 0

/-- Check 4 of one section: its place, its counts and its index. -/
def sectOk (s : State) (b size ncode : Nat) (e : Nat × Nat × Nat × Nat) : Bool :=
  match sectSize e.1 with
  | none => false
  | some (w, most) =>
    let (ty, ix, n, o) := e
    o % 64 == 0 && decide (256 + 16 * cN s b 26 2 ≤ o) && decide (o + w * n ≤ size) && decide (n ≤ most)
      && (if ty = 1 ∨ ty = 2 then decide (ix < ncode) else ix == 0)
      && (match (if ty = 9 ∨ ty = 10 then engHead s b ty else some (0, 0)) with
          | none => false
          | some (t, m) => (ty != 9 && ty != 10) || n == 1 + t + cdiv m 4)

/-- Check 4: what it refuses, as the ADDR of R351. -/
def checkSize (s : State) (b size : Nat) : Option Nat :=
  let rows := cN s b 24 1
  let cols := cN s b 25 1
  let ncode := cN s b 29 1
  let ss := sectionsAt s b
  let count := fun ty ix => (ss.filter (fun e => e.1 == ty && e.2.1 == ix)).length
  let clash := fun (x y : Nat × Nat × Nat × Nat) =>
    let wx := (sectSize x.1).getD (0, 0)
    let wy := (sectSize y.1).getD (0, 0)
    decide (0 < wx.1 * x.2.2.1) && decide (0 < wy.1 * y.2.2.1) && decide (x.2.2.2 < y.2.2.2 + wy.1 * y.2.2.1)
      && decide (y.2.2.2 < x.2.2.2 + wx.1 * x.2.2.1)
  if cN s b 16 8 ≠ size ∨ size < 256 + 16 * cN s b 26 2 ∨ 2 ^ 28 < size ∨ 8 < rows ∨ 16 < cols ∨ (rows = 0 ∧ cols ≠ 0)
      ∨ (rows ≠ 0 ∧ cols = 0) ∨ (rows = 0 ∧ ncode ≠ 0) ∨ (rows ≠ 0 ∧ ncode = 0) ∨ 128 < ncode ∨ 64 < cN s b 28 1 then some 0
  else match ss.findIdx? (fun e => !sectOk s b size ncode e) with
    | some i =>
      let e := (ss[i]?).getD (0, 0, 0, 0)
      let item := match (if e.1 = 9 ∨ e.1 = 10 then engFields s b e.1 else none) with
        | some (t, _) => (engTable s b e.1 t).getD 0
        | none => 0
      some ((if e.1 = 1 ∨ e.1 = 2 then e.2.1 else i) * 2 ^ 48 + item)
    | none =>
      if ss.dedup.length ≠ ss.length ∨ (List.range ss.length).any (fun i => (List.range i).any (fun j =>
          match ss[i]?, ss[j]? with
          | some x, some y => clash x y
          | _, _ => false)) then some 0
      else if (List.range ncode).any (fun i => count 1 i != 1 || decide (1 < count 2 i))
          ∨ (ncode ≠ 0 ∧ (count 3 0 ≠ 1 ∨ count 4 0 ≠ 1 ∨ (cSect s b 3 0).1 ≠ rows * cols))
          ∨ [3, 4, 5, 6, 7, 8, 9, 10].any (fun ty => decide (1 < count ty 0)) then some 0
      else ((List.range (cSect s b 3 0).1).find? (fun r => decide (ncode ≤ cN s b ((cSect s b 3 0).2 + r) 1))).map
        (fun r => cPlace s b 3 0 r)

/-- Bundle `i` of image `g`. -/
def cBundle (s : State) (b g i : Nat) : Nat := cN s b ((cSect s b 1 g).2 + 16 * i) 16

/-- Check 5. -/
def checkBundle (s : State) (b : Nat) : Option Nat :=
  let images := List.range (cN s b 29 1)
  match images.findSome? (fun g =>
      let n := (cSect s b 1 g).1
      match (List.range n).find? (fun i => !bundleOk (cBundle s b g i)) with
      | some i => some (cPlace s b 1 g i)
      | none =>
        let op := fun i => bundleLoop (cBundle s b g i)
        if !endOutside op n 0 0 then some (cPlace s b 1 g n)
        else (endInside op n 0 0).map (fun i => cPlace s b 1 g i)) with
  | some a => some a
  | none =>
    (engSects s b).findSome? (fun ty =>
      match engHead s b ty with
      | none => some (cPlace s b ty 0 0)
      | some (t, m) =>
        ((List.range (cdiv m 4 * 4)).find? (fun i =>
          let w := engInsn s b ty t i
          if i < m then !engOk ty w else w != 0)).map (fun i => cPlace s b ty 0 (1 + t + i / 4)))

/-- Check 6. -/
def checkLoop (s : State) (b : Nat) : Option Nat :=
  match (List.range (cN s b 29 1)).findSome? (fun g =>
      let n := (cSect s b 1 g).1
      match loopWalk 4 4096 (fun i => bundleLoop (cBundle s b g i)) n 0 [] with
      | some i => some (cPlace s b 1 g i)
      | none => none) with
  | some a => some a
  | none =>
    (engSects s b).findSome? (fun ty =>
      match engHead s b ty with
      | none => none
      | some (t, m) =>
        match loopWalk 2 4096 (fun i =>
            let w := engInsn s b ty t i
            (if w / 2 ^ 24 = 0x20 ∨ w / 2 ^ 24 = 0x21 then some (bits w 23 12 + 1) else none, false)) m 0 [] with
        | some i => some (cPlace s b ty 0 (1 + t + i / 4))
        | none => none)

/-- Check 7. -/
def checkDesc (s : State) (b : Nat) : Option Nat :=
  let bad := fun ty ix =>
    let (n, o) := cSect s b ty ix
    ((List.range n).find? (fun i => !(Desc.ofWords ((List.range 8).map (fun j =>
      BitVec.ofNat 64 (cN s b (o + 64 * i + 8 * j) 8)))).staticOk)).map (fun i => cPlace s b ty ix i)
  match (List.range (cN s b 29 1)).findSome? (fun g => bad 2 g) with
  | some a => some a
  | none => bad 7 0

/-- The handle that an M slot word names, and whether it needs an area. -/
def mHandle (w : Nat) : Option (Nat × Bool) :=
  let op := w / 2 ^ 24
  if op = 0x10 then some (bits w 23 20, true)
  else if op = 0x11 then some (bits w 23 20, false)
  else if op = 0x12 then some (bits w 18 15, false)
  else none

/-- Check 8. -/
def checkCounters (s : State) (b : Nat) : Option Nat :=
  let (n, _) := cSect s b 4 0
  let ent := cCounter s b
  let rankArea := fun j =>
    let (k, _, _, o, z) := ent j
    if k = 1 ∧ z ≠ 0 then some (o, z) else none
  match (List.range n).find? (fun j =>
      let (k, fl, _, o, z) := ent j
      decide (2 < k) || decide (1 < fl) || cN s b ((cSect s b 4 0).2 + 16 * j + 3) 1 != 0
        || cN s b ((cSect s b 4 0).2 + 16 * j + 12) 4 != 0 || z % 64 != 0 || decide (2 ^ 20 < z)
        || (k == 1 && z != 0 && (o % 64 != 0 || decide (6 * 2 ^ 20 < o + z)))
        || (List.range j).any (fun i =>
          match rankArea i, rankArea j with
          | some x, some y => decide (x.1 < y.1 + y.2) && decide (y.1 < x.1 + x.2)
          | _, _ => false)) with
  | some j => some (cPlace s b 4 0 j)
  | none =>
    match (List.range (cN s b 29 1)).findSome? (fun g =>
        ((List.range (cSect s b 1 g).1).find? (fun i =>
          match mHandle (slotWord (cBundle s b g i) 1) with
          | none => false
          | some (h, area) => (ent h).1 == 0 || (area && (ent h).2.2.2.2 == 0))).map (fun i => cPlace s b 1 g i)) with
    | some a => some a
    | none =>
      (engSects s b).findSome? (fun ty =>
        match engHead s b ty with
        | none => none
        | some (t, m) =>
          ((List.range m).find? (fun i =>
            let w := engInsn s b ty t i
            w / 2 ^ 24 == 0x11 && (ent (bits w 23 20)).1 != 2)).map (fun i => cPlace s b ty 0 (1 + t + i / 4)))

/-- The declared role of a region slot of a container, 0 for none. -/
def cRole (s : State) (b slot : Nat) : Nat :=
  let (n, o) := cSect s b 5 0
  match (List.range n).find? (fun i => cN s b (o + 16 * i) 1 == slot) with
  | some i => cN s b (o + 16 * i + 1) 1
  | none => 0

/-- Check 9. -/
def checkRegion (s : State) (b : Nat) : Option Nat :=
  let (nr, ro) := cSect s b 5 0
  let (no, oo) := cSect s b 6 0
  let (ns, so) := cSect s b 8 0
  let nreg := cN s b 28 1
  let ranks := cN s b 24 1 * cN s b 25 1
  match (List.range nr).find? (fun i =>
      let f := fun a k => cN s b (ro + 16 * i + a) k
      decide (nreg ≤ f 0 1) || f 1 1 == 0 || decide (3 < f 1 1) || f 2 2 != 0 || f 8 8 != 0
        || (List.range i).any (fun j => cN s b (ro + 16 * j) 1 == f 0 1)) with
  | some i => some (cPlace s b 5 0 i)
  | none =>
    match (List.range no).find? (fun i =>
        let f := fun a k => cN s b (oo + 16 * i + a) k
        cRole s b (f 0 1) != 3 || f 3 5 != 0) with
    | some i => some (cPlace s b 6 0 i)
    | none =>
      match (List.range ns).find? (fun i =>
          let f := fun a k => cN s b (so + 16 * i + a) k
          f 3 1 != 0 || f 14 2 != 0
            || !(f 2 1 == 0xFF || (decide (f 2 1 < 16) && (cCounter s b (f 2 1)).1 != 0 && decide (f 4 2 < ranks)))
            || !(if f 0 1 = 1 then decide (f 1 1 < 8) && decide (f 6 2 < (cSect s b 7 0).1)
                 else f 0 1 == 2 && f 1 1 == 0 && cRole s b (f 6 2) != 0)) with
      | some i => some (cPlace s b 8 0 i)
      | none =>
        (engSects s b).findSome? (fun ty =>
          match engHead s b ty with
          | none => none
          | some (t, _) =>
            ((List.range t).find? (fun i =>
              let o := (cSect s b ty 0).2 + 16 * (i + 1)
              cRole s b (cN s b o 1) != 1
                || (ty == 9 && cN s b (o + 1) 1 != 0xFF && cRole s b (cN s b (o + 1) 1) != 2))).map
              (fun i => cPlace s b ty 0 (i + 1)))

/-- The checks of R351 in order: the refusal reason and its ADDR. `inj` fails the DIGEST check (R381). -/
def planCheck (s : State) (b size : Nat) (inj : Bool) : Option (Nat × Nat) :=
  if !checkFmt s b then some (6, 0)
  else if cN s b 6 2 ≠ regFld s 8 31 16 then some (7, 0)
  else if inj ∨ Config.shake256 (digestBytes s b size) ≠ BitVec.ofNat 512 (cN s b 64 64) then some (8, 0)
  else match checkSize s b size with
    | some a => some (9, a)
    | none =>
    match checkBundle s b with
    | some a => some (10, a)
    | none =>
    match checkLoop s b with
    | some a => some (11, a)
    | none =>
    match checkDesc s b with
    | some a => some (12, a)
    | none =>
    match checkCounters s b with
    | some a => some (13, a)
    | none =>
    match checkRegion s b with
    | some a => some (14, a)
    | none => if cN s b 32 6 = 0 then some (15, 0) else none

end Sys2Proof.Machine
end

