-- ==== Sys2Proof/Machine/Launch.lean ====
section
/-! DEFINITION. Machine/Launch.lean: the start of a kernel: placement, bindings, tables and indices, work frames and the start
point (R344, R345, R356, R371, R372, R419, R426, R448, R455, R456, R465 to R468, R651). -/

namespace Sys2Proof.Machine

/-- The key of plan `p`'s container. -/
def planKey (p : Nat) : Nat := spKey (spPlan p) 0

/-! Placement. -/

/-- May a kernel take Lathe `l`: in service, and idle when `idle` asks for it, and not taken by a kernel whose start sequence runs
(R360), nor owed a reset (R258)? An engine under hang recovery admits no other kernel (R612). -/
def latheFree (s : State) (idle : Bool) (l : Nat) : Bool :=
  latheState s l != 8 && (!idle || (latheState s l == 0 && (latheAt s l).owedBy.isNone && !s.hangs.any (fun h => h.eng == l)
    && !s.kernels.any (fun k => !k.started && k.lathes.contains l)))

/-- The Lathes of a rectangle by rank (R371). -/
def rectangle (rows cols r c : Nat) : List Nat :=
  (List.range (rows * cols)).map (fun i => (r + i / cols) * 16 + c + i % cols)

/-- The first base position, in row-major order, that R371 accepts; 0xFF leaves a coordinate to the loader. -/
def placeRect (s : State) (idle : Bool) (rows cols br bc : Nat) : Option (List Nat) :=
  ((List.range 128).map (fun i => (i / 16, i % 16))).findSome? (fun p =>
    if (br = 0xFF ∨ br = p.1) ∧ (bc = 0xFF ∨ bc = p.2) ∧ p.1 + rows ≤ 8 ∧ p.2 + cols ≤ 16 then
      let ls := rectangle rows cols p.1 p.2
      if ls.all (latheFree s idle) then some ls else none
    else none)

/-- Is gouge `g` in service for other kernels, and is walker `w`? -/
def gougeOpen (s : State) (g : Nat) : Bool :=
  decide (regFld s (rGouge g 0) 3 0 < 3) && !s.hangs.any (fun h => h.eng == 288 + g)
def walkerOpen (s : State) (w : Nat) : Bool :=
  decide (regFld s (rWalker w 0) 3 0 < 3) && !s.hangs.any (fun h => h.eng == 256 + w)

/-- Give `k` ranks to units of `per` slots each: each to the unit with the fewest in use, ties to the lowest (R419, R455).
`taken` lists the slots in use. -/
def placeRanks (units : List Nat) (per k : Nat) (taken : List Nat) : Option (List Nat) :=
  match k with
  | 0 => some []
  | m + 1 =>
    let load := fun u => (taken.filter (fun n => n / per == u)).length
    match (units.filter (fun u => decide (load u < per))).foldl (fun best u =>
        match best with
        | none => some u
        | some b => if load u < load b then some u else some b) none with
    | none => none
    | some u =>
      match (List.range per).find? (fun j => !taken.contains (per * u + j)) with
      | none => none
      | some j => (placeRanks units per m ((per * u + j) :: taken)).map (fun l => (per * u + j) :: l)

/-- Contexts and kites that a plan asks for. -/
def planCtxs (s : State) (p : Nat) : Nat := if (planSect s p 10 0).1 = 0 then 0 else planN s p (planSect s p 10 0).2 2
def planKites (s : State) (p : Nat) : Nat := if (planSect s p 9 0).1 = 0 then 0 else planN s p (planSect s p 9 0).2 2

/-- The engines of a plan: Lathes, contexts, kites. -/
def placeAll (s : State) (k : Kernel) : Option (List Nat × List Nat × List Nat) :=
  let p := k.plan
  match (if planRanks s p = 0 then some [] else placeRect s true (planRows s p) (planCols s p) k.baseRow k.baseCol),
      placeRanks ((List.range 16).filter (gougeOpen s)) 8 (planCtxs s p) ((List.range 128).filter (ctxUsed s)),
      placeRanks ((List.range 32).filter (walkerOpen s)) 128 (planKites s p)
        (if planKites s p = 0 then [] else (List.range 4096).filter (kiteUsed s)) with
  | some ls, some cs, some ks => some (ls, cs, ks)
  | _, _, _ => none

/-! Budgets (R356, R448, R609). -/

/-- The budget B of a kernel. -/
def budget (s : State) (k : Kernel) : Nat :=
  let p := k.plan
  let bp := planN s p 38 1
  min (2 ^ 48 - 1) (planN s p 32 6 + (if bp = 0xFF then 0 else planN s p 40 8 * (k.param bp % 2 ^ 32)))

/-- RECOV_CFG.WDOG_MARGIN in sixteenths (R609). -/
def wdogMargin (s : State) : Nat := max 16 (regFld s (rRecov 0) 23 16)

/-! Tables (R420 to R427). -/

/-- Does the kernel's pinning of version `v` of region `r` succeed (R427, R758)? -/
def canPin (s : State) (r v : Nat) : Bool :=
  rgValid s r && rgVersioned s r && !rgDeleting s r && (versionsOf s r).contains v && heldBy s r (rgCurrent s r) v

/-- The pieces of a root, from its bytes as a number. -/
def rootPieces (n k : Nat) : List Piece :=
  (List.range k).map (fun i =>
    let f := fun a w => blankBits n (8 * (64 + 32 * i + a)) (8 * w)
    ⟨f 0 8, f 8 4, f 12 2, f 14 2, f 16 6, f 22 1, f 24 2, f 26 6⟩)

/-- Do pieces rise and stay apart (R421)? -/
def piecesOk (l : List Piece) : Bool :=
  match l with
  | a :: b :: rest => decide (a.first + a.count ≤ b.first) && piecesOk (b :: rest)
  | _ => true

/-- A table from its root's bytes (R420 to R422, R424, R443), none when the root is invalid. `box` is the controller's own. -/
def tableOf (box work n np : Nat) : Option GTab :=
  let f := fun a w => blankBits n (8 * a) (8 * w)
  let dim := f 6 2
  let ps := rootPieces n np
  let pres : Bool := f 16 1 == 1
  if f 0 4 == 0x54424C52 && decide (1 ≤ np) && decide (np ≤ 256) && decide (1 ≤ dim) && decide (dim ≤ 4096)
      && decide (1 ≤ f 8 8) && decide (f 8 8 ≤ 2 ^ 40) && decide (f 16 1 ≤ 1) && f 17 3 == 0 && blankBits n 240 272 == 0
      && (!pres || (f 20 2 / 16 == box && decide (f 20 2 < 1024) && decide (f 22 2 < 16384)))
      && piecesOk ps
      && (List.range np).all (fun i => f (64 + 32 * i + 23) 1 == 0)
      && ps.all (fun p => decide (1 ≤ p.count) && decide (p.first + p.count ≤ f 8 8) && p.ctrl / 16 == box
        && decide (p.ctrl < 1024) && decide (p.region < 16384) && p.pitch % 16 == 0 && decide (16 ≤ p.pitch)
        && decide (p.pitch ≤ 16384) && decide (p.pitch ≤ work) && p.offset % 64 == 0
        && (match rowBytes p.fmt dim with
            | some b => decide (b ≤ p.pitch)
            | none => false)) then
    some ⟨dim, f 8 8, if pres then some (f 20 2, f 22 2, f 24 6) else none, ps⟩
  else none

/-- The regions and versions that a table names (R426): its pieces and its presence bitmap. -/
def GTab.named (t : GTab) : List (Nat × Nat × Nat) := t.pieces.map (fun p => (p.ctrl, p.region, p.version)) ++ t.pres.toList

/-- Pin what the tables of a kernel name on this controller (R426, step 3): the kernel with its pins, or the address of the root that
names a version that is not held any more (R427). -/
def pinTabs (s : State) (k : Kernel) (ts : List (GTab × Nat)) : Kernel ⊕ Nat :=
  match ts with
  | [] => .inl k
  | (t, root) :: rest =>
    let mine := (t.named.filter (fun q => q.1 == ownCtrl s)).map (fun q => q.2)
    if mine.any (fun q => !canPin s q.1 q.2) then .inr root
    else pinTabs s { k with pins := k.pins ++ mine.filter (fun q => !k.pins.contains q) } rest

/-- Read the tables of slots `slots` (R426, step 2). -/
def readTabs (s : State) (k : Kernel) (work : Nat) (ext : Ext) (slots : List Nat) : Start Kernel :=
  match slots with
  | [] => .ok k s
  | t :: rest =>
    match k.slots.find? (fun x => x.slot == t) with
    | none => .fault 33 0 s
    | some x =>
      (kBytes s k x.base 64 ext).start x.base fun h s =>
        let np := blankBits h 32 16
        (kBytes s k x.base (64 + 32 * min np 256) ext).start x.base fun n s =>
          match tableOf (ownCtrl s / 16) work n np with
          | none => .fault 33 x.base s
          | some tab => readTabs s { k with tabs := k.tabs ++ [tab] } work ext rest

/-! Indices (R457 to R468). -/

/-- An index from its root's bytes, none when R457 or R458 refuses it. -/
def indexOf (n base : Nat) : Option (KIdx × Nat) :=
  let f := fun a w => blankBits n (8 * a) (8 * w)
  let fmt := f 6 1
  let deg := f 8 1
  let nent := f 9 1
  let voff := 64 * cdiv (64 + 4 * deg) 64
  if f 0 4 == 0x4B495445 && decide (1 ≤ f 4 2) && decide (f 4 2 ≤ 4096) && [3, 4, 5, 12, 13].contains fmt && decide (f 7 1 ≤ 1)
      && decide (1 ≤ deg) && decide (deg ≤ 64) && decide (1 ≤ nent) && decide (nent ≤ 8) && f 10 2 == 0 && decide (1 ≤ f 12 4)
      && f 16 4 % 64 == 0 && decide (f 16 4 ≤ 32768) && f 20 4 == 0 && f 24 8 % 64 == 0 && decide (128 ≤ f 24 8) && f 40 24 == 0
      && (List.range 8).all (fun i => if i < nent then decide (f (64 + 4 * i) 4 < f 12 4) else f (64 + 4 * i) 4 == 0) && f 96 32 == 0
      && (match rowBytes fmt (f 4 2) with
          | some b => decide (voff + b ≤ f 16 4)
          | none => false) then
    some ({ base := base, dim := f 4 2, fmt := fmt, metric := f 7 1, degree := deg, nodes := f 12 4, pitch := f 16 4,
            off := f 24 8, entries := (List.range nent).map (fun i => f (64 + 4 * i) 4), side := 0, cap := 1, spitch := 64,
            hidden := [], live := [] }, f 32 8)
  else none

/-- The labels and kinds of a side window's entries from `n` on (R467). -/
def sideEntries (s : State) (k : Kernel) (x : KIdx) (ext : Ext) (m n : Nat) : Start (List (Nat × Nat × Nat)) :=
  match m with
  | 0 => .ok [] s
  | j + 1 =>
    let a := x.side + 64 + n % x.cap * x.spitch
    (kBytes s k a 64 ext).start a fun v s =>
      let kind := blankBits v 128 8
      if kind ≠ 1 ∧ kind ≠ 2 then .fault 39 a s
      else match sideEntries s k x ext j (n + 1) with
        | .ok es s => .ok ((n, blankBits v 0 64, kind) :: es) s
        | r => r

/-- The live entries of a side window: INSERTs whose label no later entry carries. -/
def liveEntries (es : List (Nat × Nat × Nat)) : List Nat :=
  match es with
  | [] => []
  | e :: rest => if e.2.2 = 1 ∧ !rest.any (fun g => g.2.1 == e.2.1) then e.1 :: liveEntries rest else liveEntries rest

/-- The hidden table of a side window: each label with its latest sequence number (R468). -/
def latestOf (es : List (Nat × Nat × Nat)) : List (Nat × Nat) :=
  es.foldl (fun l e => l.filter (fun x => x.1 != e.2.1) ++ [(e.2.1, e.1)]) []

/-- Read an index's side list (R465, R466). -/
def readSide (s : State) (k : Kernel) (x : KIdx) (merged side : Nat) (ext : Ext) : Start KIdx :=
  (kBytes s k side 64 ext).start side fun h s =>
    let len := blankBits h 0 64
    let cap := blankBits h 64 32
    let pitch := blankBits h 96 32
    if len < merged ∨ cap < len - merged ∨ regFld s 0x70 33 17 < len - merged ∨ cap = 0 ∨ 2 ^ 24 < cap ∨ pitch % 64 ≠ 0
        ∨ pitch < 64 + (rowBytes x.fmt x.dim).getD 0 ∨ blankBits h 128 384 ≠ 0 then .fault 39 side s
    else
      let x := { x with side := side, cap := cap, spitch := pitch }
      match sideEntries s k x ext (len - merged) merged with
      | .ok es s => .ok { x with hidden := latestOf es, live := liveEntries es } s
      | .fault c a s => .fault c a s
      | .wait s => .wait s

/-- Read the indices of pairs of region slot and side list slot. -/
def readIdxs (s : State) (k : Kernel) (ext : Ext) (slots : List (Nat × Nat)) : Start Kernel :=
  match slots with
  | [] => .ok k s
  | (t, sd) :: rest =>
    match k.slots.find? (fun x => x.slot == t) with
    | none => .fault 37 0 s
    | some x =>
      if x.ctrl / 16 ≠ ownCtrl s / 16 then .fault 37 x.base s
      else (kBytes s k x.base 128 ext).start x.base fun n s =>
        match indexOf n x.base with
        | none => .fault 37 x.base s
        | some (ix, merged) =>
          if sd = 0xFF then readIdxs s { k with idxs := k.idxs ++ [ix] } ext rest
          else match k.slots.find? (fun y => y.slot == sd) with
            | none => .fault 39 0 s
            | some y =>
              match readSide s k ix merged y.base ext with
              | .ok ix s => readIdxs s { k with idxs := k.idxs ++ [ix] } ext rest
              | .fault c a s => .fault c a s
              | .wait s => .wait s

/-- The table slots and the index slots of a plan. -/
def tabSlots (s : State) (p : Nat) : List Nat :=
  let (n, o) := planSect s p 10 0
  if n = 0 then [] else (List.range (planN s p (o + 2) 2)).map (fun i => planN s p (o + 16 * (i + 1)) 1)
def idxSlots (s : State) (p : Nat) : List (Nat × Nat) :=
  let (n, o) := planSect s p 9 0
  if n = 0 then [] else (List.range (planN s p (o + 2) 1)).map (fun i =>
    (planN s p (o + 16 * (i + 1)) 1, planN s p (o + 16 * (i + 1) + 1) 1))

/-- Work frames of a kernel's gather contexts (R438), and of its kites and their side lists (R456). -/
def ctxFrames (s : State) (p : Nat) : Nat :=
  let (_, g) := planSect s p 10 0
  if planCtxs s p = 0 then 0 else planCtxs s p * cdiv (planN s p (g + 4) 4 * planN s p (g + 10) 2 - 512 * 1024) 65536
def kiteFrames (s : State) (p : Nat) : Nat :=
  let (_, w) := planSect s p 9 0
  if planKites s p = 0 then 0 else planKites s p * cdiv (8 * planN s p (w + 4) 4) 65536
    + 40 * ((idxSlots s p).filter (fun e => e.2 != 0xFF)).length

/-! Handles (R344, R345, R367). -/

/-- A counter table entry of a loaded plan. -/
def planCounter (s : State) (p j : Nat) : Nat × Nat × Nat × Nat × Nat := cCounter s (planKey p) j

/-- The handle that entry `j` gives rank `r` on Lathe `l`. -/
def handleFor (s : State) (k : Kernel) (r l j : Nat) : Option Handle :=
  let (kind, _, pm, off, size) := planCounter s k.plan j
  if kind = 1 then
    some ⟨globalAddr s (ctrOff (k.ctrBase + 16 * r + j)), if size = 0 then none else some (globalAddr s (chuckOff l off), size)⟩
  else if kind = 2 then some ⟨k.param pm, if size = 0 then none else some (k.param (pm + 1), size)⟩
  else none

/-- Every handle of a kernel: by 16 * rank + j for its Lathes, and from 65,536 on for its other engines. -/
def handlesOf (s : State) (k : Kernel) : List (Nat × Handle) :=
  ((List.range k.lathes.length).zip k.lathes).flatMap (fun rl => (List.range 16).filterMap (fun j =>
    (handleFor s k rl.1 rl.2 j).map (fun h => (16 * rl.1 + j, h))))
  ++ (List.range 16).filterMap (fun j =>
    if (planCounter s k.plan j).1 = 2 then (handleFor s k 0 0 j).map (fun h => (65536 + j, h)) else none)

/-- Does a range of an area meet one already bound, or its counter have another area bound (R367)? The same area of the same counter is
no clash. -/
def areaClash (s : State) (off size n : Nat) : Bool :=
  (sameArea s off size n).isNone && (overlapsArea s off size || s.areas.any (fun x => x.counter == n))

/-- Bind a handle's area for the kernel's run, unless it is bound already (R367): on this controller, or by a message to the one that
holds it. None when it clashes with a binding. -/
def bindArea (s : State) (w : Nat) (h : Handle) : Option State :=
  match h.area with
  | none => some s
  | some (ga, size) =>
    match route s ga, route s h.ctr with
    | .own off, .own c =>
      (match target c with
       | .counters n =>
         if areaClash s off size n then none
         else if (sameArea s off size n).isSome then some s
         else some { s with areas := s.areas ++ [⟨off, size / 64, n, [], false, some w⟩] }
       | _ => some s)
    | .own _, _ => some s
    | .fault, _ => some s
    | _, _ => some (tellFar s (ga / 2 ^ 50 % 1024) ga [0x57, w, h.ctr, size])

/-- Bind handles in turn. -/
def bindAreas (s : State) (w : Nat) (hs : List Handle) : Option State :=
  match hs with
  | [] => some s
  | h :: rest =>
    match bindArea s w h with
    | some t => bindAreas t w rest
    | none => none

/-- Arm the areas marked ARM_AT_START. -/
def armAtStart (s : State) (k : Kernel) : State :=
  forEach k.handles s (fun s h =>
    let j := if h.1 < 65536 then h.1 % 16 else h.1 - 65536
    if (planCounter s k.plan j).2.1 = 1 then armHandle s h.2 else s)

/-! The start point. -/

/-- Zero a Chuck except its replica stripes (R651), and unbind what ARM had bound there (R345). Its scratch granules stay valid until the
kernel's start point (R186, R188). -/
def prepareChuck (s : State) (dom l : Nat) : State :=
  let lo := chuckOff l 0
  let s := if regFld s (rLathe l 0) 47 40 = dom then s
    else { s with mem := s.mem.filter (fun c =>
      !(decide (lo ≤ c.1) && decide (c.1 < lo + 6 * 2 ^ 20)) || (replicaAt s l (c.1 - lo)).isSome) }
  { s with
    areas := s.areas.filter (fun a => a.kernel.isSome || !(decide (lo ≤ a.base) && decide (a.base < lo + 6 * 2 ^ 20))) }

/-- Start rank `r` on Lathe `l` (R264). -/
def startLathe (s : State) (k : Kernel) (wdog r l : Nat) : State :=
  let image := planN s k.plan ((planSect s k.plan 3 0).2 + r) 1
  let s := putLathe s l { win := k.win, rank := r, image := image, ncode := (planSect s k.plan 1 image).1,
                          owedReset := (latheAt s l).owedReset, owedBy := (latheAt s l).owedBy }
  let s := regSet (regSet (regSet s (rLathe l 0x18) 0) (rLathe l 0x20) 0) (rLathe l 0x28) (BitVec.ofNat 64 wdog)
  let s := regSet (regSet s (rLathe l 8) 0) (rLathe l 0x10) 0
  setLatheState (regPut (regPut s (rLathe l 0) 57 48 k.win) (rLathe l 0) 47 40 k.dom) l 2

/-- The watchdog of a context or kite in walker cycles (R448): ⌈B × margin × the walker clock ÷ 2.4 GHz⌉. -/
def engWdog (s : State) (k : Kernel) : Nat := cdiv (budget s k * wdogMargin s * regFld s 0x68 47 32) (16 * 2400)

/-- Start rank `r` on gather context or kite `n`; the injections of KIND 5 and KIND 2 meet the next one to start. -/
def startEngine (e : EngKind) (s : State) (k : Kernel) (ninsn inj r n : Nat) : State :=
  let (stop, s) := match takeInj s inj 5 (fun _ => true) with
    | some (_, t) => (true, t)
    | none => (false, s)
  let s := e.put s n { win := k.win, rank := r, ninsn := ninsn, stopped := stop, dog := engWdog s k }
  regSet s (e.stat n) (BitVec.ofNat 64 (k.win * 2 ^ 48 + k.dom * 2 ^ 40 + e.run))

/-- Fire the watchdog of a context or kite that KIND 2 names. -/
def startWatchdog (e : EngKind) (s : State) (inj n : Nat) : State :=
  match takeInj s inj 2 (fun _ => true) with
  | some (_, t) => e.fault t n 16 0
  | none => s

/-- Give the fault of a kernel's start to one of its engines: to a kite when it is about indices or the kites' work frames, else to a
gather context. -/
def startFault (s : State) (k : Kernel) (kite : Bool) (code addr : Nat) : State :=
  match k.ctxs, k.kites, k.lathes with
  | n :: _, [], _ => ctxFault s n code addr
  | n :: _, m :: _, _ => if kite then kiteFault s m code addr else ctxFault s n code addr
  | [], m :: _, _ => kiteFault s m code addr
  | [], [], l :: _ => latheFault s l code 0 addr
  | [], [], [] => s

/-- Step 2 of a kernel's start sequence (R372): its Lathes enter LOADING with their Chucks prepared, its handles are bound and the areas
marked ARM_AT_START are armed (R344, R345). None when an area clashes with one that is bound (R367). -/
def loadKernel (s : State) (k : Kernel) : Option (Kernel × State) :=
  let s := forEach k.lathes s (fun s l =>
    prepareChuck (setLatheState (putLathe s l { win := k.win, owedReset := (latheAt s l).owedReset, owedBy := (latheAt s l).owedBy }) l 1) k.dom l)
  let k := { k with handles := handlesOf s k, loaded := true }
  let hs := (k.handles.map (fun h => h.2)).dedup
  let far := (hs.filterMap (fun h => h.area.map (fun a => a.1 / 2 ^ 50))).filter (fun c => c != ownCtrl s)
  match bindAreas s k.win hs with
  | none => none
  | some s =>
    let k := { k with asked := (k.asked ++ far).dedup }
    some (k, armAtStart (putKernel s k) k)

/-- Start the engines of a kernel and pass its start point, which clears the valid bits of its Lathes' scratch granules (R186). A replay (R613) neither arms areas nor zeroes Chucks, and keeps
its areas. -/
def launch (s : State) (k : Kernel) (replay : Bool) : State :=
  let b := budget s k
  let m := wdogMargin s
  let wdog := min (2 ^ 48 - 1) (cdiv (b * m) 16)
  let s := { s with granules := s.granules.filter (fun g => !k.lathes.contains (g / 128)) }
  let k := { k with handles := handlesOf s k, started := true, done := [], fault := none, fired := [], hspool := [], kiteWork := [] }
  let s := { s with
    kernels := s.kernels.filter (fun x => x.win != k.win) ++ [k]
    kstamps := Sparse.set s.kstamps k.win 0 s.reelStamp }
  let s := forEach ((List.range k.lathes.length).zip k.lathes) s (fun s rl => startLathe s k wdog rl.1 rl.2)
  let gi := planN s k.plan ((planSect s k.plan 10 0).2 + 8) 2
  let wi := planN s k.plan ((planSect s k.plan 9 0).2 + 8) 2
  let s := forEach ((List.range k.ctxs.length).zip k.ctxs) s (fun s rn => startEngine gougeKind s k gi (rGouge (rn.2 / 8) 0x10) rn.1 rn.2)
  let s := forEach ((List.range k.kites.length).zip k.kites) s (fun s rn => startEngine kiteKind s k wi (rWalker (rn.2 / 128) 0x10) rn.1 rn.2)
  let s := forEach ((List.range k.lathes.length).zip k.lathes) s (fun s rl => tagLoad s rl.2 rl.1)
  let s := forEach ((List.range k.kites.length).zip k.kites) s (fun s rn => tagLoad s (128 + rn.2) rn.1)
  let s := pmc s 206 (if replay then 3 else 0) 1 (some k.dom)
  let s := moveWindow s k.win 5
  let s := forEach k.ctxs s (fun s n => startWatchdog gougeKind s (rGouge (n / 8) 0x10) n)
  forEach k.kites s (fun s n => startWatchdog kiteKind s (rWalker (n / 128) 0x10) n)

end Sys2Proof.Machine
end

