-- ==== Sys2Proof/Machine/Kernel.lean ====
section
/-! DEFINITION. Machine/Kernel.lean: plans are loaded, and kernels run, start and commit (R163 to R172, R349 to R353, R368 to
R374). -/

namespace Sys2Proof.Machine

/-! Loading a plan. -/

/-- A reader for the loader: the window's domain and no bindings. -/
def loader (w dom : Nat) : Kernel :=
  { win := w, plan := 0, dom := dom, params := [], binds := [], slots := [], ctrBase := 0, baseRow := 0, baseCol := 0,
    started := false, lathes := [], ctxs := [], kites := [], pins := [], outs := [], handles := [], done := [], fault := none,
    frozen := false, fired := [], hspool := [], replays := 0, suspect := false, guilty := false, tabs := [], idxs := [],
    work := 0, units := [], told := false, prep := false }

/-- Refuse a plan with the offending item (R351). -/
def refuseAt (s : State) (w reason addr : Nat) : State :=
  complete (countRefusal s w) w { status := 2, detail := reason, addr := addr }

/-- The space of the copy that window `w`'s PLAN_LOAD checks. -/
def stageKey (w : Nat) : Nat := spKey (spPlan (256 + w)) 0

/-- PLAN_LOAD (R350): the container is copied into frames of the window's domain; a size that no plan has is found by the checks of the
copy (R351). -/
def doPlanLoad (w : Fin 1024) (ext : List FarLine) (s : State) : State :=
  let w := w.val
  if !serving s w 2 || s.planLoads.any (fun p => p.1 == w) then s
  else
    let src := hdr s w 36 8
    let size := hdr s w 44 8
    let dom := winDom s w
    let n := (size + 65535) / 65536
    if 2 ^ 60 ≤ src then refuse (addrFault s src dom) w 4
    else match allocFrames s dom n with
    | .quota => complete s w { status := 6 }
    | .capacity => complete s w { status := 7 }
    | .ok _ =>
      match kBytes s (loader w dom) src size ext with
      | .wait s => s
      | .fault c s => if c = 10 then complete (readDone s w) w { status := 9 }
        else refuse (if c = 4 then addrFault (readDone s w) src dom else readDone s w) w 4
      | .ok v s =>
        match allocFrames (readDone s w) dom n with
        | .quota => complete (readDone s w) w { status := 6 }
        | .capacity => complete (readDone s w) w { status := 7 }
        | .ok s => { (s.writeN (stageKey w) size v) with planLoads := s.planLoads ++ [(w, size, n)] }

/-- PLAN_LOAD_DONE (R351, R352): the loader's checks end, and the plan takes the lowest free handle. -/
def doPlanLoadDone (w : Fin 1024) (s : State) : State :=
  whenRunning s fun s =>
    let w := w.val
    match s.planLoads.find? (fun p => p.1 == w) with
    | none => s
    | some (_, size, n) =>
      let b := stageKey w
      let dom := winDom s w
      let (inj, s) := match takeInj s rLdrInj 1 (fun _ => true) with
        | some (_, t) => (true, t)
        | none => (false, s)
      let drop := fun (s : State) => releaseFrames { (zeroMem s b (n * 65536)) with
        planLoads := s.planLoads.filter (fun p => p.1 != w) } dom n
      match planCheck s b size inj with
      | some (reason, addr) => refuseAt (drop s) w reason addr
      | none =>
        match (List.range 256).find? (fun p => reg s (rPlanStat p) == 0) with
        | none => complete (drop s) w { status := 7 }
        | some p =>
          let stat := 2 ^ 63 + dom * 2 ^ 55 + cN s b 24 1 * 2 ^ 51 + cN s b 25 1 * 2 ^ 46 + cN s b 29 1 * 2 ^ 38 + n * 2 ^ 14
          let digest := BitVec.ofNat 512 (cN s b 64 64)
          let budget := cN s b 32 6
          let s := zeroMem (copyMem s b (planKey p) (n * 65536)) b (n * 65536)
          let s := { s with
            planLoads := s.planLoads.filter (fun q => q.1 != w)
            planDigests := s.planDigests.filter (fun e => e.1 != p) ++ [(p, digest)] }
          let s := regSet (regSet s (rPlanStat p) (BitVec.ofNat 64 stat)) (rPlanBudget p) (BitVec.ofNat 64 budget)
          complete (pmc s 206 6 1 (some dom)) w { status := 0, v0 := p }

/-! RUN (R368). -/

/-- A region slot that a plan declares: its number, its role and its least size in 2 MiB units. -/
def planSlots (s : State) (p : Nat) : List (Nat × Nat × Nat) :=
  let (n, o) := planSect s p 5 0
  (List.range n).map (fun i => (planN s p (o + 16 * i) 1, planN s p (o + 16 * i + 1) 1, planN s p (o + 16 * i + 4) 4))

/-- What a binding turns out to be: the slot with its region's facts, when it has a region that meets the plan, and a refusal reason. A
binding of a draft that is not OPEN has both. -/
def bindSlot (s : State) (dom : Nat) (far : List FarRegion) (slot role min2m bind : Nat) : Option KSlot × Option Nat :=
  let ctrl := bits bind 23 14
  let r := bits bind 13 0
  let draft : Option Nat := if bind.testBit 34 then some (bits bind 33 24) else none
  let role3 : Bool := role == 3
  if !bind.testBit 63 then (none, some 14)
  else if ctrl = ownCtrl s then
    if !rgValid s r then (none, some 14)
    else if !permitRegion s dom r role3 then (none, some 4)
    else if rgDeleting s r ∨ rgSize s r < min2m * 2 ^ 21 ∨ (isTether s r ∧ role3) ∨
        (if role = 1 then !rgVersioned s r || draft.isSome
         else if role = 2 then rgVersioned s r || draft.isSome
         else draft.isNone && rgVersioned s r) then (none, some 14)
    else match draft with
      | none => (some ⟨slot, role, ctrl, r, none, globalAddr s (rgBase s r), rgSize s r, rgVersioned s r, none⟩, none)
      | some d =>
        (some ⟨slot, role, ctrl, r, some d, globalAddr s (2 ^ 48 + d * 2 ^ 38), rgSize s r, false, none⟩,
          if drState s d ≠ 1 ∨ drRegion s d ≠ r then some 18 else none)
  else match far.find? (fun f => f.slot.toNat == slot) with
    | none => (none, some 14)
    | some f =>
      if !f.valid then (none, some 14)
      else if !f.granted then (none, some 4)
      else if f.size2m.toNat < min2m ∨
          (if role = 1 then !f.versioned || draft.isSome
           else if role = 2 then f.versioned || draft.isSome
           else draft.isNone && f.versioned) then (none, some 14)
      else
        (some ⟨slot, role, ctrl, r, draft, f.base.toNat, f.size2m.toNat * 2 ^ 21, f.versioned && draft.isNone, none⟩,
          if draft.isSome ∧ !f.draftOpen then some 18 else none)

/-- Is the binding of a slot that the plan does not declare one of a region that the domain has no grant to (R368)? -/
def bindBarred (s : State) (dom : Nat) (far : List FarRegion) (slot bind : Nat) : Bool :=
  let r := bits bind 13 0
  bind.testBit 63 &&
    (if bits bind 23 14 = ownCtrl s then rgValid s r && !permitRegion s dom r false
     else far.any (fun f => f.slot.toNat == slot && f.valid && !f.granted))

/-- The reason among several failed bindings: GRANT before REGION, for which an output range that does not fit its region counts too,
before DRAFT. -/
def bindReason (rs : List Nat) (fits : Bool) : Option Nat :=
  if rs.contains 4 then some 4 else if rs.contains 14 || !fits then some 14 else if rs.contains 18 then some 18 else none

/-- The output ranges of a plan as global units (R346), none when one does not fit its slot. -/
def planOuts (s : State) (p : Nat) (k : Kernel) : Option (List (Nat × Nat)) :=
  let (n, o) := planSect s p 6 0
  (List.range n).foldl (fun acc i =>
    match acc with
    | none => none
    | some l =>
      let f := fun a w => planN s p (o + 16 * i + a) w
      let off := k.param (f 1 1)
      let len := if f 2 1 = 0xFF then f 8 8 else k.param (f 2 1)
      match k.slots.find? (fun x => x.slot == f 0 1) with
      | none => none
      | some x =>
        if off % 65536 ≠ 0 ∨ len % 65536 ≠ 0 ∨ x.size < off + len then none
        else if len = 0 then some l
        else some (l ++ [((x.base + off) / 65536, (x.base + off + len) / 65536 - 1)])) (some [])

/-- Is an offset of a slice in a command window? The area of a window is bound to the window's own counter (R358). -/
def isWindow (off : Nat) : Bool :=
  match target off with
  | .window _ _ => true
  | _ => false

/-- The same of a counter at offset `off` of another controller's slice: `x` is the area's offset when it lies on that controller. -/
def farReason (off a size : Nat) (x : Option Nat) : Option Nat :=
  match target off with
  | .counters n =>
    if isWinCtr n then some 4
    else if size = 0 then none
    else match x with
      | some o => if areaShape a o size && counterPlace o && !isWindow o then none else some 13
      | none => some 13
  | _ => some 13

/-- Do the areas of two PARAM counter entries clash: another area of one counter, or a line of two counters (R367)? -/
def paramClash (s : State) (k : Kernel) (i j : Nat) : Bool :=
  let (ki, _, pi, _, si) := planCounter s k.plan i
  let (kj, _, pj, _, sj) := planCounter s k.plan j
  let (ci, ai) := (k.param pi, k.param (pi + 1))
  let (cj, aj) := (k.param pj, k.param (pj + 1))
  ki == 2 && kj == 2 && si != 0 && sj != 0 && !(ci == cj && ai == aj && si == sj)
    && (ci == cj || (decide (ai < aj + sj) && decide (aj < ai + si)))

/-- Does a PARAM counter entry meet R344, R358 and R367? The reason it does not; `refused` says that the counter's controller, another
one, refuses it. -/
def paramReason (s : State) (k : Kernel) (refused : BitVec 16) (j : Nat) : Option Nat :=
  let (kind, _, pm, _, size) := planCounter s k.plan j
  if kind ≠ 2 then none
  else if (List.range j).any (fun i => paramClash s k i j) then some 13
  else
    let c := k.param pm
    let a := k.param (pm + 1)
    let bad : Option Nat := some 13
    if c % 8 ≠ 0 ∨ 2 ^ 60 ≤ c then bad
    else match route s c with
      | .fault => bad
      | .own off =>
        (match target off with
         | .counters n =>
           if isWinCtr n then some 4
           else if size = 0 then none
           else match armRange s a size with
             | none => bad
             | some aoff =>
               if (sameArea s aoff size n).isSome then none
               else if overlapsArea s aoff size || s.areas.any (fun x => x.counter == n) then bad else none
         | _ => bad)
      | .peer slot off =>
        if refused.getLsbD j then bad else
        farReason off a size (match route s a with
          | .peer slot' x => if slot = slot' then some x else none
          | _ => none)
      | .gateway q off =>
        if refused.getLsbD j then bad else
        farReason off a size (match route s a with
          | .gateway q' x => if q = q' then some x else none
          | _ => none)

/-- The checks of R368: the refusal reason, or the kernel that the RUN binds. -/
def runCheck (s : State) (w : Nat) (far : FarAnswer) : Nat ⊕ Kernel :=
  let dom := winDom s w
  let p := hdr s w 36 2
  let nreg := hdr s w 38 1
  let npar := hdr s w 39 1
  let base := hdr s w 44 4
  if 256 ≤ p ∨ !regBit s (rPlanStat p) 63 then .inl 5
  else
    let params := (List.range npar).map (fun i => BitVec.ofNat 64 (hdr s w (64 * (1 + (nreg + 7) / 8) + 8 * i) 8))
    let binds := (List.range nreg).map (fun i => BitVec.ofNat 64 (hdr s w (64 + 8 * i) 8))
    let ranks := planRanks s p
    let res := (planSlots s p).map (fun t => bindSlot s dom far.regions t.1 t.2.1 t.2.2 ((binds[t.1]?).getD 0).toNat)
    let extra := (List.range nreg).any (fun i => !(planSlots s p).any (fun t => t.1 == i) &&
      bindBarred s dom far.regions i ((binds[i]?).getD 0).toNat)
    let bad := (if extra then [4] else []) ++ res.filterMap (fun x => x.2)
    let k := { loader w dom with
      plan := p, params := params, binds := binds, ctrBase := base, baseRow := hdr s w 40 1, baseCol := hdr s w 41 1
      slots := res.filterMap (fun x => x.1), digest := planDigest s p }
    let outs := planOuts s p k
    let block := (List.range (16 * ranks)).map (fun i => base + i)
    if !permitPlan s dom p then .inl 4
    else if block.any (fun c => decide (c < 262144) && !permitCounter s dom c true) then .inl 4
    else match bindReason (if nreg < planN s p 28 1 then 14 :: bad else bad) outs.isSome with
      | some r => .inl r
      | none =>
        if ranks ≠ 0 ∧ (placeRect s false (planRows s p) (planCols s p) k.baseRow k.baseCol).isNone then .inl 16
        else if 262144 < base + 16 * ranks ∨ block.any isWinCtr then .inl 13
        else match (List.range 16).findSome? (fun j => paramReason s k far.refused j) with
          | some r => .inl r
          | none => .inr { k with outs := outs.getD [] }

/-- RUN: a ready RUN is checked once and goes to WAITING or into its queue. `far` holds what other controllers answer about
the bindings. WIN_STAT_w.PLAN shows the plan that the last RUN named, also a refused one (R380). -/
def doRun (w : Fin 1024) (far : FarAnswer) (s : State) : State :=
  whenRunning s fun s =>
    let w := w.val
    if winState s w != 1 || !(winOf s w).ready || hdr s w 2 1 != 1 || (kernelOf s w).isSome then s
    else
      let s := regPut s (rWinStat w) 20 13 (hdr s w 36 2 % 256)
      match runCheck s w far with
      | .inl r => refuse s w r
      | .inr k =>
        let s := { s with kernels := s.kernels ++ [k] }
        if hdr s w 8 8 ≠ 0 then pollAfter (setWinState s w 2) w else proceed s w

/-! The start sequence (R370, R372). -/

/-- Do two sets of output ranges share a unit (R169)? -/
def outsMeet (a b : List (Nat × Nat)) : Bool := a.any (fun x => b.any (fun y => decide (x.1 ≤ y.2) && decide (y.1 ≤ x.2)))

/-- A suspect whose replay has not ended waits to be replayed (R611): replays go ahead of both queues (R612). -/
def replayDue (s : State) : Bool := s.kernels.any (fun k => k.suspect && !k.guilty && k.fault.isSome)

/-- The pins of a kernel's PINNED slots at its snapshot (R85, R190, R191), and the versions of other controllers. -/
def snapshot (s : State) (k : Kernel) (far : List FarRegion) : Kernel :=
  { k with
    pins := (k.slots.filter (fun x => x.role == 1 && x.ctrl == ownCtrl s)).map (fun x => (x.region, rgCurrent s x.region))
    slots := k.slots.map (fun x => if x.role = 1 ∧ x.ctrl ≠ ownCtrl s then
      { x with ver := (far.find? (fun f => f.slot.toNat == x.slot)).map (fun f => f.current.toNat) } else x) }

/-- The address that schedule entry `i` of plan `p` reads for field `a`, `n` bytes. -/
def schedN (s : State) (p i a n : Nat) : Nat := planN s p ((planSect s p 8 0).2 + 16 * i + a) n

/-- Prefetch the unit or reel at a global address of slot `x` (R348). A unit of a TIERED or STREAM region is named until the kernel ends,
so that the tier cache keeps it, and fetched when it is not there; a remote reel is staged, at once or, when no slot can be had, before
the kernel commits (R349). -/
def prefetchUnit (s : State) (w : Nat) (x : KSlot) (ga : Nat) : State :=
  match kernelOf s w with
  | none => s
  | some k =>
    match route s ga with
    | .gateway _ _ =>
      (match gwKernelRead s w x.tag ga with
       | .wait t => putKernel t { k with reelsDue := k.reelsDue ++ [(x.tag, ga)] }
       | _ => s)
    | .own goff =>
      let key := match k.pins.find? (fun q => q.1 == x.region) with
        | some q => spKey (spVersion x.region q.2) (goff - rgBase s x.region)
        | none => (backing s goff).getD goff
      let s := if key < 2 ^ 50 then s else { s with nameds := s.nameds ++ [(w, cacheUnit s x.region key)] }
      (match missAt s x.region key with
       | some u => fetchUnit (putKernel s { k with units := Sparse.add k.units u }) u goff (some k.dom)
       | none => s)
    | _ => s

/-- Fire schedule entry `i` (R347, R348): a descriptor enters its home-side spool, or a range is fetched. -/
def fireEntry (s : State) (w i : Nat) : State :=
  match kernelOf s w with
  | none => s
  | some k =>
    let f := schedN s k.plan i
    let pm := fun a => if f a 1 = 0xFF then (0 : Word) else BitVec.ofNat 64 (k.param (f a 1))
    let k := { k with fired := k.fired ++ [i] }
    if f 0 1 = 1 then
      (match planDesc s k.plan 7 0 (f 6 2) with
       | none => putKernel s k
       | some ws =>
         let ws := addOffsets ws (pm 12) (pm 13)
         let d := Desc.ofWords ws
         let s := putKernel { s with fireNo := s.fireNo + 1 } { k with hspool := k.hspool ++ [⟨f 1 1, ws, i, {}, s.fireNo + 1⟩] }
         if d.op = 2 then s else nameUnits s k d.src d.srcBytes)
    else match k.slots.find? (fun x => x.slot == f 6 2) with
      | none => putKernel s k
      | some x =>
        let off := (pm 12).toNat
        let n := (pm 13).toNat
        let lines := (List.range (cdiv (off % 65536 + n) 65536)).map (fun j => x.base + off / 65536 * 65536 + j * 65536)
        forEach lines (putKernel s k) (fun s ga => prefetchUnit s w x ga)

/-- Fire the entries that the start point triggers. -/
def fireAtStart (s : State) (k : Kernel) : State :=
  forEach ((List.range (planSect s k.plan 8 0).1).filter (fun i => schedN s k.plan i 2 1 == 0xFF)) s
    (fun s i => fireEntry s k.win i)

/-- Read the tables of a kernel and pin what they name here: every root is read before any version is pinned (R426), and a publish of a
region that they name which is past its compare ends first (R83). -/
def readTables (s : State) (k : Kernel) (ext : Ext) : Start Kernel :=
  match readTabs s k (planN s k.plan ((planSect s k.plan 10 0).2 + 10) 2) ext (tabSlots s k.plan) with
  | .ok k s =>
    let roots := (tabSlots s k.plan).map (fun t => match k.slots.find? (fun x => x.slot == t) with
      | some x => x.base
      | none => 0)
    if k.tabs.any (fun t => t.named.any (fun q => q.1 == ownCtrl s && regionDeciding s q.2.1)) then .wait s else
    (match pinTabs s k (k.tabs.zip roots) with
     | .inl k => .ok k s
     | .inr root => .fault 13 root s)
  | r => r

/-- The controllers that hold output ranges of a kernel, in ascending number (R372). -/
def outCtrls (k : Kernel) : List Nat :=
  (List.range 1024).filter (fun c => k.outs.any (fun r => r.1 * 65536 / 2 ^ 50 == c))

/-- Has controller `c` reserved the kernel's output ranges there (R372)? -/
def reservedAt (s : State) (k : Kernel) (far : List FarRegion) (c : Nat) : Bool :=
  if c = ownCtrl s then k.asked.contains c
  else k.slots.any (fun x => x.ctrl == c && far.any (fun f => f.slot.toNat == x.slot && f.reserved))

/-- The kernel whose turn it is at this controller reserves its output ranges here, unless they overlap those that a running kernel, or
one that starts, has reserved (R169, R372). -/
def ownTurn (s : State) (k : Kernel) (far : List FarRegion) : Kernel :=
  match (outCtrls k).find? (fun c => !reservedAt s k far c) with
  | none => k
  | some c =>
    if c = ownCtrl s ∧ !s.kernels.any (fun x => x.win != k.win && (x.started || x.asked.contains c) && outsMeet x.outs k.outs) then
      { k with asked := k.asked ++ [c] }
    else k

/-- Reserve a kernel's output ranges at the controllers that hold one, one controller after the other (R372): none when every one has
reserved them, else the wait for the first that has not, which is asked when it is another controller. -/
def askReserve (s : State) (k : Kernel) (far : List FarRegion) : Option State :=
  match (outCtrls k).find? (fun c => !reservedAt s k far c) with
  | none => none
  | some c =>
    if c = ownCtrl s ∨ k.asked.contains c then some s
    else some (forEach (k.outs.filter (fun r => r.1 * 65536 / 2 ^ 50 == c)) (putKernel s { k with asked := k.asked ++ [c] })
      (fun s r => tellFar s c (r.1 * 65536) [12, k.win, r.2 - r.1 + 1]))

/-- The versions that a kernel reads at other controllers of the box and that they hold until it ends (R85, R426): those of its PINNED
slots, and the pieces and bitmaps that its tables name. -/
def farPins (s : State) (k : Kernel) : List (Nat × Nat × Nat) :=
  let slots := (k.farPinned s true).filterMap (fun x => x.ver.map (fun v => (x.ctrl, x.region, v)))
  (slots ++ (k.tabs.flatMap GTab.named).filter (fun q => q.1 != ownCtrl s)).dedup

/-- Ask for the pins of kernel `k`, whose snapshot is taken and whose roots are read, at other controllers (assumption 185). The kernel
keeps both while they answer (R426). -/
def pinFar (s : State) (k : Kernel) : State :=
  let ps := farPins s k
  forEach ps (putKernel s { k with pinSent := true, asked := (k.asked ++ ps.map (fun q => q.1)).dedup })
    (fun s q => tellFar s q.1 (q.1 * 2 ^ 50) [15, k.win, q.2.1, q.2.2])

/-- Ask the deciding homes of a kernel's PINNED slots at other controllers of the box to hold commits (R191), and those of other boxes
for their CURRENT (R194). -/
def askHolds (s : State) (k : Kernel) : State :=
  let ask := fun (code : Nat) (s : State) (x : KSlot) => tellFar s x.ctrl (x.ctrl * 2 ^ 50) [code, k.win, x.region]
  forEach (k.farPinned s false) (forEach (k.farPinned s true) (putKernel s { k with holding := true }) (ask 0x59)) (ask 0x5B)

/-- Have all controllers that a kernel's snapshot asks answered, those of the box by holding their commits (R191)? -/
def heldAll (s : State) (k : Kernel) (far : List FarRegion) : Bool :=
  (k.farPinned s true).all (fun x => far.any (fun f => f.slot.toNat == x.slot && f.held))
    && (k.farPinned s false).all (fun x => far.any (fun f => f.slot.toNat == x.slot))

/-- Take a kernel's engines (R360, R370): it leaves its queue, its engines are no other kernel's, and its window is in STARTING. -/
def takeEngines (s : State) (k : Kernel) : State :=
  setWinState (putKernel { s with lathQ := Sparse.rem s.lathQ k.win, engQ := Sparse.rem s.engQ k.win } k) k.win 4

/-- The clocks that a kernel's engines need (R685, R693): its Lathes and the clusters of its kites and contexts. -/
def engClocks (k : Kernel) : List Nat :=
  (k.lathes.map (unitCode 1) ++ k.kites.map (fun n => unitCode 2 (n / 1024)) ++ k.ctxs.map (fun n => unitCode 2 (n / 32))).dedup

/-- The start point of a kernel whose snapshot is taken and whose roots are read (R264, R372): the holds end, its engines start, and the
schedule entries of the start point fire. `bad` is a fault of the start, which aborts it there: whether it is a kite's, its code and its address. -/
def passStart (s : State) (k : Kernel) (bad : Option (Bool × Nat × Nat)) : State :=
  let s := launch (if k.holding then releaseHolds s k else s) { k with holding := false } false
  match kernelOf s k.win, bad with
  | some k, some (kite, c, a) => startFault s k kite c a
  | some k, none => fireAtStart s k
  | none, _ => s

/-- The fault of a kernel that another controller refuses a pin (R427, R482): whether it is a kite's, its code and its address. A version that a
table names, or of a table's root, is a gather context's, at the root; one of an index's root is a kite's. -/
def stalePin (s : State) (k : Kernel) (q : BitVec 10 × BitVec 14) : Bool × Nat × Nat :=
  let names := fun (c r : Nat) => c == q.1.toNat && r == q.2.toNat
  let slots := tabSlots s k.plan
  let base := fun (t : Nat) => ((k.slots.find? (fun x => x.slot == t)).map (fun x => x.base)).getD 0
  let slotIs := fun (t : Nat) => k.slots.any (fun x => x.slot == t && names x.ctrl x.region)
  match (slots.zip k.tabs).find? (fun e => slotIs e.1 || e.2.named.any (fun n => names n.1 n.2.1)) with
  | some e => (false, 13, base e.1)
  | none => match ((idxSlots s k.plan).flatMap (fun e => [e.1, e.2])).find? slotIs with
    | some t => (true, 13, base t)
    | none => (false, 13, ((k.slots.find? (fun x => names x.ctrl x.region)).map (fun x => x.base)).getD 0)

/-- The first of a list of addresses at other controllers that no port reaches: a request there is answered Err FLUSHED (R518, R533). -/
def farDown (s : State) (as : List Nat) : Option Nat :=
  as.find? (fun a => a / 2 ^ 50 % 1024 != ownCtrl s && !(farUp s (a / 2 ^ 50 % 1024) a).1)

/-- What a kernel's start sequence asks of other controllers: reservations of its output ranges, the areas of its handles, and the
snapshot of its PINNED slots. -/
def startAsks (s : State) (k : Kernel) : List Nat :=
  (outCtrls k).map (fun c => c * 2 ^ 50) ++ (handlesOf s k).filterMap (fun h => h.2.area.map (fun a => a.1))
    ++ (k.farPinned s true ++ k.farPinned s false).map (fun x => x.base)

/-- Step 3 of a kernel's start sequence (R191, R372): its snapshot, the roots that it reads and the pins that they name. It waits for a
publish of a region that it pins that is past its compare (R83), for what other controllers answer, for a CHUCK replica that is stale
(R90), or for bytes of a table or an index. -/
def reachSnapshot (s : State) (k0 : Kernel) (far : FarAnswer) (ext : List FarLine) : State :=
  if k0.pinSent then
    match far.pins with
    | none => s
    | some ok =>
      let k := { k0 with bases := far.bases.map (fun b => (b.1.toNat, b.2.1.toNat, b.2.2.toNat)) }
      passStart s k (if ok then none else some (stalePin s k far.stale))
  else if k0.slots.any (fun x => x.role == 1 && x.ctrl == ownCtrl s && regionDeciding s x.region) then s
  else if !heldAll s k0 far.regions then (if k0.holding then s else askHolds s k0)
  else
    let k := snapshot s k0 far.regions
    let s1 := forEach (k.pins.map (fun p => p.1)) s refreshReplica
    if k.pins.any (fun p => rgPlace s1 p.1 == 2 && Sparse.get s1.replicas p.1 0 != p.2 + 1) then s
    else match readTables s1 k ext with
      | .wait t => t
      | .fault c a t => passStart (readDone t k.win) k (some (false, c, a))
      | .ok k t =>
        match readIdxs t k ext (idxSlots t k.plan) with
        | .wait t => t
        | .fault c a t => passStart (readDone t k.win) k (some (true, c, a))
        | .ok k t =>
          let t := readDone t k.win
          if farPins t k = [] then passStart t k none
          else match farDown t ((farPins t k).map (fun q => q.1 * 2 ^ 50)) with
            | some a => passStart t k (some (false, 17, a))
            | none => pinFar t k

/-- The rest of a kernel's start sequence (R372): its reservations, its engines' clocks (R693), step 2 with the work frames (R438, R456),
and step 3. A RUN whose plan went since its check is refused with PLAN (R355), and one whose areas clash with bindings made since then
with COUNTERS (R367); one that asks a controller that no port reaches is answered Err FLUSHED, and ends with ABORTED (R518, R519). -/
def reachStart (s : State) (k : Kernel) (far : FarAnswer) (ext : List FarLine) : State :=
  if !planKept s k then refuse (endKernel (freeEngines s k) k.win) k.win 5
  else match farDown s (startAsks s k) with
  | some a => dropStart (farUp s (a / 2 ^ 50 % 1024) a).2 k.win a
  | none =>
  if k.loaded then reachSnapshot s k far ext
  else
    let k := ownTurn s k far.regions
    let s := putKernel s k
    match askReserve s k far.regions with
    | some t => t
    | none =>
      if !((engClocks k).all (fun u => s.clocked.contains u)) then forEach (engClocks k) s askStart
      else if !k.lathes.all (fun l => latheState s l == 0) then s
      else match loadKernel s k with
        | none => refuse (endKernel (freeEngines s k) k.win) k.win 13
        | some (k, t) =>
          match allocFrames t k.dom (ctxFrames t k.plan) with
          | .quota => passStart t k (some (false, 11, 0))
          | .capacity => passStart t k (some (false, 12, 0))
          | .ok t =>
            let k := { k with work := ctxFrames t k.plan }
            match allocFrames t k.dom (kiteFrames t k.plan) with
            | .quota => passStart t k (some (true, 11, 0))
            | .capacity => passStart t k (some (true, 12, 0))
            | .ok t =>
              let k := { k with work := k.work + kiteFrames t k.plan }
              reachSnapshot (putKernel t k) k far ext

/-- Is a RUN that became ready before that of window `w`, and goes into the same queue, not checked yet (R370)? -/
def uncheckedRun (s : State) (w : Nat) (k : Kernel) : Bool :=
  s.wins.any (fun e => e.2.ready && winState s e.1 == 1 && hdr s e.1 2 1 == 1 && hdr s e.1 8 8 == 0 && (kernelOf s e.1).isNone
    && readyBefore s e.1 w && (planRanks s (hdr s e.1 36 2) == 0) == (planRanks s k.plan == 0))

/-- KERNEL_START: the RUN at its queue's head takes its engines and runs its start sequence to its start point, or the start sequence
of one in STARTING goes on. It stays in the queue while engines are missing, a kernel that
runs has outputs that overlap its own, or a replay goes first. A fault of the start (R427, R424, R459, R466, R438) aborts it
at its start point. -/
def doKernelStart (w : Fin 1024) (far : FarAnswer) (ext : List FarLine) (s : State) : State :=
  whenRunning s fun s =>
    let w := w.val
    match kernelOf s w with
    | none => s
    | some k =>
      if winState s w = 4 then (if k.started then s else reachStart s k far ext)
      else if winState s w ≠ 3 then s
      else if !planKept s k then refuse (endKernel s w) w 5
      else if (s.lathQ.head? ≠ some w ∧ s.engQ.head? ≠ some w) ∨ uncheckedRun s w k ∨ replayDue s ∨ !permitPlan s k.dom k.plan
          ∨ s.kernels.any (fun x => x.started && x.win != w && outsMeet x.outs k.outs) then s
      else match placeAll s k with
        | none => s
        | some (ls, cs, ks) =>
          let k := { k with lathes := ls, ctxs := cs, kites := ks }
          reachStart (forEach (engClocks k) (takeEngines s k) askStart) k far ext

/-- The schedule entries below `i` that have not fired and whose counters, of this controller, hold their values: they fire with it, in
table order (R347). -/
def dueBelow (s : State) (k : Kernel) (i : Nat) : List Nat :=
  (List.range i).filter (fun j => !k.fired.contains j && schedN s k.plan j 2 1 != 0xFF &&
    (match handleOf k (schedN s k.plan j 4 2) (schedN s k.plan j 2 1) with
     | some h =>
       (match route s h.ctr, handleValue s k h 0 with
        | .own _, some v => decide (schedN s k.plan j 8 4 ≤ v.toNat)
        | _, _ => false)
     | none => false))

/-- SCHEDULE_FIRE (R347): the counter of an entry's handle holds its value; `far` is that of another controller's counter. -/
def doScheduleFire (w : Fin 1024) (entry : BitVec 13) (far : BitVec 64) (s : State) : State :=
  whenRunning s fun s =>
    match liveKernel s w.val with
    | none => s
    | some k =>
      let i := entry.toNat
      if (planSect s k.plan 8 0).1 ≤ i ∨ k.fired.contains i ∨ schedN s k.plan i 2 1 = 0xFF
          ∨ k.done.length = k.lathes.length + k.ctxs.length + k.kites.length then s
      else match handleOf k (schedN s k.plan i 4 2) (schedN s k.plan i 2 1) with
        | none => s
        | some h =>
          match handleValue s k h far with
          | none => s
          | some v => if schedN s k.plan i 8 4 ≤ v.toNat then forEach (dueBelow s k i ++ [i]) s (fun s j => fireEntry s k.win j) else s

/-! Commit (R166, R172). -/

/-- Put a shadow frame in place of the frame it shadows: its lines go to the home's own memory and to the mirror or parity of a
protected region, whose acknowledgements the kernel's completion waits for (R98, R104), and the charges pass on (R165). -/
def commitShadow (s : State) (x : Shadow) (dom : Nat) : State :=
  let base := x.unit * 65536
  let sk := spKey (spShadow x.win) base
  let s := { s with store := s.store.filter (fun e => e.line * 64 / 65536 != x.unit) }
  let s := if x.draft then { s with draftUnits := Sparse.add s.draftUnits x.unit } else s
  let s := forEach (List.range 1024) s (fun s i =>
      let off := base + 64 * i
      let d := s.readLine (sk + 64 * i)
      let s := if d = stackLine s off then s
        else
          let s := putStack s off d
          if covered s off then { s with covers := s.covers ++ [(off, CoverFor.kernel x.win)] } else s
      if poisoned s (sk + 64 * i) then setPoison s off else clrPoison s off)
  let s := zeroMem s sk 65536
  let s := if x.draft then
      (match draftAt s base with
       | some (d, _) => regAdd s (rDraftStat d) 23 0 1
       | none => s)
    else releaseShadow s { x with dom := dom }
  { s with shadows := s.shadows.filter (fun y => !(y.unit == x.unit && y.win == x.win)) }

/-- The completion of a committed kernel: VALUE0 is the largest LATHE_CYC_L, VALUE2 the discarded entries (R365). -/
def commitDone (s : State) (w replays cyc disc : Nat) : State :=
  complete s w { status := 0, replays := replays, v0 := cyc, v2 := disc }

/-- Stage a remote reel that a PREFETCH of the kernel of window `w` named and that no slot held so far (R349): once it is staged, or can
not be, the kernel waits for it no longer. -/
def stageReel (s : State) (w : Nat) (e : Option (Nat × Nat) × Nat) : State :=
  match gwKernelRead s w e.1 e.2 with
  | .wait t => t
  | _ =>
    match kernelOf s w with
    | some k => putKernel s { k with reelsDue := k.reelsDue.erase e }
    | none => s

/-- KERNEL_COMMIT (R166): every engine has reported done, and every schedule entry that fired has completed (R349). While the home
agents prepare, host copies of the output frames are invalidated (R172) and every access to the frames is held; at the commit
point the outputs take their places, those to other controllers go out (one that no ACTIVE port reaches is answered Err FLUSHED,
R518, R519), and the completion waits for the acknowledgements of
reels (R195), mirrors and parity (R98, R104). -/
def doKernelCommit (w : Fin 1024) (s : State) : State :=
  whenRunning s fun s =>
    let w := w.val
    match liveKernel s w with
    | none => s
    | some k =>
      if k.done.length ≠ k.lathes.length + k.ctxs.length + k.kites.length ∨ k.hspool ≠ []
          ∨ k.units.any (fun u => s.fetches.contains u) ∨ s.reels.any (fun e => e.2.st == .fetching && e.2.kwait.any (fun x => x.1 == w)) then s
      else if k.reelsDue ≠ [] then forEach k.reelsDue s (fun s e => stageReel s w e)
      else
        let mine := s.shadows.filter (fun x => x.win == w)
        match s.peerOuts.find? (fun e => e.1 == w && !peerUp s (e.2.1 / 2 ^ 50 % 1024)) with
        | some e => kernelAbort s w { code := 17, engine := 0, addr := e.2.1 }
        | none =>
        let (s, found) := unitLookups s (mine.map (fun x => x.unit))
        let lines := mine.flatMap (fun x => sharedLines s x.unit ++ heldLines s x.unit)
        if found then s
        else if lines ≠ [] then recallAll (putKernel s { k with prep := true }) lines
        else
          let cyc := k.lathes.foldl (fun m l => max m (reg s (rLathe l 0x20)).toNat) 0
          let disc := (planSect s k.plan 8 0).1 - k.fired.length
          let s := if disc = 0 then s else ldrEvent s 4 0 k.dom 0
          let s := forEach mine s (fun s x => commitShadow s x k.dom)
          let s := sendOutputs s k
          let outs := s.reels.filter (fun e => e.2.st == .output && e.2.win == some w)
          let s := forEach outs s (fun s e => sendWriteback s e.1 e.2)
          let s := walkTally (pmc (freeEngines s k) 206 1 1 (some k.dom)) k 1
          let s := if k.suspect then leaveHang s w false else s
          let s := endKernel s w
          let s := releaseHeld s w
          if outs = [] ∧ !s.covers.any (fun e => e.2 == .kernel w) then commitDone s w k.replays cyc disc
          else { (moveWindow s w 6) with cplWait := s.cplWait ++ [(w, [k.replays, cyc, disc])] }

/-- A kernel whose outputs went through the gateway or to a protected region completes once every one of its reels (R195) and covers
(R98, R104) is acknowledged. -/
def settleCpl (s : State) : State :=
  forEach s.cplWait s (fun s e =>
    if s.reels.any (fun r => r.2.win == some e.1) || s.covers.any (fun c => c.2 == .kernel e.1) then s
    else
      let s := { s with cplWait := s.cplWait.filter (fun p => p.1 != e.1) }
      match e.2 with
      | [a, b, c] => commitDone s e.1 a b c
      | _ => s)

-- EXEC
def execRun (w : Fin 1024) (far : FarAnswer) (s : State) : Host.Outcome State Fault Refusal := .next (doRun w far s)
def execPlanLoad (w : Fin 1024) (ext : List FarLine) (s : State) : Host.Outcome State Fault Refusal :=
  .next (doPlanLoad w ext s)
def execPlanLoadDone (w : Fin 1024) (s : State) : Host.Outcome State Fault Refusal := .next (doPlanLoadDone w s)
def execKernelStart (w : Fin 1024) (far : FarAnswer) (ext : List FarLine) (s : State) :
    Host.Outcome State Fault Refusal :=
  .next (doKernelStart w far ext s)
def execScheduleFire (w : Fin 1024) (entry : BitVec 13) (far : BitVec 64) (s : State) : Host.Outcome State Fault Refusal :=
  .next (doScheduleFire w entry far s)
def execKernelCommit (w : Fin 1024) (s : State) : Host.Outcome State Fault Refusal := .next (doKernelCommit w s)

end Sys2Proof.Machine
end

