-- ==== Sys2Proof/Machine/Tier.lean ====
section
/-! DEFINITION. Machine/Tier.lean: units fetched from the medium, released frames, deleted regions, and the mirror and parity
covers (R60 to R64, R98 to R104, R651, R758). -/

namespace Sys2Proof.Machine

/-- Serve the requests that the home held for a unit (R61); those whose bytes another unit holds by now wait on. -/
def serveUnit (s : State) (u : Nat) : State :=
  let mine := s.trk.filter (fun t => t.phase == .unit && (unitMiss s t.req.off == none || unitMiss s t.req.off == some u))
  let s := { s with trk := s.trk.filter (fun t => !(mine.contains t)) }
  let s := settleAll (forEach mine s (fun s t => serveFrom true s t.req t.act))
  reclaimStep { s with fetches := s.fetches.filter (fun x => x != u), fetchDoms := Sparse.del s.fetchDoms u, reading := Sparse.del s.reading u }

/-- Serve what waits for a unit that gets no frame: it is held for the engine accesses among them until they have read it (R55, R62). -/
def serveHeld (s : State) (u : Nat) : State :=
  let s := serveUnit s u
  if s.streamWait.any (fun e => e.1 == u) then { s with streamUnits := Sparse.add s.streamUnits u } else s

/-- End the wait for restoration of a range of memory (R594). -/
def restored (s : State) (lo len : Nat) : State :=
  { s with toRestore := s.toRestore.flatMap (fun p =>
      if p.1 + p.2 ≤ lo ∨ lo + len ≤ p.1 then [p]
      else [(p.1, lo - p.1), (lo + len, p.1 + p.2 - (lo + len))].filter (fun q => q.2 != 0)) }

/-- UNIT_FETCH_DONE (R55, R60 to R62): a TIERED unit goes into a frame of the tier cache, or serves the accesses that wait when none
can be had, and is held for the engine accesses among them, as a STREAM unit is that no PREFETCH has named (R348) (a fetch ends once its read was issued, R129); and a unit that awaited restoration is restored. `unit` is the unit's name. -/
def doUnitFetchDone (unit : BitVec 96) (s : State) : State :=
  whenRunning s fun s =>
    let u := unit.toNat
    if !s.fetches.contains u || !s.reading.any (fun e => e.1 == u) then s
    else if awaitsRestore s (u * 65536) then serveUnit (restored s (u * 65536) 65536) u
    else match unitRegion u with
      | none => serveUnit s u
      | some r =>
        if rgPlace s r = 3 && !s.nameds.any (fun p => p.2 == u) then serveHeld s u
        else if s.tierCache.any (fun e => e.key == u) then serveUnit s u
        else match cacheFrame s with
          | some t => serveUnit { t with tierCache := t.tierCache ++ [⟨u, true⟩] } u
          | none => serveHeld s u

/-- FRAME_ZEROED (R651): a released frame is zero and free again. -/
def doFrameZeroed (s : State) : State :=
  whenRunning s fun s =>
    if s.dirtyFrames = 0 then s else { s with dirtyFrames := s.dirtyFrames - 1, freeFrames := s.freeFrames + 1 }

/-- REGION_DELETE_FINAL (R758). -/
def doRegionDeleteFinal (region : Fin 16384) (s : State) : State :=
  whenRunning s fun s =>
    if rgValid s region.val && rgDeleting s region.val && !regionHeld s region.val then deleteRegion s region.val else s

/-- What waited for the cover of a line goes on: a kernel's completion or a write-back's Cmp when it was the last, a LINE_RESTORE's
line (R98, R104). -/
def coverFor (s : State) (off : Nat) (c : CoverFor) : State :=
  match c with
  | .kernel _ => settleCpl s
  | .reel via ctrl txn =>
    if s.covers.any (fun e => e.2 == c) then s else gwSend s via ctrl (globalAddr s (off / 65536 * 65536)) 0x26 txn 0
  | .restore =>
    cmpCheck (match s.cmpWait.findIdx? (fun x => x.lines.contains off) with
      | some i => { s with cmpWait := s.cmpWait.zipIdx.map (fun p => if p.2 = i then { p.1 with lines := p.1.lines.erase off } else p.1) }
      | none => s)

/-- What waits for the covers of a line goes on (R98, R104), once no message for it is unacknowledged. -/
def coverDone (s : State) (off : Nat) : State :=
  let off := off / 64 * 64
  if covered s off then s
  else
    let mine := s.covers.filter (fun e => e.1 == off)
    let s := forEach mine { s with covers := s.covers.filter (fun e => e.1 != off) } (fun s e => coverFor s e.1 e.2)
    match s.trk.find? (fun t => t.phase == .cover && t.req.off == off) with
    | none => s
    | some t => settleAll (sendCmp { s with trk := s.trk.erase t } t.req t.act)

/-- The oldest message of a kind, to a mirror peer (even) or a parity holder (odd), for the line at global address `a`. -/
def coverOldest (s : State) (kind a : Nat) : Option (Nat × Nat) := s.coverSent.find? (fun e => e.1 == a && e.2 % 2 == kind)

/-- A mirror peer or a parity holder acknowledges the oldest message for the line at global address `a` (R98, R104). -/
def coverAck (s : State) (kind a : Nat) : State :=
  let s := match coverOldest s kind a with
    | some e => { s with coverSent := s.coverSent.erase e }
    | none => s
  match route s a with
  | .own off => coverDone s off
  | _ => s

/-- The key of the mirror copy that this controller keeps of a line of controller `c`. -/
def mirrorKey (c off : Nat) : Nat := spKey (spMisc (16 + c)) off

/-- MIRROR_PEER_WRITE (R98): for a line of this controller, its peer has applied the write; for a line of another controller
of the box, this one is the peer, applies it to its mirror pool, and sends Cmp back on the port on which the write arrived (R489). -/
def doMirrorPeerWrite (line : FabLine) (data : LineData) (s : State) : State :=
  whenRunning s fun s =>
    let a := line.addr.toNat / 64 * 64
    match route s a with
    | .own _ => coverAck s 0 a
    | .peer slot off =>
      let c := regFld s rAddrSelf 9 4 * 16 + slot
      sendResp (s.putLine (mirrorKey c off) data) (18 + homeOf off) line.port.val c a 0x26 line.txn.toNat 0 0 false false [11] 0
    | _ => s

/-- MIRROR_PEER_LOST (R100): the regions whose mirror is controller `peer` are degraded, and what waited for it goes on; a region that
was being copied away from it keeps its new cover alone. -/
def doMirrorPeerLost (peer : BitVec 10) (s : State) : State :=
  whenRunning s fun s =>
    let p := peer.toNat
    let rs := (validRegions s).filter (fun r => rgProtect s r == 1 && rgPeer s r == p)
    let due := ((s.coverSent.filter (fun e => e.2 == 2 * p)).map (fun e => e.1)).dedup
    let s := dropOldPeer { s with
      degraded := rs.foldl Sparse.add s.degraded
      coverSent := s.coverSent.filter (fun e => e.2 != 2 * p) } p
    forEach due s (fun s a => match route s a with
      | .own off => coverDone s off
      | _ => s)

/-- The key of a line of the parity pool: pool unit `u`, line `i` of it. -/
def poolKey (u i : Nat) : Nat := spKey (spMisc 5) (u * 65536 + 64 * i)

/-- A line arrives at the next place of member `m`'s ring (R104, R178). -/
def ringLine (s : State) (m : Nat) (d : LineData) : State :=
  let pos := Sparse.get s.ringPos (2 * m + 1) 0
  let s := if pos = 0 ∧ s.areas.any (fun a => a.base == ringBase m) then armArea s (ringArea m) else s
  ringPut { s with ringPos := Sparse.ins s.ringPos (2 * m + 1) ((pos + 64) % 2 ^ 20) } m pos 0 d

/-- PARITY_FOLD_RECORD (R104): the two lines of the record arrive in the sender's ring, a header that names the pool unit and the
line, and the delta; the holder XORs the delta into its parity line and acknowledges by a line write into its ring at the
sender. -/
def doParityFoldRecord (slot : Fin 16) (unit : BitVec 32) (line : Fin 1024) (addr : BitVec 60) (delta : LineData) (s : State) : State :=
  whenRunning s fun s =>
    let k := poolKey unit.toNat line.val
    let s := ringLine s slot.val (BitVec.ofNat 512 (unit.toNat + line.val * 2 ^ 32))
    let s := ringLine s slot.val delta
    let pos := Sparse.get s.ringPos (2 * slot.val) 0
    sendReq { (s.putLine k (s.readLine k ^^^ delta)) with ringPos := Sparse.ins s.ringPos (2 * slot.val) ((pos + 64) % 2 ^ 20) }
      (18 + line.val / 64 % 8) 6 (regFld s rAddrSelf 9 4 * 16 + slot.val) (ringAddr s slot.val pos) 0 .agent [11, addr.toNat] 0 (BitVec.ofNat 512 addr.toNat)

/-- PARITY_FOLD_ACK (R104): the holder's line arrives in its ring here, and the write that waited for it ends. -/
def doParityFoldAck (addr : BitVec 60) (s : State) : State :=
  whenRunning s fun s =>
    match coverOldest s 1 addr.toNat with
    | none => s
    | some e => coverAck (ringLine s (e.2 / 2) (BitVec.ofNat 512 addr.toNat)) 1 addr.toNat

/-- PEER_COPY_DONE (R100, R756): the new cover of a region is complete, and the old one is released. A copy to a peer that was lost
meanwhile does not end. -/
def doPeerCopyDone (region : Fin 16384) (s : State) : State :=
  whenRunning s fun s =>
    match (if s.degraded.contains region.val then none else s.copying.find? (fun e => e.1 == region.val)) with
    | none => s
    | some e =>
      let s := { s with
        copying := s.copying.filter (fun x => x.1 != region.val) }
      let s := if e.2.1 = 2 then poolDrop s e.2.2.2 (fun k => regionOfKey s k == some region.val) else s
      if e.2.1 = 1 then send s (.peer e.2.2.1 (globalAddr s (rgBase s region.val)) [16] 0) else s

-- EXEC
def execUnitFetchDone (unit : BitVec 96) (s : State) : Host.Outcome State Fault Refusal := .next (doUnitFetchDone unit s)
def execFrameZeroed (s : State) : Host.Outcome State Fault Refusal := .next (doFrameZeroed s)
def execRegionDeleteFinal (region : Fin 16384) (s : State) : Host.Outcome State Fault Refusal :=
  .next (doRegionDeleteFinal region s)
def execMirrorPeerWrite (line : FabLine) (data : BitVec 512) (s : State) : Host.Outcome State Fault Refusal :=
  .next (doMirrorPeerWrite line data s)
def execMirrorPeerLost (peer : BitVec 10) (s : State) : Host.Outcome State Fault Refusal := .next (doMirrorPeerLost peer s)
def execParityFoldRecord (slot : Fin 16) (unit : BitVec 32) (line : Fin 1024) (addr : BitVec 60) (delta : BitVec 512) (s : State) :
    Host.Outcome State Fault Refusal :=
  .next (doParityFoldRecord slot unit line addr delta s)
def execParityFoldAck (addr : BitVec 60) (s : State) : Host.Outcome State Fault Refusal := .next (doParityFoldAck addr s)
def execPeerCopyDone (region : Fin 16384) (s : State) : Host.Outcome State Fault Refusal := .next (doPeerCopyDone region s)

end Sys2Proof.Machine
end

