-- ==== Sys2Proof/Machine/Medium.lean ====
section
/-! DEFINITION. Machine/Medium.lean: the medium: enumeration, the publish log and its bands, reads and the retry ladder, failed
operations, scrubbing, and parity across controllers (chapter 03). The channel engines' outcomes are operands of their
commands; the firmware's orders to them are sent as flash operations. -/

namespace Sys2Proof.Machine

/-! Enumeration and replay (R106 to R112, R129, R130, R136, R142, R155, R25). -/

/-- May a target be used (R108)? -/
def usable (t : MedTarget) : Bool := t.pageBytes.toNat == 16384 && decide (2048 ≤ t.spareBytes.toNat)

/-- A target's geometry as R107 compares it: LUNs, planes, blocks per plane, pages per block, page size. -/
def geometry (t : MedTarget) : List Nat :=
  [t.luns.toNat, t.planes.toNat, t.blocks.toNat, t.pages.toNat, t.pageBytes.toNat]

/-- The geometries of a channel's targets, none for one that is left out of service. -/
def chanGeometry (m : MedChan) : List (Option (List Nat)) := m.targets.map (fun t => if usable t then some (geometry t) else none)

/-- The geometry of quad `q` when its four channels carry targets of one geometry (R107), at the same chip enables (assumption 174). -/
def quadGeometry (chans : List MedChan) (q : Nat) : Option QuadGeo :=
  match (chans.filter (fun m => m.chan.val % 8 == q)).map chanGeometry with
  | [a, b, c, d] =>
    if a = b ∧ a = c ∧ a = d then
      (match (a.filterMap id).dedup with
       | [[l, p, n, g, _]] => some ⟨(List.range a.length).filter (fun i => (a[i]?).join.isSome), l, p * n, g⟩
       | _ => none)
    else none
  | _ => none

/-- The rates that every usable target of a channel reports (R109), in service between 800 and 3,600 MT/s (R109, R110). -/
def commonRates (m : MedChan) : List Nat :=
  match m.targets.filter usable with
  | [] => []
  | t :: rest => (t.rates.map BitVec.toNat).filter (fun r => decide (800 ≤ r) && decide (r ≤ 3600)
      && rest.all (fun u => u.rates.any (fun x => x.toNat == r)))

/-- The rate that a channel trains at (R109, R110): the highest of its common rates, or step by step the next lower one; none when
training fails at the lowest. -/
def trainRate (rates : List Nat) (trains : List (BitVec 16)) : Option Nat :=
  (rates.filter (fun r => trains.any (fun x => x.toNat == r))).foldl (fun m r => match m with
    | none => some r
    | some x => some (max x r)) none

/-- Bring up the targets of a channel (R109, R111, R112): in SDR timing mode 0 a reset, the identification and the parameter page;
then ZQ calibration and the interface at its rate. The ODT and the volume are set on a channel with several targets. -/
def bringUp (s : State) (c n rate : Nat) : State :=
  forEach (List.range n) s (fun s t =>
    let multi := decide (1 < n)
    let set := fun (a r : Nat) => (Onfi.setFeature, [t, a, Config.featureValue a r])
    orders s c ((if multi then [(.volumeSelect, [t])] else [])
      ++ [(.reset, [t]), set 1 0, (.readId, [t]), (.readParam, [t]), (.getFeature, [t, 1])]
      ++ (if multi then [set 0x58 rate, (.odtConfigure, [t])] else [])
      ++ [(.zqLong, [t]), set 0x10 rate, set 2 rate, set 1 rate]))

/-- Bring up one channel (R108 to R110). -/
def enumChan (s : State) (m : MedChan) : State :=
  let c := m.chan.val
  let rates := commonRates m
  let got := trainRate rates m.trains
  let use := m.targets.filter usable
  let luns := match use with
    | t :: _ => t.luns.toNat
    | [] => 0
  let s := bringUp s c m.targets.length (got.getD 0)
  let on := if got.isSome && !use.isEmpty then 1 else 0
  let s := regSet s (rMedCh c 0) (BitVec.ofNat 64 (got.getD 0 * 2 ^ 16 + m.targets.length % 16 * 2 ^ 12 + luns % 16 * 2 ^ 8 + on))
  let s := regPut s (rRecov 0xD8) (16 + c) (16 + c) on
  let s := if use.isEmpty || got.isSome then s else medEvent s c 2 0 0
  let s := { s with chanRates := Sparse.ins s.chanRates c rates }
  forEach ((List.range m.targets.length).zip m.targets) s (fun s e =>
    let n := e.2.luns.toNat * e.2.planes.toNat * e.2.blocks.toNat * e.2.pages.toNat * e.2.pageBytes.toNat
    if usable e.2 then { s with targetBytes := Sparse.ins s.targetBytes (4 * c + e.1) n } else s)

/-- The marked blocks and the spares of the LUNs of a channel in a quad in service, when the band table does not know them yet (R142):
SPARE_PCT percent of the good blocks of each, rounded down (assumption 215), the highest ones (assumption 172). -/
def enumSpares (s : State) (m : MedChan) : State :=
  let c := m.chan.val
  match s.quadGeo.find? (fun e => e.1 == c % 8) with
  | none => s
  | some (_, g) =>
    countSpares (forEach ((List.range m.targets.length).zip m.targets) s (fun s e =>
      if !g.targets.contains e.1 then s
      else forEach (List.range g.luns) s (fun s l =>
        let k := 32 * c + 8 * e.1 + l
        if s.spares.any (fun x => x.1 == k) then s
        else
          let bad := (e.2.bad.filter (fun x => x.1.val == l)).map (fun x => x.2.toNat)
          let good := (List.range g.blocks).filter (fun b => !bad.contains b)
          { s with
            spares := Sparse.ins s.spares k (good.drop (good.length - good.length * regFld s (rMed 0) 31 24 / 100))
            badBlocks := bad.foldl (fun x b => Sparse.add x (k * 2 ^ 20 + b)) s.badBlocks }))) c

/-- The remap table takes the marked blocks of the bands that enumeration finds for the first time (R143, R144). -/
def enumRemaps (s : State) (m : MedChan) : State :=
  let c := m.chan.val
  match s.quadGeo.find? (fun e => e.1 == c % 8) with
  | none => s
  | some (_, g) =>
    forEach ((List.range m.targets.length).zip m.targets) s (fun s e =>
      forEach e.2.bad s (fun s x =>
        let b := placeBand (c % 8 + 8 * x.1.val + 64 * e.1) + x.2.toNat
        if !g.targets.contains e.1 || s.remaps.any (fun r => r.1 == c * 2 ^ 28 + b) || (bandOf s b).gone || (bandChans b).any (fun d => reservedBlock s d b) then s
        else substitute s c b))

/-- CAP_MEDIUM.RAW_GIB for the targets in service (R25): their bytes together, in whole GiB (assumption 175). -/
def rawGib (s : State) : Nat := min ((s.targetBytes.map (fun e => e.2)).sum / 2 ^ 30) 262144

/-- MEDIUM_ENUMERATE (R106 to R112, R142, R25): the channels, the quads, the profile and the raw capacity; the replay follows. The
medium is enumerated once, at start-up. -/
def doMediumEnumerate (chans : List MedChan) (profile : BitVec 8) (peRated : BitVec 16) (s : State) : State :=
  whenRunning s fun s =>
    if medReady s || regBit s (rMed 8) 1 then s
    else
      let quads := (List.range 8).filterMap (fun q => (quadGeometry chans q).map (fun g => (q, g)))
      let s := forEach chans { s with quadGeo := quads, chanRates := [], targetBytes := [], lunTmo := [], lunOut := [] } enumChan
      let s := regPut (regPut s (rMed 0) 39 32 (quads.foldl (fun a e => a + 2 ^ e.1) 0)) (rMed 0) 15 8 profile.toNat
      let fresh := chans.filter (fun m => !s.spares.any (fun x => x.1 / 32 == m.chan.val))
      let s := forEach chans (forEach fresh (forEach fresh s enumSpares) enumRemaps) (fun s m => countSpares s m.chan.val)
      let s := regPut (degradeQuads s) (rMed 0x18) 15 0 peRated.toNat
      let s := regPut s 0x28 23 0 (rawGib s)
      regPut (countBands s) (rMed 8) 1 1 1

/-- The versions that replay keeps of a region (R129): those of its newest DECISION records, up to RETAIN + 1. -/
def replayVersions (s : State) (r retain : Nat) : List (Nat × Nat) :=
  let vs := (s.decisions.filter (fun d => d.1 == r)).map (fun d => d.2.1)
  (vs.reverse.dedup.take (retain + 1)).reverse.map (fun v => (r, v))

/-- Is the version that a unit name belongs to one whose DECISION record is on the medium (R128)? -/
def decidedName (s : State) (u : Nat) : Bool :=
  s.decisions.any (fun d => spVersion d.1 d.2.1 == u * 65536 / 2 ^ 50)

/-- Read one sentinel page of every band that holds units, when the controller has been without power (R136): a page of its header
(assumption 176). -/
def readSentinels (s : State) : State :=
  if !s.unpowered then s
  else
    let bs := (s.bands.filter (fun e => !e.2.units.isEmpty)).map (fun e => e.1)
    forEach bs { s with unpowered := false, sentinels := bs } (fun s b => readPage s (bandLoc b) 0)

/-- The versions that replay rebuilds (R129, R130): of each region whose newest region record is no deletion. -/
def replayKeeps (s : State) : List (Nat × Nat) :=
  s.regRecs.flatMap (fun e => match e.2 with
    | [] => []
    | _ => replayVersions s e.1 (bits (nth (e.2.map BitVec.toNat) 1) 34 32))

/-- The region, version and unit of a unit name. -/
def nameUnit (u : Nat) : LogUnit :=
  let sp := u * 65536 / 2 ^ 50
  { type := 1, region := sp / 8 % 16384, version := sp / 131072, unit := u % 2 ^ 34 }

/-- Does the map of one of the versions `keep` name the unit of that name (R116, R129)? -/
def mapNames (s : State) (keep : List (Nat × Nat)) (name : Nat) : Bool :=
  let u := nameUnit name
  decidedName s name && keep.any (fun p => p.1 == u.region && decide (u.version ≤ p.2) && !changedIn s u.region u.unit u.version p.2)

/-- Is a MAP or ROOT unit one of the versions `keep` (R118, R124)? Any other unit is kept. -/
def mapKept (s : State) (keep : List (Nat × Nat)) (n : LogName) : Bool :=
  if decide (4 ≤ n.type) || n.region == 0xFFFF then true
  else if n.type = 3 then keep.contains (n.region, n.version)
  else keep.any (fun p => p.1 == n.region && mapVersion s p.1 p.2 n.unit == n.version)

/-- The reads of a replay (R129): every band header, every decision log, and the ROOT and MAP units that the versions `keep` name. -/
def replayReads (s : State) (keep : List (Nat × Nat)) : State :=
  let heads := (s.bands.filter (fun e => !e.2.units.isEmpty)).map (fun e => bandLoc e.1)
  let of := fun (p : LogName → Bool) => (s.metaLocs.filter (fun e => p e.1)).map (fun e => e.2)
  let logs := of (fun n => n.type == 5) ++ of (fun n => n.type == 3 && mapKept s keep n)
    ++ of (fun n => n.type == 2 && n.region != 0xFFFF && mapKept s keep n)
  forEach ((heads ++ logs).filter (lunUp s)) s scrubUnit

/-- LOG_REPLAY (R128 to R130, R136, R155): band headers and decision logs are read, then the ROOT and MAP units of the versions that
each region record keeps, whose maps are rebuilt: `locs` and `metaLocs` are what those units say. A version that no map keeps has no
locators any longer. The rebuilt versions wait for their REGION_SET; contributions that no holder covers are sent again; the medium is
READY, and what waits for it goes on. -/
def doLogReplay (s : State) : State :=
  whenRunning s fun s =>
    if !regBit s (rMed 8) 1 then s
    else
      let keep := replayKeeps s
      let s := replayReads s keep
      let s := { s with
        locs := s.locs.filter (fun e => mapNames s keep e.1)
        lost := s.lost.filter (mapNames s keep)
        metaLocs := s.metaLocs.filter (fun e => mapKept s keep e.1)
        rebuilt := keep }
      let s := forEach (s.contribs.filter (fun c => !c.cov)) s sendContrib
      let s := regPut (regPut s (rMed 8) 1 1 0) (rMed 8) 0 0 1
      logStep (startReads (readSentinels s))

/-! Reads (R137 to R141). -/

/-- Note what a read of page `i` of a unit met (R135, R136, R139, R148): its band's highest step and bits, and its refresh: of
a band older than AGE_D days of the 32,768 Hz always-on clock, and for a sentinel page at step 4 or beyond; every RDIST_K thousand
reads of a block the band is scrubbed, after reclaim while the log is full (R134). The sentinel page's read follows those that replay
ordered of the same page. -/
def bandRead (s : State) (loc i step nbits : Nat) : State :=
  let b := locBand loc
  let x := bandOf s b
  let k := blockKey (locChan loc i) b (physBlock s (locChan loc i) b)
  let (now, s) := drawFree s
  let sent := s.sentinels.contains b && loc == bandLoc b && i == 0 && !s.scrubs.contains (4 * loc)
  let aged := !within (blockOf s k).progAt now (regFld s (rMed 0x20) 63 48 * 86400 * 32768 + 1)
  let due := decide (regFld s (rMed 0x20) 15 8 ≤ step) || decide (regFld s (rMed 0x20) 31 16 < nbits) || aged
    || (sent && decide (4 ≤ step))
  let n := (blockOf s k).reads + 1
  let s := if sent then { s with sentinels := s.sentinels.filter (fun e => e != b) } else { s with scrubs := s.scrubs.erase (4 * loc + i) }
  let s := putBlock s k { blockOf s k with reads := n }
  let s := putBand s b { x with step := max x.step step, bits := max x.bits nbits, refresh := x.refresh || due }
  if regFld s (rMed 0) 23 16 ≠ 0 ∧ n % (regFld s (rMed 0) 23 16 * 1000) = 0 then
    (if regBit s (rMed 8) 2 then { s with lateQ := s.lateQ ++ [(b, false)] } else scrubBand s b)
  else s

/-- The commands that one step of the ladder issues for a page (R112, R138): the read-level offsets of its entry of the profile's retry
table and a read at steps 1 to 7, three and seven reads at offsets at steps 8 and 9. -/
def ladderStep (s : State) (loc i k : Nat) : State :=
  let c := locChan loc i
  let again := fun (s : State) (e : Nat) =>
    let f := Config.retryFeature (regFld s (rMed 0) 15 8) e
    readPage (orders s c [(.setLunFeature, [lunKey c loc, f.1, f.2])]) loc i
  if k = 8 then forEach (List.range 3) s (fun s j => again s (8 + j))
  else if k = 9 then forEach (List.range 7) s (fun s j => again s (11 + j))
  else again s k

/-- The steps of the ladder up to `step`, each only when the one before it failed. -/
def ladderSteps (s : State) (loc i step : Nat) : State := forEach (List.range (min step 9)) s (fun s k => ladderStep s loc i (k + 1))

/-- The step and the bits of the codewords of a page read, with the injections of KIND 1, 2 and 3 (R160): one flips bits of
the first codeword, one fails it until a step, one at every step of the medium's own. -/
def injectRead (s : State) (c : Nat) (cws : List (Nat × Nat)) : List (Nat × Nat) × State :=
  let head := fun (l : List (Nat × Nat)) (f : Nat × Nat → Nat × Nat) =>
    match l with
    | [] => []
    | x :: xs => f x :: xs
  let (cws, s) := match takeInj s (rMedCh c 0x88) 1 (fun _ => true) with
    | some (n, t) => (head cws (fun x => (x.1, x.2 + n)), t)
    | none => (cws, s)
  let (cws, s) := match takeInj s (rMedCh c 0x88) 2 (fun _ => true) with
    | some (n, t) => (head cws (fun x => (max x.1 n, x.2)), t)
    | none => (cws, s)
  match takeInj s (rMedCh c 0x88) 3 (fun _ => true) with
  | some (_, t) => (head cws (fun x => (11, x.2)), t)
  | none => (cws, s)

/-- Take a program out of flight. -/
def dropProg (s : State) (p : Prog) : State := { s with progs := s.progs.filter (fun q => q.loc != p.loc) }

/-- Take a program out of flight and write its unit at the next place in another open band (R145); a header goes with its band. -/
def moveProg (s : State) (p : Prog) : State :=
  if p.unit.type = 6 then dropProg s p else logWrite (dropProg s p) p.unit.again p.src

/-- A LUN goes out of service after three timeouts in a row (R146): what is being written there is written elsewhere, its valid units
are rebuilt from parity into other LUNs, and no band there is reclaimed or erased any more; a target with no LUN left is retired, and
RAW_GIB falls (R25). -/
def lunOutOf (s : State) (c loc : Nat) : State :=
  let here := fun (b : Nat) => b / 2 ^ 20 == locBand loc / 2 ^ 20
  let s := { s with lunOut := Sparse.add s.lunOut (lunKey c loc) }
  let s := degradeQuads (medEvent (regAdd s (rMedCh c 8) 7 0 1) c 0 0 loc)
  let bs := (s.bands.filter (fun e => here e.1)).map (fun e => e.1)
  let s := forEach bs s (fun s b => putBand s b { bandOf s b with isOpen := false, reclaim := 0 })
  let s := { s with sentinels := s.sentinels.filter (fun b => !here b), scrubs := s.scrubs.filter (fun x => !here (locBand (x / 4))) }
  let s := forEach (s.progs.filter (fun p => here (locBand p.loc))) s moveProg
  let s := forEach bs s (fun s b => forEach (bandLive s b) s (fun s e => askRebuild s c (bandLoc b + e.1)))
  let gone := (List.range (regFld s (rMedCh c 0) 11 8)).all (fun l => s.lunOut.contains (32 * c + 8 * locTarget loc + l))
  let s := countBands s
  if gone then
    (let s := { s with targetBytes := Sparse.del s.targetBytes (4 * c + locTarget loc) }
     regPut s 0x28 23 0 (min (regFld s 0x28 23 0) (rawGib s)))
  else s

/-- A status timeout on a LUN (R145, R146): Reset LUN is issued; the third in a row takes the LUN out of service, once. -/
def statusTimeout (s : State) (c loc : Nat) : State :=
  let s := medEvent (medCnt s c 0x68 1) c 4 0 loc
  let s := orders s c [(.resetLun, [lunKey c loc])]
  let n := Sparse.get s.lunTmo (lunKey c loc) 0 + 1
  let s := { s with lunTmo := Sparse.set s.lunTmo (lunKey c loc) 0 n }
  if n = 3 ∧ !s.lunOut.contains (lunKey c loc) then lunOutOf s c loc else s

/-- A read of page `i` that times out has failed at its step of the ladder (R138, R145): it is ordered again at the next one, the first
(assumption 168); on a LUN that is out of service the unit is rebuilt instead (R146), and when this timeout took it out, its rebuild is
asked for already. -/
def readTimeout (s : State) (loc i : Nat) : State :=
  let c := locChan loc i
  let t := statusTimeout s c loc
  if s.lunOut.contains (lunKey c loc) then askRebuild t c loc
  else if t.lunOut.contains (lunKey c loc) then t
  else ladderStep t loc i 1

/-- Does an injected status timeout (KIND 6) meet the operation? -/
def injTimeout (s : State) (c : Nat) : Option State := (takeInj s (rMedCh c 0x88) 6 (fun _ => true)).map (fun p => p.2)

/-- An operation on a LUN that ends in time breaks its row of timeouts. -/
def lunOk (s : State) (c loc : Nat) : State := { s with lunTmo := Sparse.del s.lunTmo (lunKey c loc) }

/-- The domain of the access that a read of a locator's unit serves first (R706). -/
def readDom (s : State) (loc : Nat) : Option Nat :=
  (unitsAt s loc).findSome? (fun u => (s.fetchDoms.find? (fun e => e.1 == u)).map (fun e => e.2))

/-- A page read ends (R138, R139, R140): page `page` of the unit at `loc`, with the ladder step and the corrected bits of each of
its codewords: a codeword that no step up to 9 decodes (10 or 11) leaves the unit to step 10, the rebuild from parity, and where
there is no parity to step 11. `dom` is the domain that the read carries. -/
def pageRead (dom : Option Nat) (loc : BitVec 40) (page : Fin 4) (cws : List (BitVec 4 × BitVec 16)) (s : State) : State :=
    let l := loc.toNat
    let c := locChan l page.val
    match injTimeout s c with
    | some t => readTimeout t l page.val
    | none =>
      let (cs, s) := injectRead (lunOk s c l) c (cws.map (fun x => (x.1.toNat, x.2.toNat)))
      let step := cs.foldl (fun m x => max m x.1) 0
      let most := cs.foldl (fun m x => max m x.2) 0
      let cnt := fun (lo hi : Nat) => (cs.filter (fun x => decide (lo ≤ x.1) && decide (x.1 ≤ hi))).length
      let s := pmc s (184 + c / 16) 2 (cs.foldl (fun m x => m + x.1) 0) dom
      let s := if page.val % 2 = 0 then pmc s (184 + c / 16) 0 1 dom else s
      let s := medCnt (medCnt s c 0x10 1) c 0x28 (cs.foldl (fun m x => m + x.2) 0)
      let s := medCnt (medCnt (medCnt s c 0x30 (cnt 1 7)) c 0x38 (cnt 8 8)) c 0x40 (cnt 9 9)
      let s := ladderSteps (bandRead s l page.val step most) l page.val step
      reclaimStep (if 10 ≤ step then askRebuild s c l else s)

/-- PAGE_READ_DONE: a page read of an access ends. -/
def doPageReadDone (loc : BitVec 40) (page : Fin 4) (cws : List (BitVec 4 × BitVec 16)) (s : State) : State :=
  whenRunning s fun s => pageRead (readDom s loc.toNat) loc page cws s

/-- SCRUB_READ (R147, R148): a page of a unit read by the scrubber; a unit is counted with its first page. -/
def doScrubRead (loc : BitVec 40) (page : Fin 4) (cws : List (BitVec 4 × BitVec 16)) (s : State) : State :=
  whenRunning s fun s =>
    let s := if page.val = 0 then pmc s (184 + locChan loc.toNat 0 / 16) 4 1 none else s
    pageRead none loc page cws s

/-- The lines of several units XORed together (R157). -/
def xorLines (us : List (List LineData)) : List LineData :=
  (List.range 1024).map (fun i => us.foldl (fun a ls => a ^^^ (ls[i]?).getD 0) 0)

/-- The unit at `loc` is rebuilt from parity (R138 step 10, R157): the bytes take their place, and the unit is written to the log as
a refresh, one of a lost member at once (R158). -/
def rebuildUnit (s : State) (c loc : Nat) (lines : List LineData) : State :=
  let s := setBit (medCnt s c 0x48 1) (rMedCh c 0x80) 3
  if 2 ^ 40 ≤ loc then
    (match s.foreign.find? (fun e => e.2 == loc) with
    | some e =>
      let u := nameUnit e.1
      let s := putLines { s with foreign := s.foreign.filter (fun x => x != e) } (u.dataName * 65536) lines
      logWrite s { u with bytes := lines } none
    | none => s)
  else match logUnitAt s loc with
    | none => s
    | some u =>
      let s := if u.type = 1 then putLines s (u.dataName * 65536) lines else s
      let s := forEach (List.range 4) s (fun s i => medCnt s (locChan loc i) 0x78 1)
      if unitLive s loc u then logWrite s { ({ u with bytes := lines } : LogUnit).again with holder := none } (some loc) else s

/-- Is the unit at `loc` a PARITY unit of this holder? -/
def parityHere (s : State) (loc : Nat) : Bool := decide (loc < 2 ^ 40) && (logUnitAt s loc).any (fun u => u.type == 4) && !s.contribs.any (fun c => c.loc == loc)

/-- DEGRADED_READ (R157): the parity unit of the unit at `loc` has been read at its holder; every other contribution that it names is read
at its member, and the parts are XORed together. A part that cannot be read loses the unit. A PARITY unit of this holder is the XOR of
the contributions that it lists (R146). Bit 40 of `loc` says that it is a lost member's locator (R158). -/
def doDegradedRead (chan : Fin 32) (loc : BitVec 41) (parity : Option (List LineData)) (others : List PartRead) (s : State) : State :=
  whenRunning s fun s =>
    let parts := if parityHere s loc.toNat then others.map (fun p => p.lines) else parity :: others.map (fun p => p.lines)
    let s := if parity.isSome && !parityHere s loc.toNat then forEach others s (fun s p => askPart s p.member.val p.loc.toNat) else s
    logStep (if parts.all (fun p => p.isSome) then
        rebuildUnit (pmc s (184 + chan.val / 16) 7 1 (readDom s loc.toNat)) chan.val loc.toNat (xorLines (parts.filterMap id))
      else loseUnit s chan.val loc.toNat)

/-! Programs and erases (R121 to R124, R143 to R145). -/

/-- The channel that a failure of a four-page operation names, or the first that an injection of `kind` waits for. -/
def opFails (s : State) (loc kind : Nat) (fail : Option (Fin 4)) : Option Nat × State :=
  match fail with
  | some i => (some (locChan loc i.val), s)
  | none =>
    (List.range 4).foldl (fun acc i =>
      match acc.1 with
      | some _ => acc
      | none =>
        match takeInj acc.2 (rMedCh (locChan loc i) 0x88) kind (fun _ => true) with
        | some (_, t) => (some (locChan loc i), t)
        | none => acc) (none, s)

/-- Send a written unit to its parity holder (R150). -/
def contribute (s : State) (loc : Nat) (u : LogUnit) : State :=
  match u.holder with
  | none => s
  | some h =>
    let c : Contrib := ⟨loc, h, false, false⟩
    let x := bandOf s (locBand loc)
    sendContrib (putBand { s with contribs := s.contribs.filter (fun d => d.loc != loc) ++ [c] } (locBand loc)
      { x with uncovered := x.uncovered + 1 }) c

/-- Does a PARITY unit that is programmed replace the one that its stripe has on the medium (R156)? A rewrite lists fewer contributions than
what it replaces, and the stripe may have none left by now. -/
def parityNewer (s : State) (u : LogUnit) : Bool :=
  s.parUnits.any (fun x => x.id == u.unit) && (match s.metaLocs.find? (fun e => e.1 == u.metaName) with
    | some e => (match logUnitAt s e.2 with
      | some v => decide (u.parts.length < v.parts.length)
      | none => true)
    | none => true)

/-- A program's unit is on the medium (R113 to R116, R121, R132): its band holds it, and what names it names its new place; the map
entries of a unit that is relocated follow it wherever they named the old place. -/
def programmed (s : State) (p : Prog) : State :=
  let b := locBand p.loc
  let (n, s) := drawFree s
  let s := forEach (bandChans b) s (fun s c =>
    let k := blockKey c b (physBlock s c b)
    putBlock s k { blockOf s k with progAt := n })
  let x := bandOf s b
  let s := putBand (dropProg s p) b { x with units := x.units ++ [(locPage p.loc, p.unit)] }
  let u := p.unit
  let s := match p.src with
    | some old => { s with
        locs := s.locs.map (fun e => if e.2 == old then (e.1, p.loc) else e)
        metaLocs := s.metaLocs.map (fun e => if e.2 == old then (e.1, p.loc) else e) }
    | none =>
      if u.type = 1 then
        { s with locs := Sparse.ins s.locs u.dataName p.loc, lost := Sparse.rem s.lost u.dataName }
      else if u.type = 6 then s
      else if u.type = 4 ∧ !parityNewer s u then s
      else
        (let name := u.metaName
         { s with metaLocs := s.metaLocs.filter (fun e => e.1 != name) ++ [(name, p.loc)] })
  contribute s p.loc u

/-- The publish whose DECISION record for version `v` of region `r` is being written or is on the medium (R125). -/
def decidingPub (s : State) (r v : Nat) : Option Pub :=
  s.pubs.find? (fun p => drRegion s p.draft == r && p.pred + 1 == v && decide (4 ≤ p.stage))

/-- A DECISION page is programmed (R125 to R130): its records are on the medium from the first copy on, and a decided version's
bytes are the version's; once both copies are, each decided publish sets CURRENT, and the next page follows. -/
def decisionDone (s : State) (u : LogUnit) : State :=
  let s := forEach u.recs s (fun s x => match x with
    | .region r ws => { s with regRecs := s.regRecs.filter (fun e => e.1 != r) ++ [(r, ws)] }
    | .decision r v p _ =>
      if s.decisions.contains (r, v, p) then s
      else
        let s := { s with decisions := s.decisions ++ [(r, v, p)] }
        match decidingPub s r v with
        | some q => setStage (versionBytes (adoptUnits s q.draft r v) q) q.draft 5
        | none => s)
  if deciding s u.home then s
  else decideNext (forEach u.recs s (fun s x => match x with
    | .decision r v _ _ => (match decidingPub s r v with
      | some q => decidedOn s q
      | none => s)
    | .region _ _ => s)) u.home

/-- The acknowledgements that a PARITY unit's program owed are sent (R152, R156). -/
def parityDone (s : State) (u : LogUnit) : State := forEach u.acks s (fun s a => send s (.peer (peerOf s a.2.1) 0 [a.1, a.2.2] 0))

/-- What a program that has ended lets go on: the next stage of a publish (R124), its decision, or a parity holder's
acknowledgements. -/
def progDone (s : State) (p : Prog) : State :=
  let u := p.unit
  let s := programmed s p
  if p.src.isSome then s
  else if u.type ≤ 3 then (match u.draft with
    | some d => writeOn s d
    | none => s)
  else if u.type = 5 then decisionDone s u
  else if u.type = 4 then parityDone s u
  else s

/-- A program on channel `c` failed (R145): the block is retired, the unit and what else is in flight to the band are written to other
bands, and the units already written are relocated. -/
def programFailed (s : State) (c : Nat) (p : Prog) : State :=
  let b := locBand p.loc
  let s := medEvent (medCnt s c 0x58 1) c 6 0 p.loc
  let s := retireBlock s c b
  let s := putBand s b { bandOf s b with isOpen := false }
  let s := forEach (s.progs.filter (fun q => locBand q.loc == b)) s moveProg
  startReclaim s b

/-- A band is erased (R132, R135): its blocks count the erase, and nothing it held is there. -/
def erased (s : State) (b : Nat) : State :=
  let s := putBand s b { ({} : Band) with gone := (bandOf s b).gone }
  let s := forEach (bandChans b) s (fun s c =>
    let k := blockKey c b (physBlock s c b)
    putBlock s k { blockOf s k with erases := (blockOf s k).erases + 1, reads := 0 })
  let s := { s with contribs := s.contribs.filter (fun c => locBand c.loc != b) }
  if (bandOf s b).gone then freeGone s b else s

/-- An erase on channel `c` failed (R145): the block is retired, and the band takes a spare; one that was retired whole takes none, and the
block does not become one (R144). -/
def eraseFailed (s : State) (c b : Nat) : State :=
  let s := medEvent (medCnt s c 0x60 1) c 5 0 (bandLoc b)
  if (bandOf s b).gone then
    (let s := setBit (medCnt s c 0x70 1) (rMedCh c 0x80) 0
     erased { s with badBlocks := Sparse.add s.badBlocks (blockKey c b (Sparse.get s.remaps (c * 2 ^ 28 + b) (b % 2 ^ 20))) } b)
  else retireBlock (erased s b) c b

/-- PAGE_PROGRAM_DONE (R113 to R115, R121 to R124, R145): the unit that is being programmed at `loc`, the next of its band, is
programmed; `fail` is the page whose program failed. An injected status timeout (KIND 6) fails it as a real one does (R160). -/
def doPageProgramDone (loc : BitVec 40) (fail : Option (Fin 4)) (s : State) : State :=
  whenRunning s fun s =>
    let l := loc.toNat
    match s.progs.find? (fun p => locBand p.loc == locBand l) with
    | none => s
    | some p =>
      if p.loc ≠ l then s
      else
        let (tmo, s) := opFails s l 6 none
        match tmo with
        | some c => logStep (statusTimeout (programFailed s c p) c l)
        | none =>
          let (bad, s) := opFails s l 4 fail
          let s := forEach (List.range 4) s (fun s i => lunOk (medCnt s (locChan l i) 0x18 1) (locChan l i) l)
          let dom := if p.unit.type = 1 then some (rgDomain s p.unit.region) else none
          let s := pmc (pmc s 184 1 1 dom) 185 1 1 dom
          match bad with
          | some c => logStep (programFailed s c p)
          | none => logStep (progDone s p)

/-- BLOCK_ERASE_DONE (R122, R143 to R145): the erase of a band that reclaim ordered ends; `fail` is the channel whose block failed. -/
def doBlockEraseDone (loc : BitVec 40) (fail : Option (Fin 4)) (s : State) : State :=
  whenRunning s fun s =>
    let l := loc.toNat
    let b := locBand l
    if (bandOf s b).reclaim ≠ 4 then s
    else
      let (tmo, s) := opFails s l 6 none
      match tmo with
      | some c => logStep (statusTimeout (eraseFailed s c b) c l)
      | none =>
        let (bad, s) := opFails s l 5 fail
        let s := forEach (List.range 4) s (fun s i => lunOk (medCnt s (locChan l i) 0x20 1) (locChan l i) l)
        logStep (match bad with
          | some c => eraseFailed s c b
          | none => erased s b)

/-- STATUS_TIMEOUT (R145, R146): the read, program or erase (`op` 0, 1, 2) in flight at `loc` fails on channel `chan`. -/
def doStatusTimeout (chan : Fin 32) (loc : BitVec 40) (op : Fin 3) (s : State) : State :=
  whenRunning s fun s =>
    let l := loc.toNat
    let c := chan.val
    if op.val = 0 then readTimeout s l (c / 8 % 4)
    else if op.val = 1 then
      (match s.progs.find? (fun p => p.loc == l) with
       | some p => logStep (statusTimeout (programFailed s c p) c l)
       | none => statusTimeout s c l)
    else if (bandOf s (locBand l)).reclaim = 4 then logStep (statusTimeout (eraseFailed s c (locBand l)) c l)
    else statusTimeout s c l

/-- BAND_RECLAIM (R132, R134): the policy names a band to reclaim, or to refresh; one that is open, erased or out of service is not. A
refresh waits behind reclaim while the log is full. -/
def doBandReclaim (loc : BitVec 40) (s : State) : State :=
  whenRunning s fun s =>
    let b := locBand loc.toNat
    if (bandOf s b).isOpen || (bandOf s b).next == 0 || s.progs.any (fun p => locBand p.loc == b) || !lunUp s (bandLoc b) then s
    else if regBit s (rMed 8) 2 && (bandOf s b).refresh then logStep { s with lateQ := s.lateQ ++ [(b, true)] }
    else logStep (startReclaim s b)

/-! Parity across controllers (R149 to R158). -/

/-- The name of the frame of open stripe `id` among those of the parity pool. -/
def stripeName (id : Nat) : Nat := spKey (spMisc 5) 0 / 65536 + 2 ^ 28 + id

/-- XOR lines into a stripe's frame. -/
def xorStripe (s : State) (x : Stripe) (lines : List LineData) : State :=
  forEach ((List.range lines.length).zip lines) s (fun s p =>
    s.putLine (poolKey x.frame p.1) (s.readLine (poolKey x.frame p.1) ^^^ p.2))

/-- The lines of a stripe's frame. -/
def stripeLines (s : State) (x : Stripe) : List LineData := (List.range 1024).map (fun i => s.readLine (poolKey x.frame i))

/-- The PARITY units that are being written or wait for a place. -/
def parityWrites (s : State) : List LogUnit :=
  ((s.logQ.map (fun e => e.1)) ++ s.progs.map (fun p => p.unit)).filter (fun u => u.type == 4)

/-- The lowest stripe number that nothing uses. -/
def freeStripe (s : State) : Nat :=
  let used := (s.stripes ++ s.parUnits).map (fun x => x.id) ++ (parityWrites s).map (fun u => u.unit)
  ((List.range (used.length + 1)).find? (fun i => !used.contains i)).getD 0

/-- Open a stripe in a free 64 KiB frame of the parity pool (R151); a holder never refuses a contribution (R153), so with no frame left
the stripe lies beyond the pool (assumption 173). -/
def openStripe (s : State) : State × Stripe :=
  let g := regFld s (rMed 0x10) 3 0
  let id := freeStripe s
  let u := (poolUnit s g (stripeName id)).getD (2 ^ 28 + id)
  let x : Stripe := { id := id, parts := [], frame := u }
  (zeroMem { s with stripes := s.stripes ++ [x], poolMap := Sparse.ins s.poolMap (16 * stripeName id + g) u } (poolKey u 0) 65536, x)

/-- Close a stripe (R152): it is written as a PARITY unit, and its frame is free; once the unit is programmed each contribution is
acknowledged as covered. -/
def closeStripe (s : State) (x : Stripe) : State :=
  let lines := stripeLines s x
  let s := zeroMem { s with
    stripes := s.stripes.filter (fun z => z.id != x.id)
    poolMap := s.poolMap.filter (fun e => e.1 / 16 != stripeName x.id)
    parUnits := s.parUnits ++ [x] } (poolKey x.frame 0) 65536
  logWrite s { type := 4, unit := x.id, parts := x.parts, bytes := lines, acks := x.parts.map (fun p => (0x53, p.1, p.2)) } none

/-- The lines of the newest PARITY unit of a stripe: of those that are being written and the one on the medium, the one that lists the
fewest contributions (R156). -/
def parityLines (s : State) (id : Nat) : List LineData :=
  let here := ((s.metaLocs.filter (fun e => e.1 == ⟨4, 0, 0, id⟩)).filterMap (fun e => logUnitAt s e.2))
  let all := ((parityWrites s).filter (fun u => u.unit == id)) ++ here
  ((all.foldl (fun (m : Option LogUnit) u => match m with
    | none => some u
    | some v => if u.parts.length < v.parts.length then some u else some v) none).map (fun u => u.bytes)).getD []

/-- Members of the medium parity group. -/
def parityWidth (s : State) : Nat := (pgMembers s (regFld s (rMed 0x10) 3 0)).length

/-- Add a contribution to a stripe, which closes when it holds W - 1; the member is told that it is accepted (R154): the manual names no
message for it (assumption 213). -/
def joinStripe (s : State) (x : Stripe) (m loc : Nat) (lines : List LineData) : State :=
  let y : Stripe := { x with parts := x.parts ++ [(m, loc)] }
  let s := xorStripe { s with stripes := s.stripes.map (fun z => if z.id == x.id then y else z) } x lines
  let s := send s (.peer (peerOf s m) 0 [0x52, loc] 0)
  if parityWidth s - 1 ≤ y.parts.length then closeStripe s y else s

/-- The lines of a contribution or a retraction arrive in the member's ring here (R104, R150): the locator, then the unit. -/
def ringUnit (s : State) (m loc : Nat) (lines : List LineData) : State :=
  forEach (BitVec.ofNat 512 loc :: lines) s (fun s d => ringLine s m d)

/-- CONTRIBUTION_ARRIVE (R151, R153). -/
def doContributionArrive (member : Fin 16) (loc : BitVec 40) (lines : List (BitVec 512)) (s : State) : State :=
  whenRunning s fun s =>
    let s := ringUnit s member.val loc.toNat lines
    match s.stripes.find? (fun x => !x.parts.any (fun p => p.1 == member.val)) with
    | some x => joinStripe s x member.val loc.toNat lines
    | none =>
      let s := if s.stripes.length < 16 then s else (match s.stripes with
        | x :: _ => closeStripe s x
        | [] => s)
      let (s, x) := openStripe s
      joinStripe s x member.val loc.toNat lines

/-- STRIPE_CLOSE_TIMER (R152): the close time of the oldest open stripe passes. -/
def doStripeCloseTimer (s : State) : State :=
  whenRunning s fun s =>
    match s.stripes with
    | x :: _ => closeStripe s x
    | [] => s

/-- CONTRIBUTION_COVERED (R152, R155). -/
def doContributionCovered (loc : BitVec 40) (s : State) : State :=
  whenRunning s fun s =>
    if !s.contribs.any (fun c => c.loc == loc.toNat && !c.cov) then s
    else
      let b := locBand loc.toNat
      let x := bandOf s b
      logStep (putBand { s with contribs := s.contribs.map (fun c => if c.loc == loc.toNat then { c with cov := true } else c) } b
        { x with uncovered := x.uncovered - 1 })

/-- RETRACTION (R156): the holder takes a contribution out of its parity unit and writes a new PARITY unit, whose program releases the
old one and acknowledges this retraction; with no contribution left it retires the parity unit and acknowledges at once. -/
def doRetraction (member : Fin 16) (loc : BitVec 40) (lines : List (BitVec 512)) (s : State) : State :=
  whenRunning s fun s =>
    let s := ringUnit s member.val loc.toNat lines
    match s.parUnits.find? (fun x => x.parts.contains (member.val, loc.toNat)) with
    | none => s
    | some x =>
      let y : Stripe := { x with parts := x.parts.erase (member.val, loc.toNat) }
      if y.parts = [] then
        logStep (send { s with
            parUnits := s.parUnits.erase x
            metaLocs := s.metaLocs.filter (fun e => e.1 != ⟨4, 0, 0, x.id⟩) } (.peer (peerOf s member.val) 0 [0x54, loc.toNat] 0))
      else
        logWrite { s with parUnits := s.parUnits.map (fun z => if z.id == x.id then y else z) }
          { type := 4, unit := x.id, parts := y.parts, bytes := xorLines [parityLines s x.id, lines], acks := [(0x54, member.val, loc.toNat)] } none

/-- RETRACTION_ACK (R132, R156): the last one lets the band be erased. -/
def doRetractionAck (loc : BitVec 40) (s : State) : State :=
  whenRunning s fun s =>
    let b := locBand loc.toNat
    let n := Sparse.get s.retracts b 0
    if n = 0 then s
    else logStep { s with
      retracts := Sparse.set s.retracts b 0 (n - 1)
      contribs := s.contribs.filter (fun c => c.loc != loc.toNat) }

/-- The class of an item in the order of a rebuild (R158). -/
def itemOrder (x : RebuildItem) : Nat :=
  match x with
  | .decision _ _ _ _ => 0
  | .root _ _ _ _ => 1
  | .map _ _ _ _ _ => 2
  | .bandTable _ _ => 2
  | .data _ _ _ _ => 3

/-- Rebuild one item of a lost member's medium on this controller: it is written to this controller's log, a unit with the bytes that
the XOR gave, whose locators are the lost member's (assumption 216). The units that a MAP unit names wait to be rebuilt. -/
def rebuildItem (s : State) (item : RebuildItem) : State :=
  match item with
  | .decision r v p roots => appendRecord s r.toNat (.decision r.toNat v.toNat p.toNat (roots.map (fun l => 2 ^ 63 + l.toNat)))
  | .root r v n lines => logWrite s { type := 3, region := r.toNat, version := v.toNat, unit := n.toNat, bytes := lines } none
  | .map r v m us lines =>
    let s := { s with
      verUnits := s.verUnits ++ us.map (fun u => (r.toNat, v.toNat, u.1.toNat))
      foreign := us.foldl (fun f u => Sparse.ins f (unitName r.toNat v.toNat u.1.toNat) (2 ^ 40 + u.2.toNat)) s.foreign }
    logWrite s { type := 2, region := r.toNat, version := v.toNat, unit := m.toNat, bytes := lines } none
  | .bandTable n lines => logWrite s { type := 2, region := 0xFFFF, version := 1, unit := n.toNat, bytes := lines } none
  | .data r v u lines =>
    let name := unitName r.toNat v.toNat u.toNat
    let s := putLines s (spKey (spVersion r.toNat v.toNat) (u.toNat * 65536)) lines
    logWrite { s with lost := Sparse.rem s.lost name, foreign := Sparse.del s.foreign name }
      { type := 1, region := r.toNat, version := v.toNat, unit := u.toNat, bytes := lines } none

/-- SUBSTITUTE_REBUILD (R158): one item of a lost member's medium is rebuilt, in the order decision records, ROOT units, MAP units and
the band table, DATA units: an item of a class before the one that the rebuild has come to is not taken; `last` ends the rebuild. -/
def doSubstituteRebuild (item : RebuildItem) (last : Bool) (s : State) : State :=
  whenRunning s fun s =>
    if itemOrder item < s.rebuildAt then s
    else
      let s := regPut s (rMed 8) 3 3 (if last then 0 else 1)
      rebuildItem { s with rebuildAt := if last then 0 else itemOrder item } item

/-- A write to MED_CH_INJ_c (R160). -/
def medInj (kind : Nat) (chan : Fin 32) (arg : BitVec 8) (s : State) : State :=
  whenRunning s fun s => armInj s (rMedCh chan.val 0x88) kind arg.toNat false
def doMedInjFlip (chan : Fin 32) (arg : BitVec 8) (s : State) : State := medInj 1 chan arg s
def doMedInjRetry (chan : Fin 32) (arg : BitVec 8) (s : State) : State := medInj 2 chan arg s
def doMedInjUncorr (chan : Fin 32) (s : State) : State := medInj 3 chan 0 s
def doMedInjProgFail (chan : Fin 32) (s : State) : State := medInj 4 chan 0 s
def doMedInjEraseFail (chan : Fin 32) (s : State) : State := medInj 5 chan 0 s
def doMedInjTimeout (chan : Fin 32) (s : State) : State := medInj 6 chan 0 s

/-- A write to HA_INJ_h (R253). -/
def haInj (kind : Nat) (home : Fin 8) (host : Nat) (s : State) : State :=
  whenRunning s fun s => armInj s (rHome home.val 0x10) kind host false
def doHaInjDropSnoopAnswer (home : Fin 8) (host : Fin 64) (s : State) : State := haInj 1 home host.val s
def doHaInjDropCmpack (home : Fin 8) (host : Fin 64) (s : State) : State := haInj 2 home host.val s
def doHaInjDirUe (home : Fin 8) (s : State) : State := haInj 3 home 0 s
def doHaInjSfUe (home : Fin 8) (s : State) : State := haInj 4 home 0 s
def doHaInjPoison (home : Fin 8) (s : State) : State := haInj 5 home 0 s

-- EXEC
def execMediumEnumerate (chans : List MedChan) (profile : BitVec 8) (peRated : BitVec 16) (s : State) :
    Host.Outcome State Fault Refusal :=
  .next (doMediumEnumerate chans profile peRated s)
def execLogReplay (s : State) : Host.Outcome State Fault Refusal := .next (doLogReplay s)
def execPageReadDone (loc : BitVec 40) (page : Fin 4) (cws : List (BitVec 4 × BitVec 16)) (s : State) :
    Host.Outcome State Fault Refusal :=
  .next (doPageReadDone loc page cws s)
def execScrubRead (loc : BitVec 40) (page : Fin 4) (cws : List (BitVec 4 × BitVec 16)) (s : State) :
    Host.Outcome State Fault Refusal :=
  .next (doScrubRead loc page cws s)
def execDegradedRead (chan : Fin 32) (loc : BitVec 41) (parity : Option (List (BitVec 512))) (others : List PartRead)
    (s : State) : Host.Outcome State Fault Refusal :=
  .next (doDegradedRead chan loc parity others s)
def execPageProgramDone (loc : BitVec 40) (fail : Option (Fin 4)) (s : State) : Host.Outcome State Fault Refusal :=
  .next (doPageProgramDone loc fail s)
def execBlockEraseDone (loc : BitVec 40) (fail : Option (Fin 4)) (s : State) : Host.Outcome State Fault Refusal :=
  .next (doBlockEraseDone loc fail s)
def execStatusTimeout (chan : Fin 32) (loc : BitVec 40) (op : Fin 3) (s : State) : Host.Outcome State Fault Refusal :=
  .next (doStatusTimeout chan loc op s)
def execBandReclaim (loc : BitVec 40) (s : State) : Host.Outcome State Fault Refusal := .next (doBandReclaim loc s)
def execRetraction (member : Fin 16) (loc : BitVec 40) (lines : List (BitVec 512)) (s : State) :
    Host.Outcome State Fault Refusal :=
  .next (doRetraction member loc lines s)
def execRetractionAck (loc : BitVec 40) (s : State) : Host.Outcome State Fault Refusal := .next (doRetractionAck loc s)
def execContributionArrive (member : Fin 16) (loc : BitVec 40) (lines : List (BitVec 512)) (s : State) :
    Host.Outcome State Fault Refusal :=
  .next (doContributionArrive member loc lines s)
def execStripeCloseTimer (s : State) : Host.Outcome State Fault Refusal := .next (doStripeCloseTimer s)
def execContributionCovered (loc : BitVec 40) (s : State) : Host.Outcome State Fault Refusal :=
  .next (doContributionCovered loc s)
def execSubstituteRebuild (item : RebuildItem) (last : Bool) (s : State) : Host.Outcome State Fault Refusal :=
  .next (doSubstituteRebuild item last s)
def execMedInjFlip (chan : Fin 32) (arg : BitVec 8) (s : State) : Host.Outcome State Fault Refusal :=
  .next (doMedInjFlip chan arg s)
def execMedInjRetry (chan : Fin 32) (arg : BitVec 8) (s : State) : Host.Outcome State Fault Refusal :=
  .next (doMedInjRetry chan arg s)
def execMedInjUncorr (chan : Fin 32) (s : State) : Host.Outcome State Fault Refusal := .next (doMedInjUncorr chan s)
def execMedInjProgFail (chan : Fin 32) (s : State) : Host.Outcome State Fault Refusal := .next (doMedInjProgFail chan s)
def execMedInjEraseFail (chan : Fin 32) (s : State) : Host.Outcome State Fault Refusal := .next (doMedInjEraseFail chan s)
def execMedInjTimeout (chan : Fin 32) (s : State) : Host.Outcome State Fault Refusal := .next (doMedInjTimeout chan s)
def execHaInjDropSnoopAnswer (home : Fin 8) (host : Fin 64) (s : State) : Host.Outcome State Fault Refusal :=
  .next (doHaInjDropSnoopAnswer home host s)
def execHaInjDropCmpack (home : Fin 8) (host : Fin 64) (s : State) : Host.Outcome State Fault Refusal :=
  .next (doHaInjDropCmpack home host s)
def execHaInjDirUe (home : Fin 8) (s : State) : Host.Outcome State Fault Refusal := .next (doHaInjDirUe home s)
def execHaInjSfUe (home : Fin 8) (s : State) : Host.Outcome State Fault Refusal := .next (doHaInjSfUe home s)
def execHaInjPoison (home : Fin 8) (s : State) : Host.Outcome State Fault Refusal := .next (doHaInjPoison home s)

end Sys2Proof.Machine
end

