-- ==== Sys2Proof/Machine/Fabric.lean ====
section
/-! DEFINITION. Machine/Fabric.lean: the fabric ports: training, flits, resend, credits and flush (R485 to R520). -/

namespace Sys2Proof.Machine

def linkOf (s : State) (p : Nat) : Link := Sparse.get s.links p {}
def putLink (s : State) (p : Nat) (x : Link) : State :=
  regPut { s with links := Sparse.set s.links p {} x } (rFab p 8) 47 38 x.replay.length

/-- FAB_STAT_p.STATE and FAB_BIND_p.KIND. -/
def fabState (s : State) (p : Nat) : Nat := regFld s (rFab p 8) 3 0
def setFabState (s : State) (p v : Nat) : State := regPut s (rFab p 8) 3 0 v
def fabKind (s : State) (p : Nat) : Nat := regFld s (rFab p 0) 63 62

/-- A fabric port event: FAB_ERR_p bit `b`, a count, and the LINK log. -/
def fabEvent (s : State) (p b : Nat) (cnt : Option Nat) (action : Nat := 0) : State :=
  let s := setBit s (rFab p 0x10) b
  let s := match cnt with
    | some k => incCnt s (rFab p k)
    | none => s
  logErr s { cls := 5, code := b, kind := 9, unit := p, action := action }

/-- A switch core event (chapter 12). -/
def swEvent (s : State) (b : Nat) (action : Nat := 0) (port : Nat := 0) : State :=
  logErr (setBit s (rSw 0x10) b) { cls := 5, code := b, kind := 11, action := action, d0 := port }

/-! Sending flits. -/

/-- One byte more in a CRC-64: the ECMA-182 polynomial, most significant bit first (R500, assumption 219). -/
def crcByte (crc b : Nat) : Nat :=
  (List.range 8).foldl (fun c _ => if c.testBit 63 then (c * 2 % 2 ^ 64) ^^^ 0x42F0E1EBA9EA3693 else c * 2) (crc ^^^ (b * 2 ^ 56))

/-- The CRC-64 of bytes: it starts at all ones, and its result is inverted (R500). -/
def crc64 (bs : List Nat) : Nat := 2 ^ 64 - 1 - bs.foldl crcByte (2 ^ 64 - 1)

/-- A number as `n` bytes, least significant first. -/
def leBytes (n v : Nat) : List (BitVec 8) := (List.range n).map (fun i => BitVec.ofNat 8 (v / 256 ^ i))

/-- The 256 bytes of a flit (R500): the link header, 15 slots, those beyond the ones in use zero, and the CRC; `bad` corrupts it. -/
def flitBytes (hdr : Nat) (slots : List Nat) (bad : Bool) : List Nat :=
  let bs := (leBytes 8 hdr ++ (List.range 15).flatMap (fun i => leBytes 16 (nth slots i))).map BitVec.toNat
  bs ++ (leBytes 8 (crc64 bs ^^^ (if bad then 1 else 0))).map BitVec.toNat

/-- The bytes that each logical lane carries: byte `i` goes on lane `i` mod width (R500). -/
def flitLanes (width : Nat) (bs : List Nat) : List Nat :=
  (List.range width).map (fun l => ((bs.zipIdx.filter (fun b => b.2 % width == l)).map (fun b => b.1)).foldr (fun b n => b + 256 * n) 0)

/-- Put a flit on the wire: its type, SEQ, ACK, NAK, credit return (channel, class, slots) and slots (R500). FAB_INJ_p KIND 1 corrupts
its CRC. Every flit carries the ACK (R509). -/
def emitFlit (s : State) (p type seq : Nat) (nak : Bool) (crd : Nat × Nat × Nat) (slots : List Nat) : State :=
  let (bad, s) := match takeInj s (rFab p 0x18) 1 (fun _ => true) with
    | some (_, t) => (true, t)
    | none => (false, s)
  let x := linkOf s p
  let s := pmc (putLink s p { x with got := 0 }) (186 + p) 0 1 none
  let s := if type = 0 then pmc s (186 + p) 2 1 none else s
  let hdr := type * 2 ^ 60 + seq % 4096 * 2 ^ 48 + x.rx % 4096 * 2 ^ 36 + (if nak then 2 ^ 35 else 0) + crd.1 % 8 * 2 ^ 32
    + crd.2.1 % 16 * 2 ^ 28 + crd.2.2 % 4096 * 2 ^ 16 + slots.length % 16 * 2 ^ 12
  send s (.fab p (flitLanes (max 1 (regFld s (rFab p 8) 6 4)) (flitBytes hdr slots bad)))

/-- No credit return. -/
def noCrd : Nat × Nat × Nat := (7, 0, 0)

/-- An IDLE flit (R502). -/
def emitIdle (s : State) (p : Nat) (nak : Bool) (crd : Nat × Nat × Nat) : State := emitFlit s p 0 0 nak crd []

/-- Send a PAYLOAD (1) or CONTROL (2) flit: it takes the next SEQ and is kept until an ACK covers it (R506). -/
def sendFlit (s : State) (p type : Nat) (slots : List Nat) : State :=
  let x := linkOf s p
  let q := (x.tx + 1) % 4096
  let s := putLink s p { x with tx := q, replay := x.replay ++ [(q, 0, type :: slots)] }
  emitFlit s p type q false noCrd slots

/-- Send the CONTROL flits that wait, while fewer than 16 of them, and fewer than 512 flits, are unacknowledged (R506, R515). -/
def drainControl (fuel : Nat) (s : State) (p : Nat) : State :=
  match fuel with
  | 0 => s
  | k + 1 =>
    let x := linkOf s p
    match x.ctl with
    | [] => s
    | c :: rest =>
      if 512 ≤ x.replay.length ∨ 16 ≤ x.replay.countP (fun e => e.2.2.head? == some 2) then s
      else drainControl k (sendFlit (putLink s p { x with ctl := rest }) p 2 c) p

/-- Send a CONTROL flit (R515). -/
def sendControl (s : State) (p : Nat) (slots : List Nat) : State :=
  drainControl 16 (putLink s p { linkOf s p with ctl := (linkOf s p).ctl ++ [slots] }) p

/-- Resend every unacknowledged flit in order (R508), and note for each that it went again, and when (R510). -/
def resendAll (s : State) (p : Nat) : State :=
  let (n, s) := drawFree s
  let x := linkOf s p
  let q := x.replay.map (fun e => (e.1, e.2.1 + 1, e.2.2))
  let s := putLink s p { x with replay := q, resends := ((x.resends ++ q.map (fun _ => n)).reverse.take 257).reverse }
  forEach q s (fun s e =>
    let s := incCnt s (rFab p 0x28)
    match e.2.2 with
    | type :: slots => emitFlit s p type e.1 false noCrd slots
    | [] => s)

/-! Ports going down (R517 to R520). -/

/-- The name of a host's write that arrived on port `p` while it is on its way to another controller. -/
def fwdKey (p h : Nat) : Nat := (4096 * p + hTxn h) * 2 ^ 54 + hAddr h / 64

/-- The slots of a message that arrives on port `p`: WrData that answers a WrLine or WrBack takes one less than that of a WrNC (R504),
whether it answers the Fetch of a home of this controller or is on its way to another. -/
def rxSlots (s : State) (p h : Nat) : Nat :=
  if hOpcode h ≠ 0x32 then msgSlots h
  else
    let from' := fun (t : Txn) => match t.req.src with
      | .host n => n.val == hHost h
      | .peer q _ => q.val == p
      | _ => false
    match s.trk.find? (fun t => t.phase == .fetch && t.req.txn.toNat == hTxn h && from' t) with
    | some t => if t.req.op == .wrline || t.req.op == .wrback then 5 else 6
    | none => if s.fwdWrites.contains (fwdKey p h, false) then 5 else 6

/-- The TXN of a header slot replaced. -/
def setTxn (h t : Nat) : Nat := h - hTxn h * 2 ^ 108 + t % 4096 * 2 ^ 108

/-- The header slot of the Err FLUSHED that answers the request of a header (R503, R517). -/
def flushedHdr (h : Nat) : Nat := 2 * 2 ^ 126 + 0x27 * 2 ^ 120 + (h % 2 ^ 120 - bits h 26 23 * 2 ^ 23) + errFlushed * 2 ^ 23

/-- An engine of a kernel, that of the access if it is known, stops for a fault of an access that did not wait for its answer (R168,
R519). -/
def kernelFail (s : State) (w : Nat) (eng : Option Engine) (code addr : Nat) : State :=
  match liveKernel s w with
  | none => s
  | some k =>
    match eng, k.lathes, k.ctxs, k.kites with
    | some (.lathe l), _, _, _ => latheFault s l.val code 0 addr
    | some (.gctx n), _, _, _ => ctxFault s n.val code addr
    | some (.kite n), _, _, _ => kiteFault s n.val code addr
    | none, l :: _, _, _ => latheFault s l code 0 addr
    | none, [], n :: _, _ => ctxFault s n code addr
    | none, [], [], n :: _ => kiteFault s n code addr
    | none, [], [], [] => kernelAbort s w { code := code, engine := 0, addr := addr }

/-- The fault of a kernel (R314) whose access another controller refuses with Err (R210); the codes that name no fault of their own abort
it (R519). -/
def errFault (e : Nat) : Nat :=
  if e = errAddr then 4 else if e = errGrant then 6 else if e = errPoison then 10 else if e = errQuota then 11
  else if e = errCapacity then 12 else if e = errStale then 13 else 17

/-- Abort the kernels that wait on a reel. -/
def failReel (s : State) (x : Reel) (code : Nat) : State := forEach x.kwait s (fun s e => kernelFail s e.1 none code e.2)

/-- Free a FETCHING slot: every access that waits is answered with Err. -/
def dropFetch (s : State) (k : Nat) (x : Reel) (err code : Nat) : State :=
  let s := freeReel s k
  let s := forEach x.waiting s (fun s w => gwReply s w.1 w.2 0x27 0 err 0 false)
  drainMissq (failReel s x code)

/-- A reel is staged: what a PREFETCH named there has completed (R349). -/
def reelStaged (s : State) (x : Reel) : State :=
  { s with kernels := s.kernels.map (fun k => { k with
      reelsDue := k.reelsDue.filter (fun e => !(e.1 == x.ver && reelBase e.2 == x.addr)) }) }

/-- The answer to a reel read (R522 to R525): the lines of reel read `txn` with their POISON flags, or the Err that came instead. GW_INJ
KIND 1 answers it as REMOTE_ERR, KIND 2 times it out. An access waits until the whole reel of 1,024 lines is staged (R35): with fewer
lines the slot stays FETCHING. -/
def reelFetched (s : State) (txn : Nat) (lines : List (BitVec 512 × Bool)) (err : Option (BitVec 4)) : State :=
    match s.reels.find? (fun e => e.2.st == .fetching && e.2.txn == txn) with
    | none => s
    | some (k, x) =>
      match takeInj s (rGw 0x10) 2 (fun _ => true) with
      | some (_, t) => dropFetch (gwEvent t 0 x.addr) k x errFlushed 17
      | none =>
        let (err, s) := match takeInj s (rGw 0x10) 1 (fun _ => true) with
          | some (_, t) => (some (BitVec.ofNat 4 1), t)
          | none => (err, s)
        match err with
        | some e =>
          if e.toNat = errStale then dropFetch (gwEvent s 4 x.addr) k x errStale 13
          else dropFetch (gwEvent s 2 x.addr) k x e.toNat 17
        | none =>
          if lines.length ≠ 1024 then s else
          let dom := match x.waiting, x.kwait with
            | w :: _, _ => reqDom s w.2
            | [], e :: _ => some (winDom s e.1)
            | [], [] => none
          let s := pmc (putLines s (reelKey k x.addr) (lines.map (fun l => l.1))) 205 3 (64 * lines.length) dom
          let s := forEach ((List.range lines.length).zip lines) s (fun s l =>
            (if l.2.2 then setPoison else clrPoison) s (reelKey k x.addr + 64 * l.1))
          let n := s.reelStamp + 1
          let s := putReel { s with reelStamp := n } k { x with st := .clean, stamp := n, waiting := [], kwait := [] }
          let s := forEach x.waiting s (fun s w => gwServe false s w.1 w.2)
          drainMissq (reelStaged s x)

/-- The Cmp of a write-back frees the slot; a kernel whose outputs are all acknowledged completes (R195, R529). -/
def reelWbDone (s : State) (txn : Nat) : State :=
    match s.reels.find? (fun e => e.2.st == .writing && e.2.txn == txn) with
    | none => s
    | some (k, x) =>
      let dom := match x.win with
        | some w => winDom s w
        | none => 0
      let s := freeReel s k
      let s := if x.overflow then releaseFrames s dom 1 else s
      settleCpl (drainMissq s)

/-- The line of a GntData that answers a reel read: the reel is staged once all 1,024 have come (R523). -/
def reelLine (s : State) (h : Nat) (d : LineData) : State :=
  let i := hAddr h / 64 % 1024
  let parts := s.reelParts.filter (fun e => !(e.1 == hTxn h && e.2.1 == i)) ++ [(hTxn h, i, d, hPoison h)]
  let mine := parts.filter (fun e => e.1 == hTxn h)
  if mine.length < 1024 then { s with reelParts := parts }
  else reelFetched { s with reelParts := parts.filter (fun e => e.1 != hTxn h) } (hTxn h)
    ((List.range 1024).map (fun i => match mine.find? (fun e => e.2.1 == i) with
      | some e => (e.2.2.1, e.2.2.2)
      | none => (0, false))) none

/-- A response to a reel read or a write-back of the gateway: none when its TXN is of neither. -/
def reelAnswer (s : State) (h : Nat) (d : LineData) : Option State :=
  let op := hOpcode h
  if s.reels.any (fun e => e.2.st == .fetching && e.2.txn == hTxn h) then
    some (if op = 0x31 then reelLine s h d else if op = 0x27 then reelFetched s (hTxn h) [] (some (BitVec.ofNat 4 (hErr h))) else s)
  else if s.reels.any (fun e => e.2.st == .writing && e.2.txn == hTxn h) then some (if op = 0x26 then reelWbDone s (hTxn h) else s)
  else none

/-- An Err GRANT of another controller that answers a session freezes it (R573, R653). -/
def refusedSession (s : State) (src : Master) (bad : Bool) (err addr : Nat) : State :=
  match src with
  | .session _ => if bad ∧ err = errGrant then violate s src addr else s
  | _ => s

/-- The answer to a request of an agent of this controller reaches the agent (R505): its header, and the line of GntData. A Fetch has the
data sent (R211), and a Defer changes nothing. A line read for a kernel is kept until the kernel takes it; an Err to a kernel is its fault,
one to a completion record sets BADCPL (R375), and the answer to a forwarded request goes on to who sent it. -/
def agentAnswer (s : State) (p h : Nat) (d : LineData) : State :=
  let op := hOpcode h
  let addr := hAddr h
  match s.agentReqs.find? (fun r => r.port == p && r.txn == hTxn h && r.addr == addr / 64) with
  | none => if p = 40 then (reelAnswer s h d).getD s else s
  | some r =>
    if op = 0x24 then s
    else if op = 0x25 then
      match s.fabReqs.find? (fun f => f.agent == p && f.own == r.txn && f.addr / 64 == r.addr) with
      | some f => fromAgent s p (some f.port) (hDomain f.hdr)
          (msgBody (setTxn (f.hdr % 2 ^ 120 + 3 * 2 ^ 126 + 0x32 * 2 ^ 120) f.txn) (r.op == 5) r.mask r.data)
      | none => s
    else
      let s := { s with agentReqs := s.agentReqs.erase r }
      let bad := decide (op = 0x27)
      match r.who with
      | .kread w e => if bad then kernelFail s w e (errFault (hErr h)) addr
          else { s with farGot := s.farGot.filter (fun e => !(e.1 == w && e.2.1 == r.addr)) ++ [(w, r.addr, d, hPoison h)] }
      | .kwrite w e => if bad then kernelFail s w e (errFault (hErr h)) addr else s
      | .cpl dom => if bad then ldrEvent s 5 0 dom addr else s
      | .cover => if bad then s else coverAck s 0 (addr / 64 * 64)
      | .fwd src txn => answer (refusedSession s src bad (hErr h) addr) { op := op, txn := txn, dst := src, home := 0, addr := addr, state := hState h, poison := hPoison h, err := hErr h, data := d }
      | .agent => s

/-- An Err FLUSHED for the request of a header, sent to the agent or host at a switch port (R517): one for a port that is down itself is
discarded and counted. -/
def errFlush (s : State) (port h : Nat) : State :=
  if 16 ≤ port then agentAnswer (send s (.fab port [flushedHdr h])) port (flushedHdr h) 0
  else if fabState s port = 5 ∨ fabState s port = 6 then agentCell s 41 [(port, 0)] (hDomain h) [flushedHdr h]
  else incCnt (incCnt s (rSw 0x30)) (rFab port 0x38)

/-- A home learns that a message to a host cannot be delivered (R243): one of this controller, or the home of a peer that sent it
(R517; assumption 213 names the message). -/
def undeliverable (s : State) (ctrl n addr : Nat) : State :=
  if ctrl ≠ ownCtrl s then send s (.peer ctrl addr [0x5C, n] 0)
  else
    let off := addr % 2 ^ 50
    let h := homeOf off
    settleAll (fenceHost (haEvent s h 6 none (globalAddr s off) n) h n (globalAddr s off))

/-- Flush one cell at output `o`: requests are answered with Err FLUSHED, snoops and Fetches are undeliverable, the rest is
discarded, and so is a mirror copy, which is no traffic. -/
def flushCell (s : State) (o : Nat) (c : Cell) : State :=
  let s := incCnt s (rSw 0x30)
  let s := if o < 16 then incCnt s (rFab o 0x38) else s
  forEach (if c.mirror then [] else messages msgSlots 15 c.slots) s (fun s m =>
    match m with
    | [] => s
    | h :: _ =>
      if hClass h = 0 then errFlush s c.inp h
      else if hClass h = 1 ∨ hOpcode h = 0x25 then undeliverable s (hCtrl h) (hHost h) (hAddr h)
      else s)

/-- Flush switch port `o` in one step (R517, R520). -/
def portFlush (s : State) (o : Nat) : State :=
  let mine := (s.cells ++ s.agentq).filter (fun c => c.outs.any (fun t => t.1 == o))
  let left := fun (l : List Cell) => (l.map (fun c => { c with outs := c.outs.filter (fun t => t.1 != o) })).filter (fun c => c.outs != [])
  let s := { s with cells := left s.cells, agentq := left s.agentq }
  let s := forEach mine s (fun s c => forEach (c.outs.filter (fun t => t.1 == o)) s (fun s t => flushCell s o { c with slots := if c.mirror then c.slots else (targetMsgs c t.2).flatten }))
  let reqs := s.fabReqs.filter (fun r => r.port == o)
  let s := { s with fabReqs := s.fabReqs.filter (fun r => r.port != o) }
  let s := forEach reqs s (fun s r => errFlush s r.agent r.hdr)
  let hosts := (List.range 64).filter (fun n => hostValid s n && regFld s (rCohHost n) 15 8 == o)
  let s := forEach hosts s (fun s n =>
    forEach ((s.trk.filter (fun t => t.wait.contains n && t.phase != .cmpAck)).map (fun t => t.req.off)) s (fun s off => undeliverable s (ownCtrl s) n off))
  swEvent s 2 0 o

/-- A fabric port goes DOWN: it is flushed, and its replay and receive buffers are discarded (R517). `own` says that this is the
port's own reset, which collects a dump first (R618); otherwise the reset of an enclosing domain causes it (R604). -/
def portFall (own : Bool) (s : State) (p : Nat) : State :=
  if fabState s p = 7 ∨ fabState s p = 0 then s
  else
    let s := fabEvent s p 4 none (if own then 5 else 0)
    let s := setFabState (if own then collectDump s 9 p 5 0 else s) p 7
    let x := linkOf s p
    let s := putLink { s with credHeld := s.credHeld.filter (fun e => e.1 != p) } p { ({} : Link) with fails := x.fails, retrains := x.retrains }
    let s := regPut (regPut s (rFab p 8) 37 27 0) (rFab p 8) 11 4 0
    portFlush s p

/-- A fabric port goes DOWN by itself. -/
def portDown (s : State) (p : Nat) : State := portFall true s p

/-- An event of command port `e`: ETH_ERR_e bit `b`, a count, and the LINK log. -/
def ethEvent (s : State) (e b : Nat) (cnt : Option Nat) (action : Nat := 0) : State :=
  let s := setBit s (rEth e 8) b
  let s := match cnt with
    | some k => incCnt s (rEth e k)
    | none => s
  logErr s { cls := 5, code := b, kind := 10, unit := 16 + e, action := action }

/-- ETH_STAT_e.LINK. -/
def ethLink (s : State) (e : Nat) : Bool := regBit s (rEth e 0) 0

/-- A command port loses its link (R562): it goes down as a switch port; the sessions live on. `own` says that this is the port's own
event, which collects a dump first (R618); otherwise the reset of an enclosing domain causes it. -/
def ethFall (own : Bool) (s : State) (e : Nat) : State :=
  if !ethLink s e then s
  else
    let s := ethEvent s e 0 none (if own then 5 else 0)
    let s := if own then collectDump s 10 (16 + e) 5 0 else s
    let s := clrBit (clrBit s (rEth e 0) 0) (rEth e 0) 1
    let s := { s with paused := s.paused.filter (fun k => k / 8 != e), xoff := s.xoff.filter (fun k => k / 8 != e),
                       pfcQ := s.pfcQ.filter (fun q => q.1 != e) }
    portFlush s (16 + e)
def ethDown (s : State) (e : Nat) : State := ethFall true s e

/-- Is switch port `p`, a fabric port or a command port, in service (R598)? -/
def portServes (s : State) (p : Nat) : Bool := regBit s (rRecov 0xD8) (if p < 16 then p else 32 + p)

/-- A bound fabric port trains from DETECT; one that is out of service stays DOWN until its return (R598). -/
def fabStart (s : State) (p : Nat) : State := setFabState s p (if fabKind s p = 0 then 0 else if portServes s p then 1 else 7)

/-- Start a retrain of an ACTIVE port; the fourth within 1.6 × 10⁹ switch cycles takes it DOWN instead (R510). -/
def startRetrain (s : State) (p : Nat) : State :=
  if fabState s p ≠ 5 then s
  else
    let (n, s) := drawFree s
    let x := linkOf s p
    let old := x.retrains.reverse.take 3
    let fourth := match old with
      | [_, _, c] => within c n 1600000000
      | _ => false
    let s := fabEvent (putLink s p { x with retrains := old.reverse ++ [n], replay := x.replay.map (fun e => (e.1, 0, e.2.2)), resends := [] }) p 5 (some 0x30)
    if fourth then portDown s p else setFabState s p 6

/-- Resend as a NAK asks (R508), and retrain when one flit has gone again eight times or 256 flits within 1,048,576 switch cycles
(R510). -/
def resend (s : State) (p : Nat) : State :=
  if (linkOf s p).replay = [] then s
  else
    let s := resendAll s p
    let x := linkOf s p
    let many := match x.resends.head?, x.resends.getLast? with
      | some a, some b => decide (257 ≤ x.resends.length) && within a b 1048576
      | _, _ => false
    if x.replay.any (fun e => decide (8 ≤ e.2.1)) then startRetrain (fabEvent s p 3 none) p
    else if many then startRetrain s p
    else s

/-! Training (R493 to R499). -/

/-- A training fails (R499): the first three times the port trains again at once. -/
def trainFail (s : State) (p : Nat) : State :=
  let x := linkOf s p
  let s := fabEvent (putLink s p { x with fails := x.fails + 1 }) p 0 none
  if x.fails < 3 then setFabState s p 1 else portDown s p

/-- PORT_DETECT. -/
def doPortDetect (port : Fin 16) (s : State) : State :=
  whenRunning s fun s => if fabState s port.val = 1 then setFabState s port.val 2 else s

/-- EQUALIZE_DONE: `converged` is the mask of lanes that adapted; the others are bad. -/
def doEqualizeDone (port : Fin 16) (converged : BitVec 4) (s : State) : State :=
  whenRunning s fun s =>
    let p := port.val
    if fabState s p ≠ 2 then s
    else if converged.toNat = 0 then trainFail s p
    else setFabState (putLink s p { linkOf s p with conv := converged.toNat }) p 3

/-- The lanes and the width that both ends use (R495). -/
def chooseLanes (good : Nat) : Nat × Nat :=
  if good = 15 then (15, 4)
  else if good.testBit 0 && good.testBit 1 then (3, 2)
  else if good.testBit 2 && good.testBit 3 then (12, 2)
  else match (List.range 4).find? (fun i => good.testBit i) with
    | some i => (2 ^ i, 1)
    | none => (0, 0)

/-- Take the lane that FAB_INJ_p KIND 3 fails. -/
def laneFault (s : State) (p good : Nat) : Nat × State :=
  match takeInj s (rFab p 0x18) 3 (fun _ => true) with
  | some (l, t) => (if good.testBit l then good - 2 ^ l else good, t)
  | none => (good, s)

/-- Settle a port's lanes and width. -/
def setLanes (s : State) (p good : Nat) : State :=
  let (m, w) := chooseLanes good
  let s := regPut (regPut s (rFab p 8) 11 8 m) (rFab p 8) 6 4 w
  let s := if w < 4 then fabEvent s p 6 none else s
  if w < 4 ∧ rcMode s = true then swEvent s 4 0 p else s

/-- A mask of physical lanes as logical lanes of a reversed set: lane 0 meets lane 3 and lane 1 meets lane 2 (R494). -/
def swapLanes (m : Nat) : Nat := (List.range 4).foldl (fun n i => if m.testBit (3 - i) then n + 2 ^ i else n) 0

/-- ALIGN_DONE (R494, R495): where each logical lane arrived, and the far end's mask of good lanes;
the port reports its own. -/
def doAlignDone (port : Fin 16) (order : List (Fin 4)) (far : BitVec 4) (s : State) : State :=
  whenRunning s fun s =>
    let p := port.val
    if fabState s p ≠ 3 then s
    else
      let hit := fun (f : Nat → Nat) => (List.range 4).foldl (fun m i =>
        if (order[i]?).map (fun x => x.val) = some (f i) then m + 2 ^ i else m) 0
      let straight := hit id
      let reversed := hit (fun i => 3 - i)
      let rev := decide ((List.range 4).countP (fun i => straight.testBit i) < (List.range 4).countP (fun i => reversed.testBit i))
      let conv := (linkOf s p).conv
      let own := if rev then reversed &&& swapLanes conv else straight &&& conv
      let (own, s) := laneFault s p own
      let s := send s (.train p [own])
      let good := own &&& far.toNat
      let s := regPut s (rFab p 8) 7 7 (if rev then 1 else 0)
      if good = 0 then trainFail s p else setFabState (setLanes s p good) p 4

/-- The receive buffer's slots by channel and class (R512, R550). -/
def recvSlots (s : State) (p : Nat) : List (Nat × Nat) :=
  let size := [2048, 512, 512, 3072]
  let cs := if rcMode s then rcClasses s p else [0]
  (List.range 4).flatMap (fun v => cs.map (fun c => (16 * v + c, nth size v / max 1 cs.length)))

/-- CONFIG_DONE (R496, R497): the far end's identity and the credits it grants; the port sends its own controller number and credits. -/
def doConfigDone (port : Fin 16) (isHost : Bool) (far : BitVec 10) (credits : List (BitVec 6 × BitVec 12)) (s : State) : State :=
  whenRunning s fun s =>
    let p := port.val
    if fabState s p ≠ 4 ∨ regFld s rAddrSelf 9 4 = 63 then s
    else
      let s := send s (.train p (ownCtrl s :: (recvSlots s p).flatMap (fun e => [e.1, e.2])))
      let s := regPut (regPut s (rFab p 8) 37 28 far.toNat) (rFab p 8) 27 27 (if isHost then 1 else 0)
      let ok := match fabKind s p with
        | 1 => !isHost && regFld s (rFab p 0) 61 52 == far.toNat
        | 2 => isHost && regFld s (rFab p 0) 51 46 == far.toNat
        | 3 => !isHost
        | _ => false
      if ok then
        setFabState (putLink s p { ({} : Link) with
          crd := credits.map (fun c => (c.1.toNat, c.2.toNat)), crd0 := credits.map (fun c => (c.1.toNat, c.2.toNat)),
          share := credits.map (fun c => (c.1.toNat, c.2.toNat)), grant := recvSlots s p, conv := (linkOf s p).conv }) p 5
      else fabEvent s p 7 none

/-- RETRAIN_DONE (R511): the lanes that passed the check here and at the far end, to which the port reports its own (R495); the port
resumes from ACK + 1, and what it sends again counts toward the limits of R510. -/
def doRetrainDone (port : Fin 16) (good far : BitVec 4) (s : State) : State :=
  whenRunning s fun s =>
    let p := port.val
    if fabState s p ≠ 6 then s
    else
      let (g, s) := laneFault s p good.toNat
      let s := send s (.train p [g])
      let g := g &&& far.toNat
      if g = 0 then portDown s p else resend (setFabState (setLanes s p g) p 5) p

/-- RETRAIN_TIMEOUT (R493). -/
def doRetrainTimeout (port : Fin 16) (s : State) : State :=
  whenRunning s fun s => if fabState s port.val = 6 then portDown s port.val else s

/-- TRAIN_RETRY_TIMER (R499): a bound port that is in service (R598) tries again. -/
def doTrainRetryTimer (port : Fin 16) (s : State) : State :=
  whenRunning s fun s => if fabState s port.val = 7 ∧ fabKind s port.val ≠ 0 ∧ portServes s port.val = true then setFabState s port.val 1 else s

/-! Receiving flits (R501, R506 to R509). -/

/-- The link header of a flit, as R500 lays it out. -/
structure FlitHdr where
  type : Nat
  seq : Nat
  ack : Nat
  nak : Bool
  vc : Nat
  rc : Nat
  ret : Nat
  used : Nat
  rsv : Nat
  deriving DecidableEq, Repr

def flitHdr (h : BitVec 64) : FlitHdr :=
  let n := h.toNat
  ⟨bits n 63 60, bits n 59 48, bits n 47 36, n.testBit 35, bits n 34 32, bits n 31 28, bits n 27 16, bits n 15 12, bits n 11 0⟩

/-- Note a flit that the receiver will not take: a NAK goes out once (R507). -/
def askAgain (s : State) (p : Nat) : State :=
  let x := linkOf s p
  if x.nak then s else emitIdle (putLink s p { x with nak := true }) p true noCrd

/-- The unacknowledged flits after an ACK. -/
def unacked (l : List (Nat × Nat × List Nat)) (ack : Nat) : List (Nat × Nat × List Nat) :=
  match l.findIdx? (fun e => e.1 == ack) with
  | some i => l.drop (i + 1)
  | none => l

/-- Slots of channel and class `k` come back: what the class has used beyond its share is paid first (assumption 236). -/
def creditBack (have_ owe : List (Nat × Nat)) (k n : Nat) : List (Nat × Nat) × List (Nat × Nat) :=
  let o := Sparse.get owe k 0
  (Sparse.ins have_ k (Sparse.get have_ k 0 + (n - o)), if o = 0 then owe else Sparse.ins owe k (o - n))

/-- What every good flit brings: its ACK, its credits and its NAK. -/
def takeHeader (s : State) (p : Nat) (h : FlitHdr) : State :=
  let x := linkOf s p
  let (crd, owe) := if h.vc < 4 then creditBack x.crd x.oweTx (16 * h.vc + h.rc) h.ret else (x.crd, x.oweTx)
  let s := putLink s p { x with replay := unacked x.replay h.ack, crd := crd, oweTx := owe, got := x.got + 1 }
  let s := if h.nak then resend s p else s
  if fabState s p = 5 then drainControl 16 s p else s

/-- An ACK goes back at least every 32 flits received (R509). -/
def ackDue (s : State) (p : Nat) : State := if 32 ≤ (linkOf s p).got ∧ fabState s p = 5 then emitIdle s p false noCrd else s

/-- A flit that uses slots beyond the sender's credits (R513): the port retrains, and its credits restart from CONFIG. -/
def creditError (s : State) (p : Nat) : State :=
  let x := linkOf s p
  startRetrain (putLink (fabEvent s p 2 none) p { x with crd := x.share, grant := recvSlots s p, oweTx := [], oweRx := [] }) p

/-- A received flit: whether it is taken, which for PAYLOAD and CONTROL means good and next in order. One that follows a gap is asked
for again; one that has been taken before is discarded (R507). `beyond` says that it uses slots beyond the sender's credits: it is not
acknowledged, so that it comes again and no message is lost (R511, R513). -/
def rxFlit (s : State) (p : Nat) (h : FlitHdr) (crcOk beyond : Bool) : Bool × State :=
  let s := pmc s (186 + p) 1 1 none
  let (inj, s) := match takeInj s (rFab p 0x18) 2 (fun _ => true) with
    | some (_, t) => (true, t)
    | none => (false, s)
  if inj || !crcOk || decide (2 < h.type) || h.rsv != 0 then (false, askAgain (fabEvent s p 1 (some 0x20)) p)
  else
    let x := linkOf s p
    let gap := (h.seq + 8191 - x.rx) % 4096
    let next := decide (h.type ≠ 0) && gap == 0
    let s := if next && !beyond then putLink s p { x with rx := h.seq, nak := false } else s
    let s := takeHeader s p h
    if h.type = 0 then (true, ackDue s p)
    else if next then (if beyond then (false, creditError s p) else (true, ackDue s p))
    else (false, ackDue (if gap < 2048 then askAgain s p else s) p)

/-- Does a response go to the requester, and not to the home (R211)? -/
def toRequester (op : Nat) : Bool := (decide (0x24 ≤ op) && decide (op ≤ 0x28)) || op == 0x31

/-- The output that a message toward controller `c` of the box takes by its line, and of another box. -/
def toCtrl (s : State) (c h : Nat) : Option Nat :=
  if c / 16 = regFld s rAddrSelf 9 4 then rankPort (portsTo s 1 c) (hAddr h) else some 40

/-- The output that a message received on port `p` goes to (R488, R489): a response to the agent or to the host that its request came
from. -/
def msgOut (s : State) (p h : Nat) : Option Nat :=
  let c := hAddr h / 2 ^ 50
  if hClass h = 0 then
    if hGw h then some 40
    else if c = ownCtrl s then some (agentPort (hAddr h % 2 ^ 50))
    else toCtrl s c h
  else if hClass h = 1 then some (regFld s (rCohHost (hHost h)) 15 8)
  else if toRequester (hOpcode h) then
    let src := bits h 22 13
    if h.testBit 4 then (s.fabReqs.find? (fun r => r.port == p && r.txn == hTxn h)).map (fun r => r.agent)
    else if src = ownCtrl s then some (regFld s (rCohHost (hHost h)) 15 8)
    else toCtrl s src h
  else if hCtrl h = ownCtrl s then some (18 + hHome h)
  else toCtrl s (hCtrl h) h

/-- The domain of a message that arrives on port `p` (R490). -/
def msgDom (s : State) (p h : Nat) : Nat :=
  if fabKind s p = 2 then regFld s (rCohHost (regFld s (rFab p 0) 51 46)) 23 16 else hDomain h

/-- A write to FAB_INJ_p (R556). -/
def fabInj (kind : Nat) (port : Fin 16) (arg : Nat) (s : State) : State :=
  whenRunning s fun s => armInj s (rFab port.val 0x18) kind arg false
def doFabInjCrc (port : Fin 16) (s : State) : State := fabInj 1 port 0 s
def doFabInjBadRx (port : Fin 16) (s : State) : State := fabInj 2 port 0 s
def doFabInjLaneFail (port : Fin 16) (lane : Fin 4) (s : State) : State := fabInj 3 port lane.val s
def doFabInjRetrain (port : Fin 16) (s : State) : State := whenRunning s fun s => startRetrain s port.val
def doFabInjDown (port : Fin 16) (s : State) : State := whenRunning s fun s => portDown s port.val

/-- FLIT_IDLE (R502): its ACK and credits; it is never resent. -/
def doFlitIdle (port : Fin 16) (hdr : BitVec 64) (crcOk : Bool) (s : State) : State :=
  whenRunning s fun s => if fabState s port.val = 5 then (rxFlit s port.val (flitHdr hdr) crcOk false).2 else s

/-- ACK_TIMER (R509). -/
def doAckTimer (port : Fin 16) (s : State) : State :=
  whenRunning s fun s => if fabState s port.val = 5 ∧ 0 < (linkOf s port.val).got then emitIdle s port.val false noCrd else s

/-- RESEND_TIMEOUT (R509). -/
def doResendTimeout (port : Fin 16) (s : State) : State :=
  whenRunning s fun s => if fabState s port.val = 5 then resend s port.val else s

/-- A response to a request that went out of a port ends it (R505): a Defer or a Fetch does not, and a reel read has 1,024 lines (R523). -/
def reqAnswered (s : State) (r : FabReq) (op : Nat) : State :=
  if op = 0x24 ∨ op = 0x25 then s
  else if op = 0x31 ∧ 1 < r.left then { s with fabReqs := s.fabReqs.map (fun x => if x = r then { r with left := r.left - 1 } else x) }
  else { s with fabReqs := s.fabReqs.erase r }

/-- GRANT_RESPONSE (R505): a response to a request that a controller agent sent out of the port goes back to it; the low four bits of the
data of an Err are its ERR. The lines of a reel come in rising order. -/
def doGrantResponse (port : Fin 16) (txn : BitVec 12) (opcode : BitVec 6) (data : LineData) (s : State) : State :=
  whenRunning s fun s =>
    match s.fabReqs.find? (fun r => r.port == port.val && r.txn == txn.toNat) with
    | none => s
    | some r =>
      let a := if hOpcode r.hdr = 4 ∧ hGw r.hdr = true then r.addr + 64 * (1024 - r.left) else r.addr
      let h := respHdr s opcode.toNat r.own (ownCtrl s) a (if opcode.toNat = 0x27 then data.toNat % 16 else 0) false false
      agentAnswer (send (reqAnswered s r opcode.toNat) (.fab r.agent [2, opcode.toNat, r.own, a, data.toNat])) r.agent h data

-- EXEC
def execPortDetect (port : Fin 16) (s : State) : Host.Outcome State Fault Refusal := .next (doPortDetect port s)
def execEqualizeDone (port : Fin 16) (converged : BitVec 4) (s : State) : Host.Outcome State Fault Refusal :=
  .next (doEqualizeDone port converged s)
def execAlignDone (port : Fin 16) (order : List (Fin 4)) (far : BitVec 4) (s : State) : Host.Outcome State Fault Refusal :=
  .next (doAlignDone port order far s)
def execConfigDone (port : Fin 16) (isHost : Bool) (far : BitVec 10) (credits : List (BitVec 6 × BitVec 12)) (s : State) :
    Host.Outcome State Fault Refusal :=
  .next (doConfigDone port isHost far credits s)
def execRetrainDone (port : Fin 16) (lanes : LaneMasks) (s : State) : Host.Outcome State Fault Refusal :=
  .next (doRetrainDone port lanes.good lanes.far s)
def execRetrainTimeout (port : Fin 16) (s : State) : Host.Outcome State Fault Refusal := .next (doRetrainTimeout port s)
def execTrainRetryTimer (port : Fin 16) (s : State) : Host.Outcome State Fault Refusal := .next (doTrainRetryTimer port s)
def execFlitIdle (port : Fin 16) (hdr : BitVec 64) (crcOk : Bool) (s : State) : Host.Outcome State Fault Refusal :=
  .next (doFlitIdle port hdr crcOk s)
def execAckTimer (port : Fin 16) (s : State) : Host.Outcome State Fault Refusal := .next (doAckTimer port s)
def execResendTimeout (port : Fin 16) (s : State) : Host.Outcome State Fault Refusal := .next (doResendTimeout port s)
def execGrantResponse (port : Fin 16) (txn : BitVec 12) (opcode : BitVec 6) (data : BitVec 512) (s : State) :
    Host.Outcome State Fault Refusal :=
  .next (doGrantResponse port txn opcode data s)
def execFabInjCrc (port : Fin 16) (s : State) : Host.Outcome State Fault Refusal := .next (doFabInjCrc port s)
def execFabInjBadRx (port : Fin 16) (s : State) : Host.Outcome State Fault Refusal := .next (doFabInjBadRx port s)
def execFabInjLaneFail (port : Fin 16) (lane : Fin 4) (s : State) : Host.Outcome State Fault Refusal :=
  .next (doFabInjLaneFail port lane s)
def execFabInjRetrain (port : Fin 16) (s : State) : Host.Outcome State Fault Refusal := .next (doFabInjRetrain port s)
def execFabInjDown (port : Fin 16) (s : State) : Host.Outcome State Fault Refusal := .next (doFabInjDown port s)

end Sys2Proof.Machine
end

