-- ==== Sys2Proof/Machine/Switch.lean ====
section
/-! DEFINITION. Machine/Switch.lean: the switch core: cells, the scheduler, mirroring, epochs and its reset; and the gateway's
reels (R521 to R556). -/

namespace Sys2Proof.Machine

/-! Mirror copies (R545, R546, R727). -/

/-- A cell's header as 128 bits (R534), toward output `o`; a multicast cell names its group instead. -/
def cellHdr (c : Cell) (o : Nat) (mirror : Bool) : Nat :=
  c.inp * 2 ^ 122 + (match c.grp with | some g => 2 ^ 115 + g % 1024 * 2 ^ 105 | none => o * 2 ^ 116) + c.cls * 2 ^ 103 + c.rc * 2 ^ 99 + c.dom % 256 * 2 ^ 91 + c.slots.length * 2 ^ 87
    + (if mirror then 2 ^ 86 else 0)

/-- A mirror copy of a cell goes to the mirror pool for port 41, or is dropped when the pool is full (R546). -/
def mirrorCopy (s : State) (c : Cell) (o : Nat) : State :=
  let full := decide (256 ≤ (s.cells.filter (fun x => x.mirror)).length)
  let (inj, s) := match takeInj s (rSw 0x18) 3 (fun _ => true) with
    | some (_, t) => (true, t)
    | none => (false, s)
  if full || inj then swEvent (incCnt s (rSw 0x28)) 3
  else
    let s := pmc s 204 3 1 (some c.dom)
    { s with cells := s.cells ++ [{ c with outs := [(41, 0)], slots := (cellHdr c o true :: c.slots).take 8, mirror := true, ready := true, resv := false, age := 0 }] }

/-- Count a cell that crosses switch port `p` in a direction (`leaving`) on its way to output `o`, and copy one in every N (R545). -/
def mirrorCross (s : State) (c : Cell) (p o : Nat) (leaving : Bool) : State :=
  let n := regFld s (rSw 0x20) 39 24
  if c.mirror || !regBit s (rSw 0x20) 63 || regBit s (rSw 0x20) 62 != leaving || regFld s (rSw 0x20) 61 56 != p || n == 0 then s
  else if s.mirCnt + 1 < n then { s with mirCnt := s.mirCnt + 1 }
  else mirrorCopy { s with mirCnt := 0 } c o

/-- Write SW_MIRROR (R545). -/
def mirrorWrite (s : State) (value : BitVec 64) : State :=
  let rise := value.toNat.testBit 63 && !regBit s (rSw 0x20) 63
  let s := regSet s (rSw 0x20) (BitVec.ofNat 64 (value.toNat &&& 0xFF0000FFFF000000))
  if rise then { s with mirCnt := 0 } else s

/-- SW_MIRROR_WRITE (R545): the count starts when EN is set. -/
def doSwMirrorWrite (value : BitVec 64) (s : State) : State := whenRunning s fun s => mirrorWrite s value

/-! Cells enter (R535 to R537). -/

/-- A cell that its input has packed is sent: it may be mirrored (R535, R545). -/
def cellSent (s : State) (c : Cell) : State :=
  if c.ready then mirrorCross s c c.inp ((c.outs.head?.map (fun t => t.1)).getD 0) false else s

/-- Put a cell into the buffer, or merge it into the partly filled cell of its input, output and class (R535). -/
def enterCell (s : State) (c : Cell) : Option State :=
  match s.cells.find? (fun x => !x.ready && x.inp == c.inp && x.outs == c.outs && x.cls == c.cls && x.rc == c.rc && x.dom == c.dom
      && x.grp == c.grp && decide (x.slots.length + c.slots.length ≤ 15)) with
  | some x =>
    let y := { x with slots := x.slots ++ c.slots, ready := decide (15 ≤ x.slots.length + c.slots.length) }
    some (cellSent { s with cells := s.cells.map (fun z => if z = x then y else z) } y)
  | none =>
    match placeCell s c with
    | some y =>
      let y := { y with ready := decide (15 ≤ c.slots.length) }
      let s := pmc (pmc s 204 0 1 (some c.dom)) 204 5 (if y.resv then 1 else 0) (some c.dom)
      let s := pmc s 204 2 (if c.grp.isSome then 1 else 0) (some c.dom)
      some (cellSent { s with cells := s.cells ++ [y] } y)
    | none => none

/-- The messages of the controller's own agents enter the switch core, as far as it takes them, in the order of each input, class and
reservation class (R537): `held` are those queues that wait. -/
def drainQueue (q : List Cell) (held : List (Nat × Nat × Nat)) (s : State) : State :=
  match q with
  | [] => s
  | c :: rest =>
    let k := (c.inp, c.cls, c.rc)
    match (if held.contains k then none else enterCell s c) with
    | some t => drainQueue rest held t
    | none => drainQueue rest (k :: held) { s with agentq := s.agentq ++ [c] }
def drainAgents (s : State) : State := drainQueue s.agentq [] { s with agentq := [] }

/-- Return the credits of a message that has left a fabric port's receive buffer (R513), to the class that it had when it came. -/
def returnCredit (s : State) (p cls rc n : Nat) : State :=
  let x := linkOf s p
  let (grant, owe) := creditBack x.grant x.oweRx (16 * cls + rc) n
  emitIdle (putLink s p { x with grant := grant, oweRx := owe }) p false (cls, rc, n)

/-- Does home `h` keep back REQ credits: in blocking mode, while its tracker is full (R231)? -/
def creditsHeld (s : State) (h : Nat) : Bool := blocking s && !trkRoom s h

/-- Return a received cell's credits, or keep back those of a request that goes to a home which keeps them back (R231). -/
def giveCredit (s : State) (p : Nat) (c : Cell) : State :=
  match (if c.cls = 0 then c.outs.find? (fun t => decide (18 ≤ t.1) && decide (t.1 < 26) && creditsHeld s (t.1 - 18)) else none) with
  | some t => { s with credHeld := s.credHeld ++ [(p, t.1 - 18, c.cls, c.rc, c.slots.length)] }
  | none => returnCredit s p c.cls c.rc c.slots.length

/-- Return the credits whose home has a tracker entry free again (R231); a port in RETRAIN keeps them until it is ACTIVE (R511). -/
def freeCredits (s : State) : State :=
  let wait := fun (e : Nat × Nat × Nat × Nat × Nat) => creditsHeld s e.2.1 || fabState s e.1 == 6
  forEach (s.credHeld.filter (fun e => !wait e)) { s with credHeld := s.credHeld.filter wait } (fun s e =>
    if fabState s e.1 = 5 then returnCredit s e.1 e.2.2.1 e.2.2.2.1 e.2.2.2.2 else s)

/-- The first of a port's waiting messages that enters the switch core, with the state after: those of one channel and reservation
class enter in order, and none waits for another channel (R514). -/
def firstEntry (s : State) (q : List Cell) : Option (Cell × State) :=
  q.findSome? (fun c => if q.find? (fun x => x.cls == c.cls && x.rc == c.rc) == some c then (enterCell s c).map (fun t => (c, t)) else none)

/-- Move the messages that wait at a fabric port into the switch core, as far as it takes them. -/
def drainPort (fuel : Nat) (s : State) (p : Nat) : State :=
  match fuel with
  | 0 => s
  | k + 1 =>
    match firstEntry s (linkOf s p).rxq with
    | none => s
    | some (c, t) => drainPort k (giveCredit (putLink t p { linkOf t p with rxq := (linkOf t p).rxq.erase c }) p c) p

/-- An Err GRANT of another controller that reaches the binding controller of the host it answers freezes that host (R653). -/
def refusedHost (s : State) (p h : Nat) : State :=
  if fabKind s p ≠ 2 ∧ hOpcode h = 0x27 ∧ bits h 26 23 = 2 ∧ h.testBit 4 = false ∧ bits h 22 13 = ownCtrl s then
    violate s (.host (Fin.ofNat 64 (hHost h))) (hAddr h)
  else s

/-- The header of a request that arrives on a HOST port: it is the bound host's, behind this controller and in that host's domain, whatever
it says (R490, R503). -/
def boundHdr (s : State) (p h : Nat) : Nat :=
  if fabKind s p = 2 ∧ hClass h = 0 then
    h - hHost h * 2 ^ 102 - hDomain h * 2 ^ 5 - hSrc h * 2 ^ 13 - bits h 4 4 * 2 ^ 4
      + regFld s (rFab p 0) 51 46 * 2 ^ 102 + msgDom s p h * 2 ^ 5 + ownCtrl s * 2 ^ 13
  else h

/-- The channel and reservation class of a message that arrives on port `p`, as its credits count them. -/
def credKey (s : State) (p h : Nat) : Nat := 16 * hClass h + rclass s (msgDom s p h)

/-- Do a flit's messages use slots beyond the credits that the port granted (R513)? -/
def overCredit (s : State) (p : Nat) (ms : List (List Nat)) : Bool :=
  let used := fun (k : Nat) => ((ms.filter (fun m => m.head?.map (credKey s p) == some k)).map (fun m => m.length)).sum
  ms.any (fun m => match m.head? with
    | some h => decide (Sparse.get (linkOf s p).grant (credKey s p h) 0 < used (credKey s p h))
    | none => false)

/-- Note a host's write that goes on to another controller, and forget it when its answer comes back (R504). -/
def noteWrite (s : State) (p h : Nat) : State :=
  let op := hOpcode h
  let drop := fun (k : Nat) => s.fwdWrites.filter (fun e => e.1 != k)
  if hClass h = 0 ∧ h.testBit 4 = false ∧ hAddr h / 2 ^ 50 ≠ ownCtrl s ∧ 5 ≤ op ∧ op ≤ 7 then
    { s with fwdWrites := drop (fwdKey p h) ++ [(fwdKey p h, op == 5)] }
  else if (op = 0x26 ∨ op = 0x27) ∧ h.testBit 4 = false ∧ hSrc h = ownCtrl s then
    { s with fwdWrites := drop (fwdKey (regFld s (rCohHost (hHost h)) 15 8) h) }
  else s

/-- Take one received message: it uses credits of its channel, and goes to the agent or port that it names; one for a port that is not
up is flushed (R517, R518), and its credits go back. A response to a request of a controller agent goes to it under that agent's own TXN
(R505). -/
def takeMessage (s : State) (p : Nat) (m : List Nat) : State :=
  match m with
  | [] => s
  | h0 :: tl =>
    let h := boundHdr s p h0
    let dom := msgDom s p h0
    let rc := rclass s dom
    let k := credKey s p h0
    let x := linkOf s p
    let s := pmc (putLink s p { x with grant := Sparse.ins x.grant k (Sparse.get x.grant k 0 - m.length) }) (186 + p) 4 m.length (some dom)
    let s := noteWrite (refusedHost s p h) p h
    let req := if toRequester (hOpcode h) && h.testBit 4 then s.fabReqs.find? (fun r => r.port == p && r.txn == hTxn h) else none
    let h' := match req with
      | some r => setTxn h r.own
      | none => h
    let c := fun (o : Nat) => ({ inp := p, outs := [(o, 0)], cls := hClass h, rc := rc, dom := dom, slots := h' :: tl, ready := false } : Cell)
    match msgOut s p h with
    | none => returnCredit (if hClass h = 0 then errFlush s p h else flushCell s 42 (c 42)) p (hClass h) rc m.length
    | some o =>
      let s := match req with
        | some r => reqAnswered s r (hOpcode h)
        | none => s
      if o < 16 ∧ fabState s o ≠ 5 ∧ fabState s o ≠ 6 then returnCredit (flushCell s o (c o)) p (hClass h) rc m.length
      else putLink s p { linkOf s p with rxq := (linkOf s p).rxq ++ [c o] }

/-- FLIT_PAYLOAD (R507, R513, R535): a flit taken in order gives its messages to the switch core. -/
def doFlitPayload (port : Fin 16) (hdr : BitVec 64) (slots : List (BitVec 128)) (crcOk : Bool) (s : State) : State :=
  whenRunning s fun s =>
    let p := port.val
    if fabState s p ≠ 5 then s
    else
      let h := flitHdr hdr
      let ms := messages (rxSlots s p) 15 ((slots.map BitVec.toNat).take h.used)
      let (ok, s) := rxFlit s p h crcOk (h.type == 1 && overCredit s p ms)
      if !ok || h.type != 1 then s
      else
        let s := forEach ms s (fun s m => if fabState s p = 5 ∨ fabState s p = 6 then takeMessage s p m else s)
        drainPort 64 s p

/-- CELL_PACK_TIMEOUT (R535): the partly filled cells of an input are sent. -/
def doCellPackTimeout (inp : Fin 42) (s : State) : State :=
  whenRunning s fun s =>
    let due := s.cells.filter (fun c => c.inp == inp.val && !c.mirror && !c.ready)
    let s := { s with cells := s.cells.map (fun c => if c.inp = inp.val then { c with ready := true } else c) }
    forEach due s (fun s c => cellSent s { c with ready := true })

/-! The scheduler (R538, R539, R547, R548). -/

/-- The budget of an output and class for this epoch, scaled to the port's width (R551). -/
def budgetOf (s : State) (o c : Nat) : Nat :=
  let b := bits (liveReg s (rBudget o c)).toNat 16 0
  if o < 16 then
    (let w := regFld s (rFab o 8) 6 4
     if w = 2 then b / 2 else if w = 1 then b / 4 else b)
  else b

/-- The requests that a cell would send from a controller agent out of a fabric port (R505): its REQ headers of SRC_KIND 1. -/
def agentReqs (c : Cell) : List (List Nat) :=
  if c.cls = 0 then (messages msgSlots 15 c.slots).filter (fun m => match m with
    | h :: _ => h.testBit 4
    | [] => false) else []

/-- The input whose queues hold a cell; mirror copies come from the pool of port 41. -/
def Cell.from (c : Cell) : Nat := if c.mirror then 41 else c.inp

/-- Is the cell at the head of its queue for output `o`: the queue of its input, output, class and reservation class (R538)? -/
def queueHead (s : State) (o : Nat) (c : Cell) : Bool :=
  s.cells.find? (fun x => x.from == c.from && x.mirror == c.mirror && x.cls == c.cls && x.rc == c.rc && x.outs.any (fun t => t.1 == o)) == some c

/-- Can output `o` send this cell now: it is packed and at the head of its queue, a fabric port is ACTIVE with credits, replay room and
TXNs, the gateway's miss queue has room (R526), and the class has budget left? -/
def canSend (s : State) (o : Nat) (c : Cell) : Bool :=
  c.ready && c.outs.any (fun t => t.1 == o) && queueHead s o c
    && !(o == 40 && c.cls == 0 && decide (4096 ≤ s.missq.length))
    && (!rcMode s || c.mirror || decide (Sparse.get s.swSpent (16 * o + c.rc) 0 < budgetOf s o c.rc))
    && (decide (16 ≤ o) || (fabState s o == 5 && decide ((linkOf s o).replay.length < 512)
      && decide (c.slots.length ≤ Sparse.get (linkOf s o).crd (16 * c.cls + (if rcMode s then c.rc else 0)) 0)
      && decide ((s.fabReqs.filter (fun r => r.port == o)).length + (agentReqs c).length ≤ 4096)))

/-- The nearest of a list of ports at or after a rotating pointer. -/
def nearest (ptr : Nat) (ps : List Nat) : Option Nat :=
  ps.foldl (fun acc p => match acc with
    | none => some p
    | some q => if (p + 42 - ptr) % 42 < (q + 42 - ptr) % 42 then some p else some q) none

/-- The next reservation class of a rotation among those that have something to send (R548). -/
def nextClass (turn : Nat) (ks : List Nat) : Nat := (((List.range 16).map (fun i => (turn + i) % 16)).find? (fun k => ks.contains k)).getD 0

/-- One iteration of request, grant and accept over the ports not yet matched: the new matches as input, output and reservation class. An
output grants the class that its rotation has next, and an input accepts the class that its own has next (R548); outside reserved-credit
mode every request is of class 0. -/
def matchOnce (s : State) (req done : List (Nat × Nat × Nat)) : List (Nat × Nat × Nat) :=
  let open' := req.filter (fun e => !done.any (fun d => d.1 == e.1 || d.2.1 == e.2.1))
  let outs := (open'.map (fun e => e.2.1)).dedup
  let grants := outs.filterMap (fun o =>
    let cand := open'.filter (fun e => e.2.1 == o)
    let k := nextClass (Sparse.get s.swTurn o 0) (cand.map (fun e => e.2.2))
    (nearest (Sparse.get s.swOut o 0) ((cand.filter (fun e => e.2.2 == k)).map (fun e => e.1))).map (fun i => (i, o, k)))
  ((grants.map (fun e => e.1)).dedup).filterMap (fun i =>
    let cand := grants.filter (fun e => e.1 == i)
    let k := nextClass (Sparse.get s.swInTurn i 0) (cand.map (fun e => e.2.2))
    (nearest (Sparse.get s.swIn i 0) ((cand.filter (fun e => e.2.2 == k)).map (fun e => e.2.1))).map (fun o => (i, o, k)))

/-- The class that goes first within a matched pair (R539): an SNP or REQ cell that has waited 16 cycles, then RSP, DAT, SNP and
REQ. -/
def pickCell (cs : List Cell) : Option Cell :=
  match cs.find? (fun c => decide (16 ≤ c.age) && (c.cls == 0 || c.cls == 1)) with
  | some c => some c
  | none => [2, 3, 1, 0].findSome? (fun k => cs.find? (fun c => c.cls == k))

/-- Give each request of a controller agent a TXN of the fabric port's own (R505); the messages of one write-back keep one (R528). -/
def stampReqs (s : State) (o agent : Nat) (ms : List (List Nat)) : List Nat × State :=
  match ms with
  | [] => ([], s)
  | m :: rest =>
    match m with
    | [] => stampReqs s o agent rest
    | h :: tl =>
      let group := s.fabReqs.find? (fun r => r.port == o && r.agent == agent && r.own == hTxn h && hGw r.hdr && (hOpcode r.hdr == 5 || hOpcode r.hdr == 6)
        && hGw h && (hOpcode h == 5 || hOpcode h == 6))
      if hClass h = 0 && h.testBit 4 && group.isSome then
        let (l, s) := stampReqs s o agent rest
        ((setTxn h ((group.map (fun r => r.txn)).getD 0) :: tl) ++ l, s)
      else if hClass h = 0 && h.testBit 4 then
        let t := ((List.range 4096).find? (fun t => !s.fabReqs.any (fun r => r.port == o && r.txn == t))).getD 0
        let s := { s with fabReqs := s.fabReqs ++ [⟨o, t, agent, hTxn h, hAddr h, h, if hOpcode h = 4 ∧ hGw h then 1024 else 1⟩] }
        let (l, s) := stampReqs s o agent rest
        ((setTxn h t :: tl) ++ l, s)
      else
        let (l, s) := stampReqs s o agent rest
        (m ++ l, s)

/-- The mirror ring takes a copy (R727). -/
def mirrorSample (s : State) (c : Cell) : State :=
  ringPush s (rPmu 0x28) 0x7180000
    ((c.slots ++ List.replicate (8 - c.slots.length) 0).flatMap (fun w => [BitVec.ofNat 64 w, BitVec.ofNat 64 (w / 2 ^ 64)]))

/-- The kernels that run, by window. -/
def runningWins (s : State) : List Nat := (s.kernels.filter (fun k => k.live)).map (fun k => k.win)

/-- Take a switch port down (SW_INJ KIND 2): a fabric port enters DOWN, a command port loses its link, any other port is flushed. -/
def doSwInjPortDown (port : Fin 42) (s : State) : State :=
  whenRunning s fun s => if port.val < 16 then portDown s port.val else if port.val < 18 then ethDown s (port.val - 16) else portFlush s port.val
def doSwInjCellUe (s : State) : State := whenRunning s fun s => armInj s (rSw 0x18) 1 0 false
def doSwInjMirrorDrop (s : State) : State := whenRunning s fun s => armInj s (rSw 0x18) 3 0 false

/-! The gateway's reels (R523 to R533). -/

/-- Look up the 1,024 lines of a reel at their homes; an injected error starts the recovery of its line (R253), and `true` says so. -/
def reelLookups (s : State) (off : Nat) : State × Bool :=
  match unitLookups s [off / 65536] with
  | (t, true) => (t, true)
  | (t, false) => (forEach (List.range 1024) t (fun s i => if lineActive s (off + 64 * i) then s else touchLine s (off + 64 * i)), false)

/-- Send the lines of a reel with their POISON flags (R523). -/
def sendReel (s : State) (via ctrl txn dom off : Nat) (line : Nat → LineData × Bool) : State :=
  forEach (List.range 1024) s (fun s i =>
    let s := homeCount s (off + 64 * i) 0 (some dom)
    let (d, p) := line i
    gwSend s via ctrl (globalAddr s (off + 64 * i)) 0x31 txn 0 p (if p then 0 else d))

/-- The lines of one unit of region `r` at memory key `key`, read for controller `ctrl` once a frame holds them: `line` gives them. A
unit of a STREAM region serves the reads that waited for it (R55). -/
def reelFrom (s : State) (via ctrl txn dom r off key : Nat) (line : Nat → LineData × Bool) : State :=
  let w := 2048 + ctrl
  let s := gwWork s
  match missFor s w r key with
  | some u => fetchUnit (streamAwait s w r u) u off (some dom)
  | none =>
    let s := frameHit s off key (some dom)
    streamDrop (sendReel s via ctrl txn dom off line) (fun e => e.1 == cacheUnit s r key && e.2.1 == w)

/-- Serve a reel read of another box's gateway (R523, R524), if it need not wait for its unit, for a holder's data, for a kernel's commit or
for a write-back: whether it is answered. A domain without a grant is refused, a version no longer held is answered STALE. -/
def reelRead (s : State) (w : ReelWait) : Bool × State :=
  let base := globalAddr s w.off
  let fail := fun (s : State) (e : Nat) => (true, gwSend s w.port w.ctrl base 0x27 w.txn e)
  let from' := fun (s : State) (r key : Nat) (line : Nat → LineData × Bool) =>
    ((missFor s (2048 + w.ctrl) r key).isNone, reelFrom s w.port w.ctrl w.txn w.dom r w.off key line)
  match regionOf s w.off with
  | none => fail (addrFault s base w.dom) errAddr
  | some r =>
    if decide (w.off < 2 ^ 48) && rgDeleting s r then fail (addrFault s base w.dom) errAddr
    else if !permitRegion s w.dom r false then fail (violate s (.peer (Fin.ofNat 16 w.port) (BitVec.ofNat 8 w.dom)) base) errGrant
    else match w.ver with
      | some v =>
        if !(versionsOf s r).contains v then fail s errStale
        else
          let key := spKey (spVersion r v) (w.off - rgBase s r)
          from' s r key (fun i => (s.readLine (key + 64 * i), poisonedAt s r (key + 64 * i)))
      | none =>
        if s.shadows.any (fun x => x.unit == w.off / 65536 && prepared s x.win) || reelHolds s w.off then (false, s)
        else
          let (s, hit) := reelLookups s w.off
          let held := heldLines s (w.off / 65536)
          if hit then (false, s)
          else if held ≠ [] then (false, forEach held s (fun s l => askData s .control (l * 64)))
          else from' s r ((backing s w.off).getD w.off) (fun i => (curLine s (w.off + 64 * i), isPoisoned s (w.off + 64 * i)))

/-- The reel reads that wait are served as far as they can be. -/
def serveReelWaits (s : State) : State :=
  forEach s.reelWaits s (fun s w =>
    match reelRead s w with
    | (true, t) => { t with reelWaits := t.reelWaits.erase w }
    | (false, t) => t)

/-- A reel of this controller is read for another box's gateway (R523): the read waits until it can be served. -/
def reelServeFor (s : State) (port ctrl txn dom addr : Nat) (version : Option Nat) : State :=
  let base := addr / 65536 * 65536
  match route s base with
  | .own off =>
    let w : ReelWait := ⟨port, ctrl, txn, dom, off, version⟩
    (match reelRead s w with
     | (true, t) => t
     | (false, t) => if t.reelWaits.contains w then t else { t with reelWaits := t.reelWaits ++ [w] })
  | _ => gwSend (addrFault s base dom) port ctrl base 0x27 txn errAddr

/-- REEL_READ_SERVE (R523, R524): at a version when one is named. -/
def doReelReadServe (port : Fin 16) (ctrl : BitVec 10) (txn : BitVec 12) (dom : BitVec 8) (addr : BitVec 60) (version : Option (BitVec 48)) (s : State) : State :=
  whenRunning s fun s => reelServeFor s port.val ctrl.toNat txn.toNat dom.toNat addr.toNat (version.map BitVec.toNat)

/-- REEL_FETCH_DONE. -/
def doReelFetchDone (txn : Nat) (lines : List (BitVec 512 × Bool)) (err : Option (BitVec 4)) (s : State) : State :=
  whenRunning s fun s => reelFetched s txn lines err

/-- This gateway holds every line of a write-back (R529). Its checks are those of a write by a peer (R54, R649,
R758, R759); then the homes hold every access to its lines, the reel is applied whole, and Cmp is sent. -/
def reelWbApply (s : State) (port ctrl txn dom base : Nat) (lines : List (Nat × LineData × Bool)) : State :=
    let fail := fun (s : State) (e : Nat) => gwSend s port ctrl base 0x27 txn e
    match route s (base / 65536 * 65536) with
    | .own off =>
      (match regionOf s off with
       | none => fail (addrFault s base dom) errAddr
       | some r =>
         if decide (off < 2 ^ 48) && rgDeleting s r then fail (addrFault s base dom) errAddr
         else if !permitRegion s dom r true || (decide (off < 2 ^ 48) && rgVersioned s r) then
           fail (violate s (.peer (Fin.ofNat 16 port) (BitVec.ofNat 8 dom)) base) errGrant
         else if !draftOpen s off then fail (addrFault s base dom) errAddr
         else settleAll { (gwWork s) with wbq := s.wbq ++ [⟨port, ctrl, txn, dom, off, lines⟩] })
    | _ => fail (addrFault s base dom) errAddr

/-- REEL_WB_APPLY (R529). -/
def doReelWbApply (port : Fin 16) (ctrl : BitVec 10) (txn : BitVec 12) (dom : BitVec 8) (base : BitVec 60) (lines : List (BitVec 10 × BitVec 512 × Bool)) (s : State) : State :=
  whenRunning s fun s => reelWbApply s port.val ctrl.toNat txn.toNat dom.toNat base.toNat (lines.map (fun l => (l.1.toNat, l.2)))

/-- A message of another box's write-back has come: the WrNC that gives the number of its lines, or a line (R528, R529). They are collected
by the TXN and the controller, in any order; once all have come, the write-back is applied. -/
def wbCollect (s : State) (port h mask : Nat) (d : LineData) : State :=
  let mine := fun (p : WbPart) => p.ctrl == hSrc h && p.txn == hTxn h
  let p := (s.wbParts.find? mine).getD ⟨port, hSrc h, hTxn h, hDomain h, none, []⟩
  let p := if hOpcode h = 5 then { p with base := some (hAddr h, bits mask 73 64 + 1) }
    else { p with lines := p.lines.filter (fun l => l.1 != hAddr h / 64 % 1024) ++ [(hAddr h / 64 % 1024, d, hPoison h)] }
  let rest := s.wbParts.filter (fun p => !mine p)
  match p.base with
  | some (base, n) =>
    if p.lines.length = n then reelWbApply { s with wbParts := rest } p.port p.ctrl p.txn p.dom base p.lines
    else { s with wbParts := rest ++ [p] }
  | none => { s with wbParts := rest ++ [p] }

/-- REEL_WB_DONE. -/
def doReelWbDone (txn : Nat) (s : State) : State := whenRunning s fun s => reelWbDone s txn

/-- REEL_TIMEOUT (R532). -/
def doReelTimeout (txn : Nat) (s : State) : State :=
  whenRunning s fun s =>
    match s.reels.find? (fun e => (e.2.st == .fetching || e.2.st == .writing) && e.2.txn == txn) with
    | none => s
    | some (k, x) =>
      let s := gwEvent s 0 x.addr
      if x.st == .fetching then dropFetch s k x errFlushed 17
      else writebackLines s k x

/-- A message that came in at fabric port `p` reaches the agent at switch port `o`: a response to one of its requests, or a reel read or a
part of a write-back for the gateway. Every other request is taken up by the command of its own row. -/
def toAgent (s : State) (p o : Nat) (m : List Nat) : State :=
  match m with
  | [] => s
  | h :: tl =>
    let op := hOpcode h
    if toRequester op && h.testBit 4 then
      agentAnswer s o h (slotsLine m)
    else if o = 40 ∧ hClass h = 0 ∧ hGw h = true ∧ hAddr h % 2 ^ 50 < 2 ^ 49 then
      let mask := (tl.head?).getD 0
      if op = 4 then reelServeFor s p (hSrc h) (hTxn h) (hDomain h) (hAddr h) (if mask.testBit 48 then some (mask % 2 ^ 48) else none)
      else if op = 5 ∨ op = 6 then wbCollect s p h mask (slotsLine m)
      else s
    else s

/-- Send a cell's copy at output `o` (R542, R543): a multicast copy gets its target's controller number. The cell is freed when
its last pointer is gone. What arrives from a fabric port for an agent of this controller reaches it. -/
def deliver (s : State) (o : Nat) (c : Cell) : State :=
  let tgt := ((c.outs.find? (fun t => t.1 == o)).map (fun t => t.2)).getD 0
  let rest := c.outs.erase (o, tgt)
  let s := { s with cells := if rest = [] then s.cells.erase c else s.cells.map (fun x => if x = c then { c with outs := rest, age := 0 } else x) }
  let s := if rcMode s && !c.mirror then
      { s with swSpent := Sparse.ins s.swSpent (16 * o + c.rc) (Sparse.get s.swSpent (16 * o + c.rc) 0 + 1), swTurn := Sparse.ins s.swTurn o ((c.rc + 1) % 16)
               swInTurn := Sparse.ins s.swInTurn c.from ((c.rc + 1) % 16) }
    else s
  let ms := targetMsgs c tgt
  match takeInj s (rSw 0x18) 1 (fun _ => true) with
  | some (_, t) => flushCell (swEvent t 1) o { c with slots := if c.mirror then c.slots else ms.flatten }
  | none =>
    let s := pmc (mirrorCross s c o o true) 204 1 1 (some c.dom)
    if c.mirror then mirrorSample s c
    else if o < 16 then
      let (slots, s) := if c.cls = 0 then stampReqs s o c.inp ms else (c.slots, s)
      let s := pmc s (186 + o) 3 slots.length (some c.dom)
      let s := pmc s (186 + o) 7 (ms.countP (fun m => decide (5 ≤ m.length))) (some c.dom)
      let x := linkOf s o
      let k := 16 * c.cls + (if rcMode s then c.rc else 0)
      sendFlit (putLink s o { x with crd := Sparse.ins x.crd k (Sparse.get x.crd k 0 - c.slots.length) }) o 1 slots
    else
      let s := send s (.fab o (tgt :: ms.flatten))
      if c.inp < 16 then forEach ms s (fun s m => toAgent s c.inp o m) else s

/-- SWITCH_CYCLE (R538): three iterations match inputs to outputs, and each matched pair moves one cell. The cycle after the last of an
epoch waits for the boundary (R547). -/
def doSwitchCycle (s : State) : State :=
  whenRunning s fun s =>
    if !regBit s (rSw 8) 0 || decide (65536 ≤ s.swCycles) then s
    else
      let s := drainAgents { s with swCycles := s.swCycles + 1 }
      let kind := fun (c : Cell) => if rcMode s then c.rc else 0
      let req := (s.cells.flatMap (fun c => (c.outs.filter (fun t => canSend s t.1 c)).map (fun t => (c.from, t.1, kind c)))).dedup
      let m1 := matchOnce s req []
      let m2 := matchOnce s req m1
      let m3 := matchOnce s req (m1 ++ m2)
      let ms := m1 ++ m2 ++ m3
      let s0 := s
      let s := forEach m1 s (fun s e => { s with
        swOut := Sparse.ins s.swOut e.2.1 ((e.1 + 1) % 42)
        swIn := Sparse.ins s.swIn e.1 ((e.2.1 + 1) % 42) })
      let picks := ms.filterMap (fun e =>
        (pickCell (s0.cells.filter (fun c => c.from == e.1 && canSend s0 e.2.1 c && kind c == e.2.2))).map (fun c => (e.2.1, c)))
      let s := forEach picks s (fun s e => deliver s e.1 e.2)
      let s := { s with cells := s.cells.map (fun c =>
        if c.ready && !c.mirror && c.outs.any (fun t => queueHead s t.1 c) then { c with age := c.age + 1 } else c) }
      serveReelWaits (forEach (List.range 16) (freeCredits s) (fun s p => drainPort 64 s p))

/-- A new split of a buffer (R550): what each class has left of its new share after the slots that it has in use, and what it has in use
beyond that. -/
def moveShare (now owe before after : List (Nat × Nat)) : List (Nat × Nat) × List (Nat × Nat) :=
  let used := fun (k : Nat) => Sparse.get before k 0 + Sparse.get owe k 0 - Sparse.get now k 0
  (after.map (fun e => (e.1, e.2 - used e.1)),
    ((before ++ owe).map (fun e => e.1)).dedup.foldl (fun l k =>
      if Sparse.get after k 0 < used k then Sparse.ins l k (used k - Sparse.get after k 0) else l) [])

/-- Split the channels of a fabric port that runs among the classes of the new epoch (R550): the far end's buffer, as it was granted at
CONFIG, and the own one. `old` is the state of the epoch before. -/
def resplit (old s : State) (p : Nat) : State :=
  if (fabState s p ≠ 5 ∧ fabState s p ≠ 6) ∨ recvSlots old p = recvSlots s p then s
  else
    let x := linkOf s p
    let cs := if rcMode s then rcClasses s p else [0]
    let far := (List.range 4).flatMap (fun v =>
      let all := ((x.crd0.filter (fun e => e.1 / 16 == v)).map (fun e => e.2)).sum
      cs.map (fun c => (16 * v + c, all / max 1 cs.length)))
    let tx := moveShare x.crd x.oweTx x.share far
    let rx := moveShare x.grant x.oweRx (recvSlots old p) (recvSlots s p)
    putLink s p { x with crd := tx.1, oweTx := tx.2, share := far, grant := rx.1, oweRx := rx.2 }

/-- EPOCH_BOUNDARY (R547, R550 to R552): after 65,536 switch cycles pending configuration takes effect, every budget is whole again, and
the fabric ports split their channels anew. Reserved-credit mode that starts on a port below full width scales its budgets. -/
def doEpochBoundary (s : State) : State :=
  whenRunning s fun s =>
    if s.swCycles < 65536 then s
    else
      let live := s.regs.filter (fun e => e.1 == rSw 0 || (decide (0x2110000 ≤ e.1) && decide (e.1 < 0x2130000)))
      let old := s
      let s := regAdd { s with swLive := live, swSpent := [], swCycles := 0 } (rSw 8) 27 12 1
      let slow := if rcMode s && !rcMode old then (List.range 16).filter (fun p => fabState s p == 5 && decide (regFld s (rFab p 8) 6 4 < 4)) else []
      forEach (List.range 16) (forEach slow s (fun s p => swEvent s 4 0 p)) (fun s p => resplit old s p)

def doGwInjRemoteErr (s : State) : State := whenRunning s fun s => armInj s (rGw 0x10) 1 0 false
def doGwInjTimeout (s : State) : State := whenRunning s fun s => armInj s (rGw 0x10) 2 0 false
def doGwInjStageUe (s : State) : State := whenRunning s fun s => armInj s (rGw 0x10) 3 0 false

/-! ABORT (R626, R627). -/

/-- A kernel of a window is aborted with ABORTED by a received ABORT; one that has not started completes with FAULT at once. -/
def abortRx (s : State) (w origin : Nat) : State :=
  match kernelOf s w with
  | none => s
  | some k =>
    if k.started then kernelAbort s w { code := 17, engine := 0, addr := origin, rx := true }
    else dropStart s w origin

/-- A ready RUN that its own checks have not met yet is completed as well. -/
def abortReady (s : State) (w origin : Nat) : State :=
  if winState s w = 1 ∧ (winOf s w).ready ∧ hdr s w 2 1 = 1 ∧ (kernelOf s w).isNone then complete s w { status := 1, detail := 17, addr := origin } else s

/-- Obey an ABORT of composition `comp` from controller `origin` (R626). -/
def abortComp (s : State) (comp origin : Nat) : State :=
  let doms := (List.range 256).filter (fun d => regBit s (rDomComp d) 16 && regFld s (rDomComp d) 47 32 == comp)
  let s := recovEvent s 7 7 { cls := 9, code := 7, action := 3, addr := origin, d0 := comp }
  let wins := (s.wins.map (fun e => e.1)).filter (fun w => doms.contains (winDom s w))
  let s := forEach wins s (fun s w => abortRx s w origin)
  forEach wins s (fun s w => abortReady s w origin)

/-- ABORT_FLIT (R515, R516, R626): taken on PEER ports only. -/
def doAbortFlit (port : Fin 16) (hdr : BitVec 64) (slot : BitVec 128) (crcOk : Bool) (s : State) : State :=
  whenRunning s fun s =>
    let p := port.val
    if fabState s p ≠ 5 then s
    else
      let h := flitHdr hdr
      let (ok, s) := rxFlit s p h crcOk false
      let n := slot.toNat
      if ok && h.type == 2 && fabKind s p == 1 && bits n 7 0 == 1 then abortComp s (bits n 31 16) (bits n 47 32 % 1024) else s

-- EXEC
def execFlitPayload (port : Fin 16) (hdr : BitVec 64) (slots : List (BitVec 128)) (crcOk : Bool) (s : State) :
    Host.Outcome State Fault Refusal :=
  .next (doFlitPayload port hdr slots crcOk s)
def execAbortFlit (port : Fin 16) (hdr : BitVec 64) (slot : BitVec 128) (crcOk : Bool) (s : State) :
    Host.Outcome State Fault Refusal :=
  .next (doAbortFlit port hdr slot crcOk s)
def execCellPackTimeout (inp : Fin 42) (s : State) : Host.Outcome State Fault Refusal := .next (doCellPackTimeout inp s)
def execSwitchCycle (s : State) : Host.Outcome State Fault Refusal := .next (doSwitchCycle s)
def execEpochBoundary (s : State) : Host.Outcome State Fault Refusal := .next (doEpochBoundary s)
def execSwMirrorWrite (value : BitVec 64) (s : State) : Host.Outcome State Fault Refusal := .next (doSwMirrorWrite value s)
def execSwInjCellUe (s : State) : Host.Outcome State Fault Refusal := .next (doSwInjCellUe s)
def execSwInjPortDown (port : Fin 42) (s : State) : Host.Outcome State Fault Refusal := .next (doSwInjPortDown port s)
def execSwInjMirrorDrop (s : State) : Host.Outcome State Fault Refusal := .next (doSwInjMirrorDrop s)
def execReelReadServe (src : FabSource) (txn : BitVec 12) (dom : BitVec 8) (addr : BitVec 60) (version : Option (BitVec 48)) (s : State) :
    Host.Outcome State Fault Refusal :=
  .next (doReelReadServe src.port src.ctrl txn dom addr version s)
def execReelFetchDone (txn : Nat) (lines : List (BitVec 512 × Bool)) (err : Option (BitVec 4)) (s : State) :
    Host.Outcome State Fault Refusal :=
  .next (doReelFetchDone txn lines err s)
def execReelWbApply (src : FabSource) (txn : BitVec 12) (dom : BitVec 8) (base : BitVec 60) (lines : List (BitVec 10 × BitVec 512 × Bool)) (s : State) :
    Host.Outcome State Fault Refusal :=
  .next (doReelWbApply src.port src.ctrl txn dom base lines s)
def execReelWbDone (txn : Nat) (s : State) : Host.Outcome State Fault Refusal := .next (doReelWbDone txn s)
def execReelTimeout (txn : Nat) (s : State) : Host.Outcome State Fault Refusal := .next (doReelTimeout txn s)
def execGwInjRemoteErr (s : State) : Host.Outcome State Fault Refusal := .next (doGwInjRemoteErr s)
def execGwInjTimeout (s : State) : Host.Outcome State Fault Refusal := .next (doGwInjTimeout s)
def execGwInjStageUe (s : State) : Host.Outcome State Fault Refusal := .next (doGwInjStageUe s)

end Sys2Proof.Machine
end

