-- ==== Sys2Proof/Machine/Recovery.lean ====
section
/-! DEFINITION. Machine/Recovery.lean: reset domains, nested errors, the rip panel, the whole-device reset, replays of suspects,
tether sweeps and the injections of chapter 14. -/

namespace Sys2Proof.Machine

/-! Domain instances (R595, R596, R602). A unit is named as the error log names it: its kind and number; kind 16 is a kernel
context, by its window. -/

/-- The unit that raised the error of a kernel context, by its completion record's engine number (R373). -/
def ctxUnit (s : State) (w : Nat) : Nat × Nat :=
  match (kernelOf s w).bind (fun k => k.fault) with
  | some f => if f.engine < 128 then (1, f.engine) else if f.engine < 288 then (2, f.engine - 256) else (4, f.engine - 288)
  | none => (1, 0)

/-- The enclosing domain instance (R595, R596). -/
def enclosing (s : State) (kind unit : Nat) : Nat × Nat :=
  if kind = 16 then ctxUnit s unit
  else if kind = 3 then (16, (kiteOf s unit).win)
  else if kind = 5 then (16, (ctxOf s unit).win)
  else if kind = 1 ∨ kind = 2 ∨ kind = 4 ∨ kind = 9 ∨ kind = 10 then (11, 0)
  else (15, 0)

/-- The ACTION code of a domain's reset; `cold` tells the two resets of a home agent apart. -/
def resetAction (kind : Nat) (cold : Bool) : Nat :=
  if kind = 1 ∨ kind = 2 ∨ kind = 4 then 4
  else if kind = 9 ∨ kind = 10 then 5
  else if kind = 6 ∨ kind = 7 then (if cold then 7 else 6)
  else if kind = 8 then 8
  else if kind = 11 then 9
  else if kind = 15 then 10
  else 2

/-- The unit that an entry about a domain instance names. Command Ethernet ports go by their switch port numbers, 16 and 17 (R18). -/
def logUnit (s : State) (kind unit : Nat) : Nat × Nat := if kind = 16 then ctxUnit s unit else (kind, unit)

/-- The record of a domain instance that is being handled (R602). -/
def recovOf (s : State) (kind unit : Nat) : Option Recov := (active s).find? (fun r => r.kind == kind && r.unit == unit)

/-- A domain instance is being handled from now on. -/
def beginRecov (s : State) (kind unit : Nat) : State :=
  if (recovOf s kind unit).isSome then s else { s with recovs := s.recovs ++ [⟨kind, unit, 0, []⟩] }

/-- A domain instance is in service again. -/
def endRecov (s : State) (kind unit : Nat) : State :=
  { s with recovs := s.recovs.filter (fun r => !(r.kind == kind && r.unit == unit)) }

/-! Out of service (R598). -/

/-- The UNIT_SVC register and bit of a unit, none for the units that have none. -/
def svcBit (kind unit : Nat) : Option (Nat × Nat) :=
  if kind = 1 then some (rRecov (0xC0 + 8 * (unit / 64)), unit % 64)
  else if kind = 2 then some (rRecov 0xD0, unit)
  else if kind = 4 then some (rRecov 0xD0, 32 + unit)
  else if kind = 6 ∨ kind = 7 then some (rRecov 0xD0, 48 + unit)
  else if kind = 8 then some (rRecov 0xD8, 16 + unit)
  else if kind = 9 then some (rRecov 0xD8, unit)
  else if kind = 10 then some (rRecov 0xD8, 48 + (unit - 16))
  else none

/-- Is a unit in service? -/
def inService (s : State) (kind unit : Nat) : Bool :=
  match svcBit kind unit with
  | some (r, b) => regBit s r b
  | none => true

/-- The command windows that a home agent serves (R44). -/
def homeWins (h : Nat) : List Nat := (List.range 1024).filter (fun w => winHome w == h)

/-- The closed windows of a home agent that is ready enter READY, armed (R360, R382). -/
def openWindows (s : State) (h : Nat) : State :=
  if regBit s (rHome h 0) 0 then forEach ((homeWins h).filter (fun w => winState s w == 7)) s armWindow else s

/-- Take a switch port down with its link (R517). -/
def takeDown (s : State) (p : Nat) : State :=
  if p < 16 then portFall false s p
  else if p < 18 ∧ ethLink s (p - 16) then ethFall false s (p - 16)
  else portFlush s p

/-- The state registers of a unit that leaves service or enters it again. -/
def markService (s : State) (kind unit : Nat) (on : Bool) : State :=
  let s := match svcBit kind unit with
    | some (r, b) => regPut s r b b (if on then 1 else 0)
    | none => s
  if kind = 1 then setLatheState s unit (if on then 0 else 8)
  else if kind = 2 then regPut s (rWalker unit 0) 3 0 (if on then 0 else 4)
  else if kind = 4 then regPut s (rGouge unit 0) 3 0 (if on then 0 else 4)
  else if kind = 6 ∨ kind = 7 then
    let s := regPut s (rHome unit 0) 0 0 (if on then 1 else 0)
    if on then openWindows s unit else s
  else if kind = 8 then degradeQuads (regPut s (rMedCh unit 0) 0 0 (if on then 1 else 0))
  else if kind = 9 then fabStart s unit
  else s

/-- Count a reset of a unit: the OOS_LIMIT-th within 60 s on the control clock takes it out of service (R598). -/
def noteReset (s : State) (kind unit : Nat) : State :=
  match svcBit kind unit with
  | none => s
  | some _ =>
    let (n, s) := drawFree s
    let key := 4096 * kind + unit
    let times := Sparse.get s.resetAt key [] ++ [n]
    let lim := regFld s (rRecov 0) 11 8
    let last := times.reverse.take lim
    let s := { s with resetAt := Sparse.set s.resetAt key [] (times.reverse.take 15).reverse }
    match last.reverse with
    | t :: _ =>
      if last.length = lim ∧ within t n 72000000000 then
        markService (recovEvent s 2 1 { cls := 8, code := 2, kind := kind, unit := unit }) kind unit false
      else s
    | [] => s

/-- What every reset does before its own effect (R618): the dump; and its entry in the RECOVERY class. -/
def openReset (s : State) (kind unit : Nat) (cold : Bool) : State :=
  let esc := match recovOf s kind unit with
    | some r => r.esc
    | none => 0
  collectDump (logErr s { cls := 8, code := 0, kind := kind, unit := unit, action := resetAction kind cold, esc := esc })
    kind unit (resetAction kind cold) 0

/-- What every reset does after it: the unit returns to service, or leaves it. -/
def closeReset (s : State) (kind unit : Nat) : State := noteReset (endRecov s kind unit) kind unit

/-! ABORT to the members of a composition (R624, R625, R628). -/

/-- Send one ABORT flit to each member slot but the controller's own, on an ACTIVE PEER port toward it, and log the entry that
the composer relays to members in other boxes. -/
def abortSend (s : State) (dom code : Nat) : State :=
  if !regBit s (rDomComp dom) 16 then s
  else
    let comp := regFld s (rDomComp dom) 47 32
    let slots := (List.range 16).filter (fun i => regBit s (rDomComp dom) i && i != regFld s rAddrSelf 3 0)
    let s := forEach slots s (fun s i =>
      match portsTo s 1 (regFld s rAddrSelf 9 4 * 16 + i) with
      | p :: _ => sendControl s p [1 + comp * 2 ^ 16 + ownCtrl s * 2 ^ 32 + code % 256 * 2 ^ 48]
      | [] => s)
    recovEvent s 6 6 { cls := 9, code := 1, dom := dom, d0 := comp, d1 := code }

/-- Tell the members of an aborted kernel's composition, once (R625). -/
def tellMembers (s : State) (w : Nat) : State :=
  match kernelOf s w with
  | none => s
  | some k =>
    match k.fault with
    | none => s
    | some f => if k.told || f.rx then s else abortSend (putKernel s { k with told := true }) k.dom f.code

/-- A recovery aborts the kernel of window `w` with ABORTED: logged with ACTION 0, for it counts toward no escalation (R604). -/
def recoveryAbort (s : State) (w addr : Nat) : State :=
  match liveKernel s w with
  | none => s
  | some k =>
    let (kind, unit) := match k.lathes, k.ctxs, k.kites with
      | l :: _, _, _ => (1, l)
      | [], n :: _, _ => (5, n)
      | [], [], n :: _ => (3, n)
      | [], [], [] => (13, 0)
    let s := logErr s { cls := 6, code := 17, kind := kind, unit := unit, dom := k.dom, addr := addr, win := w, cseq := winSeq s w }
    kernelAbort s w { code := 17, engine := 0, addr := addr }

/-- The resets that the recovery of the kernel of window `w`, the reader of an uncorrectable Chuck error, has held up are due (R258): an
idle Lathe enters RESETTING; one on which another kernel runs is reset under R313, which aborts that kernel with ABORTED, and enters
RESETTING at its release. -/
def owedResets (s : State) (w : Nat) : State :=
  forEach (s.lathes.filter (fun e => e.2.owedBy == some w)) s (fun s e =>
    let s := putLathe s e.1 { latheAt s e.1 with owedBy := none }
    if latheState s e.1 = 0 then setLatheState s e.1 7
    else forEach ((s.kernels.filter (fun k => k.live && k.lathes.contains e.1)).map (fun k => k.win)) s (fun s x => recoveryAbort s x 0))

/-! Kernel contexts (R595, R600). -/

/-- Reset what a kernel context holds in its engines: register files, tensor queues, spools and contexts. A Lathe that owes a
reset waits for it. -/
def resetContext (s : State) (k : Kernel) : State :=
  let s := forEach k.lathes s (fun s l =>
    freeLathe (putLathe s l { ({} : Lathe) with owedReset := (latheAt s l).owedReset, owedBy := (latheAt s l).owedBy }) l)
  let s := forEach k.ctxs s (fun s n => regSet (freeCtx (putCtx s n {}) n) (rGctx n 0) 0)
  owedResets (forEach k.kites s (fun s n => regSet (freeKite (putKite s n {}) n) (rKite n 0) 0)) k.win

/-- KERNEL_CONTEXT_RECOVERY: an aborted kernel's engines are reset and released, and it completes with FAULT. A suspect keeps its
pins and waits for its replay; a kernel frozen for a GRANT fault or found guilty stays FROZEN until its release. -/
def doKernelContextRecovery (w : Fin 1024) (s : State) : State :=
  whenRunning s fun s =>
    match kernelOf s w.val with
    | none => s
    | some k =>
      if k.fault.isNone then s
      else
        let s := tellMembers s w.val
        if k.frozen || k.guilty then s
        else
          let s := endRecov (resetContext s k) 16 w.val
          if k.suspect && k.replays == 0 then s
          else releaseKernel (if k.suspect then leaveHang s w.val false else s) w.val

/-- The suspects of a hang in the order of their start points (R611): the order of the kernels' records. -/
def replayOrder (s : State) (h : Hang) : List Nat := (s.kernels.map (fun k => k.win)).filter (fun w => h.left.contains w)

/-- Where a replay's contexts or kites run (R612): those that ran on engine `own` run there again, the others are placed
afresh. `per` is how many a unit holds, `no` the engine number of unit 0. -/
def replace (s : State) (per no own : Nat) (units taken ranks : List Nat) : Option (List Nat) :=
  let keep := ranks.filter (fun n => no + n / per == own)
  let us := units.filter (fun u => u + no == own || !s.hangs.any (fun h => h.eng == no + u))
  (placeRanks us per (ranks.length - keep.length) (taken ++ keep)).map (fun fresh =>
    (ranks.foldl (fun (acc : List Nat × List Nat) n =>
      if no + n / per = own then (acc.1 ++ [n], acc.2)
      else match acc.2 with
        | x :: rest => (acc.1 ++ [x], rest)
        | [] => acc) ([], fresh)).1)

/-- REPLAY_START (R612, R613): the next suspect of a hang runs again, alone on the engine, once its Lathes are IDLE, ahead of
both queues. -/
def doReplayStart (w : Fin 1024) (s : State) : State :=
  whenRunning s fun s =>
    let w := w.val
    match kernelOf s w, s.hangs.find? (fun h => (replayOrder s h).head? == some w) with
    | some k, some h =>
      if !k.suspect || k.guilty || k.fault.isNone || k.replays != 0 || !(k.lathes.all (fun l => latheState s l == 0)) || k.ctxs.any (ctxUsed s) || k.kites.any (kiteUsed s) then s
      else
        let gs := (List.range 16).filter (fun g => decide (regFld s (rGouge g 0) 3 0 < 3))
        let ws := (List.range 32).filter (fun x => decide (regFld s (rWalker x 0) 3 0 < 3))
        match replace s 8 288 h.eng gs ((List.range 128).filter (ctxUsed s)) k.ctxs,
            replace s 128 256 h.eng ws (if k.kites = [] then [] else (List.range 4096).filter (kiteUsed s)) k.kites with
        | some cs, some ks =>
          let k := { k with ctxs := cs, kites := ks, replays := 1, told := false }
          fireAtStart (launch (incCnt (putKernel s k) (rRecov 0x50)) k true) k
        | _, _ => s
    | _, _ => s

/-- Release a guilty frozen kernel (R614): the second dump, and its completion with WATCHDOG and REPLAYS 1. -/
def releaseGuilty (s : State) (w : Nat) : State :=
  match kernelOf s w with
  | none => s
  | some k => if k.guilty && k.fault.isSome then releaseKernel (resetContext (collectDump s 16 w 2 k.dom) k) w else s

/-- FROZEN_TIMEOUT (R614): FROZEN_MS 0 holds the kernel. -/
def doFrozenTimeout (w : Fin 1024) (s : State) : State :=
  whenRunning s fun s => if regFld s (rRecov 0) 47 32 = 0 then s else releaseGuilty s w.val

/-! Engine resets (R313, R595, R599). -/

/-- A kernel that runs on a unit under reset aborts with ABORTED; one that has aborted already loses the unit, unless it waits
to be replayed there. -/
def abortOn (s : State) (mine : Kernel → Bool) (drop : Kernel → Kernel) : State :=
  let ws := (s.kernels.filter (fun k => k.live && mine k)).map (fun k => k.win)
  let s := forEach ws s (fun s w => recoveryAbort s w 0)
  let s := forEach ((s.kernels.filter (fun k => !k.started && mine k)).map (fun k => k.win)) s (fun s w => dropStart s w 0)
  { s with kernels := s.kernels.map (fun k => if mine k && !(k.suspect && !k.guilty) then drop k else k) }

/-- Rewrite Lathe `l`'s stripes of every CHUCK replica (R313): the version that the replica holds. -/
def rewriteStripes (s : State) (l : Nat) : State :=
  forEach s.replicas s (fun s e =>
    let r := e.1
    if rgChuckFirst s r ≤ l ∧ l < rgChuckFirst s r + rgChuckCount s r then
      forEach ((List.range (rgSize s r / 65536)).filter (fun i => rgChuckFirst s r + i % rgChuckCount s r == l)) s (fun s i =>
        copyMem s (spKey (spVersion r (e.2 - 1)) (i * 65536)) (chuckOff l (rgChuckOff s r + i / rgChuckCount s r * 65536)) 65536)
    else s)

/-- Reset a Lathe (R313): its registers and queues, its Chuck, the arrived marks of its areas, which recovery arms again (R599),
and its replica stripes. Sticky fields and counts stay. -/
def resetLathe (s : State) (l : Nat) : State :=
  let s := abortOn s (fun k => k.lathes.contains l) (fun k => { k with lathes := k.lathes.filter (fun x => x != l) })
  let lo := chuckOff l 0
  let s := zeroMem (putLathe s l {}) lo (6 * 2 ^ 20)
  let s := { s with granules := s.granules.filter (fun g => g / 128 != l) }
  let s := forEach (s.areas.filter (fun a => decide (lo ≤ a.base) && decide (a.base < lo + 6 * 2 ^ 20))) s armArea
  let s := rewriteStripes s l
  regSetList (regSet s (rLathe l 0) 0) (rLathe l 8) [0, 0, 0, 0, 0]

/-- LATHE_RESET. -/
def doLatheReset (lathe : Fin 128) (s : State) : State :=
  whenRunning s fun s =>
    if !inService s 1 lathe.val then s
    else closeReset (resetLathe (openReset s 1 lathe.val false) lathe.val) 1 lathe.val

/-- Reset gouge `g` with all its contexts (R595). -/
def resetGouge (s : State) (g : Nat) : State :=
  let s := abortOn s (fun k => k.ctxs.any (fun n => n / 8 == g)) (fun k => { k with ctxs := k.ctxs.filter (fun n => n / 8 != g) })
  let s := forEach (List.range 8) s (fun s i => freeCtx (putCtx s (8 * g + i) {}) (8 * g + i))
  let s := forEach (List.range 8) s (fun s i => regSet s (rGctx (8 * g + i) 0) 0)
  regSet s (rGouge g 0) 0

/-- Reset walker `w` with all its kites (R595). -/
def resetWalker (s : State) (w : Nat) : State :=
  let s := abortOn s (fun k => k.kites.any (fun n => n / 128 == w)) (fun k => { k with kites := k.kites.filter (fun n => n / 128 != w) })
  let s := forEach (List.range 128) s (fun s i => freeKite (putKite s (128 * w + i) {}) (128 * w + i))
  let s := forEach (List.range 128) s (fun s i => regSet s (rKite (128 * w + i) 0) 0)
  regSet s (rWalker w 0) 0

/-- ENGINE_RESET: a walker (0 to 31), or a gouge (32 to 47). -/
def doEngineReset (engine : Fin 48) (s : State) : State :=
  whenRunning s fun s =>
    let e := engine.val
    if e < 32 then
      (if !inService s 2 e then s else closeReset (resetWalker (openReset s 2 e false) e) 2 e)
    else if !inService s 4 (e - 32) then s
    else closeReset (resetGouge (openReset s 4 (e - 32) false) (e - 32)) 4 (e - 32)

/-! Home agent resets (R590 to R594). -/

/-- Answer every transaction of a home's tracker and its waiting requests with Err FLUSHED, and clear its tracker, retry list
and waiting requests; a kernel that receives one aborts (R519). An invalidation of the home's own is owed again. -/
def flushHome (s : State) (h : Nat) : State :=
  let ts := s.trk.filter (fun t => t.home == h)
  let qs := s.blockq.filter (fun p => p.1 == h)
  let s := { s with
    trk := s.trk.filter (fun t => t.home != h)
    blockq := s.blockq.filter (fun p => p.1 != h)
    retry := s.retry.filter (fun p => p.1 != h)
    recallq := s.recallq ++ (ts.filter (fun t => t.req.op == .recall)).map (fun t => ⟨t.req.off / 64, t.req.mask != 0⟩) }
  forEach (ts.map (fun t => (t.req, t.act)) ++ qs.map (fun p => (p.2, false))) s (fun s p =>
    match p.1.src with
    | .kernel w => recoveryAbort s w.val (globalAddr s p.1.off)
    | .control => s
    | _ => sendErr s p.1 errFlushed p.2)

/-- Put a home's filter entries back into the directory (R238). -/
def dropFilter (s : State) (h : Nat) : State :=
  let es := s.filt.filter (fun e => homeOf (e.line * 64) == h)
  { s with
    filt := s.filt.filter (fun e => homeOf (e.line * 64) != h)
    dir := es.foldl (fun d e => Sparse.set d e.line 0 (dirEncode e.st e.vec)) s.dir }

/-- HOME_WARM_RESET (R591, R382). -/
def doHomeWarmReset (home : Fin 8) (s : State) : State :=
  whenRunning s fun s =>
    let h := home.val
    if !inService s 6 h then s
    else
      let s := openReset s 6 h false
      let s := forEach (s.store.filter (fun e => homeOf (e.line * 64) == h)) s storeEvict
      let s := dropFilter (flushHome s h) h
      let s := forEach ((homeWins h).filter (fun w => winState s w == 4)) s (fun s w => dropStart s w 0)
      closeReset (setBit (portFlush (settleAll s) (18 + h)) (rStk h 0) 5) 6 h

/-- The 4 KiB pieces of a range that lie at home `h`: `base` is the slice offset that decides the home. -/
def homePieces (h base len : Nat) : List Nat :=
  (List.range (len / 4096)).filterMap (fun i => if homeOf (base + 4096 * i) = h then some (4096 * i) else none)

/-- Poison the 64 lines of a piece. -/
def poisonPiece (s : State) (key : Nat) : State :=
  forEach (List.range 64) s (fun s i => setPoison s (key + 64 * i))

/-- What a cold reset does to one region's bytes at a home (R593): restored from the medium, a peer or a parity group, or
poisoned. Units that live on the medium alone are untouched. -/
def coldRegion (s : State) (h r : Nat) : State :=
  let base := rgBase s r
  let keys := if rgVersioned s r then
      (versionsOf s r).flatMap (fun v => ((homePieces h base (rgSize s r)).filter (fun x => inStack s r (x / 65536))).map
        (fun x => spKey (spVersion r v) x))
    else (homePieces h base (rgSize s r)).map (fun x => base + x)
  if (rgVersioned s r && rgDurable s r) || rgProtect s r != 0 then { s with toRestore := s.toRestore ++ keys.map (fun k => (k, 4096)) }
  else forEach keys s poisonPiece

/-- A cold reset closes a window of its home agent (R360, R382): the lines that it holds and a command that has not started are gone, and
the command has no completion. A kernel past its start point runs on, and what its completion says is kept (assumption 217). -/
def closeWindow (s : State) (w : Nat) : State :=
  let shut := fun (s : State) => setWinState (setCounter (putWin s w win0) (winCtr w) 0) w 7
  if (keptOf s w).isSome then shut s
  else if (kernelOf s w).any (fun k => k.started) || winState s w == 6 then
    shut { s with keptCpl := s.keptCpl ++ [(w, ⟨hdr s w 4 4, hdr s w 2 1, hdr s w 28 8, winDom s w⟩)] }
  else
    let s := match kernelOf s w with
      | some k => endKernel (freeEngines s k) w
      | none => s
    let s := match s.planLoads.find? (fun p => p.1 == w) with
      | some p => releaseFrames { s with planLoads := s.planLoads.filter (fun q => q.1 != w) } (winDom s w) p.2.2
      | none => s
    let s := { s with
      pubs := s.pubs.map (fun p => if p.win == w then { p with win := 1024 } else p)
      cmpWait := s.cmpWait.map (fun c => if c.win == w then { c with win := 65537 } else c) }
    shut s

/-- The cold reset of a home agent and its stack (R593). -/
def coldHome (s : State) (h : Nat) : State :=
  let s := flushHome s h
  let s := { s with
    store := s.store.filter (fun e => homeOf (e.line * 64) != h)
    filt := s.filt.filter (fun e => homeOf (e.line * 64) != h)
    dir := s.dir.filter (fun e => homeOf (e.1 * 64) != h)
    recallq := s.recallq.filter (fun q => homeOf (q.line * 64) != h) }
  let ws := (s.shadows.map (fun x => x.win)).dedup
  let s := forEach ws s (fun s w => recoveryAbort s w 0)
  let s := forEach (validRegions s) s (fun s r => coldRegion s h r)
  let s := forEach s.draftUnits s (fun s u => forEach (homePieces h (u * 65536) 65536) s (fun s x => poisonPiece s (u * 65536 + x)))
  let s := dropCached s (s.tierCache.map (fun e => e.key))
  let s := { s with counters := s.counters.filter (fun e => ctrHome e.1 != h) }
  let s := forEach (s.areas.filter (fun a => ctrHome a.counter == h)) s armArea
  let s := settleAll s
  let s := forEach (homeWins h) s closeWindow
  forEach (List.range 256) s (fun s p => clrBit s (rPlanStat p) 63)

/-! The rip panel and the whole-device reset (R606 to R608, R641, R642). -/

/-- The PARITY units of this holder whose programs have ended (R152), with the contributions that they list. -/
def parityWritten (s : State) : List Stripe :=
  s.parUnits.filterMap (fun x => (s.metaLocs.find? (fun e => e.1 == ⟨4, 0, 0, x.id⟩)).map (fun e =>
    { x with parts := ((logUnitAt s e.2).map (fun u => u.parts)).getD x.parts }))

/-- What a memory key names: is it in a version that a DECISION record on the medium records, or on the NOR? -/
def onMedium (s : State) (key : Nat) : Bool :=
  let sp := key / 2 ^ 50
  sp == spMisc 0 || (sp % 8 == 1 && s.decisions.any (fun d => spVersion d.1 d.2.1 == sp))

/-- Is it the register DOM_STAT_d? -/
def domStat (off : Nat) : Bool := decide (0x200000 ≤ off) && decide (off < 0x210000) && off % 256 == 8

/-- A register after a whole-device reset (R641): the bits of its map that outlive it, the rest at their reset values; DOM_STAT_d
is sticky. -/
def afterReset (off : Nat) (v : Word) : Word :=
  let keep := if domStat off then 2 ^ 64 - 1
    else match regRow off with
      | some r => r.keep
      | none => 0
  (v &&& BitVec.ofNat 64 keep) ||| (regReset off &&& ~~~(BitVec.ofNat 64 keep))

/-- The state of the fast domains after a whole-device reset (R641): the tables, sessions, kernels and buffers are empty; what
lies in the standby and always-on domains, on the medium and on the NOR stays. -/
def fastReset (s : State) : State :=
  let keepU := fun (u : Nat) => onMedium s (u * 65536)
  { s with
    regs := s.regs.filterMap (fun e => let v := afterReset e.1 e.2; if v = regReset e.1 then none else some (e.1, v))
    mem := s.mem.filter (fun c => onMedium s c.1)
    poison := s.poison.filter (fun l => onMedium s (l * 64))
    dir := [], filt := [], store := [], trk := [], retry := [], blockq := [], recallq := [], wbq := [], covers := [], coverSent := []
    restoreq := [], credHeld := [], peerOuts := [], streamWait := [], lineBuf := [], poolMap := [], ringPos := [], areas := [], counters := [], wins := [], keptCpl := []
    inj := s.inj.filter (fun i => (decide (0x6000000 ≤ i.off) && decide (i.off < 0x7000000)) || decide (0x8000000 ≤ i.off))
    freeFrames := 8355840, dirtyFrames := 0, draftUnits := [], draftMaps := [], medUse := [], medResv := [], tierCache := []
    fetches := [], fetchDoms := [], lost := s.lost.filter keepU, shadows := [], degraded := [], toRestore := [], sess := [], lathQ := [], engQ := []
    kernels := [], readyNo := 0, fireNo := 0, planLoads := [], planDigests := [], lathes := [], granules := [], replicas := [], reels := [], missq := []
    kstamps := [], streamUnits := [], versions := []
    verUnits := s.verUnits.filter (fun e => s.decisions.any (fun d => d.1 == e.1 && d.2.1 == e.2.1))
    pubs := [], hangs := [], rowTurn := [], kiteNo := 0, ctxs := [], kites := [], cplWait := [], rebuilt := [], stripes := [], lunTmo := [], copying := []
    parUnits := parityWritten s, progs := [], logQ := [], decQ := [], reading := [], retracts := []
    bands := s.bands.map (fun e => (e.1, { e.2 with isOpen := false, reclaim := 0 })), sentinels := [], scrubs := [], lateQ := [], rebuildAt := 0, foreign := []
    recovs := [], nameds := [], links := [], cells := [], swOut := [], swIn := [], swTurn := [], swLive := [], swSpent := []
    mirCnt := 0, fabReqs := [], agentq := [], agentReqs := [], agentTxn := 0, farGot := [], fwdWrites := [], swInTurn := [], swCycles := 0, reelWaits := [], wbParts := [], reelParts := [], cmpWait := [], sweeps := [], ethAddr := [], pfcQ := [], paused := [], xoff := []
    tetherSeen := [], pmcHeld := [], tagRegs := [], tagFresh := [], clocked := [], ballastQ := [], imgRx := ⟨0, []⟩, imgWrite := none, tsWait := none, stay := false }

/-- The memory access of Tailstock that a reset of the fast domains cuts short is refused (R753). -/
def tsCut (s : State) : State :=
  match s.tsWait with
  | some (cmd, _, _) => tsText { s with tsWait := none } cmd tsRefused []
  | none => s

/-- PWR_STAT.STATE. -/
def pwrState (s : State) : Nat := regFld s (rPwr 8) 2 0
def setPwrState (s : State) (v : Nat) : State := regPut s (rPwr 8) 2 0 v

/-- Switch the fast rails that are off on in order (R737), or those that are on off in the reverse order (R739); while the stacks are
held, the HBM rails stay as they are. -/
def switchRails (s : State) (on : Bool) (held : Bool) : State :=
  let order := ([0, 1, 2] ++ (if held then [] else [5, 3, 4]) ++ [6]).filter (fun r => s.rails.contains r != on)
  let s := forEach (if on then order else order.reverse) s (fun s r => send s (.pin (100 + r) on))
  { s with rails := if on then s.rails ++ order else s.rails.filter (fun r => !order.contains r) }

/-- With the last fast clock stopped, the fast rails of a device that is held in STANDBY go off (R697). -/
def railsOff (s : State) : State :=
  if pwrState s < 3 ∧ s.clocked = [] then switchRails s false (pwrState s == 2) else s

/-- The dump of a device whose stacks have power to hold it (R620, R622). -/
def dumpDevice (s : State) (action : Nat) : State := if pwrState s = 1 then s else collectDump s 15 0 action 0

/-- The fast domains are off: the stacks are in self-refresh, unless they were off before. -/
def fastOut (s : State) : State := if pwrState s = 1 then s else setPwrState s 2

/-- Start a whole-device reset (R641): the dump, then the fast domains off with the stacks in self-refresh; Headstock is next
(R668). A second error while one is handled pulls the rip panel elsewhere. -/
def wholeReset (s : State) (esc : Nat) : State :=
  let s := dumpDevice (logErr s { cls := 8, code := 0, kind := 15, action := 10, esc := esc }) 10
  let s := railsOff (fastOut (fastReset (tsCut s)))
  { (regPut s (rBoot 0) 3 0 0) with recovs := [⟨15, 0, esc, []⟩] }

/-- Every fast clock stops, one unit at a time at priority 0 (R689). -/
def stopClocks (s : State) : State := forEach s.clocked { s with ballastQ := [] } (fun s u => askStop s u 0)

/-- Pull the rip panel (R607): every kernel aborts, then the dump, every port down, every fast clock stopped; the entry of the error
has ESC 2. -/
def ripPull (s : State) (kind unit : Nat) : State :=
  let s := forEach (s.kernels.map (fun k => k.win)) s (fun s w => tellMembers (recoveryAbort s w 0) w)
  let s := dumpDevice s 11
  let s := forEach (List.range 18) s takeDown
  let s := railsOff (stopClocks (fastOut { s with recovs := [] }))
  let s := logErr s { cls := 8, code := 1, kind := kind, unit := unit, action := 11, esc := 2 }
  send (regPut (regPut (setBit s (rRecov 0x10) 63) (rRecov 0x10) 47 0 s.seq.toNat) (rRecov 8) 3 0 3) (.pin 1 false)

/-- Is the rip panel holding the device? -/
def ripHeld (s : State) : Bool := regFld s (rRecov 8) 3 0 == 3

/-- A further error in a domain instance that is being handled (R603, R606): it escalates to the enclosing instance, and in an
escalated instance or a whole-device reset it pulls the rip panel. -/
def nestedError (s : State) (kind unit : Nat) : State :=
  let up := enclosing s kind unit
  let above := s.recovs.any (fun r => decide (0 < r.esc) && ((r.kind == kind && r.unit == unit) || (r.kind == up.1 && r.unit == up.2)
    || r.kind == 15))
  let (k, u) := logUnit s kind unit
  if above || kind == 15 then ripPull s k u
  else
    let inner := match recovOf s kind unit with
      | some r => (kind, unit) :: r.inner
      | none => [(kind, unit)]
    let s := recovEvent s 1 1 { cls := 8, code := 1, kind := k, unit := u, action := resetAction up.1 false, esc := 1 }
    let s := endRecov s kind unit
    if up.1 = 15 then wholeReset s 1
    else
      let s := endRecov s up.1 up.2
      { s with recovs := s.recovs ++ [⟨up.1, up.2, 1, inner⟩] }

/-- Does a stack hold a line of a COHERENT region? Each such region has lines in every stack (R42). -/
def holdsCoherent (s : State) : Bool := (validRegions s).any (rgCoherent s)

/-- A condition that calls for a cold reset of home agent `h` escalates to a whole-device reset (R592). -/
def coldEscalate (s : State) (h : Nat) : State :=
  wholeReset (recovEvent s 1 1 { cls := 8, code := 1, kind := 6, unit := h, action := 10, esc := 1 }) 1

/-- HOME_COLD_RESET (R592, R593): while a COHERENT region is valid, its lines lie in every stack, and the condition escalates to
a whole-device reset. -/
def doHomeColdReset (home : Fin 8) (s : State) : State :=
  whenRunning s fun s =>
    let h := home.val
    if !inService s 6 h then s
    else if holdsCoherent s then coldEscalate s h
    else openWindows (closeReset (setBit (portFlush (coldHome (openReset s 6 h true) h) (18 + h)) (rStk h 0) 6) 6 h) h

/-- BACKGROUND_RESTORE (R594): the home restores the oldest piece that waits, and serves what waited for it. -/
def doBackgroundRestore (home : Fin 8) (s : State) : State :=
  whenRunning s fun s =>
    match s.toRestore.find? (fun p => p.1 / 4096 % 8 == home.val) with
    | none => s
    | some p => serveUnit (restored s p.1 p.2) (p.1 / 65536)

/-- MEDIUM_CHANNEL_RESET (R595): the channel trains again under R109 and R110; the band table, the maps and the log stay. -/
def doMediumChannelReset (chan : Fin 32) (trains : List (BitVec 16)) (s : State) : State :=
  whenRunning s fun s =>
    let c := chan.val
    if !inService s 8 c then s
    else
      let s := openReset s 8 c false
      let n := regFld s (rMedCh c 0) 15 12
      let s := match trainRate (Sparse.get s.chanRates c []) trains with
        | some r => regPut (bringUp s c n r) (rMedCh c 0) 31 16 r
        | none => markService (medEvent (bringUp s c n 0) c 2 0 0) 8 c false
      logStep (startReads (degradeQuads (closeReset s 8 c)))

/-- SWITCH_CORE_RESET (R554, R601): every running kernel aborts, which the members of its composition are told (R625), every cell goes, every port goes down, and the bound fabric
ports train again from DETECT; SW_MIRROR and the epoch, which R554 does not keep, take their reset values; the reset includes the
units whose recoveries escalated to it (R603). `parity` says that a scheduler parity error called for it. -/
def doSwitchCoreReset (parity : Bool) (s : State) : State :=
  whenRunning s fun s =>
    let s := if parity then swEvent s 0 9 else s
    let inner := match recovOf s 11 0 with
      | some r => r.inner
      | none => []
    let s := openReset s 11 0 false
    let s := forEach (runningWins s) s (fun s w => tellMembers (recoveryAbort s w 0) w)
    let s := forEach (List.range 42) s takeDown
    let s := { s with cells := [], swOut := [], swIn := [], swTurn := [], swInTurn := [], swSpent := [], swCycles := 0, mirCnt := 0 }
    let s := regPut (regSet s (rSw 0x20) 0) (rSw 8) 27 12 0
    let s := forEach (List.range 16) s (fun s p => if fabKind s p = 0 then s else fabStart (putLink s p {}) p)
    let s := forEach inner s (fun s u =>
      if u.1 = 1 then resetLathe s u.2 else if u.1 = 2 then resetWalker s u.2 else if u.1 = 4 then resetGouge s u.2 else s)
    closeReset s 11 0

/-- WHOLE_DEVICE_RESET. -/
def doWholeDeviceReset (s : State) : State := whenRunning s fun s => wholeReset s 0

/-- RESET_DEADLINE (R597): a reset that runs past its target is a further error in its domain. The unit is named as in the error
log; kind 16 is the kernel context of a window. -/
def doResetDeadline (kind : Fin 17) (unit : BitVec 12) (s : State) : State :=
  if (recovOf s kind.val unit.toNat).isNone || ripHeld s then s else nestedError s kind.val unit.toNat

/-! Tethers (R635 to R638). -/

/-- Append an orphan (R637). -/
def listOrphan (s : State) (region line epoch holder : Nat) : State :=
  let held := regFld s rTetherStat 44 32
  if 4096 ≤ held then setBit s rTetherStat 0
  else
    let j := (regFld s rTetherStat 31 20 + held) % 4096
    let s := regSetList s (rOrphan j) [BitVec.ofNat 64 (region % 65536 + line % 2 ^ 32 * 2 ^ 32), BitVec.ofNat 64 (epoch % 2 ^ 48 + holder % 65536 * 2 ^ 48)]
    regPut s rTetherStat 44 32 (held + 1)

/-- Read one tether record (R635, R636): EPOCH 0 is a record never used. An expired one is orphaned, unless its epoch is the last: the write
is refused as any such one is (R632). -/
def sweepRecord (s : State) (r off : Nat) : State :=
  let d := curLine s off
  let epoch := lineFld d 0 6
  let holder := lineFld d 6 2
  let now := epoch * 2 ^ 32 + lineFld d 8 4
  let flags := lineFld d 26 1
  let seen := s.tetherSeen.contains (off, now)
  let gone : Bool := epoch != 0 && holder != 0xFFFF && flags % 4 == 0 && seen
  if isPoisoned s off then s
  else if gone && epoch + 1 == 2 ^ 48 then tetherRefuse s 0 (globalAddr s off)
  else if gone then
    let n := d.toNat - epoch - holder * 2 ^ 48 + (epoch + 1) + 0xFFFF * 2 ^ 48 + 2 ^ 208
    let s := putStack (storeFree s off) off (BitVec.ofNat 512 n)
    let s := { s with tetherSeen := Sparse.set s.tetherSeen off 0 ((epoch + 1) * 2 ^ 32 + lineFld d 8 4) }
    let s := listOrphan s r ((off - rgBase s r) / 64) (epoch + 1) holder
    recovEvent s 9 9 { cls := 9, code := 2, dom := holder / 256, addr := globalAddr s off }
  else { s with tetherSeen := Sparse.set s.tetherSeen off 0 now }

/-- The tether sweep of entry `t` (R635): every record of its region. A record whose bytes are all zero was never used. -/
def tetherSweep (s : State) (t : Nat) : State :=
  if !regBit s (rTether t) 63 then s
  else
    let r := regFld s (rTether t) 49 36
    let lo := rgBase s r
    let lines := ((s.mem.filter (fun (c : Host.Cell) => decide (lo ≤ c.1) && decide (c.1 < lo + rgSize s r))).map (fun (c : Host.Cell) => c.1 / 64 * 64)
      ++ (s.store.filter (fun (e : StoreEnt) => decide (lo ≤ e.line * 64) && decide (e.line * 64 < lo + rgSize s r))).map (fun (e : StoreEnt) => e.line * 64)).dedup
    if rgValid s r then forEach lines s (fun s off => sweepRecord s r off) else s

/-- TETHER_SWEEP. -/
def doTetherSweep (tether : Fin 16) (s : State) : State := whenRunning s fun s => tetherSweep s tether.val

/-- ORPH_ACK (R643): free the N oldest entries and clear OVERFLOW. -/
def doOrphAck (n : BitVec 13) (s : State) : State :=
  whenRunning s fun s =>
    let k := min n.toNat (regFld s rTetherStat 44 32)
    clrBit (regPut (regSub s rTetherStat 44 32 k) rTetherStat 31 20 (regFld s rTetherStat 31 20 + k)) rTetherStat 0

/-- DUMP_RELEASE (R643): clear UNREAD of a slot. -/
def doDumpRelease (slot : Fin 2) (s : State) : State :=
  clrBit (regPut s (rRecov 0x110) 31 31 slot.val) (rRecov 0x108) (2 + slot.val)

/-- ERR_ACK (R586): at most HELD entries go. -/
def doErrAck (cls : Fin 12) (n : BitVec 8) (s : State) : State := errAck s cls.val (min n.toNat (regFld s (rErrHead cls.val) 63 56))

/-! Stack and control core errors (R587 to R590). -/

/-- An error that calls for a reset of home agent `h`: its sticky bit and its entry; the home is being handled from now on. A call for
a cold reset while a stack holds lines of a COHERENT region escalates at once (R592). -/
def stkCalls (s : State) (h b : Nat) (cold : Bool) : State :=
  let esc := (recovOf s 6 h).isSome
  let s := logErr (setBit s (rStk h 0) b) { cls := 3, code := b, kind := 7, unit := h, action := resetAction 6 cold }
  if esc then nestedError s 6 h
  else if cold ∧ holdsCoherent s then coldEscalate s h
  else beginRecov s 6 h

/-- STACK_TRAINING_LOSS (R590). -/
def doStackTrainingLoss (stack : Fin 8) (s : State) : State := whenRunning s fun s => stkCalls s stack.val 2 true

/-- CONTROL_CORE_UE (R587): a whole-device reset. -/
def doControlCoreUe (s : State) : State :=
  whenRunning s fun s => wholeReset (recovEvent s 11 11 { cls := 8, code := 11, action := 10 }) 0

/-! Injections (R587). -/

def doStkInjCe (stack : Fin 8) (s : State) : State := whenRunning s fun s => armInj s (rStk stack.val 0x18) 1 0 false
def doStkInjUe (stack : Fin 8) (s : State) : State := whenRunning s fun s => armInj s (rStk stack.val 0x18) 2 0 false
def doStkInjTrkUe (stack : Fin 8) (s : State) : State := whenRunning s fun s => stkCalls s stack.val 3 false
def doStkInjCtrUe (stack : Fin 8) (s : State) : State := whenRunning s fun s => stkCalls s stack.val 4 true
def doStkInjTrain (stack : Fin 8) (s : State) : State := whenRunning s fun s => stkCalls s stack.val 2 true
def doRecovInjCwAccess (s : State) : State := whenRunning s fun s => cwAccessErr s (rRecov 0x20) 0

/-- RECOV_INJ KIND 2: the innermost domain that contains a unit is reset (R595). -/
def resetUnit (s : State) (kind unit : Nat) : State :=
  if kind = 1 then doLatheReset (Fin.ofNat 128 unit) s
  else if kind = 2 then doEngineReset (Fin.ofNat 48 (unit % 32)) s
  else if kind = 4 then doEngineReset (Fin.ofNat 48 (32 + unit % 16)) s
  else if kind = 3 ∨ kind = 5 then
    let w := if kind = 3 then (kiteOf s unit).win else (ctxOf s unit).win
    let used := if kind = 3 then kiteUsed s unit else ctxUsed s unit
    if used then kernelAbort s w { code := 17, engine := if kind = 3 then 256 + unit / 128 else 288 + unit / 8, addr := 0 } else s
  else if kind = 6 ∨ kind = 7 then doHomeWarmReset (Fin.ofNat 8 unit) s
  else if kind = 8 then doMediumChannelReset (Fin.ofNat 32 unit) [BitVec.ofNat 16 (regFld s (rMedCh (unit % 32) 0) 31 16)] s
  else if kind = 9 then
    (if unit < 16 then closeReset (fabStart (portFall false (openReset s 9 unit false) unit) unit) 9 unit else s)
  else if kind = 10 then (if unit = 16 ∨ unit = 17 then closeReset (takeDown (openReset s 10 unit false) unit) 10 unit else s)
  else if kind = 11 then doSwitchCoreReset false s
  else wholeReset s 0

def doRecovInjReset (unit : BitVec 16) (s : State) : State :=
  whenRunning s fun s => resetUnit s (unit.toNat / 4096) (unit.toNat % 4096)

/-- RECOV_INJ KIND 3: an error in the recovery that runs for a unit. -/
def doRecovInjNested (unit : BitVec 16) (s : State) : State :=
  let k := unit.toNat / 4096
  let u := unit.toNat % 4096
  if ripHeld s || (recovOf s k u).isNone then s else nestedError s k u

def doRecovInjRip (s : State) : State := whenRunning s fun s => ripPull s 15 0
def doRecovInjTetherSweep (s : State) : State := whenRunning s fun s => forEach (List.range 16) s tetherSweep
def doRecovInjAbort (dom : BitVec 8) (s : State) : State := whenRunning s fun s => abortSend s dom.toNat 17
def doRecovInjCtrlUe (s : State) : State := doControlCoreUe s

-- EXEC
def execKernelContextRecovery (w : Fin 1024) (s : State) : Host.Outcome State Fault Refusal :=
  .next (doKernelContextRecovery w s)
def execReplayStart (w : Fin 1024) (s : State) : Host.Outcome State Fault Refusal := .next (doReplayStart w s)
def execFrozenTimeout (w : Fin 1024) (s : State) : Host.Outcome State Fault Refusal := .next (doFrozenTimeout w s)
def execLatheReset (lathe : Fin 128) (s : State) : Host.Outcome State Fault Refusal := .next (doLatheReset lathe s)
def execEngineReset (engine : Fin 48) (s : State) : Host.Outcome State Fault Refusal := .next (doEngineReset engine s)
def execHomeWarmReset (home : Fin 8) (s : State) : Host.Outcome State Fault Refusal := .next (doHomeWarmReset home s)
def execHomeColdReset (home : Fin 8) (s : State) : Host.Outcome State Fault Refusal := .next (doHomeColdReset home s)
def execBackgroundRestore (home : Fin 8) (s : State) : Host.Outcome State Fault Refusal := .next (doBackgroundRestore home s)
def execMediumChannelReset (chan : Fin 32) (trains : List (BitVec 16)) (s : State) : Host.Outcome State Fault Refusal :=
  .next (doMediumChannelReset chan trains s)
def execSwitchCoreReset (parity : Bool) (s : State) : Host.Outcome State Fault Refusal := .next (doSwitchCoreReset parity s)
def execWholeDeviceReset (s : State) : Host.Outcome State Fault Refusal := .next (doWholeDeviceReset s)
def execResetDeadline (kind : Fin 17) (unit : BitVec 12) (s : State) : Host.Outcome State Fault Refusal :=
  .next (doResetDeadline kind unit s)
def execTetherSweep (tether : Fin 16) (s : State) : Host.Outcome State Fault Refusal := .next (doTetherSweep tether s)
def execOrphAck (n : BitVec 13) (s : State) : Host.Outcome State Fault Refusal := .next (doOrphAck n s)
def execDumpRelease (slot : Fin 2) (s : State) : Host.Outcome State Fault Refusal := .next (doDumpRelease slot s)
def execErrAck (cls : Fin 12) (n : BitVec 8) (s : State) : Host.Outcome State Fault Refusal := .next (doErrAck cls n s)
def execStackTrainingLoss (stack : Fin 8) (s : State) : Host.Outcome State Fault Refusal :=
  .next (doStackTrainingLoss stack s)
def execControlCoreUe (s : State) : Host.Outcome State Fault Refusal := .next (doControlCoreUe s)
def execStkInjCe (stack : Fin 8) (s : State) : Host.Outcome State Fault Refusal := .next (doStkInjCe stack s)
def execStkInjUe (stack : Fin 8) (s : State) : Host.Outcome State Fault Refusal := .next (doStkInjUe stack s)
def execStkInjTrkUe (stack : Fin 8) (s : State) : Host.Outcome State Fault Refusal := .next (doStkInjTrkUe stack s)
def execStkInjCtrUe (stack : Fin 8) (s : State) : Host.Outcome State Fault Refusal := .next (doStkInjCtrUe stack s)
def execStkInjTrain (stack : Fin 8) (s : State) : Host.Outcome State Fault Refusal := .next (doStkInjTrain stack s)
def execRecovInjCwAccess (s : State) : Host.Outcome State Fault Refusal := .next (doRecovInjCwAccess s)
def execRecovInjReset (unit : BitVec 16) (s : State) : Host.Outcome State Fault Refusal := .next (doRecovInjReset unit s)
def execRecovInjNested (unit : BitVec 16) (s : State) : Host.Outcome State Fault Refusal := .next (doRecovInjNested unit s)
def execRecovInjRip (s : State) : Host.Outcome State Fault Refusal := .next (doRecovInjRip s)
def execRecovInjTetherSweep (s : State) : Host.Outcome State Fault Refusal := .next (doRecovInjTetherSweep s)
def execRecovInjAbort (dom : BitVec 8) (s : State) : Host.Outcome State Fault Refusal := .next (doRecovInjAbort dom s)
def execRecovInjCtrlUe (s : State) : Host.Outcome State Fault Refusal := .next (doRecovInjCtrlUe s)

end Sys2Proof.Machine
end

