-- ==== Sys2Proof/Machine/Power.lean ====
section
/-! DEFINITION. Machine/Power.lean: power domains and states, Ballast, the power cap, the PMBus and the board control signals
(chapters 16 and 18). -/

namespace Sys2Proof.Machine

/-! Events (R587). -/

/-- A POWER entry, with the bit of PWR_ERR that goes with it. -/
def pwrEvent (s : State) (bit : Option Nat) (code action d0 : Nat) : State :=
  let s := match bit with
    | some b => setBit s (rPwr 0x30) b
    | none => s
  logErr s { cls := 10, code := code, kind := 14, action := action, d0 := d0 }

/-- BOOT_STAT.STATE. -/
def bootState (s : State) : Nat := regFld s (rBoot 0) 3 0

/-- An error that starts a whole-device reset (R684, R702): the second one while a whole-device reset is being handled pulls the
rip panel (R606). -/
def errorWhole (s : State) : State :=
  if ripHeld s then s
  else if s.recovs.any (fun r => r.kind == 15) then ripPull s 15 0
  else wholeReset s 0

/-! The standby domain and RUNNING. -/

/-- The device enters RUNNING (R697): every unit is in service, the gateway is READY (R555), and the whole-device reset has been handled. -/
def enterRunning (s : State) : State :=
  let s := setBit (setPwrState { s with recovs := [], thermTrip := false } 4) (rGw 0) 0
  let s := regSetList s (rRecov 0xC0) [BitVec.ofNat 64 (2 ^ 64 - 1), BitVec.ofNat 64 (2 ^ 64 - 1), BitVec.ofNat 64 (2 ^ 56 - 1),
    BitVec.ofNat 64 (2 ^ 50 - 1)]
  let s := forEach (List.range 2) s (fun s e => askStart s (unitCode 10 e))
  send s (.pin 0 true)

/-- Bring up the fast domain after Headstock (R698, R737): the rails, and the starts of the control complex, the switch core
and the home agents. -/
def startWake (s : State) : State :=
  let held := pwrState s == 2
  let s := switchRails (setPwrState s 3) true held
  let s := { s with clocked := [], ballastQ := [], wake := false }
  forEach ([unitCode 0 0, unitCode 11 0] ++ (List.range 8).map (unitCode 6)) s askStart

/-- A unit's clock starts or stops; with the last one of a device that stops, the fast rails go off. A home agent whose clock starts is READY, and its windows enter READY, armed (R382); the switch core is READY then too (R555). In
WAKING the device is RUNNING once the control complex, the switch core and every home agent are clocked. -/
def grantClock (s : State) (q : BReq) : State :=
  let s := { s with clocked := if q.start then Sparse.add s.clocked q.unit else Sparse.rem s.clocked q.unit }
  if !q.start then railsOff s
  else
    let k := q.unit / 4096
    let h := q.unit % 4096
    let s := if k = 6 ∧ h < 8 then
        openWindows (setBit s (rHome h 0) 0) h
      else if k = 11 then setBit s (rSw 8) 0
      else s
    if pwrState s = 3 ∧ ([unitCode 0 0, unitCode 11 0] ++ (List.range 8).map (unitCode 6)).all (fun u => s.clocked.contains u) then
      enterRunning s
    else s

/-- An upward arithmetic step (R687, R695): at most one step every 2 µs. -/
def stepUp (s : State) : State :=
  let (n, s) := drawFree s
  regPut { s with stepAt := [n] } (rPwr 0x10) 15 0 (min 2400 (arithMhz s + 100))

/-- Grant what the ledger covers, in order (R689, R690). -/
def grantLoop (fuel : Nat) (s : State) : State :=
  match fuel with
  | 0 => s
  | k + 1 =>
    match headReq s.ballastQ with
    | none => s
    | some q =>
      let cost := 100 * clockCost s q.unit
      let soon := match s.stepAt with
        | t :: _ => q.unit / 4096 == 16 && within t s.free 2000
        | [] => false
      if regFld s (rPwr 0x20) 15 0 < cost ∨ soon = true then s
      else
        let s := regSub { s with ballastQ := s.ballastQ.erase q } (rPwr 0x20) 15 0 cost
        grantLoop k (if q.unit / 4096 = 16 then stepUp s else grantClock s q)

/-- BALLAST_TICK (R688 to R690): the ledger refills up to DEPTH, and requests are granted; one that stays waits for tokens. -/
def doBallastTick (s : State) : State :=
  if !s.stbyUp then s
  else
    let cap := 100 * regFld s (rPwr 0x18) 23 16
    let s := regPut { s with pace := s.pace + 1 } (rPwr 0x20) 15 0 (min cap (regFld s (rPwr 0x20) 15 0 + regFld s (rPwr 0x18) 15 0))
    let s := grantLoop s.ballastQ.length s
    let late := (s.ballastQ.filter (fun q => !q.waited)).length
    showQueue (addCnt { s with ballastQ := s.ballastQ.map (fun q => { q with waited := true }) } (rPwr 0x40) late)

/-- Has a unit no work (R685)? -/
def unitIdle (s : State) (u : Nat) : Bool :=
  let k := u / 4096
  let n := u % 4096
  if k = 1 then latheState s n == 0 || latheState s n == 8
  else if k = 2 then (List.range 1024).all (fun i => !kiteUsed s (1024 * n + i)) && (List.range 32).all (fun i => !ctxUsed s (32 * n + i))
  else if k = 8 then s.fetches == [] && s.progs == [] && s.reading == [] && s.logQ == [] && s.scrubs == [] && s.bands.all (fun e => e.2.reclaim == 0)
  else if k = 12 then s.missq == [] && s.reelWaits == [] && s.reels.all (fun e => e.2.st != .fetching && e.2.st != .writing)
  else false

/-- CLOCK_IDLE_STOP (R685): a Lathe, walker cluster, medium port or the gateway has had no work for IDLE_US. -/
def doClockIdleStop (unit : BitVec 16) (s : State) : State :=
  whenRunning s fun s => if unitIdle s unit.toNat then askStop s unit.toNat 5 else s

/-- BALLAST_CFG_WRITE (R692). -/
def doBallastCfgWrite (v : BitVec 64) (s : State) : State :=
  if !s.stbyUp then s
  else
    let d := max 64 (bits v.toNat 23 16)
    regPut (regPut (regPut s (rPwr 0x18) 47 32 (bits v.toNat 47 32)) (rPwr 0x18) 23 16 d) (rPwr 0x18) 15 0 (bits v.toNat 15 0)

/-! Power cap and temperature (R694 to R696). -/

/-- A thermal trip (R696): every port down, every fast clock stopped at priority 0, the stacks in self-refresh, and STANDBY. -/
def thermalTrip (s : State) : State :=
  let s := pwrEvent s (some 2) 5 0 s.hotJ
  let s := forEach (List.range 42) s takeDown
  let on := s.clocked
  let s := setPwrState { (fastReset (tsCut s)) with thermTrip := true, clocked := on } 2
  railsOff (send (stopClocks s) (.pin 0 false))

/-- POWER_SAMPLE (R694, R695): the package power in W and the hottest sensor in °C. The clock has no step below 1,200 MHz (R683). -/
def doPowerSample (watts : BitVec 16) (temp : BitVec 8) (s : State) : State :=
  if !s.stbyUp then s
  else
    let lim := regFld s (rPwr 0x28) 23 16
    let (t, s) := match takeInj s (rPwr 0x38) 1 (fun _ => true) with
      | some (_, u) => (lim + 5, u)
      | none => (temp.toNat, s)
    let s := regPut (regPut { s with hotJ := t } (rPwr 8) 63 56 t) (rPwr 8) 55 40 watts.toNat
    let cap := regFld s (rPwr 0x28) 15 0
    if pwrState s < 3 then s
    else if 115 ≤ t then thermalTrip s
    else if cap < watts.toNat ∨ lim ≤ t then
      let s := { s with coolRun := 0 }
      if arithMhz s ≤ max 1200 (100 * regFld s (rPwr 0x28) 31 24) then s
      else
        let (n, s) := drawFree s
        let s := pwrEvent (incCnt { s with stepAt := [n] } (rPwr 0x48)) (some 1) 6 0 t
        regPut s (rPwr 0x10) 15 0 (arithMhz s - 100)
    else if 100 * watts.toNat < 95 * cap ∧ t + 5 ≤ lim then
      if s.coolRun + 1 < 10 then { s with coolRun := s.coolRun + 1 }
      else if arithMhz s < 2400 then askStart { s with coolRun := 0 } (unitCode 16 0) else { s with coolRun := 0 }
    else { s with coolRun := 0 }

/-! Requests (R699). -/

/-- PWR_REQ_RUN: from STANDBY, Headstock runs again and the device wakes; refused in recovery boot, under the rip panel and while
the hottest sensor reads 95 °C or more. -/
def doPwrReqRun (s : State) : State :=
  let s := regPut s (rPwr 0) 1 0 0
  if !s.stbyUp || (pwrState s != 1 && pwrState s != 2) then s
  else if bootState s == 1 || ripHeld s || decide (95 ≤ s.hotJ) then setBit s (rPwr 0x30) 5
  else { (regPut s (rBoot 0) 3 0 0) with wake := true, stay := false, recovs := [⟨15, 0, 0, []⟩] }

/-- Without KEEP_STACKS the stacks lose their power, and the dumps with it. -/
def stacksOff (s : State) : State := setPwrState (regSet { s with dumps := [] } (rRecov 0x108) 0) 1

/-- PWR_REQ_STANDBY: the dump, then the fast domains off. With the fast domains off already, a device that a reset would wake stays in
STANDBY, and stacks that are held are let go without KEEP_STACKS. -/
def doPwrReqStandby (s : State) : State :=
  let s := regPut s (rPwr 0) 1 0 0
  if !s.stbyUp then s
  else if pwrState s < 3 then
    let s := if s.recovs.any (fun r => r.kind == 15) then { s with recovs := [], wake := false, stay := true } else s
    if pwrState s = 2 ∧ regBit s (rPwr 0) 2 = false then
      stacksOff { (forEach [4, 3, 5] s (fun s r => send s (.pin (100 + r) false))) with rails := s.rails.filter (fun r => !([3, 4, 5].contains r)) }
    else s
  else
    let keep := regBit s (rPwr 0) 2
    let s := switchRails (fastReset (tsCut (collectDump s 15 0 10 0))) false keep
    if keep then setPwrState s 2 else stacksOff s

/-! Rails and the PMBus (R700 to R702, R737 to R739). -/

/-- RAIL_TIMEOUT (R738): a fast rail is not within tolerance in 10 ms while the device wakes; every fast rail goes off, the stacks' too. -/
def doRailTimeout (rail : Fin 7) (s : State) : State :=
  if pwrState s ≠ 3 then s
  else
    let s := switchRails (pwrEvent s (some 3) 4 0 rail.val) false false
    stacksOff { s with clocked := [], ballastQ := [], recovs := [] }

/-- One rail of a poll (R702). -/
def pollRail (s : State) (r : PmbRead) : State :=
  if !regBit s (rPwr (0x100 + 8 * r.rail.val)) 16 then s
  else
    let (ok, s) := match takeInj s (rPwr 0x38) 2 (fun _ => true) with
      | some (_, t) => (false, t)
      | none => (r.ok, s)
    if !ok && !r.retryOk then incCnt (pwrEvent s none 3 0 r.rail.val) (rPwr 0x50)
    else
      let (bad, s) := match takeInj s (rPwr 0x38) 3 (fun _ => true) with
        | some (_, t) => (true, t)
        | none => (r.fault, s)
      let s := regSet s (rPwr (0x200 + 8 * r.rail.val)) r.telem
      let s := if bad then pwrEvent s (some 3) 2 0 r.rail.val else s
      if r.undervolt && decide (r.rail.val < 3) && decide (3 ≤ pwrState s) then errorWhole (setBit s (rPwr 0x30) 4) else s

/-- PMBUS_POLL. -/
def doPmbusPoll (reads : List PmbRead) (s : State) : State := if !s.stbyUp then s else forEach reads s pollRail

/-- PLL_UNLOCK (R684): a PLL of the fast domain loses lock, or reference input 0 or 1 is lost, `which` 128 and 129 (assumption 243); a
reference input is also lost while the fast domains are off. -/
def doPllUnlock (which : BitVec 8) (s : State) : State :=
  if pwrState s < 3 ∧ (which.toNat < 128 ∨ s.stbyUp = false) then s else errorWhole (pwrEvent s (some 0) 1 10 which.toNat)

/-! The board's signals (R735, R740 to R743). -/

/-- What a domain's loss of power keeps: fuses, the NOR, the medium, and the model's own records. `aon` says that the always-on
domain goes too; the sticky bits and counts live there (R681). -/
def powerLoss (s : State) (aon : Bool) : State :=
  let fuse := fun (o : Nat) => o == rBoot 0x80 || o == rBoot 0xB0
  let cnt := fun (o : Nat) => domStat o || (match regRow o with
    | some r => decide (r.keep = 2 ^ 48 - 1) || (decide (r.w1c ≠ 0) && decide (r.keep ≠ 0))
      || r.base == rCohHost 0 || r.base == rQuota 0 6 || r.base == rTetherStat
    | none => false)
  let stay := fun (o : Nat) => fuse o || o == rBoot 0xB8 || (!aon && (cnt o || (decide (0x6000000 ≤ o) && decide (o < 0x6000060))))
  let t := fastReset s
  let t := { t with
    unpowered := t.unpowered || aon
    regs := (t.regs.filter (fun e => stay e.1))
    inj := [], seq := 0, mgmtOut := [], mgmtMsg := 0, mgmtPort := 0, mgmtFar := (0, 0), dumps := [], recovs := [], resetAt := []
    stbyUp := false, wake := false, resetLow := false, forceRecovery := false, thermTrip := if aon then false else t.thermTrip
    hotJ := 0, coolRun := 0, stepAt := [], pmbFails := [], imgPort := 0, cmpRx := ⟨0, []⟩, tsOpen := false, tsWait := none, mgmtIdle := []
    mgmtAddr := [], mgmtNext := 1, mgmtHeld := [], rails := [], jtag := 255, boundary := [], imgFlags := 0 }
  let t := regPut t (rBoot 0xB8) 39 32 0
  setPwrState (if aon then { t with aonUp := false, xtal := false, pace := 0 } else t) 0

/-- AON_PG_RISE (R735). -/
def doAonPgRise (s : State) : State := { s with aonUp := true }

/-- AON_PG_FALL (R740): the always-on domain, and with it every other, is held in reset. -/
def doAonPgFall (s : State) : State := if s.aonUp then powerLoss s true else s

/-- STBY_PG_RISE (R682, R732): with reference input 0 running, the straps are sampled, the standby domain comes up, and Headstock
runs next. -/
def doStbyPgRise (slot : BitVec 4) (hold tsEn ref0 : Bool) (s : State) : State :=
  if !s.aonUp || s.stbyUp || !ref0 then { s with tsEn := if s.stbyUp then s.tsEn else tsEn }
  else
    let s := regPut (regPut s rAddrSelf 3 0 slot.toNat) (rPwr 0) 3 3 (if hold then 1 else 0)
    let s := regSet s (rBoot 0x18) 0
    setPwrState { (regPut s (rBoot 0) 3 0 0) with stbyUp := true, tsEn := tsEn } 1

/-- STBY_PG_FALL (R740). -/
def doStbyPgFall (s : State) : State := if s.stbyUp then powerLoss s false else s

/-- XTAL_START (R743). -/
def doXtalStart (s : State) : State := { s with xtal := s.aonUp || s.xtal }

/-- RESET_N_PULSE (R740, R741): `held` says that RESET_N stays low past the fast domains' power-down. -/
def doResetNPulse (held : Bool) (s : State) : State :=
  if !s.stbyUp then s
  else if ripHeld s then logErr s { cls := 8, code := 0, kind := 15, action := 0 }
  else if bootState s = 1 then regPut { s with resetLow := held } (rBoot 0) 3 0 0
  else { (wholeReset s 0) with resetLow := held }

/-- RESET_N_RISE (R740). -/
def doResetNRise (s : State) : State := { s with resetLow := false }

/-! Injections (R704). -/

def pwrInj (s : State) (kind : Nat) : State := if s.stbyUp then armInj s (rPwr 0x38) kind 0 false else s
def doPwrInjHot (s : State) : State := pwrInj s 1
def doPwrInjPmbFail (s : State) : State := pwrInj s 2
def doPwrInjStatusFault (s : State) : State := pwrInj s 3
def doPwrInjTrip (s : State) : State := if pwrState s < 3 then s else thermalTrip s

-- EXEC
def execAonPgRise (s : State) : Host.Outcome State Fault Refusal := .next (doAonPgRise s)
def execAonPgFall (s : State) : Host.Outcome State Fault Refusal := .next (doAonPgFall s)
def execStbyPgRise (slot : BitVec 4) (hold tsEn ref0 : Bool) (s : State) : Host.Outcome State Fault Refusal :=
  .next (doStbyPgRise slot hold tsEn ref0 s)
def execStbyPgFall (s : State) : Host.Outcome State Fault Refusal := .next (doStbyPgFall s)
def execXtalStart (s : State) : Host.Outcome State Fault Refusal := .next (doXtalStart s)
def execResetNPulse (held : Bool) (s : State) : Host.Outcome State Fault Refusal := .next (doResetNPulse held s)
def execResetNRise (s : State) : Host.Outcome State Fault Refusal := .next (doResetNRise s)
def execPllUnlock (which : BitVec 8) (s : State) : Host.Outcome State Fault Refusal := .next (doPllUnlock which s)
def execBallastTick (s : State) : Host.Outcome State Fault Refusal := .next (doBallastTick s)
def execClockIdleStop (unit : BitVec 16) (s : State) : Host.Outcome State Fault Refusal := .next (doClockIdleStop unit s)
def execPowerSample (watts : BitVec 16) (temp : BitVec 8) (s : State) : Host.Outcome State Fault Refusal :=
  .next (doPowerSample watts temp s)
def execPwrReqRun (s : State) : Host.Outcome State Fault Refusal := .next (doPwrReqRun s)
def execPwrReqStandby (s : State) : Host.Outcome State Fault Refusal := .next (doPwrReqStandby s)
def execRailTimeout (rail : Fin 7) (s : State) : Host.Outcome State Fault Refusal := .next (doRailTimeout rail s)
def execBallastCfgWrite (v : BitVec 64) (s : State) : Host.Outcome State Fault Refusal := .next (doBallastCfgWrite v s)
def execPmbusPoll (reads : List PmbRead) (s : State) : Host.Outcome State Fault Refusal := .next (doPmbusPoll reads s)
def execPwrInjHot (s : State) : Host.Outcome State Fault Refusal := .next (doPwrInjHot s)
def execPwrInjPmbFail (s : State) : Host.Outcome State Fault Refusal := .next (doPwrInjPmbFail s)
def execPwrInjStatusFault (s : State) : Host.Outcome State Fault Refusal := .next (doPwrInjStatusFault s)
def execPwrInjTrip (s : State) : Host.Outcome State Fault Refusal := .next (doPwrInjTrip s)

end Sys2Proof.Machine
end

