-- ==== Sys2Proof/Machine/Boot.lean ====
section
/-! DEFINITION. Machine/Boot.lean: Headstock, the firmware image and its slot, the security version and the injections of chapter
15. -/

namespace Sys2Proof.Machine

/-- `n` bytes from memory key `a`. -/
def memBytes (s : State) (a n : Nat) : List (BitVec 8) := (List.range n).map (fun i => Mem.read s.mem (a + i))

/-- Write a list of bytes from memory key `a`. -/
def putBytes (s : State) (a : Nat) (bs : List (BitVec 8)) : State :=
  match bs with
  | [] => s
  | b :: rest => putBytes { s with mem := Mem.write s.mem a b } (a + 1) rest

/-- A BOOT entry with CODE `code`, which BOOT_STAT.LAST_CODE shows, and its bit of BOOT_ERR. -/
def bootLog (s : State) (code : Nat) (bit : Option Nat) (d0 : Nat) : State :=
  let s := match bit with
    | some b => setBit s (rBoot 8) b
    | none => s
  regPut (logErr s { cls := 11, code := code, kind := 15, d0 := d0 }) (rBoot 0) 15 8 code

/-- The states of BOOT_STAT: FAULT_N is low in recovery. -/
def setBootState (s : State) (v : Nat) : State :=
  let s := regPut s (rBoot 0) 3 0 v
  if v = 1 then send s (.pin 1 false) else if regBit s (rRecov 0x10) 63 then s else send s (.pin 1 true)

/-! The firmware image (R667 to R669). -/

/-- Where the slot's bytes and the received image's bytes lie. -/
def slotKey : Nat := spKey (spMisc 0) 0
def stagedKey : Nat := spKey (spMisc 4) 0

/-- SIZE of the image at memory key `a`. -/
def imgSize (s : State) (a : Nat) : Nat := s.readN (a + 16) 8

/-- The digest of an image (R669). -/
def imgDigest (s : State) (a : Nat) : BitVec 512 := Config.shake256 (memBytes s a (imgSize s a))

/-- The Headstock checks on the image at memory key `a` (R668): the BOOT code of the first that fails. -/
def imageCheck (s : State) (a : Nat) : Option Nat :=
  let size := imgSize s a
  let key := s.readN (a + 6) 1
  if s.readN a 4 ≠ 0x4D494B53 ∨ s.readN (a + 4) 2 ≠ 1 ∨ 2 ≤ s.readN (a + 7) 1 ∨ 128 < s.readN (a + 8) 4 ∨ s.readN (a + 12) 4 ≠ 0 ∨
      s.readN (a + 32) 96 ≠ 0 ∨ size < 256 ∨ 25164544 < size then some 2
  else if 2 ≤ key ∨ regBit s (rBoot 0xB0) (8 + key) = true then some 3
  else if s.readN (a + 8) 4 < regFld s (rBoot 0xB8) 7 0 then some 4
  else if Config.falconVerify (Config.romKey key) (leBytes 64 (imgDigest s a).toNat) (memBytes s (a + size) 1280) then none
  else some 5

/-- The bit of BOOT_ERR that goes with a BOOT code: SPI to SIGNATURE, UPDATE_VERIFY, IDENTITY and COMPOSE_SIG. -/
def bootBit (code : Nat) : Option Nat :=
  if 1 ≤ code ∧ code ≤ 7 then some (code - 1) else if code = 9 then some 7 else none

/-- Steps 5 and 6 of Headstock (R663, R668, R698): the measurement, the fresh COMP_NONCE, the start of the control cores, and the
way to RUNNING unless HOLD keeps the device in STANDBY. -/
def bootFinish (s : State) (rails : List (BitVec 17)) : State :=
  let d := (imgDigest s slotKey).toNat
  let s := regSetList s (rBoot 0x40) ((List.range 8).map (fun i => BitVec.ofNat 64 (d / 2 ^ (64 * i))))
  let (n, s) := drawFree s
  let s := regSet s (rBoot 0x88) (Config.freeNonce n)
  let s := regSetList s (rBoot 0x90) [0, 0, 0, 0]
  let s := regPut s (rBoot 0xB8) 39 32 (s.readN (slotKey + 8) 4)
  let s := setBootState { s with imgFlags := s.readN (slotKey + 7) 1 } 2
  if (regBit s (rPwr 0) 3 || s.stay) && !s.wake then s
  else
    let s := regSetList s (rPwr 0x100) ((rails.take 8).map (fun r => (r &&& 0x1FF7F).zeroExtend 64))
    startWake s

/-- HEADSTOCK (R668, R671, R676): `spiOk` says that the NOR answers and every read completes, `identityOk` that the identity key
unwraps; `rails` is the board's rail table in the image (R737). -/
def doHeadstock (spiOk identityOk : Bool) (rails : List (BitVec 17)) (s : State) : State :=
  if !s.stbyUp || bootState s != 0 || s.resetLow || decide (3 ≤ pwrState s) then s
  else
    let s := regSet s (rBoot 0x18) (reg s (rBoot 0x18) + 1)
    let s := if identityOk then setBit s (rBoot 0) 4 else bootLog (clrBit s (rBoot 0) 4) 7 (bootBit 7) 0
    if s.forceRecovery then setBootState { s with forceRecovery := false } 1
    else
      match (if spiOk then imageCheck s slotKey else some 1) with
      | some c => setBootState (bootLog s c (bootBit c) 0) 1
      | none => bootFinish s rails

/-- SVN_ADVANCE (R670): with ADVANCE_SVN set and every home agent READY, MIN_SVN is burnt up to the image's SVN. -/
def doSvnAdvance (s : State) : State :=
  whenRunning s fun s =>
    if s.imgFlags % 2 = 1 ∧ (List.range 8).all (fun h => regBit s (rHome h 0) 0) then
      regPut s (rBoot 0xB8) 7 0 (max (regFld s (rBoot 0xB8) 7 0) (regFld s (rBoot 0xB8) 39 32))
    else s

/-! The slot (R672, R673). -/

/-- Erase the slot and begin to write the staged image to it; `recov` says that the standby core does it in recovery boot. -/
def beginSlotWrite (s : State) (recov : Bool) : State :=
  let s := zeroMem s slotKey 25165824
  let s := { s with imgWrite := some (if recov then 16 else 0) }
  if recov then s else setBootState s 3

/-- Write bytes that read back as they do over an image at memory key `a`; do they differ from it? An image slot has 24 MiB. -/
def patchBytes (s : State) (a : Nat) (bad : List (BitVec 25 × BitVec 8)) : State × Bool :=
  (bad.filter (fun p => decide (p.1.toNat < 25165824))).foldl (fun acc p =>
    let k := a + p.1.toNat
    ({ acc.1 with mem := Mem.write acc.1.mem k p.2 }, acc.2 || Mem.read acc.1.mem k != p.2)) (s, false)

/-- SLOT_WRITE_DONE (R672, R673): the slot holds the staged image but for the bytes `bad`, which read back as given. A mismatch is
written once more, and a second one logs CODE 6. In recovery boot Headstock goes on from step 5. -/
def doSlotWriteDone (bad : List (BitVec 25 × BitVec 8)) (rails : List (BitVec 17)) (s : State) : State :=
  match s.imgWrite with
  | none => s
  | some k =>
    let s := copyMem s stagedKey slotKey 25165824
    let (s, differs) := patchBytes s slotKey bad
    let (failed, s) := match takeInj s (rBoot 0x10) 2 (fun _ => true) with
      | some (_, t) => (true, t)
      | none => (differs, s)
    if failed && k % 16 == 0 then { (zeroMem s slotKey 25165824) with imgWrite := some (k + 1) }
    else
      let s := { (zeroMem s stagedKey 25165824) with imgWrite := none }
      let s := if failed then bootLog s 6 (bootBit 6) 0 else s
      if 16 ≤ k then (if failed then s else bootFinish s rails) else setBootState s 2

/-! Injections (R680). -/

def bootInj (s : State) (kind : Nat) : State := if s.stbyUp then armInj s (rBoot 0x10) kind 0 false else s
def isoInj (s : State) (kind arg : Nat) : State := if s.stbyUp then armInj s (rBoot 0x138) kind arg false else s
def doBootInjSig (s : State) : State := bootInj s 1
def doBootInjVerify (s : State) : State := bootInj s 2
def doIsoInjHost (host : Fin 64) (s : State) : State := isoInj s 1 host.val
def doIsoInjSession (session : Fin 256) (s : State) : State := isoInj s 2 session.val

-- EXEC
def execHeadstock (spiOk identityOk : Bool) (rails : List (BitVec 17)) (s : State) : Host.Outcome State Fault Refusal :=
  .next (doHeadstock spiOk identityOk rails s)
def execSvnAdvance (s : State) : Host.Outcome State Fault Refusal := .next (doSvnAdvance s)
def execSlotWriteDone (bad : List (BitVec 25 × BitVec 8)) (rails : List (BitVec 17)) (s : State) :
    Host.Outcome State Fault Refusal :=
  .next (doSlotWriteDone bad rails s)
def execBootInjSig (s : State) : Host.Outcome State Fault Refusal := .next (doBootInjSig s)
def execBootInjVerify (s : State) : Host.Outcome State Fault Refusal := .next (doBootInjVerify s)
def execIsoInjHost (host : Fin 64) (s : State) : Host.Outcome State Fault Refusal := .next (doIsoInjHost host s)
def execIsoInjSession (session : Fin 256) (s : State) : Host.Outcome State Fault Refusal := .next (doIsoInjSession session s)

end Sys2Proof.Machine
end

