-- ==== Sys2Proof/Machine/EthPort.lean ====
section
/-! DEFINITION. Machine/EthPort.lean: the command Ethernet ports: links, the frames that are no ZCT blocks, flow control and the
injections (chapter 13). -/

namespace Sys2Proof.Machine

/-- A command port receives a frame of `n` bytes. -/
def ethRx (s : State) (e n : Nat) : State := pmc (pmc s (202 + e) 0 1 none) (202 + e) 2 n none
/-- A command port sends a frame of `n` bytes. -/
def ethTx (s : State) (e n : Nat) : State := pmc (pmc s (202 + e) 1 1 none) (202 + e) 3 n none

/-- ETH_LINK_UP (R557, R562): autonegotiation and training end well. A port that is out of service (R598) has no link. -/
def doEthLinkUp (port : Fin 2) (s : State) : State :=
  whenRunning s fun s => if portServes s (16 + port.val) then setBit (setBit s (rEth port.val 0) 0) (rEth port.val 0) 1 else s

/-- ETH_LINK_DOWN. -/
def doEthLinkDown (port : Fin 2) (s : State) : State := whenRunning s fun s => ethDown s port.val

/-- An uncorrectable codeword of the port's FEC. -/
def ethFec (s : State) (e : Nat) : State := ethEvent s e 1 (some 0x20)

/-- A frame that is dropped and counted (R559). -/
def ethDrop (s : State) (e : Nat) : State := incCnt s (rEth e 0x28)

/-- A word for an 802.1Q tag, zero for none. -/
def tagWord (t : Option (BitVec 16)) : Nat :=
  match t with
  | some x => 2 ^ 16 + x.toNat
  | none => 0

/-- The VLAN that a frame lies in: an untagged one, and one with a priority tag alone, lies in VLAN 0 (assumption 233). -/
def vlanOf (t : Option (BitVec 16)) : Nat :=
  match t with
  | some x => x.toNat % 4096
  | none => 0

/-- A received frame: the port's link carries it. The codewords that its FEC corrected are counted (R579); a frame with one that it could
not correct has a bad FCS, and is dropped, as one of more than 9,216 B is (R559). -/
def ethFrame (port : Fin 2) (r : EthRx) (s : State) (f : State → State) : State :=
  whenRunning s fun s =>
    let e := port.val
    if !ethLink s e then s
    else
      let s := addCnt (ethRx s e r.bytes.toNat) (rEth e 0x18) r.corr.toNat
      if r.uncorr ≠ 0 then ethDrop (addCnt (ethFec s e) (rEth e 0x20) (r.uncorr.toNat - 1)) e
      else if 9216 < r.bytes.toNat then ethDrop s e
      else f s

/-- Answer a frame for one of the port's own addresses, in the frame's VLAN (R558); any other is dropped. -/
def ethAnswer (s : State) (e kind key addr : Nat) (words : List Nat) (r : EthRx) : State :=
  if s.ethAddr.any (fun p => p.1 == key && p.2 == addr) then send (ethTx s e r.bytes.toNat) (.eth e kind (tagWord r.tci :: words)) else ethDrop s e

/-- ARP_REQUEST (R559): answered for the port's IPv4 address with its MAC address (R560). An answer is as long as the
frame. -/
def doArpRequest (port : Fin 2) (target : BitVec 32) (frame : EthRx) (s : State) : State :=
  ethFrame port frame s fun s => ethAnswer s port.val 1 (2 * port.val + 1) target.toNat [target.toNat, (Config.macAddr port.val).toNat] frame

/-- NEIGHBOR_SOLICITATION (R559): answered for the port's IPv6 address, likewise. -/
def doNeighborSolicitation (port : Fin 2) (target : BitVec 128) (frame : EthRx) (s : State) : State :=
  ethFrame port frame s fun s => ethAnswer s port.val 2 (2 * port.val) target.toNat [target.toNat, (Config.macAddr port.val).toNat] frame

/-- ICMP_ECHO (R559): identifier, sequence number and payload come back. -/
def doIcmpEcho (port : Fin 2) (dst : BitVec 32) (ident seq : BitVec 16) (frame : EthRx) (payload : List (BitVec 8)) (s : State) : State :=
  ethFrame port frame s fun s =>
    ethAnswer s port.val 3 (2 * port.val + 1) dst.toNat (ident.toNat :: seq.toNat :: payload.map BitVec.toNat) frame

/-- ICMPV6_ECHO (R559). -/
def doIcmpv6Echo (port : Fin 2) (dst : BitVec 128) (ident seq : BitVec 16) (frame : EthRx) (payload : List (BitVec 8)) (s : State) : State :=
  ethFrame port frame s fun s =>
    ethAnswer s port.val 4 (2 * port.val) dst.toNat (ident.toNat :: seq.toNat :: payload.map BitVec.toNat) frame

/-- PFC_FRAME (R561): the priority that the frame names pauses, or resumes and sends what waited. -/
def doPfcFrame (port : Fin 2) (prio : Fin 8) (pause : Bool) (s : State) : State :=
  ethFrame port { bytes := 64 } s fun s =>
    let k := 8 * port.val + prio.val
    if pause then { s with paused := Sparse.add s.paused k }
    else
      let mine := fun (q : Nat × Nat × ZBlk) => q.1 == port.val && regFld s (rSess q.2.1) 42 40 == prio.val
      let go := s.pfcQ.filter mine
      forEach go { s with paused := Sparse.rem s.paused k, pfcQ := s.pfcQ.filter (fun q => !mine q) }
        (fun s q => zctPut s q.1 q.2.1 q.2.2)

/-- OTHER_FRAME_DROP (R559). -/
def doOtherFrameDrop (port : Fin 2) (frame : EthRx) (s : State) : State :=
  ethFrame port frame s fun s => ethDrop s port.val

/-! Injections (R580). -/

/-- A write of ETH_INJ_e. -/
def ethInj (s : State) (e kind : Nat) : State :=
  if kind = 1 ∨ kind = 2 then armInj s (rEth e 0x10) kind 0 false
  else if kind = 3 then ethFec s e
  else if kind = 4 then ethDown s e
  else s

def doEthInjCrc (port : Fin 2) (s : State) : State := whenRunning s fun s => ethInj s port.val 1
def doEthInjDrop (port : Fin 2) (s : State) : State := whenRunning s fun s => ethInj s port.val 2
def doEthInjFec (port : Fin 2) (s : State) : State := whenRunning s fun s => ethInj s port.val 3
def doEthInjLinkDown (port : Fin 2) (s : State) : State := whenRunning s fun s => ethInj s port.val 4

-- EXEC
def execEthLinkUp (port : Fin 2) (s : State) : Host.Outcome State Fault Refusal := .next (doEthLinkUp port s)
def execEthLinkDown (port : Fin 2) (s : State) : Host.Outcome State Fault Refusal := .next (doEthLinkDown port s)
def execArpRequest (port : Fin 2) (target : BitVec 32) (frame : EthRx) (s : State) : Host.Outcome State Fault Refusal :=
  .next (doArpRequest port target frame s)
def execNeighborSolicitation (port : Fin 2) (target : BitVec 128) (frame : EthRx) (s : State) :
    Host.Outcome State Fault Refusal :=
  .next (doNeighborSolicitation port target frame s)
def execIcmpEcho (port : Fin 2) (dst : BitVec 32) (ident seq : BitVec 16) (frame : EthRx) (payload : List (BitVec 8)) (s : State) :
    Host.Outcome State Fault Refusal :=
  .next (doIcmpEcho port dst ident seq frame payload s)
def execIcmpv6Echo (port : Fin 2) (dst : BitVec 128) (ident seq : BitVec 16) (frame : EthRx) (payload : List (BitVec 8)) (s : State) :
    Host.Outcome State Fault Refusal :=
  .next (doIcmpv6Echo port dst ident seq frame payload s)
def execPfcFrame (port : Fin 2) (prio : Fin 8) (pause : Bool) (s : State) : Host.Outcome State Fault Refusal :=
  .next (doPfcFrame port prio pause s)
def execOtherFrameDrop (port : Fin 2) (frame : EthRx) (s : State) : Host.Outcome State Fault Refusal :=
  .next (doOtherFrameDrop port frame s)
def execEthInjCrc (port : Fin 2) (s : State) : Host.Outcome State Fault Refusal := .next (doEthInjCrc port s)
def execEthInjDrop (port : Fin 2) (s : State) : Host.Outcome State Fault Refusal := .next (doEthInjDrop port s)
def execEthInjFec (port : Fin 2) (s : State) : Host.Outcome State Fault Refusal := .next (doEthInjFec port s)
def execEthInjLinkDown (port : Fin 2) (s : State) : Host.Outcome State Fault Refusal := .next (doEthInjLinkDown port s)

end Sys2Proof.Machine
end

