-- ==== Sys2Proof/Machine/Gouge.lean ====
section
/-! DEFINITION. Machine/Gouge.lean: the gouges: their programs and the batches of their gather contexts (chapter 10). -/

namespace Sys2Proof.Machine

/-! Instructions (R444 to R447). -/

def doGnop (n : Fin 128) (s : State) : State := insn gougeKind n.val s fun c _ s => .next c s
def doGli (n : Fin 128) (gd : BitVec 4) (imm : BitVec 16) (s : State) : State :=
  cOp gougeKind n.val gd s fun _ _ => imm.signExtend 64
def doGlui (n : Fin 128) (gd : BitVec 4) (imm : BitVec 16) (s : State) : State :=
  cOp gougeKind n.val gd s fun c _ => (cGet c gd <<< 16) ||| imm.zeroExtend 64
def doGadd (n : Fin 128) (gd ga gb : BitVec 4) (s : State) : State :=
  cOp gougeKind n.val gd s fun c _ => cGet c ga + cGet c gb
def doGaddi (n : Fin 128) (gd ga : BitVec 4) (imm : BitVec 12) (s : State) : State :=
  cOp gougeKind n.val gd s fun c _ => cGet c ga + imm.signExtend 64
def doGmul (n : Fin 128) (gd ga gb : BitVec 4) (s : State) : State :=
  cOp gougeKind n.val gd s fun c _ => cGet c ga * cGet c gb
def doGparam (n : Fin 128) (gd : BitVec 4) (p : BitVec 8) (s : State) : State :=
  cOp gougeKind n.val gd s fun _ k => BitVec.ofNat 64 (k.param p.toNat)
def doGid (n : Fin 128) (gd k : BitVec 4) (s : State) : State :=
  cId gougeKind n.val gd k (fun k => k.ctxs.length) (n.val / 8) s
def doGwait (n : Fin 128) (ch gv gt : BitVec 4) (far : BitVec 64) (s : State) : State :=
  cWait gougeKind n.val ch gv gt far (rGouge (n.val / 8) 0x10) s
def doGwaitSatisfied (n : Fin 128) (far : BitVec 64) (s : State) : State := cWaitEnd gougeKind n.val far s
def doGwaitTimeout (n : Fin 128) (s : State) : State := cWaitFail gougeKind n.val s
def doGsig (n : Fin 128) (ga : BitVec 4) (s : State) : State := cSig gougeKind n.val ga s
def doGloop (n : Fin 128) (len1 n1 : BitVec 12) (s : State) : State :=
  cLoop gougeKind n.val (len1.toNat + 1) (fun _ => n1.toNat + 1) s
def doGloopP (n : Fin 128) (len1 : BitVec 12) (p : BitVec 8) (s : State) : State :=
  cLoop gougeKind n.val (len1.toNat + 1) (fun k => k.param p.toNat % 2 ^ 32) s
def doGend (n : Fin 128) (s : State) : State := cEnd gougeKind n.val s

/-! Batches (R429 to R441). -/

/-- A field of the plan's GOUGE section (R442): `n` bytes at byte `a` of it. -/
def gougeN (s : State) (k : Kernel) (a n : Nat) : Nat := planN s k.plan ((planSect s k.plan 10 0).2 + a) n

/-- SEG_MAX of the kernel. -/
def segMax (s : State) (k : Kernel) : Nat := gougeN s k 4 4

def setPos (s : State) (n p : Nat) : State := regPut s (rGctx n 0) 31 8 p

/-- Read `m` little-endian values of `w` bytes from address `a`. -/
def kVals (s : State) (k : Kernel) (a w m : Nat) (ext : Ext) : Start (List Nat) :=
  match m with
  | 0 => .ok [] s
  | j + 1 =>
    (kBytes s k a w ext).start a fun v s =>
      match kVals s k (a + w) w j ext with
      | .ok vs s => .ok (v :: vs) s
      | r => r

/-- Do the numbers of a list never decrease? -/
def rising (l : List Nat) : Bool :=
  match l with
  | a :: b :: rest => decide (a ≤ b) && rising (b :: rest)
  | _ => true

/-- A batch from its descriptor (R429), none when R430 refuses a field; the bag offsets are read afterwards. -/
def batchOf (tabs : List GTab) (d : Nat) : Option (Batch × Nat) :=
  let f := fun a n => d / 2 ^ (8 * a) % 2 ^ (8 * n)
  match tabs[f 0 1]? with
  | none => none
  | some t =>
    let eb := if f 2 1 = 1 then 4 else 2
    let none? : Bool := f 1 1 == 3
    if decide (f 1 1 ≤ 3) && (f 2 1 == 1 || f 2 1 == 2) && decide (f 3 1 < 8) && decide (1 ≤ f 4 4) && decide (f 4 4 ≤ 2 ^ 24)
        && (none? || (decide (1 ≤ f 8 4) && decide (f 8 4 ≤ 2 ^ 24)))
        && f 12 4 % 64 == 0 && decide (t.dim * eb ≤ f 12 4) && f 40 8 % 64 == 0 && f 60 4 == 0
        && [f 16 8, f 24 8, f 32 8, f 40 8, f 48 8].all (fun a => decide (a < 2 ^ 60)) then
      some ({ tab := f 0 1, pool := f 1 1, outFmt := f 2 1, idx64 := (f 3 1).testBit 0, weighted := (f 3 1).testBit 1,
              counted := (f 3 1).testBit 2, nidx := f 4 4, nbags := if none? then f 4 4 else f 8 4, pitch := f 12 4,
              idxAddr := f 16 8, wgtAddr := f 32 8, outAddr := f 40 8, dropAddr := f 48 8, dropMax := f 56 4, offs := [],
              pos := 0, seg := none, idx := [], slots := [], bag := 0, acc := [], n := 0, drops := [] }, f 24 8)
    else none

/-- GRUN (R437): the descriptor and the bag offsets are read and checked, and the batch begins. -/
def doGrun (n : Fin 128) (ga : BitVec 4) (ext : List FarLine) (s : State) : State :=
  insn gougeKind n.val s fun c k s =>
    let a := (cGet c ga).toNat % 2 ^ 60
    match kBytes s k a 64 ext with
    | .fault e s => .fault e a s
    | .wait s => .stay s
    | .ok d s =>
      match batchOf k.tabs d with
      | none => .fault 34 a s
      | some (b, bags) =>
        let start := fun (b : Batch) (s : State) =>
          CRes.stay (regPut (setPos (putCtx (readDone s k.win) n.val { c with batch := some b }) n.val 0) (rGctx n.val 0) 2 0 1)
        if b.pool = 3 then start { b with offs := List.range (b.nidx + 1) } s
        else match kVals s k bags 4 (b.nbags + 1) ext with
          | .fault e a s => .fault e a s
          | .wait s => .stay s
          | .ok os s =>
            if os.head? = some 0 ∧ os.getLast? = some b.nidx ∧ rising os then start { b with offs := os } s
            else .fault 34 a s

/-- An event of a gather context's batch: it acts in the state `st` of the context. -/
def batchStep (n st : Nat) (s : State) (f : Ctx → Batch → Kernel → State → State) : State :=
  whenRunning s fun s =>
    let c := ctxOf s n
    if regFld s (rGctx n 0) 2 0 ≠ st ∨ c.stopped then s
    else match c.batch, liveKernel s c.win with
      | some b, some k => f c b (k.at (gougePort (n / 8)) (some (.gctx (Fin.ofNat 128 n)))) s
      | _, _ => s

/-- Combining entries that the contexts of gouge `g` hold. -/
def entriesHeld (s : State) (g : Nat) : Nat :=
  (s.ctxs.filter (fun e => e.1 / 8 == g && (match e.2.batch with | some b => b.seg.isSome | none => false))).foldl
    (fun m e => m + (match kernelOf s e.2.win with | some k => segMax s k | none => 0)) 0

/-- Bytes of an index of a batch. -/
def Batch.idxBytes (b : Batch) : Nat := if b.idx64 then 8 else 4

/-- The indices of the segment that starts at `pos` (R433). -/
def cutSeg (s : State) (k : Kernel) (b : Batch) (rows lim : Nat) (ext : Ext) (fuel pos : Nat) (seen : List Nat) :
    Start (List Nat) :=
  match fuel with
  | 0 => .ok [] s
  | m + 1 =>
    let a := b.idxAddr + pos * b.idxBytes
    (kBytes s k a b.idxBytes ext).start a fun i s =>
      let new : Bool := decide (i < rows) && !seen.contains i
      if new && seen.length == lim then .ok [] s
      else match cutSeg s k b rows lim ext m (pos + 1) (if new then i :: seen else seen) with
        | .ok is s => .ok (i :: is) s
        | r => r

/-- The global address of region `r` at another controller, as it answered the kernel's pin. -/
def Kernel.farBase (k : Kernel) (c r : Nat) : Nat :=
  match k.slots.find? (fun x => x.ctrl == c && x.region == r) with
  | some x => x.base
  | none => ((k.bases.find? (fun b => b.1 == c && b.2.1 == r)).map (fun b => b.2.2)).getD (c * 2 ^ 50)

/-- The piece that holds a row (R421). -/
def pieceOf (t : GTab) (i : Nat) : Option Piece := t.pieces.find? (fun p => decide (p.first ≤ i) && decide (i < p.first + p.count))

/-- Is row `i` present (R439)? A line of a bitmap at another controller comes in `ext` at its global address. -/
def present (s : State) (k : Kernel) (t : GTab) (i : Nat) (ext : Ext) : Start Bool :=
  if (pieceOf t i).isNone then .ok false s
  else match t.pres with
    | none => .ok true s
    | some (c, r, v) =>
      if c = ownCtrl s then
        (verBytes s k r v (i / 8) 1).start (globalAddr s (rgBase s r + i / 8)) fun b s => .ok (b.testBit (i % 8)) s
      else
        let a := k.farBase c r + i / 8
        match ext.at a with
        | some l => if l.poison then .fault 10 a s else .ok ((lineFld l.data (i / 8 % 64) 1).testBit (i % 8)) s
        | none => .wait (sendReq s k.port 4 c a k.dom .agent [9, r, v] 0 0)

/-- The valid ones of a list of rows. -/
def validRows (s : State) (k : Kernel) (t : GTab) (is : List Nat) (ext : Ext) : Start (List Nat) :=
  match is with
  | [] => .ok [] s
  | i :: rest =>
    match present s k t i ext with
    | .fault c a s => .fault c a s
    | .wait s => .wait s
    | .ok p s =>
      match validRows s k t rest ext with
      | .ok vs s => .ok (if p then i :: vs else vs) s
      | r => r

/-- A batch's table. -/
def batchTab (k : Kernel) (b : Batch) : GTab := (k.tabs[b.tab]?).getD ⟨0, 0, none, []⟩

/-- Ask for row `i` of a table: the lines of a row that another controller of the box holds are requested there (R423, R424). -/
def askRow (s : State) (k : Kernel) (t : GTab) (i : Nat) : State :=
  match pieceOf t i with
  | none => s
  | some p =>
    if p.ctrl = ownCtrl s then s
    else
      let x := p.offset + (i - p.first) * p.pitch
      let n := cdiv (x % 64 + (rowBytes p.fmt t.dim).getD 0) 64
      forEach (List.range n) s (fun s j =>
        sendReq s k.port 4 p.ctrl (k.farBase p.ctrl p.region + x / 64 * 64 + 64 * j) k.dom .agent [9, p.region, p.version] 0 0)

/-- The rows that context `n`'s segment has still to ask for. -/
def rowsDue (s : State) (n : Nat) : Nat :=
  match (ctxOf s n).batch, liveKernel s (ctxOf s n).win with
  | some b, some _ => b.slots.length - b.issued
  | _, _ => 0

/-- Context `n` asks for the next row of its segment, in slot order, and yields to the contexts after it (R418). -/
def askNext (s : State) (n : Nat) : State :=
  let c := ctxOf s n
  match c.batch, liveKernel s c.win with
  | some b, some k =>
    let s := match b.slots[b.issued]? with
      | some e => askRow s (k.at (gougePort (n / 8)) (some (.gctx (Fin.ofNat 128 n)))) (batchTab k b) e.1
      | none => s
    { (putCtx s n { c with batch := some { b with issued := b.issued + 1 } }) with
      rowTurn := Sparse.set s.rowTurn (n / 8) 0 ((n + 1) % 8) }
  | _, _ => s

/-- Gouge `g` asks for rows of its contexts' segments, one context after the other in rotation (R418), while fewer than 512 are in flight
(R6). -/
def askRows (s : State) (g : Nat) : State :=
  let due := ((List.range 8).map (fun j => rowsDue s (8 * g + j))).foldl (· + ·) 0
  forEach (List.range (min (512 - rowsOut s g) due)) s (fun s _ =>
    match ((List.range 8).map (fun i => 8 * g + (Sparse.get s.rowTurn g 0 + i) % 8)).find? (fun n => rowsDue s n != 0) with
    | some n => askNext s n
    | none => s)

/-- SEGMENT_START (R433, R437, R439): pass A of the next segment, once SEG_MAX combining entries are free. A segment with a valid index
looks it up in the combining table, which an injected error meets (R451). -/
def doSegmentStart (n : Fin 128) (ext : List FarLine) (s : State) : State :=
  batchStep n.val 1 s fun c b k s =>
    let t := batchTab k b
    let g := n.val / 8
    if b.seg.isSome ∨ b.nidx ≤ b.pos
        ∨ regFld s 0x38 55 32 < entriesHeld s g + segMax s k then s
    else match cutSeg s k b t.rows (segMax s k) ext (b.nidx - b.pos) b.pos [] with
      | .wait s => s
      | .fault e a s => ctxFault s n.val e a
      | .ok is s =>
        match validRows s k t (is.filter (fun i => decide (i < t.rows))).dedup ext with
        | .wait s => s
        | .fault e a s => ctxFault s n.val e a
        | .ok ok s =>
          match (if ok = [] then none else takeInj s (rGouge g 0x10) 1 (fun _ => true)) with
          | some (_, s) => ctxFault s n.val 35 0
          | none =>
          let firsts := is.foldl (fun l i => if ok.contains i && !l.contains i then l ++ [i] else l) []
          let drops := ((List.range is.length).zip is).filterMap (fun p =>
            if t.rows ≤ p.2 then some (b.pos + p.1, 1) else if ok.contains p.2 then none else some (b.pos + p.1, 2))
          let e := b.pos + is.length
          let s := if b.pos = 0 then s else incCnt s (rGouge g 0x20)
          let valid := is.countP (fun i => ok.contains i)
          let s := pmc (pmc (pmc s (160 + g) 0 is.length (some k.dom)) (160 + g) 3 (valid - firsts.length) (some k.dom)) (160 + g) 4 1 (some k.dom)
          let s := addCnt (readDone s k.win) (rGouge g 0x18) drops.length
          askRows (setPos (putCtx s n.val { c with batch := some { b with
            seg := some e, idx := is, slots := firsts.map (fun i => (i, none)), drops := b.drops ++ drops, issued := 0 } }) n.val e) g

/-- ROW_LANDED (R423, R437): the row of a combining slot that has been asked for lands, and the gouge asks for more. A row of another
controller comes in `far`, the lines from that of its first byte on, with whether one of them is poisoned. -/
def doRowLanded (n : Fin 128) (slot : BitVec 16) (far : List (BitVec 512)) (poison : Bool) (s : State) : State :=
  batchStep n.val 1 s fun c b k s =>
    let t := batchTab k b
    match b.seg, b.slots[slot.toNat]? with
    | some _, some (i, none) =>
      if b.issued ≤ slot.toNat then s
      else (match pieceOf t i with
       | none => s
       | some p =>
         let x := p.offset + (i - p.first) * p.pitch
         let ga := if p.ctrl = ownCtrl s then globalAddr s (rgBase s p.region + x) else k.farBase p.ctrl p.region + x
         match rowBytes p.fmt t.dim with
         | none => s
         | some len =>
           let land := fun (s : State) (v : Nat) =>
             let s := pmc (pmc (readDone s k.win) (160 + n.val / 8) 1 1 (some k.dom)) (160 + n.val / 8) 2 (cdiv (x % 64 + len) 64) (some k.dom)
             askRows (putCtx s n.val { c with batch := some { b with slots := b.slots.set slot.toNat (i, some v) } }) (n.val / 8)
           match takeInj s (rGouge (n.val / 8) 0x10) 4 (fun _ => true) with
           | some (_, s) => ctxFault s n.val 10 ga
           | none =>
             if p.ctrl = ownCtrl s then
               (match verBytes s k p.region p.version x len with
                | .ok v s => land s v
                | .wait s => s
                | .fault e s => ctxFault s n.val e ga)
             else if poison then ctxFault s n.val 10 ga
             else land s (linesBytes far x len))
    | _, _ => s

/-- The FP32 elements of a landed row. -/
def slotElems (t : GTab) (b : Batch) (i : Nat) : List Nat :=
  match b.slots.find? (fun e => e.1 == i), pieceOf t i with
  | some (_, some v), some p => rowElems p.fmt t.dim v
  | _, _ => []

/-- A whole number in FP32. -/
def natF32 (n : Nat) : Nat := toF32 (.ofInt n 0)

/-- MULT of each valid row of some positions, in first-occurrence order (R434); the weights stand beside the indices. -/
def multOf (b : Batch) (ps : List (Nat × Nat)) : List (Nat × Nat) :=
  ps.foldl (fun l p =>
    if !b.slots.any (fun e => e.1 == p.1) then l
    else if l.any (fun e => e.1 == p.1) then
      l.map (fun e => if e.1 == p.1 then (e.1, if b.weighted then fadd e.2 p.2 else e.2 + 1) else e)
    else l ++ [(p.1, if b.weighted then fadd 0 p.2 else 1)]) []

/-- Add a bag's terms of a segment to its accumulator (R435); an empty accumulator has taken no row. -/
def poolBag (t : GTab) (b : Batch) (acc : List Nat) (ms : List (Nat × Nat)) : List Nat :=
  ms.foldl (fun acc m =>
    let e := slotElems t b m.1
    if b.pool = 2 then (if acc = [] then e else List.zipWith fmax acc e)
    else
      let w := if b.weighted then m.2 else natF32 m.2
      List.zipWith (fun a x => fadd a (fmul w x)) (if acc = [] then e.map (fun _ => 0) else acc) e) acc

/-- The count n of a bag over some positions (R435). -/
def countBag (b : Batch) (n : Nat) (ps : List (Nat × Nat)) : Nat :=
  ps.foldl (fun n p => if b.slots.any (fun e => e.1 == p.1) then (if b.weighted then fadd n p.2 else n + 1) else n) n

/-- A bag's result from its accumulator and its count. -/
def bagRow (t : GTab) (b : Batch) (acc : List Nat) (n : Nat) : List Nat :=
  let z := List.replicate t.dim 0
  if b.pool = 1 then
    (if n % 2 ^ 31 = 0 ∧ b.weighted ∨ n = 0 then z
     else (if acc = [] then z else acc).map (fun a => fdiv a (if b.weighted then n else natF32 n)))
  else if acc = [] then z else acc

/-- The lines of an output row (R431). -/
def outRow (b : Batch) (row : List Nat) : List LineData :=
  let w := if b.outFmt = 1 then 32 else 16
  blankLines ((row.map (fun v => toElem b.outFmt (f32 v))).foldr (fun v n => v + 2 ^ w * n) 0) b.pitch

/-- Pass B of a segment over its bags (R434, R435): `ps` holds its positions' indices and weights. A bag whose last position
it holds is written; what comes back is the batch. -/
def passB (s : State) (k : Kernel) (t : GTab) (b : Batch) (ps : List (Nat × Nat)) (last fuel : Nat) : Start Batch :=
  match fuel with
  | 0 => .ok b s
  | m + 1 =>
    match b.offs[b.bag]?, b.offs[b.bag + 1]? with
    | some o, some e =>
      let lo := max b.pos o
      let hi := min last e
      let mine := (ps.drop (lo - b.pos)).take (hi - lo)
      if last < e ∧ last ≤ o then .ok b s
      else
        let acc := if b.pool = 3 then
            (match mine with
             | p :: _ =>
               let x := slotElems t b p.1
               if b.weighted then x.map (fun a => fmul a p.2) else x
             | [] => [])
          else poolBag t b b.acc (multOf b mine)
        let n := countBag b b.n mine
        if last < e then .ok { b with acc := acc, n := n } s
        else
          match kOutLines s k b.counted (b.outAddr + b.bag * b.pitch) (outRow b (bagRow t b acc n)) with
          | .ok _ s => passB s k t { b with bag := b.bag + 1, acc := [], n := 0 } ps last m
          | .fault c a s => .fault c a s
          | .wait s => .wait s
    | _, _ => .ok b s

/-- PASS_B_START (R437): every row of the segment has landed, and its indices are read again. -/
def doPassBStart (n : Fin 128) (ext : List FarLine) (s : State) : State :=
  batchStep n.val 1 s fun c b k s =>
    let t := batchTab k b
    match b.seg with
    | none => s
    | some last =>
      if b.slots.any (fun e => e.2.isNone) then s
      else match (if b.slots = [] then none else takeInj s (rGouge (n.val / 8) 0x10) 1 (fun _ => true)) with
        | some (_, s) => ctxFault s n.val 35 0
        | none =>
          match kVals s k (b.idxAddr + b.pos * b.idxBytes) b.idxBytes b.idx.length ext with
          | .wait s => s
          | .fault e a s => ctxFault s n.val e a
          | .ok is s =>
          match (if b.weighted then kVals s k (b.wgtAddr + 4 * b.pos) 4 b.idx.length ext else .ok [] s) with
          | .wait s => s
          | .fault e a s => ctxFault s n.val e a
          | .ok ws s =>
            let ps := if b.weighted then is.zip ws else is.map (fun i => (i, 0))
            match passB s k t b ps last (b.nbags + 1) with
            | .wait s => s
            | .fault e a s => ctxFault s n.val e a
            | .ok b' s =>
              let terms := (List.range b.nbags).foldl (fun m i => m +
                (multOf b ((ps.drop (max b.pos ((b.offs[i]?).getD 0) - b.pos)).take
                  (min last ((b.offs[i + 1]?).getD 0) - max b.pos ((b.offs[i]?).getD 0)))).length) 0
              let s := pmc (readDone s k.win) (160 + n.val / 8) 5 terms (some k.dom)
              let s := putCtx s n.val { c with batch := some { b' with pos := last, seg := none, idx := [], slots := [], issued := 0 } }
              regPut (setPos s n.val last) (rGctx n.val 0) 2 0 (if last = b.nidx then 2 else 1)

/-- The drop area (R441). -/
def dropLines (b : Batch) : List LineData :=
  let listed := b.drops.take b.dropMax
  let cnt := fun r => (b.drops.filter (fun d => d.2 == r)).length
  let head := cnt 1 % 2 ^ 32 + cnt 2 % 2 ^ 32 * 2 ^ 32 + listed.length * 2 ^ 64 +
    (if b.dropMax < b.drops.length then 1 else 0) * 2 ^ 96
  let body := listed.foldr (fun d n => d.1 + d.2 * 2 ^ 32 + 2 ^ 64 * n) 0
  blankLines (head + 2 ^ 512 * body) (64 + cdiv (8 * listed.length) 64 * 64)

/-- Has every output, drop and counted line of a batch that went to another controller been served (R446)? -/
def batchServed (s : State) (k : Kernel) (b : Batch) : Bool :=
  let mine := fun (a : Nat) => (decide (b.outAddr / 64 ≤ a) && decide (a * 64 < b.outAddr + b.nbags * b.pitch))
    || (decide (b.dropAddr ≠ 0) && decide (b.dropAddr / 64 ≤ a) && decide (a < b.dropAddr / 64 + (dropLines b).length))
  !s.agentReqs.any (fun r => r.who.ofKernel k.win && r.op == 6 && mine r.addr)

/-- BATCH_COMPLETE (R446): the drop area is written, and grun returns once every line of the batch has been served. A drop area that does not start on a line takes partial lines, an
ADDR fault (R449). -/
def doBatchComplete (n : Fin 128) (s : State) : State :=
  batchStep n.val 2 s fun c b k s =>
    match (if b.dropAddr = 0 ∨ b.closed = true then .ok () s else if b.dropAddr % 64 ≠ 0 then .fault 4 b.dropAddr s
      else kOutLines s k b.counted b.dropAddr (dropLines b)) with
    | .wait s => s
    | .fault e a s => ctxFault s n.val e a
    | .ok _ s =>
      if !batchServed s k b then putCtx s n.val { c with batch := some { b with closed := true } }
      else ctxAdvance gougeKind (pmc (regPut s (rGctx n.val 0) 2 0 6) (160 + n.val / 8) 6 1 (some k.dom)) n.val { c with batch := none, ran := c.ran + 1 } c.pc

/-- CONTEXT_WATCHDOG (R448): the watchdog of a context that has not reported done expires. -/
def doContextWatchdog (n : Fin 128) (s : State) : State := whenRunning s (engWatchdog gougeKind n.val)

def doGougeInjClear (g : Fin 16) (s : State) : State := whenRunning s fun s => clearInj s (rGouge g.val 0x10)
def doGougeInjTableUe (g : Fin 16) (s : State) : State := whenRunning s fun s => armInj s (rGouge g.val 0x10) 1 0 false
def doGougeInjWatchdog (g : Fin 16) (s : State) : State := whenRunning s fun s => armInj s (rGouge g.val 0x10) 2 0 false
def doGougeInjGwait (g : Fin 16) (s : State) : State := whenRunning s fun s => armInj s (rGouge g.val 0x10) 3 0 false
def doGougeInjPoison (g : Fin 16) (s : State) : State := whenRunning s fun s => armInj s (rGouge g.val 0x10) 4 0 false
def doGougeInjStop (g : Fin 16) (persist : Bool) (s : State) : State :=
  whenRunning s fun s => armInj s (rGouge g.val 0x10) 5 0 persist

-- EXEC
def execGnop (n : Fin 128) (s : State) : Host.Outcome State Fault Refusal := .next (doGnop n s)
def execGli (n : Fin 128) (gd : BitVec 4) (imm : BitVec 16) (s : State) : Host.Outcome State Fault Refusal :=
  .next (doGli n gd imm s)
def execGlui (n : Fin 128) (gd : BitVec 4) (imm : BitVec 16) (s : State) : Host.Outcome State Fault Refusal :=
  .next (doGlui n gd imm s)
def execGadd (n : Fin 128) (gd ga gb : BitVec 4) (s : State) : Host.Outcome State Fault Refusal :=
  .next (doGadd n gd ga gb s)
def execGaddi (n : Fin 128) (gd ga : BitVec 4) (imm : BitVec 12) (s : State) : Host.Outcome State Fault Refusal :=
  .next (doGaddi n gd ga imm s)
def execGmul (n : Fin 128) (gd ga gb : BitVec 4) (s : State) : Host.Outcome State Fault Refusal :=
  .next (doGmul n gd ga gb s)
def execGparam (n : Fin 128) (gd : BitVec 4) (p : BitVec 8) (s : State) : Host.Outcome State Fault Refusal :=
  .next (doGparam n gd p s)
def execGid (n : Fin 128) (gd k : BitVec 4) (s : State) : Host.Outcome State Fault Refusal := .next (doGid n gd k s)
def execGrun (n : Fin 128) (ga : BitVec 4) (ext : List FarLine) (s : State) :
    Host.Outcome State Fault Refusal :=
  .next (doGrun n ga ext s)
def execSegmentStart (n : Fin 128) (ext : List FarLine) (s : State) : Host.Outcome State Fault Refusal :=
  .next (doSegmentStart n ext s)
def execRowLanded (n : Fin 128) (slot : BitVec 16) (far : List (BitVec 512)) (poison : Bool) (s : State) :
    Host.Outcome State Fault Refusal :=
  .next (doRowLanded n slot far poison s)
def execPassBStart (n : Fin 128) (ext : List FarLine) (s : State) : Host.Outcome State Fault Refusal :=
  .next (doPassBStart n ext s)
def execBatchComplete (n : Fin 128) (s : State) : Host.Outcome State Fault Refusal := .next (doBatchComplete n s)
def execGwait (n : Fin 128) (ch gv gt : BitVec 4) (far : BitVec 64) (s : State) : Host.Outcome State Fault Refusal :=
  .next (doGwait n ch gv gt far s)
def execGwaitSatisfied (n : Fin 128) (far : BitVec 64) (s : State) : Host.Outcome State Fault Refusal :=
  .next (doGwaitSatisfied n far s)
def execGwaitTimeout (n : Fin 128) (s : State) : Host.Outcome State Fault Refusal := .next (doGwaitTimeout n s)
def execGsig (n : Fin 128) (ga : BitVec 4) (s : State) : Host.Outcome State Fault Refusal := .next (doGsig n ga s)
def execGloop (n : Fin 128) (len1 n1 : BitVec 12) (s : State) : Host.Outcome State Fault Refusal :=
  .next (doGloop n len1 n1 s)
def execGloopP (n : Fin 128) (len1 : BitVec 12) (p : BitVec 8) (s : State) : Host.Outcome State Fault Refusal :=
  .next (doGloopP n len1 p s)
def execGend (n : Fin 128) (s : State) : Host.Outcome State Fault Refusal := .next (doGend n s)
def execContextWatchdog (n : Fin 128) (s : State) : Host.Outcome State Fault Refusal := .next (doContextWatchdog n s)
def execGougeInjClear (g : Fin 16) (s : State) : Host.Outcome State Fault Refusal := .next (doGougeInjClear g s)
def execGougeInjTableUe (g : Fin 16) (s : State) : Host.Outcome State Fault Refusal := .next (doGougeInjTableUe g s)
def execGougeInjWatchdog (g : Fin 16) (s : State) : Host.Outcome State Fault Refusal := .next (doGougeInjWatchdog g s)
def execGougeInjGwait (g : Fin 16) (s : State) : Host.Outcome State Fault Refusal := .next (doGougeInjGwait g s)
def execGougeInjPoison (g : Fin 16) (s : State) : Host.Outcome State Fault Refusal := .next (doGougeInjPoison g s)
def execGougeInjStop (g : Fin 16) (persist : Bool) (s : State) : Host.Outcome State Fault Refusal :=
  .next (doGougeInjStop g persist s)

end Sys2Proof.Machine
end

