-- ==== Sys2Proof/Machine/LatheOps.lean ====
section
/-! DEFINITION. Machine/LatheOps.lean: what the slots of a Lathe share: issue, register files, address generators, loops and
the tensor queue (chapter 06). A slot command issues one slot of the Lathe's next bundle; the one marked `last` ends the
bundle. -/

namespace Sys2Proof.Machine

/-- How a slot's issue ends: done, a fault with its address, or a stall that changes nothing (R267). -/
inductive Slot where
  | ok (s : State)
  | fault (code addr : Nat) (s : State)
  | stall

/-! Register files (R271). -/

def sGet (x : Lathe) (i : BitVec 5) : Word := if i = 0 then 0 else Sparse.get x.s i.toNat 0
def vGet (x : Lathe) (i : BitVec 5) : VecData := Sparse.get x.v i.toNat 0
def tGet (x : Lathe) (i : BitVec 3) : TileData := Sparse.get x.t i.toNat 0
def aGen0 : AGen := ⟨0, 0, 0, 0, 0, 0, 0, 0, 0, 0, 0⟩
def aGet (x : Lathe) (i : BitVec 4) : AGen := Sparse.get x.a i.toNat aGen0
def aPut (x : Lathe) (i : Nat) (g : AGen) : Lathe := { x with a := Sparse.set x.a i aGen0 g }

/-- Add a signed 24-bit amount to a 30-bit pointer. -/
def addPtr (p : BitVec 30) (d : BitVec 24) : BitVec 30 := p + d.signExtend 30

/-- A use of a generator (R279): its address, and the generator advanced. -/
def AGen.use (g : AGen) : BitVec 30 × AGen :=
  let c := g.cnt + 1
  if g.wrap ≠ 0 ∧ c = g.wrap then (g.ptr, { g with ptr := addPtr g.ptr g.jump, cnt := 0 })
  else (g.ptr, { g with ptr := addPtr g.ptr g.step, cnt := c })

/-- A use of a generator's scale stripe (R301). -/
def AGen.useScale (g : AGen) : BitVec 30 × AGen := (g.sptr, { g with sptr := addPtr g.sptr g.sstep })

/-- A generator after `n` uses, of its scale stripes when `sc`. -/
def AGen.uses (g : AGen) (sc : Bool) (n : Nat) : AGen :=
  match n with
  | 0 => g
  | m + 1 => (if sc then g.useScale.2 else g.use.2).uses sc m

/-- The addresses of `n` uses. -/
def AGen.addrs (g : AGen) (sc : Bool) (n : Nat) : List (BitVec 30) :=
  match n with
  | 0 => []
  | m + 1 => (if sc then g.useScale.1 else g.use.1) :: (if sc then g.useScale.2 else g.use.2).addrs sc m

/-- Set field `f` of a generator (R278); 10 adds to PTR. -/
def AGen.setField (g : AGen) (f : Nat) (v : Word) : AGen :=
  let n := v.toNat
  match f with
  | 0 => { g with ptr := BitVec.ofNat 30 n, cnt := 0 }
  | 1 => { g with step := BitVec.ofNat 24 n }
  | 2 => { g with wrap := BitVec.ofNat 16 n }
  | 3 => { g with jump := BitVec.ofNat 24 n }
  | 4 => { g with sptr := BitVec.ofNat 30 n }
  | 5 => { g with sstep := BitVec.ofNat 24 n }
  | 6 => { g with lstr0 := BitVec.ofNat 24 n }
  | 7 => { g with lstr1 := BitVec.ofNat 24 n }
  | 8 => { g with lstr2 := BitVec.ofNat 24 n }
  | 9 => { g with lstr3 := BitVec.ofNat 24 n }
  | 10 => { g with ptr := g.ptr + BitVec.ofNat 30 n }
  | _ => g

/-- LSTR_j of a generator. -/
def AGen.lstr (g : AGen) (j : Nat) : BitVec 24 :=
  match j with
  | 0 => g.lstr0
  | 1 => g.lstr1
  | 2 => g.lstr2
  | _ => g.lstr3

/-- Stage a register write of the bundle that issues (R268). -/
def stage (s : State) (l : Nat) (w : Stage) : State :=
  putLathe s l { latheAt s l with stage := (latheAt s l).stage ++ [w] }

/-- Apply a staged write; a write to s0 is discarded. -/
def applyStage (x : Lathe) (w : Stage) : Lathe :=
  match w with
  | .sreg i v => if i = 0 then x else { x with s := Sparse.set x.s i 0 v }
  | .vreg i v => { x with v := Sparse.set x.v i 0 v }
  | .agen i f v => aPut x i ((Sparse.get x.a i aGen0).setField f v)
  | .mark _ => x
  | .uses i n sc => aPut x i ((Sparse.get x.a i aGen0).uses sc n)

/-- Do a staged write's effects come before the others': a use of a generator advances it as the bundle issues (R281)? -/
def Stage.isUse (w : Stage) : Bool :=
  match w with
  | .uses _ _ _ => true
  | _ => false

/-- Apply the staged writes of a bundle: the uses of generators, then what its slots write. -/
def applyStages (x : Lathe) (ws : List Stage) : Lathe :=
  (ws.filter (fun w => !w.isUse)).foldl applyStage ((ws.filter Stage.isUse).foldl applyStage x)

/-- The register a staged write names: s0 is exempt from R269, and a use of a generator writes no register (R278). -/
def Stage.dest (w : Stage) : Option (Nat × Nat) :=
  match w with
  | .sreg i _ => if i = 0 then none else some (0, i)
  | .vreg i _ => some (1, i)
  | .agen i _ _ => some (2, i)
  | .mark i => some (1, i)
  | .uses _ _ _ => none

/-- Do two slots of the bundle write one register (R269)? -/
def doubleWrite (ws : List Stage) : Bool :=
  let ds := ws.filterMap Stage.dest
  decide (ds.dedup.length < ds.length)

/-- A register with a tread outstanding from an earlier bundle (R267). -/
def vPending (x : Lathe) (i : BitVec 5) : Bool :=
  !x.stage.contains (.mark i.toNat) && x.tq.any (fun e => match e with
    | .tread vd _ _ => vd == i.toNat
    | _ => false)

/-! Loops (R275, R276, R280). -/

/-- At the end of a trip of level `j`, every generator adds LSTR_j to PTR (R280). -/
def addLstr (x : Lathe) (j : Nat) : Lathe :=
  { x with a := x.a.foldl (fun m e => Sparse.set m e.1 aGen0 { e.2 with ptr := addPtr e.2.ptr (e.2.lstr j) }) [] }

/-- The bundle at `pc` has run: close the trips that end with it. What comes back is the Lathe and the next bundle. -/
def stepLoops (fuel : Nat) (x : Lathe) (pc : Nat) : Lathe × Nat :=
  match fuel, x.loops with
  | k + 1, v :: rest =>
    if v.last ≠ pc then (x, pc + 1)
    else
      let x := addLstr x rest.length
      if v.iter + 1 < v.trips then ({ x with loops := { v with iter := v.iter + 1 } :: rest }, v.first)
      else stepLoops k { x with loops := rest } pc
  | _, _ => (x, pc + 1)

/-- Count the bundle at `pc` that Lathe `l` has issued and advance its tag register (R705, R722); a tagged one's record is written
now, or when its tensor instruction ends (R725). `x` is the Lathe as the bundle ran. -/
def noteBundle (s : State) (l pc : Nat) (x : Lathe) : State :=
  let k := liveKernel s x.win
  let dom := k.map (fun k => k.dom)
  let s := pmc (putLathe s l { latheAt s l with mread := 0, tqNew := false }) l 6 1 dom
  let (v, s) := tagAdvance s l
  match k with
  | none => s
  | some k =>
    if !tagHit s 1 v then s
    else
      let (n, s) := drawFrees s 4
      let iters := x.loops.reverse.zipIdx.foldl (fun m p => m + p.1.iter % 65536 * 2 ^ (16 * p.2)) 0
      let ws := tagWords { kind := 1, replay := k.replays != 0, dom := k.dom, unit := l, rank := x.rank, win := x.win,
                           cseq := winSeq s x.win, reg := v, index := pc, addr := x.mread } n
        (BitVec.ofNat 64 iters) (Config.freeWord (n + 1)) (Config.freeWord (n + 2)) (Config.freeWord (n + 3))
      if x.tqNew then
        let y := latheAt s l
        putLathe s l { y with tagged := y.tagged ++ [(y.tq.length, ws)] }
      else tagPush s (some l) k.dom ws

/-- The tensor queue of Lathe `l` has lost its first `n` entries: the tagged bundles whose instruction was the last of them are
recorded. -/
def tagEnded (s : State) (l n dom : Nat) : State :=
  let x := latheAt s l
  let s := putLathe s l { x with tagged := (x.tagged.filter (fun e => decide (n < e.1))).map (fun e => (e.1 - n, e.2)) }
  forEach (x.tagged.filter (fun e => decide (e.1 ≤ n))) s (fun s e => tagPush s (some l) dom e.2)

/-- End a bundle: its staged writes take effect, a loop opens, and the program counter moves on. `no` is the slot that ended
it. -/
def endBundle (s : State) (l no : Nat) : State :=
  let x := latheAt s l
  let pc := lathePc s l
  if doubleWrite x.stage then latheFault s l 1 no 0
  else
    let y := { applyStages x x.stage with stage := [], mid := false, opening := none, commit := false }
    let setPc := fun (s : State) (p : Nat) =>
      let s := putLathe s l { latheAt s l with pastEnd := decide (2 ^ 20 ≤ p) }
      noteBundle (regPut s (rLathe l 0x18) 19 0 p) l pc x
    match x.opening with
    | some (trips, len) =>
      let crosses : Bool := match x.loops with
        | [] => false
        | v :: _ => decide (v.last < pc + len)
      if 4 ≤ x.loops.length ∨ crosses then latheFault s l 2 0 0
      else if trips = 0 then
        let (y, p) := stepLoops 5 y (pc + len)
        setPc (putLathe s l y) p
      else setPc (putLathe s l { y with loops := ⟨pc + 1, pc + len, trips, 0⟩ :: y.loops }) (pc + 1)
    | none =>
      if x.commit then
        if x.loops ≠ [] then latheFault s l 1 0 0
        else setLatheState (setPc (putLathe s l y) (pc + 1)) l 4
      else
        let (y, p) := stepLoops 5 y pc
        setPc (putLathe s l y) p

/-- The v registers that a slot instruction names (R282, R303, R305). -/
def vRegsOf (c : Instr) : List (BitVec 5) :=
  match c with
  | .mload _ v _ _ | .mstore _ v _ _ | .tread _ v _ _ _ | .tload _ _ v _ _ | .vbcast _ v _ _ | .vrng _ v _ _ _ | .vargmax _ _ v _
  | .vext _ _ v _ _ => [v]
  | .vabs _ vd va _ | .vneg _ vd va _ | .vexp _ vd va _ | .vlog _ vd va _ | .vrcp _ vd va _ | .vrsqrt _ vd va _ | .vtanh _ vd va _
  | .vsigm _ vd va _ | .vsin _ vd va _ | .vcos _ vd va _ | .vredsum _ vd va _ | .vredmax _ vd va _ | .vscan _ vd va _
  | .vrotl _ vd va _ _ | .vcvt _ vd va _ _ _ | .vunp _ vd va _ _ _ | .vfirst _ _ vd va _ => [vd, va]
  | .vadd _ vd va vb _ | .vsub _ vd va vb _ | .vmul _ vd va vb _ | .vmax _ vd va vb _ | .vmin _ vd va vb _ | .vcmp _ vd va vb _ _ =>
    [vd, va, vb]
  | .vfma _ vd va vb vc _ | .vsel _ vd va vb vc _ => [vd, va, vb, vc]
  | _ => []

/-- Does a slot instruction lack an operand or a resource that it needs: a register that awaits a tread, a tensor queue entry or a spool
descriptor slot (R267)? -/
def slotStalls (x : Lathe) (c : Instr) : Bool :=
  (vRegsOf c).any (vPending x) || (match c with
    | .mspool .. => decide (64 ≤ x.spool.length)
    | .tzero .. | .tread .. | .tload .. | .tmmaBf16 .. | .tmmaFp16 .. | .tmmaE4m3 .. | .tmmaE5m2 .. | .tmmaInt8 .. | .tmmaMxfp8 ..
    | .tmmaMxfp8e5 .. | .tmmaMxfp6 .. | .tmmaMxfp6e3 .. | .tmmaMxint8 .. | .tmmaMxfp4 .. | .tmmaInt4 .. | .tmmaMxfp4x8 .. | .tmmaT2 ..
    | .tmmaT2i .. => decide (4 ≤ x.tq.length)
    | _ => false)

/-- The slots of Lathe `l`'s next bundle, as its kernel's plan holds them (R273). -/
def nextBundle (s : State) (l : Nat) : List Instr :=
  let x := latheAt s l
  match liveKernel s x.win with
  | none => []
  | some k =>
    let (n, o) := planSect s k.plan 1 x.image
    if lathePc s l < n then bundleCommands (Fin.ofNat 128 l) (planN s k.plan (o + 16 * lathePc s l) 16) 0 else []

/-- Does a slot of Lathe `l`'s next bundle keep the bundle from issuing (R267)? -/
def bundleStalls (s : State) (l : Nat) : Bool := (nextBundle s l).any (slotStalls (latheAt s l))

/-- Does the bundle that stalls on Lathe `l` wait for material (R718): the data of an access that its M slot makes, or a spool descriptor
slot? -/
def stallsOnMaterial (s : State) (l : Nat) : Bool :=
  let x := latheAt s l
  let spools := (nextBundle s l).any (fun c => match c with
    | .mspool .. => true
    | _ => false)
  x.stall.any (fun no => x.mid && no == 1 || decide (64 ≤ x.spool.length) && (no == 1 || spools))

/-- Issue a slot of Lathe `l`'s next bundle. A Lathe that does not run, waits, has stopped or has passed its code issues
nothing. `reads` says that the slot reads a register, which an injected parity error meets (R271, R316). A bundle of which a slot cannot
issue stalls whole, and every later bundle with it (R267): its sender gives the slot again. -/
def slot (l : Fin 128) (no : Nat) (reads last : Bool) (s : State) (f : Lathe → State → Slot) : State :=
  whenRunning s fun s =>
    let l := l.val
    let x := latheAt s l
    let st := latheState s l
    if !(st == 2 || (st == 3 && x.mid)) || x.stopped || x.commit && !x.mid || decide (x.ncode ≤ lathePc s l) || x.stall.any (fun k => k != no)
        then s
    else if !x.mid && bundleStalls s l then putLathe s l { x with stall := some no }
    else match (if x.mid then none else takeInj s (rLathe l 0x38) 6 (fun _ => true)),
        (if x.mid then none else takeInj s (rLathe l 0x38) 4 (fun _ => true)) with
      | some (_, t), _ => putLathe t l { x with stopped := true }
      | none, some (_, t) => latheFault t l 16 0 0
      | none, none =>
        match (if reads then takeInj s (rLathe l 0x38) 3 (fun _ => true) else none) with
        | some (_, t) => latheFault t l 15 no 0
        | none =>
          match f x s with
          | .stall => putLathe s l { x with stall := some no }
          | .fault c a t => latheFault t l c no a
          | .ok t =>
            let t := putLathe t l { latheAt t l with mid := true, stall := none }
            if last then endBundle t l no else t

/-- The kernel that a Lathe runs. -/
def latheKernel (s : State) (l : Nat) : Option Kernel := (liveKernel s (latheAt s l).win).map (fun k => k.at (lathePort l) (some (.lathe (Fin.ofNat 128 l))))

/-- A Chuck address (R256) as its Lathe and its byte. -/
def chuckAddr (p : BitVec 30) : Nat × Nat := (p.toNat / 2 ^ 23, p.toNat % 2 ^ 23)

/-- The global address of a Chuck address. -/
def chuckGa (s : State) (p : BitVec 30) : Nat := globalAddr s (2 ^ 49 + p.toNat)

/-- Read `n` lines of a Chuck by the kernel on Lathe `l`. -/
def chuckRead (s : State) (k : Kernel) (c x n : Nat) : KAcc (List LineData) :=
  match n with
  | 0 => .ok [] s
  | m + 1 =>
    match kReadChuck s k c x with
    | .ok d s =>
      (match chuckRead s k c (x + 64) m with
       | .ok ds s => .ok (d :: ds) s
       | .fault e s => .fault e s
       | .wait s => .wait s)
    | .fault e s => .fault e s
    | .wait s => .wait s

/-- Write consecutive lines of a Chuck. -/
def chuckWrite (s : State) (k : Kernel) (c x : Nat) (ds : List LineData) : KAcc Unit :=
  match ds with
  | [] => .ok () s
  | d :: rest =>
    match kWriteChuck s k c x d with
    | .ok _ s => chuckWrite s k c (x + 64) rest
    | .fault e s => .fault e s
    | .wait s => .wait s

/-- An access's outcome as a slot's. -/
def KAcc.slot {α : Type} (a : KAcc α) (ga : Nat) (f : α → State → Slot) : Slot :=
  match a with
  | .ok v s => f v s
  | .fault c s => .fault c ga s
  | .wait _ => .stall

end Sys2Proof.Machine
end

