-- ==== Sys2Proof/Machine/LatheEvents.lean ====
section
/-! DEFINITION. Machine/LatheEvents.lean: a Lathe's own events and the injections of the Lathes and of the plan loader (R307,
R312, R316, R381). -/

namespace Sys2Proof.Machine

/-- The slots of a run that reached done are added to their counters (R718, R719): a slot that the Lathe charged to no class was
FRONT_STARVED. -/
def runSlots (s : State) (l dom : Nat) : State :=
  let cyc := (reg s (rLathe l 0x20)).toNat
  let t := (latheAt s l).slots
  let n := fun (i : Nat) => (t[i]?).getD 0
  let s := pmcEnd (pmcEnd s l 0 cyc (some dom)) l 1 (n 0) (some dom)
  let s := pmcEnd s l 3 (cyc - (n 0 + n 1 + n 2)) (some dom)
  pmcEnd (pmcEnd s l 4 (n 1) (some dom)) l 5 (n 2) (some dom)

/-- LATHE_DONE (R307): a DRAINING Lathe with nothing in flight reports done. -/
def doLatheDone (l : Fin 128) (s : State) : State :=
  whenRunning s fun s =>
    let x := latheAt s l.val
    if latheState s l.val ≠ 4 ∨ x.tq ≠ [] ∨ x.spool ≠ [] ∨ x.wait ≠ .none then s
    else match kernelOf s x.win with
      | none => s
      | some k => setLatheState (runSlots (putKernel s { k with done := k.done ++ [.lathe l] }) l.val k.dom) l.val 5

/-- Does Lathe `l` run between its start point and its report? -/
def latheLive (s : State) (l : Nat) : Bool := [2, 3, 4].contains (latheState s l) && (latheKernel s l).isSome

/-- LATHE_WATCHDOG (R312): LATHE_CYC_L reaches LATHE_WDOG_L before the Lathe reports done. -/
def doLatheWatchdog (l : Fin 128) (s : State) : State :=
  whenRunning s fun s =>
    if latheLive s l.val then
      latheFault (regSet s (rLathe l.val 0x20) (reg s (rLathe l.val 0x28))) l.val 16 0 0
    else s

def doLatheInjClear (l : Fin 128) (s : State) : State := whenRunning s fun s => clearInj s (rLathe l.val 0x38)
def doLatheInjChuckCe (l : Fin 128) (s : State) : State := whenRunning s fun s => armInj s (rLathe l.val 0x38) 1 0 false
def doLatheInjChuckUe (l : Fin 128) (s : State) : State := whenRunning s fun s => armInj s (rLathe l.val 0x38) 2 0 false
def doLatheInjParity (l : Fin 128) (s : State) : State := whenRunning s fun s => armInj s (rLathe l.val 0x38) 3 0 false
/-- KIND 4: the watchdog of a running Lathe fires at once, else at the Lathe's next bundle. -/
def doLatheInjWatchdog (l : Fin 128) (s : State) : State :=
  whenRunning s fun s => if latheLive s l.val then latheFault s l.val 16 0 0 else armInj s (rLathe l.val 0x38) 4 0 false
def doLatheInjCwaitFail (l : Fin 128) (s : State) : State := whenRunning s fun s => armInj s (rLathe l.val 0x38) 5 0 false
def doLatheInjStop (l : Fin 128) (persist : Bool) (s : State) : State :=
  whenRunning s fun s => armInj s (rLathe l.val 0x38) 6 0 persist

def doLdrInjDigest (s : State) : State := whenRunning s fun s => armInj s rLdrInj 1 0 false
def doLdrInjAfter (s : State) : State := whenRunning s fun s => armInj s rLdrInj 2 0 false
def doLdrInjBadlen (w : Fin 1024) (s : State) : State := whenRunning s fun s => armInj s rLdrInj 3 w.val false

def execLatheDone (l : Fin 128) (s : State) : Host.Outcome State Fault Refusal := .next (doLatheDone l s)
def execLatheWatchdog (l : Fin 128) (s : State) : Host.Outcome State Fault Refusal := .next (doLatheWatchdog l s)
def execLatheInjClear (l : Fin 128) (s : State) : Host.Outcome State Fault Refusal := .next (doLatheInjClear l s)
def execLatheInjChuckCe (l : Fin 128) (s : State) : Host.Outcome State Fault Refusal := .next (doLatheInjChuckCe l s)
def execLatheInjChuckUe (l : Fin 128) (s : State) : Host.Outcome State Fault Refusal := .next (doLatheInjChuckUe l s)
def execLatheInjParity (l : Fin 128) (s : State) : Host.Outcome State Fault Refusal := .next (doLatheInjParity l s)
def execLatheInjWatchdog (l : Fin 128) (s : State) : Host.Outcome State Fault Refusal := .next (doLatheInjWatchdog l s)
def execLatheInjCwaitFail (l : Fin 128) (s : State) : Host.Outcome State Fault Refusal := .next (doLatheInjCwaitFail l s)
def execLatheInjStop (l : Fin 128) (persist : Bool) (s : State) : Host.Outcome State Fault Refusal :=
  .next (doLatheInjStop l persist s)
def execLdrInjDigest (s : State) : Host.Outcome State Fault Refusal := .next (doLdrInjDigest s)
def execLdrInjAfter (s : State) : Host.Outcome State Fault Refusal := .next (doLdrInjAfter s)
def execLdrInjBadlen (w : Fin 1024) (s : State) : Host.Outcome State Fault Refusal := .next (doLdrInjBadlen w s)

end Sys2Proof.Machine
end

