-- ==== Sys2Proof/Machine/Pmu.lean ====
section
/-! DEFINITION. Machine/Pmu.lean: the central performance registers: freeze, snapshot and the rings (chapter 17). -/

namespace Sys2Proof.Machine

/-- Does a counter register lie at `off`: PMC_CFG, PMC_CNT or PMC_SNAP of a block, by its first offset (0, 0x80 or 0x100)? -/
def pmcAt (off first : Nat) : Bool :=
  decide (0x7000000 ≤ off) && decide (off < 0x7000000 + 0x200 * 207) && decide (first ≤ off % 0x200) && decide (off % 0x200 < first + 0x80)

/-- Freeze every counter (R713). -/
def pmuFreeze (s : State) : State := setBit (setBit s (rPmu 0) 0) (rPmu 8) 0

/-- Resume counting, and apply the additions that the freeze held (R713, R714). -/
def pmuUnfreeze (s : State) : State :=
  let held := s.pmcHeld
  let s := { (clrBit (clrBit s (rPmu 0) 0) (rPmu 8) 0) with pmcHeld := [] }
  forEach held s (fun s e => pmcAdd s (e.1 / 16) (e.1 % 16) e.2)

/-- Copy every counter into its snapshot register (R715); while a snapshot is in progress nothing happens. -/
def pmuSnap (s : State) : State :=
  if regBit s (rPmu 8) 1 then s
  else
    let kept := s.regs.filter (fun e => !pmcAt e.1 0x100)
    let copies := (s.regs.filter (fun e => pmcAt e.1 0x80)).map (fun e => (e.1 + 0x80, e.2))
    setBit { s with regs := copies.foldl (fun m e => Sparse.ins m e.1 e.2) kept } (rPmu 8) 1

/-- PMU_FREEZE. -/
def doPmuFreeze (s : State) : State := whenRunning s pmuFreeze
/-- PMU_UNFREEZE. -/
def doPmuUnfreeze (s : State) : State := whenRunning s pmuUnfreeze
/-- PMU_SNAP. -/
def doPmuSnap (s : State) : State := whenRunning s pmuSnap

/-- SNAP_DONE (R715): every copy is held. -/
def doSnapDone (s : State) : State :=
  whenRunning s fun s => if regBit s (rPmu 8) 1 then clrBit (regAdd s (rPmu 8) 47 16 1) (rPmu 8) 1 else s

/-- A write of a counter (R711, R714): it takes effect at once, frozen or not. Events come with commands of their own, so none
falls in the same cycle. -/
def pmcWrite (s : State) (off : Nat) (v : Word) : State :=
  if pmcAt off 0x80 && (regRow off).isSome then regPut s off 47 0 v.toNat else s

/-- PMC_CNT_WRITE. -/
def doPmcCntWrite (block : Fin 207) (i : Fin 16) (v : BitVec 64) (s : State) : State :=
  whenRunning s fun s => pmcWrite s (rPmc block.val (0x80 + 8 * i.val)) v

/-- Free the `n` oldest entries of a ring whose status register is `st` (R726, R727); DROPPED clears with the last one. -/
def ringAck (s : State) (st n : Nat) : State :=
  let held := regFld s st 28 16
  let k := min n held
  let s := regPut (regPut s st 28 16 (held - k)) st 11 0 (regFld s st 11 0 + k)
  if held = k then regPut s st 55 32 0 else s

/-- TAG_ACK. -/
def doTagAck (n : BitVec 13) (s : State) : State := whenRunning s fun s => ringAck s (rPmu 0x18) n.toNat
/-- MIR_ACK. -/
def doMirAck (n : BitVec 13) (s : State) : State := whenRunning s fun s => ringAck s (rPmu 0x28) n.toNat

-- EXEC
def execPmuFreeze (s : State) : Host.Outcome State Fault Refusal := .next (doPmuFreeze s)
def execPmuUnfreeze (s : State) : Host.Outcome State Fault Refusal := .next (doPmuUnfreeze s)
def execPmuSnap (s : State) : Host.Outcome State Fault Refusal := .next (doPmuSnap s)
def execSnapDone (s : State) : Host.Outcome State Fault Refusal := .next (doSnapDone s)
def execPmcCntWrite (block : Fin 207) (i : Fin 16) (v : BitVec 64) (s : State) : Host.Outcome State Fault Refusal :=
  .next (doPmcCntWrite block i v s)
def execTagAck (n : BitVec 13) (s : State) : Host.Outcome State Fault Refusal := .next (doTagAck n s)
def execMirAck (n : BitVec 13) (s : State) : Host.Outcome State Fault Refusal := .next (doMirAck n s)

end Sys2Proof.Machine
end

