-- ==== Sys2Proof/Machine/Walker.lean ====
section
/-! DEFINITION. Machine/Walker.lean: the walkers: the programs of their kites and the queries they run (chapter 11). -/

namespace Sys2Proof.Machine

/-! Instructions (R480, R481). -/

def doKnop (n : Fin 4096) (s : State) : State := insn kiteKind n.val s fun c _ s => .next c s
def doKli (n : Fin 4096) (kd : BitVec 4) (imm : BitVec 16) (s : State) : State :=
  cOp kiteKind n.val kd s fun _ _ => imm.signExtend 64
def doKlui (n : Fin 4096) (kd : BitVec 4) (imm : BitVec 16) (s : State) : State :=
  cOp kiteKind n.val kd s fun c _ => (cGet c kd <<< 16) ||| imm.zeroExtend 64
def doKadd (n : Fin 4096) (kd ka kb : BitVec 4) (s : State) : State :=
  cOp kiteKind n.val kd s fun c _ => cGet c ka + cGet c kb
def doKaddi (n : Fin 4096) (kd ka : BitVec 4) (imm : BitVec 12) (s : State) : State :=
  cOp kiteKind n.val kd s fun c _ => cGet c ka + imm.signExtend 64
def doKmul (n : Fin 4096) (kd ka kb : BitVec 4) (s : State) : State :=
  cOp kiteKind n.val kd s fun c _ => cGet c ka * cGet c kb
def doKparam (n : Fin 4096) (kd : BitVec 4) (p : BitVec 8) (s : State) : State :=
  cOp kiteKind n.val kd s fun _ k => BitVec.ofNat 64 (k.param p.toNat)
def doKid (n : Fin 4096) (kd k : BitVec 4) (s : State) : State :=
  cId kiteKind n.val kd k (fun k => k.kites.length) (n.val / 128) s
def doKwait (n : Fin 4096) (ch kv kt : BitVec 4) (far : BitVec 64) (s : State) : State :=
  cWait kiteKind n.val ch kv kt far (rWalker (n.val / 128) 0x10) s
def doKwaitSatisfied (n : Fin 4096) (far : BitVec 64) (s : State) : State := cWaitEnd kiteKind n.val far s
def doKwaitTimeout (n : Fin 4096) (s : State) : State := cWaitFail kiteKind n.val s
def doKsig (n : Fin 4096) (ka : BitVec 4) (s : State) : State := cSig kiteKind n.val ka s
def doKloop (n : Fin 4096) (len1 n1 : BitVec 12) (s : State) : State :=
  cLoop kiteKind n.val (len1.toNat + 1) (fun _ => n1.toNat + 1) s
def doKloopP (n : Fin 4096) (len1 : BitVec 12) (p : BitVec 8) (s : State) : State :=
  cLoop kiteKind n.val (len1.toNat + 1) (fun k => k.param p.toNat % 2 ^ 32) s
def doKend (n : Fin 4096) (s : State) : State := cEnd kiteKind n.val s

/-! The order of items (R462). -/

/-- The rank of a distance: -0 equals +0, NaN comes last. -/
def distRank (d : Nat) : Int := if isNan32 d then 2 ^ 32 else if d % 2 ^ 31 = 0 then 0 else rank32 d

/-- Does item `a` come before item `b`? -/
def Item.before (a b : Item) : Bool :=
  let x := distRank a.dist
  let y := distRank b.dist
  decide (x < y) || (x == y && (decide (a.label < b.label) || (a.label == b.label &&
    (decide (a.src < b.src) || (a.src == b.src && decide (a.id < b.id))))))

/-- Insert an item in key order. -/
def insertItem (l : List Item) (x : Item) : List Item :=
  match l with
  | [] => [x]
  | a :: rest => if x.before a then x :: a :: rest else a :: insertItem rest x

/-- keep_best of R472. -/
def keepBest (l : List Item) (n : Nat) (x : Item) : List Item := (insertItem l x).take n

/-! Distance (R461). -/

/-- One partial's dimensions in ascending order. -/
def partialSum (metric : Nat) (ps : List (Nat × Nat)) : Nat :=
  ps.foldl (fun acc p =>
    if metric = 0 then (let t := fsub p.1 p.2; ffma t t acc) else ffma p.1 p.2 acc) 0

/-- Neighbours added: one level of the tree of R332. -/
def pairAdd (l : List Nat) : List Nat :=
  (List.range (l.length / 2)).map (fun i => fadd ((l[2 * i]?).getD 0) ((l[2 * i + 1]?).getD 0))

/-- The distance of a stored vector to the query. -/
def distance (metric : Nat) (q x : List Nat) : Nat :=
  let ps := q.zip x
  let parts := (List.range 64).map (fun i =>
    partialSum metric ((ps.zip (List.range ps.length)).filterMap (fun e => if e.2 % 64 = i then some e.1 else none)))
  let sum := (pairAdd (pairAdd (pairAdd (pairAdd (pairAdd (pairAdd parts)))))).headD 0
  if metric = 0 then sum else (sum + 2 ^ 31) % 2 ^ 32

/-! Queries (R469 to R476). -/

/-- The plan's VISIT_MAX (R479). -/
def visitMax (s : State) (k : Kernel) : Nat := planN s k.plan ((planSect s k.plan 9 0).2 + 4) 4

/-- A query from its descriptor (R469), none when R470 refuses a field. -/
def queryOf (idxs : List KIdx) (vmax d : Nat) : Option (Query × Nat) :=
  let f := fun a n => d / 2 ^ (8 * a) % 2 ^ (8 * n)
  match idxs[f 0 1]? with
  | none => none
  | some x =>
    if decide (f 1 1 ≤ 2) && decide (1 ≤ f 2 2) && decide (f 2 2 ≤ 512) && decide (1 ≤ f 4 2) && decide (f 4 2 ≤ 512)
        && decide (f 4 2 + f 6 2 ≤ 512) && decide (1 ≤ f 8 4) && decide (f 8 4 ≤ vmax) && decide (f 12 1 ≤ 1) && f 13 3 == 0
        && f 16 8 % 64 == 0 && decide (f 16 8 < 2 ^ 60) && f 40 8 % 64 == 0 && decide (f 40 8 < 2 ^ 60) && f 48 16 == 0 then
      some ({ index := f 0 1, fmode := f 1 1, k := f 2 2, ef := f 4 2, widen := f 6 2, visit := f 8 4, counted := f 12 1 == 1,
              fmask := f 24 8, fval := f 32 8, resAddr := f 40 8, vec := [], todo := x.entries, side := x.live, visited := [],
              q := [], r := [], evaluated := 0, expanded := 0, sideLive := 0, bad := 0, widened := 0, budget := false,
              ended := false }, f 16 8)
    else none

/-- Kite `n` asks for `lines` lines as the last in its walker's rotation (R454), unless its kwalk has asked for as many already. -/
def kiteAsk (s : State) (n lines : Nat) : State :=
  let c := kiteOf s n
  if c.fetch = some lines then s
  else putKite { s with kiteNo := s.kiteNo + 1 } n { c with turn := s.kiteNo + 1, fetch := some lines }

/-- Are the reads of kite `n` in flight (R453)? -/
def kiteReads (s : State) (n : Nat) : Bool := (walkReads s (n / 128)).any (fun e => e.1 == n)

/-- KWALK (R472): the descriptor and the query vector are read, each when the walker has room for its lines (R453), and the walk begins. -/
def doKwalk (n : Fin 4096) (ka : BitVec 4) (ext : List FarLine) (s : State) : State :=
  insn kwalkKind n.val s fun c k s =>
    let a := (cGet c ka).toNat % 2 ^ 60
    let s := if c.fetch.isSome then s else kiteAsk s n.val 1
    if !kiteReads s n.val then .stay s
    else match kBytes s k a 64 ext with
    | .fault e s => .fault e a s
    | .wait s => .stay s
    | .ok d s =>
      match queryOf k.idxs (visitMax s k) d with
      | none => .fault 38 a s
      | some (q, va) =>
        let dim := ((k.idxs[q.index]?).map (fun x => x.dim)).getD 0
        let s := kiteAsk s n.val (cdiv (4 * dim) 64)
        if !kiteReads s n.val then .stay s
        else match kBytes s k va (4 * dim) ext with
        | .fault e s => .fault e va s
        | .wait s => .stay s
        | .ok v s =>
          .stay (regPut (putKite (readDone { s with kiteNo := s.kiteNo + 1 } k.win) n.val
            { c with query := some { q with vec := (List.range dim).map (fun i => blankBits v (32 * i) 32) }, turn := s.kiteNo + 1, fetch := none })
            (rKite n.val 0) 31 8 0)

/-- Does an attribute word satisfy the filter (R469)? -/
def filterOk (q : Query) (attr : Nat) : Bool :=
  if q.fmode = 1 then (attr &&& q.fmask) == q.fval else if q.fmode = 2 then (attr &&& q.fmask) != 0 else true

/-- The first `n` bytes of a node record: 64 for an evaluation, with the neighbours for an expansion; a record that breaks R459 gives
none. -/
def nodeHead (s : State) (k : Kernel) (x : KIdx) (i n : Nat) (ext : Ext) : KAcc (Option Nat) :=
  match kBytes s k (x.base + x.off + i * x.pitch) n ext with
  | .ok v s => if x.degree < blankBits v 128 16 ∨ blankBits v 152 360 ≠ 0 then .ok none s else .ok (some v) s
  | .fault c s => .fault c s
  | .wait s => .wait s

/-- One evaluation (R472): what comes back is the query, or a fault code. -/
def evalNode (s : State) (k : Kernel) (x : KIdx) (q : Query) (i : Nat) (ext : Ext) : KAcc Query :=
  if q.visited.contains i then .ok q s
  else if q.visited.length = q.visit then .ok { q with budget := true, ended := true } s
  else match nodeHead s k x i 64 ext with
    | .fault c s => .fault c s
    | .wait s => .wait s
    | .ok none s => .fault 37 s
    | .ok (some h) s =>
      match kBytes s k (x.base + x.off + i * x.pitch + vecOff x) ((rowBytes x.fmt x.dim).getD 0) ext with
      | .fault c s => .fault c s
      | .wait s => .wait s
      | .ok v s =>
        let d := distance x.metric q.vec (rowElems x.fmt x.dim v)
        let label := blankBits h 0 64
        let it : Item := ⟨d, label, 0, i, false⟩
        let pass := !(h.testBit 144) && !x.hidden.any (fun e => e.1 == label) && filterOk q (blankBits h 64 64)
        .ok { q with
          visited := Sparse.add q.visited i
          evaluated := q.evaluated + 1
          q := keepBest q.q (q.ef + q.widen) it
          r := if pass then keepBest q.r q.k it else q.r } s

/-- Scan one live side entry (R472). -/
def evalSide (s : State) (k : Kernel) (x : KIdx) (q : Query) (sq : Nat) (ext : Ext) : KAcc Query :=
  let a := x.side + 64 + sq % x.cap * x.spitch
  match kBytes s k a (64 + (rowBytes x.fmt x.dim).getD 0) ext with
  | .fault c s => .fault c s
  | .wait s => .wait s
  | .ok v s =>
    let d := distance x.metric q.vec (rowElems x.fmt x.dim (v / 2 ^ 512))
    .ok { q with
      sideLive := q.sideLive + 1
      r := if filterOk q (blankBits v 64 64) then keepBest q.r q.k ⟨d, blankBits v 0 64, 1, sq, false⟩ else q.r } s

/-- Expand node `i` of the candidate queue (R472): its neighbours are to be evaluated in stored order. -/
def expandNode (s : State) (k : Kernel) (x : KIdx) (q : Query) (i : Nat) (wide : Bool) (ext : Ext) : KAcc Query :=
  match nodeHead s k x i (64 + 4 * x.degree) ext with
  | .fault c s => .fault c s
  | .wait s => .wait s
  | .ok none s => .fault 37 s
  | .ok (some h) s =>
    .ok { q with
      q := q.q.map (fun e => if e.id = i then { e with done := true } else e)
      expanded := q.expanded + 1
      wide := wide
      todo := (List.range (blankBits h 128 16)).map (fun j => blankBits h (512 + 32 * j) 32) } s

/-- A widening expansion ends, and counts (R472), once its last neighbour has been evaluated. -/
def Query.widenDone (q : Query) : Query :=
  if q.wide ∧ q.todo = [] ∧ !q.ended then { q with widened := q.widened + 1, wide := false } else q

/-- One step of a walk (R472, R473): an evaluation, a side entry, an expansion, or the walk's end. -/
def walkStep (s : State) (k : Kernel) (x : KIdx) (q : Query) (ext : Ext) : KAcc Query :=
  match q.todo, q.side with
  | i :: rest, _ =>
    if x.nodes ≤ i then .ok ({ q with todo := rest, bad := q.bad + 1 } : Query).widenDone s
    else (match evalNode s k x q i ext with
      | .ok q s => .ok ({ q with todo := rest } : Query).widenDone s
      | r => r)
  | [], sq :: rest =>
    (match evalSide s k x q sq ext with
     | .ok q s => .ok { q with side := rest } s
     | r => r)
  | [], [] =>
    match nextExpand q with
    | some (e, wide) =>
      (match expandNode s k x q e.id wide ext with
       | .ok q s => .ok q.widenDone s
       | r => r)
    | none => .ok { q with ended := true } s

/-- An event of a kite's query. -/
def queryStep (n : Nat) (s : State) (f : Ctx → Query → KIdx → Kernel → State → State) : State :=
  whenRunning s fun s =>
    let c := kiteOf s n
    if regFld s (rKite n 0) 2 0 ≠ 1 ∨ c.stopped then s
    else match c.query, liveKernel s c.win with
      | some q, some k =>
        (match k.idxs[q.index]? with
         | some x => f c q x (k.at (walkerPort (n / 128)) (some (.kite (Fin.ofNat 4096 n)))) s
         | none => s)
      | _, _ => s

/-- Count a step that a kite has taken and advance its tag register (R705, R722); a tagged step's record is written (R726). -/
def noteStep (s : State) (n : Nat) (k : Kernel) (c : Ctx) (st : Nat × Nat × Nat × Nat × Nat) : State :=
  let (kind, idx, a, lines, terms) := st
  let b := 128 + n / 128
  let s := pmc s b 7 lines (some k.dom)
  if kind = 0 then s
  else
    let s := pmc (pmc s b 6 1 (some k.dom)) b 8 terms (some k.dom)
    let s := putKite s n { kiteOf s n with steps := c.steps + 1 }
    let (v, s) := tagAdvance s (128 + n)
    if !tagHit s 2 v then s
    else
      let (f, s) := drawFrees s 3
      tagPush s none k.dom (tagWords { kind := 2, replay := k.replays != 0, dom := k.dom, unit := n / 128, rank := c.rank,
                                       win := c.win, cseq := winSeq s c.win, reg := v, index := c.steps + 1, addr := a } f
        (BitVec.ofNat 64 (kind + idx % 2 ^ 32 * 2 ^ 32)) (BitVec.ofNat 64 (c.ran % 2 ^ 32 + lines % 2 ^ 16 * 2 ^ 32))
        (Config.freeWord (f + 1)) (Config.freeWord (f + 2) &&& 0xFFFFFFFF))

/-- KITE_READ_RETURN (R453, R454, R473): a read in flight returns and the walk takes its next step: one cycle of reads and distance and one that keeps
the lists (R720). -/
def doKiteReadReturn (n : Fin 4096) (ext : List FarLine) (s : State) : State :=
  queryStep n.val s fun c q x k s =>
    let w := n.val / 128
    if q.ended ∨ !kiteReads s n.val then s
    else match takeInj s (rWalker w 0x10) 1 (fun _ => true) with
      | some (_, s) => kiteFault s n.val 40 0
      | none =>
        let st := nextStep x q
        match (if st.1 = 1 ∨ st.1 = 2 then takeInj s (rWalker w 0x10) 4 (fun _ => true) else none) with
        | some (_, s) => kiteFault s n.val 10 st.2.2.1
        | none =>
          match walkStep s k x q ext with
          | .wait s => kiteWorkCycle s n.val k.dom
          | .fault e s => kiteWorkCycle (kiteFault s n.val e st.2.2.1) n.val k.dom
          | .ok q' s =>
            let more := q'.evaluated + q'.sideLive - (q.evaluated + q.sideLive)
            let s := readDone (if more = 0 then s else addCnt s (rWalker w 0x18) more) k.win
            let s := regPut (noteStep (putKite { s with kiteNo := s.kiteNo + 1 } n.val { c with query := some q', turn := s.kiteNo + 1 }) n.val k c st) (rKite n.val 0) 31 8
              (min (2 ^ 24 - 1) (q'.evaluated + q'.sideLive))
            kiteCycle 5 (kiteWorkCycle s n.val k.dom) n.val k.dom

/-- The result record (R476). -/
def resultLines (q : Query) : List LineData :=
  let fewer : Bool := decide (q.r.length < q.k)
  let flags := (if fewer then 1 else 0) + (if q.budget then 2 else 0) + (if 0 < q.widened then 4 else 0)
  let head := q.r.length + flags * 2 ^ 16 + q.evaluated % 2 ^ 32 * 2 ^ 32 + q.expanded % 2 ^ 32 * 2 ^ 64 +
    q.sideLive % 2 ^ 32 * 2 ^ 96 + q.bad % 2 ^ 32 * 2 ^ 128
  let body := q.r.foldr (fun e n => e.label + e.dist * 2 ^ 64 + e.src * 2 ^ 96 + 2 ^ 128 * n) 0
  blankLines (head + 2 ^ 512 * body) (64 + cdiv (16 * q.k) 64 * 64)

/-- Has every line of a result record that went to another controller been served (R476)? -/
def resultServed (s : State) (k : Kernel) (q : Query) : Bool :=
  !s.agentReqs.any (fun r => r.who.ofKernel k.win && r.op == 6 && decide (q.resAddr / 64 ≤ r.addr) && decide (r.addr < q.resAddr / 64 + (resultLines q).length))

/-- QUERY_COMPLETE (R476): the result record is written, and kwalk returns once it is served. -/
def doQueryComplete (n : Fin 4096) (s : State) : State :=
  queryStep n.val s fun c q _ k s =>
    if !q.ended then s
    else match (if q.closed then .ok () s else kOutLines s k q.counted q.resAddr (resultLines q)) with
      | .wait s => s
      | .fault e a s => kiteFault s n.val e a
      | .ok _ s =>
        if !resultServed s k q then putKite s n.val { c with query := some { q with closed := true } } else
        let s := if q.r.length < q.k then incCnt s (rWalker (n.val / 128) 0x20) else s
        let s := kiteCycle 5 (pmc s (128 + n.val / 128) 9 1 (some k.dom)) n.val k.dom
        ctxAdvance kiteKind s n.val { c with query := none, ran := c.ran + 1 } c.pc

/-- KITE_WATCHDOG (R448, R481): the watchdog of a kite that has not reported done expires. -/
def doKiteWatchdog (n : Fin 4096) (s : State) : State := whenRunning s (engWatchdog kiteKind n.val)

def doWalkerInjClear (w : Fin 32) (s : State) : State := whenRunning s fun s => clearInj s (rWalker w.val 0x10)
def doWalkerInjKmemUe (w : Fin 32) (s : State) : State := whenRunning s fun s => armInj s (rWalker w.val 0x10) 1 0 false
def doWalkerInjWatchdog (w : Fin 32) (s : State) : State := whenRunning s fun s => armInj s (rWalker w.val 0x10) 2 0 false
def doWalkerInjKwait (w : Fin 32) (s : State) : State := whenRunning s fun s => armInj s (rWalker w.val 0x10) 3 0 false
def doWalkerInjPoison (w : Fin 32) (s : State) : State := whenRunning s fun s => armInj s (rWalker w.val 0x10) 4 0 false
def doWalkerInjStop (w : Fin 32) (persist : Bool) (s : State) : State :=
  whenRunning s fun s => armInj s (rWalker w.val 0x10) 5 0 persist

-- EXEC
def execKnop (n : Fin 4096) (s : State) : Host.Outcome State Fault Refusal := .next (doKnop n s)
def execKli (n : Fin 4096) (kd : BitVec 4) (imm : BitVec 16) (s : State) : Host.Outcome State Fault Refusal :=
  .next (doKli n kd imm s)
def execKlui (n : Fin 4096) (kd : BitVec 4) (imm : BitVec 16) (s : State) : Host.Outcome State Fault Refusal :=
  .next (doKlui n kd imm s)
def execKadd (n : Fin 4096) (kd ka kb : BitVec 4) (s : State) : Host.Outcome State Fault Refusal :=
  .next (doKadd n kd ka kb s)
def execKaddi (n : Fin 4096) (kd ka : BitVec 4) (imm : BitVec 12) (s : State) : Host.Outcome State Fault Refusal :=
  .next (doKaddi n kd ka imm s)
def execKmul (n : Fin 4096) (kd ka kb : BitVec 4) (s : State) : Host.Outcome State Fault Refusal :=
  .next (doKmul n kd ka kb s)
def execKparam (n : Fin 4096) (kd : BitVec 4) (p : BitVec 8) (s : State) : Host.Outcome State Fault Refusal :=
  .next (doKparam n kd p s)
def execKid (n : Fin 4096) (kd k : BitVec 4) (s : State) : Host.Outcome State Fault Refusal := .next (doKid n kd k s)
def execKwalk (n : Fin 4096) (ka : BitVec 4) (ext : List FarLine) (s : State) :
    Host.Outcome State Fault Refusal :=
  .next (doKwalk n ka ext s)
def execKiteReadReturn (n : Fin 4096) (ext : List FarLine) (s : State) : Host.Outcome State Fault Refusal :=
  .next (doKiteReadReturn n ext s)
def execQueryComplete (n : Fin 4096) (s : State) : Host.Outcome State Fault Refusal := .next (doQueryComplete n s)
def execKwait (n : Fin 4096) (ch kv kt : BitVec 4) (far : BitVec 64) (s : State) : Host.Outcome State Fault Refusal :=
  .next (doKwait n ch kv kt far s)
def execKwaitSatisfied (n : Fin 4096) (far : BitVec 64) (s : State) : Host.Outcome State Fault Refusal :=
  .next (doKwaitSatisfied n far s)
def execKwaitTimeout (n : Fin 4096) (s : State) : Host.Outcome State Fault Refusal := .next (doKwaitTimeout n s)
def execKsig (n : Fin 4096) (ka : BitVec 4) (s : State) : Host.Outcome State Fault Refusal := .next (doKsig n ka s)
def execKloop (n : Fin 4096) (len1 n1 : BitVec 12) (s : State) : Host.Outcome State Fault Refusal :=
  .next (doKloop n len1 n1 s)
def execKloopP (n : Fin 4096) (len1 : BitVec 12) (p : BitVec 8) (s : State) : Host.Outcome State Fault Refusal :=
  .next (doKloopP n len1 p s)
def execKend (n : Fin 4096) (s : State) : Host.Outcome State Fault Refusal := .next (doKend n s)
def execKiteWatchdog (n : Fin 4096) (s : State) : Host.Outcome State Fault Refusal := .next (doKiteWatchdog n s)
def execWalkerInjClear (w : Fin 32) (s : State) : Host.Outcome State Fault Refusal := .next (doWalkerInjClear w s)
def execWalkerInjKmemUe (w : Fin 32) (s : State) : Host.Outcome State Fault Refusal := .next (doWalkerInjKmemUe w s)
def execWalkerInjWatchdog (w : Fin 32) (s : State) : Host.Outcome State Fault Refusal := .next (doWalkerInjWatchdog w s)
def execWalkerInjKwait (w : Fin 32) (s : State) : Host.Outcome State Fault Refusal := .next (doWalkerInjKwait w s)
def execWalkerInjPoison (w : Fin 32) (s : State) : Host.Outcome State Fault Refusal := .next (doWalkerInjPoison w s)
def execWalkerInjStop (w : Fin 32) (persist : Bool) (s : State) : Host.Outcome State Fault Refusal :=
  .next (doWalkerInjStop w persist s)

end Sys2Proof.Machine
end

