-- ==== Sys2Proof/Machine/CtlWindow.lean ====
section
/-! DEFINITION. Machine/CtlWindow.lean: what a write of a register does: by its access type, and for the registers that name an
action, the action (R14, R760). -/

namespace Sys2Proof.Machine

/-- The number of a register of a family: registers `stride` apart from `base`, `n` of them. -/
def unitAt (off base n stride : Nat) : Option Nat :=
  if base ≤ off ∧ off < base + n * stride ∧ (off - base) % stride = 0 then some ((off - base) / stride) else none

/-- LATHE_INJ_L (R316). -/
def writeLatheInj (s : State) (l kind : Nat) (persist : Bool) : State :=
  let l := Fin.ofNat 128 l
  match kind with
  | 0 => doLatheInjClear l s
  | 1 => doLatheInjChuckCe l s
  | 2 => doLatheInjChuckUe l s
  | 3 => doLatheInjParity l s
  | 4 => doLatheInjWatchdog l s
  | 5 => doLatheInjCwaitFail l s
  | 6 => doLatheInjStop l persist s
  | _ => s

/-- GOUGE_INJ_g (R451). -/
def writeGougeInj (s : State) (g kind : Nat) (persist : Bool) : State :=
  let g := Fin.ofNat 16 g
  match kind with
  | 0 => doGougeInjClear g s
  | 1 => doGougeInjTableUe g s
  | 2 => doGougeInjWatchdog g s
  | 3 => doGougeInjGwait g s
  | 4 => doGougeInjPoison g s
  | 5 => doGougeInjStop g persist s
  | _ => s

/-- WALKER_INJ_w (R484). -/
def writeWalkerInj (s : State) (w kind : Nat) (persist : Bool) : State :=
  let w := Fin.ofNat 32 w
  match kind with
  | 0 => doWalkerInjClear w s
  | 1 => doWalkerInjKmemUe w s
  | 2 => doWalkerInjWatchdog w s
  | 3 => doWalkerInjKwait w s
  | 4 => doWalkerInjPoison w s
  | 5 => doWalkerInjStop w persist s
  | _ => s

/-- FAB_INJ_p (R556). -/
def writeFabInj (s : State) (p kind lane : Nat) : State :=
  let p := Fin.ofNat 16 p
  match kind with
  | 1 => doFabInjCrc p s
  | 2 => doFabInjBadRx p s
  | 3 => doFabInjLaneFail p (Fin.ofNat 4 lane) s
  | 4 => doFabInjRetrain p s
  | 5 => doFabInjDown p s
  | _ => s

/-- RECOV_INJ (chapter 14). -/
def writeRecovInj (s : State) (kind unit arg : Nat) : State :=
  match kind with
  | 1 => doRecovInjCwAccess s
  | 2 => doRecovInjReset (BitVec.ofNat 16 unit) s
  | 3 => doRecovInjNested (BitVec.ofNat 16 unit) s
  | 4 => doRecovInjRip s
  | 5 => doRecovInjTetherSweep s
  | 6 => doRecovInjAbort (BitVec.ofNat 8 arg) s
  | 7 => doRecovInjCtrlUe s
  | _ => s

/-- STK_INJ_h (chapter 14). -/
def writeStkInj (s : State) (h kind : Nat) : State :=
  let h := Fin.ofNat 8 h
  match kind with
  | 1 => doStkInjCe h s
  | 2 => doStkInjUe h s
  | 3 => doStkInjTrkUe h s
  | 4 => doStkInjCtrUe h s
  | 5 => doStkInjTrain h s
  | _ => s

/-- What a write of `v` to the WO fields of an injection register does; none when `off` is no injection register. -/
def writeInj (s : State) (off v : Nat) : Option State :=
  let kind := v % 16
  match unitAt off 0x301088 32 0x100, unitAt off 0x400010 8 0x40000, unitAt off 0x800038 128 0x10000, unitAt off 0x1100010 16 0x1000,
      unitAt off 0x1000010 32 0x1000, unitAt off 0x2000018 16 0x10000, unitAt off 0x3000010 2 0x1000, unitAt off 0x5020018 8 0x40 with
  | some c, _, _, _, _, _, _, _ => some (if 1 ≤ kind ∧ kind ≤ 6 then medInj kind (Fin.ofNat 32 c) (BitVec.ofNat 8 (bits v 15 8)) s else s)
  | _, some h, _, _, _, _, _, _ => some (if 1 ≤ kind ∧ kind ≤ 5 then haInj kind (Fin.ofNat 8 h) (bits v 13 8) s else s)
  | _, _, some l, _, _, _, _, _ => some (writeLatheInj s l kind (v.testBit 8))
  | _, _, _, some g, _, _, _, _ => some (writeGougeInj s g kind (v.testBit 8))
  | _, _, _, _, some w, _, _, _ => some (writeWalkerInj s w kind (v.testBit 8))
  | _, _, _, _, _, some p, _, _ => some (writeFabInj s p kind (bits v 9 8))
  | _, _, _, _, _, _, some e, _ => some (whenRunning s fun s => ethInj s e kind)
  | _, _, _, _, _, _, _, some h => some (writeStkInj s h kind)
  | none, none, none, none, none, none, none, none =>
    if off = rLdrInj then
      some (match kind with
        | 1 => doLdrInjDigest s
        | 2 => doLdrInjAfter s
        | 3 => doLdrInjBadlen (Fin.ofNat 1024 (bits v 25 16)) s
        | _ => s)
    else if off = rSw 0x18 then
      some (match kind with
        | 1 => doSwInjCellUe s
        | 2 => (if bits v 13 8 < 42 then doSwInjPortDown (Fin.ofNat 42 (bits v 13 8)) s else s)
        | 3 => doSwInjMirrorDrop s
        | _ => s)
    else if off = rGw 0x10 then
      some (match kind with
        | 1 => doGwInjRemoteErr s
        | 2 => doGwInjTimeout s
        | 3 => doGwInjStageUe s
        | _ => s)
    else if off = rRecov 0x20 then some (writeRecovInj s kind (bits v 31 16) (bits v 15 8))
    else if off = rBoot 0x10 then some (if 1 ≤ kind ∧ kind ≤ 2 then bootInj s kind else s)
    else if off = rBoot 0x138 then
      some (if kind = 1 ∧ bits v 15 8 < 64 ∨ kind = 2 then isoInj s kind (bits v 15 8) else s)
    else if off = rPwr 0x38 then
      some (if 1 ≤ kind ∧ kind ≤ 3 then pwrInj s kind else if kind = 4 then doPwrInjTrip s else s)
    else none

/-- A write by access type: RW bits take the value, a 1 clears a W1C bit, every other bit stays (R14). -/
def plainWrite (s : State) (off : Nat) (v : Word) : State :=
  match regRow off with
  | none => s
  | some r =>
    let rw := BitVec.ofNat 64 r.rw
    let w1c := BitVec.ofNat 64 r.w1c
    regSet s off (((reg s off &&& ~~~rw) ||| (v &&& rw)) &&& ~~~(v &&& w1c))

/-- The registers that only domain 0 writes (R708). -/
def domain0Only (off : Nat) : Bool :=
  (decide (0x7000000 ≤ off) && decide (off < 0x7080000) && decide (off % 0x200 < 0x100))
    || off == rPmu 0 || off == rPmu 0x10 || off == rPmu 0x20 || off == rPmu 0x30

/-- The registers that the standby and always-on domains serve: the capability block, the recovery block with its logs and dumps,
the management, power and boot registers. Those of the fast domains are powered down outside RUNNING (R575). -/
def standbyReg (off : Nat) : Bool :=
  decide (off < 0x1000) || (decide (0x5000000 ≤ off) && decide (off < 0x7000000)) || decide (0x8000000 ≤ off)
    || off == rMgmtStat || off == rMgmtErr

/-- Is the register's block powered? -/
def regUp (s : State) (off : Nat) : Bool := s.stbyUp && (running s || standbyReg off)

/-- A full-width write of a register by an access of domain `d`: the action of a register that names one, else by access type. -/
def regWrite (s : State) (d off : Nat) (v : Word) : State :=
  let n := v.toNat
  if !regUp s off || (d != 0 && domain0Only off) then s
  else
  let s := touchUnit s off
  match writeInj s off n with
  | some t => t
  | none =>
    match unitAt off 0x5001008 12 16 with
    | some c => doErrAck (Fin.ofNat 12 c) (BitVec.ofNat 8 n) s
    | none =>
      if off = 0x5040088 then doOrphAck (BitVec.ofNat 13 n) s
      else if off = rRecov 0x110 then
        let s := plainWrite s off v
        if n.testBit 30 then doDumpRelease (Fin.ofNat 2 (bits n 31 31)) s else s
      else if off = rPwr 0 then
        let s := regPut s off 3 2 (bits n 3 2)
        if n % 4 = 1 then doPwrReqRun s else if n % 4 = 2 then doPwrReqStandby s else s
      else if off = rPwr 0x18 then doBallastCfgWrite v s
      else if off = rPmu 0 then
        let s := regPut s off 2 2 (bits n 2 2)
        let s := if n.testBit 1 then pmuSnap s else s
        if n.testBit 0 then pmuFreeze s else pmuUnfreeze s
      else if off = rPmu 0x10 then { (plainWrite s off v) with tagFresh := [] }
      else if off = rSw 0x20 then mirrorWrite s v
      else if off = rPmu 0x20 then ringAck s (rPmu 0x18) (n % 8192)
      else if off = rPmu 0x30 then ringAck s (rPmu 0x28) (n % 8192)
      else if pmcAt off 0x80 then pmcWrite s off v
      else plainWrite s off v

/-- A WrLine to the control window: a counted write in the parity fold area (R176), else a full-width write of every register of the
line (R760). -/
def ctlLine (s : State) (x d : Nat) (data : LineData) : State :=
  if inRings x then ringPut s ((x - 0x4000000) / 2 ^ 20) (x % 2 ^ 20 / 64 * 64) d data else
  forEach (List.range 8) s (fun s i =>
    let off := x / 64 * 64 + 8 * i
    if (regRow off).isSome then regWrite s d off (lineWord data i) else s)

/-- A WrNC to the control window: the registers that the mask covers wholly; one covered in part is an access error (R13). -/
def ctlMasked (s : State) (x d : Nat) (data : LineData) (mask : BitVec 64) : State :=
  forEach (List.range 8) s (fun s i =>
    let off := x / 64 * 64 + 8 * i
    let m := bits mask.toNat (8 * i + 7) (8 * i)
    if (regRow off).isNone || m == 0 then s
    else if m = 255 then regWrite s d off (lineWord data i)
    else cwAccessErr s off d)

end Sys2Proof.Machine
end

