-- ==== Sys2Proof/Machine/Home.lean ====
section
/-! DEFINITION. Machine/Home.lean: the messages that hosts send to the home agents (chapter 05). -/

namespace Sys2Proof.Machine

/-- A request for a line from a host is first checked as R245, R656, R653 and R204 state: fenced, then frozen, then not
VALID. An injected violation (ISO_INJ KIND 1) is taken here. What comes back is the ERR, or none. -/
def hostGate (s : State) (m : Master) (op : ReqOp) (addr : Nat) : Option Nat × State :=
  match m with
  | .host n =>
    if fenced s n.val then (some errFenced, s)
    else if frozen s m && op != .wrback && op != .evict then (some errGrant, s)
    else if !hostValid s n.val then (some errGrant, violate s m addr)
    else match takeInj s (rBoot 0x138) 1 (fun a => a == n.val) with
      | some (_, t) => (some errGrant, violate t m addr)
      | none => (none, s)
  | _ => (none, s)

/-- HA_STAT_h.READY. -/
def homeReady (s : State) (h : Nat) : Bool := regBit s (rHome h 0) 0

/-- A request as a message. -/
def mkReq (op : ReqOp) (txn : BitVec 12) (src : Master) (off : Nat) (data : LineData) (mask : BitVec 64) : Req :=
  ⟨op, txn, src, off / 64 * 64, data, mask⟩

/-- Forward a request to controller `c` of the box (R488, R490, R505): a host's in its own name and domain, a session's, the management
port's or Tailstock's as a request of this controller, whose answer goes back to it. -/
def forwardReq (s : State) (op : ReqOp) (src : Master) (txn c a : Nat) (d : LineData) (mask : Nat) : State :=
  let dom := masterDom s src
  let words := fun (n : Nat) => [3, op.ctorIdx, txn, mask, dom, n]
  match src with
  | .host n => fromAgent (send s (.peer c a (words n.val) d)) (regFld s (rCohHost n.val) 15 8) (portOf s c a) dom
      (msgBody (hostHdr s n.val op.code txn c a dom) false mask d)
  | .session n => sendReq s (16 + regFld s (rSstat n.val) 60 60) op.code c a dom (.fwd src txn) (words 0) mask d
  | _ => sendReq s 41 op.code c a dom (.fwd src txn) (words 0) mask d

/-- A coherent request (R205): from a requester that is not a host it is a protocol error, wherever the line lies (assumption 20); a
line of the home or draft range goes to its home agent, a line of another controller of the box goes there over the fabric with the requester's domain (R490), unless no port to it is ACTIVE
(R518), and any other line is refused with NONCOH and counted. -/
def coherentReq (op : ReqOp) (src : Master) (txn : BitVec 12) (addr : BitVec 60) (data : LineData) (s : State) : State :=
  whenRunning s fun s =>
    let a := addr.toNat
    let (g, s) := hostGate s src op a
    let r := mkReq op txn src (a % 2 ^ 50) data 0
    match g with
    | some e => sendErr s r e
    | none =>
      if (hostNo src).isNone then sendErr (protoErr s (homeOf r.off) a) r errProto else
      match route s a with
      | .fault => sendErr (addrFault s a (masterDom s src)) r errAddr
      | .gateway _ off => sendErr (incCnt s (rHome (homeOf off) 0x28)) r errNoncoh
      | .peer slot _ =>
        let c := regFld s rAddrSelf 9 4 * 16 + slot
        if peerUp s c then forwardReq s op src txn.toNat c a data 0 else sendErr s r errFlushed
      | .own off =>
        match target off with
        | .home => if homeReady s (homeOf off) then homeRequest s r else s
        | .draft _ _ => if homeReady s (homeOf off) then homeRequest s r else s
        | .hole => sendErr (addrFault s a (masterDom s src)) r errAddr
        | _ => sendErr (incCnt s (rHome (homeOf off) 0x28)) r errNoncoh

/-- RDS (R212). -/
def doRds (src : Master) (txn : BitVec 12) (addr : BitVec 60) (s : State) : State := coherentReq .rds src txn addr 0 s
/-- RDE (R212). -/
def doRde (src : Master) (txn : BitVec 12) (addr : BitVec 60) (s : State) : State := coherentReq .rde src txn addr 0 s
/-- UPGR (R212). -/
def doUpgr (src : Master) (txn : BitVec 12) (addr : BitVec 60) (s : State) : State := coherentReq .upgr src txn addr 0 s
/-- WRBACK (R212, R213). -/
def doWrback (src : Master) (txn : BitVec 12) (addr : BitVec 60) (data : LineData) (s : State) : State :=
  coherentReq .wrback src txn addr data s
/-- EVICT (R212, R213). -/
def doEvict (src : Master) (txn : BitVec 12) (addr : BitVec 60) (s : State) : State := coherentReq .evict src txn addr 0 s

def execRds (src : Master) (txn : BitVec 12) (addr : BitVec 60) (s : State) : Host.Outcome State Fault Refusal :=
  .next (doRds src txn addr s)
def execRde (src : Master) (txn : BitVec 12) (addr : BitVec 60) (s : State) : Host.Outcome State Fault Refusal :=
  .next (doRde src txn addr s)
def execUpgr (src : Master) (txn : BitVec 12) (addr : BitVec 60) (s : State) : Host.Outcome State Fault Refusal :=
  .next (doUpgr src txn addr s)
def execWrback (src : Master) (txn : BitVec 12) (addr : BitVec 60) (data : BitVec 512) (s : State) :
    Host.Outcome State Fault Refusal := .next (doWrback src txn addr data s)
def execEvict (src : Master) (txn : BitVec 12) (addr : BitVec 60) (s : State) : Host.Outcome State Fault Refusal :=
  .next (doEvict src txn addr s)

/-- A late response of a fenced host is discarded and counted (R245). -/
def lateRsp (s : State) (off : Nat) : State :=
  haEvent s (homeOf off) 7 (some 0x40) (globalAddr s off) 0

/-- A snoop answer of host `n` for a line: `upd` changes the transaction that waits for it. An injected discard
(HA_INJ KIND 1) loses it, and an answer that nothing waits for changes nothing (assumption 3). -/
def snoopAnswer (n : Nat) (txn : BitVec 12) (addr : BitVec 60) (s : State) (upd : LState → BitVec 64 → Txn → Txn)
    (after : LState → BitVec 64 → Txn → State → State) : State :=
  whenRunning s fun s =>
    let off := addr.toNat % 2 ^ 50 / 64 * 64
    if fenced s n then lateRsp s off
    else match takeInj s (rHome (homeOf off) 0x10) 1 (fun a => a == n) with
      | some (_, t) => t
      | none =>
        match s.trk.find? (fun t => t.phase == .snoop && t.wait.contains n && t.req.off == off && t.req.txn == txn) with
        | none => s
        | some t =>
          let (st, v) := lineRec s off
          let t' := upd st v { t with wait := t.wait.filter (fun x => x != n) }
          settleAll (after st v t' { s with trk := s.trk.map (fun x => if x = t then t' else x) })

/-- INVACK (R212, R761): from the named M holder it is a protocol error that poisons the line. -/
def doInvack (host : Fin 64) (txn : BitVec 12) (addr : BitVec 60) (s : State) : State :=
  snoopAnswer host.val txn addr s
    (fun st v t => if st == .M && v == oneHost host.val && t.ue.isNone then { t with bad := true } else t)
    (fun st v t s => if st == .M && v == oneHost host.val && t.ue.isNone then protoErr s t.home (globalAddr s t.req.off) else s)

/-- SNPRSPDATA (R212): an M holder's data is the line's current value; any other holder's is when DIRTY is set. -/
def doSnprspdata (host : Fin 64) (txn : BitVec 12) (addr : BitVec 60) (dirty : Bool) (data : LineData) (s : State) : State :=
  snoopAnswer host.val txn addr s
    (fun st v t =>
      if (st == .M && v == oneHost host.val) || (dirty && (st == .E || t.ue.isSome)) then { t with got := some data } else t)
    (fun _ _ _ s => s)

/-- CMPACK (R220, R230): in blocking mode it ends the wait of a grant; in native mode it is a protocol error. HA_INJ
KIND 2 discards it. -/
def doCmpack (host : Fin 64) (txn : BitVec 12) (addr : BitVec 60) (s : State) : State :=
  whenRunning s fun s =>
    let off := addr.toNat % 2 ^ 50 / 64 * 64
    if fenced s host.val then lateRsp s off
    else match takeInj s (rHome (homeOf off) 0x10) 2 (fun a => a == host.val) with
      | some (_, t) => t
      | none =>
        if !blocking s then protoErr s (homeOf off) (globalAddr s off)
        else match s.trk.find? (fun t => t.phase == .cmpAck && t.req.off == off && t.req.txn == txn && decide (t.req.src = .host host)) with
          | none => s
          | some t => settleAll { s with trk := s.trk.erase t }

/-- WRDATA (R225): the data of a Fetch; the home then serves the request, or refuses it when its draft was freed meanwhile (R76). Without
a Fetch it is refused with PROTO. -/
def doWrdata (src : Master) (txn : BitVec 12) (addr : BitVec 60) (mask : BitVec 64) (data : LineData) (s : State) : State :=
  whenRunning s fun s =>
    let off := addr.toNat % 2 ^ 50 / 64 * 64
    match hostNo src with
    | some n => if fenced s n then lateRsp s off else wrData off s
    | none => wrData off s
where
  wrData (off : Nat) (s : State) : State :=
    match s.trk.find? (fun t => t.phase == .fetch && t.req.off == off && t.req.txn == txn && decide (t.req.src = src)) with
    | none => sendErr (incCnt s (rHome (homeOf off) 0x28)) ⟨.wrnc, txn, src, off, 0, 0⟩ errProto
    | some t =>
      let s := { s with trk := s.trk.erase t }
      if t.bad then settleAll (sendErr (addrFault s (globalAddr s off) (masterDom s src)) t.req errAddr true)
      else settleAll (serve s { t.req with data := data, mask := mask } true)

/-- UNKNOWN_OPCODE_MESSAGE (R211). -/
def doUnknownOpcodeMessage (home : Fin 8) (opcode : BitVec 6) (s : State) : State :=
  whenRunning s fun s => haEvent s home.val 2 (some 0x28) 0 opcode.toNat

/-- DEFER_ACTIVATE (R223 to R225). -/
def doDeferActivate (home : Fin 8) (s : State) : State :=
  whenRunning s fun s =>
    match nextDeferred s home.val with
    | none => s
    | some p => activate s p

/-- HOME_TIMEOUT (R242, R244): a snoop, Fetch or CmpAck timer for the host on that line expires, and the host is fenced. -/
def doHomeTimeout (home : Fin 8) (host : Fin 64) (addr : BitVec 60) (s : State) : State :=
  whenRunning s fun s =>
    let off := addr.toNat % 2 ^ 50 / 64 * 64
    if s.trk.any (fun t => t.home == home.val && t.req.off == off && t.wait.contains host.val) then
      settleAll (fenceHost s home.val host.val (globalAddr s off))
    else s

def execInvack (host : Fin 64) (txn : BitVec 12) (addr : BitVec 60) (s : State) : Host.Outcome State Fault Refusal :=
  .next (doInvack host txn addr s)
def execSnprspdata (host : Fin 64) (txn : BitVec 12) (addr : BitVec 60) (dirty : Bool) (data : BitVec 512) (s : State) :
    Host.Outcome State Fault Refusal := .next (doSnprspdata host txn addr dirty data s)
def execCmpack (host : Fin 64) (txn : BitVec 12) (addr : BitVec 60) (s : State) : Host.Outcome State Fault Refusal :=
  .next (doCmpack host txn addr s)
def execWrdata (src : Master) (txn : BitVec 12) (addr : BitVec 60) (mask : BitVec 64) (data : BitVec 512) (s : State) :
    Host.Outcome State Fault Refusal := .next (doWrdata src txn addr mask data s)
def execUnknownOpcodeMessage (home : Fin 8) (opcode : BitVec 6) (s : State) : Host.Outcome State Fault Refusal :=
  .next (doUnknownOpcodeMessage home opcode s)
def execDeferActivate (home : Fin 8) (s : State) : Host.Outcome State Fault Refusal := .next (doDeferActivate home s)
def execHomeTimeout (home : Fin 8) (host : Fin 64) (addr : BitVec 60) (s : State) : Host.Outcome State Fault Refusal :=
  .next (doHomeTimeout home host addr s)

end Sys2Proof.Machine
end

