-- ==== Sys2Proof/Machine/Access.lean ====
section
/-! DEFINITION. Machine/Access.lean: line accesses of every master to every part of the address map, and register accesses (R12,
R13, R206, R644 to R654, R760). -/

namespace Sys2Proof.Machine

/-- The box that a counted write comes from drops out of the staging (R531): its CLEAN reels go. -/
def dropCleanReels (s : State) (box : Nat) : State :=
  let out := fun (e : Nat × Reel) => e.2.st == .clean && e.2.addr / 2 ^ 54 % 64 == box
  forEach (s.reels.filter out) (pmc s 205 7 (s.reels.filter out).length none) (fun s e => freeReel s e.1)

/-- Before a counted write of another box is passed on (R531). -/
def countedFrom (s : State) (sender : Nat) : State :=
  if sender / 16 = regFld s rAddrSelf 9 4 then s else dropCleanReels s (sender / 16)

/-- A refusal of an access beyond the home and draft ranges. -/
def refuseLine (s : State) (a : Nat) (r : Req) (e : Nat) : State := gwReply s a r 0x27 0 e 0 false

/-- A line of a Chuck window (R185 to R189, R206): read by anyone whom the grants allow; written as a counted write in a counted
area, and as scratch only while no kernel runs on the Lathe, where it validates its granule as a kernel's first write does (assumption
167). A partial write to a counted area is refused (R179), a write to a replica is a violation (R68). -/
def chuckWindowAccess (s : State) (a l x sender : Nat) (r : Req) : State :=
  let d := masterDom s r.src
  if r.op == .rdnc then
    if !permitChuck s d l false then refuseLine (violate s r.src a) a r errGrant
    else
      let (ue, s) := chuckErrors s l
      let s := if ue then logErr s { cls := 3, code := 5, kind := 1, unit := l, dom := d, action := 4, addr := a } else s
      gwReply s a r 0x31 0 0 (if ue then 0 else chuckLine s l x) ue
  else if !permitChuck s d l true then refuseLine (violate s r.src a) a r errGrant
  else if (replicaAt s l x).isSome then refuseLine (violate s r.src a) a r errGrant
  else
    match areaAt s (chuckOff l x) with
    | some area =>
      if !fullMask r then refuseLine (logErr s { cls := 0, code := 2, dom := d, action := 1, addr := a }) a r errAddr
      else gwReply (countedWrite (countedFrom s sender) area (chuckOff l (x / 64 * 64)) d r.data) a r 0x26 0 0 0 false
    | none =>
      if latheBusy s l then refuseLine (violate s r.src a) a r errGrant
      else
        let old := chuckLine s l x
        gwReply (putScratch s l x (if r.op == .wrline then r.data else mergeLine old r.data r.mask)) a r 0x26 0 0 0 false

/-- A line of a command window (R358 to R362): its writes are counted writes. A session is told of a busy window as such (R570). -/
def windowAccess (s : State) (a w x sender : Nat) (r : Req) : State :=
  let d := masterDom s r.src
  if !permitWindow s d w (r.op != .rdnc) then refuseLine (violate s r.src a) a r errGrant
  else if r.op == .rdnc then
    let off := winOff w (x / 64 * 64)
    gwReply s a r 0x31 0 0 (if poisoned s off then 0 else s.readLine off) (poisoned s off)
  else if !fullMask r then refuseLine (logErr s { cls := 0, code := 2, dom := d, action := 1, addr := a, win := w }) a r errAddr
  else match windowWrite (countedFrom s sender) w x d r.data with
    | (true, s) => refuseLine s a r (match r.src with | .session _ => 12 | _ => errAddr)
    | (false, s) => gwReply s a r 0x26 0 0 0 false

/-- A line of counter space (R182): read where the grants cover each of its counters; a write is a violation. -/
def counterAccess (s : State) (a k : Nat) (r : Req) : State :=
  let d := masterDom s r.src
  if r.op != .rdnc || !(List.range 8).all (fun i => permitCounter s d (k / 8 * 8 + i) false) then
    refuseLine (violate s r.src a) a r errGrant
  else gwReply s a r 0x31 0 0 (counterLine s k) false

/-- A line of the local control window (R649, R760). A partial write to a parity fold ring is refused (R179). -/
def controlAccess (s : State) (a x : Nat) (r : Req) : State :=
  let d := masterDom s r.src
  if !permitControl s d x (r.op != .rdnc) then refuseLine (violate s r.src a) a r errGrant
  else match r.op with
    | .rdnc => gwReply (touchUnit s (x / 64 * 64)) a r 0x31 0 0 (controlLine s d x) false
    | .wrline => gwReply (ctlLine s x d r.data) a r 0x26 0 0 0 false
    | _ =>
      if inRings x then
        (if fullMask r then gwReply (ctlLine s x d r.data) a r 0x26 0 0 0 false
         else refuseLine (logErr s { cls := 0, code := 2, dom := d, action := 1, addr := a }) a r errAddr)
      else gwReply (ctlMasked s x d r.data r.mask) a r 0x26 0 0 0 false

/-- A line access at this controller. -/
def ownAccess (s : State) (a off sender : Nat) (r : Req) : State :=
  match target off with
  | .home => if homeReady s (homeOf off) then homeRequest s r else s
  | .draft _ _ => if homeReady s (homeOf off) then homeRequest s r else s
  | .chuck l x => chuckWindowAccess s a l x sender r
  | .window w x => windowAccess s a w x sender r
  | .counters k => counterAccess s a k r
  | .control x => controlAccess s a x r
  | .hole => refuseLine (addrFault s a (masterDom s r.src)) a r errAddr

/-- RdNC, WrNC and WrLine (R206): checked at the port of the master, then served where the address lies; `sender` is the controller
number of the sender of a request from a PEER or UPLINK port. -/
def lineAccess (op : ReqOp) (src : Master) (txn : BitVec 12) (addr : Nat) (data : LineData) (mask : BitVec 64) (sender : Nat) (s : State) :
    State :=
  let a := addr / 64 * 64
  let (g, s) := hostGate s src op a
  let r := mkReq op txn src (a % 2 ^ 50) data mask
  match g with
  | some e => sendErr s r e
  | none =>
    match route s a with
    | .fault => sendErr (addrFault s a (masterDom s src)) r errAddr
    | .peer slot _ =>
      let c := regFld s rAddrSelf 9 4 * 16 + slot
      if peerUp s c then forwardReq s op src txn.toNat c a data mask.toNat else gwReply s a r 0x27 0 errFlushed 0 false
    | .gateway _ _ => gwAccess s a r
    | .own off => ownAccess s a off sender r

/-- Every byte of a line. -/
def allBytes : BitVec 64 := BitVec.ofNat 64 (2 ^ 64 - 1)

/-- A request that came in from a port carries its sender; any other is this controller's own. -/
def senderOf (s : State) (src : Master) (sender : BitVec 10) : Nat :=
  match src with
  | .peer _ _ => sender.toNat
  | _ => ownCtrl s

/-- RDNC (R206). -/
def doRdnc (src : Master) (txn : BitVec 12) (addr : BitVec 60) (s : State) : State :=
  whenRunning s fun s => lineAccess .rdnc src txn addr.toNat 0 0 (ownCtrl s) s

/-- WRNC (R206): the bytes that the mask covers. -/
def doWrnc (src : Master) (txn : BitVec 12) (addr : BitVec 60) (mask : BitVec 64) (data : LineData) (sender : BitVec 10) (s : State) : State :=
  whenRunning s fun s => lineAccess .wrnc src txn addr.toNat data mask (senderOf s src sender) s

/-- WRLINE (R206): a full line. -/
def doWrline (src : Master) (txn : BitVec 12) (addr : BitVec 60) (data : LineData) (sender : BitVec 10) (s : State) : State :=
  whenRunning s fun s => lineAccess .wrline src txn addr.toNat data allBytes (senderOf s src sender) s

/-- REGISTER_WRITE (R12, R13): a write of `width` bytes in domain 0; any other width than eight, or an unaligned one, is an access
error and changes nothing else. -/
def doRegisterWrite (off : BitVec 28) (width : BitVec 8) (v : BitVec 64) (s : State) : State :=
  if !s.stbyUp then s
  else if width = 8 ∧ off.toNat % 8 = 0 then regWrite s 0 off.toNat v
  else cwAccessErr s off.toNat 0

-- EXEC
def execRegisterWrite (off : BitVec 28) (width : BitVec 8) (v : BitVec 64) (s : State) : Host.Outcome State Fault Refusal :=
  .next (doRegisterWrite off width v s)
def execRdnc (src : Master) (txn : BitVec 12) (addr : BitVec 60) (s : State) : Host.Outcome State Fault Refusal :=
  .next (doRdnc src txn addr s)
def execWrnc (src : Master) (txn : BitVec 12) (addr : BitVec 60) (mask : BitVec 64) (data : BitVec 512) (sender : BitVec 10) (s : State) :
    Host.Outcome State Fault Refusal :=
  .next (doWrnc src txn addr mask data sender s)
def execWrline (src : Master) (txn : BitVec 12) (addr : BitVec 60) (data : BitVec 512) (sender : BitVec 10) (s : State) :
    Host.Outcome State Fault Refusal :=
  .next (doWrline src txn addr data sender s)

end Sys2Proof.Machine
end

