-- ==== Sys2Proof/Machine/CompOps.lean ====
section
/-! DEFINITION. Machine/CompOps.lean: the operations of a signed composition command, each checked and applied against the state
that the operations before it leave (R660 to R662). -/

namespace Sys2Proof.Machine

/-- A composition operation (R660). -/
inductive CompOp where
  | regSet (pairs : List (BitVec 64 × BitVec 64)) (eth : List EthAddr)
  | regionSet (index : BitVec 64) (entry : LineData)
  | domainSet (domain : BitVec 64) (entry : BitVec 2048)
  | groupSet (group : BitVec 64) (entry : BitVec 2048)
  | hostRelease (host buf bytes : BitVec 64)
  | lineRestore (first count region version offset : BitVec 64)
  | masterRelease (kind number : BitVec 64)
  | recoverRelease (win : BitVec 64)
  | unitReturn (unit : BitVec 64)
  | ripRelease
  | keyRevoke (slot : BitVec 64)
  deriving DecidableEq, Repr

/-- What the operations of a command leave (R662): the state, the lines that its LINE_RESTOREs wait for, the hosts whose sweeps
started, the regions whose host copies are being recalled, and whether the rip panel ends. -/
structure CompSt where
  s : State
  lines : List Nat := []
  hosts : List Nat := []
  regions : List Nat := []
  rip : Bool := false

/-- The outcome of one operation: applied, or refused with a STATUS and a DETAIL. -/
inductive CompRes where
  | ok (c : CompSt)
  | bad (status detail : Nat)

/-- Refused with CHECK. -/
def compCheck : CompRes := .bad 2 20

/-! REG_SET (R48, R252, R555, R579, R643, FAB_BIND_p). -/

/-- The bits of a register that composition commands write; none when the register is no composer-only one. Fields that the
hardware maintains (FENCED and SWEEP of COH_HOST_n) are not among them. -/
def compMask (off : Nat) : Option Nat :=
  let at' := fun (base n stride : Nat) => decide (base ≤ off) && decide (off < base + n * stride) && decide ((off - base) % stride = 0)
  if off = rAddrSelf then some 0x3F0
  else if off = 0x1008 then some 0xFFFF
  else if at' 0x210000 256 64 || at' 0x210010 256 64 then some 0xFFFFFF
  else if at' 0x210020 256 64 then some 0x7FF
  else if at' 0x230000 16 8 then some 0xFFFF00000000FFFF
  else if off = rCohCfg then some 0x3FF0000FF01
  else if off = 0x300010 then some 0xFFFF0000001F
  else if at' (rCohHost 0) 64 8 then some 0xFFFF01
  else if at' (rFab 0 0) 16 0x10000 then some 0xFFFFC00000000000
  else if off = rSw 0 then some 0x10F
  else if at' 0x2110000 672 8 then some 0xFFFF0001FFFF
  else if at' 0x2120000 256 8 then some 0xF
  else if at' (rSess 0) 256 16 then some 0xFFFFFFFFE0000000
  else if at' (rDomComp 0) 256 8 then some 0xFFFF0001FFFF
  else if at' (rTether 0) 16 8 then some 0x8003FFF0FFFF0000
  else none

/-- Reserve `new` frames of the pool where `old` were reserved (R102): none when they cannot be had. -/
def reserveFrames (s : State) (old new : Nat) : Option State :=
  if old < new then takeFrames s (new - old) else some { s with dirtyFrames := s.dirtyFrames + (old - new) }

/-- The frames that a PGRP_n value reserves at this controller (R101, R102). -/
def pgrpFrames (s : State) (v : Nat) : Nat :=
  if v.testBit (regFld s rAddrSelf 3 0) ∧ 3 ≤ ((List.range 16).filter (fun i => v.testBit i)).length then v / 2 ^ 48 * 16384 else 0

/-- Set the over-quota bits of a domain whose use lies beyond a limit (R95), and clear the others (R96). -/
def quotaFlags (s : State) (d : Nat) : State :=
  let s := if regFld s (rQuota d 0) 23 0 < regFld s (rQuota d 1) 23 0 then setBit s (rQuota d 6) 0 else s
  let s := if regFld s (rQuota d 2) 23 0 * 16384 < medTotal s d then setBit s (rQuota d 6) 1 else s
  let s := if regFld s (rQuota d 4) 10 0 < regFld s (rQuota d 5) 10 0 then setBit s (rQuota d 6) 2 else s
  quotaClear s d

/-- R629: do the tether entries that `f` picks name regions that may be tether regions, not VERSIONED, not COHERENT, placed STACK and
protected, with a lease that is defined; and do all tether regions together hold at most 256 MiB? An entry whose region has been deleted
holds nothing. -/
def tethersOk (s : State) (f : Nat → Bool) : Bool :=
  let ts := (List.range 16).filter (fun t => regBit s (rTether t) 63)
  let region := fun (t : Nat) => regFld s (rTether t) 49 36
  (ts.filter f).all (fun t =>
    let r := region t
    rgValid s r && !rgVersioned s r && !rgCoherent s r && rgPlace s r == 0 && (rgProtect s r == 1 || rgProtect s r == 2)
      && decide (1 ≤ regFld s (rTether t) 31 16) && decide (regFld s (rTether t) 31 16 ≤ 60000))
    && decide ((((ts.map region).filter (rgValid s)).dedup.map (rgSize s)).sum ≤ 256 * 2 ^ 20)

/-- R549: budgets at one output, and reserves over all. -/
def budgetsOk (s : State) : Bool :=
  (List.range 42).all (fun o =>
    decide (((List.range 16).map (fun c => regFld s (0x2110000 + 8 * (16 * o + c)) 16 0)).sum ≤ if o < 16 then 32000 else 65536))
  && decide (((List.range 672).map (fun i => regFld s (0x2110000 + 8 * i) 47 32)).sum ≤ 96832)

/-- R486: a PEER port names a controller of the own box; a HOST port names a host whose entry names it, and no two ports name one
host. -/
def bindingOk (s : State) (p : Nat) : Bool :=
  match regFld s (rFab p 0) 63 62 with
  | 1 => regFld s (rFab p 0) 61 52 / 16 == regFld s rAddrSelf 9 4
  | 2 =>
    let n := regFld s (rFab p 0) 51 46
    hostValid s n && regFld s (rCohHost n) 15 8 == p
      && (List.range 16).all (fun q => q == p || !(fabKind s q == 2 && regFld s (rFab q 0) 51 46 == n))
  | _ => true

/-- A fabric port whose binding changed (R487): bound, it starts training and asks for its clock; NONE disables it. -/
def rebind (s : State) (p : Nat) (old : Word) : State :=
  if reg s (rFab p 0) = old then s
  else
    let s := putLink (portDown s p) p {}
    if fabKind s p = 0 then askStop (fabStart s p) (unitCode 9 p) 5 else askStart (fabStart s p) (unitCode 9 p)

/-- A session entry that opens or closes its session (R565); one that is still frozen opens FROZEN (R573). -/
def resession (s : State) (n : Nat) (was : Bool) : State :=
  let on := regBit s (rSess n) 63
  if on = was then s
  else
    let s := { s with sess := s.sess.filter (fun e => e.1 != n) }
    regSet s (rSstat n) (if on then (if regBit s (rBoot (0x108 + 8 * (n / 64))) (n % 64) then 0x6000000000000001 else 0x2000000000000001) else 0)

/-- One pair of a REG_SET: each value meets its register's rules. A change to blocking mode, which does not use O (R232), writes the
stored lines to the stacks. -/
def setOne (s : State) (off : Nat) (v : BitVec 64) : Option State :=
  match (if off % 8 = 0 then compMask off else none) with
  | none => none
  | some m =>
    let old := reg s off
    let new := (old &&& ~~~(BitVec.ofNat 64 m)) ||| (v &&& BitVec.ofNat 64 m)
    let t := regSet s off new
    let n := new.toNat
    if off = 0x1008 then (reserveFrames s (bits old.toNat 15 0 * 16384) (bits n 15 0 * 16384)).map (fun u => regSet u off new)
    else if 0x210000 ≤ off ∧ off < 0x214000 then some (quotaFlags t ((off - 0x210000) / 64))
    else if 0x230000 ≤ off ∧ off < 0x230080 then (reserveFrames s (pgrpFrames s old.toNat) (pgrpFrames s n)).map (fun u => regSet u off new)
    else if off = rCohCfg then
      let mode := bits n 0 0 ≠ bits old.toNat 0 0
      if bits n 41 32 < 1 ∨ 1000 < bits n 41 32 ∨ bits n 15 8 < 1 ∨ 64 < bits n 15 8 ∨
          (mode ∧ ((List.range 64).any (hostValid s) ∨ s.trk ≠ [])) then none
      else if mode ∧ n % 2 = 1 then some (forEach t.store t storeEvict) else some t
    else if off = 0x300010 then (if bits n 47 32 < 1 ∨ 10000 < bits n 47 32 then none else some t)
    else if rCohHost 0 ≤ off ∧ off < rCohHost 64 then (if 15 < bits n 15 8 then none else some t)
    else if rFab 0 0 ≤ off ∧ off < rFab 16 0 then
      let p := (off - rFab 0 0) / 0x10000
      if bindingOk t p then some (rebind t p old) else none
    else if rSess 0 ≤ off ∧ off < rSess 256 then some (resession t ((off - rSess 0) / 16) (old.toNat.testBit 63))
    else if rTether 0 ≤ off ∧ off < rTether 16 then (if tethersOk t (fun i => rTether i == off) then some t else none)
    else some t

/-- The pairs of a REG_SET, in order. -/
def setPairs (s : State) (ps : List (BitVec 64 × BitVec 64)) : Option State :=
  match ps with
  | [] => some s
  | p :: rest => match setOne s p.1.toNat p.2 with
    | none => none
    | some t => setPairs t rest

/-- Set the addresses of a command port (R560). -/
def setEth (s : State) (e : EthAddr) : State :=
  let k := 2 * e.port.val
  let a := Sparse.set s.ethAddr k 0 e.v6.toNat
  let a := match e.v4 with
    | some x => Sparse.ins a (k + 1) x.toNat
    | none => Sparse.del a (k + 1)
  setBit { s with ethAddr := a } (rEth e.port.val 0) 2

/-- Is the offset in the register block of a command port, where no register takes a REG_SET: pairs there carry the ports' addresses in a
signed command (assumption 194)? -/
def ethPair (p : BitVec 64 × BitVec 64) : Bool := decide (0x3000000 ≤ p.1.toNat) && decide (p.1.toNat < 0x3002000)

/-- REG_SET. -/
def opRegSet (c : CompSt) (ps : List (BitVec 64 × BitVec 64)) (eth : List EthAddr) : CompRes :=
  if 64 < ps.length ∨ (ps = [] ∧ eth = []) then compCheck
  else match setPairs c.s ps with
    | none => compCheck
    | some t => if budgetsOk t then .ok { c with s := forEach eth t setEth } else compCheck

/-! REGION_SET (R49, R50, R55, R57, R66, R130, R756 to R758). -/

/-- The entry of a REGION_SET, with the fields that the hardware maintains as they are (R756). -/
def regionEntry (s : State) (r : Nat) (e : LineData) : List Word :=
  [lineWord e 0, lineWord e 1 &&& 0xFFFFFFC70FFFFFFF, reg s (rRegion r 2), reg s (rRegion r 3),
    reg s (rRegion r 4), lineWord e 5 &&& 0x7FFFFF, 0, 0]

/-- Put an entry in place of region `r`'s. -/
def putEntry (s : State) (r : Nat) (e : LineData) : State := regSetList s (rRegion r 0) (regionEntry s r e)

/-- Do two ranges share bytes? -/
def meets (a n b m : Nat) : Bool := decide (a < b + m) && decide (b < a + n)

/-- The stripes of a CHUCK region's replica that Chuck `l` holds (R65): none outside its set. -/
def chuckStripes (s : State) (r l : Nat) : Nat :=
  let n := rgChuckCount s r
  let j := l - rgChuckFirst s r
  if rgChuckFirst s r ≤ l ∧ j < n then (rgSize s r / 65536 + n - 1 - j) / n else 0

/-- Do the stripes of two replicas share bytes of Chuck `l`? -/
def chuckMeet (s : State) (r q l : Nat) : Bool :=
  let a := chuckStripes s r l
  let b := chuckStripes s q l
  a != 0 && b != 0 && meets (rgChuckOff s r) (a * 65536) (rgChuckOff s q) (b * 65536)

/-- R66: a CHUCK region's replica lies inside the Chucks and its stripes share no bytes with those of another replica. -/
def chuckOk (s : State) (r : Nat) : Bool :=
  let f := rgChuckFirst s r
  let n := rgChuckCount s r
  n != 0 && decide (f + n ≤ 128) && decide (rgChuckOff s r + (rgSize s r / 65536 + n - 1) / n * 65536 ≤ 6 * 2 ^ 20)
    && (validRegions s).all (fun q => q == r || rgPlace s q != 2 || !(List.range 128).any (chuckMeet s r q))

/-- The conditions that an entry must meet, read from the state in which it stands (R49, R50, R55, R66, R98, R101). -/
def entryOk (s : State) (r : Nat) : Bool :=
  decide (rgBase s r + rgSize s r ≤ 2 ^ 48)
    && (validRegions s).all (fun q => q == r || !meets (rgBase s r) (rgSize s r) (rgBase s q) (rgSize s q))
    && (match rgPlace s r with
        | 0 => true
        | 1 => rgVersioned s r && rgDurable s r && decide (rgResident s r ≤ rgSize s r)
        | 2 => rgVersioned s r && chuckOk s r
        | 3 => rgVersioned s r && rgDurable s r
        | _ => false)
    && (match rgProtect s r with
        | 0 => true
        | 1 => rgPeer s r / 16 == regFld s rAddrSelf 9 4 && rgPeer s r != ownCtrl s
        | 2 => decide (3 ≤ (pgMembers s (rgPgroup s r)).length) && (pgMembers s (rgPgroup s r)).contains (regFld s rAddrSelf 3 0)
        | _ => false)

/-- Frames of a region that come from the frame pool, and from its parity group's pool (R57, R103, R117): those of its versions, its
drafts and its maps too. -/
def regionFrames (s : State) (r : Nat) : Nat × Nat :=
  if rgProtect s r = 2 then (0, regionTotal s r) else (regionTotal s r, 0)

/-- Do the parity regions fit the data units of their groups' pools (R102, R103)? -/
def poolsOk (s : State) : Bool :=
  (List.range 16).all (fun g => poolUsed s g == 0 || decide (poolUsed s g ≤ poolData s g))

/-- Move a region's frames from `old` to `new`, each from the frame pool and from a parity pool; the whole change is checked
against the limit (R94). -/
def moveFrames (s : State) (d : Nat) (old new : Nat × Nat) : Alloc :=
  let o := old.1 + old.2
  let n := new.1 + new.2
  if o < n ∧ overStack s d (n - o) then .quota
  else
    match (if old.1 < new.1 then takeFrames s (new.1 - old.1) else some { s with dirtyFrames := s.dirtyFrames + (old.1 - new.1) }) with
    | none => .capacity
    | some t =>
      if !poolsOk t then .capacity
      else .ok (if o < n then chargeFrames t d (n - o) else if n < o then unchargeFrames t d (o - n) else t)

/-- The medium units that the recorded versions of unit `u` take. -/
def unitMedia (s : State) (r u : Nat) : Nat :=
  (((versionsOf s r).filter (fun v => !unitZero s r v u)).map (fun v => medPlace s (locUnit s r (spKey (spVersion r v) (u * 65536))))).dedup.length

/-- Drop the units of region `r` from `lo` on, in every version (R757): the medium pages are released. The frames are counted by what
the region takes before and after. -/
def dropTail (s : State) (r lo : Nat) : State :=
  let hi := rgSize s r / 65536
  let dom := rgDomain s r
  let us := (List.range hi).filter (fun u => decide (lo ≤ u))
  let med := if rgDurable s r then (us.map (unitMedia s r)).sum else 0
  let mine := fun (k : Nat) => k * 65536 / 2 ^ 50 % 8 == 1 && k * 65536 / 2 ^ 50 / 8 % 16384 == r && decide (lo ≤ k % (2 ^ 50 / 65536))
  let s := dropCached s ((s.tierCache.map (fun e => e.key)).filter mine)
  let s := poolDrop s (rgPgroup s r) (fun k => mine k || (decide (rgBase s r / 65536 + lo ≤ k) && decide (k < rgBase s r / 65536 + hi)))
  let s := if rgVersioned s r then
      forEach (versionsOf s r) s (fun s v => zeroMem s (spKey (spVersion r v) (lo * 65536)) (rgSize s r - lo * 65536))
    else zeroMem s (rgBase s r + lo * 65536) (rgSize s r - lo * 65536)
  let s := dropRecords s (rgBase s r + lo * 65536) (rgSize s r - lo * 65536)
  let s := { s with
    verUnits := s.verUnits.filter (fun e => !(e.1 == r && decide (lo ≤ e.2.2)))
    locs := s.locs.filter (fun e => !mine e.1)
    lost := s.lost.filter (fun k => !mine k) }
  let s := dropMeta s (fun n => n.region == r && n.type == 2 && decide (lo ≤ n.unit * 8192))
  if med = 0 then s else setMedUse s dom (Sparse.get s.medUse dom 0 - med)

/-- Release the rebuilt versions of region `r` (R130). -/
def dropRebuilt (s : State) (r : Nat) : State :=
  let vs := (s.rebuilt.filter (fun p => p.1 == r)).map (fun p => p.2)
  if vs = [] then s
  else
    let mine := fun (k : Nat) => k * 65536 / 2 ^ 50 % 8 == 1 && k * 65536 / 2 ^ 50 / 8 % 16384 == r
    let s := forEach vs s (fun s v => zeroMem s (spKey (spVersion r v) 0) (2 ^ 48))
    dropMeta { s with
      rebuilt := s.rebuilt.filter (fun p => p.1 != r)
      decisions := s.decisions.filter (fun p => p.1 != r)
      verUnits := s.verUnits.filter (fun p => p.1 != r)
      locs := s.locs.filter (fun e => !mine e.1)
      lost := s.lost.filter (fun k => !mine k) } (fun n => n.region == r)

/-- Attach the rebuilt versions of a new region (R130): they and their map frames count toward its domain, unchecked; the frames of
the region's own size are charged already. -/
def attachRebuilt (s : State) (r : Nat) : State :=
  let vs := (s.rebuilt.filter (fun p => p.1 == r)).map (fun p => p.2)
  match vs.reverse with
  | [] => { s with versions := s.versions ++ [(r, 0)] }
  | v :: _ =>
    let dom := rgDomain s r
    let s := { s with rebuilt := s.rebuilt.filter (fun p => p.1 != r), versions := s.versions ++ vs.map (fun x => (r, x)) }
    let s := rgPut (rgPut s r 175 128 v) r 239 192 (vs.foldl min v)
    let units := List.range (rgSize s r / 65536)
    let s := setMedUse s dom (Sparse.get s.medUse dom 0 + (units.map (unitMedia s r)).sum)
    let more := regionTotal s r - stackUnits s r
    let s := chargeFrames s dom more
    quotaFlags (if rgProtect s r = 2 then s else (takeFrames s more).getD s) dom

/-- Append the region record of a DURABLE region (R130). -/
def regionRecord (s : State) (r : Nat) (ws : List Word) : State :=
  appendRecord s r (.region r ws)

/-- Does a new region match what replay rebuilt (R130): the base, size and owning domain of its newest region record? -/
def matchesRecord (s : State) (r : Nat) : Bool :=
  rgDurable s r && rgVersioned s r && (match s.regRecs.find? (fun e => e.1 == r) with
    | some (_, w0 :: w1 :: _) =>
      bits w0.toNat 55 0 == bits (reg s (rRegion r 0)).toNat 55 0 && bits w1.toNat 63 56 == rgDomain s r
    | _ => false)

/-- Create region `r` from an entry. -/
def createRegion (c : CompSt) (r : Nat) (e : LineData) : CompRes :=
  let t := putEntry (regSetList c.s (rRegion r 0) [0, 0, 0, 0, 0, 0, 0, 0]) r e
  if !entryOk t r then compCheck
  else
    let t := if matchesRecord t r then t else dropRebuilt t r
    let attach := rgVersioned t r && t.rebuilt.any (fun p => p.1 == r)
    let n := if attach then stackUnits t r else regionTotal t r
    match moveFrames t (rgDomain t r) (0, 0) (if rgProtect t r = 2 then (0, n) else (n, 0)) with
    | .quota => .bad 6 0
    | .capacity => .bad 7 0
    | .ok t =>
      let t := if rgVersioned t r then attachRebuilt t r else t
      let t := if rgDurable t r then regionRecord t r ((List.range 8).map (fun i => reg t (rRegion r i))) else t
      let t := if rgProtect t r = 0 then t else coverCopy { t with copying := t.copying ++ [(r, 0, 0, 0)] } r
      .ok { c with s := refreshReplica t r }

/-- A change of cover (R756): the region is copied to the new one, and the old one serves until it is complete. -/
def moveCover (s t : State) (r : Nat) : State :=
  let old := coverOf s r
  if coverOf t r = old then t
  else
    let first := match s.copying.find? (fun e => e.1 == r) with
      | some e => e.2
      | none => if s.degraded.contains r then (0, 0, 0) else old
    let t := { t with copying := t.copying.filter (fun e => e.1 != r), degraded := Sparse.rem t.degraded r }
    if rgProtect t r = 0 then
      (let t := if first.1 = 1 then send t (.peer first.2.1 (globalAddr t (rgBase t r)) [16] 0) else t
       forEach [coverOf s r, first] t (fun t e => if e.1 = 2 then poolDrop t e.2.2 (fun k => regionOfKey t k == some r) else t))
    else coverCopy { t with copying := t.copying ++ [(r, first)] } r

/-- Change valid region `r` in place (R756, R757). A region that shrinks gives up the tail of every version that it holds; one that grows
while a draft is open leaves the draft the slots that it took, since R757 says nothing of them (assumption 212). -/
def changeRegion (c : CompSt) (r : Nat) (e : LineData) : CompRes :=
  let s := c.s
  let t := putEntry s r e
  if rgBase t r ≠ rgBase s r ∨ rgDomain t r ≠ rgDomain s r ∨ rgVersioned t r ≠ rgVersioned s r ∨ rgDurable t r ≠ rgDurable s r then compCheck
  else if !entryOk t r || !tethersOk t (fun i => regFld t (rTether i) 49 36 == r) then compCheck
  else if rgSize t r < rgSize s r && regionHeld s r then compCheck
  else
    let next := putEntry (if rgSize t r < rgSize s r then dropTail s r (rgSize t r / 65536) else s) r e
    match moveFrames next (rgDomain s r) (regionFrames s r) (regionFrames next r) with
    | .quota => .bad 6 0
    | .capacity => .bad 7 0
    | .ok u =>
      let mine := fun (k : Nat) => k * 65536 / 2 ^ 50 % 8 == 1 && k * 65536 / 2 ^ 50 / 8 % 16384 == r
      let u := if rgPlace u r = rgPlace s r ∧ rgResident u r = rgResident s r then u
        else dropCached u ((u.tierCache.map (fun e => e.key)).filter mine)
      let u := poolDrop u (rgPgroup s r) (fun k => mine k && !inStack u r (k % (2 ^ 50 / 65536)))
      let u := moveCover s u r
      let u := if rgPlace u r = 2 ∧ (rgPlace s r, rgChuckFirst s r, rgChuckCount s r, rgChuckOff s r, rgSize s r)
            = (2, rgChuckFirst u r, rgChuckCount u r, rgChuckOff u r, rgSize u r) then u
        else refreshReplica { u with replicas := Sparse.del u.replicas r } r
      let u := if rgDurable u r then regionRecord u r ((List.range 8).map (fun i => reg u (rRegion r i))) else u
      let u := sweepVersions u r
      if rgCoherent s r && !rgCoherent u r then
        .ok { c with s := u, regions := c.regions ++ [r] }
      else .ok { c with s := u }

/-- Delete region `r`, at once or when its last hold ends (R758). -/
def deleteOne (c : CompSt) (r : Nat) : CompRes :=
  let s := c.s
  if !rgValid s r then .ok { c with s := dropRebuilt s r }
  else
    let t := if rgDurable s r then regionRecord s r [] else s
    .ok { c with s := if regionHeld s r then rgPut t r 101 101 1 else deleteRegion t r }

/-- REGION_SET. -/
def opRegionSet (c : CompSt) (index : BitVec 64) (e : LineData) : CompRes :=
  let r := index.toNat
  if 16384 ≤ r ∨ (rgValid c.s r = true ∧ rgDeleting c.s r = true) then compCheck
  else if !e.toNat.testBit 63 then deleteOne c r
  else if rgValid c.s r then changeRegion c r e
  else createRegion c r e

/-! DOMAIN_SET and GROUP_SET (R541, R647, R648). -/

/-- 64-bit word `i` of a 256 B entry. -/
def entryWord (e : BitVec 2048) (i : Nat) : Word := BitVec.ofNat 64 (e.toNat / 2 ^ (64 * i))

/-- DOMAIN_SET: entry 0 is fixed; DOM_STAT_d keeps its value. -/
def opDomainSet (c : CompSt) (domain : BitVec 64) (e : BitVec 2048) : CompRes :=
  let d := domain.toNat
  if d = 0 ∨ 256 ≤ d then compCheck
  else
    let s := regSet c.s (rDomain d 0) (entryWord e 0 &&& 0x8000000000000000)
    .ok { c with s := regSetList s (rDomain d 2) ((List.range 30).map (fun j => entryWord e (2 + j) &&& 0xFE3FFFFFFFFFFFFF)) }

/-- Target `j` of a group entry, with the bits above its number. -/
def groupTarget (e : BitVec 2048) (j : Nat) : Nat := e.toNat / 2 ^ (512 + 16 * j) % 65536

/-- GROUP_SET (R541): COUNT targets, no controller twice, every other byte zero. -/
def opGroupSet (c : CompSt) (group : BitVec 64) (e : BitVec 2048) : CompRes :=
  let g := group.toNat
  let n := e.toNat % 65536
  let ts := (List.range n).map (groupTarget e)
  if 1024 ≤ g ∨ 64 < n ∨ bits e.toNat 511 16 ≠ 0 ∨ bits e.toNat 2047 (512 + 16 * n) ≠ 0 ∨ ts.any (fun t => decide (1024 ≤ t)) ∨ ts.dedup ≠ ts then
    compCheck
  else .ok { c with s := regSetList c.s (0x2200000 + 256 * g) ((List.range 32).map (entryWord e)) }

/-! HOST_RELEASE and LINE_RESTORE (R249 to R251). -/

/-- HOST_RELEASE: the buffer lies in one valid region of this controller that is not VERSIONED; the homes start their sweeps. -/
def opHostRelease (c : CompSt) (host buf bytes : BitVec 64) : CompRes :=
  let s := c.s
  let n := host.toNat
  let len := bytes.toNat
  match route s (buf.toNat % 2 ^ 60) with
  | .own off =>
    if 64 ≤ n ∨ 2 ^ 60 ≤ buf.toNat ∨ off % 8 ≠ 0 ∨ len % 8 ≠ 0 ∨ len < 8 ∨ 2 ^ 48 ≤ off ∨ (s.sweeps.any (fun e => e.host == n)) = true then
      compCheck
    else match regionAt s off with
      | none => compCheck
      | some r =>
        if rgVersioned s r ∨ rgBase s r + rgSize s r < off + len then compCheck
        else .ok { c with s := setBit { s with sweeps := s.sweeps ++ [{ host := n, off := off, len := len }] } (rCohHost n) 2, hosts := c.hosts ++ [n] }
  | _ => compCheck

/-- LINE_RESTORE: the lines lie in one region of this controller that is not VERSIONED or in one of its OPEN drafts (R759); the source version is held. The homes
serve the lines in their serial order (R250); a line that is lost in the source has no bytes to give. -/
def opLineRestore (c : CompSt) (first count region version offset : BitVec 64) : CompRes :=
  let s := c.s
  let r := region.toNat
  let n := count.toNat
  let v := version.toNat
  let o := offset.toNat
  match route s (first.toNat % 2 ^ 60) with
  | .own off =>
    let lines := (List.range n).map (fun i => off + 64 * i)
    let target := fun (l : Nat) => match regionOf s l with
      | some q => regionOf s off == some q && !(decide (l < 2 ^ 48) && rgVersioned s q) && draftOpen s l
      | none => false
    if 2 ^ 60 ≤ first.toNat ∨ off % 64 ≠ 0 ∨ n < 1 ∨ 1024 < n ∨ 2 ^ 49 < off + 64 * n ∨ lines.all target = false then compCheck
    else if 16384 ≤ r ∨ !rgValid s r ∨ !rgVersioned s r ∨ o % 64 ≠ 0 ∨ rgSize s r < o + 64 * n then compCheck
    else if !(versionsOf s r).contains v then .bad 8 0
    else
      let from' := fun (l : Nat) => spKey (spVersion r v) (o + (l - off))
      let jobs := lines.map (fun l => (l, if poisonedAt s r (from' l) then none else some (s.readLine (from' l))))
      .ok { c with s := { s with restoreq := s.restoreq ++ jobs }, lines := c.lines ++ lines }
  | _ => compCheck

/-! Releases (R598, R608, R614, R655, R666). -/

/-- Does another master of domain `d` stay frozen? -/
def domFrozen (s : State) (d : Nat) : Bool :=
  (List.range 64).any (fun n => regBit s (rBoot 0x100) n && regFld s (rCohHost n) 23 16 == d)
    || (List.range 256).any (fun n => regBit s (rBoot (0x108 + 8 * (n / 64))) (n % 64) && regFld s (rSess n) 62 55 == d)
    || s.kernels.any (fun k => k.frozen && k.dom == d)

/-- Clear DOM_STAT_d.VIOL when no master of the domain is frozen (R655). -/
def clearViol (s : State) (d : Nat) : State := if domFrozen s d then s else clrBit s (rDomain d 1) 63

/-- MASTER_RELEASE: a master that is not frozen changes nothing. -/
def opMasterRelease (c : CompSt) (kind number : BitVec 64) : CompRes :=
  let s := c.s
  let n := number.toNat
  if kind = 1 ∧ n < 64 then
    .ok (if regBit s (rBoot 0x100) n then { c with s := clearViol (clrBit s (rBoot 0x100) n) (regFld s (rCohHost n) 23 16) } else c)
  else if kind = 2 ∧ n < 256 then
    let f := rBoot (0x108 + 8 * (n / 64))
    if regBit s f (n % 64) then
      let s := clrBit s f (n % 64)
      let s := if regFld s (rSstat n) 63 61 = 3 then regPut s (rSstat n) 63 61 1 else s
      .ok { c with s := clearViol s (regFld s (rSess n) 62 55) }
    else .ok c
  else if kind = 3 ∧ n < 1024 then
    match kernelOf s n with
    | some k => if k.frozen then .ok { c with s := clearViol (releaseKernel (resetContext s k) n) k.dom } else .ok c
    | none => .ok c
  else compCheck

/-- RECOVER_RELEASE. -/
def opRecoverRelease (c : CompSt) (win : BitVec 64) : CompRes :=
  if 1024 ≤ win.toNat then compCheck else .ok { c with s := releaseGuilty c.s win.toNat }

/-- Does a unit's kind hold the number? Command Ethernet ports go by their switch port numbers (R18). -/
def unitNumber (kind n : Nat) : Bool :=
  if kind = 10 then n == 16 || n == 17
  else decide (n < if kind = 1 then 128 else if kind = 2 then 32 else if kind = 4 then 16 else if kind = 6 ∨ kind = 7 then 8
    else if kind = 8 then 32 else if kind = 9 then 16 else 0)

/-- UNIT_RETURN. -/
def opUnitReturn (c : CompSt) (unit : BitVec 64) : CompRes :=
  let k := unit.toNat / 4096
  let n := unit.toNat % 4096
  if !unitNumber k n then compCheck
  else .ok { c with s := if inService c.s k n then c.s else markService c.s k n true }

/-- RIP_RELEASE. -/
def opRipRelease (c : CompSt) : CompRes := if ripHeld c.s then .ok { c with rip := true } else compCheck

/-- KEY_REVOKE (R666): never its own slot, and never the last enrolled slot that is not revoked. -/
def opKeyRevoke (c : CompSt) (signer : Nat) (slot : BitVec 64) : CompRes :=
  let n := slot.toNat
  let s := c.s
  let left := (List.range 4).filter (fun i => regBit s (rBoot 0xB0) i && !regBit s (rBoot 0xB0) (4 + i) && i != n)
  if 4 ≤ n ∨ n = signer ∨ left = [] then compCheck else .ok { c with s := setBit s (rBoot 0xB0) (4 + n) }

/-- Check and apply one operation. -/
def compOp (signer : Nat) (c : CompSt) (op : CompOp) : CompRes :=
  match op with
  | .regSet ps eth => opRegSet c ps eth
  | .regionSet i e => opRegionSet c i e
  | .domainSet d e => opDomainSet c d e
  | .groupSet g e => opGroupSet c g e
  | .hostRelease h b n => opHostRelease c h b n
  | .lineRestore f n r v o => opLineRestore c f n r v o
  | .masterRelease k n => opMasterRelease c k n
  | .recoverRelease w => opRecoverRelease c w
  | .unitReturn u => opUnitReturn c u
  | .ripRelease => opRipRelease c
  | .keyRevoke n => opKeyRevoke c signer n

/-- Check and apply a command's operations in record order (R662): all of them, or the index of the first that fails with its
STATUS and DETAIL. -/
def compOps (signer : Nat) (c : CompSt) (i : Nat) (ops : List CompOp) : CompSt ⊕ (Nat × Nat × Nat) :=
  match ops with
  | [] => .inl c
  | op :: rest => match compOp signer c op with
    | .ok c => compOps signer c (i + 1) rest
    | .bad st de => .inr (i, st, de)

end Sys2Proof.Machine
end

