-- ==== Sys2Proof/Machine/Compose.lean ====
section
/-! DEFINITION. Machine/Compose.lean: signed composition commands: their format, their checks, their completion, and the sweeps of
HOST_RELEASE (chapters 05 and 15). -/

namespace Sys2Proof.Machine

/-! The command image (R660): a header line, the body, the owner's public key and the signature, from memory key `b`. -/

/-- Lines of a body of `n` bytes. -/
def bodyLines (n : Nat) : Nat := (n + 63) / 64

/-- Are `n` bytes from key `a` zero? -/
def zeroBytes (s : State) (a n : Nat) : Bool := s.readN a n == 0

/-- The operation of a record of `n` bytes at key `a`; none when its format is wrong. -/
def parseOp (s : State) (a n : Nat) : Option CompOp :=
  let w := fun (i : Nat) => BitVec.ofNat 64 (s.readN (a + 8 + 8 * i) 8)
  let entry := BitVec.ofNat 2048 (s.readN (a + 16) 256)
  match s.readN a 2, n with
  | 0x01, n =>
    if 24 ≤ n ∧ n % 16 = 8 ∧ n ≤ 1032 then 
      (let ps := (List.range (n / 16)).map (fun i => (w (2 * i), w (2 * i + 1)))
       let eth := ps.filter ethPair
       some (.regSet (ps.filter (fun p => !ethPair p)) (if eth = [] then [] else Config.ethAddrs eth)))
    else none
  | 0x02, 80 => some (.regionSet (w 0) (s.readLine (a + 16)))
  | 0x03, 272 => some (.domainSet (w 0) entry)
  | 0x04, 272 => some (.groupSet (w 0) entry)
  | 0x05, 32 => some (.hostRelease (w 0) (w 1) (w 2))
  | 0x06, 48 => some (.lineRestore (w 0) (w 1) (w 2) (w 3) (w 4))
  | 0x07, 24 => some (.masterRelease (w 0) (w 1))
  | 0x08, 16 => some (.recoverRelease (w 0))
  | 0x09, 16 => some (.unitReturn (w 0))
  | 0x0A, 8 => some .ripRelease
  | 0x0B, 16 => some (.keyRevoke (w 0))
  | _, _ => none

/-- The `n` operation records from key `a`, which fill the bytes up to key `e` exactly (R660). -/
def parseOps (s : State) (a e n : Nat) : Option (List CompOp) :=
  match n with
  | 0 => if a = e then some [] else none
  | k + 1 =>
    let len := s.readN (a + 2) 2
    if e < a + 8 ∨ len < 8 ∨ len % 8 ≠ 0 ∨ e < a + len ∨ !zeroBytes s (a + 4) 4 then none
    else match parseOp s a len, parseOps s (a + len) e k with
      | some op, some rest => some (op :: rest)
      | _, _ => none

/-- Step 1 of R661: the formats and LEN; the operations of a command that passes. -/
def composeFormat (s : State) (b : Nat) : Option (List CompOp) :=
  let len := s.readN b 2
  let n := s.readN (b + 36) 4
  let body := b + 64
  let key := body + 64 * bodyLines n
  if n < 64 ∨ 62336 < n ∨ n % 8 ≠ 0 ∨ !zeroBytes s (b + 40) 24 ∨ len ≠ 50 + bodyLines n then none
  else if s.readN body 4 ≠ 0x4F434D53 ∨ s.readN (body + 4) 2 < 1 ∨ 255 < s.readN (body + 4) 2 ∨ 3 < s.readN (body + 6) 1 ∨
      !zeroBytes s (body + 7) 1 ∨ !zeroBytes s (body + 32) 32 ∨ !zeroBytes s (body + n) (64 * bodyLines n - n) ∨ !zeroBytes s (key + 1793) 63
    then none
  else parseOps s (body + 64) (body + n) (s.readN (body + 4) 2)

/-- What a composition command comes to: refused with STATUS, DETAIL and VALUE0, or accepted with its SEQ. -/
inductive Verdict where
  | refused (status detail v0 : Nat)
  | accepted (c : CompSt) (seq : Nat)

/-- Steps 2 to 6 of R661: does the signature chain hold? BOOT_INJ KIND 1 fails it. -/
def composeSigned (s : State) (b : Nat) : Bool × State :=
  let n := s.readN (b + 36) 4
  let body := b + 64
  let key := memBytes s (body + 64 * bodyLines n) 1793
  let sig := memBytes s (body + 64 * bodyLines n + 1856) 1280
  let k := s.readN (body + 6) 1
  if BitVec.ofNat 64 (s.readN (body + 8) 8) ≠ reg s (rBoot 0x80) then (false, s)
  else if !regBit s (rBoot 0xB0) k || regBit s (rBoot 0xB0) (4 + k) || Config.shake256 key != Sparse.get s.owner k 0 then (false, s)
  else if BitVec.ofNat 64 (s.readN (body + 16) 8) ≠ reg s (rBoot 0x88) then (false, s)
  else if s.readN (body + 24) 8 ≤ (reg s (rBoot (0x90 + 8 * k))).toNat then (false, s)
  else match takeInj s (rBoot 0x10) 1 (fun _ => true) with
    | some (_, t) => (false, t)
    | none => (Config.falconVerify key (leBytes 64 (Config.shake256 (memBytes s body n)).toNat) sig, s)

/-- Check a composition command (R661, R662, R664): its verdict and the state that a refusal leaves. -/
def composeCheck (s : State) (b : Nat) : Verdict × State :=
  match composeFormat s b with
  | none => (.refused 2 3 0, s)
  | some ops =>
    if bootState s = 1 ∨ (ripHeld s ∧ ops ≠ [.ripRelease]) ∨ (!ripHeld s ∧ !running s) then (.refused 2 17 0, s)
    else
      let (good, s) := composeSigned s b
      if !good then (.refused 2 19 0, bootLog s 9 (bootBit 9) 0)
      else
        let k := s.readN (b + 70) 1
        let q := s.readN (b + 88) 8
        match compOps k { s := s } 0 ops with
        | .inr (i, st, de) => (.refused st de i, s)
        | .inl c => (.accepted { c with s := regSet c.s (rBoot (0x90 + 8 * k)) (BitVec.ofNat 64 q) } q, s)

/-- Carry on an accepted command (R662): its completion is written once its sweeps and recalls have ended; RIP_RELEASE starts the
whole-device reset (R608). -/
def composeAccept (c : CompSt) (win ref hseq seq : Nat) : State :=
  let s := c.s
  let s := cmpCheck (settleAll { s with cmpWait := s.cmpWait ++ [⟨win, ref, hseq, seq, c.hosts, c.regions, c.lines, 0, 0, false⟩] })
  if c.rip then wholeReset s 0 else s

/-- COMPOSE (R659, R661): a command in a window. -/
def doCompose (w : Fin 1024) (s : State) : State :=
  let w := w.val
  if !serving s w 0x10 then s
  else match composeCheck s (winOff w 0) with
    | (.refused st de v, t) => complete (countRefusal t w) w { status := st, detail := de, v0 := v }
    | (.accepted c q, _) => composeAccept c w 0 0 q

/-! The operations as rows of their own: an accepted command with one operation. -/

/-- Run one operation, signed by the key of slot `signer`. -/
def runOp (signer : Nat) (op : CompOp) (s : State) : State :=
  if bootState s = 1 ∨ (ripHeld s ∧ op ≠ .ripRelease) ∨ (!ripHeld s ∧ !running s) then s
  else match compOp signer { s := s } op with
    | .ok c => composeAccept c 65537 0 0 0
    | .bad _ _ => s

def doRegSet (pairs : List (BitVec 64 × BitVec 64)) (eth : List EthAddr) (s : State) : State := runOp 4 (.regSet pairs eth) s
def doRegionSet (index : BitVec 64) (entry : LineData) (s : State) : State := runOp 4 (.regionSet index entry) s
/-- REGION_DELETE (R758): a REGION_SET whose entry has VALID 0. -/
def doRegionDelete (index : BitVec 64) (s : State) : State := runOp 4 (.regionSet index 0) s
def doDomainSet (domain : BitVec 64) (entry : BitVec 2048) (s : State) : State := runOp 4 (.domainSet domain entry) s
def doGroupSet (group : BitVec 64) (entry : BitVec 2048) (s : State) : State := runOp 4 (.groupSet group entry) s
def doHostRelease (host buf bytes : BitVec 64) (s : State) : State := runOp 4 (.hostRelease host buf bytes) s
def doLineRestore (first count region version offset : BitVec 64) (s : State) : State :=
  runOp 4 (.lineRestore first count region version offset) s
def doMasterRelease (kind number : BitVec 64) (s : State) : State := runOp 4 (.masterRelease kind number) s
def doRecoverRelease (win : BitVec 64) (s : State) : State := runOp 4 (.recoverRelease win) s
def doUnitReturn (unit : BitVec 64) (s : State) : State := runOp 4 (.unitReturn unit) s
def doRipRelease (s : State) : State := runOp 4 .ripRelease s
/-- KEY_REVOKE: `signer` is the slot that signed the command (R666). -/
def doKeyRevoke (slot : BitVec 64) (signer : BitVec 2) (s : State) : State := runOp signer.toNat (.keyRevoke slot) s

/-! The sweeps of HOST_RELEASE (R251). -/

/-- Does a home record the sharers of a line exactly: in its filter, or as one host in the directory (R235, R236)? -/
def exactSharers (s : State) (l : Nat) : Bool :=
  s.filt.any (fun e => e.line == l) || decide ((hostsOf (lineRec s (l * 64)).2).length = 1)

/-- Sweep one line: one held in E or M by the host is poisoned (true), and the host is no longer an exact sharer of any. The sweep's
look-up of a free line may meet an injected error (R240, R241, R253), which needs a tracker entry. -/
def sweepLine (s : State) (n l : Nat) : State × Bool :=
  let off := l * 64
  match regionOf s off with
  | none => (s, false)
  | some r =>
    if !rgCoherent s r then (s, false) else
    let (s, ue) := if lineActive s off || !trkRoom s (homeOf off) then (s, none) else lookupErr s off
    let (st, v) := lineRec s off
    match ue with
    | some d => (startTxn s ⟨.recall, 0, .control, off, 0, 0⟩ false (validHosts s) true (some d), false)
    | none =>
      if !v.toNat.testBit n then (s, false) else
      match st with
      | .E => (setRec (poisonLine s off) off .I 0, true)
      | .M => (setRec (poisonLine s off) off .I 0, true)
      | .S =>
        let v' := vecDel v n
        (if exactSharers s l then setRec s off (if v' = 0 then .I else .S) v' else s, false)
      | .O => (if exactSharers s l then setRec s off .O (vecDel v n) else s, false)
      | .I => (s, false)

/-- Report the poisoned lines in the buffer of host `n`'s sweep (R251): one address each, until the buffer is full. -/
def bufferLines (s : State) (n off len i : Nat) (ls : List Nat) : State :=
  match ls with
  | [] => s
  | l :: rest =>
    if len < 8 * i + 16 then putSweep s n (fun e => { e with ovf := true })
    else bufferLines (bufferWord s n (off + 8 + 8 * i) (globalAddr s (l * 64))) n off len (i + 1) rest

/-- Sweep recorded lines for host `n`: what comes back is the state and the lines poisoned. -/
def sweepLines (s : State) (n : Nat) (ls : List Nat) : State × List Nat :=
  ls.foldl (fun (acc : State × List Nat) l =>
    let (t, p) := sweepLine acc.1 n l
    (t, if p then acc.2 ++ [l] else acc.2)) (s, [])

/-- The sweep of a home also reads the entries of the lines of COHERENT regions that no host holds (R251): an injected directory error meets
the first such line of the home (R253). -/
def sweepUnrecorded (s : State) : State :=
  if !(List.range 8).any (fun h => s.inj.any (fun i => i.off == rHome h 0x10 && i.kind == 3)) then s
  else forEach (List.range 8) s (fun s h =>
    match ((validRegions s).filter (rgCoherent s)).findSome? (fun r =>
        ((List.range (min 4096 (rgSize s r / 64))).map (fun i => rgBase s r + 64 * i)).find? (fun o =>
          homeOf o == h && !(recordedLines s).contains (o / 64) && !lineActive s o && trkRoom s h)) with
    | none => s
    | some o => (lookups s [o]).1)

/-- RELEASE_SWEEP_DONE: the eight homes have swept for the host, and the buffer is written; then FENCED clears and the command that
waited completes. -/
def doReleaseSweepDone (host : Fin 64) (s : State) : State :=
  whenRunning s fun s =>
    let n := host.val
    match s.sweeps.find? (fun e => e.host == n && e.stage == 0) with
    | none => s
    | some e =>
      let (s, hit) := sweepLines s n (recordedLines s)
      let s := putSweep s n (fun e => { e with count := hit.length, stage := 1 })
      settleAll (bufferLines (sweepUnrecorded s) n e.off e.len 0 hit)

-- EXEC
def execCompose (w : Fin 1024) (s : State) : Host.Outcome State Fault Refusal := .next (doCompose w s)
def execRegSet (pairs : List (BitVec 64 × BitVec 64)) (eth : List EthAddr) (s : State) : Host.Outcome State Fault Refusal :=
  .next (doRegSet pairs eth s)
def execRegionSet (index : BitVec 64) (entry : BitVec 512) (s : State) : Host.Outcome State Fault Refusal :=
  .next (doRegionSet index entry s)
def execRegionDelete (index : BitVec 64) (s : State) : Host.Outcome State Fault Refusal := .next (doRegionDelete index s)
def execDomainSet (domain : BitVec 64) (entry : BitVec 2048) (s : State) : Host.Outcome State Fault Refusal :=
  .next (doDomainSet domain entry s)
def execGroupSet (group : BitVec 64) (entry : BitVec 2048) (s : State) : Host.Outcome State Fault Refusal :=
  .next (doGroupSet group entry s)
def execHostRelease (host buf bytes : BitVec 64) (s : State) : Host.Outcome State Fault Refusal :=
  .next (doHostRelease host buf bytes s)
def execLineRestore (first count region version offset : BitVec 64) (s : State) : Host.Outcome State Fault Refusal :=
  .next (doLineRestore first count region version offset s)
def execMasterRelease (kind number : BitVec 64) (s : State) : Host.Outcome State Fault Refusal :=
  .next (doMasterRelease kind number s)
def execRecoverRelease (win : BitVec 64) (s : State) : Host.Outcome State Fault Refusal := .next (doRecoverRelease win s)
def execUnitReturn (unit : BitVec 64) (s : State) : Host.Outcome State Fault Refusal := .next (doUnitReturn unit s)
def execRipRelease (s : State) : Host.Outcome State Fault Refusal := .next (doRipRelease s)
def execKeyRevoke (slot : BitVec 64) (signer : BitVec 2) (s : State) : Host.Outcome State Fault Refusal :=
  .next (doKeyRevoke slot signer s)
def execReleaseSweepDone (host : Fin 64) (s : State) : Host.Outcome State Fault Refusal := .next (doReleaseSweepDone host s)

end Sys2Proof.Machine
end

