-- ==== Sys2Proof/Machine/Mgmt.lean ====
section
/-! DEFINITION. Machine/Mgmt.lean: the management protocol: requests in order, their replies, heartbeats and failover (R574 to R578,
R659, R672, R677). -/

namespace Sys2Proof.Machine

/-! Replies: the first word holds REF in its low half and the outcome above it, 0 for an answer (assumption 24). -/

def mgmtReply (s : State) (ref outcome : Nat) (ws : List Word) : State := mgmtSend s 25 (BitVec.ofNat 64 (ref + outcome * 2 ^ 32) :: ws)

def refusedAddr : Nat := 2
def refusedBusy : Nat := 3
def refusedAccess : Nat := 8
def refusedFormat : Nat := 9
def refusedSign : Nat := 10
def refusedIdentity : Nat := 11
/-- The refusal of an image that fails the check with BOOT CODE `c`. -/
def refusedImage (c : Nat) : Nat := 16 + c

/-- Bytes as words, the last filled with zeros. -/
def wordsOf (bs : List (BitVec 8)) : List Word :=
  (List.range ((bs.length + 7) / 8)).map (fun i =>
    BitVec.ofNat 64 (((bs.drop (8 * i)).take 8).foldr (fun b n => b.toNat + 256 * n) 0))

/-- Send bytes as replies of at most 1,408 B each, the leading word included. -/
def mgmtReplyBytes (s : State) (ref : Nat) (bs : List (BitVec 8)) : State :=
  let ws := wordsOf bs
  forEach (List.range ((ws.length + 174) / 175)) s (fun s i => mgmtReply s ref 0 ((ws.drop (175 * i)).take 175))

/-! Registers (R12, R13, R575). -/

/-- A register read in domain 0: all ones for a wrong alignment, which is recorded, and for a block without power. An offset at or
beyond 2^28, outside the window, is taken as a wrong access too: the model's choice (R13, assumption 196). -/
def mgmtRead (s : State) (off : Nat) : Word × State :=
  if off % 8 ≠ 0 ∨ 2 ^ 28 ≤ off then (BitVec.ofNat 64 (2 ^ 64 - 1), cwAccessErr s off 0)
  else if !regUp s off then (BitVec.ofNat 64 (2 ^ 64 - 1), s)
  else (regView s off, touchUnit s off)

/-- Does a register take a write from management or Tailstock: has it RW, W1C or WO bits, and power? -/
def regWritable (s : State) (off : Nat) : Bool :=
  regUp s off && match regRow off with
    | some r => r.rw != 0 || r.w1c != 0 || r.wo != 0
    | none => false

/-- A register write in domain 0; whether it was refused. An offset outside the window is taken as in a read (assumption 196). -/
def mgmtWrite (s : State) (off : Nat) (v : Word) : Bool × State :=
  if off % 8 ≠ 0 ∨ 2 ^ 28 ≤ off then (true, cwAccessErr s off 0)
  else if regWritable s off then (false, regWrite s 0 off v)
  else (true, s)

/-- Read registers in order. -/
def mgmtReads (s : State) (offs : List (BitVec 64)) : List Word × State :=
  offs.foldl (fun acc o => let (w, t) := mgmtRead acc.2 o.toNat; (acc.1 ++ [w], t)) ([], s)

/-- Write registers in order: one word per pair says whether it was refused. -/
def mgmtWrites (s : State) (ps : List (BitVec 64 × BitVec 64)) : List Word × State :=
  ps.foldl (fun acc p => let (b, t) := mgmtWrite acc.2 p.1.toNat p.2; (acc.1 ++ [if b then 1 else 0], t)) ([], s)

/-! Images in chunks (R659, R672). -/

/-- Do the parts cover bytes `a` to `total`? -/
def chunksCover (ps : List (Nat × Nat)) (total fuel a : Nat) : Bool :=
  if total ≤ a then true
  else match fuel with
    | 0 => false
    | k + 1 => match ps.find? (fun p => decide (p.1 ≤ a) && decide (a < p.1 + p.2)) with
      | some p => chunksCover ps total k (p.1 + p.2)
      | none => false

/-- Is everything there? -/
def Chunks.full (c : Chunks) : Bool := chunksCover c.parts c.total (c.parts.length + 1) 0

/-- Take in a part; one of another total length begins an image anew. -/
def Chunks.add (c : Chunks) (off total len : Nat) : Chunks :=
  if c.total = total then { c with parts := c.parts ++ [(off, len)] } else ⟨total, [(off, len)]⟩

/-- Where the bytes of a management COMPOSE image lie. -/
def cmpKey : Nat := spKey (spMisc 3) 0

/-- COMPOSE by management (R659): a chunk, whose payload with its eight leading bytes takes at most 1,408 B (R574); the whole image is checked
and acted on. -/
def mgmtCompose (s : State) (ref off total : Nat) (data : List (BitVec 8)) : State :=
  if 65536 < total ∨ total < off + data.length ∨ 1400 < data.length then mgmtReply s ref refusedFormat []
  else
    let s := if s.cmpRx.total = total then s else zeroMem s cmpKey 65536
    let s := { (putBytes s (cmpKey + off) data) with cmpRx := s.cmpRx.add off total data.length }
    if !s.cmpRx.full then mgmtReply s ref 0 []
    else
      let hseq := s.readN (cmpKey + 4) 4
      let short := decide (total ≠ 64 * s.readN cmpKey 2) || s.readN (cmpKey + 2) 1 != 0x10
      let (v, t) := if short then (.refused 2 3 0, s) else composeCheck s cmpKey
      let clear := fun (u : State) => zeroMem { u with cmpRx := ⟨0, []⟩ } cmpKey 65536
      match v with
      | .refused st de x =>
        mgmtReply (clear t) ref 0 ((List.range 8).map (lineWord (cplLine hseq 0xFFFF 0x10 { status := st, detail := de, v0 := x })))
      | .accepted c q => composeAccept { c with s := clear c.s } 65536 ref hseq q

/-- Take a part of a firmware image (R672, R673): the refusal, if any, and whether the image is complete. -/
def imagePart (s : State) (port off total : Nat) (data : List (BitVec 8)) : Option Nat × Bool × State :=
  if s.imgWrite.isSome then (some refusedBusy, false, s)
  else if bootState s = 0 then (some refusedBusy, false, s)
  else if 25165824 < total ∨ total < off + data.length then (some refusedFormat, false, s)
  else
    let s := if s.imgRx.total = total then s else zeroMem s stagedKey 25165824
    let s := { (putBytes s (stagedKey + off) data) with imgRx := s.imgRx.add off total data.length, imgPort := port }
    (none, s.imgRx.full, s)

/-- Act on a complete image: the BOOT CODE of its refusal, or the slot write begins. -/
def imageAct (s : State) : Option Nat × State :=
  let s := { s with imgRx := ⟨0, []⟩ }
  match imageCheck s stagedKey with
  | some c => (some c, zeroMem (bootLog s c (bootBit c) 0) stagedKey 25165824)
  | none => (none, beginSlotWrite s (bootState s == 1))

/-- IMAGE by management. -/
def mgmtImage (s : State) (ref port off total rsv : Nat) (data : List (BitVec 8)) : State :=
  if rsv ≠ 0 ∨ 1392 < data.length then mgmtReply s ref refusedFormat []
  else match imagePart s port off total data with
    | (some e, _, s) => mgmtReply s ref e []
    | (none, false, s) => mgmtReply s ref 0 []
    | (none, true, s) =>
      match imageAct s with
      | (some c, s) => mgmtReply s ref (refusedImage c) []
      | (none, s) => mgmtReply s ref 0 []

/-! Attestation (R677, R678). -/

/-- The plans that a quote lists: valid ones whose domain passes the filter, in handle order, while the controller runs. -/
def quotePlans (s : State) (filter : Nat) : List Nat :=
  if !running s then []
  else (List.range 256).filter (fun p => regBit s (rPlanStat p) 63 && (filter == 0xFFFF || regFld s (rPlanStat p) 62 55 == filter))

/-- The quote body. -/
def quoteBody (s : State) (vnonce : BitVec 256) (filter : Nat) : List (BitVec 8) :=
  let ps := quotePlans s filter
  leBytes 4 0x51544B53 ++ leBytes 2 1 ++ leBytes 2 ps.length ++ leBytes 8 (reg s (rBoot 0x80)).toNat ++ leBytes 8 (reg s 0).toNat ++
    leBytes 8 (reg s 8).toNat ++ leBytes 4 (regFld s (rBoot 0xB8) 39 32) ++ leBytes 4 (reg s (rBoot 0x18)).toNat ++
    leBytes 8 (reg s (rBoot 0x88)).toNat ++ leBytes 32 vnonce.toNat ++
    (List.range 8).flatMap (fun i => leBytes 8 (reg s (rBoot (0x40 + 8 * i))).toNat) ++ leBytes 2 filter ++ leBytes 1 (bootState s) ++
    leBytes 45 0 ++
    ps.flatMap (fun p => leBytes 2 p ++ leBytes 1 (regFld s (rPlanStat p) 62 55) ++ leBytes 5 0 ++ leBytes 64 (planDigest s p).toNat)

/-- QUOTE: refused while the identity key is not unwrapped (R676). -/
def mgmtQuote (s : State) (ref : Nat) (vnonce : BitVec 256) (filter : Nat) (cert rsvZero : Bool) : State :=
  if !rsvZero then mgmtReply s ref refusedFormat []
  else if !regBit s (rBoot 0) 4 then mgmtReply s ref refusedIdentity []
  else
    let body := quoteBody s vnonce filter
    let sig := Config.falconSign (leBytes 64 (Config.shake256 body).toNat)
    mgmtReplyBytes s ref (body ++ sig ++ (if cert then Config.certificate else []))

/-! Requests in order (R567, R574, R576, R577). -/

/-- Serve a request: `ref` is its SEQ. -/
def mgmtServe (s : State) (port ref : Nat) (q : MgmtReq) : State :=
  match q with
  | .capRead => mgmtReply s ref 0 ((List.range 15).map (fun i => regView s (8 * i)))
  | .regRead offs =>
    if 128 < offs.length then mgmtReply s ref refusedFormat []
    else
      let (ws, t) := mgmtReads s offs
      mgmtReply t ref 0 ws
  | .regWrite ps =>
    if 64 < ps.length then mgmtReply s ref refusedFormat []
    else
      let (ws, t) := mgmtWrites s ps
      mgmtReply t ref (if ws.contains 1 then refusedAccess else 0) ws
  | .compose off total data => mgmtCompose s ref off.toNat total.toNat data
  | .quote vnonce filter cert rsvZero => mgmtQuote s ref vnonce filter.toNat cert rsvZero
  | .image off total rsv data => mgmtImage s ref port off.toNat total.toNat rsv.toNat data
  | .heartbeat => s
  | .setAddr p addr signedOk =>
    if signedOk then mgmtReply { s with mgmtAddr := Sparse.set s.mgmtAddr p.val 0 addr.toNat } ref 0 []
    else mgmtReply s ref refusedSign []

/-- MGMT_STAT's two bits for a port. -/
def mgmtUp (s : State) (p : Nat) : Nat := regFld s rMgmtStat (2 * p + 3) (2 * p + 2)

/-- A valid block arrived on a port: it is the port for messages, and it is UP (R577, R578); messages go to its sender (R563). -/
def mgmtHeard (s : State) (src : MgmtFrom) : State :=
  let p := src.port.val
  regPut { s with mgmtPort := p, mgmtFar := (src.far.toNat, tagWord src.tci), mgmtIdle := Sparse.set s.mgmtIdle p 0 0 }
    rMgmtStat (2 * p + 3) (2 * p + 2) 1

/-- Does a management port take a message: with a link, for one of the port's own addresses? -/
def mgmtTakes (s : State) (src : MgmtFrom) : Bool := s.stbyUp && mgmtUp s src.port.val != 0 && mgmtOwn s src.port.val src.dst.toNat

/-- An acknowledged FAULT frees its entry (R586): the entry is the oldest of its class, since acknowledgements come in order. -/
def ackFault (s : State) (m : MgmtOut) : State :=
  match m.cls, m.payload with
  | some c, w :: _ =>
    if regFld s (rErrHead c) 63 56 ≠ 0 ∧ regFld s (rErrHead c) 47 0 = w.toNat % 2 ^ 48 then errAckOne s c else s
  | _, _ => s

/-- What an ACK and SACK of the manager say (R571, R574, R586): the messages before `ack` are acknowledged, those that waited for the window of 16 go
out on the port that last received a valid block (R577), and one behind a message that the SACK newly covers is sent again at once. -/
def mgmtAckIn (s : State) (ack sack : Nat) : State :=
  let gone := s.mgmtOut.filter (fun m => seqLt m.msg ack)
  let left := s.mgmtOut.filter (fun m => !seqLt m.msg ack)
  let s := forEach gone { s with mgmtOut := left } ackFault
  let now := fun (m : MgmtOut) => { m with port := s.mgmtPort }
  let s := forEach ((left.take 16).drop (16 - gone.length)) s (fun s m =>
    mgmtEmit { s with mgmtOut := s.mgmtOut.map (fun x => if x.msg = m.msg then now m else x) } (now m))
  let covered := fun (m : MgmtOut) => let i := (m.msg + 2 ^ 32 - ack - 1) % 2 ^ 32; decide (i < 64) && sack.testBit i
  let news := (s.mgmtOut.take 16).filter (fun m => covered m && !m.covered)
  let late := (s.mgmtOut.take 16).filter (fun m => !covered m && !m.covered && news.any (fun c => seqLt m.msg c.msg))
  forEach late { s with mgmtOut := s.mgmtOut.map (fun m => { m with covered := m.covered || covered m }) } mgmtEmit

/-- Serve the held requests that are next. -/
def mgmtDrain (s : State) (fuel : Nat) : State :=
  match fuel with
  | 0 => s
  | k + 1 =>
    match s.mgmtHeld.find? (fun e => e.1 == s.mgmtNext) with
    | none => s
    | some e =>
      mgmtDrain (mgmtServe { s with mgmtHeld := s.mgmtHeld.filter (fun x => x.1 != e.1), mgmtNext := (e.1 + 1) % 2 ^ 32 } e.2.1 e.1 e.2.2) k

/-- Acknowledge what has been received in order. -/
def mgmtAckOut (s : State) : State := send s (.mgmt s.mgmtPort 5 (mgmtWords s s.mgmtPort 0))

/-- A request arrives: served in SEQ order, one received before is acknowledged again, and one beyond the window of 16 is
discarded. -/
def mgmtIn (src : MgmtFrom) (seq : BitVec 32) (q : MgmtReq) (s : State) : State :=
  if !mgmtTakes s src then s
  else
    let s := mgmtAckIn (mgmtHeard s src) src.ack.toNat src.sack.toNat
    let d := (seq.toNat + 2 ^ 32 - s.mgmtNext) % 2 ^ 32
    if 2 ^ 31 ≤ d ∨ s.mgmtHeld.any (fun e => e.1 == seq.toNat) then mgmtAckOut s
    else if 16 ≤ d then s
    else mgmtAckOut (mgmtDrain { s with mgmtHeld := s.mgmtHeld ++ [(seq.toNat, src.port.val, q)] } 17)

def doCapRead (src : MgmtFrom) (seq : BitVec 32) (s : State) : State := mgmtIn src seq .capRead s
def doRegRead (src : MgmtFrom) (seq : BitVec 32) (offs : List (BitVec 64)) (s : State) : State := mgmtIn src seq (.regRead offs) s
def doRegWrite (src : MgmtFrom) (seq : BitVec 32) (pairs : List (BitVec 64 × BitVec 64)) (s : State) : State :=
  mgmtIn src seq (.regWrite pairs) s
def doMgmtCompose (src : MgmtFrom) (seq off total : BitVec 32) (data : List (BitVec 8)) (s : State) : State :=
  mgmtIn src seq (.compose off total data) s
def doQuote (src : MgmtFrom) (seq : BitVec 32) (vnonce : BitVec 256) (filter : BitVec 16) (cert rsvZero : Bool) (s : State) : State :=
  mgmtIn src seq (.quote vnonce filter cert rsvZero) s
def doImage (src : MgmtFrom) (seq : BitVec 32) (off : BitVec 64) (total rsv : BitVec 32) (data : List (BitVec 8)) (s : State) : State :=
  mgmtIn src seq (.image off total rsv data) s
def doHeartbeat (src : MgmtFrom) (seq : BitVec 32) (s : State) : State := mgmtIn src seq .heartbeat s
def doSetAddr (src : MgmtFrom) (seq : BitVec 32) (target : Fin 2) (addr : BitVec 128) (signedOk : Bool) (s : State) : State :=
  mgmtIn src seq (.setAddr target addr signedOk) s

/-! Heartbeats, acknowledgements and links (R577, R578, R586). -/

/-- One port's heartbeat: controller state, MGMT_STAT and the SEQ of the last FAULT; ten intervals without a valid block make it
SUSPECT. -/
def heartbeatOut (s : State) (p : Nat) : State :=
  let n := Sparse.get s.mgmtIdle p 0 + 1
  let s := { s with mgmtIdle := Sparse.set s.mgmtIdle p 0 n }
  if mgmtUp s p = 0 then s
  else
    let s := if 10 ≤ n then regPut s rMgmtStat (2 * p + 3) (2 * p + 2) 2 else s
    send s (.mgmt p 23 (mgmtWords s p 0 ++ [(reg s (rBoot 0)).toNat, (regView s (rPwr 8)).toNat, (reg s rMgmtStat).toNat, s.seq.toNat]))

/-- HEARTBEAT_TIMER (R578). -/
def doHeartbeatTimer (s : State) : State := if !s.stbyUp then s else heartbeatOut (heartbeatOut s 0) 1

/-- MGMT_ACK (R574, R586): an acknowledgement alone. -/
def doMgmtAck (src : MgmtFrom) (ack : BitVec 32) (s : State) : State :=
  if !mgmtTakes s src then s else mgmtAckIn (mgmtHeard s src) ack.toNat src.sack.toNat

/-- MGMT_RESEND_TIMEOUT (R577): a message unacknowledged after 20 ms goes out on the other port, when that has a link. -/
def doMgmtResendTimeout (msg : BitVec 32) (s : State) : State :=
  if !s.stbyUp then s
  else match (s.mgmtOut.take 16).find? (fun m => m.msg == msg.toNat && !m.covered) with
    | none => s
    | some m =>
      let far := mgmtUp s (1 - m.port) != 0
      let m' := if far then { m with port := 1 - m.port } else m
      let s := if far then setBit s rMgmtErr 2 else s
      mgmtEmit { s with mgmtOut := s.mgmtOut.map (fun x => if x.msg == m.msg then m' else x) } m'

/-- MGMT_LINK_DOWN (R578). -/
def doMgmtLinkDown (port : Fin 2) (s : State) : State :=
  if !s.stbyUp || mgmtUp s port.val == 0 then s
  else
    let p := port.val
    logErr (setBit (regPut s rMgmtStat (2 * p + 3) (2 * p + 2) 0) rMgmtErr p) { cls := 5, code := p, kind := 15, d0 := 1 }

/-- MGMT_LINK_UP. -/
def doMgmtLinkUp (port : Fin 2) (s : State) : State :=
  if !s.stbyUp || mgmtUp s port.val != 0 then s
  else regPut { s with mgmtIdle := Sparse.set s.mgmtIdle port.val 0 0 } rMgmtStat (2 * port.val + 3) (2 * port.val + 2) 1

-- EXEC
def execCapRead (src : MgmtFrom) (seq : BitVec 32) (s : State) : Host.Outcome State Fault Refusal :=
  .next (doCapRead src seq s)
def execRegRead (src : MgmtFrom) (seq : BitVec 32) (offs : List (BitVec 64)) (s : State) : Host.Outcome State Fault Refusal :=
  .next (doRegRead src seq offs s)
def execRegWrite (src : MgmtFrom) (seq : BitVec 32) (pairs : List (BitVec 64 × BitVec 64)) (s : State) :
    Host.Outcome State Fault Refusal :=
  .next (doRegWrite src seq pairs s)
def execMgmtCompose (src : MgmtFrom) (seq off total : BitVec 32) (data : List (BitVec 8)) (s : State) :
    Host.Outcome State Fault Refusal :=
  .next (doMgmtCompose src seq off total data s)
def execQuote (src : MgmtFrom) (seq : BitVec 32) (vnonce : BitVec 256) (filter : BitVec 16) (cert rsvZero : Bool) (s : State) :
    Host.Outcome State Fault Refusal :=
  .next (doQuote src seq vnonce filter cert rsvZero s)
def execImage (src : MgmtFrom) (seq : BitVec 32) (off : BitVec 64) (total rsv : BitVec 32) (data : List (BitVec 8)) (s : State) :
    Host.Outcome State Fault Refusal :=
  .next (doImage src seq off total rsv data s)
def execHeartbeat (src : MgmtFrom) (seq : BitVec 32) (s : State) : Host.Outcome State Fault Refusal :=
  .next (doHeartbeat src seq s)
def execHeartbeatTimer (s : State) : Host.Outcome State Fault Refusal := .next (doHeartbeatTimer s)
def execSetAddr (src : MgmtFrom) (seq : BitVec 32) (target : Fin 2) (addr : BitVec 128) (signedOk : Bool) (s : State) :
    Host.Outcome State Fault Refusal :=
  .next (doSetAddr src seq target addr signedOk s)
def execMgmtAck (src : MgmtFrom) (ack : BitVec 32) (s : State) : Host.Outcome State Fault Refusal :=
  .next (doMgmtAck src ack s)
def execMgmtResendTimeout (msg : BitVec 32) (s : State) : Host.Outcome State Fault Refusal :=
  .next (doMgmtResendTimeout msg s)
def execMgmtLinkDown (port : Fin 2) (s : State) : Host.Outcome State Fault Refusal := .next (doMgmtLinkDown port s)
def execMgmtLinkUp (port : Fin 2) (s : State) : Host.Outcome State Fault Refusal := .next (doMgmtLinkUp port s)

end Sys2Proof.Machine
end

