-- ==== Sys2Proof/Machine/Mslot.lean ====
section
/-! DEFINITION. Machine/Mslot.lean: the M slot of the Lathes: Chuck loads and stores, spool descriptors, counters and fences
(R282 to R290). -/

namespace Sys2Proof.Machine

/-- A generator's use at a slot's issue: the address, and the state in which the bundle advances the generator (R268, R281). -/
def useGen (s : State) (l : Nat) (ag : BitVec 4) : BitVec 30 × State :=
  ((aGet (latheAt s l) ag).ptr, stage s l (.uses ag.toNat 1 false))

/-- A load at byte `x` of Chuck `c` (R282): its bundle's first read address is kept, and a load from another Lathe's
Chuck is counted (R705, R725). -/
def noteLoad (s : State) (l c x dom : Nat) : State :=
  let y := latheAt s l
  let s := if y.mread = 0 then putLathe s l { y with mread := globalAddr s (chuckOff c x) } else s
  if c = l then s else pmc s l 10 1 (some dom)

/-- An M slot access of `n` bytes at a generator's pointer (R282): its alignment and its place in the Chuck are checked, and
`f` performs it on the kernel, the Lathe and the byte of the Chuck. -/
def chuckAccess (l n : Nat) (ag : BitVec 4) (align : Nat) (s : State) (f : State → Kernel → Nat → Nat → Slot) : Slot :=
  let (p, s) := useGen s l ag
  if p.toNat % align ≠ 0 then .fault 5 (chuckGa s p) s
  else
    let (c, x) := chuckAddr p
    if 6 * 2 ^ 20 < x + n then .fault 4 (chuckGa s p) s
    else match latheKernel s l with
      | some k => f s k c x
      | none => .stall

def doMload (l : Fin 128) (vd : BitVec 5) (ag : BitVec 4) (last : Bool) (s : State) : State :=
  slot l 1 true last s fun x s =>
    if vPending x vd then .stall
    else chuckAccess l.val 1024 ag 64 s fun s k c x =>
      (chuckRead s k c x 16).slot (globalAddr s (chuckOff c x)) fun ds s =>
        .ok (stage (noteLoad s l.val c x k.dom) l.val (.vreg vd.toNat (BitVec.ofNat 8192 (linesNum ds))))

def doMstore (l : Fin 128) (vs : BitVec 5) (ag : BitVec 4) (last : Bool) (s : State) : State :=
  slot l 1 true last s fun x s =>
    if vPending x vs then .stall
    else
      let v := vGet x vs
      chuckAccess l.val 1024 ag 64 s fun s k c x =>
        (chuckWrite s k c x (blankLines v.toNat 1024)).slot (globalAddr s (chuckOff c x)) fun _ s => .ok s

def doSld (l : Fin 128) (sd : BitVec 5) (ag : BitVec 4) (last : Bool) (s : State) : State :=
  slot l 1 true last s fun _ s =>
    chuckAccess l.val 8 ag 8 s fun s k c x =>
      (kReadChuck s k c x).slot (globalAddr s (chuckOff c x)) fun d s =>
        .ok (stage (noteLoad s l.val c x k.dom) l.val (.sreg sd.toNat (lineWord d (x % 64 / 8))))

/-- SST: a store into a counted area is a partial-line write, which raises the ADDR fault (R283). -/
def doSst (l : Fin 128) (sa : BitVec 5) (ag : BitVec 4) (last : Bool) (s : State) : State :=
  slot l 1 true last s fun x s =>
    let v := sGet x sa
    chuckAccess l.val 8 ag 8 s fun s k c x =>
      let ga := globalAddr s (chuckOff c x)
      if (replicaAt s c x).isSome then .fault 6 ga s
      else if (areaAt s (chuckOff c x)).isSome then .fault 4 ga s
      else if runsKernel s c k.win || (!latheBusy s c && permitChuck s k.dom c true) then .ok (putScratchN s c x 8 v.toNat)
      else .fault 6 ga s

/-- MSPOOL (R290): the descriptor with its offsets enters the spool; its bytes move when SPOOL_DESC_DONE completes it. -/
def doMspool (l : Fin 128) (dix : BitVec 10) (sa sb : BitVec 5) (last : Bool) (s : State) : State :=
  slot l 1 true last s fun x s =>
    match latheKernel s l.val with
    | none => .stall
    | some k =>
      match planDesc s k.plan 2 x.image dix.toNat with
      | none => .fault 7 dix.toNat s
      | some ws =>
        if 64 ≤ x.spool.length then .stall
        else
          let ws := addOffsets ws (sGet x sa) (sGet x sb)
          let d := Desc.ofWords ws
          if d.ok s then
            let s := if d.op = 2 then s else nameUnits s k d.src d.srcBytes
            .ok (putLathe s l.val { latheAt s l.val with spool := (latheAt s l.val).spool ++ [⟨dix.toNat, ws, lathePc s l.val, {}⟩] })
          else .fault 7 dix.toNat s

/-- An M slot instruction on a counter handle; a handle that is not bound raises HANDLE. -/
def onHandle (l : Nat) (x : Lathe) (ch : BitVec 4) (s : State) (f : State → Kernel → Handle → Slot) : Slot :=
  match latheKernel s l with
  | none => .stall
  | some k =>
    match handleOf k x.rank ch.toNat with
    | none => .fault 8 0 s
    | some h => f s k h

/-- Can an area be armed: on this controller, or on one that a port reaches (R518, R533)? -/
def farArea (s : State) (ga : Nat) : Bool × State :=
  match route s ga with
  | .own _ => (true, s)
  | .fault => (true, s)
  | _ => farUp s (ga / 2 ^ 50 % 1024) ga

/-- CARM (R286). -/
def doCarm (l : Fin 128) (ch : BitVec 4) (last : Bool) (s : State) : State :=
  slot l 1 true last s fun x s => onHandle l.val x ch s fun s _ h =>
    match h.area with
    | none => .fault 8 0 s
    | some (ga, _) => match farArea s ga with
      | (true, s) => .ok (armHandle s h)
      | (false, s) => .fault 17 ga s

/-- Wait before the next bundle. -/
def latheWait (s : State) (l : Nat) (w : LWait) : State :=
  setLatheState (putLathe s l { latheAt s l with wait := w }) l 3

/-- CWAIT (R287): a target already reached ends it at once; a timeout of zero fails at once. -/
def doCwait (l : Fin 128) (ch : BitVec 4) (st so : BitVec 5) (far : BitVec 64) (last : Bool) (s : State) : State :=
  slot l 1 true last s fun x s => onHandle l.val x ch s fun s k h =>
    match takeInj s (rLathe l.val 0x38) 5 (fun _ => true) with
    | some (_, t) => .fault 9 h.ctr t
    | none =>
      match handleValue s k h far with
      | none => .fault 6 h.ctr s
      | some v =>
        if (sGet x st).toNat ≤ v.toNat then .ok s
        else if (sGet x so) = 0 then .fault 9 h.ctr s
        else .ok (latheWait s l.val (.cwait h.ctr (sGet x st).toNat (lathePc s l.val)))

/-- The M slot's wait of Lathe `l` is over: the next bundle may issue, unless a tfence still holds it. A Lathe that has its commit
stays DRAINING. -/
def endWait (s : State) (l : Nat) : State :=
  let s := putLathe s l { latheAt s l with wait := .none }
  if latheState s l = 3 ∧ !(latheAt s l).tfence then setLatheState s l 2 else s

/-- CWAIT_SATISFIED (R289): the counter, of this controller or with the value `far` of another, holds the target. -/
def doCwaitSatisfied (l : Fin 128) (far : BitVec 64) (s : State) : State :=
  whenRunning s fun s =>
    match (latheAt s l.val).wait, latheKernel s l.val with
    | .cwait ctr target _, some k =>
      (match handleValue s k ⟨ctr, none⟩ far with
       | some v => if target ≤ v.toNat then endWait s l.val else s
       | none => s)
    | _, _ => s

/-- CWAIT_TIMEOUT (R287): the wait fails. -/
def doCwaitTimeout (l : Fin 128) (s : State) : State :=
  whenRunning s fun s =>
    match (latheAt s l.val).wait with
    | .cwait ctr _ pc => if (latheKernel s l.val).isSome then latheFaultAt s l.val 9 1 pc ctr else s
    | _ => s

/-- CREAD. -/
def doCread (l : Fin 128) (sd : BitVec 5) (ch : BitVec 4) (far : BitVec 64) (last : Bool) (s : State) : State :=
  slot l 1 true last s fun x s => onHandle l.val x ch s fun s k h =>
    match handleValue s k h far with
    | none => .fault 6 h.ctr s
    | some v => .ok (stage s l.val (.sreg sd.toNat v))

/-- A fence: the next bundle waits while a spool descriptor is in flight. Stores are served at issue in this model. -/
def spoolFence (l : Fin 128) (w : LWait) (last : Bool) (s : State) : State :=
  slot l 1 false last s fun x s => .ok (if x.spool = [] then s else latheWait s l.val w)

def doMfence (l : Fin 128) (last : Bool) (s : State) : State := spoolFence l .mfence last s
def doMdrain (l : Fin 128) (last : Bool) (s : State) : State := spoolFence l .mdrain last s

/-- MFENCE_DONE and MDRAIN_DONE: what the fence waits for has been served. -/
def fenceDone (l : Nat) (w : LWait) (s : State) : State :=
  whenRunning s fun s =>
    if (latheAt s l).wait = w ∧ (latheAt s l).spool = [] then endWait s l else s

def doMfenceDone (l : Fin 128) (s : State) : State := fenceDone l.val .mfence s
def doMdrainDone (l : Fin 128) (s : State) : State := fenceDone l.val .mdrain s

def execMload (l : Fin 128) (vd : BitVec 5) (ag : BitVec 4) (last : Bool) (s : State) : Host.Outcome State Fault Refusal :=
  .next (doMload l vd ag last s)
def execMstore (l : Fin 128) (vs : BitVec 5) (ag : BitVec 4) (last : Bool) (s : State) : Host.Outcome State Fault Refusal :=
  .next (doMstore l vs ag last s)
def execSld (l : Fin 128) (sd : BitVec 5) (ag : BitVec 4) (last : Bool) (s : State) : Host.Outcome State Fault Refusal :=
  .next (doSld l sd ag last s)
def execSst (l : Fin 128) (sa : BitVec 5) (ag : BitVec 4) (last : Bool) (s : State) : Host.Outcome State Fault Refusal :=
  .next (doSst l sa ag last s)
def execMspool (l : Fin 128) (dix : BitVec 10) (sa sb : BitVec 5) (last : Bool) (s : State) : Host.Outcome State Fault Refusal :=
  .next (doMspool l dix sa sb last s)
def execCarm (l : Fin 128) (ch : BitVec 4) (last : Bool) (s : State) : Host.Outcome State Fault Refusal :=
  .next (doCarm l ch last s)
def execCwait (l : Fin 128) (ch : BitVec 4) (st so : BitVec 5) (far : BitVec 64) (last : Bool) (s : State) :
    Host.Outcome State Fault Refusal := .next (doCwait l ch st so far last s)
def execCwaitSatisfied (l : Fin 128) (far : BitVec 64) (s : State) : Host.Outcome State Fault Refusal :=
  .next (doCwaitSatisfied l far s)
def execCwaitTimeout (l : Fin 128) (s : State) : Host.Outcome State Fault Refusal := .next (doCwaitTimeout l s)
def execCread (l : Fin 128) (sd : BitVec 5) (ch : BitVec 4) (far : BitVec 64) (last : Bool) (s : State) :
    Host.Outcome State Fault Refusal := .next (doCread l sd ch far last s)
def execMfence (l : Fin 128) (last : Bool) (s : State) : Host.Outcome State Fault Refusal := .next (doMfence l last s)
def execMfenceDone (l : Fin 128) (s : State) : Host.Outcome State Fault Refusal := .next (doMfenceDone l s)
def execMdrain (l : Fin 128) (last : Bool) (s : State) : Host.Outcome State Fault Refusal := .next (doMdrain l last s)
def execMdrainDone (l : Fin 128) (s : State) : Host.Outcome State Fault Refusal := .next (doMdrainDone l s)

end Sys2Proof.Machine
end

