-- ==== Sys2Proof/Machine/Scalar.lean ====
section
/-! DEFINITION. Machine/Scalar.lean: the S slot of the Lathes (R273 to R280, R307). -/

namespace Sys2Proof.Machine

/-- An S slot instruction of three registers. -/
def sOp (l : Fin 128) (sd sa sb : BitVec 5) (last : Bool) (f : Word → Word → Word) (s : State) : State :=
  slot l 0 true last s fun x s => .ok (stage s l.val (.sreg sd.toNat (f (sGet x sa) (sGet x sb))))

/-- An S slot instruction that writes one register from values other than registers. -/
def sImm (l : Fin 128) (sd : BitVec 5) (reads last : Bool) (f : Lathe → State → Word) (s : State) : State :=
  slot l 0 reads last s fun x s => .ok (stage s l.val (.sreg sd.toNat (f x s)))

def doSli (l : Fin 128) (sd : BitVec 5) (imm : BitVec 16) (last : Bool) (s : State) : State :=
  sImm l sd false last (fun _ _ => imm.signExtend 64) s
def doSlui (l : Fin 128) (sd : BitVec 5) (imm : BitVec 16) (last : Bool) (s : State) : State :=
  sImm l sd true last (fun x _ => (sGet x sd <<< 16) ||| imm.zeroExtend 64) s
def doSadd (l : Fin 128) (sd sa sb : BitVec 5) (last : Bool) (s : State) : State := sOp l sd sa sb last (fun a b => a + b) s
def doSsub (l : Fin 128) (sd sa sb : BitVec 5) (last : Bool) (s : State) : State := sOp l sd sa sb last (fun a b => a - b) s
def doSmul (l : Fin 128) (sd sa sb : BitVec 5) (last : Bool) (s : State) : State := sOp l sd sa sb last (fun a b => a * b) s
def doSand (l : Fin 128) (sd sa sb : BitVec 5) (last : Bool) (s : State) : State := sOp l sd sa sb last (fun a b => a &&& b) s
def doSor (l : Fin 128) (sd sa sb : BitVec 5) (last : Bool) (s : State) : State := sOp l sd sa sb last (fun a b => a ||| b) s
def doSxor (l : Fin 128) (sd sa sb : BitVec 5) (last : Bool) (s : State) : State := sOp l sd sa sb last (fun a b => a ^^^ b) s
def doSshl (l : Fin 128) (sd sa sb : BitVec 5) (last : Bool) (s : State) : State :=
  sOp l sd sa sb last (fun a b => a <<< (b.toNat % 64)) s
def doSshr (l : Fin 128) (sd sa sb : BitVec 5) (last : Bool) (s : State) : State :=
  sOp l sd sa sb last (fun a b => a >>> (b.toNat % 64)) s
def doSsra (l : Fin 128) (sd sa sb : BitVec 5) (last : Bool) (s : State) : State :=
  sOp l sd sa sb last (fun a b => a.sshiftRight (b.toNat % 64)) s
def doSaddi (l : Fin 128) (sd sa : BitVec 5) (imm : BitVec 14) (last : Bool) (s : State) : State :=
  sImm l sd true last (fun x _ => sGet x sa + imm.signExtend 64) s
def doSmin (l : Fin 128) (sd sa sb : BitVec 5) (last : Bool) (s : State) : State :=
  sOp l sd sa sb last (fun a b => if a.slt b then a else b) s
def doSmax (l : Fin 128) (sd sa sb : BitVec 5) (last : Bool) (s : State) : State :=
  sOp l sd sa sb last (fun a b => if a.slt b then b else a) s

/-- The parameter `p` of the kernel on Lathe `l`. -/
def latheParam (s : State) (l p : Nat) : Word :=
  match latheKernel s l with
  | some k => BitVec.ofNat 64 (k.param p)
  | none => 0

def doSparam (l : Fin 128) (sd : BitVec 5) (p : BitVec 8) (last : Bool) (s : State) : State :=
  sImm l sd false last (fun _ s => latheParam s l.val p.toNat) s

/-- Identity items (the table under R273). -/
def idItem (x : Lathe) (s : State) (l k : Nat) : Nat :=
  if k = 0 then x.rank
  else if k = 1 then (match latheKernel s l with | some q => q.lathes.length | none => 0)
  else if k = 2 then l
  else if k = 3 then ownCtrl s
  else match (x.loops.reverse)[k - 4]? with
    | some v => v.iter
    | none => 0

/-- SID: items 8 to 15 are undefined and raise ILLEGAL. -/
def doSid (l : Fin 128) (sd : BitVec 5) (k : BitVec 4) (last : Bool) (s : State) : State :=
  slot l 0 false last s fun x s =>
    if 8 ≤ k.toNat then .fault 1 0 s
    else .ok (stage s l.val (.sreg sd.toNat (BitVec.ofNat 64 (idItem x s l.val k.toNat))))

/-- LOOP (R275): `n1` and `len1` are one less than the trips and the body's bundles. -/
def doLoop (l : Fin 128) (len1 n1 : BitVec 12) (last : Bool) (s : State) : State :=
  slot l 0 false last s fun x s => .ok (putLathe s l.val { x with opening := some (n1.toNat + 1, len1.toNat + 1) })

/-- LOOP_P (R275): the trip count is the low 32 bits of a parameter. -/
def doLoopP (l : Fin 128) (len1 : BitVec 12) (p : BitVec 8) (last : Bool) (s : State) : State :=
  slot l 0 false last s fun x s =>
    .ok (putLathe s l.val { x with opening := some ((latheParam s l.val p.toNat).toNat % 2 ^ 32, len1.toNat + 1) })

/-- ASET (R278); field codes 11 to 15 raise ILLEGAL (R279). -/
def doAset (l : Fin 128) (ad f : BitVec 4) (sa : BitVec 5) (last : Bool) (s : State) : State :=
  slot l 0 true last s fun x s =>
    if 11 ≤ f.toNat then .fault 1 0 s else .ok (stage s l.val (.agen ad.toNat f.toNat (sGet x sa)))

def doAget (l : Fin 128) (sd : BitVec 5) (ad : BitVec 4) (last : Bool) (s : State) : State :=
  sImm l sd true last (fun x _ => (aGet x ad).ptr.zeroExtend 64) s

/-- COMMIT (R307): at the end of its bundle the Lathe enters DRAINING. -/
def doCommit (l : Fin 128) (last : Bool) (s : State) : State :=
  slot l 0 false last s fun x s => .ok (putLathe s l.val { x with commit := true })

/-- NOP (R274). -/
def doNop (l : Fin 128) (last : Bool) (s : State) : State := slot l 0 false last s fun _ s => .ok s

/-- ILLEGAL_BUNDLE (R274): an undefined opcode or operand in slot `no`. -/
def doIllegalBundle (l : Fin 128) (no : Fin 4) (s : State) : State :=
  slot l no.val false false s fun _ s => .fault 1 0 s

/-- NOCOMMIT_FAULT (R309): the program counter is past the last bundle. -/
def doNocommitFault (l : Fin 128) (s : State) : State :=
  whenRunning s fun s =>
    if latheState s l.val = 2 ∧ (latheAt s l.val).ncode ≤ lathePc s l.val ∧ !(latheAt s l.val).stopped then latheFault s l.val 3 0 0 else s

def execSli (l : Fin 128) (sd : BitVec 5) (imm : BitVec 16) (last : Bool) (s : State) : Host.Outcome State Fault Refusal :=
  .next (doSli l sd imm last s)
def execSlui (l : Fin 128) (sd : BitVec 5) (imm : BitVec 16) (last : Bool) (s : State) : Host.Outcome State Fault Refusal :=
  .next (doSlui l sd imm last s)
def execSadd (l : Fin 128) (sd sa sb : BitVec 5) (last : Bool) (s : State) : Host.Outcome State Fault Refusal :=
  .next (doSadd l sd sa sb last s)
def execSsub (l : Fin 128) (sd sa sb : BitVec 5) (last : Bool) (s : State) : Host.Outcome State Fault Refusal :=
  .next (doSsub l sd sa sb last s)
def execSmul (l : Fin 128) (sd sa sb : BitVec 5) (last : Bool) (s : State) : Host.Outcome State Fault Refusal :=
  .next (doSmul l sd sa sb last s)
def execSand (l : Fin 128) (sd sa sb : BitVec 5) (last : Bool) (s : State) : Host.Outcome State Fault Refusal :=
  .next (doSand l sd sa sb last s)
def execSor (l : Fin 128) (sd sa sb : BitVec 5) (last : Bool) (s : State) : Host.Outcome State Fault Refusal :=
  .next (doSor l sd sa sb last s)
def execSxor (l : Fin 128) (sd sa sb : BitVec 5) (last : Bool) (s : State) : Host.Outcome State Fault Refusal :=
  .next (doSxor l sd sa sb last s)
def execSshl (l : Fin 128) (sd sa sb : BitVec 5) (last : Bool) (s : State) : Host.Outcome State Fault Refusal :=
  .next (doSshl l sd sa sb last s)
def execSshr (l : Fin 128) (sd sa sb : BitVec 5) (last : Bool) (s : State) : Host.Outcome State Fault Refusal :=
  .next (doSshr l sd sa sb last s)
def execSsra (l : Fin 128) (sd sa sb : BitVec 5) (last : Bool) (s : State) : Host.Outcome State Fault Refusal :=
  .next (doSsra l sd sa sb last s)
def execSmin (l : Fin 128) (sd sa sb : BitVec 5) (last : Bool) (s : State) : Host.Outcome State Fault Refusal :=
  .next (doSmin l sd sa sb last s)
def execSmax (l : Fin 128) (sd sa sb : BitVec 5) (last : Bool) (s : State) : Host.Outcome State Fault Refusal :=
  .next (doSmax l sd sa sb last s)
def execSaddi (l : Fin 128) (sd sa : BitVec 5) (imm : BitVec 14) (last : Bool) (s : State) : Host.Outcome State Fault Refusal :=
  .next (doSaddi l sd sa imm last s)
def execSparam (l : Fin 128) (sd : BitVec 5) (p : BitVec 8) (last : Bool) (s : State) : Host.Outcome State Fault Refusal :=
  .next (doSparam l sd p last s)
def execSid (l : Fin 128) (sd : BitVec 5) (k : BitVec 4) (last : Bool) (s : State) : Host.Outcome State Fault Refusal :=
  .next (doSid l sd k last s)
def execLoop (l : Fin 128) (len1 n1 : BitVec 12) (last : Bool) (s : State) : Host.Outcome State Fault Refusal :=
  .next (doLoop l len1 n1 last s)
def execLoopP (l : Fin 128) (len1 : BitVec 12) (p : BitVec 8) (last : Bool) (s : State) : Host.Outcome State Fault Refusal :=
  .next (doLoopP l len1 p last s)
def execAset (l : Fin 128) (ad f : BitVec 4) (sa : BitVec 5) (last : Bool) (s : State) : Host.Outcome State Fault Refusal :=
  .next (doAset l ad f sa last s)
def execAget (l : Fin 128) (sd : BitVec 5) (ad : BitVec 4) (last : Bool) (s : State) : Host.Outcome State Fault Refusal :=
  .next (doAget l sd ad last s)
def execCommit (l : Fin 128) (last : Bool) (s : State) : Host.Outcome State Fault Refusal := .next (doCommit l last s)
def execNop (l : Fin 128) (last : Bool) (s : State) : Host.Outcome State Fault Refusal := .next (doNop l last s)
def execIllegalBundle (l : Fin 128) (no : Fin 4) (s : State) : Host.Outcome State Fault Refusal := .next (doIllegalBundle l no s)
def execNocommitFault (l : Fin 128) (s : State) : Host.Outcome State Fault Refusal := .next (doNocommitFault l s)

end Sys2Proof.Machine
end

