-- ==== Sys2Proof/Machine/Spool.lean ====
section
/-! DEFINITION. Machine/Spool.lean: a spool moves the bytes of a descriptor (R71, R291 to R296, R347). -/

namespace Sys2Proof.Machine

/-- Where a descriptor's bytes stopped: a fault with its address, or a wait for what has been set off. -/
inductive SpoolRun (α : Type) where
  | ok (a : α) (s : State)
  | fault (code addr : Nat) (s : State)
  | wait (s : State)

/-- Read the next `n` lines of a source from global address `ga` (R292), behind those that it holds. -/
def spoolRead (s : State) (k : Kernel) (lathe : Bool) (ga : Nat) (ext : Ext) (got : List LineData) (n : Nat) : List LineData × SpoolRun Unit :=
  match n with
  | 0 => (got, .ok () s)
  | m + 1 =>
    match kRead s k lathe ga (ext.at ga) with
    | .fault c s => (got, .fault c ga s)
    | .wait s => (got, .wait s)
    | .ok d s => spoolRead s k lathe (ga + 64) ext (got ++ [d]) m

/-- The source lines that destination line `pos.moved` needs are read (R291): a plain copy holds one, a transform the leading ones. -/
def spoolFill (s : State) (k : Kernel) (lathe : Bool) (d : Desc) (ext : Ext) (pos : SpoolPos) : SpoolPos × SpoolRun Unit :=
  let j := pos.moved
  let (a, n) := if d.plainCopy then (d.src + 64 * j, (if j < d.srcBytes / 64 ∧ d.op ≠ 2 then 1 else 0) - pos.src.length)
    else (d.src + 64 * pos.src.length, d.needs j - pos.src.length)
  match spoolRead s k lathe a ext pos.src n with
  | (got, r) => ({ pos with src := got }, r)

/-- The value of destination line `pos.moved`. -/
def spoolValue (d : Desc) (pos : SpoolPos) : LineData :=
  if d.op = 2 then 0 else if d.plainCopy then (pos.src.head?).getD 0 else d.line pos.src pos.moved

/-- The global addresses that a descriptor writes: DST, or DST[49:0] in the slice of every member of its group (R296, R543). -/
def spoolDests (s : State) (d : Desc) : List Nat :=
  if d.op ≠ 1 then [d.dst] else (groupTargets s d.mcast).map (fun t => t * 2 ^ 50 + d.dst % 2 ^ 50)

/-- Is controller `c` a peer of the box? -/
def boxPeer (s : State) (c : Nat) : Bool := decide (c / 16 = regFld s rAddrSelf 9 4) && c != ownCtrl s

/-- A line for a multicast group enters the switch core (R542 to R544): its targets are those of the group now. One cell goes to those of
the box and to the gateway; outputs to peers are held until the commit point (R30). The targets at this controller and behind the gateway
take it afterwards. A peer that no port reaches answers Err FLUSHED (R518, R520). -/
def castEnter (s : State) (k : Kernel) (d : Desc) (pos : SpoolPos) (v : LineData) : SpoolPos × SpoolRun Unit :=
  let off := d.dst % 2 ^ 50 + 64 * pos.moved
  let ga := fun (c : Nat) => c * 2 ^ 50 + off
  let ts := groupTargets s d.mcast
  if agentHeld s k.port then (pos, .wait s)
  else if ts = [] then ({ pos with moved := pos.moved + 1, src := if d.plainCopy then [] else pos.src }, .ok () (swEvent s 5 0))
  else
    let peers := ts.filter (boxPeer s)
    let mine := ts.filter (fun c => !boxPeer s c)
    let outs := mine.map (fun c => (if c = ownCtrl s then agentPort off else 40, c))
    let next := { pos with left := some mine }
    if off < 2 ^ 49 then
      match peers.find? (fun c => !k.outOk (ga c)) with
      | some c => (pos, .fault 6 (ga c) s)
      | none =>
        let s := forEach peers s (fun s c => match kWriteFar s k (ga c) v (some d.mcast) with
          | .ok _ s => s
          | _ => s)
        (next, .ok () (if outs = [] then s else sendMulticast s k d.mcast off outs [] (.kwrite k.win k.eng) v))
    else
      let s := sendMulticast s k d.mcast off outs (peers.filter (peerUp s)) (.kwrite k.win k.eng) v
      match peers.find? (fun c => !peerUp s c) with
      | some c => (next, .fault 17 (ga c) s)
      | none => (next, .ok () s)

/-- The targets at this controller and behind the gateway take a line of a multicast group, one after the other. -/
def castTake (s : State) (k : Kernel) (off : Nat) (v : LineData) (ts : List Nat) : List Nat × SpoolRun Unit :=
  match ts with
  | [] => ([], .ok () s)
  | c :: rest =>
    match kWrite ctlLine s (k.at noPort) (c * 2 ^ 50 + off) v with
    | .fault e s => (ts, .fault e (c * 2 ^ 50 + off) s)
    | .wait s => (ts, .wait s)
    | .ok _ s => castTake s k off v rest

/-- Write destination line `pos.moved`, to DST or to the members of the group (R293, R296). -/
def spoolWrite (s : State) (k : Kernel) (d : Desc) (pos : SpoolPos) : SpoolPos × SpoolRun Unit :=
  let v := spoolValue d pos
  let next : SpoolPos := { moved := pos.moved + 1, src := if d.plainCopy then [] else pos.src, left := none }
  if d.op ≠ 1 then
    let da := d.dst + 64 * pos.moved
    match kWrite ctlLine s k da v with
    | .fault c s => (pos, .fault c da s)
    | .wait s => (pos, .wait s)
    | .ok _ s => (next, .ok () s)
  else
    match (match pos.left with
      | none => castEnter s k d pos v
      | some _ => (pos, .ok () s)) with
    | (pos, .ok _ s) =>
      (match pos.left with
       | none => (pos, .ok () s)
       | some ts =>
         match castTake s k (d.dst % 2 ^ 50 + 64 * pos.moved) v ts with
         | (_, .ok _ s) => (next, .ok () s)
         | (ts, r) => ({ pos with left := some ts }, r))
    | r => r

/-- Move up to `n` destination lines of a descriptor (R291): each is written once the source lines that it is made of are there. -/
def spoolMove (s : State) (k : Kernel) (lathe : Bool) (d : Desc) (ext : Ext) (pos : SpoolPos) (n : Nat) : SpoolPos × SpoolRun Unit :=
  match n with
  | 0 => (pos, .ok () s)
  | m + 1 =>
    match (if pos.left.isSome then (pos, .ok () s) else spoolFill s k lathe d ext pos) with
    | (pos, .ok _ s) =>
      (match spoolWrite s k d pos with
       | (pos, .ok _ s) => spoolMove s k lathe d ext pos m
       | r => r)
    | r => r

/-- The destination lines of a descriptor that are not written yet. -/
def SpoolPos.due (p : SpoolPos) (d : Desc) : Nat := d.lines - p.moved

/-- The bytes of the home or draft range of this controller that a transfer moves on the stream links, with the offset of the
first (R262): the other end is a Chuck of this controller. -/
def streamPart (s : State) (a b n : Nat) : Option (Nat × Nat) :=
  match route s a, route s b with
  | .own x, .own y =>
    (match target x, target y with
     | .home, .chuck _ _ => some (x, n)
     | .draft _ _, .chuck _ _ => some (x, n)
     | _, _ => none)
  | _, _ => none

/-- Count a transfer: the spool's bytes by where they went, and the stream links' bytes by home agent (R705). -/
def spoolCount (s : State) (lathe : Option Nat) (k : Kernel) (d : Desc) : State :=
  let gas := spoolDests s d
  let s := match lathe with
    | none => s
    | some l => forEach gas s (fun s ga => match route s ga with
      | .own off => (match target off with
        | .chuck c _ => pmc s l (if c = l then 8 else 9) d.dstBytes (some k.dom)
        | _ => pmc s l 9 d.dstBytes (some k.dom))
      | _ => pmc s l 9 d.dstBytes (some k.dom))
  let parts := gas.filterMap (fun ga => streamPart s ga d.src d.dstBytes) ++
    (if d.op = 2 then [] else gas.filterMap (fun ga => streamPart s d.src ga d.srcBytes))
  forEach parts s (fun s p =>
    forEach (List.range (p.2 / 4096)) s (fun s i => pmc s (176 + homeOf (p.1 + 4096 * i)) 8 4096 (some k.dom)))

/-- A descriptor completes: it is counted, and it names its source no more (R62). -/
def spoolDone (s : State) (lathe : Option Nat) (k : Kernel) (d : Desc) : State :=
  let s := spoolCount s lathe k d
  if d.op = 2 then s else unnameUnits s k d.src d.srcBytes

/-- A home-side spool's descriptor faults (R294): the completion record's ENGINE has no number for a home-side spool, so that one
field is a free value. -/
def homeSpoolFault (s : State) (sp w code addr : Nat) : State :=
  let (n, s) := drawFree s
  kernelFaultAt s w ((Config.freeWord n).toNat % 2 ^ 16) 6 sp code addr []

/-- What home-side spool `sp` has in flight, in the order in which the schedule entries fired (R347). -/
def hspoolQueue (s : State) (sp : Nat) : List (Kernel × HSpool) :=
  (s.kernels.flatMap (fun kern => (kern.hspool.filter (fun h => h.spool == sp && kern.live)).map (fun h => (kern, h)))).foldl
    (fun l e => l.takeWhile (fun x => decide (x.2.seq ≤ e.2.seq)) ++ e :: l.dropWhile (fun x => decide (x.2.seq ≤ e.2.seq))) []

/-- The engine that moves a descriptor: at its switch port, or on the stream links between the homes and the Chucks of this controller
(R262, R297). -/
def spoolEngine (s : State) (k : Kernel) (d : Desc) : Kernel :=
  if d.op ≠ 1 ∧ ((streamPart s d.src d.dst 0).isSome ∨ (streamPart s d.dst d.src 0).isSome) then k.at noPort else k

/-- Have the descriptors before the first `j` of a list moved all their bytes (R291)? -/
def spoolTurn (l : List (List Word × SpoolPos)) (j : Nat) : Bool := (l.take j).all (fun e => e.2.due (Desc.ofWords e.1) == 0)

/-- Descriptor `j` of those in flight on the spool of Lathe `l` moves up to `n` lines, as far as they can be had, once those before it
have moved theirs (R291), and stays in flight. Whether it has moved all comes back. -/
def moveEntry (s : State) (l j n : Nat) (ext : Ext) : Bool × State :=
  let es := (latheAt s l).spool
  match latheKernel s l, es[j]? with
  | some kern, some e =>
    let d := Desc.ofWords e.words
    let put := fun (s : State) (p : SpoolPos) => putLathe s l { latheAt s l with spool := (latheAt s l).spool.set j { e with pos := p } }
    if !spoolTurn (es.map (fun e => (e.words, e.pos))) j then (false, s)
    else (match spoolMove s (spoolEngine s kern d) true d ext e.pos (min n (e.pos.due d)) with
      | (_, .fault c a s) => (false, latheFaultAt s l c 1 e.pc a)
      | (p, .wait s) => (false, put s p)
      | (p, .ok _ s) => (p.due d == 0, put s p))
  | _, _ => (false, s)

/-- The same of descriptor `j` of home-side spool `sp`, at whose switch port its home sits; one that R294 refuses faults. -/
def moveHome (s : State) (sp j n : Nat) (ext : Ext) : Bool × State :=
  let q := hspoolQueue s sp
  match q[j]? with
  | none => (false, s)
  | some (kern, h) =>
    let d := Desc.ofWords h.desc
    let put := fun (s : State) (p : SpoolPos) => match kernelOf s kern.win with
      | some x => putKernel s { x with hspool := x.hspool.map (fun y => if y = h then { h with pos := p } else y) }
      | none => s
    if !spoolTurn (q.map (fun e => (e.2.desc, e.2.pos))) j then (false, s)
    else if !d.ok s then (false, homeSpoolFault s sp kern.win 7 h.entry)
    else (match spoolMove s (spoolEngine s (kern.at (18 + sp)) d) false d ext h.pos (min n (h.pos.due d)) with
      | (_, .fault c a s) => (false, homeSpoolFault s sp kern.win c a)
      | (p, .wait s) => (false, put s p)
      | (p, .ok _ s) => (p.due d == 0, put s p))

/-- The lines of the largest blank (R294). -/
def allLines : Nat := 16384

/-- SPOOL_DESC_DONE (R291): descriptor `k` of those in flight on a spool, the Lathes' 0 to 127 or a home-side spool 128 to 135,
moves the bytes it has not moved yet and completes, after those issued before it have moved theirs. `ext` brings the source lines that other controllers have answered. -/
def doSpoolDescDone (spool : Fin 136) (k : Fin 64) (ext : Ext) (s : State) : State :=
  whenRunning s fun s =>
    if spool.val < 128 then
      let l := spool.val
      let s := forEach (List.range k.val) s (fun s j => (moveEntry s l j allLines ext).2)
      match moveEntry s l k.val allLines ext with
      | (false, s) => s
      | (true, s) =>
        match latheKernel s l, (latheAt s l).spool[k.val]? with
        | some kern, some e =>
          spoolDone (putLathe s l { latheAt s l with spool := (latheAt s l).spool.eraseIdx k.val }) (some l) kern (Desc.ofWords e.words)
        | _, _ => s
    else
      let sp := spool.val - 128
      let s := forEach (List.range k.val) s (fun s j => (moveHome s sp j allLines ext).2)
      match moveHome s sp k.val allLines ext with
      | (false, s) => s
      | (true, s) =>
        match (hspoolQueue s sp)[k.val]? with
        | none => s
        | some (kern, h) =>
          let s := match kernelOf s kern.win with
            | some x => putKernel s { x with hspool := x.hspool.erase h }
            | none => s
          spoolDone s none kern (Desc.ofWords h.desc)

/-- One arithmetic cycle of the spool of Lathe `l` (R291): the first descriptor in issue order that has bytes left to write moves up to 512
of them; those behind it wait. -/
def spoolTick (s : State) (l : Nat) : State :=
  match (latheAt s l).spool.findIdx? (fun e => e.pos.due (Desc.ofWords e.words) != 0) with
  | some j => (moveEntry s l j 8 []).2
  | none => s

/-- The same of home-side spool `sp` (R347). -/
def homeSpoolTick (s : State) (sp : Nat) : State :=
  match (hspoolQueue s sp).findIdx? (fun e => e.2.pos.due (Desc.ofWords e.2.desc) != 0) with
  | some j => (moveHome s sp j 8 []).2
  | none => s

/-- ERR_FLUSHED_RECEIVED (R519, R520): the engine stops and its kernel aborts with ABORTED; ADDR holds the flushed address. A home-side
spool receives it for the descriptor that it moves. -/
def doErrFlushedReceived (engine : Flushed) (addr : BitVec 60) (s : State) : State :=
  whenRunning s fun s =>
    match engine with
    | .engine (.lathe n) => if latheBusy s n.val then latheFault s n.val 17 0 addr.toNat else s
    | .engine (.gctx n) => if regFld s (rGctx n.val 0) 2 0 = 0 then s else ctxFault s n.val 17 addr.toNat
    | .engine (.kite n) => if regFld s (rKite n.val 0) 2 0 = 0 then s else kiteFault s n.val 17 addr.toNat
    | .spool h =>
      match hspoolQueue s h.val with
      | e :: _ => homeSpoolFault s h.val e.1.win 17 addr.toNat
      | [] => s

-- EXEC
def execErrFlushedReceived (engine : Flushed) (addr : BitVec 60) (s : State) : Host.Outcome State Fault Refusal :=
  .next (doErrFlushedReceived engine addr s)
def execSpoolDescDone (spool : Fin 136) (k : Fin 64) (ext : List FarLine) (s : State) :
    Host.Outcome State Fault Refusal :=
  .next (doSpoolDescDone spool k ext s)

end Sys2Proof.Machine
end

