-- ==== Sys2Proof/Machine/Tailstock.lean ====
section
/-! DEFINITION. Machine/Tailstock.lean: the Tailstock monitor on the UART, and the test access port (R744 to R755). -/

namespace Sys2Proof.Machine

/-- Does Tailstock serve the UART (R747, R748)? -/
def tsAvail (s : State) : Bool := s.stbyUp && (!s.production || s.tsEn)

/-- A session starts: a BOOT entry with CODE 10 (R750). -/
def tsStart (s : State) : State := if s.tsOpen then s else bootLog { s with tsOpen := true } 10 none 0

/-- Run a command line: its first character starts a session when none has started. -/
def tsRun (s : State) (f : State → State) : State := if tsAvail s then f (tsStart s) else s

/-- TS_SESSION_START (R750): the first character. `tsEn` is the strap, which is sampled continuously (R732). -/
def doTsSessionStart (tsEn : Bool) (s : State) : State := tsRun { s with tsEn := tsEn } (fun s => s)

/-- TS_EN_FALL (R749): the session ends; a slot write that has begun goes on. -/
def doTsEnFall (s : State) : State := { s with tsEn := false, tsOpen := false, tsWait := none }

def boolNat (b : Bool) : Nat := if b then 1 else 0

/-- stat. -/
def doTsStat (s : State) : State :=
  tsRun s fun s => tsText s 0 0 [(reg s (rBoot 0)).toNat, (regView s (rPwr 8)).toNat, (regView s (rRecov 8)).toNat,
    (reg s (rRecov 0x10)).toNat, boolNat s.tsEn, boolNat s.production]

/-- rd. -/
def doTsRd (off : BitVec 64) (s : State) : State :=
  tsRun s fun s =>
    if 2 ^ 28 ≤ off.toNat then tsText s 1 tsAddr []
    else
      let (w, s) := mgmtRead s off.toNat
      tsText s 1 0 [w.toNat]

/-- wr. -/
def doTsWr (off v : BitVec 64) (s : State) : State :=
  tsRun s fun s =>
    let (bad, s) := mgmtWrite s off.toNat v
    tsText s 2 (if bad then tsAccess else 0) []

/-- Is a line's answer to come to this controller? A line of a box peer, and one of a home that is not READY, has none
(assumption 25). -/
def tsAwaits (s : State) (a : Nat) : Bool :=
  match route s a with
  | .peer slot _ => !peerUp s (regFld s rAddrSelf 9 4 * 16 + slot)
  | .gateway _ _ => !uplinkUp s || decide (a % 2 ^ 50 < 2 ^ 49)
  | .own off => decide (2 ^ 49 ≤ off) || homeReady s (homeOf off)
  | .fault => true

/-- Do a command's line accesses (R751): its closing line comes once each that is to be answered is. -/
def tsAccesses (s : State) (cmd : Nat) (as : List Nat) (f : State → Nat → Nat → State) : State :=
  if s.tsWait.isSome then s
  else
    let due := (as.zipIdx.filter (fun p => tsAwaits s p.1)).map (fun p => 4032 + p.2)
    if due == [] then tsText (forEach as.zipIdx s (fun s p => f s p.1 (4032 + p.2))) cmd 0 []
    else forEach as.zipIdx { s with tsWait := some (cmd, due, 0) } (fun s p => f s p.1 (4032 + p.2))

/-- mrd: 1 to 64 lines by RdNC in domain 0. -/
def doTsMrd (addr : BitVec 60) (lines : BitVec 8) (s : State) : State :=
  tsRun s fun s =>
    if !running s ∨ lines.toNat < 1 ∨ 64 < lines.toNat ∨ addr.toNat % 64 ≠ 0 then tsText s 3 tsAddr []
    else tsAccesses s 3 ((List.range lines.toNat).map (fun i => addr.toNat + 64 * i)) fun s a t =>
      lineAccess .rdnc .mgmt (BitVec.ofNat 12 t) a 0 0 (ownCtrl s) s

/-- mwr: a full-line write in domain 0. -/
def doTsMwr (addr : BitVec 60) (data : LineData) (s : State) : State :=
  tsRun s fun s =>
    if !running s ∨ addr.toNat % 64 ≠ 0 then tsText s 4 tsAddr []
    else tsAccesses s 4 [addr.toNat] fun s a t => lineAccess .wrline .mgmt (BitVec.ofNat 12 t) a data allBytes (ownCtrl s) s

/-- log: every held entry of the class, oldest first, and ERR_OVF_c. -/
def doTsLog (cls : Fin 12) (s : State) : State :=
  tsRun s fun s =>
    let c := cls.val
    let old := regFld s (rErrHead c) 55 48
    let ws := (List.range (regFld s (rErrHead c) 63 56)).flatMap (fun i =>
      (List.range 8).map (fun j => (reg s (rErrLog c ((old + i) % 64) + 8 * j)).toNat))
    tsText s 5 0 (ws ++ [(reg s (rErrOvf c)).toNat])

/-- ack. -/
def doTsAck (cls : Fin 12) (n : BitVec 8) (s : State) : State := tsRun s fun s => tsText (doErrAck cls n s) 6 0 []

/-- dump: lines of a dump slot from a byte offset. -/
def doTsDump (slot : Fin 2) (off : BitVec 64) (lines : BitVec 16) (s : State) : State :=
  tsRun s fun s =>
    if off.toNat % 64 ≠ 0 ∨ 838860800 < off.toNat + 64 * lines.toNat then tsText s 7 tsAddr []
    else
      let w := fun (i : Nat) => match s.dumps.find? (fun e => e.1 == slot.val) with
        | some e => (Config.dumpWord e.2.tag (off.toNat + 8 * i)).toNat
        | none => 0
      tsText s 7 0 ((List.range (8 * lines.toNat)).map w)

/-- inj: KIND in the low four bits of an injection register, ARG from bit 8 up. -/
def doTsInj (off : BitVec 64) (kind : BitVec 4) (arg : BitVec 24) (s : State) : State :=
  tsRun s fun s =>
    let v := kind.toNat + 256 * arg.toNat
    if off.toNat % 8 ≠ 0 ∨ !regUp s off.toNat then tsText s 8 tsAccess []
    else match writeInj s off.toNat v with
      | none => tsText s 8 tsAccess []
      | some t => tsText t 8 0 []

/-- recover reset: a whole-device reset, which ends the rip panel (R608). -/
def doTsRecoverReset (s : State) : State := tsRun s fun s => wholeReset (tsText s 9 0 []) 0

/-- recover boot: a whole-device reset in which Headstock enters recovery boot after step 3. -/
def doTsRecoverBoot (s : State) : State := tsRun s fun s => wholeReset { (tsText s 10 0 []) with forceRecovery := true } 0

/-- load (R754): a whole image received by XMODEM. -/
def doTsLoad (image : List (BitVec 8)) (s : State) : State :=
  tsRun s fun s =>
    match imagePart { s with imgRx := if s.imgWrite.isSome then s.imgRx else ⟨0, []⟩ } 2 0 image.length image with
    | (some _, _, s) => tsText s 11 tsBusy []
    | (none, _, s) =>
      match imageAct s with
      | (some c, s) => tsText s 11 (tsCode c) []
      | (none, s) => tsText s 11 0 []

/-- enrol (R755): the digest of a public key of 1,793 B goes into an owner key slot. -/
def doTsEnrol (slot : Fin 4) (key : List (BitVec 8)) (s : State) : State :=
  tsRun s fun s =>
    if !s.tsEn then tsText s 12 tsStrap []
    else if regBit s (rBoot 0xB0) slot.val then tsText s 12 tsEnrolled []
    else if bootState s = 1 then tsText s 12 tsBusy []
    else if key.length ≠ 1793 then s
    else
      let s := setBit { s with owner := Sparse.set s.owner slot.val 0 (Config.shake256 key) } (rBoot 0xB0) slot.val
      tsText (bootLog s 11 none slot.val) 12 0 []

/-! Test access (R744 to R746). -/

/-- The fast domain is off: EXTEST, CLAMP and HIGHZ take effect. -/
def fastOff (s : State) : Bool := decide (pwrState s < 3)

/-- Load the instruction register of the test access port, and do `f`. -/
def tapLoad (s : State) (op : Nat) (f : State → State) : State := if s.stbyUp then f { s with jtag := op } else s

/-- The bypass register: one bit, which captures 0. -/
def tapBypass (s : State) : State := send s (.tdo [false])

/-- Drive the balls of the boundary register from its update latches. -/
def tapDrive (s : State) : State := forEach s.boundary s (fun s e => send s (.pin (200 + e.1) e.2))

/-- Update latches of the boundary register's 22 balls: straps, board control, PMBus, SPI NOR and UART. -/
def tapLatch (s : State) (vals : List (Fin 22 × Bool)) : State :=
  forEach vals s (fun s v => { s with boundary := Sparse.set s.boundary v.1.val false v.2 })

/-- EXTEST: the captured levels `pins` are shifted out, and `vals` are latched and driven. -/
def doExtest (pins : List Bool) (vals : List (Fin 22 × Bool)) (s : State) : State :=
  tapLoad s 0 fun s => if fastOff s then tapDrive (tapLatch (send s (.tdo (pins.take 22))) vals) else tapBypass s

/-- SAMPLE/PRELOAD: as EXTEST, but the balls stay as they are. -/
def doSamplePreload (pins : List Bool) (vals : List (Fin 22 × Bool)) (s : State) : State :=
  tapLoad s 1 fun s => tapLatch (send s (.tdo (pins.take 22))) vals

/-- IDCODE (R745), least significant bit first. -/
def doIdcode (s : State) : State := tapLoad s 2 fun s => send s (.tdo ((List.range 32).map (fun i => (0x2748056B : Nat).testBit i)))

/-- CLAMP: the balls are driven from the latches, and the bypass register is shifted. -/
def doClamp (s : State) : State := tapLoad s 4 fun s => tapBypass (if fastOff s then tapDrive s else s)

/-- HIGHZ: the outputs float while the instruction register holds it and the fast domain is off. -/
def doHighz (s : State) : State := tapLoad s 5 tapBypass

/-- BYPASS, with any opcode that names no other instruction. -/
def doBypass (opcode : BitVec 8) (s : State) : State :=
  if [0, 1, 2, 4, 5].contains opcode.toNat then s else tapLoad s opcode.toNat tapBypass

-- EXEC
def execTsEnFall (s : State) : Host.Outcome State Fault Refusal := .next (doTsEnFall s)
def execTsSessionStart (tsEn : Bool) (s : State) : Host.Outcome State Fault Refusal := .next (doTsSessionStart tsEn s)
def execTsStat (s : State) : Host.Outcome State Fault Refusal := .next (doTsStat s)
def execTsRd (off : BitVec 64) (s : State) : Host.Outcome State Fault Refusal := .next (doTsRd off s)
def execTsWr (off v : BitVec 64) (s : State) : Host.Outcome State Fault Refusal := .next (doTsWr off v s)
def execTsMrd (addr : BitVec 60) (lines : BitVec 8) (s : State) : Host.Outcome State Fault Refusal :=
  .next (doTsMrd addr lines s)
def execTsMwr (addr : BitVec 60) (data : BitVec 512) (s : State) : Host.Outcome State Fault Refusal :=
  .next (doTsMwr addr data s)
def execTsLog (cls : Fin 12) (s : State) : Host.Outcome State Fault Refusal := .next (doTsLog cls s)
def execTsAck (cls : Fin 12) (n : BitVec 8) (s : State) : Host.Outcome State Fault Refusal := .next (doTsAck cls n s)
def execTsDump (slot : Fin 2) (off : BitVec 64) (lines : BitVec 16) (s : State) : Host.Outcome State Fault Refusal :=
  .next (doTsDump slot off lines s)
def execTsInj (off : BitVec 64) (kind : BitVec 4) (arg : BitVec 24) (s : State) : Host.Outcome State Fault Refusal :=
  .next (doTsInj off kind arg s)
def execTsRecoverReset (s : State) : Host.Outcome State Fault Refusal := .next (doTsRecoverReset s)
def execTsRecoverBoot (s : State) : Host.Outcome State Fault Refusal := .next (doTsRecoverBoot s)
def execTsLoad (image : List (BitVec 8)) (s : State) : Host.Outcome State Fault Refusal := .next (doTsLoad image s)
def execTsEnrol (slot : Fin 4) (key : List (BitVec 8)) (s : State) : Host.Outcome State Fault Refusal :=
  .next (doTsEnrol slot key s)
def execExtest (pins : List Bool) (vals : List (Fin 22 × Bool)) (s : State) : Host.Outcome State Fault Refusal :=
  .next (doExtest pins vals s)
def execSamplePreload (pins : List Bool) (vals : List (Fin 22 × Bool)) (s : State) : Host.Outcome State Fault Refusal :=
  .next (doSamplePreload pins vals s)
def execIdcode (s : State) : Host.Outcome State Fault Refusal := .next (doIdcode s)
def execClamp (s : State) : Host.Outcome State Fault Refusal := .next (doClamp s)
def execHighz (s : State) : Host.Outcome State Fault Refusal := .next (doHighz s)
def execBypass (opcode : BitVec 8) (s : State) : Host.Outcome State Fault Refusal := .next (doBypass opcode s)

end Sys2Proof.Machine
end

