-- ==== Sys2Proof/Machine/Tensor.lean ====
section
/-! DEFINITION. Machine/Tensor.lean: the T slot of the Lathes (R298 to R304, R327 to R329). -/

namespace Sys2Proof.Machine

/-- Rows and columns of a shape (R298). -/
def shapeRows (sh : Nat) : Nat := if sh = 0 then 40 else if sh = 1 then 20 else 10
def shapeCols (sh : Nat) : Nat := if sh = 0 then 64 else if sh = 1 then 128 else 256

/-- The format codes of A and B of a tmma by its opcode (the T slot table); 14 is T2. -/
def tmmaFmtA (op : Nat) : Nat :=
  match op with
  | 1 => 2 | 2 => 3 | 3 => 4 | 4 => 5 | 5 => 12 | 6 => 6 | 7 => 7 | 8 => 8 | 9 => 9 | 10 => 11 | 11 => 10 | 12 => 13
  | 13 => 6 | 14 => 4 | _ => 12
def tmmaFmtB (op : Nat) : Nat :=
  if op = 13 then 10 else if op = 14 ∨ op = 15 then 14 else tmmaFmtA op

/-- Does A or B take scale stripes (R301)? -/
def scaledA (op : Nat) : Bool := (decide (6 ≤ op) && decide (op ≤ 11)) || op == 13
def scaledB (op : Nat) : Bool := scaledA op || op == 14 || op == 15

/-- Why a stripe of `n` bytes at the address `p` is refused (R300): it leaves Lathe `l`'s own Chuck, or it is not aligned. -/
def stripeFault (l n align : Nat) (p : BitVec 30) : Option Nat :=
  let (c, x) := chuckAddr p
  if c ≠ l ∨ 6 * 2 ^ 20 < x + n then some 4
  else if x % align ≠ 0 then some 5
  else none

/-- Read a stripe of `n` bytes of Lathe `l`'s own Chuck. -/
def stripe (s : State) (k : Kernel) (n : Nat) (p : BitVec 30) : KAcc Nat :=
  let (c, x) := chuckAddr p
  match chuckRead s k c (x / 64 * 64) ((x % 64 + n + 63) / 64) with
  | .ok ds s => .ok (linesNum ds / 2 ^ (8 * (x % 64)) % 2 ^ (8 * n)) s
  | .fault e s => .fault e s
  | .wait s => .wait s

/-- Read stripes of `n` bytes in turn. A fault brings its code and its address. -/
def stripes (k : Kernel) (n : Nat) (ps : List (BitVec 30)) (s : State) : (List Nat × State) ⊕ (Nat × Nat × State) :=
  match ps with
  | [] => .inl ([], s)
  | p :: rest =>
    match stripe s k n p with
    | .ok v s =>
      (match stripes k n rest s with
       | .inl (vs, s) => .inl (v :: vs, s)
       | .inr e => .inr e)
    | .fault e s => .inr (e, chuckGa s p, s)
    | .wait s => .inr (4, chuckGa s p, s)

/-- The largest power of two that divides a stripe's size (R300). -/
def stripeAlign (n : Nat) : Nat := if n = 48 then 16 else if n = 96 then 32 else if n = 192 then 64 else n

/-- Elements of `w` bits of a stripe. -/
def stripeElems (v w n : Nat) : List Nat := (List.range n).map (fun i => v / 2 ^ (w * i) % 2 ^ w)

/-- Is B in the T2 format? -/
def opT2 (op : Nat) : Bool := op == 14 || op == 15

/-- Bits of an element of A, and of an element of B or of a T2 group of 32 weights (R300). -/
def tmmaBitsA (op : Nat) : Nat := fmtBits (tmmaFmtA op)
def tmmaBitsB (op : Nat) : Nat := if opT2 op then 64 else fmtBits (tmmaFmtB op)

/-- Bytes of an A stripe and of a B stripe (R300). -/
def tmmaBytesA (op : Nat) : Nat := if tmmaBitsA op = 16 then 128 else 64
def tmmaBytesB (op shape : Nat) : Nat := shapeCols shape * tmmaBitsB op / 8

/-- The stripes of a tmma (R300, R301): A, B, the scales of A and the scales of B, each at its generator's next addresses. Generators
that are the same one are used in that order. -/
def tmmaEntry (x : Lathe) (op : Nat) (td : BitVec 3) (aA aB : BitVec 4) (kb : BitVec 10) (acc : Bool) (shape : BitVec 2) (pc : Nat) :
    Tmma :=
  let blocks := kb.toNat + 1
  let gb := if aA = aB then (aGet x aA).uses false (32 * blocks) else aGet x aB
  let sb := if aA = aB ∧ scaledA op then gb.uses true blocks else gb
  { op := op, td := td.toNat, shape := shape.toNat, blocks := blocks, acc := acc, pc := pc
    a := (aGet x aA).addrs false (32 * blocks)
    b := gb.addrs false (if opT2 op then blocks else 32 * blocks)
    sa := (aGet x aA).addrs true (if scaledA op then blocks else 0)
    sb := sb.addrs true (if scaledB op then blocks else 0) }

/-- The first refused stripe of a tmma on Lathe `l`: its fault and its address. -/
def Tmma.fault (t : Tmma) (l : Nat) : Option (Nat × BitVec 30) :=
  let nb := tmmaBytesB t.op t.shape
  let na := tmmaBytesA t.op
  let cols := shapeCols t.shape
  let at2 := fun (n align : Nat) (ps : List (BitVec 30)) => ps.findSome? (fun p => (stripeFault l n align p).map (fun e => (e, p)))
  ((at2 na na t.a).or (at2 nb (stripeAlign nb) t.b)).or ((at2 64 64 t.sa).or (at2 cols cols t.sb))

/-- A tmma reads its operands (R300 to R302). -/
def readTmma (s : State) (k : Kernel) (t : Tmma) : (Tmma × State) ⊕ (Nat × Nat × State) :=
  let rows := shapeRows t.shape
  let cols := shapeCols t.shape
  match stripes k (tmmaBytesA t.op) t.a s with
  | .inr e => .inr e
  | .inl (va, s) =>
  match stripes k (tmmaBytesB t.op t.shape) t.b s with
  | .inr e => .inr e
  | .inl (vb, s) =>
  match stripes k 64 t.sa s with
  | .inr e => .inr e
  | .inl (sa, s) =>
  match stripes k cols t.sb s with
  | .inr e => .inr e
  | .inl (sb, s) =>
    let v : TmmaVals :=
      { a := va.map (fun v => stripeElems v (tmmaBitsA t.op) rows), sa := sa.map (fun v => stripeElems v 8 rows)
        b := vb.map (fun v => stripeElems v (tmmaBitsB t.op) cols), sb := sb.map (fun v => stripeElems v 8 cols) }
    .inl ({ t with vals := some v }, s)

/-- The generators' uses of a tmma, staged for the end of its bundle (R281). -/
def tmmaUses (s : State) (l : Nat) (aA aB : BitVec 4) (t : Tmma) : State :=
  stage (stage (stage (stage s l (.uses aA.toNat t.a.length false)) l (.uses aB.toNat t.b.length false))
    l (.uses aA.toNat t.sa.length true)) l (.uses aB.toNat t.sb.length true)

/-- A tmma takes its entry of the tensor queue (R302) and is counted. -/
def tmmaQueued (s : State) (l : Nat) (k : Kernel) (aA aB : BitVec 4) (t : Tmma) : State :=
  let s := tmmaUses s l aA aB t
  let y := latheAt s l
  putLathe (pmc s l 7 1 (some k.dom)) l { y with tqNew := true, tq := y.tq ++ [.tmma t] }

/-- A tmma's issue (R300 to R302): its stripes' addresses are checked and it takes a tensor queue entry. In an empty queue it starts,
and reads its operands. -/
def tmma (l : Fin 128) (op : Nat) (td : BitVec 3) (aA aB : BitVec 4) (kb : BitVec 10) (acc : Bool) (shape : BitVec 2)
    (last : Bool) (s : State) : State :=
  slot l 2 true last s fun x s =>
    if shape = 3 then .fault 1 0 s
    else if 4 ≤ x.tq.length then .stall
    else match latheKernel s l.val with
      | none => .stall
      | some k =>
        let t := tmmaEntry x op td aA aB kb acc shape (lathePc s l.val)
        match t.fault l.val with
        | some (e, p) => .fault e (chuckGa s p) s
        | none =>
          match (if x.tq = [] then readTmma s k t else .inl (t, s)) with
          | .inr (e, a, s) => .fault e a s
          | .inl (t, s) => .ok (tmmaQueued s l.val k aA aB t)

/-- Element (r, c) of a tmma (R327): the blocks in order, each added with one rounding. -/
def tmmaElem (op blocks : Nat) (start : Nat) (a sa b sb : List (List Nat)) (r c : Nat) : Nat :=
  let at2 := fun (m : List (List Nat)) (i j : Nat) => (((m[i]?).getD [])[j]?).getD 0
  (List.range blocks).foldl (fun acc bl =>
    let ps := (List.range 32).map (fun j =>
      let k := 32 * bl + j
      (elemVal (tmmaFmtA op) (at2 a k r),
       if op = 14 ∨ op = 15 then elemVal 14 (at2 b bl c / 4 ^ j % 4) else elemVal (tmmaFmtB op) (at2 b k c)))
    let v := blockVal ps (if scaledA op then scaleVal (at2 sa bl r) else .fin false 1 0)
      (if scaledB op then scaleVal (at2 sb bl c) else .fin false 1 0)
    -- the integer formats have one zero (R329)
    let v := match v with
      | .fin sg m e => if m = 0 ∧ (op = 5 ∨ op = 10 ∨ op = 12 ∨ op = 15) then .fin false 0 0 else .fin sg m e
      | w => w
    toF32 ((f32 acc).add v)) start

/-- Element `i` of a tile. -/
def tileElem (t : TileData) (i : Nat) : Nat := t.toNat / 2 ^ (32 * i) % 2 ^ 32

/-- Part `part` of a tile: 256 elements. -/
def tilePart (t : TileData) (part : Nat) : VecData := BitVec.ofNat 8192 (t.toNat / 2 ^ (8192 * part))

/-- A tile with a part replaced. -/
def tilePut (t : TileData) (part : Nat) (v : VecData) : TileData :=
  BitVec.ofNat 81920 (t.toNat - (t.toNat / 2 ^ (8192 * part) % 2 ^ 8192) * 2 ^ (8192 * part) + v.toNat * 2 ^ (8192 * part))

def setTile (x : Lathe) (td : Nat) (t : TileData) : Lathe := { x with t := Sparse.set x.t td 0 t }

/-- What a tensor queue entry writes. A tread of the bundle that is still issuing writes its register with the bundle's other writes: no
slot of the bundle sees it (R268, R270). -/
def runTq (x : Lathe) (e : TqEnt) : Lathe :=
  match e with
  | .tmma t =>
    (match t.vals with
     | none => x
     | some v =>
       let old := Sparse.get x.t t.td 0
       let cols := shapeCols t.shape
       setTile x t.td (BitVec.ofNat 81920 ((List.range 2560).foldr (fun i n =>
         tmmaElem t.op t.blocks (if t.acc then tileElem old i else 0) v.a v.sa v.b v.sb (i / cols) (i % cols) + 2 ^ 32 * n) 0)))
  | .tzero td => setTile x td 0
  | .tread vd ts part =>
    let v := tilePart (Sparse.get x.t ts 0) part
    if x.stage.contains (.mark vd) then { x with stage := x.stage.map (fun w => if w = .mark vd then .vreg vd v else w) }
    else { x with v := Sparse.set x.v vd 0 v }
  | .tload td part d => setTile x td (tilePut (Sparse.get x.t td 0) part d)

def TqEnt.isTmma (e : TqEnt) : Bool :=
  match e with
  | .tmma _ => true
  | _ => false

/-- Run the queue's head entries until a tmma is at the head (R302, R303). -/
def drainTq (n : Nat) (x : Lathe) : Lathe :=
  match n, x.tq with
  | m + 1, e :: rest => if e.isTmma then x else drainTq m (runTq { x with tq := rest } e)
  | _, _ => x

/-- Entry `i` of the tensor queue of Lathe `l` starts: a tmma that has not read its operands reads them. -/
def startTq (s : State) (l i : Nat) : State :=
  let x := latheAt s l
  match x.tq[i]?, latheKernel s l with
  | some (.tmma t), some k =>
    if t.vals.isSome then s
    else
      (match readTmma s k t with
       | .inr (e, a, s) => latheFaultAt s l e 2 t.pc a
       | .inl (t, s) => putLathe s l { latheAt s l with tq := (latheAt s l).tq.set i (.tmma t) })
  | _, _ => s

/-- TMMA_WRITEBACK (R302): the tmma at the head writes its tile and frees its entry; the tensor instructions behind it that
are no tmma follow in order, and the next tmma starts. -/
def doTmmaWriteback (l : Fin 128) (s : State) : State :=
  whenRunning s fun s =>
    let x := latheAt s l.val
    if !([2, 3, 4].contains (latheState s l.val)) then s
    else match x.tq with
      | e :: rest =>
        if e.isTmma then
          let y := drainTq 4 (runTq { x with tq := rest } e)
          startTq (tagEnded (putLathe s l.val y) l.val (x.tq.length - y.tq.length)
            (((kernelOf s x.win).map (fun k => k.dom)).getD 0)) l.val 0
        else s
      | [] => s

/-- A tzero, tread or tload (R303): it runs at once when the tensor queue is empty, and takes an entry otherwise. -/
def tensorOp (s : State) (l : Nat) (e : TqEnt) (now : Lathe → Lathe) : Slot :=
  let x := latheAt s l
  if x.tq = [] then .ok (putLathe s l (now x))
  else if 4 ≤ x.tq.length then .stall
  else .ok (putLathe s l { x with tqNew := true, tq := x.tq ++ [e] })

def doTzero (l : Fin 128) (td : BitVec 3) (last : Bool) (s : State) : State :=
  slot l 2 false last s fun _ s => tensorOp s l.val (.tzero td.toNat) (fun x => runTq x (.tzero td.toNat))

def doTread (l : Fin 128) (vd : BitVec 5) (ts : BitVec 3) (part : BitVec 4) (last : Bool) (s : State) : State :=
  slot l 2 true last s fun x s =>
    if 10 ≤ part.toNat then .fault 1 0 s
    else if vPending x vd then .stall
    else if x.tq = [] then .ok (stage s l.val (.vreg vd.toNat (tilePart (tGet x ts) part.toNat)))
    else tensorOp (stage s l.val (.mark vd.toNat)) l.val (.tread vd.toNat ts.toNat part.toNat) id

def doTload (l : Fin 128) (td : BitVec 3) (vs : BitVec 5) (part : BitVec 4) (last : Bool) (s : State) : State :=
  slot l 2 true last s fun x s =>
    if 10 ≤ part.toNat then .fault 1 0 s
    else if vPending x vs then .stall
    else tensorOp s l.val (.tload td.toNat part.toNat (vGet x vs)) (fun x => runTq x (.tload td.toNat part.toNat (vGet x vs)))

/-- TFENCE (R304): the next bundle waits while a tmma is in the queue. -/
def tfenceWait (s : State) (l : Nat) : State := setLatheState (putLathe s l { latheAt s l with tfence := true }) l 3

def doTfence (l : Fin 128) (last : Bool) (s : State) : State :=
  slot l 2 false last s fun x s => .ok (if x.tq.any TqEnt.isTmma then tfenceWait s l.val else s)

/-- The tfence of Lathe `l` holds its next bundle no more; the M slot's wait still may. -/
def endTfence (s : State) (l : Nat) : State :=
  let s := putLathe s l { latheAt s l with tfence := false }
  if latheState s l = 3 ∧ (latheAt s l).wait = .none then setLatheState s l 2 else s

/-- TFENCE_DONE: every earlier tmma has finished reading. -/
def doTfenceDone (l : Fin 128) (s : State) : State :=
  whenRunning s fun s =>
    if (latheAt s l.val).tfence then
      endTfence (forEach (List.range (latheAt s l.val).tq.length) s (fun s i => startTq s l.val i)) l.val
    else s

def execTmmaBf16 (l : Fin 128) (td : BitVec 3) (aA aB : BitVec 4) (kb : BitVec 10) (acc : Bool) (shape : BitVec 2) (last : Bool) (s : State) :
    Host.Outcome State Fault Refusal := .next (tmma l 1 td aA aB kb acc shape last s)
def execTmmaFp16 (l : Fin 128) (td : BitVec 3) (aA aB : BitVec 4) (kb : BitVec 10) (acc : Bool) (shape : BitVec 2) (last : Bool) (s : State) :
    Host.Outcome State Fault Refusal := .next (tmma l 2 td aA aB kb acc shape last s)
def execTmmaE4m3 (l : Fin 128) (td : BitVec 3) (aA aB : BitVec 4) (kb : BitVec 10) (acc : Bool) (shape : BitVec 2) (last : Bool) (s : State) :
    Host.Outcome State Fault Refusal := .next (tmma l 3 td aA aB kb acc shape last s)
def execTmmaE5m2 (l : Fin 128) (td : BitVec 3) (aA aB : BitVec 4) (kb : BitVec 10) (acc : Bool) (shape : BitVec 2) (last : Bool) (s : State) :
    Host.Outcome State Fault Refusal := .next (tmma l 4 td aA aB kb acc shape last s)
def execTmmaInt8 (l : Fin 128) (td : BitVec 3) (aA aB : BitVec 4) (kb : BitVec 10) (acc : Bool) (shape : BitVec 2) (last : Bool) (s : State) :
    Host.Outcome State Fault Refusal := .next (tmma l 5 td aA aB kb acc shape last s)
def execTmmaMxfp8 (l : Fin 128) (td : BitVec 3) (aA aB : BitVec 4) (kb : BitVec 10) (acc : Bool) (shape : BitVec 2) (last : Bool) (s : State) :
    Host.Outcome State Fault Refusal := .next (tmma l 6 td aA aB kb acc shape last s)
def execTmmaMxfp8e5 (l : Fin 128) (td : BitVec 3) (aA aB : BitVec 4) (kb : BitVec 10) (acc : Bool) (shape : BitVec 2) (last : Bool) (s : State) :
    Host.Outcome State Fault Refusal := .next (tmma l 7 td aA aB kb acc shape last s)
def execTmmaMxfp6 (l : Fin 128) (td : BitVec 3) (aA aB : BitVec 4) (kb : BitVec 10) (acc : Bool) (shape : BitVec 2) (last : Bool) (s : State) :
    Host.Outcome State Fault Refusal := .next (tmma l 8 td aA aB kb acc shape last s)
def execTmmaMxfp6e3 (l : Fin 128) (td : BitVec 3) (aA aB : BitVec 4) (kb : BitVec 10) (acc : Bool) (shape : BitVec 2) (last : Bool) (s : State) :
    Host.Outcome State Fault Refusal := .next (tmma l 9 td aA aB kb acc shape last s)
def execTmmaMxint8 (l : Fin 128) (td : BitVec 3) (aA aB : BitVec 4) (kb : BitVec 10) (acc : Bool) (shape : BitVec 2) (last : Bool) (s : State) :
    Host.Outcome State Fault Refusal := .next (tmma l 10 td aA aB kb acc shape last s)
def execTmmaMxfp4 (l : Fin 128) (td : BitVec 3) (aA aB : BitVec 4) (kb : BitVec 10) (acc : Bool) (shape : BitVec 2) (last : Bool) (s : State) :
    Host.Outcome State Fault Refusal := .next (tmma l 11 td aA aB kb acc shape last s)
def execTmmaInt4 (l : Fin 128) (td : BitVec 3) (aA aB : BitVec 4) (kb : BitVec 10) (acc : Bool) (shape : BitVec 2) (last : Bool) (s : State) :
    Host.Outcome State Fault Refusal := .next (tmma l 12 td aA aB kb acc shape last s)
def execTmmaMxfp4x8 (l : Fin 128) (td : BitVec 3) (aA aB : BitVec 4) (kb : BitVec 10) (acc : Bool) (shape : BitVec 2) (last : Bool) (s : State) :
    Host.Outcome State Fault Refusal := .next (tmma l 13 td aA aB kb acc shape last s)
def execTmmaT2 (l : Fin 128) (td : BitVec 3) (aA aB : BitVec 4) (kb : BitVec 10) (acc : Bool) (shape : BitVec 2) (last : Bool) (s : State) :
    Host.Outcome State Fault Refusal := .next (tmma l 14 td aA aB kb acc shape last s)
def execTmmaT2i (l : Fin 128) (td : BitVec 3) (aA aB : BitVec 4) (kb : BitVec 10) (acc : Bool) (shape : BitVec 2) (last : Bool) (s : State) :
    Host.Outcome State Fault Refusal := .next (tmma l 15 td aA aB kb acc shape last s)
def execTmmaWriteback (l : Fin 128) (s : State) : Host.Outcome State Fault Refusal := .next (doTmmaWriteback l s)
def execTzero (l : Fin 128) (td : BitVec 3) (last : Bool) (s : State) : Host.Outcome State Fault Refusal :=
  .next (doTzero l td last s)
def execTread (l : Fin 128) (vd : BitVec 5) (ts : BitVec 3) (part : BitVec 4) (last : Bool) (s : State) :
    Host.Outcome State Fault Refusal := .next (doTread l vd ts part last s)
def execTload (l : Fin 128) (td : BitVec 3) (vs : BitVec 5) (part : BitVec 4) (last : Bool) (s : State) :
    Host.Outcome State Fault Refusal := .next (doTload l td vs part last s)
def execTfence (l : Fin 128) (last : Bool) (s : State) : Host.Outcome State Fault Refusal := .next (doTfence l last s)
def execTfenceDone (l : Fin 128) (s : State) : Host.Outcome State Fault Refusal := .next (doTfenceDone l s)

end Sys2Proof.Machine
end

