-- ==== Sys2Proof/Machine/Vector.lean ====
section
/-! DEFINITION. Machine/Vector.lean: the V slot of the Lathes (R305, R306, R330 to R341). A lane is an FP32 bit pattern as a
number. -/

namespace Sys2Proof.Machine

/-- Lane `i` of a vector. -/
def lane (v : VecData) (i : Nat) : Nat := v.toNat / 2 ^ (32 * i) % 2 ^ 32

/-- The lanes of a vector, lane 0 first. -/
def lanes (v : VecData) : List Nat := (List.range 256).map (lane v)

/-- A vector from its first lanes; the others are zero. -/
def ofLanes (ls : List Nat) : VecData := BitVec.ofNat 8192 (ls.foldr (fun a n => a + 2 ^ 32 * n) 0)

/-- A V slot instruction: it stalls while a register it reads or writes awaits a tread (R267). -/
def vSlot (l : Fin 128) (regs : List (BitVec 5)) (last : Bool) (s : State) (f : Lathe → Option Stage) : State :=
  slot l 3 true last s fun x s =>
    if regs.any (vPending x) then .stall
    else match f x with
      | some w => .ok (stage s l.val w)
      | none => .fault 1 0 s

/-- A lane-wise instruction of one operand. -/
def vMap1 (l : Fin 128) (vd va : BitVec 5) (last : Bool) (f : Nat → Nat) (s : State) : State :=
  vSlot l [vd, va] last s fun x => some (.vreg vd.toNat (ofLanes ((lanes (vGet x va)).map f)))

/-- A lane-wise instruction of two operands. -/
def vMap2 (l : Fin 128) (vd va vb : BitVec 5) (last : Bool) (f : Nat → Nat → Nat) (s : State) : State :=
  vSlot l [vd, va, vb] last s fun x => some (.vreg vd.toNat (ofLanes (List.zipWith f (lanes (vGet x va)) (lanes (vGet x vb)))))

/-- A lane-wise instruction of three operands. -/
def vMap3 (l : Fin 128) (vd va vb vc : BitVec 5) (last : Bool) (f : Nat → Nat → Nat → Nat) (s : State) : State :=
  vSlot l [vd, va, vb, vc] last s fun x =>
    some (.vreg vd.toNat (ofLanes ((List.range 256).map (fun i => f (lane (vGet x va) i) (lane (vGet x vb) i) (lane (vGet x vc) i)))))

def doVadd (l : Fin 128) (vd va vb : BitVec 5) (last : Bool) (s : State) : State := vMap2 l vd va vb last fadd s
def doVsub (l : Fin 128) (vd va vb : BitVec 5) (last : Bool) (s : State) : State := vMap2 l vd va vb last fsub s
def doVmul (l : Fin 128) (vd va vb : BitVec 5) (last : Bool) (s : State) : State := vMap2 l vd va vb last fmul s
def doVfma (l : Fin 128) (vd va vb vc : BitVec 5) (last : Bool) (s : State) : State := vMap3 l vd va vb vc last ffma s
def doVmax (l : Fin 128) (vd va vb : BitVec 5) (last : Bool) (s : State) : State := vMap2 l vd va vb last fmax s
def doVmin (l : Fin 128) (vd va vb : BitVec 5) (last : Bool) (s : State) : State := vMap2 l vd va vb last fmin s
def doVabs (l : Fin 128) (vd va : BitVec 5) (last : Bool) (s : State) : State := vMap1 l vd va last (fun a => a % 2 ^ 31) s
def doVneg (l : Fin 128) (vd va : BitVec 5) (last : Bool) (s : State) : State :=
  vMap1 l vd va last (fun a => a % 2 ^ 31 + (if a < 2 ^ 31 then 2 ^ 31 else 0)) s
/-- VSEL: a lane of vc is non-zero when one of its bits is set. -/
def doVsel (l : Fin 128) (vd va vb vc : BitVec 5) (last : Bool) (s : State) : State :=
  vMap3 l vd va vb vc last (fun a b c => if c ≠ 0 then a else b) s

/-- The comparison of VCMP by its MOD (R331). -/
def vcmpBool (mod : Nat) (a b : Nat) : Bool :=
  match mod with
  | 0 => feq a b
  | 1 => flt a b
  | 2 => fle a b
  | _ => !feq a b

/-- VCMP: MOD 4 and above raise ILLEGAL (R274). -/
def doVcmp (l : Fin 128) (vd va vb : BitVec 5) (mod : BitVec 4) (last : Bool) (s : State) : State :=
  vSlot l [vd, va, vb] last s fun x =>
    if 4 ≤ mod.toNat then none
    else some (.vreg vd.toNat (ofLanes (List.zipWith (fun a b => if vcmpBool mod.toNat a b then 2 ^ 32 - 1 else 0)
      (lanes (vGet x va)) (lanes (vGet x vb)))))

def doVexp (l : Fin 128) (vd va : BitVec 5) (last : Bool) (s : State) : State := vMap1 l vd va last fexp s
def doVlog (l : Fin 128) (vd va : BitVec 5) (last : Bool) (s : State) : State := vMap1 l vd va last flog s
def doVrcp (l : Fin 128) (vd va : BitVec 5) (last : Bool) (s : State) : State := vMap1 l vd va last frcp s
def doVrsqrt (l : Fin 128) (vd va : BitVec 5) (last : Bool) (s : State) : State := vMap1 l vd va last frsqrt s
def doVtanh (l : Fin 128) (vd va : BitVec 5) (last : Bool) (s : State) : State := vMap1 l vd va last ftanh s
def doVsigm (l : Fin 128) (vd va : BitVec 5) (last : Bool) (s : State) : State := vMap1 l vd va last fsigm s
def doVsin (l : Fin 128) (vd va : BitVec 5) (last : Bool) (s : State) : State := vMap1 l vd va last fsin s
def doVcos (l : Fin 128) (vd va : BitVec 5) (last : Bool) (s : State) : State := vMap1 l vd va last fcos s

/-- One level of the fixed tree (R332): neighbours are combined. -/
def pairUp (f : Nat → Nat → Nat) (l : List Nat) : List Nat :=
  (List.range (l.length / 2)).map (fun i => f ((l[2 * i]?).getD 0) ((l[2 * i + 1]?).getD 0))

/-- The tree's eight levels. -/
def treeFold (f : Nat → Nat → Nat) (n : Nat) (l : List Nat) : List Nat :=
  match n with
  | 0 => l
  | k + 1 => treeFold f k (pairUp f l)

def doVredsum (l : Fin 128) (vd va : BitVec 5) (last : Bool) (s : State) : State :=
  vSlot l [vd, va] last s fun x => some (.vreg vd.toNat (ofLanes (treeFold fadd 8 (lanes (vGet x va)))))
def doVredmax (l : Fin 128) (vd va : BitVec 5) (last : Bool) (s : State) : State :=
  vSlot l [vd, va] last s fun x => some (.vreg vd.toNat (ofLanes (treeFold fmax 8 (lanes (vGet x va)))))

/-- Running sums in lane order (R333). -/
def scanFrom (acc : Nat) (l : List Nat) : List Nat :=
  match l with
  | [] => []
  | a :: rest => fadd acc a :: scanFrom (fadd acc a) rest

def doVscan (l : Fin 128) (vd va : BitVec 5) (last : Bool) (s : State) : State :=
  vSlot l [vd, va] last s fun x => some (.vreg vd.toNat (ofLanes (match lanes (vGet x va) with
    | [] => []
    | a :: rest => a :: scanFrom a rest)))

/-- The rank of a lane in VARGMAX (R334): a NaN above every number, +0 above -0. -/
def argRank (a : Nat) : Int := if isNan32 a then 2 ^ 32 else rank32 a

/-- The lowest lane of the highest rank. -/
def argMax (l : List Nat) : Nat :=
  (l.foldl (fun (st : Nat × Nat × Option Int) a =>
    match st.2.2 with
    | some r => if r < argRank a then (st.1 + 1, st.1, some (argRank a)) else (st.1 + 1, st.2.1, some r)
    | none => (st.1 + 1, st.1, some (argRank a))) (0, 0, none)).2.1

def doVargmax (l : Fin 128) (sd va : BitVec 5) (last : Bool) (s : State) : State :=
  vSlot l [va] last s fun x => some (.sreg sd.toNat (BitVec.ofNat 64 (argMax (lanes (vGet x va)))))

/-- VFIRST: 256 when no lane satisfies it. -/
def doVfirst (l : Fin 128) (sd va vb : BitVec 5) (last : Bool) (s : State) : State :=
  vSlot l [va, vb] last s fun x =>
    some (.sreg sd.toNat (BitVec.ofNat 64 (((lanes (vGet x va)).findIdx? (fun a => fle (lane (vGet x vb) 0) a)).getD 256)))

def doVbcast (l : Fin 128) (vd sa : BitVec 5) (last : Bool) (s : State) : State :=
  vSlot l [vd] last s fun x => some (.vreg vd.toNat (ofLanes ((List.range 256).map (fun _ => (sGet x sa).toNat % 2 ^ 32))))

def doVext (l : Fin 128) (sd va : BitVec 5) (i : BitVec 8) (last : Bool) (s : State) : State :=
  vSlot l [va] last s fun x => some (.sreg sd.toNat (BitVec.ofNat 64 (lane (vGet x va) i.toNat)))

def doVrotl (l : Fin 128) (vd va : BitVec 5) (n : BitVec 8) (last : Bool) (s : State) : State :=
  vSlot l [vd, va] last s fun x =>
    some (.vreg vd.toNat (ofLanes ((List.range 256).map (fun i => lane (vGet x va) ((i + n.toNat) % 256)))))

/-- The formats of VCVT and VUNP (R305). -/
def cvtFmt (m : Nat) : Bool := [2, 3, 4, 5, 12, 13].contains m

/-- VCVT (R305, R325): 256 lanes go to part `part` of vd in format `mod`; the other parts stay. -/
def doVcvt (l : Fin 128) (vd va : BitVec 5) (part mod : BitVec 4) (last : Bool) (s : State) : State :=
  vSlot l [vd, va] last s fun x =>
    let w := fmtBits mod.toNat
    if !cvtFmt mod.toNat ∨ 32 / w ≤ part.toNat then none
    else
      let n := ((lanes (vGet x va)).map (fun a => toElem mod.toNat (f32 a))).foldr (fun a n => a + 2 ^ w * n) 0
      let old := (vGet x vd).toNat
      let p := 256 * w * part.toNat
      some (.vreg vd.toNat (BitVec.ofNat 8192 (old - old / 2 ^ p % 2 ^ (256 * w) * 2 ^ p + n * 2 ^ p)))

/-- VUNP (R305, R325): part `part` of va, in format `mod`, as 256 FP32 lanes. -/
def doVunp (l : Fin 128) (vd va : BitVec 5) (part mod : BitVec 4) (last : Bool) (s : State) : State :=
  vSlot l [vd, va] last s fun x =>
    let w := fmtBits mod.toNat
    if !cvtFmt mod.toNat ∨ 32 / w ≤ part.toNat then none
    else some (.vreg vd.toNat (ofLanes ((List.range 256).map (fun i =>
      toF32 (elemVal mod.toNat ((vGet x va).toNat / 2 ^ (w * (256 * part.toNat + i)) % 2 ^ w))))))

/-- VRNG (R339): u = (mix >> 40) × 2^-24, exact in FP32. -/
def doVrng (l : Fin 128) (vd sa sb : BitVec 5) (last : Bool) (s : State) : State :=
  vSlot l [vd] last s fun x =>
    some (.vreg vd.toNat (ofLanes ((List.range 256).map (fun i =>
      toF32 (.fin false ((mix (sGet x sa) (sGet x sb + BitVec.ofNat 64 i)).toNat / 2 ^ 40) (-24))))))

def execVadd (l : Fin 128) (vd va vb : BitVec 5) (last : Bool) (s : State) : Host.Outcome State Fault Refusal :=
  .next (doVadd l vd va vb last s)
def execVsub (l : Fin 128) (vd va vb : BitVec 5) (last : Bool) (s : State) : Host.Outcome State Fault Refusal :=
  .next (doVsub l vd va vb last s)
def execVmul (l : Fin 128) (vd va vb : BitVec 5) (last : Bool) (s : State) : Host.Outcome State Fault Refusal :=
  .next (doVmul l vd va vb last s)
def execVmax (l : Fin 128) (vd va vb : BitVec 5) (last : Bool) (s : State) : Host.Outcome State Fault Refusal :=
  .next (doVmax l vd va vb last s)
def execVmin (l : Fin 128) (vd va vb : BitVec 5) (last : Bool) (s : State) : Host.Outcome State Fault Refusal :=
  .next (doVmin l vd va vb last s)
def execVfma (l : Fin 128) (vd va vb vc : BitVec 5) (last : Bool) (s : State) : Host.Outcome State Fault Refusal :=
  .next (doVfma l vd va vb vc last s)
def execVsel (l : Fin 128) (vd va vb vc : BitVec 5) (last : Bool) (s : State) : Host.Outcome State Fault Refusal :=
  .next (doVsel l vd va vb vc last s)
def execVabs (l : Fin 128) (vd va : BitVec 5) (last : Bool) (s : State) : Host.Outcome State Fault Refusal :=
  .next (doVabs l vd va last s)
def execVneg (l : Fin 128) (vd va : BitVec 5) (last : Bool) (s : State) : Host.Outcome State Fault Refusal :=
  .next (doVneg l vd va last s)
def execVexp (l : Fin 128) (vd va : BitVec 5) (last : Bool) (s : State) : Host.Outcome State Fault Refusal :=
  .next (doVexp l vd va last s)
def execVlog (l : Fin 128) (vd va : BitVec 5) (last : Bool) (s : State) : Host.Outcome State Fault Refusal :=
  .next (doVlog l vd va last s)
def execVrcp (l : Fin 128) (vd va : BitVec 5) (last : Bool) (s : State) : Host.Outcome State Fault Refusal :=
  .next (doVrcp l vd va last s)
def execVrsqrt (l : Fin 128) (vd va : BitVec 5) (last : Bool) (s : State) : Host.Outcome State Fault Refusal :=
  .next (doVrsqrt l vd va last s)
def execVtanh (l : Fin 128) (vd va : BitVec 5) (last : Bool) (s : State) : Host.Outcome State Fault Refusal :=
  .next (doVtanh l vd va last s)
def execVsigm (l : Fin 128) (vd va : BitVec 5) (last : Bool) (s : State) : Host.Outcome State Fault Refusal :=
  .next (doVsigm l vd va last s)
def execVsin (l : Fin 128) (vd va : BitVec 5) (last : Bool) (s : State) : Host.Outcome State Fault Refusal :=
  .next (doVsin l vd va last s)
def execVcos (l : Fin 128) (vd va : BitVec 5) (last : Bool) (s : State) : Host.Outcome State Fault Refusal :=
  .next (doVcos l vd va last s)
def execVredsum (l : Fin 128) (vd va : BitVec 5) (last : Bool) (s : State) : Host.Outcome State Fault Refusal :=
  .next (doVredsum l vd va last s)
def execVredmax (l : Fin 128) (vd va : BitVec 5) (last : Bool) (s : State) : Host.Outcome State Fault Refusal :=
  .next (doVredmax l vd va last s)
def execVscan (l : Fin 128) (vd va : BitVec 5) (last : Bool) (s : State) : Host.Outcome State Fault Refusal :=
  .next (doVscan l vd va last s)
def execVargmax (l : Fin 128) (sd va : BitVec 5) (last : Bool) (s : State) : Host.Outcome State Fault Refusal :=
  .next (doVargmax l sd va last s)
def execVfirst (l : Fin 128) (sd va vb : BitVec 5) (last : Bool) (s : State) : Host.Outcome State Fault Refusal :=
  .next (doVfirst l sd va vb last s)
def execVbcast (l : Fin 128) (vd sa : BitVec 5) (last : Bool) (s : State) : Host.Outcome State Fault Refusal :=
  .next (doVbcast l vd sa last s)
def execVrng (l : Fin 128) (vd sa sb : BitVec 5) (last : Bool) (s : State) : Host.Outcome State Fault Refusal :=
  .next (doVrng l vd sa sb last s)
def execVcmp (l : Fin 128) (vd va vb : BitVec 5) (mod : BitVec 4) (last : Bool) (s : State) : Host.Outcome State Fault Refusal :=
  .next (doVcmp l vd va vb mod last s)
def execVext (l : Fin 128) (sd va : BitVec 5) (i : BitVec 8) (last : Bool) (s : State) : Host.Outcome State Fault Refusal :=
  .next (doVext l sd va i last s)
def execVrotl (l : Fin 128) (vd va : BitVec 5) (n : BitVec 8) (last : Bool) (s : State) : Host.Outcome State Fault Refusal :=
  .next (doVrotl l vd va n last s)
def execVcvt (l : Fin 128) (vd va : BitVec 5) (part mod : BitVec 4) (last : Bool) (s : State) : Host.Outcome State Fault Refusal :=
  .next (doVcvt l vd va part mod last s)
def execVunp (l : Fin 128) (vd va : BitVec 5) (part mod : BitVec 4) (last : Bool) (s : State) : Host.Outcome State Fault Refusal :=
  .next (doVunp l vd va part mod last s)

end Sys2Proof.Machine
end

