-- ==== Sys2Proof/Machine/Zct.lean ====
section
/-! DEFINITION. Machine/Zct.lean: ZCT blocks received by the command ports, their acknowledgements and resends (R563 to R573). -/

namespace Sys2Proof.Machine

/-! The receive buffers (R561, R568). -/

/-- The bytes of a received block in a buffer. -/
def zctBlkBytes (b : ZBlk) : Nat := zctBytes b.data.length

/-- The bytes that command port `p` holds for priority `c`: blocks beyond a gap. -/
def zctHeld (s : State) (p c : Nat) : Nat :=
  (s.sess.flatMap (fun e => if regFld s (rSess e.1) 42 40 = c then e.2.held.filter (fun b => b.reason == p) else [])).foldl
    (fun n b => n + zctBlkBytes b) 0

/-- The bytes that command port `p` holds. -/
def zctHeldAll (s : State) (p : Nat) : Nat := (List.range 8).foldl (fun n c => n + zctHeld s p c) 0

/-- Send XOFF for a priority that holds more than 1 MiB, XON for one that fell below 512 KiB (R561). -/
def pfcCheck (s : State) (p c : Nat) : State :=
  let k := 8 * p + c
  let n := zctHeld s p c
  if 2 ^ 20 < n ∧ !s.xoff.contains k then
    pmc (send (ethTx { s with xoff := Sparse.add s.xoff k } p 64) (.eth p 5 [c, 1])) (202 + p) 6 1 none
  else if n < 2 ^ 19 ∧ s.xoff.contains k then send (ethTx { s with xoff := Sparse.rem s.xoff k } p 64) (.eth p 5 [c, 0])
  else s

/-- Check every priority of both ports. -/
def pfcAll (s : State) : State := forEach (List.range 16) s (fun s k => pfcCheck s (k / 8) (k % 8))

/-! Acknowledgements (R567, R571). -/

/-- Send an acknowledgement. -/
def zctSendAck (s : State) (n : Nat) : State :=
  zctEmit (putSess s n { sessOf s n with unacked := 0 }) n { kind := 5, seq := 0, addr := 0, data := [] }

/-- A session is LOST (R571): its outbound blocks are dropped, and the log entry goes out as a fault report. -/
def zctLost (s : State) (n : Nat) : State :=
  let s := putSess s n { sessOf s n with out := [], wait := [] }
  ethEvent (regPut { s with pfcQ := s.pfcQ.filter (fun q => q.2.1 != n) } (rSstat n) 63 61 2) (regFld s (rSstat n) 60 60) 3 none

/-- Resend an outbound block; it is counted on the port that it goes to. After 16 resends of one block with no progress of ACK the session is
LOST (R571). -/
def zctResend (s : State) (n seq : Nat) : State :=
  let x := sessOf s n
  match x.out.find? (fun b => b.seq == seq) with
  | none => s
  | some b =>
    if 16 ≤ b.resends then zctLost s n else
    let b' := { b with resends := b.resends + 1 }
    let s := putSess s n { x with out := x.out.map (fun c => if c.seq == seq then b' else c) }
    zctEmit (incCnt s (rEth ((zctPort s n).getD (regFld s (rSstat n) 60 60)) 0x38)) n b'

/-- Move waiting blocks into the window of 256. -/
def zctAdmit (s : State) (n fuel : Nat) : State :=
  match fuel with
  | 0 => s
  | k + 1 =>
    let x := sessOf s n
    match x.wait with
    | [] => s
    | b :: rest =>
      if 256 ≤ x.out.length then s
      else zctAdmit (zctEmit (putSess s n { x with out := x.out ++ [b], wait := rest }) n b) n k

/-- What an ACK and SACK say (R567, R571): acknowledged blocks go, waiting ones are sent, and a block behind one that a SACK newly
covers is resent at once. -/
def zctAckIn (s : State) (n ack sack : Nat) : State :=
  let x := sessOf s n
  let left := x.out.filter (fun b => !seqLt b.seq ack)
  let moved := decide (left.length < x.out.length)
  let covered := fun (b : ZBlk) => let i := (b.seq + 2 ^ 32 - ack - 1) % 2 ^ 32; decide (i < 64) && sack.testBit i
  let news := left.filter (fun b => covered b && !b.fence)
  let left := left.map (fun b => { b with fence := b.fence || covered b, resends := if moved then 0 else b.resends })
  let s := zctAdmit (putSess s n { x with out := left }) n 256
  forEach (left.filter (fun b => !b.fence && news.any (fun c => seqLt b.seq c.seq))) s (fun s b => zctResend s n b.seq)

/-! Received blocks. -/

/-- A block that the controller discards (R564). The payload of a READ is empty: its LINES names the lines asked for. -/
def zctBad (s : State) (h : ZHdr) (data : List LineData) : Bool :=
  h.magic != 0x5A43 || decide (h.kind.toNat < 1) || decide (6 < h.kind.toNat) || h.rsv != 0 || decide (1 < h.flags.toNat) ||
    decide (data.length ≠ if h.kind = 2 then 0 else h.lines.toNat) || decide (128 < h.lines.toNat) || decide (256 ≤ h.session.toNat) ||
    (regFld s (rSstat h.session.toNat) 63 61 != 1 && regFld s (rSstat h.session.toNat) 63 61 != 3) || decide (h.crc.toNat ≠ zctCrc h data)

/-- A line of a session's WRITE or READ, made in the session's domain (R566): one of another controller is served there, and its answer
comes back (R564). -/
def zctLine (s : State) (n seq a : Nat) (wr : Bool) (d : LineData) : State :=
  lineAccess (if wr then .wrline else .rdnc) (.session (Fin.ofNat 256 n)) (BitVec.ofNat 12 (seq % 4096)) a d allBytes (ownCtrl s) s

/-- Serve the lines of a block in SEQ order (R568): a WRITE has its payload. -/
def zctServe (s : State) (n : Nat) (b : ZBlk) (lines : Nat) : State :=
  let p : ZPend := ⟨b.seq, b.kind, b.addr, lines, 0, [], false, none⟩
  let begun := fun (s : State) => putSess s n { sessOf s n with pend := (sessOf s n).pend ++ [p] }
  if b.addr % 64 ≠ 0 ∨ 2 ^ 60 ≤ b.addr then zctSend s n 6 b.seq 2 b.addr []
  else match takeInj s (rBoot 0x138) 2 (fun a => a == n) with
    | some (_, t) => zctSend (violate t (.session (Fin.ofNat 256 n)) b.addr) n 6 b.seq 1 b.addr []
    | none =>
      if lines = 0 then zctFinish s n p
      else forEach (List.range lines) (begun s)
        (fun s i => zctLine s n b.seq (b.addr + 64 * i) (b.kind == 1) ((b.data[i]?).getD 0))

/-- Apply a block: one of a frozen session is answered with ERR FROZEN (R573). -/
def zctApply (s : State) (n : Nat) (b : ZBlk) : State :=
  let s := regPut s (rSstat n) 31 0 (b.seq + 1)
  if regFld s (rSstat n) 63 61 = 3 then zctSend s n 6 b.seq 6 b.addr []
  else if b.kind = 1 then zctServe s n b b.data.length
  else if b.kind = 2 then zctServe s n b b.ref
  else s

/-- Apply the held blocks that are next in order; one with FENCE waits until the lines of every earlier block are served (R568,
R569). -/
def zctDrain (s : State) (n fuel : Nat) : State :=
  match fuel with
  | 0 => s
  | k + 1 =>
    let x := sessOf s n
    match x.held.find? (fun b => b.seq == regFld s (rSstat n) 31 0) with
    | none => s
    | some b =>
      if b.fence && b.kind == 1 && !x.pend.isEmpty then s
      else zctDrain (zctApply (putSess s n { x with held := x.held.erase b }) n b) n k

/-- Apply what is next, acknowledge every 16 blocks, and check the buffers. -/
def zctSettle (s : State) (n : Nat) : State :=
  let s := zctDrain s n 257
  pfcAll (if 16 ≤ (sessOf s n).unacked then zctSendAck s n else s)

/-- Take in a block with a SEQ (R567, R568): one that was received before is acknowledged again, one too far ahead or without room
is discarded. -/
def zctTake (s : State) (p n : Nat) (b : ZBlk) : State :=
  let next := regFld s (rSstat n) 31 0
  let x := sessOf s n
  if seqLt b.seq next || x.held.any (fun c => c.seq == b.seq) then zctSendAck s n
  else if 256 ≤ (b.seq + 2 ^ 32 - zctAck s n) % 2 ^ 32 then s
  else if b.seq ≠ next ∧ 2 ^ 23 < zctHeldAll s p + zctBlkBytes b then ethEvent s p 2 none
  else
    let s := if b.seq = next then s else pmc s (202 + p) 7 1 (some (sessDom s n))
    zctSettle (putSess s n { x with held := x.held ++ [b], unacked := x.unacked + 1 }) n

/-- A block is received on a command port: a port without addresses drops it (R560), a bad one is discarded and counted (R564), and one in
another VLAN than the session's is dropped (R565, assumption 233). -/
def zctRx (port : Fin 2) (src : ZFrom) (h : ZHdr) (data : List LineData) (s : State) : State :=
  let p := port.val
  ethFrame port { bytes := BitVec.ofNat 16 (zctBytes data.length), tci := src.tci, corr := src.corr, uncorr := src.uncorr } s fun s =>
    if !regBit s (rEth p 0) 2 then ethDrop s p
    else
      let (hit, s) := match takeInj s (rEth p 0x10) 1 (fun _ => true) with
        | some (_, t) => (true, t)
        | none => (false, s)
      if hit || zctBad s h data then incCnt s (rEth p 0x30)
      else
        let n := h.session.toNat
        if vlanOf src.tci ≠ regFld s (rSess n) 54 43 then ethDrop s p
        else
          let s := pmc s (202 + p) 4 1 (some (sessDom s n))
          let s := putSess (regPut s (rSstat n) 60 60 p) n { sessOf s n with far := src.far.toNat }
          let s := zctAckIn s n h.ack.toNat h.sack.toNat
          if h.kind = 5 then zctSettle s n
          else zctTake s p n { kind := h.kind.toNat, fence := h.flags.getLsbD 0, seq := h.seq.toNat, ref := h.lines.toNat, reason := p,
                               addr := h.addr.toNat, data := data }

/-- ZCT_WRITE (R563): a block with payload lines. `src` says where it came from. -/
def doZctWrite (port : Fin 2) (src : ZFrom) (h : ZHdr) (data : List LineData) (s : State) : State := zctRx port src h data s

/-- ZCT_READ: a block that names lines; one with a payload is discarded. -/
def doZctRead (port : Fin 2) (src : ZFrom) (h : ZHdr) (data : List LineData) (s : State) : State := zctRx port src h data s

/-- ZCT_ACK: an acknowledgement alone. -/
def doZctAck (port : Fin 2) (src : ZFrom) (h : ZHdr) (s : State) : State := zctRx port src h [] s

/-- Does a session take part in the protocol (it is OPEN or FROZEN)? -/
def zctLive (s : State) (n : Nat) : Bool := regFld s (rSstat n) 63 61 == 1 || regFld s (rSstat n) 63 61 == 3

/-- ZCT_ACK_TIMER (R571): 20 µs have passed; blocks received since the last acknowledgement are acknowledged. -/
def doZctAckTimer (session : Fin 256) (s : State) : State :=
  whenRunning s fun s =>
    if !zctLive s session.val then s
    else
      let s := zctSettle s session.val
      if (sessOf s session.val).unacked = 0 then s else zctSendAck s session.val

/-- ZCT_RESEND_TIMEOUT (R571): ZCT_CFG.RTO_US has passed for an outbound block whose SACK bit is clear. After 16 resends the
session is LOST. -/
def doZctResendTimeout (session : Fin 256) (seq : BitVec 32) (s : State) : State :=
  whenRunning s fun s =>
    match (sessOf s session.val).out.find? (fun b => b.seq == seq.toNat && !b.fence) with
    | none => s
    | some _ => zctResend s session.val seq.toNat

-- EXEC
def execZctWrite (port : Fin 2) (src : ZFrom) (h : ZHdr) (data : List (BitVec 512)) (s : State) :
    Host.Outcome State Fault Refusal :=
  .next (doZctWrite port src h data s)
def execZctRead (port : Fin 2) (src : ZFrom) (h : ZHdr) (data : List (BitVec 512)) (s : State) :
    Host.Outcome State Fault Refusal :=
  .next (doZctRead port src h data s)
def execZctAck (port : Fin 2) (src : ZFrom) (h : ZHdr) (s : State) : Host.Outcome State Fault Refusal :=
  .next (doZctAck port src h s)
def execZctAckTimer (session : Fin 256) (s : State) : Host.Outcome State Fault Refusal := .next (doZctAckTimer session s)
def execZctResendTimeout (session : Fin 256) (seq : BitVec 32) (s : State) : Host.Outcome State Fault Refusal :=
  .next (doZctResendTimeout session seq s)

end Sys2Proof.Machine
end

