-- ==== Sys2Proof/Machine/Dispatch.lean ====
section
/-! DEFINITION. Machine/Dispatch.lean: one arm per command, each a direct call of the command's meaning. -/

namespace Sys2Proof.Machine

/-- The effect of a command on everything but the queue. -/
def exec (i : Instr) (s : State) : Host.Outcome State Fault Refusal :=
  match i with
  | .registerWrite off width v => Sys2Proof.Machine.execRegisterWrite off width v s
  | .rds src txn addr => Sys2Proof.Machine.execRds src txn addr s
  | .rde src txn addr => Sys2Proof.Machine.execRde src txn addr s
  | .upgr src txn addr => Sys2Proof.Machine.execUpgr src txn addr s
  | .rdnc src txn addr => Sys2Proof.Machine.execRdnc src txn addr s
  | .wrnc src txn addr mask data sender => Sys2Proof.Machine.execWrnc src txn addr mask data sender s
  | .wrline src txn addr data sender => Sys2Proof.Machine.execWrline src txn addr data sender s
  | .wrback src txn addr data => Sys2Proof.Machine.execWrback src txn addr data s
  | .evict src txn addr => Sys2Proof.Machine.execEvict src txn addr s
  | .invack host txn addr => Sys2Proof.Machine.execInvack host txn addr s
  | .snprspdata host txn addr dirty data => Sys2Proof.Machine.execSnprspdata host txn addr dirty data s
  | .cmpack host txn addr => Sys2Proof.Machine.execCmpack host txn addr s
  | .wrdata src txn addr mask data => Sys2Proof.Machine.execWrdata src txn addr mask data s
  | .unknownOpcodeMessage home opcode => Sys2Proof.Machine.execUnknownOpcodeMessage home opcode s
  | .deferActivate home => Sys2Proof.Machine.execDeferActivate home s
  | .grantResponse port txn opcode data => Sys2Proof.Machine.execGrantResponse port txn opcode data s
  | .errFlushedReceived engine addr => Sys2Proof.Machine.execErrFlushedReceived engine addr s
  | .homeTimeout home host addr => Sys2Proof.Machine.execHomeTimeout home host addr s
  | .commandReady w => Sys2Proof.Machine.execCommandReady w s
  | .afterSatisfied w remote => Sys2Proof.Machine.execAfterSatisfied w remote s
  | .afterTimeout w => Sys2Proof.Machine.execAfterTimeout w s
  | .run w far => Sys2Proof.Machine.execRun w far s
  | .planLoad w ext => Sys2Proof.Machine.execPlanLoad w ext s
  | .planLoadDone w => Sys2Proof.Machine.execPlanLoadDone w s
  | .planUnload w => Sys2Proof.Machine.execPlanUnload w s
  | .armBind w => Sys2Proof.Machine.execArmBind w s
  | .armRearm w => Sys2Proof.Machine.execArmRearm w s
  | .armUnbind w => Sys2Proof.Machine.execArmUnbind w s
  | .armCommandMode w => Sys2Proof.Machine.execArmCommandMode w s
  | .draftOpen w => Sys2Proof.Machine.execDraftOpen w s
  | .publish w => Sys2Proof.Machine.execPublish w s
  | .draftDiscard w => Sys2Proof.Machine.execDraftDiscard w s
  | .compose w => Sys2Proof.Machine.execCompose w s
  | .sealComplete d => Sys2Proof.Machine.execSealComplete d s
  | .writingDone d accepted => Sys2Proof.Machine.execWritingDone d accepted s
  | .publishDecide d => Sys2Proof.Machine.execPublishDecide d s
  | .kernelStart w far ext => Sys2Proof.Machine.execKernelStart w far ext s
  | .scheduleFire w entry far => Sys2Proof.Machine.execScheduleFire w entry far s
  | .kernelCommit w => Sys2Proof.Machine.execKernelCommit w s
  | .sli l sd imm last => Sys2Proof.Machine.execSli l sd imm last s
  | .slui l sd imm last => Sys2Proof.Machine.execSlui l sd imm last s
  | .sadd l sd sa sb last => Sys2Proof.Machine.execSadd l sd sa sb last s
  | .ssub l sd sa sb last => Sys2Proof.Machine.execSsub l sd sa sb last s
  | .smul l sd sa sb last => Sys2Proof.Machine.execSmul l sd sa sb last s
  | .sand l sd sa sb last => Sys2Proof.Machine.execSand l sd sa sb last s
  | .sor l sd sa sb last => Sys2Proof.Machine.execSor l sd sa sb last s
  | .sxor l sd sa sb last => Sys2Proof.Machine.execSxor l sd sa sb last s
  | .sshl l sd sa sb last => Sys2Proof.Machine.execSshl l sd sa sb last s
  | .sshr l sd sa sb last => Sys2Proof.Machine.execSshr l sd sa sb last s
  | .ssra l sd sa sb last => Sys2Proof.Machine.execSsra l sd sa sb last s
  | .saddi l sd sa imm last => Sys2Proof.Machine.execSaddi l sd sa imm last s
  | .smin l sd sa sb last => Sys2Proof.Machine.execSmin l sd sa sb last s
  | .smax l sd sa sb last => Sys2Proof.Machine.execSmax l sd sa sb last s
  | .sparam l sd p last => Sys2Proof.Machine.execSparam l sd p last s
  | .sid l sd k last => Sys2Proof.Machine.execSid l sd k last s
  | .loop l len1 n1 last => Sys2Proof.Machine.execLoop l len1 n1 last s
  | .loopP l len1 p last => Sys2Proof.Machine.execLoopP l len1 p last s
  | .aset l ad f sa last => Sys2Proof.Machine.execAset l ad f sa last s
  | .aget l sd ad last => Sys2Proof.Machine.execAget l sd ad last s
  | .commit l last => Sys2Proof.Machine.execCommit l last s
  | .nop l last => Sys2Proof.Machine.execNop l last s
  | .illegalBundle l no => Sys2Proof.Machine.execIllegalBundle l no s
  | .nocommitFault l => Sys2Proof.Machine.execNocommitFault l s
  | .mload l vd ag last => Sys2Proof.Machine.execMload l vd ag last s
  | .mstore l vs ag last => Sys2Proof.Machine.execMstore l vs ag last s
  | .sld l sd ag last => Sys2Proof.Machine.execSld l sd ag last s
  | .sst l sa ag last => Sys2Proof.Machine.execSst l sa ag last s
  | .mspool l dix sa sb last => Sys2Proof.Machine.execMspool l dix sa sb last s
  | .spoolDescDone spool k ext => Sys2Proof.Machine.execSpoolDescDone spool k ext s
  | .carm l ch last => Sys2Proof.Machine.execCarm l ch last s
  | .cwait l ch st so far last => Sys2Proof.Machine.execCwait l ch st so far last s
  | .cwaitSatisfied l far => Sys2Proof.Machine.execCwaitSatisfied l far s
  | .cwaitTimeout l => Sys2Proof.Machine.execCwaitTimeout l s
  | .cread l sd ch far last => Sys2Proof.Machine.execCread l sd ch far last s
  | .mfence l last => Sys2Proof.Machine.execMfence l last s
  | .mfenceDone l => Sys2Proof.Machine.execMfenceDone l s
  | .mdrain l last => Sys2Proof.Machine.execMdrain l last s
  | .mdrainDone l => Sys2Proof.Machine.execMdrainDone l s
  | .tmmaBf16 l td aA aB kb acc shape last => Sys2Proof.Machine.execTmmaBf16 l td aA aB kb acc shape last s
  | .tmmaFp16 l td aA aB kb acc shape last => Sys2Proof.Machine.execTmmaFp16 l td aA aB kb acc shape last s
  | .tmmaE4m3 l td aA aB kb acc shape last => Sys2Proof.Machine.execTmmaE4m3 l td aA aB kb acc shape last s
  | .tmmaE5m2 l td aA aB kb acc shape last => Sys2Proof.Machine.execTmmaE5m2 l td aA aB kb acc shape last s
  | .tmmaInt8 l td aA aB kb acc shape last => Sys2Proof.Machine.execTmmaInt8 l td aA aB kb acc shape last s
  | .tmmaMxfp8 l td aA aB kb acc shape last => Sys2Proof.Machine.execTmmaMxfp8 l td aA aB kb acc shape last s
  | .tmmaMxfp8e5 l td aA aB kb acc shape last => Sys2Proof.Machine.execTmmaMxfp8e5 l td aA aB kb acc shape last s
  | .tmmaMxfp6 l td aA aB kb acc shape last => Sys2Proof.Machine.execTmmaMxfp6 l td aA aB kb acc shape last s
  | .tmmaMxfp6e3 l td aA aB kb acc shape last => Sys2Proof.Machine.execTmmaMxfp6e3 l td aA aB kb acc shape last s
  | .tmmaMxint8 l td aA aB kb acc shape last => Sys2Proof.Machine.execTmmaMxint8 l td aA aB kb acc shape last s
  | .tmmaMxfp4 l td aA aB kb acc shape last => Sys2Proof.Machine.execTmmaMxfp4 l td aA aB kb acc shape last s
  | .tmmaInt4 l td aA aB kb acc shape last => Sys2Proof.Machine.execTmmaInt4 l td aA aB kb acc shape last s
  | .tmmaMxfp4x8 l td aA aB kb acc shape last => Sys2Proof.Machine.execTmmaMxfp4x8 l td aA aB kb acc shape last s
  | .tmmaT2 l td aA aB kb acc shape last => Sys2Proof.Machine.execTmmaT2 l td aA aB kb acc shape last s
  | .tmmaT2i l td aA aB kb acc shape last => Sys2Proof.Machine.execTmmaT2i l td aA aB kb acc shape last s
  | .tmmaWriteback l => Sys2Proof.Machine.execTmmaWriteback l s
  | .tzero l td last => Sys2Proof.Machine.execTzero l td last s
  | .tread l vd ts part last => Sys2Proof.Machine.execTread l vd ts part last s
  | .tload l td vs part last => Sys2Proof.Machine.execTload l td vs part last s
  | .tfence l last => Sys2Proof.Machine.execTfence l last s
  | .tfenceDone l => Sys2Proof.Machine.execTfenceDone l s
  | .vadd l vd va vb last => Sys2Proof.Machine.execVadd l vd va vb last s
  | .vsub l vd va vb last => Sys2Proof.Machine.execVsub l vd va vb last s
  | .vmul l vd va vb last => Sys2Proof.Machine.execVmul l vd va vb last s
  | .vfma l vd va vb vc last => Sys2Proof.Machine.execVfma l vd va vb vc last s
  | .vmax l vd va vb last => Sys2Proof.Machine.execVmax l vd va vb last s
  | .vmin l vd va vb last => Sys2Proof.Machine.execVmin l vd va vb last s
  | .vabs l vd va last => Sys2Proof.Machine.execVabs l vd va last s
  | .vneg l vd va last => Sys2Proof.Machine.execVneg l vd va last s
  | .vsel l vd va vb vc last => Sys2Proof.Machine.execVsel l vd va vb vc last s
  | .vcmp l vd va vb mod last => Sys2Proof.Machine.execVcmp l vd va vb mod last s
  | .vexp l vd va last => Sys2Proof.Machine.execVexp l vd va last s
  | .vlog l vd va last => Sys2Proof.Machine.execVlog l vd va last s
  | .vrcp l vd va last => Sys2Proof.Machine.execVrcp l vd va last s
  | .vrsqrt l vd va last => Sys2Proof.Machine.execVrsqrt l vd va last s
  | .vtanh l vd va last => Sys2Proof.Machine.execVtanh l vd va last s
  | .vsigm l vd va last => Sys2Proof.Machine.execVsigm l vd va last s
  | .vsin l vd va last => Sys2Proof.Machine.execVsin l vd va last s
  | .vcos l vd va last => Sys2Proof.Machine.execVcos l vd va last s
  | .vredsum l vd va last => Sys2Proof.Machine.execVredsum l vd va last s
  | .vredmax l vd va last => Sys2Proof.Machine.execVredmax l vd va last s
  | .vscan l vd va last => Sys2Proof.Machine.execVscan l vd va last s
  | .vargmax l sd va last => Sys2Proof.Machine.execVargmax l sd va last s
  | .vfirst l sd va vb last => Sys2Proof.Machine.execVfirst l sd va vb last s
  | .vbcast l vd sa last => Sys2Proof.Machine.execVbcast l vd sa last s
  | .vext l sd va idx last => Sys2Proof.Machine.execVext l sd va idx last s
  | .vrotl l vd va n last => Sys2Proof.Machine.execVrotl l vd va n last s
  | .vcvt l vd va part mod last => Sys2Proof.Machine.execVcvt l vd va part mod last s
  | .vunp l vd va part mod last => Sys2Proof.Machine.execVunp l vd va part mod last s
  | .vrng l vd sa sb last => Sys2Proof.Machine.execVrng l vd sa sb last s
  | .latheDone l => Sys2Proof.Machine.execLatheDone l s
  | .latheWatchdog l => Sys2Proof.Machine.execLatheWatchdog l s
  | .latheReset lathe => Sys2Proof.Machine.execLatheReset lathe s
  | .latheInjClear l => Sys2Proof.Machine.execLatheInjClear l s
  | .latheInjChuckCe l => Sys2Proof.Machine.execLatheInjChuckCe l s
  | .latheInjChuckUe l => Sys2Proof.Machine.execLatheInjChuckUe l s
  | .latheInjParity l => Sys2Proof.Machine.execLatheInjParity l s
  | .latheInjWatchdog l => Sys2Proof.Machine.execLatheInjWatchdog l s
  | .latheInjCwaitFail l => Sys2Proof.Machine.execLatheInjCwaitFail l s
  | .latheInjStop l persist => Sys2Proof.Machine.execLatheInjStop l persist s
  | .ldrInjDigest => Sys2Proof.Machine.execLdrInjDigest s
  | .ldrInjAfter => Sys2Proof.Machine.execLdrInjAfter s
  | .ldrInjBadlen w => Sys2Proof.Machine.execLdrInjBadlen w s
  | .gnop n => Sys2Proof.Machine.execGnop n s
  | .gli n gd imm => Sys2Proof.Machine.execGli n gd imm s
  | .glui n gd imm => Sys2Proof.Machine.execGlui n gd imm s
  | .gadd n gd ga gb => Sys2Proof.Machine.execGadd n gd ga gb s
  | .gaddi n gd ga imm => Sys2Proof.Machine.execGaddi n gd ga imm s
  | .gmul n gd ga gb => Sys2Proof.Machine.execGmul n gd ga gb s
  | .gparam n gd p => Sys2Proof.Machine.execGparam n gd p s
  | .gid n gd k => Sys2Proof.Machine.execGid n gd k s
  | .grun n ga ext => Sys2Proof.Machine.execGrun n ga ext s
  | .segmentStart n ext => Sys2Proof.Machine.execSegmentStart n ext s
  | .rowLanded n slot far poison => Sys2Proof.Machine.execRowLanded n slot far poison s
  | .passBStart n ext => Sys2Proof.Machine.execPassBStart n ext s
  | .batchComplete n => Sys2Proof.Machine.execBatchComplete n s
  | .gwait n ch gv gt far => Sys2Proof.Machine.execGwait n ch gv gt far s
  | .gwaitSatisfied n far => Sys2Proof.Machine.execGwaitSatisfied n far s
  | .gwaitTimeout n => Sys2Proof.Machine.execGwaitTimeout n s
  | .gsig n ga => Sys2Proof.Machine.execGsig n ga s
  | .gloop n len1 n1 => Sys2Proof.Machine.execGloop n len1 n1 s
  | .gloopP n len1 p => Sys2Proof.Machine.execGloopP n len1 p s
  | .gend n => Sys2Proof.Machine.execGend n s
  | .contextWatchdog n => Sys2Proof.Machine.execContextWatchdog n s
  | .gougeInjClear g => Sys2Proof.Machine.execGougeInjClear g s
  | .gougeInjTableUe g => Sys2Proof.Machine.execGougeInjTableUe g s
  | .gougeInjWatchdog g => Sys2Proof.Machine.execGougeInjWatchdog g s
  | .gougeInjGwait g => Sys2Proof.Machine.execGougeInjGwait g s
  | .gougeInjPoison g => Sys2Proof.Machine.execGougeInjPoison g s
  | .gougeInjStop g persist => Sys2Proof.Machine.execGougeInjStop g persist s
  | .knop n => Sys2Proof.Machine.execKnop n s
  | .kli n kd imm => Sys2Proof.Machine.execKli n kd imm s
  | .klui n kd imm => Sys2Proof.Machine.execKlui n kd imm s
  | .kadd n kd ka kb => Sys2Proof.Machine.execKadd n kd ka kb s
  | .kaddi n kd ka imm => Sys2Proof.Machine.execKaddi n kd ka imm s
  | .kmul n kd ka kb => Sys2Proof.Machine.execKmul n kd ka kb s
  | .kparam n kd p => Sys2Proof.Machine.execKparam n kd p s
  | .kid n kd k => Sys2Proof.Machine.execKid n kd k s
  | .kwalk n ka ext => Sys2Proof.Machine.execKwalk n ka ext s
  | .kiteReadReturn n ext => Sys2Proof.Machine.execKiteReadReturn n ext s
  | .queryComplete n => Sys2Proof.Machine.execQueryComplete n s
  | .kwait n ch kv kt far => Sys2Proof.Machine.execKwait n ch kv kt far s
  | .kwaitSatisfied n far => Sys2Proof.Machine.execKwaitSatisfied n far s
  | .kwaitTimeout n => Sys2Proof.Machine.execKwaitTimeout n s
  | .ksig n ka => Sys2Proof.Machine.execKsig n ka s
  | .kloop n len1 n1 => Sys2Proof.Machine.execKloop n len1 n1 s
  | .kloopP n len1 p => Sys2Proof.Machine.execKloopP n len1 p s
  | .kend n => Sys2Proof.Machine.execKend n s
  | .kiteWatchdog n => Sys2Proof.Machine.execKiteWatchdog n s
  | .walkerInjClear w => Sys2Proof.Machine.execWalkerInjClear w s
  | .walkerInjKmemUe w => Sys2Proof.Machine.execWalkerInjKmemUe w s
  | .walkerInjWatchdog w => Sys2Proof.Machine.execWalkerInjWatchdog w s
  | .walkerInjKwait w => Sys2Proof.Machine.execWalkerInjKwait w s
  | .walkerInjPoison w => Sys2Proof.Machine.execWalkerInjPoison w s
  | .walkerInjStop w persist => Sys2Proof.Machine.execWalkerInjStop w persist s
  | .unitFetchDone unit => Sys2Proof.Machine.execUnitFetchDone unit s
  | .regionDeleteFinal region => Sys2Proof.Machine.execRegionDeleteFinal region s
  | .mirrorPeerWrite addr data => Sys2Proof.Machine.execMirrorPeerWrite addr data s
  | .mirrorPeerLost peer => Sys2Proof.Machine.execMirrorPeerLost peer s
  | .parityFoldRecord slot unit line addr delta => Sys2Proof.Machine.execParityFoldRecord slot unit line addr delta s
  | .parityFoldAck addr => Sys2Proof.Machine.execParityFoldAck addr s
  | .mediumEnumerate chans profile peRated => Sys2Proof.Machine.execMediumEnumerate chans profile peRated s
  | .logReplay => Sys2Proof.Machine.execLogReplay s
  | .pageReadDone loc page cws => Sys2Proof.Machine.execPageReadDone loc page cws s
  | .pageProgramDone loc fail => Sys2Proof.Machine.execPageProgramDone loc fail s
  | .blockEraseDone loc fail => Sys2Proof.Machine.execBlockEraseDone loc fail s
  | .statusTimeout chan loc op => Sys2Proof.Machine.execStatusTimeout chan loc op s
  | .bandReclaim loc => Sys2Proof.Machine.execBandReclaim loc s
  | .retraction member loc lines => Sys2Proof.Machine.execRetraction member loc lines s
  | .retractionAck loc => Sys2Proof.Machine.execRetractionAck loc s
  | .scrubRead loc page cws => Sys2Proof.Machine.execScrubRead loc page cws s
  | .contributionArrive member loc lines => Sys2Proof.Machine.execContributionArrive member loc lines s
  | .stripeCloseTimer => Sys2Proof.Machine.execStripeCloseTimer s
  | .contributionCovered loc => Sys2Proof.Machine.execContributionCovered loc s
  | .degradedRead chan loc parity others => Sys2Proof.Machine.execDegradedRead chan loc parity others s
  | .substituteRebuild item last => Sys2Proof.Machine.execSubstituteRebuild item last s
  | .medInjFlip chan arg => Sys2Proof.Machine.execMedInjFlip chan arg s
  | .medInjRetry chan arg => Sys2Proof.Machine.execMedInjRetry chan arg s
  | .medInjUncorr chan => Sys2Proof.Machine.execMedInjUncorr chan s
  | .medInjProgFail chan => Sys2Proof.Machine.execMedInjProgFail chan s
  | .medInjEraseFail chan => Sys2Proof.Machine.execMedInjEraseFail chan s
  | .medInjTimeout chan => Sys2Proof.Machine.execMedInjTimeout chan s
  | .haInjDropSnoopAnswer home host => Sys2Proof.Machine.execHaInjDropSnoopAnswer home host s
  | .haInjDropCmpack home host => Sys2Proof.Machine.execHaInjDropCmpack home host s
  | .haInjDirUe home => Sys2Proof.Machine.execHaInjDirUe home s
  | .haInjSfUe home => Sys2Proof.Machine.execHaInjSfUe home s
  | .haInjPoison home => Sys2Proof.Machine.execHaInjPoison home s
  | .portDetect port => Sys2Proof.Machine.execPortDetect port s
  | .equalizeDone port converged => Sys2Proof.Machine.execEqualizeDone port converged s
  | .alignDone port order far => Sys2Proof.Machine.execAlignDone port order far s
  | .configDone port isHost far credits => Sys2Proof.Machine.execConfigDone port isHost far credits s
  | .retrainDone port lanes => Sys2Proof.Machine.execRetrainDone port lanes s
  | .retrainTimeout port => Sys2Proof.Machine.execRetrainTimeout port s
  | .trainRetryTimer port => Sys2Proof.Machine.execTrainRetryTimer port s
  | .flitPayload port hdr slots crcOk => Sys2Proof.Machine.execFlitPayload port hdr slots crcOk s
  | .flitIdle port hdr crcOk => Sys2Proof.Machine.execFlitIdle port hdr crcOk s
  | .abortFlit port hdr slot crcOk => Sys2Proof.Machine.execAbortFlit port hdr slot crcOk s
  | .ackTimer port => Sys2Proof.Machine.execAckTimer port s
  | .resendTimeout port => Sys2Proof.Machine.execResendTimeout port s
  | .cellPackTimeout inp => Sys2Proof.Machine.execCellPackTimeout inp s
  | .switchCycle => Sys2Proof.Machine.execSwitchCycle s
  | .epochBoundary => Sys2Proof.Machine.execEpochBoundary s
  | .switchCoreReset parity => Sys2Proof.Machine.execSwitchCoreReset parity s
  | .reelReadServe src txn dom addr version => Sys2Proof.Machine.execReelReadServe src txn dom addr version s
  | .reelFetchDone txn lines err => Sys2Proof.Machine.execReelFetchDone txn lines err s
  | .reelWbApply src txn dom base lines => Sys2Proof.Machine.execReelWbApply src txn dom base lines s
  | .reelWbDone txn => Sys2Proof.Machine.execReelWbDone txn s
  | .reelTimeout txn => Sys2Proof.Machine.execReelTimeout txn s
  | .swMirrorWrite value => Sys2Proof.Machine.execSwMirrorWrite value s
  | .fabInjCrc port => Sys2Proof.Machine.execFabInjCrc port s
  | .fabInjBadRx port => Sys2Proof.Machine.execFabInjBadRx port s
  | .fabInjLaneFail port lane => Sys2Proof.Machine.execFabInjLaneFail port lane s
  | .fabInjRetrain port => Sys2Proof.Machine.execFabInjRetrain port s
  | .fabInjDown port => Sys2Proof.Machine.execFabInjDown port s
  | .swInjCellUe => Sys2Proof.Machine.execSwInjCellUe s
  | .swInjPortDown port => Sys2Proof.Machine.execSwInjPortDown port s
  | .swInjMirrorDrop => Sys2Proof.Machine.execSwInjMirrorDrop s
  | .gwInjRemoteErr => Sys2Proof.Machine.execGwInjRemoteErr s
  | .gwInjTimeout => Sys2Proof.Machine.execGwInjTimeout s
  | .gwInjStageUe => Sys2Proof.Machine.execGwInjStageUe s
  | .ethLinkUp port => Sys2Proof.Machine.execEthLinkUp port s
  | .ethLinkDown port => Sys2Proof.Machine.execEthLinkDown port s
  | .arpRequest port target bytes => Sys2Proof.Machine.execArpRequest port target bytes s
  | .neighborSolicitation port target bytes => Sys2Proof.Machine.execNeighborSolicitation port target bytes s
  | .icmpEcho port dst ident seq bytes payload => Sys2Proof.Machine.execIcmpEcho port dst ident seq bytes payload s
  | .icmpv6Echo port dst ident seq bytes payload => Sys2Proof.Machine.execIcmpv6Echo port dst ident seq bytes payload s
  | .pfcFrame port prio pause => Sys2Proof.Machine.execPfcFrame port prio pause s
  | .otherFrameDrop port bytes => Sys2Proof.Machine.execOtherFrameDrop port bytes s
  | .zctWrite port far h data => Sys2Proof.Machine.execZctWrite port far h data s
  | .zctRead port far h ext => Sys2Proof.Machine.execZctRead port far h ext s
  | .zctAck port far h => Sys2Proof.Machine.execZctAck port far h s
  | .zctAckTimer session => Sys2Proof.Machine.execZctAckTimer session s
  | .zctResendTimeout session seq => Sys2Proof.Machine.execZctResendTimeout session seq s
  | .capRead port seq => Sys2Proof.Machine.execCapRead port seq s
  | .regRead port seq offs => Sys2Proof.Machine.execRegRead port seq offs s
  | .regWrite port seq pairs => Sys2Proof.Machine.execRegWrite port seq pairs s
  | .mgmtCompose port seq off total data => Sys2Proof.Machine.execMgmtCompose port seq off total data s
  | .quote port seq vnonce filter cert rsvZero => Sys2Proof.Machine.execQuote port seq vnonce filter cert rsvZero s
  | .image port seq off total rsv data => Sys2Proof.Machine.execImage port seq off total rsv data s
  | .slotWriteDone bad rails => Sys2Proof.Machine.execSlotWriteDone bad rails s
  | .heartbeat port seq => Sys2Proof.Machine.execHeartbeat port seq s
  | .heartbeatTimer => Sys2Proof.Machine.execHeartbeatTimer s
  | .setAddr port seq target addr signedOk => Sys2Proof.Machine.execSetAddr port seq target addr signedOk s
  | .mgmtAck port ack => Sys2Proof.Machine.execMgmtAck port ack s
  | .mgmtResendTimeout msg => Sys2Proof.Machine.execMgmtResendTimeout msg s
  | .ethInjCrc port => Sys2Proof.Machine.execEthInjCrc port s
  | .ethInjDrop port => Sys2Proof.Machine.execEthInjDrop port s
  | .ethInjFec port => Sys2Proof.Machine.execEthInjFec port s
  | .ethInjLinkDown port => Sys2Proof.Machine.execEthInjLinkDown port s
  | .errAck cls n => Sys2Proof.Machine.execErrAck cls n s
  | .homeWarmReset home => Sys2Proof.Machine.execHomeWarmReset home s
  | .homeColdReset home => Sys2Proof.Machine.execHomeColdReset home s
  | .backgroundRestore home => Sys2Proof.Machine.execBackgroundRestore home s
  | .mediumChannelReset chan trains => Sys2Proof.Machine.execMediumChannelReset chan trains s
  | .kernelContextRecovery w => Sys2Proof.Machine.execKernelContextRecovery w s
  | .engineReset engine => Sys2Proof.Machine.execEngineReset engine s
  | .resetDeadline kind unit => Sys2Proof.Machine.execResetDeadline kind unit s
  | .replayStart w => Sys2Proof.Machine.execReplayStart w s
  | .frozenTimeout w => Sys2Proof.Machine.execFrozenTimeout w s
  | .tetherSweep tether => Sys2Proof.Machine.execTetherSweep tether s
  | .orphAck n => Sys2Proof.Machine.execOrphAck n s
  | .dumpRelease slot => Sys2Proof.Machine.execDumpRelease slot s
  | .wholeDeviceReset => Sys2Proof.Machine.execWholeDeviceReset s
  | .recovInjCwAccess => Sys2Proof.Machine.execRecovInjCwAccess s
  | .recovInjReset unit => Sys2Proof.Machine.execRecovInjReset unit s
  | .recovInjNested unit => Sys2Proof.Machine.execRecovInjNested unit s
  | .recovInjRip => Sys2Proof.Machine.execRecovInjRip s
  | .recovInjTetherSweep => Sys2Proof.Machine.execRecovInjTetherSweep s
  | .recovInjAbort dom => Sys2Proof.Machine.execRecovInjAbort dom s
  | .recovInjCtrlUe => Sys2Proof.Machine.execRecovInjCtrlUe s
  | .stkInjCe stack => Sys2Proof.Machine.execStkInjCe stack s
  | .stkInjUe stack => Sys2Proof.Machine.execStkInjUe stack s
  | .stkInjTrkUe stack => Sys2Proof.Machine.execStkInjTrkUe stack s
  | .stkInjCtrUe stack => Sys2Proof.Machine.execStkInjCtrUe stack s
  | .stkInjTrain stack => Sys2Proof.Machine.execStkInjTrain stack s
  | .regSet pairs eth => Sys2Proof.Machine.execRegSet pairs eth s
  | .regionSet index entry => Sys2Proof.Machine.execRegionSet index entry s
  | .regionDelete index => Sys2Proof.Machine.execRegionDelete index s
  | .domainSet domain entry => Sys2Proof.Machine.execDomainSet domain entry s
  | .groupSet group entry => Sys2Proof.Machine.execGroupSet group entry s
  | .hostRelease host buf bytes => Sys2Proof.Machine.execHostRelease host buf bytes s
  | .lineRestore first count region version offset => Sys2Proof.Machine.execLineRestore first count region version offset s
  | .masterRelease kind number => Sys2Proof.Machine.execMasterRelease kind number s
  | .recoverRelease win => Sys2Proof.Machine.execRecoverRelease win s
  | .unitReturn unit => Sys2Proof.Machine.execUnitReturn unit s
  | .ripRelease => Sys2Proof.Machine.execRipRelease s
  | .keyRevoke slot signer => Sys2Proof.Machine.execKeyRevoke slot signer s
  | .headstock spiOk identityOk rails => Sys2Proof.Machine.execHeadstock spiOk identityOk rails s
  | .svnAdvance => Sys2Proof.Machine.execSvnAdvance s
  | .bootInjSig => Sys2Proof.Machine.execBootInjSig s
  | .bootInjVerify => Sys2Proof.Machine.execBootInjVerify s
  | .isoInjHost host => Sys2Proof.Machine.execIsoInjHost host s
  | .isoInjSession session => Sys2Proof.Machine.execIsoInjSession session s
  | .aonPgRise => Sys2Proof.Machine.execAonPgRise s
  | .aonPgFall => Sys2Proof.Machine.execAonPgFall s
  | .stbyPgRise slot hold tsEn ref0 => Sys2Proof.Machine.execStbyPgRise slot hold tsEn ref0 s
  | .stbyPgFall => Sys2Proof.Machine.execStbyPgFall s
  | .xtalStart => Sys2Proof.Machine.execXtalStart s
  | .resetNPulse held => Sys2Proof.Machine.execResetNPulse held s
  | .pllUnlock which => Sys2Proof.Machine.execPllUnlock which s
  | .ballastTick => Sys2Proof.Machine.execBallastTick s
  | .clockIdleStop unit => Sys2Proof.Machine.execClockIdleStop unit s
  | .powerSample watts temp => Sys2Proof.Machine.execPowerSample watts temp s
  | .pwrReqRun => Sys2Proof.Machine.execPwrReqRun s
  | .pwrReqStandby => Sys2Proof.Machine.execPwrReqStandby s
  | .railTimeout rail => Sys2Proof.Machine.execRailTimeout rail s
  | .ballastCfgWrite v => Sys2Proof.Machine.execBallastCfgWrite v s
  | .pmbusPoll reads => Sys2Proof.Machine.execPmbusPoll reads s
  | .pwrInjHot => Sys2Proof.Machine.execPwrInjHot s
  | .pwrInjPmbFail => Sys2Proof.Machine.execPwrInjPmbFail s
  | .pwrInjStatusFault => Sys2Proof.Machine.execPwrInjStatusFault s
  | .pwrInjTrip => Sys2Proof.Machine.execPwrInjTrip s
  | .pmuFreeze => Sys2Proof.Machine.execPmuFreeze s
  | .pmuUnfreeze => Sys2Proof.Machine.execPmuUnfreeze s
  | .pmuSnap => Sys2Proof.Machine.execPmuSnap s
  | .snapDone => Sys2Proof.Machine.execSnapDone s
  | .pmcCntWrite block ctr v => Sys2Proof.Machine.execPmcCntWrite block ctr v s
  | .tagAck n => Sys2Proof.Machine.execTagAck n s
  | .mirAck n => Sys2Proof.Machine.execMirAck n s
  | .tsEnFall => Sys2Proof.Machine.execTsEnFall s
  | .tsSessionStart tsEn => Sys2Proof.Machine.execTsSessionStart tsEn s
  | .tsStat => Sys2Proof.Machine.execTsStat s
  | .tsRd off => Sys2Proof.Machine.execTsRd off s
  | .tsWr off v => Sys2Proof.Machine.execTsWr off v s
  | .tsMrd addr lines => Sys2Proof.Machine.execTsMrd addr lines s
  | .tsMwr addr data => Sys2Proof.Machine.execTsMwr addr data s
  | .tsLog cls => Sys2Proof.Machine.execTsLog cls s
  | .tsAck cls n => Sys2Proof.Machine.execTsAck cls n s
  | .tsDump slot off lines => Sys2Proof.Machine.execTsDump slot off lines s
  | .tsInj off kind arg => Sys2Proof.Machine.execTsInj off kind arg s
  | .tsRecoverReset => Sys2Proof.Machine.execTsRecoverReset s
  | .tsRecoverBoot => Sys2Proof.Machine.execTsRecoverBoot s
  | .tsLoad image => Sys2Proof.Machine.execTsLoad image s
  | .tsEnrol slot key => Sys2Proof.Machine.execTsEnrol slot key s
  | .extest pins vals => Sys2Proof.Machine.execExtest pins vals s
  | .samplePreload pins vals => Sys2Proof.Machine.execSamplePreload pins vals s
  | .idcode => Sys2Proof.Machine.execIdcode s
  | .clamp => Sys2Proof.Machine.execClamp s
  | .highz => Sys2Proof.Machine.execHighz s
  | .bypass opcode => Sys2Proof.Machine.execBypass opcode s
  | .resetNRise => Sys2Proof.Machine.execResetNRise s
  | .mgmtLinkDown port => Sys2Proof.Machine.execMgmtLinkDown port s
  | .mgmtLinkUp port => Sys2Proof.Machine.execMgmtLinkUp port s
  | .stackTrainingLoss stack => Sys2Proof.Machine.execStackTrainingLoss stack s
  | .controlCoreUe => Sys2Proof.Machine.execControlCoreUe s
  | .releaseSweepDone host => Sys2Proof.Machine.execReleaseSweepDone host s
  | .peerCopyDone region => Sys2Proof.Machine.execPeerCopyDone region s
  | .frameZeroed => Sys2Proof.Machine.execFrameZeroed s

end Sys2Proof.Machine
end

