-- ==== Sys2Proof/Machine/Tick.lean ====
section
/-! DEFINITION. Machine/Tick.lean: what an idle cycle does: the clock of the Lathes, their spools and the walkers, the watchdogs and the
counters of cycles (R291, R307, R312, R448, R705, R718, R720). -/

namespace Sys2Proof.Machine

/-- The class that Lathe `l` charges an arithmetic cycle to (R718): 0 RETIRED while a tmma is at the head of the tensor queue, 1
BACK_STOCK while it or its oldest unissued bundle waits for material, or while it is DRAINING, 2 BACK_TOOL otherwise. -/
def slotClass (s : State) (l : Nat) : Nat :=
  let x := latheAt s l
  let feeding : Bool := match x.tq with
    | .tmma _ :: _ => true
    | _ => false
  if feeding then 0
  else match x.wait with
    | .cwait _ _ _ => 1
    | .mfence => 1
    | .mdrain => 1
    | _ => if latheState s l = 4 ∨ stallsOnMaterial s l then 1 else 2

/-- One arithmetic cycle of Lathe `l`: while it runs, LATHE_CYC_L advances (R307), the slot is charged to its class and its spool moves
bytes; the cycle in which LATHE_CYC_L reaches LATHE_WDOG_L raises WATCHDOG (R312). -/
def latheTick (s : State) (l : Nat) : State :=
  if latheLive s l then
    let x := latheAt s l
    let i := slotClass s l
    let s := addCnt (putLathe s l { x with slots := x.slots.set i ((x.slots[i]?).getD 0 + 1) }) (rLathe l 0x20) 1
    if (reg s (rLathe l 0x28)).toNat ≤ (reg s (rLathe l 0x20)).toNat then latheFault s l 16 0 0 else spoolTick s l
  else s

/-- The kites assigned to walker `w`: each with its kernel's domain and whether it waits on a read. -/
def walkerKites (s : State) (w : Nat) : List (Nat × Bool) :=
  (s.kernels.filter (fun k => k.started && k.live)).flatMap (fun k =>
    (k.kites.filter (fun n => n / 128 == w)).map (fun n =>
      (k.dom, match (Sparse.get s.kites n {}).query with
        | some q => !q.ended
        | none => false)))

/-- One walker cycle of walker `w` that serves no kite (R720, R721): BACK_STOCK while an assigned kite waits on a read, FRONT_STARVED
otherwise; it carries a domain when all its kites belong to that one. -/
def walkerTick (s : State) (w : Nat) : State :=
  match walkerKites s w with
  | [] => s
  | a :: rest =>
    let dom := if rest.all (fun e => e.1 == a.1) then some a.1 else none
    pmc (pmc s (128 + w) 0 1 dom) (128 + w) (if (a :: rest).any (fun e => e.2) then 4 else 3) 1 dom

/-- One walker cycle of gouge `g`: ROW_WAIT counts it when every context in use waits for rows (R705). -/
def gougeTick (s : State) (g : Nat) : State :=
  let cs := ((List.range 8).map (fun j => 8 * g + j)).filter (fun n => regFld s (rGctx n 0) 2 0 != 0)
  let waits := fun (n : Nat) => match (ctxOf s n).batch with
    | some b => b.seg.isSome && (b.slots.take b.issued).any (fun e => e.2.isNone)
    | none => false
  if cs != [] && cs.all waits then pmc s (160 + g) 7 1 none else s

/-- The quads with a program or a read in flight. -/
def busyQuads (s : State) : List Nat :=
  ((s.progs.map (fun p => locQuad p.loc)) ++ (s.reading.filter (fun e => decide (e.2 < 2 ^ 40))).map (fun e => locQuad e.2)).dedup

/-- One cycle of the counters that add up cycles and waits (R705): TIER_WAIT, MISS_WAIT, QUEUE_WAIT and START_CYC, OCCUPANCY, INPUT_WAIT and
BUDGET_WAIT, CREDIT_WAIT and REPLAY_FULL, and CH_BUSY. -/
def waitTick (s : State) : State :=
  let s := forEach s.trk s (fun s t => if t.phase = .unit then pmc s (176 + t.home) 4 1 (reqDom s t.req) else s)
  let s := forEach s.missq s (fun s m => pmc s 205 5 1 (reqDom s m.req))
  let s := forEach (s.lathQ ++ s.engQ) s (fun s w => pmc s 206 4 1 (some (winDom s w)))
  let s := forEach s.kernels s (fun s k => if winState s k.win = 4 then pmc s 206 5 1 (some k.dom) else s)
  let s := pmc s 204 4 s.cells.length none
  let s := forEach s.links s (fun s e => forEach (e.2.rxq.take 1) s (fun s c => pmc s 204 6 1 (some c.dom)))
  let s := forEach ((List.range 26).filterMap (fun i => s.agentq.find? (fun c => c.inp == 16 + i && (placeCell s c).isNone))) s
    (fun s c => pmc s 204 6 1 (some c.dom))
  let s := forEach s.cells s (fun s c => pmc s 204 7
    (if rcMode s && !c.mirror then c.outs.countP (fun t => decide (budgetOf s t.1 c.rc ≤ Sparse.get s.swSpent (16 * t.1 + c.rc) 0)) else 0) (some c.dom))
  let s := forEach s.cells s (fun s c => forEach (c.outs.filter (fun t => decide (t.1 < 16) &&
      decide (Sparse.get (linkOf s t.1).crd (16 * c.cls + (if rcMode s then c.rc else 0)) 0 < c.slots.length))) s
    (fun s t => pmc s (186 + t.1) 5 (messages msgSlots 15 c.slots).length (some c.dom)))
  let s := forEach s.links s (fun s e => if 512 ≤ e.2.replay.length then pmc s (186 + e.1) 6 1 none else s)
  let q := 2 * (busyQuads s).length
  pmc (pmc s 184 3 q none) 185 3 q none

/-- What a step does when no command waits (assumption 6): one cycle passes. Every Lathe that runs has an arithmetic cycle, as have the home-side spools, and every
walker and gouge a walker cycle; the watchdogs of contexts and kites count it; gouges with room ask for rows; and the gateway serves the
reel reads and the accesses that wait, as far as it can (R523, R526). -/
def idle (s : State) : State :=
  whenRunning s fun s =>
    let s := forEach (List.range 32) (forEach (List.range 128) s latheTick) walkerTick
    let s := forEach (List.range 16) s gougeTick
    let s := forEach s.kites (forEach s.ctxs s (fun s e => dogTick gougeKind s e.1)) (fun s e => dogTick kiteKind s e.1)
    let s := forEach (List.range 8) s homeSpoolTick
    let s := drainMissq (serveReelWaits (forEach (List.range 16) s askRows))
    waitTick s

end Sys2Proof.Machine
end

