-- ==== Sys2Proof/WellFormed.lean ====
section
/-! DEFINITION. WellFormed.lean: what a command's lists must look like for the outside to be able to send it. The types of the
operands hold every other bound; a meaning is total on ill-formed terms too. -/

namespace Sys2Proof

/-- The lines of a 64 KiB unit. -/
def unitLines (ls : List (BitVec 512)) : Bool := ls.length == 1024

/-- The codewords of a page (R113), each with a step of the ladder 0 to 11 (R138). -/
def pageWords (cws : List (BitVec 4 × BitVec 16)) : Bool :=
  cws.length == 4 && cws.all (fun c => decide (c.1.toNat ≤ 11))

/-- The lines of a reel that a write-back names (R528): one to 1,024, each once. -/
def reelLines (ls : List (BitVec 10 × BitVec 512 × Bool)) : Bool :=
  !ls.isEmpty && decide ((ls.map (fun l => l.1)).Nodup)

/-- A target within the bounds of R106 and of a locator's fields (R119, R120): 1 to 8 LUNs of at most 2^20 blocks of at most 4,096
pages. -/
def targetOk (t : MedTarget) : Bool :=
  decide (1 ≤ t.luns.toNat) && decide (t.luns.toNat ≤ 8) && decide (t.planes.toNat * t.blocks.toNat ≤ 2 ^ 20)
    && decide (t.pages.toNat ≤ 4096) && t.bad.all (fun b => decide (b.1.val < t.luns.toNat) && decide (b.2.toNat < t.planes.toNat * t.blocks.toNat))

/-- The channels of an enumeration, each once (R107), with 1 to 4 targets (R106). -/
def chansOnce (cs : List MedChan) : Bool :=
  decide ((cs.map (fun c => c.chan)).Nodup)
    && cs.all (fun c => decide (1 ≤ c.targets.length) && decide (c.targets.length ≤ 4) && c.targets.all targetOk)

/-- The credits that a far end grants, each channel and class once (R512). -/
def creditsOk (cs : List (BitVec 6 × BitVec 12)) : Bool := decide ((cs.map (fun c => c.1)).Nodup)

/-- The lanes of a port, each at one place (R494). -/
def lanesOnce (ls : List (Fin 4)) : Bool := ls.length == 4 && decide (ls.Nodup)

/-- Is the command one that the outside can send? -/
def Instr.wf (c : Instr) : Bool :=
  match c with
  | .pageReadDone _ _ cws => pageWords cws
  | .scrubRead _ _ cws => pageWords cws
  | .contributionArrive _ _ ls => unitLines ls
  | .retraction _ _ ls => unitLines ls
  | .degradedRead _ _ p os => p.all unitLines && os.all (fun o => o.lines.all unitLines)
  | .reelFetchDone _ ls err => err.isSome || ls.length == 1024
  | .reelWbApply _ _ _ _ ls => reelLines ls
  | .mediumEnumerate cs _ _ => chansOnce cs
  | .configDone _ _ _ cs => creditsOk cs
  | .alignDone _ order _ => lanesOnce order
  | .flitPayload _ _ slots _ => slots.length == 15
  | .zctWrite _ _ _ data => decide (data.length ≤ 141)
  | .zctRead _ _ _ data => decide (data.length ≤ 141)
  | .tsEnrol _ key => key.length == 1793
  | .extest pins _ => pins.length == 22
  | .samplePreload pins _ => pins.length == 22
  | _ => true

end Sys2Proof
end

