-- ==== Sys2Proof/Safety.lean ====
section
/-! DEFINITION. Safety.lean: the terms that claims about runs use: the canonical form of the state's maps, the queue, and what
a step answers. -/

namespace Sys2Proof.Machine

/-- The register file is canonical: offsets strictly rising, and no entry equal to what its register holds after reset. -/
abbrev regsCanon (m : List (Nat × Word)) : Prop := m.Pairwise (fun a b => a.1 < b.1) ∧ ∀ e ∈ m, e.2 ≠ regReset e.1

/-- The arrival counters are canonical: numbers strictly rising, and no entry equal to zero. -/
abbrev countersCanon (m : List (Nat × Word)) : Prop := m.Pairwise (fun a b => a.1 < b.1) ∧ ∀ e ∈ m, e.2 ≠ 0

/-- The maps of the state have their canonical form, so that equal contents are equal data. -/
def Canonical (s : State) : Prop := Memory.wf s.mem ∧ regsCanon s.regs ∧ countersCanon s.counters

/-- Every command that waits is well-formed. -/
def QueueOk (s : State) : Prop := ∀ c ∈ s.pending, c.wf = true

/-- A step that goes on: it answers a next state. No command of this block ends a run. -/
def Completes (s : State) : Prop := ∃ t, step s = .next t

/-! Terms of the statements about commands. -/

/-- The commands that only the fast domain performs (R681): every command but those that the standby and the always-on domain
serve, those of signed composition, of the management ports, of Tailstock and of the test access port, and register writes. -/
def fastOnly (c : Instr) : Bool :=
  match c with
  | .registerWrite ..  | .compose .. 
     | .capRead .. | .regRead .. | .regWrite .. | .mgmtCompose .. | .quote .. | .image .. | .slotWriteDone ..
     | .heartbeat .. | .heartbeatTimer | .setAddr .. | .mgmtAck .. | .mgmtResendTimeout .. | .errAck ..
     | .resetDeadline .. | .dumpRelease .. | .recovInjNested .. | .regSet .. | .regionSet .. | .regionDelete ..
     | .domainSet .. | .groupSet .. | .hostRelease .. | .lineRestore .. | .masterRelease .. | .recoverRelease ..
     | .unitReturn .. | .ripRelease | .keyRevoke .. | .headstock .. | .bootInjSig | .bootInjVerify | .isoInjHost ..
     | .isoInjSession .. | .aonPgRise | .aonPgFall | .stbyPgRise .. | .stbyPgFall | .xtalStart | .resetNPulse ..
     | .pllUnlock .. | .ballastTick | .powerSample .. | .pwrReqRun | .pwrReqStandby | .railTimeout ..
     | .ballastCfgWrite .. | .pmbusPoll .. | .pwrInjHot | .pwrInjPmbFail | .pwrInjStatusFault | .pwrInjTrip | .tsEnFall
     | .tsSessionStart .. | .tsStat | .tsRd .. | .tsWr .. | .tsMrd .. | .tsMwr .. | .tsLog .. | .tsAck .. | .tsDump ..
     | .tsInj .. | .tsRecoverReset | .tsRecoverBoot | .tsLoad .. | .tsEnrol .. | .extest .. | .samplePreload .. | .idcode
     | .clamp | .highz | .bypass .. | .resetNRise | .mgmtLinkDown .. | .mgmtLinkUp .. => false
  | _ => true

/-- Lathe `l` issues a slot of its next bundle (R265): the block is RUNNING, the Lathe is RUNNING, neither stopped nor past its
commit nor past its code, no slot of the bundle stalls (R267), and no injection is armed. -/
def SlotReady (s : State) (l : Fin 128) : Prop :=
  running s = true ∧ latheState s l.val = 2 ∧ (latheAt s l.val).stopped = false ∧ (latheAt s l.val).commit = false ∧
    lathePc s l.val < (latheAt s l.val).ncode ∧ (latheAt s l.val).stall = none ∧
    ((latheAt s l.val).mid = true ∨ bundleStalls s l.val = false) ∧ s.inj = []

/-- A slot has issued: its bundle stays open for its other slots, or with the last slot it ends (R267, R268). -/
def slotEnd (s : State) (l : Fin 128) (no : Nat) (last : Bool) : State :=
  let t := putLathe s l.val { latheAt s l.val with mid := true, stall := none }
  if last then endBundle t l.val no else t

/-- What the S slot's register instructions write (the table of R273): the destination and its value, from the Lathe as the
bundle began. -/
def sValue (s : State) (l : Fin 128) (last : Bool) (sd sa sb : BitVec 5) (imm : BitVec 16) (imm14 : BitVec 14) (p : BitVec 8)
    (ad : BitVec 4) : List (Instr × Word) :=
  let x := latheAt s l.val
  let a := sGet x sa
  let b := sGet x sb
  [(.sli l sd imm last, imm.signExtend 64),
   (.slui l sd imm last, (sGet x sd <<< 16) ||| imm.zeroExtend 64),
   (.sadd l sd sa sb last, a + b), (.ssub l sd sa sb last, a - b), (.smul l sd sa sb last, a * b),
   (.sand l sd sa sb last, a &&& b), (.sor l sd sa sb last, a ||| b), (.sxor l sd sa sb last, a ^^^ b),
   (.sshl l sd sa sb last, a <<< (b.toNat % 64)), (.sshr l sd sa sb last, a >>> (b.toNat % 64)),
   (.ssra l sd sa sb last, a.sshiftRight (b.toNat % 64)),
   (.saddi l sd sa imm14 last, a + imm14.signExtend 64),
   (.smin l sd sa sb last, if a.slt b then a else b), (.smax l sd sa sb last, if a.slt b then b else a),
   (.sparam l sd p last, latheParam s l.val p.toNat),
   (.aget l sd ad last, (aGet x ad).ptr.zeroExtend 64)]

/-- What the V slot's instructions of two or three registers write (R330, R331): the register's new lanes. -/
def vValue (x : Lathe) (l : Fin 128) (last : Bool) (vd va vb vc : BitVec 5) : List (Instr × List (BitVec 5) × List Nat) :=
  let a := lanes (vGet x va)
  let b := lanes (vGet x vb)
  let z3 := fun (f : Nat → Nat → Nat → Nat) => (List.range 256).map (fun i => f (lane (vGet x va) i) (lane (vGet x vb) i) (lane (vGet x vc) i))
  [(.vadd l vd va vb last, [vd, va, vb], List.zipWith fadd a b), (.vsub l vd va vb last, [vd, va, vb], List.zipWith fsub a b),
   (.vmul l vd va vb last, [vd, va, vb], List.zipWith fmul a b), (.vmax l vd va vb last, [vd, va, vb], List.zipWith fmax a b),
   (.vmin l vd va vb last, [vd, va, vb], List.zipWith fmin a b), (.vfma l vd va vb vc last, [vd, va, vb, vc], z3 ffma),
   (.vsel l vd va vb vc last, [vd, va, vb, vc], z3 (fun p q r => if r ≠ 0 then p else q)),
   (.vabs l vd va last, [vd, va], a.map (fun v => v % 2 ^ 31)),
   (.vneg l vd va last, [vd, va], a.map (fun v => v % 2 ^ 31 + (if v < 2 ^ 31 then 2 ^ 31 else 0))),
   (.vexp l vd va last, [vd, va], a.map fexp), (.vlog l vd va last, [vd, va], a.map flog),
   (.vrcp l vd va last, [vd, va], a.map frcp), (.vrsqrt l vd va last, [vd, va], a.map frsqrt),
   (.vtanh l vd va last, [vd, va], a.map ftanh), (.vsigm l vd va last, [vd, va], a.map fsigm),
   (.vsin l vd va last, [vd, va], a.map fsin), (.vcos l vd va last, [vd, va], a.map fcos),
   (.vredsum l vd va last, [vd, va], treeFold fadd 8 a), (.vredmax l vd va last, [vd, va], treeFold fmax 8 a)]

/-- The tmma instructions by the code of their operand formats (R299). -/
def tmmaOps (l : Fin 128) (td : BitVec 3) (aA aB : BitVec 4) (kb : BitVec 10) (acc : Bool) (shape : BitVec 2) (last : Bool) :
    List (Nat × Instr) :=
  [(1, .tmmaBf16 l td aA aB kb acc shape last), (2, .tmmaFp16 l td aA aB kb acc shape last),
   (3, .tmmaE4m3 l td aA aB kb acc shape last), (4, .tmmaE5m2 l td aA aB kb acc shape last),
   (5, .tmmaInt8 l td aA aB kb acc shape last), (6, .tmmaMxfp8 l td aA aB kb acc shape last),
   (7, .tmmaMxfp8e5 l td aA aB kb acc shape last), (8, .tmmaMxfp6 l td aA aB kb acc shape last),
   (9, .tmmaMxfp6e3 l td aA aB kb acc shape last), (10, .tmmaMxint8 l td aA aB kb acc shape last),
   (11, .tmmaMxfp4 l td aA aB kb acc shape last), (12, .tmmaInt4 l td aA aB kb acc shape last),
   (13, .tmmaMxfp4x8 l td aA aB kb acc shape last), (14, .tmmaT2 l td aA aB kb acc shape last),
   (15, .tmmaT2i l td aA aB kb acc shape last)]

/-- The live kernel of an engine's window, as the engine acts for it at its switch port. -/
def engKernel (e : EngKind) (s : State) (n : Nat) : Option Kernel :=
  (liveKernel s (e.get s n).win).map (fun k => k.at (e.port n) (some (e.eng n)))

/-- An engine (a gather context or a kite) runs the next instruction of its program for kernel `k`: the block is RUNNING, the
engine's state is the one that runs a program, it has not stopped, no query runs and its kernel is live. -/
def EngReady (e : EngKind) (s : State) (n : Nat) (k : Kernel) : Prop :=
  running s = true ∧ regFld s (e.stat n) 2 0 = e.run ∧ (e.get s n).stopped = false ∧ (e.get s n).query = none ∧
    engKernel e s n = some k

/-- An instruction of kernel `k` has ended with the engine at `c`: the engine goes to the next one, and the cycle is counted. -/
def engDone (e : EngKind) (s : State) (n : Nat) (k : Kernel) (c : Ctx) : State :=
  e.cycle (ctxAdvance e (readDone s k.win) n c c.pc) n k.dom

/-- An instruction wrote `v` into register `d` and the engine goes to the next one. -/
def engWrite (e : EngKind) (s : State) (n : Nat) (k : Kernel) (d : BitVec 4) (v : Word) : State :=
  engDone e s n k (cSet (e.get s n) d v)

/-- What a gather context's register instructions write (R444). -/
def gValue (s : State) (n : Fin 128) (k : Kernel) (d a b : BitVec 4) (imm : BitVec 16) (imm12 : BitVec 12) (p : BitVec 8) :
    List (Instr × Word) :=
  let c := ctxOf s n.val
  [(.gli n d imm, imm.signExtend 64), (.glui n d imm, (cGet c d <<< 16) ||| imm.zeroExtend 64),
   (.gadd n d a b, cGet c a + cGet c b), (.gaddi n d a imm12, cGet c a + imm12.signExtend 64),
   (.gmul n d a b, cGet c a * cGet c b), (.gparam n d p, BitVec.ofNat 64 (k.param p.toNat)),
   (.gid n d 0, BitVec.ofNat 64 c.rank), (.gid n d 1, BitVec.ofNat 64 k.ctxs.length),
   (.gid n d 2, BitVec.ofNat 64 (n.val / 8)), (.gid n d 3, BitVec.ofNat 64 (ownCtrl s))]

/-- What a kite's register instructions write (R480). -/
def kValue (s : State) (n : Fin 4096) (k : Kernel) (d a b : BitVec 4) (imm : BitVec 16) (imm12 : BitVec 12) (p : BitVec 8) :
    List (Instr × Word) :=
  let c := kiteOf s n.val
  [(.kli n d imm, imm.signExtend 64), (.klui n d imm, (cGet c d <<< 16) ||| imm.zeroExtend 64),
   (.kadd n d a b, cGet c a + cGet c b), (.kaddi n d a imm12, cGet c a + imm12.signExtend 64),
   (.kmul n d a b, cGet c a * cGet c b), (.kparam n d p, BitVec.ofNat 64 (k.param p.toNat)),
   (.kid n d 0, BitVec.ofNat 64 c.rank), (.kid n d 1, BitVec.ofNat 64 k.kites.length),
   (.kid n d 2, BitVec.ofNat 64 (n.val / 128)), (.kid n d 3, BitVec.ofNat 64 (ownCtrl s))]

/-- A loop that an engine may open (R445): fewer than two are open, and the body ends within the innermost one. -/
def LoopFits (c : Ctx) (len : Nat) : Prop := c.loops.length < 2 ∧ ∀ v rest, c.loops = v :: rest → c.pc + len ≤ v.last

/-- The engine after it opened a loop of `trips` trips over its next `len` instructions: a program that ends there faults. -/
def loopOpened (e : EngKind) (s : State) (n len trips : Nat) : State :=
  let c := e.get s n
  let s := e.put s n { c with loops := ⟨c.pc + 1, c.pc + len, trips, 0⟩ :: c.loops, pc := c.pc + 1 }
  if c.ninsn ≤ c.pc + 1 then e.fault s n 3 0 else s

/-- A gather context in state `st` runs batch `b` for kernel `k`. -/
def BatchReady (s : State) (n : Fin 128) (st : Nat) (b : Batch) (k : Kernel) : Prop :=
  running s = true ∧ regFld s (rGctx n.val 0) 2 0 = st ∧ (ctxOf s n.val).stopped = false ∧ (ctxOf s n.val).batch = some b ∧
    engKernel gougeKind s n.val = some k ∧ s.inj = []

/-- Kite `n` runs query `q` over index `x` for kernel `k`. -/
def QueryReady (s : State) (n : Fin 4096) (q : Query) (x : KIdx) (k : Kernel) : Prop :=
  running s = true ∧ regFld s (rKite n.val 0) 2 0 = 1 ∧ (kiteOf s n.val).stopped = false ∧ (kiteOf s n.val).query = some q ∧
    engKernel kiteKind s n.val = some k ∧ k.idxs[q.index]? = some x ∧ s.inj = []

/-- The window holds a whole command whose count check passes (R361): COMMAND mode, FILLING, not ready yet, lines 0 to LEN - 1 and
no others have arrived, the counter holds at least LEN, no injection is armed, and no kernel of a command that a cold reset closed the
window under runs still. -/
def WindowFull (s : State) (w : Fin 1024) : Prop :=
  running s = true ∧ keptOf s w.val = none ∧ mailbox s w.val = false ∧ winState s w.val = 1 ∧ (winOf s w.val).ready = false ∧ s.inj = [] ∧
    (winOf s w.val).arrived = List.range (hdr s w.val 0 2) ∧ 1 ≤ hdr s w.val 0 2 ∧ hdr s w.val 0 2 ≤ 1024 ∧
    hdr s w.val 0 2 ≤ (counter s (winCtr w.val)).toNat

/-- The ARM of MODE `mode` in window `w` is served, and its checks give the area's offset `off` (R366, R367). -/
def ArmServed (s : State) (w : Fin 1024) (mode off : Nat) : Prop :=
  serving s w.val 4 = true ∧ hdr s w.val 52 1 = mode ∧ armCheck s w.val = .inr off

/-- Every engine of kernel `k` has reported done, and what its schedule fired has completed (R166, R349). -/
def AllDone (s : State) (k : Kernel) : Prop :=
  k.done.length = k.lathes.length + k.ctxs.length + k.kites.length ∧ k.hspool = [] ∧ k.units.any (fun u => s.fetches.contains u) = false

/-- A line of the home or draft range (R41). -/
def homeRange (off : Nat) : Prop := target off = .home ∨ ∃ d x, target off = .draft d x

/-- A host that is VALID, not fenced and not frozen sends a request for a line of this controller's home or draft range whose home
is READY, while the block is RUNNING and no injection is armed. -/
def HostPath (s : State) (n : Fin 64) (addr : BitVec 60) : Prop :=
  running s = true ∧ fenced s n.val = false ∧ frozen s (.host n) = false ∧ hostValid s n.val = true ∧ s.inj = [] ∧
    route s addr.toNat = .own (addr.toNat % 2 ^ 50) ∧ homeRange (addr.toNat % 2 ^ 50) ∧
    homeReady s (homeOf (addr.toNat % 2 ^ 50)) = true

/-- The home accepts request `r` for a line of region `rg` (R205, R222, R644 to R649, R759): a coherent one comes from a host and is for a
COHERENT region; the host has room for it; the region is not being deleted, its version is not written directly, its draft is OPEN;
the domain holds the grant; and a tether region's line is written whole. -/
def Accepted (s : State) (r : Req) (rg : Nat) : Prop :=
  let coh := r.op == .rds || r.op == .rde || r.op == .upgr || r.op == .wrback || r.op == .evict
  let back := r.op == .wrback || r.op == .evict
  regionOf s r.off = some rg ∧ (coh = true → (hostNo r.src).isNone = false ∧ rgCoherent s rg = true) ∧
    ((hostNo r.src).isSome = true → outstanding s (homeOf r.off) r.src < regFld s rCohCfg 15 8) ∧
    (r.off < 2 ^ 48 → rgDeleting s rg = false) ∧ (back = false → permitRegion s (masterDom s r.src) rg r.op.writes = true) ∧
    (r.off < 2 ^ 48 → r.op.writes = true → rgVersioned s rg = false) ∧
    (2 ^ 48 ≤ r.off → r.op.writes = true → ∃ d x, draftAt s r.off = some (d, x) ∧ drState s d = 1) ∧
    (isTether s rg = true → r.op = .wrnc → fullMask r = true)

/-- Composition operations are taken: the device runs, no rip panel is pulled, the boot unit is not in recovery, and no earlier
command waits for its completion (R608, R661, R662). -/
def Composable (s : State) : Prop :=
  running s = true ∧ ripHeld s = false ∧ bootState s ≠ 1

/-- An operation has left `t`, and the homes then do what it lets them do (R662). -/
def taken (t : State) : State := composeAccept { s := t } 65537 0 0 0

/-- The homes have nothing in service, and no composition command waits. -/
def HomesIdle (t : State) : Prop :=
  t.trk = [] ∧ t.blockq = [] ∧ t.recallq = [] ∧ t.wbq = [] ∧ t.restoreq = [] ∧ t.cmpWait = []

/-- A line whose regions and poison let LINE_RESTORE restore it: in a region that takes writes, poisoned, its source readable. -/
def Restorable (s : State) (first : BitVec 64) (off r v o q : Nat) : Prop :=
  route s (first.toNat % 2 ^ 60) = .own off ∧ first.toNat < 2 ^ 60 ∧ off % 64 = 0 ∧ off + 64 < 2 ^ 48 ∧ regionOf s off = some q ∧
    rgVersioned s q = false ∧ r < 16384 ∧ rgValid s r = true ∧ rgVersioned s r = true ∧ o % 64 = 0 ∧ o + 64 ≤ rgSize s r ∧
    (versionsOf s r).contains v = true ∧ isPoisoned s off = true ∧ poisonedAt s r (spKey (spVersion r v) o) = false

/-- What a page read counts and orders (R138, R139, R148, R159, R705): its codewords' steps and bits in the channel's counters, what its
band met, and the commands of each step of the ladder up to the highest. -/
def readNoted (s : State) (dom : Option Nat) (loc : BitVec 40) (page : Fin 4) (cws : List (BitVec 4 × BitVec 16)) : State :=
  let c := locChan loc.toNat page.val
  let step := cws.foldl (fun m x => max m x.1.toNat) 0
  let at' := fun (lo hi : Nat) => (cws.filter (fun x => decide (lo ≤ x.1.toNat) && decide (x.1.toNat ≤ hi))).length
  let s := pmc (lunOk s c loc.toNat) (184 + c / 16) 2 (cws.foldl (fun m x => m + x.1.toNat) 0) dom
  let s := if page.val % 2 = 0 then pmc s (184 + c / 16) 0 1 dom else s
  let s := medCnt (medCnt s c 0x10 1) c 0x28 (cws.foldl (fun m x => m + x.2.toNat) 0)
  let s := medCnt (medCnt (medCnt s c 0x30 (at' 1 7)) c 0x38 (at' 8 8)) c 0x40 (at' 9 9)
  ladderSteps (bandRead s loc.toNat page.val step (cws.foldl (fun m x => max m x.2.toNat) 0)) loc.toNat page.val step

/-- What a message of the manager leaves before its request is served: it is heard, and its ACK and SACK are taken (R577, R586). -/
def mgmtCame (s : State) (src : MgmtFrom) : State := mgmtAckIn (mgmtHeard s src) src.ack.toNat src.sack.toNat

/-- A management request arrives next in order at a port that takes it, with none held (R574, R577). -/
def MgmtNext (s : State) (src : MgmtFrom) (seq : BitVec 32) : Prop :=
  mgmtTakes s src = true ∧ seq.toNat = (mgmtCame s src).mgmtNext ∧ (mgmtCame s src).mgmtHeld = []

/-- The state in which a request that is next in order is served. -/
def mgmtTaken (s : State) (src : MgmtFrom) : State :=
  { mgmtCame s src with mgmtNext := ((mgmtCame s src).mgmtNext + 1) % 2 ^ 32 }

/-- Headstock runs: the standby domain is up, BOOT_STAT reads HEADSTOCK, RESET_N is high and the device is not waking (R667). -/
def HeadstockDue (s : State) : Prop :=
  s.stbyUp = true ∧ bootState s = 0 ∧ s.resetLow = false ∧ pwrState s < 3 ∧ s.forceRecovery = false

/-- The boot count advanced, and the identity key unwrapped (R668, R676). -/
def bootCounted (s : State) : State :=
  setBit (regSet s (rBoot 0x18) (reg s (rBoot 0x18) + 1)) (rBoot 0) 4

end Sys2Proof.Machine
end

