-- ==== Sys2Proof/Certificates/Slice0/Obligations.lean ====
section
/-! DEFINITION. Certificates/Slice0/Obligations.lean: the statements about the block. A clause of the form `exec c s = .next t`
says that the command completes and gives its whole effect: whatever `t` does not name is as it was. -/

open Sys2Proof Sys2Proof.Machine

/-! ## The queue, reset and the canonical form -/

/-- A step with a command at the front of the queue is that command's meaning on the state with the queue's rest. -/
def Obligations.StepRunsFrontCommand : Prop :=
  ∀ (s : State) (c : Instr) (rest : List Instr), s.pending = c :: rest → step s = exec c { s with pending := rest }

/-- With no command waiting a step always answers a next state with none waiting, which is the model's own idle cycle (log entry 6): it
changes nothing while the block is not RUNNING, and with no live Lathe, no context or kite placed, nothing on a home-side spool, and no
access or reel read waiting at the gateway it leaves memory, poison, arrival counters, windows, kernels, the tracker and everything sent
as they were. -/
def Obligations.IdleCycleKeepsTheQuiet : Prop :=
  ∀ s : State, s.pending = [] → ∃ t, step s = .next t ∧ t.pending = [] ∧ (running s = false → t = s) ∧
    ((∀ l, l < 128 → latheLive s l = false) → s.ctxs = [] → s.kites = [] → (∀ k ∈ s.kernels, k.hspool = []) →
      s.missq = [] → s.reelWaits = [] → t.mem = s.mem ∧ t.poison = s.poison ∧
      t.counters = s.counters ∧ t.wins = s.wins ∧ t.kernels = s.kernels ∧ t.trk = s.trk ∧ t.out = s.out ∧ t.free = s.free)

/-- Every command answers a next state in every state (no fault and no refusal ends a run, log entry 3), and acts on everything but
the queue (log entry 7): the queue after it is the queue before it. -/
def Obligations.CommandsLeaveQueue : Prop :=
  ∀ (c : Instr) (s : State), ∃ t, exec c s = .next t ∧ t.pending = s.pending

/-- While PWR_STAT.STATE is not RUNNING, every command of the fast domain leaves the state as it was. That such a command is an
event that cannot occur, and so changes nothing, is the model's reading of R681 (log entry 4). -/
def Obligations.FastCommandsWaitForRunning : Prop :=
  ∀ (c : Instr) (s : State), running s = false → fastOnly c = true → exec c s = .next s

/-- For every state whose memory, register file and arrival counters are canonical (addresses strictly rising, no entry equal to
what an unlisted one reads as), every step from it answers a state that is canonical too. -/
def Obligations.StepKeepsCanonical : Prop :=
  ∀ s t : State, Canonical s → step s = .next t → Canonical t

/-- The state after reset is canonical, memory lists nothing and no command waits; every register of the control window holds the
value that its map gives (log entry 2 where the map gives none); among them the power state is ALWAYS_ON, the first and the last
window are CLOSED, the frame pool is 8,355,840 frames, and a register of no map reads zero. -/
def Obligations.ResetStateValues : Prop :=
  (Canonical State.reset ∧ QueueOk State.reset ∧ State.reset.mem = [] ∧ State.reset.pending = []) ∧
  (∀ off, reg State.reset off = regReset off) ∧ regFld State.reset (rPwr 8) 2 0 = 0 ∧
  regFld State.reset (rWinStat 0) 2 0 = 7 ∧ regFld State.reset (rWinStat 1023) 2 0 = 7 ∧ State.reset.freeFrames = 8355840 ∧
  (∀ off, regRow off = none → off ≠ 0x200000 → off ≠ 0x200010 → reg State.reset off = 0) ∧
  (∀ r ∈ regTable, regRow r.base = some r → r.base ≠ 0x200000 → r.base ≠ 0x200010 → reg State.reset r.base = BitVec.ofNat 64 r.reset)

/-! ## Injections -/

/-- While the block is RUNNING the injection registers of the Lathes, the plan loader, the gouges, the walkers, the homes, the medium
channels, the fabric ports, the switch, the gateway, the stacks and the command Ethernet ports arm the kind written with its argument,
and KIND 0 of an engine clears its persistent injections; KIND 4 of a Lathe arms when no kernel runs on it and hangs the one that does.
The injection registers of boot, isolation and power do so while the standby domain is up and change nothing while it is down. Nothing
else of the state changes. -/
def Obligations.InjectionsArm : Prop :=
  ∀ s : State,
    (running s = true →
      (∀ l, exec (.latheInjClear l) s = .next (clearInj s (rLathe l.val 0x38))) ∧
      (∀ l, exec (.latheInjChuckCe l) s = .next (armInj s (rLathe l.val 0x38) 1 0 false)) ∧
      (∀ l, exec (.latheInjChuckUe l) s = .next (armInj s (rLathe l.val 0x38) 2 0 false)) ∧
      (∀ l, exec (.latheInjParity l) s = .next (armInj s (rLathe l.val 0x38) 3 0 false)) ∧
      (∀ l, latheLive s l.val = false → exec (.latheInjWatchdog l) s = .next (armInj s (rLathe l.val 0x38) 4 0 false)) ∧
      (∀ l, latheLive s l.val = true → exec (.latheInjWatchdog l) s = .next (latheFault s l.val 16 0 0)) ∧
      (∀ l, exec (.latheInjCwaitFail l) s = .next (armInj s (rLathe l.val 0x38) 5 0 false)) ∧
      (∀ l persist, exec (.latheInjStop l persist) s = .next (armInj s (rLathe l.val 0x38) 6 0 persist)) ∧
      exec .ldrInjDigest s = .next (armInj s rLdrInj 1 0 false) ∧
      exec .ldrInjAfter s = .next (armInj s rLdrInj 2 0 false) ∧
      (∀ w, exec (.ldrInjBadlen w) s = .next (armInj s rLdrInj 3 w.val false)) ∧
      (∀ g, exec (.gougeInjClear g) s = .next (clearInj s (rGouge g.val 0x10))) ∧
      (∀ g, exec (.gougeInjTableUe g) s = .next (armInj s (rGouge g.val 0x10) 1 0 false)) ∧
      (∀ g, exec (.gougeInjWatchdog g) s = .next (armInj s (rGouge g.val 0x10) 2 0 false)) ∧
      (∀ g, exec (.gougeInjGwait g) s = .next (armInj s (rGouge g.val 0x10) 3 0 false)) ∧
      (∀ g, exec (.gougeInjPoison g) s = .next (armInj s (rGouge g.val 0x10) 4 0 false)) ∧
      (∀ g persist, exec (.gougeInjStop g persist) s = .next (armInj s (rGouge g.val 0x10) 5 0 persist)) ∧
      (∀ w, exec (.walkerInjClear w) s = .next (clearInj s (rWalker w.val 0x10))) ∧
      (∀ w, exec (.walkerInjKmemUe w) s = .next (armInj s (rWalker w.val 0x10) 1 0 false)) ∧
      (∀ w, exec (.walkerInjWatchdog w) s = .next (armInj s (rWalker w.val 0x10) 2 0 false)) ∧
      (∀ w, exec (.walkerInjKwait w) s = .next (armInj s (rWalker w.val 0x10) 3 0 false)) ∧
      (∀ w, exec (.walkerInjPoison w) s = .next (armInj s (rWalker w.val 0x10) 4 0 false)) ∧
      (∀ w persist, exec (.walkerInjStop w persist) s = .next (armInj s (rWalker w.val 0x10) 5 0 persist)) ∧
      (∀ h host, exec (.haInjDropSnoopAnswer h host) s = .next (armInj s (rHome h.val 0x10) 1 host.val false)) ∧
      (∀ h host, exec (.haInjDropCmpack h host) s = .next (armInj s (rHome h.val 0x10) 2 host.val false)) ∧
      (∀ h, exec (.haInjDirUe h) s = .next (armInj s (rHome h.val 0x10) 3 0 false)) ∧
      (∀ h, exec (.haInjSfUe h) s = .next (armInj s (rHome h.val 0x10) 4 0 false)) ∧
      (∀ h, exec (.haInjPoison h) s = .next (armInj s (rHome h.val 0x10) 5 0 false)) ∧
      (∀ c a, exec (.medInjFlip c a) s = .next (armInj s (rMedCh c.val 0x88) 1 a.toNat false)) ∧
      (∀ c a, exec (.medInjRetry c a) s = .next (armInj s (rMedCh c.val 0x88) 2 a.toNat false)) ∧
      (∀ c, exec (.medInjUncorr c) s = .next (armInj s (rMedCh c.val 0x88) 3 0 false)) ∧
      (∀ c, exec (.medInjProgFail c) s = .next (armInj s (rMedCh c.val 0x88) 4 0 false)) ∧
      (∀ c, exec (.medInjEraseFail c) s = .next (armInj s (rMedCh c.val 0x88) 5 0 false)) ∧
      (∀ c, exec (.medInjTimeout c) s = .next (armInj s (rMedCh c.val 0x88) 6 0 false)) ∧
      (∀ p, exec (.fabInjCrc p) s = .next (armInj s (rFab p.val 0x18) 1 0 false)) ∧
      (∀ p, exec (.fabInjBadRx p) s = .next (armInj s (rFab p.val 0x18) 2 0 false)) ∧
      (∀ p lane, exec (.fabInjLaneFail p lane) s = .next (armInj s (rFab p.val 0x18) 3 lane.val false)) ∧
      exec .swInjCellUe s = .next (armInj s (rSw 0x18) 1 0 false) ∧
      exec .swInjMirrorDrop s = .next (armInj s (rSw 0x18) 3 0 false) ∧
      exec .gwInjRemoteErr s = .next (armInj s (rGw 0x10) 1 0 false) ∧
      exec .gwInjTimeout s = .next (armInj s (rGw 0x10) 2 0 false) ∧
      exec .gwInjStageUe s = .next (armInj s (rGw 0x10) 3 0 false) ∧
      (∀ k, exec (.stkInjCe k) s = .next (armInj s (rStk k.val 0x18) 1 0 false)) ∧
      (∀ k, exec (.stkInjUe k) s = .next (armInj s (rStk k.val 0x18) 2 0 false)) ∧
      (∀ e, exec (.ethInjCrc e) s = .next (armInj s (rEth e.val 0x10) 1 0 false)) ∧
      (∀ e, exec (.ethInjDrop e) s = .next (armInj s (rEth e.val 0x10) 2 0 false))) ∧
    (s.stbyUp = true →
      exec .bootInjSig s = .next (armInj s (rBoot 0x10) 1 0 false) ∧
      exec .bootInjVerify s = .next (armInj s (rBoot 0x10) 2 0 false) ∧
      (∀ n, exec (.isoInjHost n) s = .next (armInj s (rBoot 0x138) 1 n.val false)) ∧
      (∀ n, exec (.isoInjSession n) s = .next (armInj s (rBoot 0x138) 2 n.val false)) ∧
      exec .pwrInjHot s = .next (armInj s (rPwr 0x38) 1 0 false) ∧
      exec .pwrInjPmbFail s = .next (armInj s (rPwr 0x38) 2 0 false) ∧
      exec .pwrInjStatusFault s = .next (armInj s (rPwr 0x38) 3 0 false)) ∧
    (s.stbyUp = false →
      exec .bootInjSig s = .next s ∧ exec .bootInjVerify s = .next s ∧ (∀ n, exec (.isoInjHost n) s = .next s) ∧
      (∀ n, exec (.isoInjSession n) s = .next s) ∧ exec .pwrInjHot s = .next s ∧ exec .pwrInjPmbFail s = .next s ∧
      exec .pwrInjStatusFault s = .next s)

/-- An injection that names an event with no later trigger performs that event at once: a retrain, a port going down, a stack's
tracker, counter or training error, a control-window access error, a unit's reset, a nested error, the rip panel, a tether sweep,
an ABORT message to the controllers that a domain shares, an uncorrectable error of the control complex, a thermal trip, and the
FEC and link events of a command Ethernet port. -/
def Obligations.ImmediateInjections : Prop :=
  (∀ s : State, running s = true →
    (∀ p, exec (.fabInjRetrain p) s = .next (startRetrain s p.val)) ∧
    (∀ p, exec (.fabInjDown p) s = .next (portDown s p.val)) ∧
    (∀ p : Fin 42, p.val < 16 → exec (.swInjPortDown p) s = .next (portDown s p.val)) ∧
    (∀ p : Fin 42, 16 ≤ p.val → p.val < 18 → exec (.swInjPortDown p) s = .next (ethDown s (p.val - 16))) ∧
    (∀ p : Fin 42, 18 ≤ p.val → exec (.swInjPortDown p) s = .next (portFlush s p.val)) ∧
    (∀ k, exec (.stkInjTrkUe k) s = .next (stkCalls s k.val 3 false)) ∧
    (∀ k, exec (.stkInjCtrUe k) s = .next (stkCalls s k.val 4 true)) ∧
    (∀ k, exec (.stkInjTrain k) s = .next (stkCalls s k.val 2 true)) ∧
    exec .recovInjCwAccess s = .next (cwAccessErr s (rRecov 0x20) 0) ∧
    (∀ u, exec (.recovInjReset u) s = .next (resetUnit s (u.toNat / 4096) (u.toNat % 4096))) ∧
    (∀ u : BitVec 16, ripHeld s = false → recovOf s (u.toNat / 4096) (u.toNat % 4096) ≠ none →
      exec (.recovInjNested u) s = .next (nestedError s (u.toNat / 4096) (u.toNat % 4096))) ∧
    exec .recovInjRip s = .next (ripPull s 15 0) ∧
    exec .recovInjTetherSweep s = .next (forEach (List.range 16) s tetherSweep) ∧
    (∀ d, exec (.recovInjAbort d) s = .next (abortSend s d.toNat 17)) ∧
    exec .recovInjCtrlUe s = .next (wholeReset (recovEvent s 11 11 { cls := 8, code := 11, action := 10 }) 0) ∧
    (∀ e, exec (.ethInjFec e) s = .next (ethFec s e.val)) ∧
    (∀ e, exec (.ethInjLinkDown e) s = .next (ethDown s e.val))) ∧
  (∀ s : State, 3 ≤ pwrState s → exec .pwrInjTrip s = .next (thermalTrip s))

/-! ## Lathes -/

/-- For a Lathe that issues: sli, slui, sadd, ssub, smul, sand, sor, sxor, sshl, sshr, ssra, saddi, smin, smax, sparam and aget
stage exactly the register write of the table of R273; sid does it for the items 0 to 7; loop and loop_p open their loop; aset
stages a generator's field; commit marks the bundle; nop changes nothing; then the bundle stays open or ends. For a Lathe whose next
bundle has a slot that lacks an operand or a resource, the slot that is given first issues nothing and is marked as the one that stalls. -/
def Obligations.ScalarSlotStagesItsResult : Prop :=
  (∀ (s : State) (l : Fin 128) (last : Bool), SlotReady s l →
    (∀ sd sa sb imm imm14 p ad, ∀ e ∈ sValue s l last sd sa sb imm imm14 p ad,
      exec e.1 s = .next (slotEnd (stage s l.val (.sreg sd.toNat e.2)) l 0 last)) ∧
    (∀ sd (k : BitVec 4), k.toNat < 8 → exec (.sid l sd k last) s =
      .next (slotEnd (stage s l.val (.sreg sd.toNat (BitVec.ofNat 64 (idItem (latheAt s l.val) s l.val k.toNat)))) l 0 last)) ∧
    (∀ len1 n1, exec (.loop l len1 n1 last) s =
      .next (slotEnd (putLathe s l.val { latheAt s l.val with opening := some (n1.toNat + 1, len1.toNat + 1) }) l 0 last)) ∧
    (∀ len1 p, exec (.loopP l len1 p last) s = .next (slotEnd (putLathe s l.val { latheAt s l.val with
      opening := some ((latheParam s l.val p.toNat).toNat % 2 ^ 32, len1.toNat + 1) }) l 0 last)) ∧
    (∀ ad f sa, f.toNat < 11 → exec (.aset l ad f sa last) s =
      .next (slotEnd (stage s l.val (.agen ad.toNat f.toNat (sGet (latheAt s l.val) sa))) l 0 last)) ∧
    exec (.commit l last) s = .next (slotEnd (putLathe s l.val { latheAt s l.val with commit := true }) l 0 last) ∧
    exec (.nop l last) s = .next (slotEnd s l 0 last)) ∧
  (∀ (s : State) (l : Fin 128) (last : Bool), running s = true → latheState s l.val = 2 → (latheAt s l.val).stopped = false →
    (latheAt s l.val).commit = false → lathePc s l.val < (latheAt s l.val).ncode → (latheAt s l.val).stall = none →
    (latheAt s l.val).mid = false → bundleStalls s l.val = true → ∀ u : Nat → State,
    u = (fun no => putLathe s l.val { latheAt s l.val with stall := some no }) →
    exec (.nop l last) s = .next (u 0) ∧ (∀ vs ag, exec (.mstore l vs ag last) s = .next (u 1)) ∧
    (∀ td, exec (.tzero l td last) s = .next (u 2)) ∧ (∀ vd va, exec (.vabs l vd va last) s = .next (u 3)))

/-- For a Lathe that issues: an undefined bundle, sid of items 8 to 15, aset of fields 11 to 15, tread and tload of parts 10 to 15,
a tmma of shape 3 and vcmp of a comparison above 3 raise the ILLEGAL fault (code 1) in their slot; a RUNNING Lathe whose program
counter is past its code raises NOCOMMIT (code 3). -/
def Obligations.IllegalOperandsFault : Prop :=
  (∀ (s : State) (l : Fin 128) (last : Bool), SlotReady s l →
    (∀ no, exec (.illegalBundle l no) s = .next (latheFault s l.val 1 no.val 0)) ∧
    (∀ sd (k : BitVec 4), 8 ≤ k.toNat → exec (.sid l sd k last) s = .next (latheFault s l.val 1 0 0)) ∧
    (∀ ad (f : BitVec 4) sa, 11 ≤ f.toNat → exec (.aset l ad f sa last) s = .next (latheFault s l.val 1 0 0)) ∧
    (∀ vd ts (part : BitVec 4), 10 ≤ part.toNat → exec (.tread l vd ts part last) s = .next (latheFault s l.val 1 2 0)) ∧
    (∀ td vs (part : BitVec 4), 10 ≤ part.toNat → exec (.tload l td vs part last) s = .next (latheFault s l.val 1 2 0)) ∧
    (∀ td aA aB kb acc, ∀ e ∈ tmmaOps l td aA aB kb acc 3 last, exec e.2 s = .next (latheFault s l.val 1 2 0)) ∧
    (∀ vd va vb (mod : BitVec 4), 4 ≤ mod.toNat → ([vd, va, vb].any (vPending (latheAt s l.val))) = false →
      exec (.vcmp l vd va vb mod last) s = .next (latheFault s l.val 1 3 0))) ∧
  (∀ (s : State) (l : Fin 128), running s = true → latheState s l.val = 2 → (latheAt s l.val).ncode ≤ lathePc s l.val →
    (latheAt s l.val).stopped = false → exec (.nocommitFault l) s = .next (latheFault s l.val 3 0 0))

/-- For a Lathe that issues and runs kernel k, when the generator's pointer is aligned and its bytes lie in the Chuck: mload stages
the 1,024 bytes read, sld the 8 bytes, mstore writes the vector as 16 lines, and sst writes the scalar's 8 bytes to a Chuck
that the kernel may store to outside counted areas and replicas. The generator has advanced once. -/
def Obligations.ChuckLoadsAndStores : Prop :=
  ∀ (s : State) (l : Fin 128) (last : Bool) (ag : BitVec 4) (k : Kernel) (c x : Nat), SlotReady s l →
    latheKernel (useGen s l.val ag).2 l.val = some k → chuckAddr (useGen s l.val ag).1 = (c, x) →
    (∀ vd ds t, vPending (latheAt s l.val) vd = false → (useGen s l.val ag).1.toNat % 64 = 0 → x + 1024 ≤ 6 * 2 ^ 20 →
      chuckRead (useGen s l.val ag).2 k c x 16 = .ok ds t →
      exec (.mload l vd ag last) s =
        .next (slotEnd (stage (noteLoad t l.val c x k.dom) l.val (.vreg vd.toNat (BitVec.ofNat 8192 (linesNum ds)))) l 1 last)) ∧
    (∀ vs t, vPending (latheAt s l.val) vs = false → (useGen s l.val ag).1.toNat % 64 = 0 → x + 1024 ≤ 6 * 2 ^ 20 →
      chuckWrite (useGen s l.val ag).2 k c x (blankLines (vGet (latheAt s l.val) vs).toNat 1024) = .ok () t →
      exec (.mstore l vs ag last) s = .next (slotEnd t l 1 last)) ∧
    (∀ sd d t, (useGen s l.val ag).1.toNat % 8 = 0 → x + 8 ≤ 6 * 2 ^ 20 →
      kReadChuck (useGen s l.val ag).2 k c x = .ok d t →
      exec (.sld l sd ag last) s =
        .next (slotEnd (stage (noteLoad t l.val c x k.dom) l.val (.sreg sd.toNat (lineWord d (x % 64 / 8)))) l 1 last)) ∧
    (∀ sa, (useGen s l.val ag).1.toNat % 8 = 0 → x + 8 ≤ 6 * 2 ^ 20 →
      areaAt (useGen s l.val ag).2 (chuckOff c x) = none → replicaAt (useGen s l.val ag).2 c x = none →
      runsKernel (useGen s l.val ag).2 c k.win = true →
      exec (.sst l sa ag last) s =
        .next (slotEnd (putScratchN (useGen s l.val ag).2 c x 8 (sGet (latheAt s l.val) sa).toNat) l 1 last))

/-- For a Lathe that issues and runs kernel k: mspool puts the descriptor with its offsets into the spool; carm arms the handle's
area; cwait goes on when the counter has reached its target and waits when it has not and the timeout is not zero; cread stages the
counter's value; mfence and mdrain wait while the spool holds descriptors, tfence while a tmma is queued. The events that end
these waits let the next bundle issue once no other wait holds it, the end of a tfence with every queued tmma's operands read, and a
timeout of cwait is the fault TIMEOUT (9) of the bundle that waited. -/
def Obligations.SpoolCountersAndFences : Prop :=
  (∀ (s : State) (l : Fin 128) (last : Bool) (k : Kernel), SlotReady s l → latheKernel s l.val = some k →
    (∀ dix sa sb ws, planDesc s k.plan 2 (latheAt s l.val).image dix.toNat = some ws → (latheAt s l.val).spool.length < 64 →
      (Desc.ofWords (addOffsets ws (sGet (latheAt s l.val) sa) (sGet (latheAt s l.val) sb))).ok s = true →
      (Desc.ofWords (addOffsets ws (sGet (latheAt s l.val) sa) (sGet (latheAt s l.val) sb))).op = 2 →
      exec (.mspool l dix sa sb last) s = .next (slotEnd (putLathe s l.val { latheAt s l.val with
        spool := (latheAt s l.val).spool ++ [⟨dix.toNat, addOffsets ws (sGet (latheAt s l.val) sa) (sGet (latheAt s l.val) sb), lathePc s l.val, {}⟩] }) l 1 last)) ∧
    (∀ (ch : BitVec 4) h, handleOf k (latheAt s l.val).rank ch.toNat = some h →
      (h.area ≠ none → exec (.carm l ch last) s = .next (slotEnd (armHandle s h) l 1 last)) ∧
      (∀ sd far v, handleValue s k h far = some v →
        exec (.cread l sd ch far last) s = .next (slotEnd (stage s l.val (.sreg sd.toNat v)) l 1 last)) ∧
      (∀ st so far v, handleValue s k h far = some v →
        (sGet (latheAt s l.val) st).toNat ≤ v.toNat → exec (.cwait l ch st so far last) s = .next (slotEnd s l 1 last)) ∧
      (∀ st so far v, handleValue s k h far = some v → v.toNat < (sGet (latheAt s l.val) st).toNat →
        sGet (latheAt s l.val) so ≠ 0 → exec (.cwait l ch st so far last) s =
          .next (slotEnd (latheWait s l.val (.cwait h.ctr (sGet (latheAt s l.val) st).toNat (lathePc s l.val))) l 1 last)))) ∧
  (∀ (s : State) (l : Fin 128) (last : Bool), SlotReady s l →
    ((latheAt s l.val).spool = [] → exec (.mfence l last) s = .next (slotEnd s l 1 last) ∧
      exec (.mdrain l last) s = .next (slotEnd s l 1 last)) ∧
    ((latheAt s l.val).spool ≠ [] → exec (.mfence l last) s = .next (slotEnd (latheWait s l.val .mfence) l 1 last) ∧
      exec (.mdrain l last) s = .next (slotEnd (latheWait s l.val .mdrain) l 1 last)) ∧
    ((latheAt s l.val).tq.any TqEnt.isTmma = false → exec (.tfence l last) s = .next (slotEnd s l 2 last)) ∧
    ((latheAt s l.val).tq.any TqEnt.isTmma = true → exec (.tfence l last) s = .next (slotEnd (tfenceWait s l.val) l 2 last))) ∧
  (∀ (s : State) (l : Fin 128), running s = true →
    ((latheAt s l.val).wait = .mfence → (latheAt s l.val).spool = [] → exec (.mfenceDone l) s = .next (endWait s l.val)) ∧
    ((latheAt s l.val).wait = .mdrain → (latheAt s l.val).spool = [] → exec (.mdrainDone l) s = .next (endWait s l.val)) ∧
    ((latheAt s l.val).tfence = true → exec (.tfenceDone l) s = .next
      (endTfence (forEach (List.range (latheAt s l.val).tq.length) s (fun t i => startTq t l.val i)) l.val)) ∧
    (∀ ctr target pc k far v, (latheAt s l.val).wait = .cwait ctr target pc → latheKernel s l.val = some k →
      (handleValue s k ⟨ctr, none⟩ far = some v → target ≤ v.toNat →
        exec (.cwaitSatisfied l far) s = .next (endWait s l.val)) ∧
      exec (.cwaitTimeout l) s = .next (latheFaultAt s l.val 9 1 pc ctr)))

/-- For a Lathe that issues: a tmma of any of the 15 operand formats whose stripes lie aligned in the Lathe's own Chuck joins the
tensor queue, its generators' uses staged for the end of the bundle, and is counted; in an empty queue it has read its operands. tzero,
tread and tload act at once on an empty queue and otherwise join it. A tmma at the head of the queue writes its tile and frees its
entry, the entries behind it up to the next tmma follow, and that one starts. -/
def Obligations.TensorSlot : Prop :=
  (∀ (s : State) (l : Fin 128) (last : Bool) (k : Kernel) (td : BitVec 3) (aA aB : BitVec 4) (kb : BitVec 10) (acc : Bool)
      (shape : BitVec 2), SlotReady s l → latheKernel s l.val = some k → shape ≠ 3 →
    (latheAt s l.val).tq.length < 4 → ∀ e ∈ tmmaOps l td aA aB kb acc shape last,
      ∀ t, t = tmmaEntry (latheAt s l.val) e.1 td aA aB kb acc shape (lathePc s l.val) → t.fault l.val = none →
      (∀ t' u, (latheAt s l.val).tq = [] → readTmma s k t = .inl (t', u) →
        exec e.2 s = .next (slotEnd (tmmaQueued u l.val k aA aB t') l 2 last)) ∧
      ((latheAt s l.val).tq ≠ [] → exec e.2 s = .next (slotEnd (tmmaQueued s l.val k aA aB t) l 2 last))) ∧
  (∀ (s : State) (l : Fin 128) (last : Bool) (td : BitVec 3) (vr : BitVec 5) (part : BitVec 4), SlotReady s l → part.toNat < 10 →
    vPending (latheAt s l.val) vr = false →
    ((latheAt s l.val).tq = [] →
      exec (.tzero l td last) s = .next (slotEnd (putLathe s l.val (setTile (latheAt s l.val) td.toNat 0)) l 2 last) ∧
      exec (.tread l vr td part last) s =
        .next (slotEnd (stage s l.val (.vreg vr.toNat (tilePart (tGet (latheAt s l.val) td) part.toNat))) l 2 last) ∧
      exec (.tload l td vr part last) s = .next (slotEnd (putLathe s l.val (setTile (latheAt s l.val) td.toNat
        (tilePut (tGet (latheAt s l.val) td) part.toNat (vGet (latheAt s l.val) vr)))) l 2 last)) ∧
    ((latheAt s l.val).tq ≠ [] → (latheAt s l.val).tq.length < 4 →
      exec (.tzero l td last) s = .next (slotEnd (putLathe s l.val { latheAt s l.val with
        tqNew := true, tq := (latheAt s l.val).tq ++ [.tzero td.toNat] }) l 2 last) ∧
      exec (.tload l td vr part last) s = .next (slotEnd (putLathe s l.val { latheAt s l.val with
        tqNew := true, tq := (latheAt s l.val).tq ++ [.tload td.toNat part.toNat (vGet (latheAt s l.val) vr)] }) l 2 last) ∧
      (∀ u, u = stage s l.val (.mark vr.toNat) → exec (.tread l vr td part last) s = .next (slotEnd (putLathe u l.val { latheAt u l.val with
        tqNew := true, tq := (latheAt u l.val).tq ++ [.tread vr.toNat td.toNat part.toNat] }) l 2 last)))) ∧
  (∀ (s : State) (l : Fin 128) (e : TqEnt) (rest : List TqEnt), running s = true → latheState s l.val = 2 →
    (latheAt s l.val).tq = e :: rest → e.isTmma = true → ∃ y, y = drainTq 4 (runTq { latheAt s l.val with tq := rest } e) ∧
      exec (.tmmaWriteback l) s = .next (startTq (tagEnded (putLathe s l.val y) l.val (rest.length + 1 - y.tq.length)
        (((kernelOf s (latheAt s l.val).win).map (fun k => k.dom)).getD 0)) l.val 0))

/-- For a Lathe that issues, when no register it names awaits a tread: every lane-wise, function, reduction, scan, search,
broadcast, rotate, convert, unpack and random-number instruction stages exactly one register write, whose value is the function
of chapter 07 on the lanes. -/
def Obligations.VectorSlotStagesItsResult : Prop :=
  ∀ (s : State) (l : Fin 128) (last : Bool), SlotReady s l →
    (∀ vd va vb vc, ∀ e ∈ vValue (latheAt s l.val) l last vd va vb vc, e.2.1.any (vPending (latheAt s l.val)) = false →
      exec e.1 s = .next (slotEnd (stage s l.val (.vreg vd.toNat (ofLanes e.2.2))) l 3 last)) ∧
    (∀ vd va vb, [vd, va, vb].any (vPending (latheAt s l.val)) = false →
      (∀ mod : BitVec 4, mod.toNat < 4 → exec (.vcmp l vd va vb mod last) s = .next (slotEnd (stage s l.val (.vreg vd.toNat
        (ofLanes (List.zipWith (fun a b => if vcmpBool mod.toNat a b then 2 ^ 32 - 1 else 0)
          (lanes (vGet (latheAt s l.val) va)) (lanes (vGet (latheAt s l.val) vb)))))) l 3 last)) ∧
      (∀ a rest, lanes (vGet (latheAt s l.val) va) = a :: rest → exec (.vscan l vd va last) s =
        .next (slotEnd (stage s l.val (.vreg vd.toNat (ofLanes (a :: scanFrom a rest)))) l 3 last)) ∧
      (∀ sd, exec (.vargmax l sd va last) s = .next (slotEnd (stage s l.val (.sreg sd.toNat
        (BitVec.ofNat 64 (argMax (lanes (vGet (latheAt s l.val) va)))))) l 3 last)) ∧
      (∀ sd, exec (.vfirst l sd va vb last) s = .next (slotEnd (stage s l.val (.sreg sd.toNat (BitVec.ofNat 64
        (((lanes (vGet (latheAt s l.val) va)).findIdx? (fun a => fle (lane (vGet (latheAt s l.val) vb) 0) a)).getD 256)))) l 3 last)) ∧
      (∀ sa, exec (.vbcast l vd sa last) s = .next (slotEnd (stage s l.val (.vreg vd.toNat
        (ofLanes ((List.range 256).map (fun _ => (sGet (latheAt s l.val) sa).toNat % 2 ^ 32))))) l 3 last)) ∧
      (∀ sd idx, exec (.vext l sd va idx last) s = .next (slotEnd (stage s l.val (.sreg sd.toNat
        (BitVec.ofNat 64 (lane (vGet (latheAt s l.val) va) idx.toNat)))) l 3 last)) ∧
      (∀ n, exec (.vrotl l vd va n last) s = .next (slotEnd (stage s l.val (.vreg vd.toNat
        (ofLanes ((List.range 256).map (fun i => lane (vGet (latheAt s l.val) va) ((i + n.toNat) % 256)))))) l 3 last)) ∧
      (∀ part mod : BitVec 4, cvtFmt mod.toNat = true → part.toNat < 32 / fmtBits mod.toNat →
        (∃ n, n = ((lanes (vGet (latheAt s l.val) va)).map (fun a => toElem mod.toNat (f32 a))).foldr
            (fun a m => a + 2 ^ fmtBits mod.toNat * m) 0 ∧
          exec (.vcvt l vd va part mod last) s = .next (slotEnd (stage s l.val (.vreg vd.toNat (BitVec.ofNat 8192
            ((vGet (latheAt s l.val) vd).toNat - (vGet (latheAt s l.val) vd).toNat / 2 ^ (256 * fmtBits mod.toNat * part.toNat)
              % 2 ^ (256 * fmtBits mod.toNat) * 2 ^ (256 * fmtBits mod.toNat * part.toNat)
              + n * 2 ^ (256 * fmtBits mod.toNat * part.toNat))))) l 3 last)) ∧
        exec (.vunp l vd va part mod last) s = .next (slotEnd (stage s l.val (.vreg vd.toNat (ofLanes ((List.range 256).map (fun i =>
          toF32 (elemVal mod.toNat ((vGet (latheAt s l.val) va).toNat / 2 ^ (fmtBits mod.toNat * (256 * part.toNat + i))
            % 2 ^ fmtBits mod.toNat))))))) l 3 last)) ∧
      (∀ sa sb, exec (.vrng l vd sa sb last) s = .next (slotEnd (stage s l.val (.vreg vd.toNat (ofLanes ((List.range 256).map (fun i =>
        toF32 (.fin false ((mix (sGet (latheAt s l.val) sa) (sGet (latheAt s l.val) sb + BitVec.ofNat 64 i)).toNat / 2 ^ 40) (-24))))))) l 3 last)))

/-- A DRAINING Lathe with an empty tensor queue, spool and wait reports done and enters DONE, its slots added to their counters; a
live Lathe's watchdog sets LATHE_CYC to LATHE_WDOG and raises WATCHDOG (16); a LATHE_RESET of a Lathe in service resets it within
one open reset domain. -/
def Obligations.LatheEventsAct : Prop :=
  ∀ (s : State) (l : Fin 128), running s = true →
    (∀ k, latheState s l.val = 4 → (latheAt s l.val).tq = [] → (latheAt s l.val).spool = [] → (latheAt s l.val).wait = .none →
      kernelOf s (latheAt s l.val).win = some k →
      exec (.latheDone l) s = .next (setLatheState (runSlots (putKernel s { k with done := k.done ++ [.lathe l] }) l.val k.dom) l.val 5)) ∧
    (latheLive s l.val = true → exec (.latheWatchdog l) s =
      .next (latheFault (regSet s (rLathe l.val 0x20) (reg s (rLathe l.val 0x28))) l.val 16 0 0)) ∧
    (inService s 1 l.val = true → exec (.latheReset l) s =
      .next (closeReset (resetLathe (openReset s 1 l.val false) l.val) 1 l.val))

/-! ## Gouges and walkers -/

/-- For a gather context that runs its program for a live kernel: gli, glui, gadd, gaddi, gmul, gparam and gid (items 0 to 3) write
their register and go to the next instruction, gid of other items raises code 32; gnop goes on; gloop and gloop_p open a loop
that fits, and zero trips skip it; gwait goes on when the counter holds the value and else waits; gsig writes its counted line; gend
reports done; and the events that end a wait, or a watchdog, act on a context that waits or runs. -/
def Obligations.GougeProgramInstructions : Prop :=
  (∀ (s : State) (n : Fin 128) (k : Kernel), EngReady gougeKind s n.val k →
    (∀ d a b imm imm12 p, ∀ e ∈ gValue s n k d a b imm imm12 p, exec e.1 s = .next (engWrite gougeKind s n.val k d e.2)) ∧
    (∀ d (i : BitVec 4), 4 ≤ i.toNat → exec (.gid n d i) s = .next (ctxFault s n.val 32 0)) ∧
    exec (.gnop n) s = .next (engDone gougeKind s n.val k (ctxOf s n.val)) ∧
    (∀ len1 n1 : BitVec 12, LoopFits (ctxOf s n.val) (len1.toNat + 1) →
      exec (.gloop n len1 n1) s = .next (loopOpened gougeKind s n.val (len1.toNat + 1) (n1.toNat + 1))) ∧
    (∀ (len1 : BitVec 12) (p : BitVec 8), LoopFits (ctxOf s n.val) (len1.toNat + 1) →
      (k.param p.toNat % 2 ^ 32 ≠ 0 → exec (.gloopP n len1 p) s =
        .next (loopOpened gougeKind s n.val (len1.toNat + 1) (k.param p.toNat % 2 ^ 32))) ∧
      (k.param p.toNat % 2 ^ 32 = 0 → exec (.gloopP n len1 p) s =
        .next (ctxAdvance gougeKind s n.val (ctxOf s n.val) ((ctxOf s n.val).pc + (len1.toNat + 1))))) ∧
    (∀ (ch gv gt : BitVec 4) far h v, s.inj = [] → engHandle k ch.toNat = some h → handleValue s k h far = some v →
      ((cGet (ctxOf s n.val) gv).toNat ≤ v.toNat → exec (.gwait n ch gv gt far) s =
        .next (engDone gougeKind s n.val k (ctxOf s n.val))) ∧
      (v.toNat < (cGet (ctxOf s n.val) gv).toNat → cGet (ctxOf s n.val) gt ≠ 0 → exec (.gwait n ch gv gt far) s =
        .next (regPut (putCtx s n.val { ctxOf s n.val with wait := some (h.ctr, (cGet (ctxOf s n.val) gv).toNat) }) (rGctx n.val 0) 2 0 3))) ∧
    (∀ ga t, kOutLine s k true ((cGet (ctxOf s n.val) ga).toNat % 2 ^ 60)
        (BitVec.ofNat 512 ((ctxOf s n.val).rank % 2 ^ 32 + (ctxOf s n.val).ran % 2 ^ 32 * 2 ^ 32)) = .ok () t →
      exec (.gsig n ga) s = .next (engDone gougeKind t n.val k (ctxOf s n.val))) ∧
    exec (.gend n) s = .next (regPut (putKernel (putCtx s n.val (ctxOf s n.val))
      { (k.at 41) with done := k.done ++ [.gctx (Fin.ofNat 128 n.val)] }) (rGctx n.val 0) 2 0 4)) ∧
  (∀ (s : State) (n : Fin 128) (k : Kernel), running s = true → liveKernel s (ctxOf s n.val).win = some k →
    (∀ ctr target far v, (ctxOf s n.val).wait = some (ctr, target) → handleValue s k ⟨ctr, none⟩ far = some v → target ≤ v.toNat →
      exec (.gwaitSatisfied n far) s = .next (ctxAdvance gougeKind (regPut s (rGctx n.val 0) 2 0 6) n.val
        { ctxOf s n.val with wait := none } (ctxOf s n.val).pc)) ∧
    (∀ ctr target, (ctxOf s n.val).wait = some (ctr, target) → exec (.gwaitTimeout n) s = .next (ctxFault s n.val 9 ctr)) ∧
    (engAwake gougeKind s n.val = true →
      exec (.contextWatchdog n) s = .next (ctxFault (putCtx s n.val { ctxOf s n.val with dog := 0 }) n.val 16 0)))

/-- For a context of a live kernel: grun with a descriptor and bag offsets that pass their checks starts the batch in pass A; a
segment starts with its indices and combining slots once enough entries are free, and rows are asked for, at most 512 in flight per
gouge; a row asked for, of this controller or of another, lands in its slot; pass B pools and writes the bags when every row has
landed and its indices are read again (stated for a batch's first segment and, in pass B, for pools without weights); and after the
last pass the drop area is written once, and when every line of the batch has been served the batch is counted and the context goes to
the next instruction. -/
def Obligations.GatherBatchRuns : Prop :=
  (∀ (s t : State) (n : Fin 128) (k : Kernel) (ga : BitVec 4) ext d b bags, EngReady gougeKind s n.val k →
    kBytes s k ((cGet (ctxOf s n.val) ga).toNat % 2 ^ 60) 64 ext = .ok d t → batchOf k.tabs d = some (b, bags) →
    (b.pool = 3 → exec (.grun n ga ext) s = .next (regPut (setPos (putCtx (readDone t k.win) n.val { ctxOf s n.val with
      batch := some { b with offs := List.range (b.nidx + 1) } }) n.val 0) (rGctx n.val 0) 2 0 1)) ∧
    (∀ os u, b.pool ≠ 3 → kVals t k bags 4 (b.nbags + 1) ext = .ok os u → os.head? = some 0 → os.getLast? = some b.nidx →
      rising os = true → exec (.grun n ga ext) s = .next (regPut (setPos (putCtx (readDone u k.win) n.val { ctxOf s n.val with
        batch := some { b with offs := os } }) n.val 0) (rGctx n.val 0) 2 0 1))) ∧
  (∀ (s t u : State) (n : Fin 128) (k : Kernel) (b : Batch) ext is ok, BatchReady s n 1 b k → b.seg = none → b.pos < b.nidx →
    entriesHeld s (n.val / 8) + segMax s k ≤ regFld s 0x38 55 32 →
    cutSeg s k b (batchTab k b).rows (segMax s k) ext (b.nidx - b.pos) b.pos [] = .ok is t →
    validRows t k (batchTab k b) (is.filter (fun i => decide (i < (batchTab k b).rows))).dedup ext = .ok ok u → b.pos = 0 → u.inj = [] →
    ∃ firsts drops, firsts = is.foldl (fun l i => if ok.contains i && !l.contains i then l ++ [i] else l) [] ∧
      drops = ((List.range is.length).zip is).filterMap (fun p =>
        if (batchTab k b).rows ≤ p.2 then some (b.pos + p.1, 1) else if ok.contains p.2 then none else some (b.pos + p.1, 2)) ∧
      exec (.segmentStart n ext) s = .next (askRows (setPos (putCtx (addCnt (readDone (pmc (pmc (pmc u (160 + n.val / 8) 0 is.length
        (some k.dom)) (160 + n.val / 8) 3 (is.countP (fun i => ok.contains i) - firsts.length) (some k.dom)) (160 + n.val / 8) 4 1 (some k.dom))
        k.win) (rGouge (n.val / 8) 0x18) drops.length) n.val { ctxOf s n.val with batch := some { b with
          seg := some (b.pos + is.length), idx := is, slots := firsts.map (fun i => (i, none)), drops := b.drops ++ drops, issued := 0 } })
        n.val (b.pos + is.length)) (n.val / 8))) ∧
  (∀ (s : State) (n : Fin 128) (k : Kernel) (b : Batch) (slot : BitVec 16) far poison i p len e, BatchReady s n 1 b k →
    b.seg = some e → b.slots[slot.toNat]? = some (i, none) → slot.toNat < b.issued → pieceOf (batchTab k b) i = some p →
    rowBytes p.fmt (batchTab k b).dim = some len →
    (∀ v t, p.ctrl = ownCtrl s → verBytes s k p.region p.version (p.offset + (i - p.first) * p.pitch) len = .ok v t →
      exec (.rowLanded n slot far poison) s = .next (askRows (putCtx (pmc (pmc (readDone t k.win) (160 + n.val / 8) 1 1 (some k.dom))
        (160 + n.val / 8) 2 (cdiv ((p.offset + (i - p.first) * p.pitch) % 64 + len) 64) (some k.dom)) n.val
        { ctxOf s n.val with batch := some { b with slots := b.slots.set slot.toNat (i, some v) } }) (n.val / 8))) ∧
    (p.ctrl ≠ ownCtrl s → poison = false →
      exec (.rowLanded n slot far poison) s = .next (askRows (putCtx (pmc (pmc (readDone s k.win) (160 + n.val / 8) 1 1 (some k.dom))
        (160 + n.val / 8) 2 (cdiv ((p.offset + (i - p.first) * p.pitch) % 64 + len) 64) (some k.dom)) n.val
        { ctxOf s n.val with batch := some { b with
          slots := b.slots.set slot.toNat (i, some (linesBytes far (p.offset + (i - p.first) * p.pitch) len)) } }) (n.val / 8)))) ∧
  (∀ (s t u : State) (n : Fin 128) (k : Kernel) (b b' : Batch) ext last is, BatchReady s n 1 b k → b.seg = some last →
    b.slots.any (fun e => e.2.isNone) = false → b.weighted = false →
    kVals s k (b.idxAddr + b.pos * b.idxBytes) b.idxBytes b.idx.length ext = .ok is u →
    passB u k (batchTab k b) b (is.map (fun i => (i, 0))) last (b.nbags + 1) = .ok b' t →
    ∃ terms, terms = (List.range b.nbags).foldl (fun m i => m + (multOf b (((is.map (fun i => (i, 0))).drop
        (max b.pos ((b.offs[i]?).getD 0) - b.pos)).take (min last ((b.offs[i + 1]?).getD 0) - max b.pos ((b.offs[i]?).getD 0)))).length) 0 ∧
      exec (.passBStart n ext) s = .next (regPut (setPos (putCtx (pmc (readDone t k.win) (160 + n.val / 8) 5 terms (some k.dom)) n.val
      { ctxOf s n.val with batch := some { b' with pos := last, seg := none, idx := [], slots := [], issued := 0 } }) n.val last)
      (rGctx n.val 0) 2 0 (if last = b.nidx then 2 else 1))) ∧
  (∀ (s t : State) (n : Fin 128) (k : Kernel) (b : Batch), BatchReady s n 2 b k → b.dropAddr % 64 = 0 →
    (if b.dropAddr = 0 ∨ b.closed = true then .ok () s else kOutLines s k b.counted b.dropAddr (dropLines b)) = Start.ok () t →
    (batchServed t k b = true → exec (.batchComplete n) s = .next (ctxAdvance gougeKind (pmc (regPut t (rGctx n.val 0) 2 0 6)
      (160 + n.val / 8) 6 1 (some k.dom)) n.val { ctxOf s n.val with batch := none, ran := (ctxOf s n.val).ran + 1 } (ctxOf s n.val).pc)) ∧
    (batchServed t k b = false →
      exec (.batchComplete n) s = .next (putCtx t n.val { ctxOf s n.val with batch := some { b with closed := true } })))

/-- For a kite that runs its program for a live kernel: kli, klui, kadd, kaddi, kmul, kparam and kid (items 0 to 3) write their
register and go to the next instruction, kid of other items raises code 36; knop goes on; kloop and kloop_p open a loop that fits,
and zero trips skip it; kwait goes on when the counter holds the value and else waits; ksig writes its counted line; kend reports
done; and the events that end a wait, or a watchdog, act on a kite that waits or runs. -/
def Obligations.KiteProgramInstructions : Prop :=
  (∀ (s : State) (n : Fin 4096) (k : Kernel), EngReady kiteKind s n.val k →
    (∀ d a b imm imm12 p, ∀ e ∈ kValue s n k d a b imm imm12 p, exec e.1 s = .next (engWrite kiteKind s n.val k d e.2)) ∧
    (∀ d (i : BitVec 4), 4 ≤ i.toNat → exec (.kid n d i) s = .next (kiteCycle 3 (kiteFault s n.val 36 0) n.val k.dom)) ∧
    exec (.knop n) s = .next (engDone kiteKind s n.val k (kiteOf s n.val)) ∧
    (∀ len1 n1 : BitVec 12, LoopFits (kiteOf s n.val) (len1.toNat + 1) →
      exec (.kloop n len1 n1) s = .next (kiteCycle 3 (loopOpened kiteKind s n.val (len1.toNat + 1) (n1.toNat + 1)) n.val k.dom)) ∧
    (∀ (len1 : BitVec 12) (p : BitVec 8), LoopFits (kiteOf s n.val) (len1.toNat + 1) →
      (k.param p.toNat % 2 ^ 32 ≠ 0 → exec (.kloopP n len1 p) s =
        .next (kiteCycle 3 (loopOpened kiteKind s n.val (len1.toNat + 1) (k.param p.toNat % 2 ^ 32)) n.val k.dom)) ∧
      (k.param p.toNat % 2 ^ 32 = 0 → exec (.kloopP n len1 p) s =
        .next (kiteCycle 3 (ctxAdvance kiteKind s n.val (kiteOf s n.val) ((kiteOf s n.val).pc + (len1.toNat + 1))) n.val k.dom))) ∧
    (∀ (ch kv kt : BitVec 4) far h v, s.inj = [] → engHandle k ch.toNat = some h → handleValue s k h far = some v →
      ((cGet (kiteOf s n.val) kv).toNat ≤ v.toNat → exec (.kwait n ch kv kt far) s =
        .next (engDone kiteKind s n.val k (kiteOf s n.val))) ∧
      (v.toNat < (cGet (kiteOf s n.val) kv).toNat → cGet (kiteOf s n.val) kt ≠ 0 → exec (.kwait n ch kv kt far) s =
        .next (kiteCycle 3 (regPut (putKite s n.val { kiteOf s n.val with wait := some (h.ctr, (cGet (kiteOf s n.val) kv).toNat) })
          (rKite n.val 0) 2 0 2) n.val k.dom))) ∧
    (∀ ka t, kOutLine s k true ((cGet (kiteOf s n.val) ka).toNat % 2 ^ 60)
        (BitVec.ofNat 512 ((kiteOf s n.val).rank % 2 ^ 32 + (kiteOf s n.val).ran % 2 ^ 32 * 2 ^ 32)) = .ok () t →
      exec (.ksig n ka) s = .next (engDone kiteKind t n.val k (kiteOf s n.val))) ∧
    exec (.kend n) s = .next (kiteCycle 3 (regPut (putKernel (putKite s n.val (kiteOf s n.val))
      { (k.at 41) with done := k.done ++ [.kite (Fin.ofNat 4096 n.val)] }) (rKite n.val 0) 2 0 3) n.val k.dom)) ∧
  (∀ (s : State) (n : Fin 4096) (k : Kernel), running s = true → liveKernel s (kiteOf s n.val).win = some k →
    (∀ ctr target far v, (kiteOf s n.val).wait = some (ctr, target) → handleValue s k ⟨ctr, none⟩ far = some v → target ≤ v.toNat →
      exec (.kwaitSatisfied n far) s = .next (ctxAdvance kiteKind (regPut s (rKite n.val 0) 2 0 1) n.val
        { kiteOf s n.val with wait := none } (kiteOf s n.val).pc)) ∧
    (∀ ctr target, (kiteOf s n.val).wait = some (ctr, target) → exec (.kwaitTimeout n) s = .next (kiteFault s n.val 9 ctr)) ∧
    (engAwake kiteKind s n.val = true →
      exec (.kiteWatchdog n) s = .next (kiteFault (putKite s n.val { kiteOf s n.val with dog := 0 }) n.val 16 0)))

/-- For a kite of a live kernel: kwalk waits until its walker has room for the descriptor's line and then for the vector's lines, and with
both read and checked starts the query; a returned read, while it is one of those in flight, takes the walk's next step, whose
evaluations and walker cycles are counted, and the kite asks last in its walker's rotation; an ended walk writes its result record once,
and when every line of it has been served it counts the query and goes to the next instruction. -/
def Obligations.KiteQueryRuns : Prop :=
  (∀ (s r : State) (n : Fin 4096) (k : Kernel) (ka : BitVec 4) ext, EngReady kiteKind s n.val k →
    r = (if (kiteOf s n.val).fetch.isSome then s else kiteAsk s n.val 1) →
    (kiteReads r n.val = false → exec (.kwalk n ka ext) s = .next (kiteWorkCycle r n.val k.dom)) ∧
    (∀ t u d q va v dim w, kiteReads r n.val = true → kBytes r k ((cGet (kiteOf s n.val) ka).toNat % 2 ^ 60) 64 ext = .ok d t →
      queryOf k.idxs (visitMax t k) d = some (q, va) → dim = ((k.idxs[q.index]?).map (fun x => x.dim)).getD 0 →
      u = kiteAsk t n.val (cdiv (4 * dim) 64) →
      (kiteReads u n.val = false → exec (.kwalk n ka ext) s = .next (kiteWorkCycle u n.val k.dom)) ∧
      (kiteReads u n.val = true → kBytes u k va (4 * dim) ext = .ok v w →
        exec (.kwalk n ka ext) s = .next (kiteWorkCycle (regPut (putKite (readDone { w with kiteNo := w.kiteNo + 1 } k.win) n.val
          { kiteOf s n.val with query := some { q with vec := (List.range dim).map (fun i => blankBits v (32 * i) 32) },
                                turn := w.kiteNo + 1, fetch := none }) (rKite n.val 0) 31 8 0) n.val k.dom)))) ∧
  (∀ (s t u : State) (n : Fin 4096) (k : Kernel) (q q' : Query) (x : KIdx) ext, QueryReady s n q x k → q.ended = false →
    kiteReads s n.val = true → walkStep s k x q ext = .ok q' t →
    u = readDone (if q'.evaluated + q'.sideLive - (q.evaluated + q.sideLive) = 0 then t
      else addCnt t (rWalker (n.val / 128) 0x18) (q'.evaluated + q'.sideLive - (q.evaluated + q.sideLive))) k.win →
    exec (.kiteReadReturn n ext) s = .next (kiteCycle 5 (kiteWorkCycle (regPut (noteStep (putKite { u with kiteNo := u.kiteNo + 1 } n.val
      { kiteOf s n.val with query := some q', turn := u.kiteNo + 1 }) n.val k (kiteOf s n.val) (nextStep x q)) (rKite n.val 0) 31 8
      (min (2 ^ 24 - 1) (q'.evaluated + q'.sideLive))) n.val k.dom) n.val k.dom)) ∧
  (∀ (s : State) (n : Fin 4096) (k : Kernel) (q : Query) (x : KIdx) ext, QueryReady s n q x k → kiteReads s n.val = false →
    exec (.kiteReadReturn n ext) s = .next s) ∧
  (∀ (s t u : State) (n : Fin 4096) (k : Kernel) (q : Query) (x : KIdx), QueryReady s n q x k → q.ended = true →
    (if q.closed then .ok () s else kOutLines s k q.counted q.resAddr (resultLines q)) = Start.ok () t →
    u = (if q.r.length < q.k then incCnt t (rWalker (n.val / 128) 0x20) else t) →
    (resultServed t k q = true → exec (.queryComplete n) s = .next (ctxAdvance kiteKind (kiteCycle 5
      (pmc u (128 + n.val / 128) 9 1 (some k.dom)) n.val k.dom) n.val { kiteOf s n.val with query := none, ran := (kiteOf s n.val).ran + 1 }
      (kiteOf s n.val).pc)) ∧
    (resultServed t k q = false →
      exec (.queryComplete n) s = .next (putKite t n.val { kiteOf s n.val with query := some { q with closed := true } })))

/-! ## Command windows, drafts, plans and kernels -/

/-- A full window whose header passes R364 and R365 becomes ready: a RUN waits for its checks, another command goes into service or,
with an AFTER counter, to WAITING; a header that fails is refused with its reason; a window whose arrived lines are not exactly 0 to
LEN - 1, or whose LEN is above 1,024, is refused with BADLEN; a satisfied AFTER lets the waiting command proceed, and another controller's counter that is short is read
again; a timed-out one completes with AFTER_TIMEOUT (10) and what a RUN bound is free again. -/
def Obligations.CommandsBecomeReady : Prop :=
  (∀ (s : State) (w : Fin 1024), WindowFull s w →
    (headerFault s w.val = none →
      (hdr s w.val 2 1 = 1 → exec (.commandReady w) s = .next (putWin { s with readyNo := s.readyNo + 1 } w.val
        { winOf s w.val with ready := true, readyAt := s.readyNo + 1 })) ∧
      (hdr s w.val 2 1 ≠ 1 → ∃ t, t = putWin { s with readyNo := s.readyNo + 1 } w.val { winOf s w.val with ready := true, readyAt := s.readyNo + 1 } ∧
        exec (.commandReady w) s = .next (if hdr t w.val 8 8 ≠ 0 then pollAfter (setWinState t w.val 2) w.val else setWinState t w.val 5))) ∧
    (∀ r, headerFault s w.val = some r → exec (.commandReady w) s = .next (refuse s w.val r))) ∧
  (∀ (s : State) (w : Fin 1024), running s = true → keptOf s w.val = none → mailbox s w.val = false → winState s w.val = 1 →
    (winOf s w.val).ready = false →
    s.inj = [] → (winOf s w.val).arrived.contains 0 = true →
    (hdr s w.val 0 2 ≤ (counter s (winCtr w.val)).toNat ∨ 1024 < hdr s w.val 0 2) → (winOf s w.val).arrived ≠ List.range (hdr s w.val 0 2) → exec (.commandReady w) s = .next (refuseLen s w.val)) ∧
  (∀ (s : State) (w : Fin 1024), running s = true → winState s w.val = 2 → s.inj = [] →
    (∀ remote v, afterValue s w.val remote = some v → hdr s w.val 16 8 ≤ v.toNat →
      exec (.afterSatisfied w remote) s = .next (proceed s w.val)) ∧
    (∀ remote v, afterValue s w.val remote = some v → v.toNat < hdr s w.val 16 8 →
      exec (.afterSatisfied w remote) s = .next (pollAfter s w.val)) ∧
    exec (.afterTimeout w) s = .next (complete (ldrEvent (endKernel s w.val) 2 0 (winDom s w.val) 0) w.val { status := 10 }))

/-- An ARM that is served and whose checks pass completes with DONE after its effect: MODE 0 makes a whole window on its own counter
a mailbox, or binds and arms a Chuck area on a free counter; MODE 1 arms what is bound; MODE 2 unbinds; MODE 3 returns a mailbox
to COMMAND mode. A check that fails refuses it with the reason. -/
def Obligations.ArmActsOnItsArea : Prop :=
  ∀ (s : State) (w : Fin 1024),
    (∀ off v x, ArmServed s w 0 off → target off = .window v x → isWinCtr (hdr s w.val 48 4) = true → mailbox s v = false →
      exec (.armBind w) s = .next (complete (armWindow (regPut s (rWinStat v) 3 3 1) v) w.val { status := 0 })) ∧
    (∀ off l x, ArmServed s w 0 off → target off = .chuck l x → overlapsArea s off (hdr s w.val 44 4) = false →
      s.areas.any (fun a => a.counter == hdr s w.val 48 4) = false →
      exec (.armBind w) s = .next (complete (setCounter { s with
        areas := s.areas ++ [⟨off, hdr s w.val 44 4 / 64, hdr s w.val 48 4, [], true, none⟩] } (hdr s w.val 48 4) 0) w.val { status := 0 })) ∧
    (∀ off v x, ArmServed s w 1 off → target off = .window v x → isWinCtr (hdr s w.val 48 4) = true →
      exec (.armRearm w) s = .next (complete (armWindow s v) w.val { status := 0 })) ∧
    (∀ off l x a, ArmServed s w 1 off → target off = .chuck l x → sameArea s off (hdr s w.val 44 4) (hdr s w.val 48 4) = some a →
      exec (.armRearm w) s = .next (complete (armArea s a) w.val { status := 0 })) ∧
    (∀ off a, ArmServed s w 2 off → sameArea s off (hdr s w.val 44 4) (hdr s w.val 48 4) = some a →
      exec (.armUnbind w) s = .next (complete { s with areas := s.areas.filter (fun b => b.base != a.base) } w.val { status := 0 })) ∧
    (∀ off v x, ArmServed s w 3 off → target off = .window v x → isWinCtr (hdr s w.val 48 4) = true → mailbox s v = true →
      exec (.armCommandMode w) s = .next (complete (armWindow (regPut s (rWinStat v) 3 3 0) v) w.val { status := 0 })) ∧
    (∀ r, serving s w.val 4 = true → armCheck s w.val = .inl r →
      (hdr s w.val 52 1 = 0 → exec (.armBind w) s = .next (refuse s w.val r)) ∧
      (hdr s w.val 52 1 = 1 → exec (.armRearm w) s = .next (refuse s w.val r)) ∧
      (hdr s w.val 52 1 = 2 → exec (.armUnbind w) s = .next (refuse s w.val r)) ∧
      (hdr s w.val 52 1 = 3 → exec (.armCommandMode w) s = .next (refuse s w.val r)))

/-- DRAFT_OPEN, when its turn at the deciding home has come, of a valid VERSIONED region with no publish past its compare, by a domain that
may write it and has a draft left, takes the lowest free slots, based on
CURRENT; DRAFT_DISCARD frees an OPEN unbound draft; PUBLISH of an OPEN draft seals it and recalls its host lines; a sealed
draft whose predecessor is CURRENT goes on to be decided, or to WRITING when its region is DURABLE; WRITING ends in DECIDING once the
units are programmed and their contributions accepted; and the decision makes it version PRED + 1, of a DURABLE region after its DECISION
record is on the medium, or CONFLICTED when CURRENT has moved on. -/
def Obligations.DraftsOpenAndPublish : Prop :=
  (∀ (s : State) (w : Fin 1024) d, serving s w.val 5 = true → hdr s w.val 36 2 < 16384 → rgValid s (hdr s w.val 36 2) = true →
    rgVersioned s (hdr s w.val 36 2) = true → rgDeleting s (hdr s w.val 36 2) = false →
    permitRegion s (winDom s w.val) (hdr s w.val 36 2) true = true → regionDeciding s (hdr s w.val 36 2) = false →
    regFld s (rQuota (winDom s w.val) 5) 10 0 < regFld s (rQuota (winDom s w.val) 4) 10 0 →
    freeSlots s ((rgSize s (hdr s w.val 36 2) + 2 ^ 38 - 1) / 2 ^ 38) = some d →
    ∃ t u, t = regSet (regSet s (rDraftStat d) (BitVec.ofNat 64 (2 ^ 61 + hdr s w.val 36 2 * 2 ^ 44 + winDom s w.val * 2 ^ 36 +
        (rgSize s (hdr s w.val 36 2) + 2 ^ 38 - 1) / 2 ^ 38 * 2 ^ 24))) (rDraftBase d)
        (BitVec.ofNat 64 (rgCurrent (regSet s (rDraftStat d) (BitVec.ofNat 64 (2 ^ 61 + hdr s w.val 36 2 * 2 ^ 44 + winDom s w.val * 2 ^ 36 +
        (rgSize s (hdr s w.val 36 2) + 2 ^ 38 - 1) / 2 ^ 38 * 2 ^ 24))) (hdr s w.val 36 2))) ∧
      u = rgPut t (hdr s w.val 36 2) 271 256 (rgFld t (hdr s w.val 36 2) 271 256 + 1) ∧
      exec (.draftOpen w) s = .next (complete (regAdd u (rQuota (winDom s w.val) 5) 10 0 1) w.val { status := 0, v0 := d })) ∧
  (∀ (s : State) (w : Fin 1024), serving s w.val 7 = true → draftStateOf s (hdr s w.val 36 2) = 1 →
    permitRegion s (winDom s w.val) (drRegion s (hdr s w.val 36 2)) true = true → draftBound s (hdr s w.val 36 2) = false →
    draftOwn s (hdr s w.val 36 2) = [] → draftOwnMaps s (hdr s w.val 36 2) = [] →
    rgDurable (freeDraft s (hdr s w.val 36 2)) (drRegion s (hdr s w.val 36 2)) = false →
    exec (.draftDiscard w) s = .next (complete (sweepVersions (freeDraft s (hdr s w.val 36 2)) (drRegion s (hdr s w.val 36 2))) w.val { status := 0 })) ∧
  (∀ (s : State) (w : Fin 1024), serving s w.val 6 = true → draftStateOf s (hdr s w.val 36 2) = 1 →
    permitRegion s (winDom s w.val) (drRegion s (hdr s w.val 36 2)) true = true → rgDeleting s (drRegion s (hdr s w.val 36 2)) = false →
    ∃ t u, t = regPut { s with pubs := s.pubs ++ [⟨hdr s w.val 36 2, w.val, hdr s w.val 40 6, draftPoison s (hdr s w.val 36 2), 0⟩] }
        (rDraftStat (hdr s w.val 36 2)) 63 61 2 ∧ u = (unitLookups t (draftOwn t (hdr s w.val 36 2))).1 ∧
      exec (.publish w) s = .next (recallAll u (draftHeld u (hdr s w.val 36 2)))) ∧
  (∀ (s : State) (d : Fin 1024) (p : Pub), running s = true → s.pubs.find? (fun p => p.draft == d.val) = some p → drState s d.val = 2 →
    draftHeld s d.val = [] → s.trk.any (fun t => (draftOwn s d.val).contains (t.req.off / 65536) && lineActive s t.req.off) = false →
    s.recallq.any (fun q => (draftOwn s d.val).contains (q.line * 64 / 65536)) = false →
    s.kernels.any (fun k => k.slots.any (fun x => x.draft == some d.val && x.role == 3 && x.ctrl == ownCtrl s)) = false →
    ((draftPoison s d.val).any (fun l => !p.poisoned.contains l) = true →
      exec (.sealComplete d) s = .next (endPublish s p 1 { status := 9 })) ∧
    ((draftPoison s d.val).any (fun l => !p.poisoned.contains l) = false → rgCurrent s (drRegion s d.val) ≠ p.pred → exec (.sealComplete d) s =
      .next (endPublish s p 5 { status := 3, v0 := rgCurrent s (drRegion s d.val) })) ∧
    ((draftPoison s d.val).any (fun l => !p.poisoned.contains l) = false → rgCurrent s (drRegion s d.val) = p.pred → p.pred ≠ 2 ^ 48 - 1 →
      (rgDurable s (drRegion s d.val) = true → exec (.sealComplete d) s =
        .next (writeStage (forEach (s.store.filter (fun e => (draftOwn s d.val).contains (e.line * 64 / 65536)))
          (regPut s (rDraftStat d.val) 63 61 3) storeEvict) p 1)) ∧
      (rgDurable s (drRegion s d.val) = false → exec (.sealComplete d) s = .next (regPut s (rDraftStat d.val) 63 61 4)))) ∧
  (∀ (s : State) (d : Fin 1024) (p : Pub) acc u, running s = true → s.pubs.find? (fun p => p.draft == d.val) = some p →
    drState s d.val = 3 → u = { s with contribs := s.contribs.map (fun c => if acc.any (fun (l : BitVec 40) => l.toNat == c.loc)
      then { c with acc := true } else c) } →
    (pubWritten u p = true → exec (.writingDone d acc) s = .next (regPut u (rDraftStat d.val) 63 61 4)) ∧
    (pubWritten u p = false → exec (.writingDone d acc) s = .next u)) ∧
  (∀ (s : State) (d : Fin 1024) (p : Pub) us, running s = true → s.pubs.find? (fun p => p.draft == d.val) = some p → drState s d.val = 4 →
    decisionOut s p = false →
    (p.stage ≠ 4 → p.stage ≠ 5 → rgCurrent s (drRegion s d.val) ≠ p.pred → exec (.publishDecide d) s =
      .next (endPublish s p 5 { status := 3, v0 := rgCurrent s (drRegion s d.val) })) ∧
    (p.stage ≠ 4 → p.stage ≠ 5 → rgCurrent s (drRegion s d.val) = p.pred → (heldBeside s p).length < 8 → us = newUnits s d.val p.pred →
      ∀ r u v, r = drRegion s d.val → staleLookups s p us.1 us.2 = (u, false) → staleLines u p us.1 us.2 = [] →
      allocFor u r (rgDomain u r) (backUnits u p) = .ok v →
      (rgDurable v r = false → exec (.publishDecide d) s = .next (publishEnd (versionBytes v p) p us.1 us.2)) ∧
      (rgDurable v r = true → exec (.publishDecide d) s = .next (appendRecord (setStage v d.val 4) r
        (.decision r (p.pred + 1) p.pred ((stageUnits v p 3).map (fun u => metaWord v u.metaName)))))) ∧
    (p.stage = 5 → us = decidedUnits s p → ∀ u, staleLookups s p us.1 us.2 = (u, false) → staleLines u p us.1 us.2 = [] →
      exec (.publishDecide d) s = .next (retainEight (publishEnd u p us.1 us.2) (drRegion u p.draft))))

/-- PLAN_LOAD copies a readable container into frames of the window's domain; when its checks end a plan that
passes takes the lowest free handle with its fields in PLAN_STAT and PLAN_BUDGET, and one that fails is refused with the check's
reason; PLAN_UNLOAD of a plan that no kernel uses frees its frames, bytes and handle, and a handle that holds no plan is refused with
PLAN (5), one in use with BUSY (17). -/
def Obligations.PlansLoadAndUnload : Prop :=
  (∀ (s t u v : State) (w : Fin 1024) ext x n, serving s w.val 2 = true → s.planLoads.any (fun p => p.1 == w.val) = false →
    hdr s w.val 36 8 < 2 ^ 60 → n = (hdr s w.val 44 8 + 65535) / 65536 → allocFrames s (winDom s w.val) n = .ok v →
    kBytes s (loader w.val (winDom s w.val)) (hdr s w.val 36 8) (hdr s w.val 44 8) ext = .ok x t →
    allocFrames (readDone t w.val) (winDom s w.val) n = .ok u →
    exec (.planLoad w ext) s = .next { (u.writeN (stageKey w.val) (hdr s w.val 44 8) x) with
      planLoads := u.planLoads ++ [(w.val, hdr s w.val 44 8, n)] }) ∧
  (∀ (s : State) (w : Fin 1024) size n, running s = true → s.planLoads.find? (fun p => p.1 == w.val) = some (w.val, size, n) → s.inj = [] →
    (∀ reason addr, planCheck s (stageKey w.val) size false = some (reason, addr) → exec (.planLoadDone w) s =
      .next (refuseAt (releaseFrames { (zeroMem s (stageKey w.val) (n * 65536)) with
        planLoads := s.planLoads.filter (fun p => p.1 != w.val) } (winDom s w.val) n) w.val reason addr)) ∧
    (∀ p, planCheck s (stageKey w.val) size false = none → (List.range 256).find? (fun p => reg s (rPlanStat p) == 0) = some p →
      ∃ t u, t = zeroMem (copyMem s (stageKey w.val) (planKey p) (n * 65536)) (stageKey w.val) (n * 65536) ∧
        u = regSet (regSet { t with planLoads := t.planLoads.filter (fun q => q.1 != w.val),
                                    planDigests := t.planDigests.filter (fun e => e.1 != p) ++ [(p, BitVec.ofNat 512 (cN s (stageKey w.val) 64 64))] }
          (rPlanStat p) (BitVec.ofNat 64 (2 ^ 63 + winDom s w.val * 2 ^ 55 + cN s (stageKey w.val) 24 1 * 2 ^ 51 +
            cN s (stageKey w.val) 25 1 * 2 ^ 46 + cN s (stageKey w.val) 29 1 * 2 ^ 38 + n * 2 ^ 14)))
          (rPlanBudget p) (BitVec.ofNat 64 (cN s (stageKey w.val) 32 6)) ∧
        exec (.planLoadDone w) s = .next (complete (pmc u 206 6 1 (some (winDom s w.val))) w.val { status := 0, v0 := p }))) ∧
  (∀ (s : State) (w : Fin 1024) p, serving s w.val 3 = true → hdr s w.val 36 2 = p →
    (256 ≤ p ∨ reg s (rPlanStat p) = 0 → exec (.planUnload w) s = .next (refuse s w.val 5)) ∧
    (p < 256 → reg s (rPlanStat p) ≠ 0 → permitPlan s (winDom s w.val) p = true →
      (regFld s (rPlanStat p) 37 27 ≠ 0 → exec (.planUnload w) s = .next (refuse s w.val 17)) ∧
      (regFld s (rPlanStat p) 37 27 = 0 → ∃ t, t = releaseFrames (zeroMem s (spKey (spPlan p) 0) (regFld s (rPlanStat p) 26 14 * 65536))
          (regFld s (rPlanStat p) 62 55) (regFld s (rPlanStat p) 26 14) ∧
        exec (.planUnload w) s = .next (complete (regSet (regSet { t with planDigests := t.planDigests.filter (fun e => e.1 != p) }
          (rPlanStat p) 0) (rPlanBudget p) 0) w.val { status := 0 }))))

/-- A ready RUN that passes the checks of R368 binds what it names and goes to WAITING or into its queue, one that fails is refused with
the reason; the RUN at its queue's head takes its engines and goes on with its start sequence: it asks the next controller
for a reservation, or starts the clocks of its engines, or binds its areas and takes its work frames, then its snapshot, and is launched
at its start point; one that asks a controller that no port reaches ends with the flushed address; a snapshot whose versions lie at other
controllers waits for their pins, and a refused pin aborts the kernel at its start point; a schedule entry whose counter holds its value
fires after the due ones below it; and a kernel whose engines have all reported done recalls the host copies of its output units, and
with none left remaps its shadow frames, sends its other outputs, frees its engines, releases what it held and completes, or waits for
the acknowledgements of reels, mirrors and parity. -/
def Obligations.KernelsRunStartAndCommit : Prop :=
  (∀ (s : State) (w : Fin 1024) far, running s = true → winState s w.val = 1 → (winOf s w.val).ready = true → hdr s w.val 2 1 = 1 →
    kernelOf s w.val = none →
    ∃ u, u = regPut s (rWinStat w.val) 20 13 (hdr s w.val 36 2 % 256) ∧
    (∀ r, runCheck u w.val far = .inl r → exec (.run w far) s = .next (refuse u w.val r)) ∧
    (∀ k t, runCheck u w.val far = .inr k → t = { u with kernels := u.kernels ++ [k] } →
      exec (.run w far) s = .next (if hdr t w.val 8 8 ≠ 0 then pollAfter (setWinState t w.val 2) w.val else proceed t w.val))) ∧
  (∀ (s : State) (w : Fin 1024) far ext k k1 ls cs ks, running s = true → kernelOf s w.val = some k → winState s w.val = 3 →
    planKept s k = true → (s.lathQ.head? = some w.val ∨ s.engQ.head? = some w.val) → uncheckedRun s w.val k = false → replayDue s = false →
    permitPlan s k.dom k.plan = true → s.kernels.any (fun x => x.started && x.win != w.val && outsMeet x.outs k.outs) = false →
    placeAll s k = some (ls, cs, ks) → k1 = { k with lathes := ls, ctxs := cs, kites := ks } →
    exec (.kernelStart w far ext) s = .next (reachStart (forEach (engClocks k1) (takeEngines s k1) askStart) k1 far ext)) ∧
  (∀ (s : State) (w : Fin 1024) far ext k, running s = true → kernelOf s w.val = some k → winState s w.val = 4 → k.started = false →
    exec (.kernelStart w far ext) s = .next (reachStart s k far ext)) ∧
  (∀ (s : State) far ext k a, planKept s k = true → farDown s (startAsks s k) = some a →
    reachStart s k far ext = dropStart (farUp s (a / 2 ^ 50 % 1024) a).2 k.win a) ∧
  (∀ (s : State) far ext k k0 s0, planKept s k = true → farDown s (startAsks s k) = none → k.loaded = false → k0 = ownTurn s k (FarAnswer.regions far) → s0 = putKernel s k0 →
    (∀ t, askReserve s0 k0 far.regions = some t → reachStart s k far ext = t) ∧
    (askReserve s0 k0 far.regions = none → (engClocks k0).all (fun u => s0.clocked.contains u) = false →
      reachStart s k far ext = forEach (engClocks k0) s0 askStart) ∧
    (∀ k1 k2 t u v, askReserve s0 k0 far.regions = none → (engClocks k0).all (fun u => s0.clocked.contains u) = true →
      (k0.lathes.all (fun l => latheState s0 l == 0)) = true → loadKernel s0 k0 = some (k1, t) →
      allocFrames t k1.dom (ctxFrames t k1.plan) = .ok u → allocFrames u k1.dom (kiteFrames u k1.plan) = .ok v →
      k2 = { k1 with work := ctxFrames t k1.plan + kiteFrames v k1.plan } →
      reachStart s k far ext = reachSnapshot (putKernel v k2) k2 far ext)) ∧
  (∀ (s : State) (far : FarAnswer) ext k k1, k.pinSent = true → k1 = { k with bases := far.bases.map (fun b => (b.1.toNat, b.2.1.toNat, b.2.2.toNat)) } →
    (far.pins = none → reachSnapshot s k far ext = s) ∧
    (far.pins = some true → reachSnapshot s k far ext = passStart s k1 none) ∧
    (far.pins = some false → reachSnapshot s k far ext = passStart s k1 (some (stalePin s k1 far.stale)))) ∧
  (∀ (s s1 t u : State) far ext k k1 k2 k3, k.pinSent = false → k.slots.any (fun x => x.role == 1 && x.ctrl == ownCtrl s && regionDeciding s x.region) = false →
    heldAll s k (FarAnswer.regions far) = true → k1 = snapshot s k far.regions → s1 = forEach (k1.pins.map (fun p => p.1)) s refreshReplica →
    k1.pins.any (fun p => rgPlace s1 p.1 == 2 && Sparse.get s1.replicas p.1 0 != p.2 + 1) = false →
    readTables s1 k1 ext = .ok k2 t → readIdxs t k2 ext (idxSlots t k2.plan) = .ok k3 u →
    (farPins (readDone u k3.win) k3 = [] → reachSnapshot s k far ext = passStart (readDone u k3.win) k3 none) ∧
    (farPins (readDone u k3.win) k3 ≠ [] →
      (farDown (readDone u k3.win) ((farPins (readDone u k3.win) k3).map (fun q => q.1 * 2 ^ 50)) = none →
        reachSnapshot s k far ext = pinFar (readDone u k3.win) k3) ∧
      (∀ a, farDown (readDone u k3.win) ((farPins (readDone u k3.win) k3).map (fun q => q.1 * 2 ^ 50)) = some a →
        reachSnapshot s k far ext = passStart (readDone u k3.win) k3 (some (false, 17, a))))) ∧
  (∀ (s : State) k k', k.holding = false → kernelOf (launch s k false) k.win = some k' → passStart s k none = fireAtStart (launch s k false) k') ∧
  (∀ (s : State) (w : Fin 1024) (entry : BitVec 13) far k h v, running s = true → liveKernel s w.val = some k →
    entry.toNat < (planSect s k.plan 8 0).1 → k.fired.contains entry.toNat = false → schedN s k.plan entry.toNat 2 1 ≠ 0xFF →
    k.done.length ≠ k.lathes.length + k.ctxs.length + k.kites.length →
    handleOf k (schedN s k.plan entry.toNat 4 2) (schedN s k.plan entry.toNat 2 1) = some h → handleValue s k h far = some v →
    schedN s k.plan entry.toNat 8 4 ≤ v.toNat → exec (.scheduleFire w entry far) s =
      .next (forEach (dueBelow s k entry.toNat ++ [entry.toNat]) s (fun s j => fireEntry s k.win j))) ∧
  (∀ (s s1 t u v x : State) (w : Fin 1024) k mine disc cyc outs, running s = true → liveKernel s w.val = some k → AllDone s k →
    s.reels.any (fun e => e.2.st == .fetching && e.2.kwait.any (fun x => x.1 == w.val)) = false → k.reelsDue = [] →
    s.peerOuts.find? (fun e => e.1 == w.val && !peerUp s (e.2.1 / 2 ^ 50 % 1024)) = none → mine = s.shadows.filter (fun x => x.win == w.val) →
    unitLookups s (mine.map (fun x => x.unit)) = (s1, false) →
    (mine.flatMap (fun x => sharedLines s1 x.unit ++ heldLines s1 x.unit) ≠ [] → exec (.kernelCommit w) s =
      .next (recallAll (putKernel s1 { k with prep := true }) (mine.flatMap (fun x => sharedLines s1 x.unit ++ heldLines s1 x.unit)))) ∧
    (mine.flatMap (fun x => sharedLines s1 x.unit ++ heldLines s1 x.unit) = [] →
      cyc = k.lathes.foldl (fun m l => max m (reg s1 (rLathe l 0x20)).toNat) 0 → disc = (planSect s1 k.plan 8 0).1 - k.fired.length →
      t = sendOutputs (forEach mine (if disc = 0 then s1 else ldrEvent s1 4 0 k.dom 0) (fun s x => commitShadow s x k.dom)) k →
      outs = t.reels.filter (fun e => e.2.st == .output && e.2.win == some w.val) → u = forEach outs t (fun s e => sendWriteback s e.1 e.2) →
      x = walkTally (pmc (freeEngines u k) 206 1 1 (some k.dom)) k 1 →
      v = releaseHeld (endKernel (if k.suspect then leaveHang x w.val false else x) w.val) w.val →
      (outs = [] ∧ v.covers.any (fun e => e.2 == .kernel w.val) = false →
        exec (.kernelCommit w) s = .next (commitDone v w.val k.replays cyc disc)) ∧
      (outs ≠ [] ∨ v.covers.any (fun e => e.2 == .kernel w.val) = true → exec (.kernelCommit w) s =
        .next { moveWindow v w.val 6 with cplWait := v.cplWait ++ [(w.val, [k.replays, cyc, disc])] })))

/-- Of the descriptors in flight on a spool, a Lathe's or a home-side one in the order in which its entries fired, those issued earlier
move what they can first, then the one named; when that has moved all its bytes it leaves the spool, and its completion is counted. A
descriptor whose turn has come moves the lines it has not moved yet, notes how far it got when it waits, and faults in its Lathe's M
slot at the bundle that issued it, or in its home-side spool; one that must wait for an earlier one moves nothing. A line of a plain
copy is read at SRC and written at DST, both at the line's own offset. -/
def Obligations.SpoolDescriptorsComplete : Prop :=
  (∀ (s r t : State) (sp : Fin 136) (k : Fin 64) ext b, running s = true → sp.val < 128 →
    r = forEach (List.range k.val) s (fun s j => (moveEntry s sp.val j allLines ext).2) → moveEntry r sp.val k.val allLines ext = (b, t) →
    (b = false → exec (.spoolDescDone sp k ext) s = .next t) ∧
    (∀ kern e, b = true → latheKernel t sp.val = some kern → (latheAt t sp.val).spool[k.val]? = some e →
      exec (.spoolDescDone sp k ext) s = .next (spoolDone (putLathe t sp.val { latheAt t sp.val with
        spool := (latheAt t sp.val).spool.eraseIdx k.val }) (some sp.val) kern (Desc.ofWords e.words)))) ∧
  (∀ (s t : State) (l j n : Nat) ext kern e d p, latheKernel s l = some kern → (latheAt s l).spool[j]? = some e → d = Desc.ofWords e.words →
    (spoolTurn ((latheAt s l).spool.map (fun e => (e.words, e.pos))) j = false → moveEntry s l j n ext = (false, s)) ∧
    (spoolTurn ((latheAt s l).spool.map (fun e => (e.words, e.pos))) j = true →
      (spoolMove s (spoolEngine s kern d) true d ext e.pos (min n (e.pos.due d)) = (p, .ok () t) → moveEntry s l j n ext =
        (p.due d == 0, putLathe t l { latheAt t l with spool := (latheAt t l).spool.set j { e with pos := p } })) ∧
      (spoolMove s (spoolEngine s kern d) true d ext e.pos (min n (e.pos.due d)) = (p, .wait t) → moveEntry s l j n ext =
        (false, putLathe t l { latheAt t l with spool := (latheAt t l).spool.set j { e with pos := p } })) ∧
      (∀ c a, spoolMove s (spoolEngine s kern d) true d ext e.pos (min n (e.pos.due d)) = (p, .fault c a t) →
        moveEntry s l j n ext = (false, latheFaultAt t l c 1 e.pc a)))) ∧
  (∀ (s r t : State) (sp : Fin 136) (k : Fin 64) ext b, running s = true → 128 ≤ sp.val →
    r = forEach (List.range k.val) s (fun s j => (moveHome s (sp.val - 128) j allLines ext).2) →
    moveHome r (sp.val - 128) k.val allLines ext = (b, t) →
    (b = false → exec (.spoolDescDone sp k ext) s = .next t) ∧
    (∀ kern h x, b = true → (hspoolQueue t (sp.val - 128))[k.val]? = some (kern, h) → kernelOf t kern.win = some x →
      exec (.spoolDescDone sp k ext) s =
        .next (spoolDone (putKernel t { x with hspool := x.hspool.erase h }) none kern (Desc.ofWords h.desc)))) ∧
  (∀ (s t : State) (sp j n : Nat) ext kern h d p, (hspoolQueue s sp)[j]? = some (kern, h) → d = Desc.ofWords h.desc →
    spoolTurn ((hspoolQueue s sp).map (fun e => (e.2.desc, e.2.pos))) j = true →
    (d.ok s = false → moveHome s sp j n ext = (false, homeSpoolFault s sp kern.win 7 h.entry)) ∧
    (d.ok s = true →
      (∀ x, spoolMove s (spoolEngine s (kern.at (18 + sp)) d) false d ext h.pos (min n (h.pos.due d)) = (p, .ok () t) →
        kernelOf t kern.win = some x → moveHome s sp j n ext =
          (p.due d == 0, putKernel t { x with hspool := x.hspool.map (fun y => if y = h then { h with pos := p } else y) })) ∧
      (∀ c a, spoolMove s (spoolEngine s (kern.at (18 + sp)) d) false d ext h.pos (min n (h.pos.due d)) = (p, .fault c a t) →
        moveHome s sp j n ext = (false, homeSpoolFault t sp kern.win c a)))) ∧
  (∀ (s t u : State) k lathe (d : Desc) (ext : List FarLine) j v, d.op = 0 → d.plainCopy = true → j < d.srcBytes / 64 →
    kRead s k lathe (d.src + 64 * j) (Ext.at ext (d.src + 64 * j)) = .ok v t → kWrite ctlLine t k (d.dst + 64 * j) v = .ok () u →
    spoolMove s k lathe d ext { moved := j, src := [], left := none } 1 = ({ moved := j + 1, src := [], left := none }, .ok () u))

/-! ## Home agents, line accesses and registers -/

/-- A request of a valid host for a line of the home or draft range that its home accepts is taken by the home as that request: RdS,
RdE, Upgr, WrBack and Evict, and RdNC, WrNC with its mask and WrLine. -/
def Obligations.HostRequestsReachTheHome : Prop :=
  ∀ (s : State) (n : Fin 64) (txn : BitVec 12) (addr : BitVec 60) (rg : Nat), HostPath s n addr →
    (Accepted s (mkReq .rds txn (.host n) (addr.toNat % 2 ^ 50) 0 0) rg →
      exec (.rds (.host n) txn addr) s = .next (takeRequest s (mkReq .rds txn (.host n) (addr.toNat % 2 ^ 50) 0 0))) ∧
    (Accepted s (mkReq .rde txn (.host n) (addr.toNat % 2 ^ 50) 0 0) rg →
      exec (.rde (.host n) txn addr) s = .next (takeRequest s (mkReq .rde txn (.host n) (addr.toNat % 2 ^ 50) 0 0))) ∧
    (Accepted s (mkReq .upgr txn (.host n) (addr.toNat % 2 ^ 50) 0 0) rg →
      exec (.upgr (.host n) txn addr) s = .next (takeRequest s (mkReq .upgr txn (.host n) (addr.toNat % 2 ^ 50) 0 0))) ∧
    (∀ data, Accepted s (mkReq .wrback txn (.host n) (addr.toNat % 2 ^ 50) data 0) rg →
      exec (.wrback (.host n) txn addr data) s = .next (takeRequest s (mkReq .wrback txn (.host n) (addr.toNat % 2 ^ 50) data 0))) ∧
    (Accepted s (mkReq .evict txn (.host n) (addr.toNat % 2 ^ 50) 0 0) rg →
      exec (.evict (.host n) txn addr) s = .next (takeRequest s (mkReq .evict txn (.host n) (addr.toNat % 2 ^ 50) 0 0))) ∧
    (addr.toNat % 64 = 0 →
      (Accepted s (mkReq .rdnc txn (.host n) (addr.toNat % 2 ^ 50) 0 0) rg →
        exec (.rdnc (.host n) txn addr) s = .next (takeRequest s (mkReq .rdnc txn (.host n) (addr.toNat % 2 ^ 50) 0 0))) ∧
      (∀ mask data sender, Accepted s (mkReq .wrnc txn (.host n) (addr.toNat % 2 ^ 50) data mask) rg →
        exec (.wrnc (.host n) txn addr mask data sender) s = .next (takeRequest s (mkReq .wrnc txn (.host n) (addr.toNat % 2 ^ 50) data mask))) ∧
      (∀ data sender, Accepted s (mkReq .wrline txn (.host n) (addr.toNat % 2 ^ 50) data allBytes) rg →
        exec (.wrline (.host n) txn addr data sender) s = .next (takeRequest s (mkReq .wrline txn (.host n) (addr.toNat % 2 ^ 50) data allBytes))))

/-- What a home does with a request it takes, once the deferred requests of the line's home that can be activated have been, when one for
that line waits (log entry 160): in native mode a line that is busy, or for which a deferred request still waits, defers it with reason
LINE and a full tracker with reason TRK while the home's retry list has room, and queues it when the list is full; in blocking mode a
busy line or a full tracker queues it; else it is served at once and every transaction that can end ends. A deferred request waits in the
retry list with its data left at its sender, and the sender is told. -/
def Obligations.HomesServeDeferOrQueue : Prop :=
  ∀ (s : State) (r : Req),
    (∀ u, u = (if deferred s r.off = true then activateAll s.retry.length s (homeOf r.off) else s) →
      (blocking u = true →
        ((busy u r.off = true ∨ 1792 ≤ trkPlain u (homeOf r.off)) →
          takeRequest s r = { u with blockq := u.blockq ++ [(homeOf r.off, r)] }) ∧
        (busy u r.off = false → trkPlain u (homeOf r.off) < 1792 → takeRequest s r = settleAll (serve u r false))) ∧
      (blocking u = false →
        ((u.retry.filter (fun p => p.1 == homeOf r.off)).length < 4096 →
          ((busy u r.off = true ∨ deferred u r.off = true) → takeRequest s r = deferReq u (homeOf r.off) r 1) ∧
          (busy u r.off = false → deferred u r.off = false → 1792 ≤ trkPlain u (homeOf r.off) →
            takeRequest s r = deferReq u (homeOf r.off) r 2)) ∧
        (4096 ≤ (u.retry.filter (fun p => p.1 == homeOf r.off)).length →
          (busy u r.off = true ∨ deferred u r.off = true ∨ 1792 ≤ trkPlain u (homeOf r.off)) →
          takeRequest s r = { u with blockq := u.blockq ++ [(homeOf r.off, r)] }) ∧
        (busy u r.off = false → deferred u r.off = false → trkPlain u (homeOf r.off) < 1792 →
          takeRequest s r = settleAll (serve u r false)))) ∧
    (∀ n rsn, r.src = .host n → (deferReq s (homeOf r.off) r rsn).mem = s.mem ∧
      (deferReq s (homeOf r.off) r rsn).trk = s.trk ∧ (deferReq s (homeOf r.off) r rsn).retry = s.retry ++ [(homeOf r.off, { r with data := 0, mask := 0 })])

/-- While the block is RUNNING and no injection is armed: an InvAck or SnpRspData of a host that a transaction waits for is taken by it,
and what can then end ends; a CmpAck ends its wait in blocking mode and is a protocol error in native mode; WrData lets the home serve
the request that its Fetch asked for, and one whose draft was freed meanwhile is an address fault; the oldest deferred request of a home with a reserved entry free is activated, by Fetch when its
data is with a host; a timeout fences the host; an undefined opcode is a protocol error. -/
def Obligations.HomeEventsAct : Prop :=
  ∀ s : State, running s = true → s.inj = [] →
    (∀ (host : Fin 64) (txn : BitVec 12) (addr : BitVec 60) off t, off = addr.toNat % 2 ^ 50 / 64 * 64 → fenced s host.val = false →
      s.trk.find? (fun t => t.phase == .snoop && t.wait.contains host.val && t.req.off == off && t.req.txn == txn) = some t →
      ((lineRec s off).1 ≠ .M → exec (.invack host txn addr) s = .next (settleAll { s with
        trk := s.trk.map (fun x => if x = t then { t with wait := t.wait.filter (fun x => x != host.val) } else x) })) ∧
      (∀ dirty data, lineRec s off = (.M, oneHost host.val) → exec (.snprspdata host txn addr dirty data) s = .next (settleAll { s with
        trk := s.trk.map (fun x => if x = t then { t with wait := t.wait.filter (fun x => x != host.val), got := some data } else x) }))) ∧
    (∀ (host : Fin 64) (txn : BitVec 12) (addr : BitVec 60) off, off = addr.toNat % 2 ^ 50 / 64 * 64 → fenced s host.val = false →
      (blocking s = false → exec (.cmpack host txn addr) s = .next (protoErr s (homeOf off) (globalAddr s off))) ∧
      (∀ t, blocking s = true → s.trk.find? (fun t => t.phase == .cmpAck && t.req.off == off && t.req.txn == txn &&
          decide (t.req.src = .host host)) = some t →
        exec (.cmpack host txn addr) s = .next (settleAll { s with trk := s.trk.erase t }))) ∧
    (∀ (host : Fin 64) (txn : BitVec 12) (addr : BitVec 60) mask data off t, off = addr.toNat % 2 ^ 50 / 64 * 64 → fenced s host.val = false →
      s.trk.find? (fun t => t.phase == .fetch && t.req.off == off && t.req.txn == txn && decide (t.req.src = .host host)) = some t →
      (t.bad = false → exec (.wrdata (.host host) txn addr mask data) s =
        .next (settleAll (serve { s with trk := s.trk.erase t } { t.req with data := data, mask := mask } true))) ∧
      (t.bad = true → exec (.wrdata (.host host) txn addr mask data) s = .next (settleAll (sendErr
        (addrFault { s with trk := s.trk.erase t } (globalAddr s off) (masterDom s (.host host))) t.req errAddr true)))) ∧
    (∀ (home : Fin 8) p, trkReserved s home.val < 256 → s.retry.find? (fun p => p.1 == home.val && !busy s p.2.off) = some p →
      (p.2.op = .rds → exec (.deferActivate home) s = .next (settleAll (serve { s with retry := s.retry.erase p } p.2 true))) ∧
      (∀ n, p.2.op = .wrline → p.2.src = .host n → hostPortUp s n.val = true →
        exec (.deferActivate home) s = .next (send { s with
          retry := s.retry.erase p
          trk := s.trk ++ [⟨home.val, p.2, true, .fetch, [n.val], false, none, false, none⟩] } (.coh (reply s p.2 0x25 false))))) ∧
    (∀ (home : Fin 8) (host : Fin 64) (addr : BitVec 60) off, off = addr.toNat % 2 ^ 50 / 64 * 64 →
      s.trk.any (fun t => t.home == home.val && t.req.off == off && t.wait.contains host.val) = true →
      exec (.homeTimeout home host addr) s = .next (settleAll (fenceHost s home.val host.val (globalAddr s off)))) ∧
    (∀ home opcode, exec (.unknownOpcodeMessage home opcode) s = .next (haEvent s home.val 2 (some 0x28) 0 opcode.toNat))

/-- A management access to this controller while it is RUNNING, where the grants allow it: a Chuck's line is read, and written as
scratch while no kernel runs there; a full line written to a command window is a counted write; a line of counters is read; a line
of the control window acts on its registers, and the access asks for the clock of the unit they belong to; an access to a hole is an
address fault answered with ERR ADDR. -/
def Obligations.LineAccessesBeyondTheHomes : Prop :=
  ∀ (s : State) (txn : BitVec 12) (addr : BitVec 60) (off : Nat), running s = true → s.inj = [] → addr.toNat % 64 = 0 →
    route s addr.toNat = .own off →
    (∀ l x, target off = .chuck l x →
      (permitChuck s 0 l false = true → exec (.rdnc .mgmt txn addr) s =
        .next (gwReply s addr.toNat (mkReq .rdnc txn .mgmt (addr.toNat % 2 ^ 50) 0 0) 0x31 0 0 (chuckLine s l x) false)) ∧
      (∀ data sender, permitChuck s 0 l true = true → areaAt s (chuckOff l x) = none → replicaAt s l x = none → latheBusy s l = false →
        exec (.wrline .mgmt txn addr data sender) s = .next (gwReply (putScratch s l x data) addr.toNat
          (mkReq .wrline txn .mgmt (addr.toNat % 2 ^ 50) data allBytes) 0x26 0 0 0 false))) ∧
    (∀ w x data sender t, target off = .window w x → permitWindow s 0 w true = true →
      windowWrite (countedFrom s (ownCtrl s)) w x 0 data = (false, t) → exec (.wrline .mgmt txn addr data sender) s =
        .next (gwReply t addr.toNat (mkReq .wrline txn .mgmt (addr.toNat % 2 ^ 50) data allBytes) 0x26 0 0 0 false)) ∧
    (∀ k, target off = .counters k → (List.range 8).all (fun i => permitCounter s 0 (k / 8 * 8 + i) false) = true →
      exec (.rdnc .mgmt txn addr) s = .next (gwReply s addr.toNat (mkReq .rdnc txn .mgmt (addr.toNat % 2 ^ 50) 0 0) 0x31 0 0
        (counterLine s k) false)) ∧
    (∀ x, target off = .control x →
      (permitControl s 0 x false = true → exec (.rdnc .mgmt txn addr) s = .next (gwReply (touchUnit s (x / 64 * 64)) addr.toNat
        (mkReq .rdnc txn .mgmt (addr.toNat % 2 ^ 50) 0 0) 0x31 0 0 (controlLine s 0 x) false)) ∧
      (permitControl s 0 x true = true →
        (∀ data sender, exec (.wrline .mgmt txn addr data sender) s = .next (gwReply (ctlLine s x 0 data) addr.toNat
          (mkReq .wrline txn .mgmt (addr.toNat % 2 ^ 50) data allBytes) 0x26 0 0 0 false)) ∧
        (∀ mask data sender, inRings x = false → exec (.wrnc .mgmt txn addr mask data sender) s = .next (gwReply (ctlMasked s x 0 data mask) addr.toNat
          (mkReq .wrnc txn .mgmt (addr.toNat % 2 ^ 50) data mask) 0x26 0 0 0 false)))) ∧
    (target off = .hole → exec (.rdnc .mgmt txn addr) s =
      .next (refuseLine (addrFault s addr.toNat 0) addr.toNat (mkReq .rdnc txn .mgmt (addr.toNat % 2 ^ 50) 0 0) errAddr))

/-- While the standby domain is up, a write of any other width than eight bytes, or unaligned, changes nothing and is recorded as a
control-window access error; a full-width aligned write to a powered register that names no action sets its RW bits, clears the W1C
bits written 1 and leaves every other bit; the access asks for the clock of the unit that the register belongs to. -/
def Obligations.RegisterWritesByType : Prop :=
  ∀ (s : State) (off : BitVec 28) (width : BitVec 8) (v : BitVec 64), s.stbyUp = true →
    ((width ≠ 8 ∨ off.toNat % 8 ≠ 0) → exec (.registerWrite off width v) s = .next (cwAccessErr s off.toNat 0)) ∧
    (∀ row t, t = touchUnit s off.toNat → width = 8 → off.toNat % 8 = 0 → regUp s off.toNat = true → regRow off.toNat = some row →
      writeInj t off.toNat v.toNat = none →
      off.toNat ∉ [0x5040088, rRecov 0x110, rPwr 0, rPwr 0x18, rPmu 0, rPmu 0x10, rPmu 0x20, rPmu 0x30] →
      unitAt off.toNat 0x5001008 12 16 = none → pmcAt off.toNat 0x80 = false →
      exec (.registerWrite off width v) s = .next (regSet t off.toNat (((reg t off.toNat &&& ~~~(BitVec.ofNat 64 row.rw)) |||
        (v &&& BitVec.ofNat 64 row.rw)) &&& ~~~(v &&& BitVec.ofNat 64 row.w1c))))

/-! ## Composition -/

/-- A COMPOSE that its window serves: with a wrong format it is refused with FORMAT (3); in recovery with BUSY (17); with a wrong
serial, key, nonce, sequence or signature with SIGN (19), which is recorded; an operation that fails its check refuses the whole
command with that operation's STATUS, DETAIL and index; else every operation is applied and the command's sequence number becomes
its key's. -/
def Obligations.SignedCommandsAreChecked : Prop :=
  ∀ (s : State) (w : Fin 1024), serving s w.val 0x10 = true →
    (composeFormat s (winOff w.val 0) = none → exec (.compose w) s =
      .next (complete (countRefusal s w.val) w.val { status := 2, detail := 3, v0 := 0 })) ∧
    (∀ ops, composeFormat s (winOff w.val 0) = some ops → bootState s = 1 → exec (.compose w) s =
      .next (complete (countRefusal s w.val) w.val { status := 2, detail := 17, v0 := 0 })) ∧
    (∀ ops, composeFormat s (winOff w.val 0) = some ops → bootState s ≠ 1 → ripHeld s = false →
      (∀ t, composeSigned s (winOff w.val 0) = (false, t) → exec (.compose w) s =
        .next (complete (countRefusal (bootLog t 9 (bootBit 9) 0) w.val) w.val { status := 2, detail := 19, v0 := 0 })) ∧
      (∀ t, composeSigned s (winOff w.val 0) = (true, t) →
        (∀ i st de, compOps (t.readN (winOff w.val 0 + 70) 1) { s := t } 0 ops = .inr (i, st, de) → exec (.compose w) s =
          .next (complete (countRefusal t w.val) w.val { status := st, detail := de, v0 := i })) ∧
        (∀ c u, compOps (t.readN (winOff w.val 0 + 70) 1) { s := t } 0 ops = .inl c →
          u = regSet c.s (rBoot (0x90 + 8 * t.readN (winOff w.val 0 + 70) 1)) (BitVec.ofNat 64 (t.readN (winOff w.val 0 + 88) 8)) →
          exec (.compose w) s = .next (composeAccept { c with s := u } w.val 0 0 (t.readN (winOff w.val 0 + 88) 8)))))

/-- While composition is possible: REG_SET writes the composer's bits of COH_HOST_n; REGION_SET changes, creates or deletes as its
check says, and its failure changes nothing; a deletion of a region not VALID drops what replay rebuilt, of a held one marks it
DELETING, of any other performs it; DOMAIN_SET writes a domain's entry but DOM_STAT; GROUP_SET writes a group of at most 64 distinct
controllers; MASTER_RELEASE unfreezes a host; RECOVER_RELEASE releases a guilty kernel; UNIT_RETURN returns a unit to service;
KEY_REVOKE sets the slot's REVOKED bit, but never its own slot's or the last one's. Beyond that the homes only do what the operation
lets them do (`taken`), which is nothing while they are idle. -/
def Obligations.CompositionOperationsApply : Prop :=
  (∀ t : State, HomesIdle t → taken t = t) ∧ ∀ s : State, Composable s →
    (∀ (n : Fin 64) (v : BitVec 64) t, t = regSet s (rCohHost n.val) ((reg s (rCohHost n.val) &&& ~~~0xFFFF01) ||| (v &&& 0xFFFF01)) →
      bits ((reg s (rCohHost n.val) &&& ~~~0xFFFF01) ||| (v &&& 0xFFFF01)).toNat 15 8 ≤ 15 → budgetsOk t = true →
      exec (.regSet [(BitVec.ofNat 64 (rCohHost n.val), v)] []) s = .next (taken t)) ∧
    (∀ index entry, (∀ c, opRegionSet { s := s } index entry = .ok c → exec (.regionSet index entry) s = .next (composeAccept c 65537 0 0 0)) ∧
      (∀ st de, opRegionSet { s := s } index entry = .bad st de → exec (.regionSet index entry) s = .next s)) ∧
    (∀ index : BitVec 64, index.toNat < 16384 →
      (rgValid s index.toNat = false → exec (.regionDelete index) s = .next (taken (dropRebuilt s index.toNat))) ∧
      (rgValid s index.toNat = true → rgDeleting s index.toNat = false → rgDurable s index.toNat = false →
        (regionHeld s index.toNat = true → exec (.regionDelete index) s = .next (taken (rgPut s index.toNat 101 101 1))) ∧
        (regionHeld s index.toNat = false → exec (.regionDelete index) s = .next (taken (deleteRegion s index.toNat))))) ∧
    (∀ (d : BitVec 64) entry, 0 < d.toNat → d.toNat < 256 → exec (.domainSet d entry) s =
      .next (taken (regSetList (regSet s (rDomain d.toNat 0) (entryWord entry 0 &&& 0x8000000000000000)) (rDomain d.toNat 2)
        ((List.range 30).map (fun j => entryWord entry (2 + j) &&& 0xFE3FFFFFFFFFFFFF))))) ∧
    (∀ (g : BitVec 64) (entry : BitVec 2048) ts, g.toNat < 1024 → entry.toNat % 65536 ≤ 64 →
      ts = (List.range (entry.toNat % 65536)).map (groupTarget entry) → bits entry.toNat 511 16 = 0 →
      bits entry.toNat 2047 (512 + 16 * (entry.toNat % 65536)) = 0 → ts.any (fun t => decide (1024 ≤ t)) = false → ts.dedup = ts →
      exec (.groupSet g entry) s = .next (taken (regSetList s (0x2200000 + 256 * g.toNat) ((List.range 32).map (entryWord entry))))) ∧
    (∀ n : BitVec 64, n.toNat < 64 → regBit s (rBoot 0x100) n.toNat = true → exec (.masterRelease 1 n) s =
      .next (taken (clearViol (clrBit s (rBoot 0x100) n.toNat) (regFld s (rCohHost n.toNat) 23 16)))) ∧
    (∀ w : BitVec 64, w.toNat < 1024 → exec (.recoverRelease w) s = .next (taken (releaseGuilty s w.toNat))) ∧
    (∀ u : BitVec 64, unitNumber (u.toNat / 4096) (u.toNat % 4096) = true →
      (inService s (u.toNat / 4096) (u.toNat % 4096) = true → exec (.unitReturn u) s = .next (taken s)) ∧
      (inService s (u.toNat / 4096) (u.toNat % 4096) = false →
        exec (.unitReturn u) s = .next (taken (markService s (u.toNat / 4096) (u.toNat % 4096) true)))) ∧
    (∀ (slot : BitVec 64) (signer : BitVec 2), slot.toNat < 4 →
      ((slot.toNat ≠ signer.toNat ∧ (List.range 4).any (fun i => regBit s (rBoot 0xB0) i && !regBit s (rBoot 0xB0) (4 + i) && i != slot.toNat) = true) →
        exec (.keyRevoke slot signer) s = .next (taken (setBit s (rBoot 0xB0) (4 + slot.toNat)))) ∧
      ((slot.toNat = signer.toNat ∨ (List.range 4).any (fun i => regBit s (rBoot 0xB0) i && !regBit s (rBoot 0xB0) (4 + i) && i != slot.toNat) = false) →
        exec (.keyRevoke slot signer) s = .next s))

/-- HOST_RELEASE with its buffer in a region that is not VERSIONED sets SWEEP and starts the sweeps; when they have ended, the address of
each recorded line whose data is lost goes to the buffer as a write that its home serves, one too many marking OVERFLOW, then the count
and OVERFLOW follow them, and after that write FENCED and SWEEP clear. LINE_RESTORE of one poisoned line gives the line's home the
version's bytes; the home writes them to a line that is still poisoned, in a frame of its own, clears its poison and leaves it in I, or
invalidates its copies first, or counts a line that is not poisoned; a line of a draft that is not OPEN stays as it is. RIP_RELEASE
under a pulled rip panel starts the whole-device reset. -/
def Obligations.ReleasesRestoreAndSweep : Prop :=
  ∀ s : State,
    (Composable s →
      (∀ (host buf bytes : BitVec 64) off r, host.toNat < 64 → buf.toNat < 2 ^ 60 → route s (buf.toNat % 2 ^ 60) = .own off → off % 8 = 0 →
        bytes.toNat % 8 = 0 → 8 ≤ bytes.toNat → off < 2 ^ 48 → s.sweeps.any (fun e => e.host == host.toNat) = false → regionAt s off = some r →
        rgVersioned s r = false → off + bytes.toNat ≤ rgBase s r + rgSize s r → exec (.hostRelease host buf bytes) s =
          .next (composeAccept { hosts := [host.toNat], s := setBit { s with
            sweeps := s.sweeps ++ [{ host := host.toNat, off := off, len := bytes.toNat }] } (rCohHost host.toNat) 2 } 65537 0 0 0)) ∧
      (∀ (first region version offset : BitVec 64) off q, Restorable s first off region.toNat version.toNat offset.toNat q →
        exec (.lineRestore first 1 region version offset) s = .next (composeAccept { lines := [off], s := { s with
          restoreq := s.restoreq ++ [(off, some (s.readLine (spKey (spVersion region.toNat version.toNat) offset.toNat)))] } } 65537 0 0 0))) ∧
    (∀ off d t u, lookups s [off] = (t, false) → u = touchLine t off →
      (isPoisoned u off = true → draftOpen u off = true → (lineRec u off).1 ≠ .I → restoreStep s (off, some d) = owe u false (off / 64)) ∧
      (∀ w, isPoisoned u off = true → draftOpen u off = true → (lineRec u off).1 = .I →
        ensureUnit { u with restoreq := u.restoreq.erase (off, some d) } off = .ok w → (∀ x, x = setRec (clearPoison (putStack (storeFree w off) off d) off) off .I 0 → covered x off = false →
          restoreStep s (off, some d) = restoreEnd x off true)) ∧
      (isPoisoned u off = true → draftOpen u off = false →
        restoreStep s (off, some d) = restoreEnd { u with restoreq := u.restoreq.erase (off, some d) } off true) ∧
      (isPoisoned u off = false → restoreStep s (off, some d) = restoreEnd { u with restoreq := u.restoreq.erase (off, some d) } off false)) ∧
    (bootState s ≠ 1 → ripHeld s = true → exec .ripRelease s = .next (wholeReset (taken s) 0)) ∧
    (∀ (host : Fin 64) e t hit, running s = true → s.sweeps.find? (fun e => e.host == host.val && e.stage == 0) = some e →
      sweepLines s host.val (recordedLines s) = (t, hit) → exec (.releaseSweepDone host) s =
        .next (settleAll (bufferLines (sweepUnrecorded (putSweep t host.val (fun e => { e with count := hit.length, stage := 1 }))) host.val e.off e.len 0
          hit))) ∧
    (∀ e : Sweep,
      (e.stage = 1 → sweepStep s e = bufferWord (putSweep s e.host (fun e => { e with stage := 2 })) e.host e.off
        (e.count % 2 ^ 48 + if e.ovf then 2 ^ 63 else 0)) ∧
      (e.stage = 2 → ∃ u, u = clrBit (clrBit s (rCohHost e.host) 1) (rCohHost e.host) 2 ∧ sweepStep s e = { u with
        sweeps := u.sweeps.filter (fun x => x.host != e.host)
        cmpWait := u.cmpWait.map (fun c => if c.hosts.contains e.host then { c with
          hosts := c.hosts.filter (fun x => x != e.host), poisoned := c.poisoned + e.count, overflow := c.overflow || e.ovf } else c) }))

/-- While RUNNING: a unit that arrives for restoration ends its wait and serves the requests held for it; a TIERED unit, or a prefetched
STREAM unit, takes a frame of the tier cache, and any other STREAM unit, or a TIERED one that finds no frame, serves what waits for it and
is kept in none; a zeroed frame is free again; a DELETING region that nothing holds is deleted; the mirror peer of another controller's
line stores it and answers Cmp on the port it came in on; an acknowledgement ends the oldest message of its kind for the line, and what
waited for it goes on; a lost mirror degrades its regions, and the writes that waited for it go on; the holder of a parity line takes the
record in its ring, folds the delta in by XOR and acknowledges by a line into the sender's ring, which arrives there; a complete cover
releases the old one, and a copy to a peer that was lost does not end. -/
def Obligations.CoversAndFramesAct : Prop :=
  ∀ s : State, running s = true →
    (∀ u : BitVec 96, s.fetches.contains u.toNat = true → s.reading.any (fun e => e.1 == u.toNat) = true →
      (awaitsRestore s (u.toNat * 65536) = true →
        exec (.unitFetchDone u) s = .next (serveUnit (restored s (u.toNat * 65536) 65536) u.toNat)) ∧
      (∀ r, awaitsRestore s (u.toNat * 65536) = false → unitRegion u.toNat = some r →
        (rgPlace s r = 3 → s.nameds.any (fun p => p.2 == u.toNat) = false → exec (.unitFetchDone u) s = .next (serveHeld s u.toNat)) ∧
        ((rgPlace s r ≠ 3 ∨ s.nameds.any (fun p => p.2 == u.toNat) = true) → s.tierCache.any (fun e => e.key == u.toNat) = false →
          (∀ t, cacheFrame s = some t →
            exec (.unitFetchDone u) s = .next (serveUnit { t with tierCache := t.tierCache ++ [⟨u.toNat, true⟩] } u.toNat)) ∧
          (cacheFrame s = none → exec (.unitFetchDone u) s = .next (serveHeld s u.toNat))))) ∧
    (s.dirtyFrames ≠ 0 → exec .frameZeroed s = .next { s with dirtyFrames := s.dirtyFrames - 1, freeFrames := s.freeFrames + 1 }) ∧
    (∀ r : Fin 16384, rgValid s r.val = true → rgDeleting s r.val = true → regionHeld s r.val = false →
      exec (.regionDeleteFinal r) s = .next (deleteRegion s r.val)) ∧
    (∀ (port : Fin 16) (txn : BitVec 12) (addr : BitVec 60) data, addr.toNat % 64 = 0 →
      (∀ off, route s addr.toNat = .own off → exec (.mirrorPeerWrite ⟨port, txn, addr⟩ data) s = .next (coverAck s 0 addr.toNat)) ∧
      (∀ slot off c, route s addr.toNat = .peer slot off → c = regFld s rAddrSelf 9 4 * 16 + slot →
        exec (.mirrorPeerWrite ⟨port, txn, addr⟩ data) s = .next (sendResp (s.putLine (mirrorKey c off) data) (18 + homeOf off) port.val c
          addr.toNat 0x26 txn.toNat 0 0 false false [11] 0))) ∧
    (∀ kind a off e, route s a = .own off → coverOldest s kind a = some e →
      coverAck s kind a = coverDone { s with coverSent := s.coverSent.erase e } off) ∧
    (∀ (peer : BitVec 10) d, d = ((validRegions s).filter (fun r => rgProtect s r == 1 && rgPeer s r == peer.toNat)).foldl Sparse.add s.degraded →
      ((∀ e ∈ s.coverSent, e.2 ≠ 2 * peer.toNat) → exec (.mirrorPeerLost peer) s = .next (dropOldPeer { s with degraded := d } peer.toNat)) ∧
      (∀ a off, s.coverSent = [(a, 2 * peer.toNat)] → route s a = .own off → exec (.mirrorPeerLost peer) s =
        .next (coverDone (dropOldPeer { s with degraded := d, coverSent := [] } peer.toNat) off))) ∧
    (∀ (slot : Fin 16) (unit : BitVec 32) (line : Fin 1024) (addr : BitVec 60) delta,
      ∃ t pos, t = ringLine (ringLine s slot.val (BitVec.ofNat 512 (unit.toNat + line.val * 2 ^ 32))) slot.val delta ∧
      pos = Sparse.get t.ringPos (2 * slot.val) 0 ∧ exec (.parityFoldRecord slot unit line addr delta) s = .next (sendReq
        { (t.putLine (poolKey unit.toNat line.val) (t.readLine (poolKey unit.toNat line.val) ^^^ delta)) with
          ringPos := Sparse.ins t.ringPos (2 * slot.val) ((pos + 64) % 2 ^ 20) } (18 + line.val / 64 % 8) 6
        (regFld s rAddrSelf 9 4 * 16 + slot.val) (ringAddr t slot.val pos) 0 .agent [11, addr.toNat] 0 (BitVec.ofNat 512 addr.toNat))) ∧
    (∀ (addr : BitVec 60),
      (coverOldest s 1 addr.toNat = none → exec (.parityFoldAck addr) s = .next s) ∧
      (∀ e, coverOldest s 1 addr.toNat = some e → exec (.parityFoldAck addr) s =
        .next (coverAck (ringLine s (e.2 / 2) (BitVec.ofNat 512 addr.toNat)) 1 addr.toNat))) ∧
    (∀ (r : Fin 16384), s.degraded.contains r.val = true → exec (.peerCopyDone r) s = .next s) ∧
    (∀ (r : Fin 16384) prot peer pgroup t, s.degraded.contains r.val = false →
      s.copying.find? (fun e => e.1 == r.val) = some (r.val, prot, peer, pgroup) →
      t = { s with copying := s.copying.filter (fun x => x.1 != r.val) } →
      (prot = 0 → exec (.peerCopyDone r) s = .next t) ∧
      (prot = 1 → exec (.peerCopyDone r) s = .next (send t (.peer peer (globalAddr t (rgBase t r.val)) [16] 0))) ∧
      (prot = 2 → exec (.peerCopyDone r) s = .next (poolDrop t pgroup (fun k => regionOfKey t k == some r.val))))

/-! ## The medium -/

/-- While RUNNING: MEDIUM_ENUMERATE of a medium that is neither READY nor REPLAYING ends with the profile in MED_CTL, the raw capacity of
the usable targets (at most 262,144 GiB), READY clear and REPLAYING set, and changes nothing otherwise; LOG_REPLAY during a replay reads
every band header, decision log and the ROOT and MAP units of each recorded region's newest versions, keeps the locators and the lost units
that the maps of those versions name, sends every contribution that is not covered again, sets READY, clears REPLAYING, and what waits for
the medium goes on, the sentinel pages read first when there was no power; LOG_REPLAY at any other time changes nothing. -/
def Obligations.MediumComesUpAndReplays : Prop :=
  ∀ s : State, running s = true →
    (∀ chans (profile : BitVec 8) (pe : BitVec 16),
      (regBit s (rMed 8) 0 = false → regBit s (rMed 8) 1 = false → ∃ t, exec (.mediumEnumerate chans profile pe) s = .next t ∧
        regFld t (rMed 0) 15 8 = profile.toNat ∧ regFld t (rMed 8) 0 0 = 0 ∧ regFld t (rMed 8) 1 1 = 1 ∧
        regFld t 0x28 23 0 = min ((t.targetBytes.map (fun e => e.2)).sum / 2 ^ 30) 262144) ∧
      (regBit s (rMed 8) 0 = true ∨ regBit s (rMed 8) 1 = true → exec (.mediumEnumerate chans profile pe) s = .next s)) ∧
    (regBit s (rMed 8) 1 = true → ∀ t u v, t = replayReads s (replayKeeps s) → u = { t with
        locs := t.locs.filter (fun e => mapNames t (replayKeeps s) e.1)
        lost := t.lost.filter (mapNames t (replayKeeps s))
        metaLocs := t.metaLocs.filter (fun e => mapKept t (replayKeeps s) e.1)
        rebuilt := replayKeeps s } → v = forEach (u.contribs.filter (fun c => !c.cov)) u sendContrib →
      exec .logReplay s = .next (logStep (startReads (readSentinels (regPut (regPut v (rMed 8) 1 1 0) (rMed 8) 0 0 1))))) ∧
    (regBit s (rMed 8) 1 = false → exec .logReplay s = .next s)

/-- While RUNNING with no injection armed, a page read counts what its codewords met, notes it for its band and orders the commands of
each step of the ladder up to the highest that a codeword needed; from step 10 on its unit's rebuild from parity is asked for, and
reclaim goes on; memory, poison, the locators and the lost units are as they were before that. A scrub read does the same without a
domain, counted with its first page. A degraded read asks the members for the other contributions that its parity unit names; with
every part there the unit is rebuilt as their XOR, and it is lost when one is unreadable; a PARITY unit of this holder is the XOR of
its contributions. Its conclusions give the next state: under the conditions named, pageReadDone, scrubRead and degradedRead each
complete. -/
def Obligations.PageReadsClimbTheLadder : Prop :=
  ∀ (s : State) (loc : BitVec 40) (page : Fin 4) (cws : List (BitVec 4 × BitVec 16)) (step c : Nat), running s = true → s.inj = [] →
    step = cws.foldl (fun m x => max m x.1.toNat) 0 → c = locChan loc.toNat page.val →
    (∃ u, u = readNoted s (readDom s loc.toNat) loc page cws ∧
      u.mem = s.mem ∧ u.locs = s.locs ∧ u.lost = s.lost ∧ u.poison = s.poison ∧
      (step < 10 → exec (.pageReadDone loc page cws) s = .next (reclaimStep u)) ∧
      (10 ≤ step → exec (.pageReadDone loc page cws) s = .next (reclaimStep (askRebuild u c loc.toNat)))) ∧
    (∃ t u, t = (if page.val = 0 then pmc s (184 + locChan loc.toNat 0 / 16) 4 1 none else s) ∧ u = readNoted t none loc page cws ∧
      u.mem = s.mem ∧ u.locs = s.locs ∧ u.lost = s.lost ∧ u.poison = s.poison ∧
      (step < 10 → exec (.scrubRead loc page cws) s = .next (reclaimStep u)) ∧
      (10 ≤ step → exec (.scrubRead loc page cws) s = .next (reclaimStep (askRebuild u c loc.toNat)))) ∧
    (∀ (chan : Fin 32) (at' : BitVec 41) parity (others : List PartRead),
      (∀ t, parityHere s at'.toNat = false →
        t = (if parity.isSome then forEach others s (fun s p => askPart s p.member.val p.loc.toNat) else s) →
        (∀ us, parity :: others.map (fun p => p.lines) = us.map some → exec (.degradedRead chan at' parity others) s =
          .next (logStep (rebuildUnit (pmc t (184 + chan.val / 16) 7 1 (readDom t at'.toNat)) chan.val at'.toNat (xorLines us)))) ∧
        (none ∈ parity :: others.map (fun p => p.lines) →
          exec (.degradedRead chan at' parity others) s = .next (logStep (loseUnit t chan.val at'.toNat)))) ∧
      (parityHere s at'.toNat = true →
        (∀ us, others.map (fun p => p.lines) = us.map some → exec (.degradedRead chan at' parity others) s =
          .next (logStep (rebuildUnit (pmc s (184 + chan.val / 16) 7 1 (readDom s at'.toNat)) chan.val at'.toNat (xorLines us)))) ∧
        (none ∈ others.map (fun p => p.lines) →
          exec (.degradedRead chan at' parity others) s = .next (logStep (loseUnit s chan.val at'.toNat)))))

/-- While RUNNING with no injection armed: the next unit of a band programmed without a failure is on the medium, and what waited
for it goes on; a new DATA unit is then located there, no longer lost, and memory is as it was; one with a failed page, or that
times out, retires the block, closes the band and starts its reclaim; an erase that reclaim ordered counts one erase of each block,
forgets the band's contributions and leaves memory, and one that fails or times out retires the block; a read that times out is
ordered again at the next step; a band named for reclaim that is written and not open is reclaimed, a refresh only once the log is no
longer full; an acknowledged retraction is
counted and forgotten. -/
def Obligations.ProgramsAndErasesUpdateBands : Prop :=
  ∀ (s : State) (loc : BitVec 40) (l b : Nat), running s = true → s.inj = [] → l = loc.toNat → b = locBand loc.toNat →
    (∀ p, s.progs.find? (fun p => locBand p.loc == b) = some p → p.loc = l →
      (∃ u, u.mem = s.mem ∧ u.progs = s.progs ∧ u.locs = s.locs ∧ u.lost = s.lost ∧ u.bands = s.bands ∧
        exec (.pageProgramDone loc none) s = .next (logStep (progDone u p)) ∧
        ∀ i : Fin 4, exec (.pageProgramDone loc (some i)) s = .next (logStep (programFailed u (locChan l i.val) p))) ∧
      (p.src = none → p.unit.type = 1 →
        (programmed s p).locs = Sparse.ins s.locs (unitName p.unit.region p.unit.version p.unit.unit) l ∧
        (programmed s p).lost = Sparse.rem s.lost (unitName p.unit.region p.unit.version p.unit.unit) ∧ (programmed s p).mem = s.mem)) ∧
    ((bandOf s b).reclaim = 4 → ∃ u, u.mem = s.mem ∧ u.locs = s.locs ∧ u.contribs = s.contribs ∧ u.bands = s.bands ∧
      exec (.blockEraseDone loc none) s = .next (logStep (erased u b)) ∧
      (∀ i : Fin 4, exec (.blockEraseDone loc (some i)) s = .next (logStep (eraseFailed u (locChan l i.val) b)))) ∧
    ((bandOf s b).gone = false → (erased s b).contribs = s.contribs.filter (fun c => locBand c.loc != b) ∧
      (erased s b).bands = Sparse.set s.bands b {} {} ∧ (erased s b).mem = s.mem ∧ (erased s b).locs = s.locs) ∧
    (∀ chan : Fin 32,
      (∀ p, s.progs.find? (fun p => p.loc == l) = some p → exec (.statusTimeout chan loc 1) s =
        .next (logStep (statusTimeout (programFailed s chan.val p) chan.val l))) ∧
      ((bandOf s b).reclaim = 4 → exec (.statusTimeout chan loc 2) s =
        .next (logStep (statusTimeout (eraseFailed s chan.val b) chan.val l))) ∧
      exec (.statusTimeout chan loc 0) s = .next (readTimeout s l (chan.val / 8 % 4))) ∧
    ((bandOf s b).isOpen = false → (bandOf s b).next ≠ 0 → (∀ p ∈ s.progs, locBand p.loc ≠ b) → lunUp s (bandLoc b) = true →
      ((regBit s (rMed 8) 2 = false ∨ (bandOf s b).refresh = false) → exec (.bandReclaim loc) s = .next (logStep (startReclaim s b))) ∧
      (regBit s (rMed 8) 2 = true → (bandOf s b).refresh = true →
        exec (.bandReclaim loc) s = .next (logStep { s with lateQ := s.lateQ ++ [(b, true)] }))) ∧
    (∀ n, Sparse.get s.retracts b 0 = n + 1 → exec (.retractionAck loc) s = .next (logStep { s with
      retracts := Sparse.set s.retracts b 0 n
      contribs := s.contribs.filter (fun c => c.loc != l) }))

/-- While RUNNING: a contribution's lines arrive in its member's ring and it joins the first open stripe that holds none of its member's;
the close timer closes the oldest open stripe; a covered contribution is marked and its band owes one less; a retraction of a stripe's
only contribution retires its parity unit and is acknowledged, one of a stripe with others writes the new parity unit, and one of no stripe
changes nothing more; each item of a rebuild in its order is rebuilt, and a DATA unit's is no longer lost. -/
def Obligations.ParityStripesAndRebuild : Prop :=
  ∀ s : State, running s = true →
    (∀ (member : Fin 16) (loc : BitVec 40) lines x u, u = ringUnit s member.val loc.toNat lines →
      u.stripes.find? (fun x => !x.parts.any (fun p => p.1 == member.val)) = some x →
      exec (.contributionArrive member loc lines) s = .next (joinStripe u x member.val loc.toNat lines)) ∧
    (∀ x rest, s.stripes = x :: rest → exec .stripeCloseTimer s = .next (closeStripe s x)) ∧
    (∀ loc : BitVec 40, s.contribs.any (fun c => c.loc == loc.toNat && !c.cov) = true → ∃ u, u = { s with
        contribs := s.contribs.map (fun c => if c.loc == loc.toNat then { c with cov := true } else c) } ∧
      exec (.contributionCovered loc) s = .next (logStep (putBand u (locBand loc.toNat)
        { bandOf s (locBand loc.toNat) with uncovered := (bandOf s (locBand loc.toNat)).uncovered - 1 }))) ∧
    (∀ (member : Fin 16) (loc : BitVec 40) lines u, u = ringUnit s member.val loc.toNat lines →
      (∀ x, u.parUnits.find? (fun x => x.parts.contains (member.val, loc.toNat)) = some x →
        (x.parts = [(member.val, loc.toNat)] → ∃ v, v = { u with
            parUnits := u.parUnits.erase x, metaLocs := u.metaLocs.filter (fun e => e.1 != ⟨4, 0, 0, x.id⟩) } ∧
          exec (.retraction member loc lines) s = .next (logStep (send v (.peer (peerOf v member.val) 0 [0x54, loc.toNat] 0)))) ∧
        (∀ y, y = { x with parts := x.parts.erase (member.val, loc.toNat) } →
          y.parts ≠ [] → ∃ v, v = { u with parUnits := u.parUnits.map (fun z => if z.id == x.id then y else z) } ∧
          exec (.retraction member loc lines) s = .next (logWrite v
            { type := 4, unit := x.id, parts := y.parts, bytes := xorLines [parityLines v x.id, lines], acks := [(0x54, member.val, loc.toNat)] } none))) ∧
      (u.parUnits.find? (fun x => x.parts.contains (member.val, loc.toNat)) = none → exec (.retraction member loc lines) s = .next u)) ∧
    (∀ item last u, u = regPut s (rMed 8) 3 3 (if last then 0 else 1) →
      (s.rebuildAt ≤ itemOrder item → exec (.substituteRebuild item last) s =
        .next (rebuildItem { u with rebuildAt := if last then 0 else itemOrder item } item)) ∧
      (itemOrder item < s.rebuildAt → exec (.substituteRebuild item last) s = .next s)) ∧
    (∀ (r : BitVec 14) (v : BitVec 48) (k : BitVec 40),
      (rebuildItem s (.data r v k [])).lost = Sparse.rem s.lost (unitName r.toNat v.toNat k.toNat) ∧ (rebuildItem s (.data r v k [])).mem = s.mem)

/-! ## Fabric ports, the switch core and the gateway -/

/-- While RUNNING with no injection armed: DETECT goes on to EQUALIZE; with a converged lane EQUALIZE goes to ALIGN, with none the
training fails; four straight good lanes align to width 4 in CONFIG, and no common lane fails the training, the port's own good lanes
sent to the far end; in CONFIG the port sends its controller number and the credits it grants, the bound far end activates it with the
credits it grants, and another far end is a FAB_ERR; a finished retrain with all lanes resends what is unacknowledged, one without a
lane, or one that takes too long, takes the port DOWN; a DOWN port that is bound trains again after its timer. The form of what is sent
is the model's (log entry 218). -/
def Obligations.PortsTrainStateByState : Prop :=
  ∀ (s : State) (port : Fin 16), running s = true → s.inj = [] →
    (fabState s port.val = 1 → exec (.portDetect port) s = .next (setFabState s port.val 2)) ∧
    (fabState s port.val = 2 →
      (∀ conv : BitVec 4, conv ≠ 0 → exec (.equalizeDone port conv) s =
        .next (setFabState (putLink s port.val { linkOf s port.val with conv := conv.toNat }) port.val 3)) ∧
      exec (.equalizeDone port 0) s = .next (trainFail s port.val)) ∧
    (fabState s port.val = 3 →
      ((linkOf s port.val).conv = 15 → exec (.alignDone port [0, 1, 2, 3] 15) s = .next (setFabState (setLanes
        (regPut (send s (.train port.val [15])) (rFab port.val 8) 7 7 0) port.val 15) port.val 4)) ∧
      (∀ order, ∃ own r, exec (.alignDone port order 0) s =
        .next (trainFail (regPut (send s (.train port.val [own])) (rFab port.val 8) 7 7 r) port.val))) ∧
    (fabState s port.val = 4 → regFld s rAddrSelf 9 4 ≠ 63 →
      (∀ isHost (far : BitVec 10) credits t u, t = send s (.train port.val (ownCtrl s :: (recvSlots s port.val).flatMap (fun e => [e.1, e.2]))) →
        u = regPut (regPut t (rFab port.val 8) 37 28 far.toNat) (rFab port.val 8) 27 27 (if isHost then 1 else 0) →
        (((fabKind u port.val = 1 ∧ isHost = false ∧ regFld u (rFab port.val 0) 61 52 = far.toNat) ∨
            (fabKind u port.val = 2 ∧ isHost = true ∧ regFld u (rFab port.val 0) 51 46 = far.toNat) ∨ (fabKind u port.val = 3 ∧ isHost = false)) →
          exec (.configDone port isHost far credits) s = .next (setFabState (putLink u port.val { ({} : Link) with
            crd := credits.map (fun c => (c.1.toNat, c.2.toNat)), crd0 := credits.map (fun c => (c.1.toNat, c.2.toNat)),
            share := credits.map (fun c => (c.1.toNat, c.2.toNat)),
            grant := recvSlots u port.val, conv := (linkOf u port.val).conv }) port.val 5)) ∧
        ((fabKind u port.val = 0 ∨ (fabKind u port.val ≠ 2 ∧ isHost = true) ∨
            (fabKind u port.val = 1 ∧ regFld u (rFab port.val 0) 61 52 ≠ far.toNat) ∨ (fabKind u port.val = 2 ∧ isHost = false) ∨
            (fabKind u port.val = 2 ∧ regFld u (rFab port.val 0) 51 46 ≠ far.toNat)) →
          exec (.configDone port isHost far credits) s = .next (fabEvent u port.val 7 none)))) ∧
    (fabState s port.val = 6 →
      exec (.retrainDone port ⟨15, 15⟩) s =
        .next (resend (setFabState (setLanes (send s (.train port.val [15])) port.val 15) port.val 5) port.val) ∧
      (∀ far, exec (.retrainDone port ⟨0, far⟩) s = .next (portDown (send s (.train port.val [0])) port.val)) ∧
      exec (.retrainTimeout port) s = .next (portDown s port.val)) ∧
    (fabState s port.val = 7 → fabKind s port.val ≠ 0 →
      exec (.trainRetryTimer port) s = .next (if portServes s port.val then setFabState s port.val 1 else s))

/-- While RUNNING at an ACTIVE port: a good PAYLOAD flit next in order gives its messages to the switch core, one that
is not taken gives none; an IDLE flit brings its
header; a flit with a wrong CRC is counted, recorded and asked for again, and gives nothing; a CONTROL flit with an ABORT on a PEER port
aborts the composition; a port that owes an ACK sends an IDLE flit when its timer passes, and a resend timeout resends. -/
def Obligations.FlitsAreTakenInOrder : Prop :=
  ∀ (s : State) (port : Fin 16), running s = true → fabState s port.val = 5 →
    (∀ (hdr : BitVec 64) slots ms t, (flitHdr hdr).type = 1 →
      ms = messages (rxSlots s port.val) 15 ((slots.map BitVec.toNat).take (flitHdr hdr).used) →
      rxFlit s port.val (flitHdr hdr) true (overCredit s port.val ms) = (true, t) →
      exec (.flitPayload port hdr slots true) s = .next (drainPort 64 (forEach ms t
        (fun s m => if fabState s port.val = 5 ∨ fabState s port.val = 6 then takeMessage s port.val m else s)) port.val)) ∧
    (∀ (hdr : BitVec 64) slots ms t, (flitHdr hdr).type = 1 →
      ms = messages (rxSlots s port.val) 15 ((slots.map BitVec.toNat).take (flitHdr hdr).used) →
      rxFlit s port.val (flitHdr hdr) true (overCredit s port.val ms) = (false, t) →
      exec (.flitPayload port hdr slots true) s = .next t) ∧
    (∀ (hdr : BitVec 64) slots, s.inj = [] → exec (.flitPayload port hdr slots false) s =
      .next (askAgain (fabEvent (pmc s (186 + port.val) 1 1 none) port.val 1 (some 0x20)) port.val)) ∧
    (∀ (hdr : BitVec 64) ok, exec (.flitIdle port hdr ok) s = .next (rxFlit s port.val (flitHdr hdr) ok false).2) ∧
    (∀ (hdr : BitVec 64) (slot : BitVec 128) t, rxFlit s port.val (flitHdr hdr) true false = (true, t) → (flitHdr hdr).type = 2 → fabKind t port.val = 1 →
      bits slot.toNat 7 0 = 1 →
      exec (.abortFlit port hdr slot true) s = .next (abortComp t (bits slot.toNat 31 16) (bits slot.toNat 47 32 % 1024))) ∧
    (0 < (linkOf s port.val).got → exec (.ackTimer port) s = .next (emitIdle s port.val false noCrd)) ∧
    exec (.resendTimeout port) s = .next (resend s port.val)

/-- While RUNNING: an input's pack timeout makes its partly filled cells ready and sends them, which without mirroring is all it does; a
cycle before the epoch's last, with no message of an own agent waiting, sends the switch's one cell at the output that can take it, the
rotations of its input and output move past the match, and one without a cell only gives back credits, drains the receive buffers and
serves the reel reads that wait; an epoch boundary after 65,536 cycles takes over the pending budgets and classes, counts, and splits the
ports' channels anew, and one before changes nothing; a write of SW_MIRROR sets its fields and, when EN rises, restarts the count; a
response to an agent's request goes to that agent with its own TXN, which all but a Defer, a Fetch and a reel's earlier lines end, and the
agent has its line, or its fault, or nothing more to wait for; a flushed Err stops the running engine, or the kernel whose home-side spool
moves, with ABORTED. -/
def Obligations.SwitchCoreActs : Prop :=
  ∀ s : State, running s = true →
    (∀ inp : Fin 42, ∃ u, u = { s with cells := s.cells.map (fun c => if c.inp = inp.val then { c with ready := true } else c) } ∧
      exec (.cellPackTimeout inp) s = .next (forEach (s.cells.filter (fun c => c.inp == inp.val && !c.mirror && !c.ready)) u
        (fun s c => cellSent s { c with ready := true })) ∧
      (regBit s (rSw 0x20) 63 = false → exec (.cellPackTimeout inp) s = .next u)) ∧
    (s.swCycles < 65536 → s.agentq = [] → regBit s (rSw 8) 0 = true → ∀ u, u = { s with swCycles := s.swCycles + 1 } →
      (s.cells = [] → exec .switchCycle s = .next (serveReelWaits (forEach (List.range 16) (freeCredits u) (fun s p => drainPort 64 s p)))) ∧
      (∀ c o t, s.cells = [c] → c.outs = [(o, t)] → c.cls < 4 → c.rc < 16 → canSend s o c = true → ∃ v, v = deliver
          { u with swOut := Sparse.ins s.swOut o ((c.from + 1) % 42), swIn := Sparse.ins s.swIn c.from ((o + 1) % 42) } o c ∧
        exec .switchCycle s = .next (serveReelWaits (forEach (List.range 16) (freeCredits { v with cells := v.cells.map (fun c =>
          if c.ready && !c.mirror && c.outs.any (fun t => queueHead v t.1 c) then { c with age := c.age + 1 } else c) })
          (fun s p => drainPort 64 s p))))) ∧
    ((s.swCycles < 65536 → exec .epochBoundary s = .next s) ∧
      (65536 ≤ s.swCycles → ∃ u, u = regAdd { s with
          swLive := s.regs.filter (fun e => e.1 == rSw 0 || (decide (0x2110000 ≤ e.1) && decide (e.1 < 0x2130000))), swSpent := [], swCycles := 0 }
          (rSw 8) 27 12 1 ∧
        (rcMode s = false → rcMode u = false → exec .epochBoundary s = .next u) ∧
        (rcMode s = true ∨ rcMode u = false → exec .epochBoundary s = .next (forEach (List.range 16) u (fun t p => resplit s t p))) ∧
        (rcMode s = false → rcMode u = true → exec .epochBoundary s = .next (forEach (List.range 16)
          (forEach ((List.range 16).filter (fun p => fabState u p == 5 && decide (regFld u (rFab p 8) 6 4 < 4))) u (fun t p => swEvent t 4 0 p))
          (fun t p => resplit s t p))))) ∧
    (∀ value : BitVec 64, ∃ u, u = regSet s (rSw 0x20) (BitVec.ofNat 64 (value.toNat &&& 0xFF0000FFFF000000)) ∧
      (value.toNat.testBit 63 = true → regBit s (rSw 0x20) 63 = false → exec (.swMirrorWrite value) s = .next { u with mirCnt := 0 }) ∧
      (value.toNat.testBit 63 = false ∨ regBit s (rSw 0x20) 63 = true → exec (.swMirrorWrite value) s = .next u)) ∧
    (∀ (port : Fin 16) (txn : BitVec 12) (opcode : BitVec 6) data r a, s.fabReqs.find? (fun r => r.port == port.val && r.txn == txn.toNat) = some r →
      a = (if hOpcode r.hdr = 4 ∧ hGw r.hdr = true then r.addr + 64 * (1024 - r.left) else r.addr) →
      exec (.grantResponse port txn opcode data) s =
        .next (agentAnswer (send (reqAnswered s r opcode.toNat) (.fab r.agent [2, opcode.toNat, r.own, a, data.toNat])) r.agent
          (respHdr s opcode.toNat r.own (ownCtrl s) a (if opcode.toNat = 0x27 then data.toNat % 16 else 0) false false) data) ∧
        ((opcode.toNat = 0x24 ∨ opcode.toNat = 0x25) → reqAnswered s r opcode.toNat = s) ∧
        (opcode.toNat ≠ 0x24 → opcode.toNat ≠ 0x25 → (opcode.toNat ≠ 0x31 ∨ r.left ≤ 1) →
          reqAnswered s r opcode.toNat = { s with fabReqs := s.fabReqs.erase r })) ∧
    (∀ p h d r, s.agentReqs.find? (fun r => r.port == p && r.txn == hTxn h && r.addr == hAddr h / 64) = some r →
      (hOpcode h = 0x24 → agentAnswer s p h d = s) ∧
      (hOpcode h = 0x31 → ∀ w e, r.who = .kread w e → agentAnswer s p h d = { s with
        agentReqs := s.agentReqs.erase r
        farGot := s.farGot.filter (fun e => !(e.1 == w && e.2.1 == r.addr)) ++ [(w, r.addr, d, hPoison h)] }) ∧
      (hOpcode h = 0x26 → ∀ w e, r.who = .kwrite w e → agentAnswer s p h d = { s with agentReqs := s.agentReqs.erase r }) ∧
      (hOpcode h = 0x27 → ∀ w e, (r.who = .kread w e ∨ r.who = .kwrite w e) →
        agentAnswer s p h d = kernelFail { s with agentReqs := s.agentReqs.erase r } w e (errFault (hErr h)) (hAddr h)) ∧
      (hOpcode h = 0x27 → ∀ dom, r.who = .cpl dom →
        agentAnswer s p h d = ldrEvent { s with agentReqs := s.agentReqs.erase r } 5 0 dom (hAddr h))) ∧
    (∀ addr : BitVec 60,
      (∀ l : Fin 128, latheBusy s l.val = true → exec (.errFlushedReceived (.engine (.lathe l)) addr) s = .next (latheFault s l.val 17 0 addr.toNat)) ∧
      (∀ n : Fin 128, regFld s (rGctx n.val 0) 2 0 ≠ 0 → exec (.errFlushedReceived (.engine (.gctx n)) addr) s = .next (ctxFault s n.val 17 addr.toNat)) ∧
      (∀ n : Fin 4096, regFld s (rKite n.val 0) 2 0 ≠ 0 → exec (.errFlushedReceived (.engine (.kite n)) addr) s = .next (kiteFault s n.val 17 addr.toNat)) ∧
      (∀ (h : Fin 8) e rest, hspoolQueue s h.val = e :: rest →
        exec (.errFlushedReceived (.spool h) addr) s = .next (homeSpoolFault s h.val e.1.win 17 addr.toNat)))

/-- While RUNNING with no injection armed: a reel of no region, or of one being deleted, or of one the domain may not read, is refused
with ADDR or GRANT, and of a version no longer held with STALE; one of a held version, or of the region as it is with none of its
lines in service, is answered with its 1,024 lines and their POISON flags, once a frame holds its unit; one that cannot be answered yet
waits; a fetched reel of 1,024 lines is CLEAN and serves what waits for it, one with an Err is dropped, its waiting accesses answered, and
one with fewer lines stays as it is; a write-back that the domain may not make is refused with GRANT, any other is held for its homes,
which apply it whole, its poisoned lines as poison, when none of its lines is held and acknowledge it; a Cmp frees the slot of a
write-back; a timeout of a fetch drops it, and of a write-back sends it again; of an unknown TXN these change nothing. Its conclusions
give the next state: under the conditions named, reelReadServe, reelFetchDone, reelWbApply, reelWbDone and reelTimeout each complete. -/
def Obligations.ReelsMoveBetweenBoxes : Prop :=
  ∀ s : State, running s = true → s.inj = [] →
    (∀ (port : Fin 16) (ctrl : BitVec 10) (txn : BitVec 12) (dom : BitVec 8) (addr : BitVec 60) (version : Option (BitVec 48)), addr.toNat % 65536 = 0 →
      ((∀ off, route s addr.toNat ≠ .own off) → exec (.reelReadServe ⟨port, ctrl⟩ txn dom addr version) s =
        .next (gwSend (addrFault s addr.toNat dom.toNat) port.val ctrl.toNat addr.toNat 0x27 txn.toNat errAddr)) ∧
      (∀ off a, route s addr.toNat = .own off → a = globalAddr s off →
        (regionOf s off = none → exec (.reelReadServe ⟨port, ctrl⟩ txn dom addr version) s =
          .next (gwSend (addrFault s a dom.toNat) port.val ctrl.toNat a 0x27 txn.toNat errAddr)) ∧
        (∀ r, regionOf s off = some r → off < 2 ^ 48 → rgDeleting s r = true → exec (.reelReadServe ⟨port, ctrl⟩ txn dom addr version) s =
          .next (gwSend (addrFault s a dom.toNat) port.val ctrl.toNat a 0x27 txn.toNat errAddr)) ∧
        (∀ r, regionOf s off = some r → rgDeleting s r = false → permitRegion s dom.toNat r false = false →
          exec (.reelReadServe ⟨port, ctrl⟩ txn dom addr version) s =
            .next (gwSend (violate s (.peer port dom) a) port.val ctrl.toNat a 0x27 txn.toNat errGrant)) ∧
        (∀ w t, w = ⟨port.val, ctrl.toNat, txn.toNat, dom.toNat, off, version.map BitVec.toNat⟩ → reelRead s w = (false, t) →
          t.reelWaits.contains w = false → exec (.reelReadServe ⟨port, ctrl⟩ txn dom addr version) s = .next { t with reelWaits := t.reelWaits ++ [w] }) ∧
        (∀ r, regionOf s off = some r → rgDeleting s r = false → permitRegion s dom.toNat r false = true →
          (∀ v : BitVec 48, version = some v → (versionsOf s r).contains v.toNat = false → exec (.reelReadServe ⟨port, ctrl⟩ txn dom addr version) s =
            .next (gwSend s port.val ctrl.toNat a 0x27 txn.toNat errStale)) ∧
          (∀ (v : BitVec 48) key u, version = some v → (versionsOf s r).contains v.toNat = true →
            key = spKey (spVersion r v.toNat) (off - rgBase s r) → missFor s (2048 + ctrl.toNat) r key = none →
            missFor (gwWork s) (2048 + ctrl.toNat) r key = none → u = frameHit (gwWork s) off key (some dom.toNat) →
            exec (.reelReadServe ⟨port, ctrl⟩ txn dom addr version) s = .next (streamDrop (sendReel u
              port.val ctrl.toNat txn.toNat dom.toNat off (fun i => (s.readLine (key + 64 * i), poisonedAt s r (key + 64 * i))))
              (fun e => e.1 == cacheUnit u r key && e.2.1 == 2048 + ctrl.toNat))) ∧
          (∀ t u key, version = none → s.shadows = [] → reelHolds s off = false → reelLookups s off = (t, false) → heldLines t (off / 65536) = [] →
            key = (backing t off).getD off → missFor t (2048 + ctrl.toNat) r key = none →
            missFor (gwWork t) (2048 + ctrl.toNat) r key = none → u = frameHit (gwWork t) off key (some dom.toNat) →
            exec (.reelReadServe ⟨port, ctrl⟩ txn dom addr version) s = .next (streamDrop (sendReel u
              port.val ctrl.toNat txn.toNat dom.toNat off (fun i => (curLine t (off + 64 * i), isPoisoned t (off + 64 * i))))
              (fun e => e.1 == cacheUnit u r key && e.2.1 == 2048 + ctrl.toNat)))))) ∧
    (∀ txn, (∀ k x, s.reels.find? (fun e => e.2.st == .fetching && e.2.txn == txn) = some (k, x) →
        (∀ lines (e : BitVec 4),
          (e.toNat = errStale → exec (.reelFetchDone txn lines (some e)) s = .next (dropFetch (gwEvent s 4 x.addr) k x errStale 13)) ∧
          (e.toNat ≠ errStale → exec (.reelFetchDone txn lines (some e)) s = .next (dropFetch (gwEvent s 2 x.addr) k x e.toNat 17))) ∧
        (∀ (lines : List (BitVec 512 × Bool)) dom u v, lines.length = 1024 → dom = (match x.waiting, x.kwait with
            | w :: _, _ => reqDom s w.2
            | [], w :: _ => some (winDom s w.1)
            | [], [] => none) →
          u = forEach ((List.range 1024).zip lines) (pmc (putLines s (reelKey k x.addr) (lines.map (fun l => l.1))) 205 3 65536 dom)
            (fun s l => (if l.2.2 then setPoison else clrPoison) s (reelKey k x.addr + 64 * l.1)) →
          v = putReel { u with reelStamp := u.reelStamp + 1 } k
            { x with st := .clean, stamp := u.reelStamp + 1, waiting := [], kwait := [] } →
          exec (.reelFetchDone txn lines none) s = .next (drainMissq (reelStaged (forEach x.waiting v (fun s w => gwServe false s w.1 w.2)) x))) ∧
        (∀ lines : List (BitVec 512 × Bool), lines.length ≠ 1024 → exec (.reelFetchDone txn lines none) s = .next s)) ∧
      (∀ lines, s.reels.find? (fun e => e.2.st == .fetching && e.2.txn == txn) = none → exec (.reelFetchDone txn lines none) s = .next s)) ∧
    (∀ (port : Fin 16) (ctrl : BitVec 10) (txn : BitVec 12) (dom : BitVec 8) (base : BitVec 60) (lines : List (BitVec 10 × BitVec 512 × Bool)),
      base.toNat % 65536 = 0 →
      ((∀ off, route s base.toNat ≠ .own off) → exec (.reelWbApply ⟨port, ctrl⟩ txn dom base lines) s =
        .next (gwSend (addrFault s base.toNat dom.toNat) port.val ctrl.toNat base.toNat 0x27 txn.toNat errAddr)) ∧
      (∀ off, route s base.toNat = .own off →
        (regionOf s off = none → exec (.reelWbApply ⟨port, ctrl⟩ txn dom base lines) s =
          .next (gwSend (addrFault s base.toNat dom.toNat) port.val ctrl.toNat base.toNat 0x27 txn.toNat errAddr)) ∧
        (∀ r, regionOf s off = some r → rgDeleting s r = false →
          (permitRegion s dom.toNat r true = false → exec (.reelWbApply ⟨port, ctrl⟩ txn dom base lines) s =
            .next (gwSend (violate s (.peer port dom) base.toNat) port.val ctrl.toNat base.toNat 0x27 txn.toNat errGrant)) ∧
          (permitRegion s dom.toNat r true = true → rgVersioned s r = false ∨ 2 ^ 48 ≤ off →
            (draftOpen s off = false → exec (.reelWbApply ⟨port, ctrl⟩ txn dom base lines) s =
              .next (gwSend (addrFault s base.toNat dom.toNat) port.val ctrl.toNat base.toNat 0x27 txn.toNat errAddr)) ∧
            (draftOpen s off = true → exec (.reelWbApply ⟨port, ctrl⟩ txn dom base lines) s = .next (settleAll { (gwWork s) with
              wbq := s.wbq ++ [⟨port.val, ctrl.toNat, txn.toNat, dom.toNat, off, lines.map (fun l => (l.1.toNat, l.2))⟩] })))))) ∧
    (∀ (w : WbHold) r t u v, lookups s w.offs = (t, false) →
      ((∃ o ∈ w.offs, (lineRec t o).1 ≠ .I) → wbStep s w =
        forEach (w.offs.filter (fun o => (lineRec t o).1 != .I)) t (fun s o => owe s false (o / 64))) ∧
      ((∀ o ∈ w.offs, (lineRec t o).1 = .I) → draftOpen { t with wbq := t.wbq.erase w } w.base = true →
        ensureUnit { t with wbq := t.wbq.erase w } w.base = .ok u → regionOf u w.base = some r → isTether u r = false →
        v = forEach w.lines u (fun s l => setRec ((fun (t : State) => if l.2.2 = true then poisonLine t (w.base + 64 * l.1) else t)
          (clearPoison (putStack (storeFree (homeCount s (w.base + 64 * l.1) 1 (some w.dom)) (w.base + 64 * l.1)) (w.base + 64 * l.1) l.2.1)
            (w.base + 64 * l.1))) (w.base + 64 * l.1) .I 0) →
        (∀ o ∈ w.offs, covered v o = false) → foldLost v w.base = false → v.trk = [] →
        wbStep s w = gwSend v w.via w.ctrl (globalAddr v w.base) 0x26 w.txn 0)) ∧
    (∀ txn k x, s.reels.find? (fun e => e.2.st == .writing && e.2.txn == txn) = some (k, x) → x.overflow = false →
      exec (.reelWbDone txn) s = .next (settleCpl (drainMissq (freeReel s k)))) ∧
    (∀ txn k x, s.reels.find? (fun e => (e.2.st == .fetching || e.2.st == .writing) && e.2.txn == txn) = some (k, x) →
      (x.st = .fetching → exec (.reelTimeout txn) s = .next (dropFetch (gwEvent s 0 x.addr) k x errFlushed 17)) ∧
      (x.st = .writing → exec (.reelTimeout txn) s = .next (writebackLines (gwEvent s 0 x.addr) k x)))

/-! ## Command Ethernet, ZCT sessions and management -/

/-- While RUNNING: training up sets LINK of a port in service; losing a link that was up takes the port down; on a port with a link every frame is counted, with
the codewords that its FEC corrected: one with a codeword that it could not correct, and one of more than 9,216 B, is dropped and counted; an
ARP request or a neighbor solicitation for the port's own address is answered with it and the port's MAC address (log entry 194), an echo
with its identifier, sequence number and payload, each in the frame's VLAN, and any of these for another address is dropped and counted, as
any other frame is; a PFC pause stops a priority and a resume lets what waited go; a port without a link takes none of them. Its conclusions
give the next state: under the conditions named, ethLinkUp, ethLinkDown, arpRequest, neighborSolicitation, icmpEcho, icmpv6Echo, pfcFrame and
otherFrameDrop each complete. -/
def Obligations.EthernetFramesAreAnswered : Prop :=
  ∀ (s : State) (port : Fin 2), running s = true →
    exec (.ethLinkUp port) s =
      .next (if portServes s (16 + port.val) then setBit (setBit s (rEth port.val 0) 0) (rEth port.val 0) 1 else s) ∧
    exec (.ethLinkDown port) s = .next (ethDown s port.val) ∧
    (ethLink s port.val = true → ∀ (frame : EthRx) u, u = addCnt (ethRx s port.val frame.bytes.toNat) (rEth port.val 0x18) frame.corr.toNat →
      (∀ target4 target6 ident seq payload,
        ∀ e ∈ [Instr.otherFrameDrop port frame, .arpRequest port target4 frame, .neighborSolicitation port target6 frame,
            .icmpEcho port target4 ident seq frame payload, .icmpv6Echo port target6 ident seq frame payload],
          (frame.uncorr ≠ 0 → exec e s =
            .next (ethDrop (addCnt (ethFec u port.val) (rEth port.val 0x20) (frame.uncorr.toNat - 1)) port.val)) ∧
          (frame.uncorr = 0 → 9216 < frame.bytes.toNat → exec e s = .next (ethDrop u port.val))) ∧
      (frame.uncorr = 0 → frame.bytes.toNat ≤ 9216 →
        exec (.otherFrameDrop port frame) s = .next (ethDrop u port.val) ∧
        (∀ (target : BitVec 32),
          (u.ethAddr.any (fun p => p.1 == 2 * port.val + 1 && p.2 == target.toNat) = true →
            exec (.arpRequest port target frame) s = .next (send (ethTx u port.val frame.bytes.toNat) (.eth port.val 1
              [tagWord frame.tci, target.toNat, (Config.macAddr port.val).toNat])) ∧
            (∀ ident seq payload, exec (.icmpEcho port target ident seq frame payload) s = .next (send (ethTx u port.val frame.bytes.toNat)
              (.eth port.val 3 (tagWord frame.tci :: ident.toNat :: seq.toNat :: payload.map BitVec.toNat))))) ∧
          (u.ethAddr.any (fun p => p.1 == 2 * port.val + 1 && p.2 == target.toNat) = false →
            exec (.arpRequest port target frame) s = .next (ethDrop u port.val) ∧
            (∀ ident seq payload, exec (.icmpEcho port target ident seq frame payload) s = .next (ethDrop u port.val)))) ∧
        (∀ (target : BitVec 128),
          (u.ethAddr.any (fun p => p.1 == 2 * port.val && p.2 == target.toNat) = true →
            exec (.neighborSolicitation port target frame) s = .next (send (ethTx u port.val frame.bytes.toNat) (.eth port.val 2
              [tagWord frame.tci, target.toNat, (Config.macAddr port.val).toNat])) ∧
            (∀ ident seq payload, exec (.icmpv6Echo port target ident seq frame payload) s = .next (send (ethTx u port.val frame.bytes.toNat)
              (.eth port.val 4 (tagWord frame.tci :: ident.toNat :: seq.toNat :: payload.map BitVec.toNat))))) ∧
          (u.ethAddr.any (fun p => p.1 == 2 * port.val && p.2 == target.toNat) = false →
            exec (.neighborSolicitation port target frame) s = .next (ethDrop u port.val) ∧
            (∀ ident seq payload, exec (.icmpv6Echo port target ident seq frame payload) s = .next (ethDrop u port.val)))))) ∧
    (∀ prio : Fin 8, ethLink s port.val = true → ∃ u, u = addCnt (ethRx s port.val 64) (rEth port.val 0x18) 0 ∧
      exec (.pfcFrame port prio true) s = .next { u with paused := Sparse.add u.paused (8 * port.val + prio.val) } ∧
      (u.pfcQ = [] → exec (.pfcFrame port prio false) s = .next { u with
        paused := Sparse.rem u.paused (8 * port.val + prio.val)
        pfcQ := [] })) ∧
    (∀ frame, ethLink s port.val = false → exec (.otherFrameDrop port frame) s = .next s)

/-- While RUNNING on a port with a link and addresses, with no injection armed: a block that R564 discards only counts, and one outside its
session's VLAN is dropped (log entry 233); a good one sets the session's port and far address, its ACK frees what it covers, and a WRITE or
READ is then taken in SEQ order, while an ACK only settles the session; the acknowledge timer acknowledges what was received; a resend
timeout resends an unacknowledged block, and after 16 resends the session is LOST; of a session that is CLOSED or LOST the acknowledge timer
changes nothing. Its conclusions give the next state: under the conditions named, zctWrite, zctRead, zctAck, zctAckTimer and
zctResendTimeout each complete. -/
def Obligations.BlocksAreTakenInOrder : Prop :=
  ∀ (s : State), running s = true → s.inj = [] →
    (∀ (port : Fin 2) (src : ZFrom) (h : ZHdr) data u, ethLink s port.val = true → src.uncorr = 0 → zctBytes data.length ≤ 9216 →
      u = addCnt (ethRx s port.val (zctBytes data.length)) (rEth port.val 0x18) src.corr.toNat →
      regBit u (rEth port.val 0) 2 = true → u.inj = [] →
      ∀ e ∈ [Instr.zctWrite port src h data, .zctRead port src h data] ++ (if data = [] then [.zctAck port src h] else []),
        (zctBad u h data = true → exec e s = .next (incCnt u (rEth port.val 0x30))) ∧
        (zctBad u h data = false → vlanOf src.tci ≠ regFld u (rSess h.session.toNat) 54 43 → exec e s = .next (ethDrop u port.val)) ∧
        (∀ v w, zctBad u h data = false → vlanOf src.tci = regFld u (rSess h.session.toNat) 54 43 →
          v = pmc u (202 + port.val) 4 1 (some (sessDom u h.session.toNat)) →
          w = zctAckIn (putSess (regPut v (rSstat h.session.toNat) 60 60 port.val) h.session.toNat
            { sessOf v h.session.toNat with far := src.far.toNat }) h.session.toNat
            h.ack.toNat h.sack.toNat →
          (h.kind = 5 → exec e s = .next (zctSettle w h.session.toNat)) ∧
          (h.kind ≠ 5 → exec e s = .next (zctTake w port.val h.session.toNat
            { kind := h.kind.toNat, fence := h.flags.getLsbD 0, seq := h.seq.toNat, ref := h.lines.toNat, reason := port.val,
              addr := h.addr.toNat, data := data })))) ∧
    (∀ session : Fin 256,
      (zctLive s session.val = false → exec (.zctAckTimer session) s = .next s) ∧
      (zctLive s session.val = true → (sessOf (zctSettle s session.val) session.val).unacked ≠ 0 →
        exec (.zctAckTimer session) s = .next (zctSendAck (zctSettle s session.val) session.val)) ∧
      (∀ (seq : BitVec 32) b, (sessOf s session.val).out.find? (fun b => b.seq == seq.toNat) = some b → b.fence = false →
        exec (.zctResendTimeout session seq) s = .next (zctResend s session.val seq.toNat) ∧
        (16 ≤ b.resends → exec (.zctResendTimeout session seq) s = .next (zctLost s session.val))))

/-- A management request that is next in order while none is held: CAP_READ answers the capability registers, REG_READ the registers
it names, REG_WRITE the refusals of its writes, COMPOSE, QUOTE and IMAGE what they say, SET_ADDR takes a signed address and refuses an
unsigned one, and HEARTBEAT has no answer; held requests that are next then follow, and what was received is acknowledged. The form of
replies is the model's (log entry 24). Its conclusions give the next state: under the conditions named, capRead, regRead, regWrite,
mgmtCompose, quote, image, heartbeat and setAddr each complete. -/
def Obligations.ManagementServesInOrder : Prop :=
  ∀ (s : State) (src : MgmtFrom) (seq : BitVec 32) (u : State), MgmtNext s src seq → u = mgmtTaken s src →
    exec (.capRead src seq) s = .next (mgmtAckOut (mgmtDrain (mgmtReply u seq.toNat 0 ((List.range 15).map (fun i => regView u (8 * i)))) 16)) ∧
    (∀ offs, offs.length ≤ 128 →
      exec (.regRead src seq offs) s = .next (mgmtAckOut (mgmtDrain (mgmtReply (mgmtReads u offs).2 seq.toNat 0 (mgmtReads u offs).1) 16))) ∧
    (∀ pairs, pairs.length ≤ 64 → exec (.regWrite src seq pairs) s = .next (mgmtAckOut (mgmtDrain (mgmtReply (mgmtWrites u pairs).2 seq.toNat
      (if (mgmtWrites u pairs).1.contains 1 then refusedAccess else 0) (mgmtWrites u pairs).1) 16))) ∧
    (∀ off total data, exec (.mgmtCompose src seq off total data) s = .next (mgmtAckOut (mgmtDrain (mgmtCompose u seq.toNat off.toNat total.toNat data) 16))) ∧
    (∀ (vnonce : BitVec 256) (filter : BitVec 16) cert, exec (.quote src seq vnonce filter cert true) s =
      .next (mgmtAckOut (mgmtDrain (mgmtQuote u seq.toNat vnonce filter.toNat cert true) 16))) ∧
    (∀ (off : BitVec 64) (total rsv : BitVec 32) data, rsv ≠ 0 → exec (.image src seq off total rsv data) s =
      .next (mgmtAckOut (mgmtDrain (mgmtReply u seq.toNat refusedFormat []) 16))) ∧
    (∀ (off : BitVec 64) (total : BitVec 32) data v, data.length ≤ 1392 → imagePart u src.port.val off.toNat total.toNat data = (none, false, v) →
      exec (.image src seq off total 0 data) s = .next (mgmtAckOut (mgmtDrain (mgmtReply v seq.toNat 0 []) 16))) ∧
    exec (.heartbeat src seq) s = .next (mgmtAckOut (mgmtDrain u 16)) ∧
    (∀ (target : Fin 2) (addr : BitVec 128),
      exec (.setAddr src seq target addr false) s = .next (mgmtAckOut (mgmtDrain (mgmtReply u seq.toNat refusedSign []) 16)) ∧
      exec (.setAddr src seq target addr true) s =
        .next (mgmtAckOut (mgmtDrain (mgmtReply { u with mgmtAddr := Sparse.set u.mgmtAddr target.val 0 addr.toNat } seq.toNat 0 []) 16)))

/-- While the standby domain is up: the heartbeat timer counts an interval on both ports and sends on those that are up; an
acknowledgement frees the messages before it, a report's log entry with it, those that waited for the window of 16 go out on the port
that last received a valid block, and one behind a message that its SACK newly covers is sent again; a resend timeout sends the message again, on the other port and with the failover flagged when that port is up, else on its own; a port
that goes down is marked, flagged and logged, one that comes up is marked UP. With the standby domain down none of these changes
anything. Its conclusions give the next state: under the conditions named, heartbeatTimer, mgmtAck, mgmtResendTimeout, mgmtLinkDown
and mgmtLinkUp each complete. -/
def Obligations.ManagementLinksAndTimers : Prop :=
  ∀ s : State,
    (s.stbyUp = true →
      exec .heartbeatTimer s = .next (heartbeatOut (heartbeatOut s 0) 1) ∧
      (∀ (src : MgmtFrom) (ack : BitVec 32) u, u = mgmtHeard s src →
        (mgmtTakes s src = false → exec (.mgmtAck src ack) s = .next s) ∧
        (mgmtTakes s src = true → (∀ m ∈ s.mgmtOut, seqLt m.msg ack.toNat = false) → s.mgmtOut.length ≤ 16 →
          (src.sack = 0 → exec (.mgmtAck src ack) s = .next u) ∧
          (∀ covered late, covered = (fun (m : MgmtOut) => decide ((m.msg + 2 ^ 32 - ack.toNat - 1) % 2 ^ 32 < 64)
              && src.sack.toNat.testBit ((m.msg + 2 ^ 32 - ack.toNat - 1) % 2 ^ 32)) →
            late = s.mgmtOut.filter (fun m => !covered m && !m.covered && (s.mgmtOut.filter (fun m => covered m && !m.covered)).any (fun c => seqLt m.msg c.msg)) →
            exec (.mgmtAck src ack) s = .next (forEach late { u with
              mgmtOut := s.mgmtOut.map (fun m => { m with covered := m.covered || covered m }) } mgmtEmit))) ∧
        (∀ gone left v, mgmtTakes s src = true → src.sack = 0 → s.mgmtOut = gone ++ left → (∀ m ∈ gone, seqLt m.msg ack.toNat = true) →
          (∀ m ∈ left, seqLt m.msg ack.toNat = false) → v = forEach gone { u with mgmtOut := left } ackFault →
          exec (.mgmtAck src ack) s = .next (forEach ((left.take 16).drop (16 - gone.length)) v (fun t m =>
            mgmtEmit { t with mgmtOut := t.mgmtOut.map (fun x => if x.msg = m.msg then { m with port := v.mgmtPort } else x) }
              { m with port := v.mgmtPort })))) ∧
      (∀ (msg : BitVec 32) m, (s.mgmtOut.take 16).find? (fun m => m.msg == msg.toNat && !m.covered) = some m → mgmtUp s (1 - m.port) = 0 →
        (∀ x ∈ s.mgmtOut, x.msg = m.msg → x = m) → exec (.mgmtResendTimeout msg) s = .next (mgmtEmit s m)) ∧
      (∀ (msg : BitVec 32) m, (s.mgmtOut.take 16).find? (fun m => m.msg == msg.toNat && !m.covered) = some m → mgmtUp s (1 - m.port) ≠ 0 →
        exec (.mgmtResendTimeout msg) s = .next (mgmtEmit { setBit s rMgmtErr 2 with
          mgmtOut := s.mgmtOut.map (fun x => if x.msg = m.msg then { m with port := 1 - m.port } else x) } { m with port := 1 - m.port })) ∧
      (∀ port : Fin 2,
        (mgmtUp s port.val ≠ 0 → exec (.mgmtLinkDown port) s = .next (logErr (setBit (regPut s rMgmtStat (2 * port.val + 3) (2 * port.val + 2) 0)
          rMgmtErr port.val) { cls := 5, code := port.val, kind := 15, d0 := 1 })) ∧
        (mgmtUp s port.val = 0 → exec (.mgmtLinkUp port) s = .next (regPut { s with mgmtIdle := Sparse.set s.mgmtIdle port.val 0 0 } rMgmtStat
          (2 * port.val + 3) (2 * port.val + 2) 1)))) ∧
    (s.stbyUp = false → exec .heartbeatTimer s = .next s ∧ (∀ src ack, exec (.mgmtAck src ack) s = .next s) ∧
      (∀ msg, exec (.mgmtResendTimeout msg) s = .next s) ∧ (∀ port, exec (.mgmtLinkDown port) s = .next s ∧ exec (.mgmtLinkUp port) s = .next s))

/-! ## Recovery -/

/-- While RUNNING: a Lathe, walker or gouge reset, a home agent's warm reset and its cold one while no COHERENT region is valid, and a
medium channel's reset each collect the dump, log the reset, reset the unit and return it to service or take it out; a unit out of
service is left alone; a cold reset with a COHERENT region escalates to a whole-device reset; a background restoration restores the
oldest piece of its home; a switch core reset while nothing runs empties the switch, takes every port down and trains the bound ports
again. Its conclusions give the next state: under the conditions named, latheReset, switchCoreReset, homeWarmReset, homeColdReset,
backgroundRestore, mediumChannelReset, engineReset, wholeDeviceReset, stackTrainingLoss and controlCoreUe each complete. -/
def Obligations.EnginesAndDevicesReset : Prop :=
  ∀ s : State, running s = true →
    (∀ l : Fin 128, (inService s 1 l.val = true → exec (.latheReset l) s = .next (closeReset (resetLathe (openReset s 1 l.val false) l.val) 1 l.val)) ∧
      (inService s 1 l.val = false → exec (.latheReset l) s = .next s)) ∧
    (∀ e : Fin 48,
      (e.val < 32 → inService s 2 e.val = true →
        exec (.engineReset e) s = .next (closeReset (resetWalker (openReset s 2 e.val false) e.val) 2 e.val)) ∧
      (32 ≤ e.val → inService s 4 (e.val - 32) = true →
        exec (.engineReset e) s = .next (closeReset (resetGouge (openReset s 4 (e.val - 32) false) (e.val - 32)) 4 (e.val - 32)))) ∧
    (∀ h : Fin 8, (inService s 6 h.val = false → exec (.homeWarmReset h) s = .next s ∧ exec (.homeColdReset h) s = .next s) ∧
      (inService s 6 h.val = true →
        (∀ u, u = dropFilter (flushHome (forEach (s.store.filter (fun e => homeOf (e.line * 64) == h.val)) (openReset s 6 h.val false) storeEvict) h.val) h.val →
          (openReset s 6 h.val false).store = s.store → (homeWins h.val).filter (fun w => winState u w == 4) = [] →
          exec (.homeWarmReset h) s = .next (closeReset (setBit (portFlush (settleAll u) (18 + h.val)) (rStk h.val 0) 5) 6 h.val)) ∧
        ((validRegions s).any (rgCoherent s) = false → exec (.homeColdReset h) s =
          .next (openWindows (closeReset (setBit (portFlush (coldHome (openReset s 6 h.val true) h.val) (18 + h.val)) (rStk h.val 0) 6) 6 h.val)
            h.val)) ∧
        ((validRegions s).any (rgCoherent s) = true → exec (.homeColdReset h) s =
          .next (wholeReset (recovEvent s 1 1 { cls := 8, code := 1, kind := 6, unit := h.val, action := 10, esc := 1 }) 1)))) ∧
    (∀ (h : Fin 8) p, s.toRestore.find? (fun p => p.1 / 4096 % 8 == h.val) = some p →
      exec (.backgroundRestore h) s = .next (serveUnit (restored s p.1 p.2) (p.1 / 65536))) ∧
    (∀ (c : Fin 32) trains u n, inService s 8 c.val = true → u = openReset s 8 c.val false → n = regFld u (rMedCh c.val 0) 15 12 →
      (∀ r, trainRate (Sparse.get u.chanRates c.val []) trains = some r → exec (.mediumChannelReset c trains) s =
        .next (logStep (startReads (degradeQuads (closeReset (regPut (bringUp u c.val n r) (rMedCh c.val 0) 31 16 r) 8 c.val))))) ∧
      (trainRate (Sparse.get u.chanRates c.val []) trains = none → exec (.mediumChannelReset c trains) s =
        .next (logStep (startReads (degradeQuads (closeReset (markService (medEvent (bringUp u c.val n 0) c.val 2 0 0) 8 c.val false) 8 c.val)))))) ∧
    (∀ u v, recovOf s 11 0 = none → u = openReset s 11 0 false → runningWins u = [] → v = forEach (List.range 42) u takeDown →
      exec (.switchCoreReset false) s = .next (closeReset (forEach (List.range 16)
        (regPut (regSet { v with cells := [], swOut := [], swIn := [], swTurn := [], swInTurn := [], swSpent := [], swCycles := 0, mirCnt := 0 } (rSw 0x20) 0) (rSw 8) 27 12 0)
        (fun s p => if fabKind s p = 0 then s else setFabState (putLink s p {}) p 1)) 11 0)) ∧
    exec .wholeDeviceReset s = .next (wholeReset s 0) ∧
    exec .controlCoreUe s = .next (wholeReset (recovEvent s 11 11 { cls := 8, code := 11, action := 10 }) 0) ∧
    (∀ h : Fin 8, exec (.stackTrainingLoss h) s = .next (stkCalls s h.val 2 true))

/-- After a whole-device reset no kernel, transaction, session, window record, region version or cell is left, the power state is
STANDBY with the stacks held, BOOT_STAT reads HEADSTOCK, memory keeps exactly the bytes that lie on the medium or the NOR, and the
fuses, straps, decisions, locators and dump slots of before are there. -/
def Obligations.WholeResetEmptiesTheFastDomains : Prop :=
  ∀ s : State, running s = true → ∃ t, exec .wholeDeviceReset s = .next t ∧
    t.kernels = [] ∧ t.trk = [] ∧ t.retry = [] ∧ t.sess = [] ∧ t.wins = [] ∧ t.versions = [] ∧ t.cells = [] ∧ t.counters = [] ∧ t.areas = [] ∧
    regFld t (rPwr 8) 2 0 = 2 ∧ regFld t (rBoot 0) 3 0 = 0 ∧
    (∀ a, onMedium s a = true → Mem.read t.mem a = Mem.read s.mem a) ∧ (∀ a, onMedium s a = false → Mem.read t.mem a = 0) ∧
    t.owner = s.owner ∧ t.production = s.production ∧ t.tsEn = s.tsEn ∧ t.decisions = s.decisions ∧ t.locs = s.locs ∧ t.pending = s.pending

/-- While RUNNING: recovery of an aborted kernel that is neither frozen nor guilty nor a suspect that awaits its replay, of a domain
without a composition, resets its context and completes it; a kernel without a fault is left alone; a replay starts only for the
suspect whose turn it is; with FROZEN_MS 0 a frozen kernel stays, else it is released; a sweep of a tether entry not in use changes
nothing, and one in use goes through the records of its region: a record seen for the first time is remembered, one that a holder left
as it was is orphaned, and at the last epoch the sweep's write is refused; ORPH_ACK frees at most the held entries and clears OVERFLOW; DUMP_RELEASE clears UNREAD of its slot, and
ERR_ACK frees at most the held entries; a reset past its deadline in a domain being handled is a further error there, and elsewhere
nothing. Its conclusions give the next state: under the conditions named, errAck, kernelContextRecovery, resetDeadline, replayStart,
frozenTimeout, tetherSweep, orphAck and dumpRelease each complete. -/
def Obligations.KernelsRecoverAndReplay : Prop :=
  ∀ s : State,
    (running s = true →
      (∀ (w : Fin 1024) k f, kernelOf s w.val = some k → k.fault = some f → k.frozen = false → k.guilty = false → k.suspect = false → k.told = true →
        exec (.kernelContextRecovery w) s = .next (releaseKernel (endRecov (resetContext s k) 16 w.val) w.val)) ∧
      (∀ (w : Fin 1024) k, kernelOf s w.val = some k → k.fault = none → exec (.kernelContextRecovery w) s = .next s) ∧
      (∀ w : Fin 1024, s.hangs = [] → exec (.replayStart w) s = .next s) ∧
      (∀ (w : Fin 1024) k h cs ks, kernelOf s w.val = some k → s.hangs.find? (fun h => (replayOrder s h).head? == some w.val) = some h →
        k.suspect = true → k.guilty = false → k.fault ≠ none → k.replays = 0 → (k.lathes.all (fun l => latheState s l == 0)) = true →
        k.ctxs.any (ctxUsed s) = false → k.kites.any (kiteUsed s) = false →
        replace s 8 288 h.eng ((List.range 16).filter (fun g => decide (regFld s (rGouge g 0) 3 0 < 3)))
          ((List.range 128).filter (ctxUsed s)) k.ctxs = some cs →
        replace s 128 256 h.eng ((List.range 32).filter (fun x => decide (regFld s (rWalker x 0) 3 0 < 3)))
          (if k.kites = [] then [] else (List.range 4096).filter (kiteUsed s)) k.kites = some ks → ∃ k',
        k' = { k with ctxs := cs, kites := ks, replays := 1, told := false } ∧
          exec (.replayStart w) s = .next (fireAtStart (launch (incCnt (putKernel s k') (rRecov 0x50)) k' true) k')) ∧
      (∀ w : Fin 1024, (regFld s (rRecov 0) 47 32 = 0 → exec (.frozenTimeout w) s = .next s) ∧
        (regFld s (rRecov 0) 47 32 ≠ 0 → exec (.frozenTimeout w) s = .next (releaseGuilty s w.val))) ∧
      (∀ t : Fin 16, regBit s (rTether t.val) 63 = false → exec (.tetherSweep t) s = .next s) ∧
      (∀ (t : Fin 16) r lines, regBit s (rTether t.val) 63 = true → r = regFld s (rTether t.val) 49 36 → rgValid s r = true →
        lines = ((s.mem.filter (fun (c : Host.Cell) => decide (rgBase s r ≤ c.1) && decide (c.1 < rgBase s r + rgSize s r))).map
            (fun (c : Host.Cell) => c.1 / 64 * 64)
          ++ (s.store.filter (fun (e : StoreEnt) => decide (rgBase s r ≤ e.line * 64) && decide (e.line * 64 < rgBase s r + rgSize s r))).map
            (fun (e : StoreEnt) => e.line * 64)).dedup →
        exec (.tetherSweep t) s = .next (forEach lines s (fun s off => sweepRecord s r off))) ∧
      (∀ r off d epoch, d = curLine s off → epoch = lineFld d 0 6 → isPoisoned s off = false →
        (s.tetherSeen.contains (off, epoch * 2 ^ 32 + lineFld d 8 4) = false →
          sweepRecord s r off = { s with tetherSeen := Sparse.set s.tetherSeen off 0 (epoch * 2 ^ 32 + lineFld d 8 4) }) ∧
        (s.tetherSeen.contains (off, epoch * 2 ^ 32 + lineFld d 8 4) = true → epoch + 1 = 2 ^ 48 → lineFld d 6 2 ≠ 0xFFFF → lineFld d 26 1 % 4 = 0 →
          sweepRecord s r off = tetherRefuse s 0 (globalAddr s off)) ∧
        (s.tetherSeen.contains (off, epoch * 2 ^ 32 + lineFld d 8 4) = true → epoch ≠ 0 → epoch + 1 < 2 ^ 48 → lineFld d 6 2 ≠ 0xFFFF →
          lineFld d 26 1 % 4 = 0 → ∃ u v, u = putStack s off (BitVec.ofNat 512
            (d.toNat - epoch - lineFld d 6 2 * 2 ^ 48 + (epoch + 1) + 0xFFFF * 2 ^ 48 + 2 ^ 208)) ∧
            v = { u with tetherSeen := Sparse.set u.tetherSeen off 0 ((epoch + 1) * 2 ^ 32 + lineFld d 8 4) } ∧
            sweepRecord s r off = recovEvent (listOrphan v r ((off - rgBase s r) / 64) (epoch + 1) (lineFld d 6 2)) 9 9
              { cls := 9, code := 2, dom := lineFld d 6 2 / 256, addr := globalAddr s off })) ∧
      (∀ n : BitVec 13, ∃ k, k = min n.toNat (regFld s rTetherStat 44 32) ∧ exec (.orphAck n) s =
        .next (clrBit (regPut (regSub s rTetherStat 44 32 k) rTetherStat 31 20 (regFld s rTetherStat 31 20 + k)) rTetherStat 0))) ∧
    (∀ slot : Fin 2, exec (.dumpRelease slot) s = .next (clrBit (regPut s (rRecov 0x110) 31 31 slot.val) (rRecov 0x108) (2 + slot.val))) ∧
    (∀ (c : Fin 12) (n : BitVec 8), exec (.errAck c n) s = .next (errAck s c.val (min n.toNat (regFld s (rErrHead c.val) 63 56)))) ∧
    (∀ (kind : Fin 17) (unit : BitVec 12),
      ((recovOf s kind.val unit.toNat).isNone = true → exec (.resetDeadline kind unit) s = .next s) ∧
      ((recovOf s kind.val unit.toNat).isNone = false → ripHeld s = false →
        exec (.resetDeadline kind unit) s = .next (nestedError s kind.val unit.toNat)))

/-! ## Boot, power, clocks and performance counters -/

/-- Headstock with an answering NOR and a good image in the slot measures it and goes on to RUNNING; with a NOR that does not answer
it records CODE 1, with a bad image the code of the first failed check, and enters recovery boot; it does not run while BOOT_STAT
reads anything but HEADSTOCK. SVN_ADVANCE with every home READY raises MIN_SVN to the image's SVN, and not without the image's flag. A
slot write that ends well boots on in recovery and else returns to RUNNING; one that mismatches first is written again. Its
conclusions give the next state: under the conditions named, slotWriteDone, headstock and svnAdvance each complete. -/
def Obligations.HeadstockBootsOrRecovers : Prop :=
  (∀ (s : State) rails, HeadstockDue s →
    (imageCheck (bootCounted s) slotKey = none → exec (.headstock true true rails) s = .next (bootFinish (bootCounted s) rails)) ∧
    (∀ c, imageCheck (bootCounted s) slotKey = some c →
      exec (.headstock true true rails) s = .next (setBootState (bootLog (bootCounted s) c (bootBit c) 0) 1)) ∧
    exec (.headstock false true rails) s = .next (setBootState (bootLog (bootCounted s) 1 (bootBit 1) 0) 1)) ∧
  (∀ (s : State) spi ident rails, bootState s ≠ 0 → exec (.headstock spi ident rails) s = .next s) ∧
  (∀ s : State, running s = true →
    (s.imgFlags % 2 = 1 → (List.range 8).all (fun h => regBit s (rHome h 0) 0) = true → exec .svnAdvance s =
      .next (regPut s (rBoot 0xB8) 7 0 (max (regFld s (rBoot 0xB8) 7 0) (regFld s (rBoot 0xB8) 39 32)))) ∧
    (s.imgFlags % 2 = 0 → exec .svnAdvance s = .next s)) ∧
  (∀ (s : State) rails k, s.inj = [] → s.imgWrite = some k → ∃ u, u.imgWrite = none ∧
    (k < 16 → exec (.slotWriteDone [] rails) s = .next (setBootState u 2)) ∧
    (16 ≤ k → exec (.slotWriteDone [] rails) s = .next (bootFinish u rails)) ∧
    (∀ n, n < 64 * 2 ^ 10 → Mem.read u.mem (slotKey + n) = Mem.read s.mem (stagedKey + n))) ∧
  (∀ (s : State) bad rails, s.imgWrite = none → exec (.slotWriteDone bad rails) s = .next s)

/-- The always-on domain comes up with its power-good and holds the rest without it; the standby domain comes up with its power-good
when the always-on domain and reference input 0 are there, with the straps sampled, in STANDBY and HEADSTOCK; RESET_N starts a
whole-device reset outside recovery boot, only Headstock in it, and is only recorded under the rip panel; RUN from STANDBY reruns
Headstock and wakes the device, and is refused in recovery boot; STANDBY from RUNNING leaves the stacks held with KEEP_STACKS and off without it, and
where a reset would wake the device it stays in STANDBY; a
rail that does not come up in time while the device wakes, or an unlocked PLL in RUNNING, ends it. -/
def Obligations.PowerDomainsFollowTheBoard : Prop :=
  ∀ s : State,
    exec .aonPgRise s = .next { s with aonUp := true } ∧
    (s.aonUp = true → exec .aonPgFall s = .next (powerLoss s true)) ∧ (s.aonUp = false → exec .aonPgFall s = .next s) ∧
    exec .xtalStart s = .next { s with xtal := s.aonUp || s.xtal } ∧
    (∀ (slot : BitVec 4) hold tsEn, s.aonUp = true → s.stbyUp = false → ∃ t, exec (.stbyPgRise slot hold tsEn true) s = .next t ∧
      t.stbyUp = true ∧ t.tsEn = tsEn ∧ regFld t rAddrSelf 3 0 = slot.toNat ∧ regFld t (rPwr 0) 3 3 = (if hold then 1 else 0) ∧
      regFld t (rPwr 8) 2 0 = 1 ∧ regFld t (rBoot 0) 3 0 = 0 ∧ t.mem = s.mem) ∧
    (s.stbyUp = true → exec .stbyPgFall s = .next (powerLoss s false)) ∧
    (s.stbyUp = true → ∀ held,
      (ripHeld s = true → exec (.resetNPulse held) s = .next (logErr s { cls := 8, code := 0, kind := 15, action := 0 })) ∧
      (ripHeld s = false → bootState s = 1 → exec (.resetNPulse held) s = .next (regPut { s with resetLow := held } (rBoot 0) 3 0 0)) ∧
      (ripHeld s = false → bootState s ≠ 1 → exec (.resetNPulse held) s = .next { wholeReset s 0 with resetLow := held })) ∧
    exec .resetNRise s = .next { s with resetLow := false } ∧
    (∀ u, u = regPut s (rPwr 0) 1 0 0 →
      (u.stbyUp = true → (pwrState u = 1 ∨ pwrState u = 2) →
        (bootState u = 1 → exec .pwrReqRun s = .next (setBit u (rPwr 0x30) 5)) ∧
        (bootState u ≠ 1 → ripHeld u = false → u.hotJ < 95 → exec .pwrReqRun s =
          .next { regPut u (rBoot 0) 3 0 0 with wake := true, stay := false, recovs := [⟨15, 0, 0, []⟩] })) ∧
      (u.stbyUp = true →
        (3 ≤ pwrState u → regBit u (rPwr 0) 2 = true →
          exec .pwrReqStandby s = .next (setPwrState (switchRails (fastReset (tsCut (collectDump u 15 0 10 0))) false true) 2)) ∧
        (3 ≤ pwrState u → regBit u (rPwr 0) 2 = false →
          exec .pwrReqStandby s = .next (stacksOff (switchRails (fastReset (tsCut (collectDump u 15 0 10 0))) false false))) ∧
        (pwrState u < 3 → u.recovs.any (fun r => r.kind == 15) = false → pwrState u ≠ 2 ∨ regBit u (rPwr 0) 2 = true →
          exec .pwrReqStandby s = .next u) ∧
        (pwrState u < 3 → u.recovs.any (fun r => r.kind == 15) = true → pwrState u ≠ 2 ∨ regBit u (rPwr 0) 2 = true →
          exec .pwrReqStandby s = .next { u with recovs := [], wake := false, stay := true })) ∧
      (u.stbyUp = false → exec .pwrReqStandby s = .next u)) ∧
    (∀ rail : Fin 7, (pwrState s = 3 → ∃ u, u = switchRails (pwrEvent s (some 3) 4 0 rail.val) false false ∧
        exec (.railTimeout rail) s = .next (stacksOff { u with clocked := [], ballastQ := [], recovs := [] })) ∧
      (pwrState s ≠ 3 → exec (.railTimeout rail) s = .next s)) ∧
    (∀ which : BitVec 8, 3 ≤ pwrState s → exec (.pllUnlock which) s = .next (errorWhole (pwrEvent s (some 0) 1 10 which.toNat)))

/-- While the standby domain is up: a tick refills the ledger up to DEPTH times 100 and, with nothing queued, only that and the
queue's display change; BALLAST_CFG takes IDLE_US, SLEW and a DEPTH of at least 64; an idle unit's clock is asked to stop while
RUNNING, a busy one's is not; a sample of 115 °C or more with the fast domain on trips, one above the cap or the hot limit with the
arithmetic clock at its floor lowers nothing and above its floor lowers it by 100 MHz, the tenth sample in a row well below both
asks for a step up, and one with the fast domain off only shows; a poll reads each present rail's telemetry. -/
def Obligations.BallastAndTheCapGovernClocks : Prop :=
  ∀ s : State,
    (s.stbyUp = true → s.ballastQ = [] → exec .ballastTick s = .next (showQueue (addCnt (regPut { s with pace := s.pace + 1 } (rPwr 0x20) 15 0
      (min (100 * regFld s (rPwr 0x18) 23 16) (regFld s (rPwr 0x20) 15 0 + regFld s (rPwr 0x18) 15 0))) (rPwr 0x40) 0))) ∧
    (∀ v : BitVec 64, s.stbyUp = true → exec (.ballastCfgWrite v) s = .next (regPut (regPut (regPut s (rPwr 0x18) 47 32 (bits v.toNat 47 32)) (rPwr 0x18) 23 16
      (max 64 (bits v.toNat 23 16))) (rPwr 0x18) 15 0 (bits v.toNat 15 0))) ∧
    (∀ unit : BitVec 16, running s = true →
      (unitIdle s unit.toNat = true → exec (.clockIdleStop unit) s = .next (askStop s unit.toNat 5)) ∧
      (unitIdle s unit.toNat = false → exec (.clockIdleStop unit) s = .next s)) ∧
    (∀ (watts : BitVec 16) (temp : BitVec 8) u, s.stbyUp = true → s.inj = [] →
      u = regPut (regPut { s with hotJ := temp.toNat } (rPwr 8) 63 56 temp.toNat) (rPwr 8) 55 40 watts.toNat →
      (pwrState u < 3 → exec (.powerSample watts temp) s = .next u) ∧
      (3 ≤ pwrState u → 115 ≤ temp.toNat → exec (.powerSample watts temp) s = .next (thermalTrip u)) ∧
      (3 ≤ pwrState u → temp.toNat < 115 → (regFld u (rPwr 0x28) 15 0 < watts.toNat ∨ regFld s (rPwr 0x28) 23 16 ≤ temp.toNat) →
        arithMhz { u with coolRun := 0 } ≤ max 1200 (100 * regFld { u with coolRun := 0 } (rPwr 0x28) 31 24) →
        exec (.powerSample watts temp) s = .next { u with coolRun := 0 }) ∧
      (3 ≤ pwrState u → temp.toNat < 115 → (regFld u (rPwr 0x28) 15 0 < watts.toNat ∨ regFld s (rPwr 0x28) 23 16 ≤ temp.toNat) →
        max 1200 (100 * regFld u (rPwr 0x28) 31 24) < arithMhz u → ∀ n v, drawFree { u with coolRun := 0 } = (n, v) → ∃ x,
          x = pwrEvent (incCnt { v with stepAt := [n] } (rPwr 0x48)) (some 1) 6 0 temp.toNat ∧
          exec (.powerSample watts temp) s = .next (regPut x (rPwr 0x10) 15 0 (arithMhz x - 100))) ∧
      (3 ≤ pwrState u → watts.toNat ≤ regFld u (rPwr 0x28) 15 0 → 100 * watts.toNat < 95 * regFld u (rPwr 0x28) 15 0 →
        temp.toNat + 5 ≤ regFld s (rPwr 0x28) 23 16 → temp.toNat < 115 →
        (u.coolRun + 1 < 10 → exec (.powerSample watts temp) s = .next { u with coolRun := u.coolRun + 1 }) ∧
        (9 ≤ u.coolRun → arithMhz u < 2400 → exec (.powerSample watts temp) s =
          .next (askStart { u with coolRun := 0 } (unitCode 16 0))))) ∧
    (∀ (r : PmbRead), s.stbyUp = true → s.inj = [] → regBit s (rPwr (0x100 + 8 * r.rail.val)) 16 = true → r.ok = true → r.fault = false →
      r.undervolt = false → exec (.pmbusPoll [r]) s = .next (regSet s (rPwr (0x200 + 8 * r.rail.val)) r.telem)) ∧
    (s.stbyUp = true → exec (.pmbusPoll []) s = .next s)

/-- While RUNNING: a freeze sets FREEZE and FROZEN; resuming clears both and adds what the freeze held; a snapshot copies every counter
into its snapshot register and is busy until SNAP_DONE, and a second one meanwhile changes nothing; a write of a counter takes
effect at once; an acknowledgement frees at most the held entries of its ring, and clears DROPPED with the last one. -/
def Obligations.PerformanceCountersAreControlled : Prop :=
  ∀ s : State, running s = true →
    exec .pmuFreeze s = .next (setBit (setBit s (rPmu 0) 0) (rPmu 8) 0) ∧
    (s.pmcHeld = [] → exec .pmuUnfreeze s = .next (clrBit (clrBit s (rPmu 0) 0) (rPmu 8) 0)) ∧
    exec .pmuUnfreeze s = .next (forEach s.pmcHeld { clrBit (clrBit s (rPmu 0) 0) (rPmu 8) 0 with pmcHeld := [] }
      (fun s e => pmcAdd s (e.1 / 16) (e.1 % 16) e.2)) ∧
    (regBit s (rPmu 8) 1 = false → ∃ t, exec .pmuSnap s = .next (setBit t (rPmu 8) 1) ∧ t.mem = s.mem ∧ t.counters = s.counters ∧
      (Canonical s → ∀ off, pmcAt off 0x80 = true →
        Sparse.get t.regs (off + 0x80) 0 = Sparse.get s.regs off 0 ∧ Sparse.get t.regs off 0 = Sparse.get s.regs off 0)) ∧
    (regBit s (rPmu 8) 1 = true → exec .pmuSnap s = .next s ∧ exec .snapDone s = .next (clrBit (regAdd s (rPmu 8) 47 16 1) (rPmu 8) 1)) ∧
    (regBit s (rPmu 8) 1 = false → exec .snapDone s = .next s) ∧
    (∀ (block : Fin 207) (i : Fin 16) (v : BitVec 64), (regRow (rPmc block.val (0x80 + 8 * i.val))).isSome = true →
      exec (.pmcCntWrite block i v) s = .next (regPut s (rPmc block.val (0x80 + 8 * i.val)) 47 0 v.toNat)) ∧
    (∀ n : BitVec 13, exec (.tagAck n) s = .next (ringAck s (rPmu 0x18) n.toNat) ∧ exec (.mirAck n) s = .next (ringAck s (rPmu 0x28) n.toNat)) ∧
    (∀ st n, n < regFld s st 28 16 → ringAck s st n = regPut (regPut s st 28 16 (regFld s st 28 16 - n)) st 11 0 (regFld s st 11 0 + n)) ∧
    (∀ st n, regFld s st 28 16 ≤ n → ringAck s st n =
      regPut (regPut (regPut s st 28 16 0) st 11 0 (regFld s st 11 0 + regFld s st 28 16)) st 55 32 0)

/-! ## Tailstock and test access -/

/-- In an open session of an available Tailstock: stat, rd, wr, log, ack, dump and inj print what they read or whether they were
refused; mrd and mwr make their line accesses, and the answers that are awaited end them; recover resets the device, and recover
boot forces recovery; load is refused while a slot write runs, and else its image is checked and, when good, written; enrol writes
the key's digest into an empty slot with the strap on, and is refused without the strap or for an enrolled slot. A line starts a
session with a BOOT entry when none is open, the strap's fall ends it, and an unavailable Tailstock does nothing. The output's form
is the model's (log entry 25). -/
def Obligations.TailstockAnswers : Prop :=
  ∀ s : State,
    (tsAvail s = true → s.tsOpen = true →
      exec .tsStat s = .next (tsText s 0 0 [(reg s (rBoot 0)).toNat, (regView s (rPwr 8)).toNat, (regView s (rRecov 8)).toNat,
        (reg s (rRecov 0x10)).toNat, boolNat s.tsEn, boolNat s.production]) ∧
      (∀ off : BitVec 64,
        (2 ^ 28 ≤ off.toNat → exec (.tsRd off) s = .next (tsText s 1 tsAddr [])) ∧
        (off.toNat < 2 ^ 28 → exec (.tsRd off) s = .next (tsText (mgmtRead s off.toNat).2 1 0 [(mgmtRead s off.toNat).1.toNat])) ∧
        (∀ v, exec (.tsWr off v) s = .next (tsText (mgmtWrite s off.toNat v).2 2 (if (mgmtWrite s off.toNat v).1 then tsAccess else 0) []))) ∧
      (∀ addr : BitVec 60, running s = true → addr.toNat % 64 = 0 → s.tsWait = none →
        (tsAwaits s addr.toNat = true →
          exec (.tsMrd addr 1) s = .next (lineAccess .rdnc .mgmt 4032 addr.toNat 0 0 (ownCtrl s) { s with tsWait := some (3, [4032], 0) }) ∧
          (∀ data, exec (.tsMwr addr data) s =
            .next (lineAccess .wrline .mgmt 4032 addr.toNat data allBytes (ownCtrl s) { s with tsWait := some (4, [4032], 0) }))) ∧
        (tsAwaits s addr.toNat = false →
          exec (.tsMrd addr 1) s = .next (tsText (lineAccess .rdnc .mgmt 4032 addr.toNat 0 0 (ownCtrl s) s) 3 0 []) ∧
          (∀ data, exec (.tsMwr addr data) s =
            .next (tsText (lineAccess .wrline .mgmt 4032 addr.toNat data allBytes (ownCtrl s) s) 4 0 [])))) ∧
      (∀ cmd due err m, m.op ≠ 0x24 → m.dst = .mgmt → s.tsWait = some (cmd, due, err) → due.contains m.txn = true →
        answer s m = tsAnswer s cmd due err m) ∧
      (∀ (addr : BitVec 60) lines data, running s = false →
        exec (.tsMrd addr lines) s = .next (tsText s 3 tsAddr []) ∧ exec (.tsMwr addr data) s = .next (tsText s 4 tsAddr [])) ∧
      (∀ (c : Fin 12) (n : BitVec 8),
        (regFld s (rErrHead c.val) 63 56 = 0 → exec (.tsLog c) s = .next (tsText s 5 0 [(reg s (rErrOvf c.val)).toNat])) ∧
        exec (.tsLog c) s = .next (tsText s 5 0 ((List.range (regFld s (rErrHead c.val) 63 56)).flatMap (fun i => (List.range 8).map (fun j =>
          (reg s (rErrLog c.val ((regFld s (rErrHead c.val) 55 48 + i) % 64) + 8 * j)).toNat)) ++ [(reg s (rErrOvf c.val)).toNat])) ∧
        exec (.tsAck c n) s = .next (tsText (errAck s c.val (min n.toNat (regFld s (rErrHead c.val) 63 56))) 6 0 [])) ∧
      (∀ (slot : Fin 2) (off : BitVec 64) (lines : BitVec 16),
        (off.toNat % 64 ≠ 0 → exec (.tsDump slot off lines) s = .next (tsText s 7 tsAddr [])) ∧
        (off.toNat % 64 = 0 → off.toNat + 64 * lines.toNat ≤ 838860800 →
          (s.dumps = [] → exec (.tsDump slot off lines) s = .next (tsText s 7 0 (List.replicate (8 * lines.toNat) 0))) ∧
          (∀ e, s.dumps.find? (fun e => e.1 == slot.val) = some e → exec (.tsDump slot off lines) s = .next (tsText s 7 0
            ((List.range (8 * lines.toNat)).map (fun i => (Config.dumpWord e.2.tag (off.toNat + 8 * i)).toNat)))))) ∧
      (∀ (off : BitVec 64) (kind : BitVec 4) (arg : BitVec 24), off.toNat % 8 = 0 → regUp s off.toNat = true →
        (∀ t, writeInj s off.toNat (kind.toNat + 256 * arg.toNat) = some t → exec (.tsInj off kind arg) s = .next (tsText t 8 0 [])) ∧
        (writeInj s off.toNat (kind.toNat + 256 * arg.toNat) = none → exec (.tsInj off kind arg) s = .next (tsText s 8 tsAccess []))) ∧
      exec .tsRecoverReset s = .next (wholeReset (tsText s 9 0 []) 0) ∧
      exec .tsRecoverBoot s = .next (wholeReset { tsText s 10 0 [] with forceRecovery := true } 0) ∧
      (∀ image k, s.imgWrite = some k → exec (.tsLoad image) s = .next (tsText s 11 tsBusy [])) ∧
      (∀ image u, s.imgWrite = none → bootState s ≠ 0 → image.length ≤ 25165824 →
        u = { (imagePart { s with imgRx := ⟨0, []⟩ } 2 0 image.length image).2.2 with imgRx := ⟨0, []⟩ } →
        (∀ c, imageCheck u stagedKey = some c → exec (.tsLoad image) s =
          .next (tsText (zeroMem (bootLog u c (bootBit c) 0) stagedKey 25165824) 11 (tsCode c) [])) ∧
        (imageCheck u stagedKey = none → exec (.tsLoad image) s = .next (tsText (beginSlotWrite u (bootState u == 1)) 11 0 []))) ∧
      (∀ (slot : Fin 4) key, key.length = 1793 →
        (s.tsEn = false → exec (.tsEnrol slot key) s = .next (tsText s 12 tsStrap [])) ∧
        (s.tsEn = true → regBit s (rBoot 0xB0) slot.val = true → exec (.tsEnrol slot key) s = .next (tsText s 12 tsEnrolled [])) ∧
        (s.tsEn = true → regBit s (rBoot 0xB0) slot.val = false → bootState s ≠ 1 → exec (.tsEnrol slot key) s = .next (tsText (bootLog
          (setBit { s with owner := Sparse.set s.owner slot.val 0 (Config.shake256 key) } (rBoot 0xB0) slot.val) 11 none slot.val) 12 0 []))) ∧
      exec (.tsSessionStart s.tsEn) s = .next s) ∧
    (∀ en, tsAvail { s with tsEn := en } = true → s.tsOpen = false →
      exec (.tsSessionStart en) s = .next (bootLog { s with tsEn := en, tsOpen := true } 10 none 0)) ∧
    exec .tsEnFall s = .next { s with tsEn := false, tsOpen := false, tsWait := none } ∧
    (tsAvail s = false → exec .tsStat s = .next s ∧ exec .tsRecoverReset s = .next s)

/-- While the standby domain is up: IDCODE shifts out 0x2748056B, least significant bit first; SAMPLE/PRELOAD captures the balls
and latches; EXTEST with the fast domain off also drives the latches, and with it on only bypasses, as CLAMP, HIGHZ and BYPASS
do; each loads its opcode into the instruction register. With the standby domain down none does anything. -/
def Obligations.TestAccessPortShifts : Prop :=
  ∀ (s : State) (pins : List Bool) (vals : List (Fin 22 × Bool)),
    (s.stbyUp = true →
      exec .idcode s = .next (send { s with jtag := 2 } (.tdo [true, true, false, true, false, true, true, false, true, false, true, false,
        false, false, false, false, false, false, false, true, false, false, true, false, true, true, true, false, false, true, false, false])) ∧
      exec (.samplePreload pins vals) s = .next (tapLatch (send { s with jtag := 1 } (.tdo (pins.take 22))) vals) ∧
      (fastOff s = true →
        exec (.extest pins vals) s = .next (tapDrive (tapLatch (send { s with jtag := 0 } (.tdo (pins.take 22))) vals)) ∧
        exec .clamp s = .next (tapBypass (tapDrive { s with jtag := 4 }))) ∧
      (fastOff s = false → exec (.extest pins vals) s = .next (tapBypass { s with jtag := 0 }) ∧
        exec .clamp s = .next (tapBypass { s with jtag := 4 })) ∧
      exec .highz s = .next (tapBypass { s with jtag := 5 }) ∧
      (∀ opcode : BitVec 8, opcode.toNat ∉ [0, 1, 2, 4, 5] → exec (.bypass opcode) s = .next (tapBypass { s with jtag := opcode.toNat }))) ∧
    (s.stbyUp = false → exec .idcode s = .next s ∧ exec (.extest pins vals) s = .next s ∧ exec (.samplePreload pins vals) s = .next s ∧
      exec .clamp s = .next s ∧ exec .highz s = .next s ∧ ∀ opcode, exec (.bypass opcode) s = .next s)

/-! ## Rules stated whole -/

/-- The canonical NaN is 0x7FC00000 in FP32, 0x7FC0 in BF16, 0x7E00 in FP16, 0x7F in E4M3 and 0x7E in E5M2. Every lane operation,
vector function, tensor sum, random number, conversion to a narrower format and conversion from one that gives a NaN gives exactly
that pattern, whatever the sign and the payload of a NaN it read. (vabs, vneg, vsel, vbcast, vext and vrotl move bits and produce no
NaN of their own, R331; the integer formats have none.) -/
def Obligations.NanResultsAreCanonical : Prop :=
  [fp32, bf16, fp16, e4m3, e5m2].map fNan = [0x7FC00000, 0x7FC0, 0x7E00, 0x7F, 0x7E] ∧
  (∀ f ∈ [fadd, fsub, fmul, fmax, fmin], ∀ a b, f32 (f a b) = .nan → f a b = 0x7FC00000) ∧
  (∀ a b c, f32 (ffma a b c) = .nan → ffma a b c = 0x7FC00000) ∧
  (∀ f ∈ [fexp, flog, frcp, frsqrt, ftanh, fsigm, fsin, fcos], ∀ a, f32 (f a) = .nan → f a = 0x7FC00000) ∧
  (∀ op blocks start a sa b sb r c, 0 < blocks →
    f32 (tmmaElem op blocks start a sa b sb r c) = .nan → tmmaElem op blocks start a sa b sb r c = 0x7FC00000) ∧
  (∀ c b, f32 (toF32 (elemVal c b)) = .nan → toF32 (elemVal c b) = 0x7FC00000) ∧
  (∀ p ∈ [(1, 0x7FC00000), (2, 0x7FC0), (3, 0x7E00), (4, 0x7F), (5, 0x7E)], ∀ v, elemVal p.1 (toElem p.1 v) = .nan → toElem p.1 v = p.2)

/-- For a Lathe that issues, when no register it names awaits a tread: vscan stages lanes r with r(0) = a(0) and r(i) = r(i-1) + a(i),
rounded, for i from 1 to 255; vargmax stages the lowest lane m of the highest rank, where a NaN ranks above every number, +0 above -0,
and a smaller number below a larger; vfirst stages the lowest lane that is at least lane 0 of its second operand, 256 with none, and a
NaN on either side never satisfies it. -/
def Obligations.ScansAndSearchesOfLanes : Prop :=
  (∀ (s : State) (l : Fin 128) (last : Bool) (vd va vb sd : BitVec 5), SlotReady s l →
    [vd, va, vb].any (vPending (latheAt s l.val)) = false → ∀ a, a = lanes (vGet (latheAt s l.val) va) →
    (∃ r, exec (.vscan l vd va last) s = .next (slotEnd (stage s l.val (.vreg vd.toNat (ofLanes r))) l 3 last) ∧ r.length = 256 ∧
      r[0]? = a[0]? ∧ ∀ i, i < 255 → r[i + 1]? = some (fadd ((r[i]?).getD 0) ((a[i + 1]?).getD 0))) ∧
    (∃ m, m < 256 ∧ exec (.vargmax l sd va last) s = .next (slotEnd (stage s l.val (.sreg sd.toNat (BitVec.ofNat 64 m))) l 3 last) ∧
      (∀ j, j < 256 → argRank ((a[j]?).getD 0) ≤ argRank ((a[m]?).getD 0)) ∧
      (∀ j, j < m → argRank ((a[j]?).getD 0) < argRank ((a[m]?).getD 0))) ∧
    (∃ m, m ≤ 256 ∧ exec (.vfirst l sd va vb last) s = .next (slotEnd (stage s l.val (.sreg sd.toNat (BitVec.ofNat 64 m))) l 3 last) ∧
      (∀ j, j < m → fle (lane (vGet (latheAt s l.val) vb) 0) ((a[j]?).getD 0) = false) ∧
      (m < 256 → fle (lane (vGet (latheAt s l.val) vb) 0) ((a[m]?).getD 0) = true))) ∧
  (∀ x y, isNan32 x = true → isNan32 y = false → argRank y < argRank x) ∧
  argRank 0x80000000 < argRank 0 ∧
  (∀ x y, flt x y = true → argRank x < argRank y) ∧
  (∀ x y, (isNan32 x = true ∨ isNan32 y = true) → fle x y = false)

/-- Arming a counted area sets its counter to zero, marks every line of it not arrived and changes no byte of memory. A counted write
to a line of an armed area stores the line's bytes and no other byte; at a line not yet arrived it also marks it arrived and advances
the area's counter by one, and at a line already arrived the counters and the marks stay as they were. The window areas of R359 do the
same. No other counter changes. -/
def Obligations.CountedAreasCountFirstArrivals : Prop :=
  (∀ (s : State) (a : Area), a ∈ s.areas → (∀ b ∈ s.areas, b.base = a.base → b = a) →
    (counter (armArea s a) a.counter = 0 ∧ (∀ k, k ≠ a.counter → counter (armArea s a) k = counter s k) ∧ (armArea s a).mem = s.mem ∧
      (∀ b ∈ (armArea s a).areas, b.base = a.base → b.arrived = [] ∧ b.armed = true)) ∧
    (∀ (n dom : Nat) (d : LineData), a.armed = true → n < a.lines → ∀ t, t = countedWrite s a (a.base + 64 * n) dom d →
      Mem.line t.mem (a.base + 64 * n) = d ∧
      (∀ x, x < a.base + 64 * n ∨ a.base + 64 * n + 64 ≤ x → Mem.read t.mem x = Mem.read s.mem x) ∧
      (a.arrived.contains n = false → counter t a.counter = counter s a.counter + 1 ∧
        (∀ k, k ≠ a.counter → counter t k = counter s k) ∧
        (∀ b ∈ t.areas, b.base = a.base → ∀ i, i ∈ b.arrived ↔ i = n ∨ i ∈ a.arrived)) ∧
      (a.arrived.contains n = true → t.counters = s.counters ∧ t.areas = s.areas))) ∧
  (∀ (s : State) (w : Nat), counter (armWindow s w) (winCtr w) = 0 ∧ (∀ k, k ≠ winCtr w → counter (armWindow s w) k = counter s k) ∧
    (armWindow s w).mem = s.mem ∧ (winOf (armWindow s w) w).arrived = []) ∧
  (∀ (s : State) (w x dom : Nat) (d : LineData) (t : State), mailbox s w = true → windowWrite s w x dom d = (false, t) →
    Mem.line t.mem (winOff w (x / 64 * 64)) = d ∧
    ((winOf s w).arrived.contains (x / 64) = true → t.counters = s.counters ∧ t.wins = s.wins) ∧
    ((winOf s w).arrived.contains (x / 64) = false → counter t (winCtr w) = counter s (winCtr w) + 1 ∧
      (∀ k, k ≠ winCtr w → counter t k = counter s k) ∧ (winOf t w).arrived.contains (x / 64) = true))

/-- While the standby domain is up, every write of BALLAST_CFG leaves DEPTH at the value written or, when that is below 64, at 64;
IDLE_US and SLEW take the value written, and no other register, and nothing else of the state, changes. -/
def Obligations.BallastDepthIsAtLeast64 : Prop :=
  ∀ (s : State) (v : BitVec 64), s.stbyUp = true → ∃ t, exec (.ballastCfgWrite v) s = .next t ∧
    64 ≤ regFld t (rPwr 0x18) 23 16 ∧
    regFld t (rPwr 0x18) 23 16 = (if bits v.toNat 23 16 < 64 then 64 else bits v.toNat 23 16) ∧
    regFld t (rPwr 0x18) 47 32 = bits v.toNat 47 32 ∧ regFld t (rPwr 0x18) 15 0 = bits v.toNat 15 0 ∧
    (∀ off, off ≠ rPwr 0x18 → reg t off = reg s off) ∧ t = { s with regs := t.regs }

/-- While the rip panel is pulled a RESET_N pulse is logged as a RECOVERY entry with ACTION 0, the panel stays pulled, and nothing
but that entry changes; during recovery boot a pulse puts BOOT_STAT.STATE back to HEADSTOCK, where Headstock runs from step 1. IDCODE
shifts out 32 bits, least significant first, that read 0x2748056B: version 2, part number 0x7480, manufacturer 0x2B5 and a 1. -/
def Obligations.ResetPulsesAndIdcode : Prop :=
  ∀ s : State, s.stbyUp = true →
    (∀ held, ripHeld s = true → ∃ t, exec (.resetNPulse held) s = .next t ∧
      t = logErr s { cls := 8, code := 0, kind := 15, action := 0 } ∧ ripHeld t = true ∧ t.mem = s.mem ∧ t.kernels = s.kernels) ∧
    (∀ held, ripHeld s = false → bootState s = 1 → ∃ t, exec (.resetNPulse held) s = .next t ∧ bootState t = 0 ∧ t.mem = s.mem) ∧
    (∃ bs : List Bool, exec .idcode s = .next (send { s with jtag := 2 } (.tdo bs)) ∧ bs.length = 32 ∧
      (∀ n, n = bs.foldr (fun b (m : Nat) => b.toNat + 2 * m) 0 →
        n = 0x2748056B ∧ bits n 31 28 = 2 ∧ bits n 27 12 = 0x7480 ∧ bits n 11 1 = 0x2B5 ∧ bits n 0 0 = 1))
end

