-- ==== Sys2Proof/Laws/Sparse.lean ====
section
/-! SUPPORT. Laws/Sparse.lean: what the sorted lists of key and value do: reading after writing, and the canonical form. -/

namespace Sys2Proof.Machine

/-- The canonical form of a map: keys strictly rising, and no entry equal to what an unlisted key reads as. -/
abbrev Sparse.canon {α : Type} (d : Nat → α) (m : List (Nat × α)) : Prop :=
  m.Pairwise (fun a b => a.1 < b.1) ∧ ∀ e ∈ m, e.2 ≠ d e.1

theorem Sparse.get_del {α : Type} (m : List (Nat × α)) (k j : Nat) (d : α) :
    Sparse.get (Sparse.del m k) j d = if j = k then d else Sparse.get m j d := by
  unfold Sparse.del
  induction m with
  | nil => simp [Sparse.get]
  | cons e rest ih =>
    obtain ⟨a, v⟩ := e
    by_cases hk : a = k
    · subst hk
      simp only [bne_self_eq_false, Bool.false_eq_true, not_false_eq_true, List.filter_cons_of_neg, ih, Sparse.get]
      by_cases hj : j = a
      · simp [hj]
      · simp [hj, Ne.symm hj]
    · simp only [bne_iff_ne, ne_eq, hk, not_false_eq_true, List.filter_cons_of_pos, Sparse.get, ih]
      by_cases haj : a = j
      · subst haj; simp [hk]
      · simp [haj]

theorem Sparse.get_ins_self {α : Type} (m : List (Nat × α)) (k : Nat) (d v : α) :
    Sparse.get (Sparse.ins m k v) k d = v := by
  induction m with
  | nil => simp [Sparse.ins, Sparse.get]
  | cons e rest ih =>
    obtain ⟨a, w⟩ := e
    unfold Sparse.ins
    split
    · simp [Sparse.get]
    · split
      · simp [Sparse.get]
      · rename_i h1 h2
        simp [Sparse.get, h2, ih]

theorem Sparse.get_ins_ne {α : Type} (m : List (Nat × α)) {k j : Nat} (d v : α) (h : j ≠ k) :
    Sparse.get (Sparse.ins m k v) j d = Sparse.get m j d := by
  induction m with
  | nil => simp [Sparse.ins, Sparse.get, Ne.symm h]
  | cons e rest ih =>
    obtain ⟨a, w⟩ := e
    unfold Sparse.ins
    split
    · simp [Sparse.get, Ne.symm h]
    · split
      · rename_i h2
        subst h2
        simp [Sparse.get, Ne.symm h]
      · simp [Sparse.get, ih]

/-- A key reads as what was written to it. -/
@[simp] theorem Sparse.get_set_self {α : Type} [DecidableEq α] (m : List (Nat × α)) (k : Nat) (d v : α) :
    Sparse.get (Sparse.set m k d v) k d = v := by
  unfold Sparse.set
  split
  · rename_i h; simp [Sparse.get_del, h]
  · exact Sparse.get_ins_self m k d v

/-- A write leaves every other key alone. -/
theorem Sparse.get_set_ne {α : Type} [DecidableEq α] (m : List (Nat × α)) {k j : Nat} (d v e : α) (h : j ≠ k) :
    Sparse.get (Sparse.set m k d v) j e = Sparse.get m j e := by
  unfold Sparse.set
  split
  · simp [Sparse.get_del, h]
  · exact Sparse.get_ins_ne m e v h

theorem Sparse.mem_ins {α : Type} {m : List (Nat × α)} {k : Nat} {v : α} {e : Nat × α} (h : e ∈ Sparse.ins m k v) :
    e = (k, v) ∨ e ∈ m := by
  induction m with
  | nil => simpa [Sparse.ins] using h
  | cons f rest ih =>
    obtain ⟨a, w⟩ := f
    unfold Sparse.ins at h
    split at h
    · simpa using h
    · split at h
      · rcases List.mem_cons.1 h with h | h
        · exact .inl h
        · exact .inr (List.mem_cons_of_mem _ h)
      · rcases List.mem_cons.1 h with h | h
        · exact .inr (by simp [h])
        · rcases ih h with h | h
          · exact .inl h
          · exact .inr (List.mem_cons_of_mem _ h)

theorem Sparse.ins_pairwise {α : Type} {m : List (Nat × α)} (k : Nat) (v : α)
    (h : m.Pairwise (fun a b => a.1 < b.1)) : (Sparse.ins m k v).Pairwise (fun a b => a.1 < b.1) := by
  induction m with
  | nil => simp [Sparse.ins]
  | cons f rest ih =>
    obtain ⟨a, w⟩ := f
    rw [List.pairwise_cons] at h
    unfold Sparse.ins
    split
    · rename_i hlt
      refine List.pairwise_cons.2 ⟨?_, List.pairwise_cons.2 h⟩
      intro e he
      rcases List.mem_cons.1 he with he | he
      · simpa [he] using hlt
      · exact Nat.lt_trans hlt (h.1 e he)
    · split
      · rename_i heq
        subst heq
        exact List.pairwise_cons.2 ⟨fun e he => h.1 e he, h.2⟩
      · rename_i h1 h2
        refine List.pairwise_cons.2 ⟨?_, ih h.2⟩
        intro e he
        rcases Sparse.mem_ins he with he | he
        · subst he; simp only; omega
        · exact h.1 e he

theorem Sparse.canon_filter {α : Type} {d : Nat → α} {m : List (Nat × α)} (p : Nat × α → Bool) (h : Sparse.canon d m) :
    Sparse.canon d (m.filter p) :=
  ⟨h.1.filter p, fun e he => h.2 e (List.mem_of_mem_filter he)⟩

/-- A write keeps the canonical form. -/
theorem Sparse.canon_set {α : Type} [DecidableEq α] {d : Nat → α} {m : List (Nat × α)} (k : Nat) (v : α) (h : Sparse.canon d m) :
    Sparse.canon d (Sparse.set m k (d k) v) := by
  unfold Sparse.set
  split
  · exact Sparse.canon_filter _ h
  · rename_i hv
    refine ⟨Sparse.ins_pairwise k v h.1, ?_⟩
    intro e he
    rcases Sparse.mem_ins he with he | he
    · subst he; exact hv
    · exact h.2 e he

end Sys2Proof.Machine
end

