-- ==== Sys2Proof/Laws/Memory.lean ====
section
/-! SUPPORT. Laws/Memory.lean: memory: a read after a write, and every memory operation keeps the canonical form. -/

namespace Sys2Proof.Machine

theorem Mem.read_write_self (m : List Host.Cell) (a : Nat) (b : Byte) : Mem.read (Mem.write m a b) a = b := by
  simp [Mem.read, Mem.write]

theorem Mem.read_write_ne (m : List Host.Cell) {a j : Nat} (b : Byte) (h : j ≠ a) : Mem.read (Mem.write m a b) j = Mem.read m j :=
  Sparse.get_set_ne m 0 b 0 h

theorem Memory.wf_write {m : List Host.Cell} (a : Nat) (b : Byte) (h : Memory.wf m) : Memory.wf (Mem.write m a b) :=
  Sparse.canon_set (d := fun _ => 0) a b h

theorem Memory.wf_writeN {m : List Host.Cell} (a n v : Nat) (h : Memory.wf m) : Memory.wf (Mem.writeN m a n v) := by
  induction n generalizing m a v with
  | zero => exact h
  | succ k ih => exact ih _ _ (Memory.wf_write _ _ h)

theorem Memory.wf_putLine {m : List Host.Cell} (a : Nat) (d : LineData) (h : Memory.wf m) : Memory.wf (Mem.putLine m a d) :=
  Memory.wf_writeN a 64 _ h

theorem Memory.wf_filter {m : List Host.Cell} (p : Host.Cell → Bool) (h : Memory.wf m) : Memory.wf (m.filter p) :=
  Sparse.canon_filter (d := fun _ => (0 : Byte)) p h

theorem Memory.wf_zero {m : List Host.Cell} (a len : Nat) (h : Memory.wf m) : Memory.wf (Mem.zero m a len) :=
  Memory.wf_filter _ h

theorem Memory.wf_copy {m : List Host.Cell} (src dst len : Nat) (h : Memory.wf m) : Memory.wf (Mem.copy m src dst len) := by
  unfold Mem.copy
  suffices H : ∀ (l acc : List Host.Cell), Memory.wf acc →
      Memory.wf (l.foldl (fun acc c => Mem.write acc (c.1 - src + dst) c.2) acc) from H _ _ (Memory.wf_filter _ h)
  intro l
  induction l with
  | nil => intro acc hacc; exact hacc
  | cons c rest ih => intro acc hacc; exact ih _ (Memory.wf_write _ _ hacc)

/-- Writing `n` bytes leaves every byte outside them alone. -/
theorem Mem.read_writeN_out (m : List Host.Cell) (a n v j : Nat) (h : j < a ∨ a + n ≤ j) :
    Mem.read (Mem.writeN m a n v) j = Mem.read m j := by
  induction n generalizing m a v with
  | zero => rfl
  | succ k ih =>
    have hne : j ≠ a := by omega
    rw [Mem.writeN, ih _ _ _ (by omega), Mem.read_write_ne _ _ hne]

/-- A line write leaves every byte outside the line alone. -/
theorem Mem.read_putLine_out (m : List Host.Cell) (a j : Nat) (d : LineData) (h : j < a ∨ a + 64 ≤ j) :
    Mem.read (Mem.putLine m a d) j = Mem.read m j :=
  Mem.read_writeN_out m a 64 _ j h

/-- Bytes read after they were written are the number's low bytes. -/
theorem Mem.readN_writeN (m : List Host.Cell) (a n v : Nat) : Mem.readN (Mem.writeN m a n v) a n = v % 256 ^ n := by
  induction n generalizing m a v with
  | zero => simp [Mem.readN, Nat.mod_one]
  | succ k ih =>
    rw [Mem.writeN, Mem.readN, ih, Mem.read_writeN_out _ _ _ _ _ (by omega), Mem.read_write_self]
    have hv : v % 256 ^ (k + 1) = v % 256 + 256 * (v / 256 % 256 ^ k) := by rw [Nat.pow_succ', Nat.mod_mul]
    rw [BitVec.toNat_ofNat, hv]

/-- A line reads as it was written. -/
@[simp] theorem Mem.line_putLine_self (m : List Host.Cell) (a : Nat) (d : LineData) : Mem.line (Mem.putLine m a d) a = d := by
  unfold Mem.line Mem.putLine
  rw [Mem.readN_writeN]
  apply BitVec.eq_of_toNat_eq
  have h : (256 : Nat) ^ 64 = 2 ^ 512 := (Nat.pow_mul 2 8 64).symm
  rw [h, BitVec.toNat_ofNat, Nat.mod_mod, Nat.mod_eq_of_lt d.isLt]

theorem Mem.readN_congr (m m' : List Host.Cell) (a n : Nat) (h : ∀ j, a ≤ j → j < a + n → Mem.read m' j = Mem.read m j) :
    Mem.readN m' a n = Mem.readN m a n := by
  induction n generalizing a with
  | zero => rfl
  | succ k ih =>
    rw [Mem.readN, Mem.readN, h a (by omega) (by omega), ih (a + 1) (fun j h1 h2 => h j (by omega) (by omega))]

/-- A line write leaves every other aligned line alone. -/
theorem Mem.line_putLine_ne (m : List Host.Cell) (a b : Nat) (d : LineData) (h : b + 64 ≤ a ∨ a + 64 ≤ b) :
    Mem.line (Mem.putLine m a d) b = Mem.line m b := by
  unfold Mem.line
  rw [Mem.readN_congr _ _ _ _ (fun j h1 h2 => Mem.read_putLine_out m a j d (by omega))]

end Sys2Proof.Machine
end

