-- ==== Sys2Proof/Laws/Programs.lean ====
section
/-! SUPPORT. Laws/Programs.lean: the command of a word of a program, and the word of a command. -/

namespace Sys2Proof

/-- A word that is defined is the word of the command that it picks, whose operands are defined (R274). -/
theorem defined_eq_some {c : Option Instr} {w : Nat} {i : Instr} (h : defined c w = some i) :
    c = some i ∧ i.operandsOk = true ∧ i.progWord = some w := by
  simpa [defined, Option.filter_eq_some_iff] using h

/-- No two words of a slot spell one command. -/
theorem slotCommand_inj {l : Fin 128} {no v w : Nat} {far : BitVec 64} {last : Bool} {i : Instr}
    (hv : slotCommand l no v far last = some i) (hw : slotCommand l no w far last = some i) : v = w :=
  Option.some.inj ((defined_eq_some hv).2.2.symm.trans (defined_eq_some hw).2.2)

end Sys2Proof
end

