-- ==== Sys2Proof/Laws/State.lean ====
section
/-! SUPPORT. Laws/State.lean: what each update of the state leaves alone: one lemma per field per update, true by unfolding the update. -/

namespace Sys2Proof.Machine

variable (s : State)

@[simp] theorem regSet_pending (off : Nat) (v : Word) : (regSet s off v).pending = s.pending := rfl
@[simp] theorem regSet_mem (off : Nat) (v : Word) : (regSet s off v).mem = s.mem := rfl
@[simp] theorem regSet_poison (off : Nat) (v : Word) : (regSet s off v).poison = s.poison := rfl
@[simp] theorem regSet_counters (off : Nat) (v : Word) : (regSet s off v).counters = s.counters := rfl
@[simp] theorem regSet_wins (off : Nat) (v : Word) : (regSet s off v).wins = s.wins := rfl
@[simp] theorem regSet_areas (off : Nat) (v : Word) : (regSet s off v).areas = s.areas := rfl
@[simp] theorem regSet_inj (off : Nat) (v : Word) : (regSet s off v).inj = s.inj := rfl
@[simp] theorem regSet_out (off : Nat) (v : Word) : (regSet s off v).out = s.out := rfl
@[simp] theorem regSet_free (off : Nat) (v : Word) : (regSet s off v).free = s.free := rfl
@[simp] theorem regSet_seq (off : Nat) (v : Word) : (regSet s off v).seq = s.seq := rfl
@[simp] theorem regSet_trk (off : Nat) (v : Word) : (regSet s off v).trk = s.trk := rfl
@[simp] theorem regSet_retry (off : Nat) (v : Word) : (regSet s off v).retry = s.retry := rfl
@[simp] theorem regSet_blockq (off : Nat) (v : Word) : (regSet s off v).blockq = s.blockq := rfl
@[simp] theorem regSet_filt (off : Nat) (v : Word) : (regSet s off v).filt = s.filt := rfl
@[simp] theorem regSet_dir (off : Nat) (v : Word) : (regSet s off v).dir = s.dir := rfl
@[simp] theorem regSet_store (off : Nat) (v : Word) : (regSet s off v).store = s.store := rfl
@[simp] theorem regSet_kernels (off : Nat) (v : Word) : (regSet s off v).kernels = s.kernels := rfl
@[simp] theorem regSet_lathes (off : Nat) (v : Word) : (regSet s off v).lathes = s.lathes := rfl
@[simp] theorem regSet_ctxs (off : Nat) (v : Word) : (regSet s off v).ctxs = s.ctxs := rfl
@[simp] theorem regSet_kites (off : Nat) (v : Word) : (regSet s off v).kites = s.kites := rfl
@[simp] theorem regSet_shadows (off : Nat) (v : Word) : (regSet s off v).shadows = s.shadows := rfl
@[simp] theorem regSet_sess (off : Nat) (v : Word) : (regSet s off v).sess = s.sess := rfl
@[simp] theorem regSet_reels (off : Nat) (v : Word) : (regSet s off v).reels = s.reels := rfl
@[simp] theorem regSet_links (off : Nat) (v : Word) : (regSet s off v).links = s.links := rfl
@[simp] theorem regSet_cells (off : Nat) (v : Word) : (regSet s off v).cells = s.cells := rfl
@[simp] theorem regSet_fetches (off : Nat) (v : Word) : (regSet s off v).fetches = s.fetches := rfl
@[simp] theorem regSet_freeFrames (off : Nat) (v : Word) : (regSet s off v).freeFrames = s.freeFrames := rfl
@[simp] theorem regSet_dirtyFrames (off : Nat) (v : Word) : (regSet s off v).dirtyFrames = s.dirtyFrames := rfl
@[simp] theorem regSet_cmpWait (off : Nat) (v : Word) : (regSet s off v).cmpWait = s.cmpWait := rfl
@[simp] theorem regSet_tierCache (off : Nat) (v : Word) : (regSet s off v).tierCache = s.tierCache := rfl
@[simp] theorem regSet_versions (off : Nat) (v : Word) : (regSet s off v).versions = s.versions := rfl
@[simp] theorem regSet_stbyUp (off : Nat) (v : Word) : (regSet s off v).stbyUp = s.stbyUp := rfl
@[simp] theorem regSet_mgmtOut (off : Nat) (v : Word) : (regSet s off v).mgmtOut = s.mgmtOut := rfl
@[simp] theorem regSet_ballastQ (off : Nat) (v : Word) : (regSet s off v).ballastQ = s.ballastQ := rfl
@[simp] theorem regSet_clocked (off : Nat) (v : Word) : (regSet s off v).clocked = s.clocked := rfl
@[simp] theorem regSet_degraded (off : Nat) (v : Word) : (regSet s off v).degraded = s.degraded := rfl
@[simp] theorem regSet_toRestore (off : Nat) (v : Word) : (regSet s off v).toRestore = s.toRestore := rfl
@[simp] theorem regSet_lathQ (off : Nat) (v : Word) : (regSet s off v).lathQ = s.lathQ := rfl
@[simp] theorem regSet_engQ (off : Nat) (v : Word) : (regSet s off v).engQ = s.engQ := rfl
@[simp] theorem regSet_missq (off : Nat) (v : Word) : (regSet s off v).missq = s.missq := rfl
@[simp] theorem regSet_pubs (off : Nat) (v : Word) : (regSet s off v).pubs = s.pubs := rfl
@[simp] theorem regSet_lost (off : Nat) (v : Word) : (regSet s off v).lost = s.lost := rfl
@[simp] theorem regSet_nameds (off : Nat) (v : Word) : (regSet s off v).nameds = s.nameds := rfl
@[simp] theorem regSet_recallq (off : Nat) (v : Word) : (regSet s off v).recallq = s.recallq := rfl
@[simp] theorem regSet_wbq (off : Nat) (v : Word) : (regSet s off v).wbq = s.wbq := rfl
@[simp] theorem regSet_covers (off : Nat) (v : Word) : (regSet s off v).covers = s.covers := rfl
@[simp] theorem regSet_restoreq (off : Nat) (v : Word) : (regSet s off v).restoreq = s.restoreq := rfl
@[simp] theorem regSet_peerOuts (off : Nat) (v : Word) : (regSet s off v).peerOuts = s.peerOuts := rfl
@[simp] theorem regSet_progs (off : Nat) (v : Word) : (regSet s off v).progs = s.progs := rfl
@[simp] theorem regSet_dumps (off : Nat) (v : Word) : (regSet s off v).dumps = s.dumps := rfl
@[simp] theorem regSet_tsWait (off : Nat) (v : Word) : (regSet s off v).tsWait = s.tsWait := rfl

@[simp] theorem regPut_pending (off hi lo v : Nat) : (regPut s off hi lo v).pending = s.pending := rfl
@[simp] theorem regPut_mem (off hi lo v : Nat) : (regPut s off hi lo v).mem = s.mem := rfl
@[simp] theorem regPut_poison (off hi lo v : Nat) : (regPut s off hi lo v).poison = s.poison := rfl
@[simp] theorem regPut_counters (off hi lo v : Nat) : (regPut s off hi lo v).counters = s.counters := rfl
@[simp] theorem regPut_wins (off hi lo v : Nat) : (regPut s off hi lo v).wins = s.wins := rfl
@[simp] theorem regPut_areas (off hi lo v : Nat) : (regPut s off hi lo v).areas = s.areas := rfl
@[simp] theorem regPut_inj (off hi lo v : Nat) : (regPut s off hi lo v).inj = s.inj := rfl
@[simp] theorem regPut_out (off hi lo v : Nat) : (regPut s off hi lo v).out = s.out := rfl
@[simp] theorem regPut_free (off hi lo v : Nat) : (regPut s off hi lo v).free = s.free := rfl
@[simp] theorem regPut_seq (off hi lo v : Nat) : (regPut s off hi lo v).seq = s.seq := rfl
@[simp] theorem regPut_trk (off hi lo v : Nat) : (regPut s off hi lo v).trk = s.trk := rfl
@[simp] theorem regPut_retry (off hi lo v : Nat) : (regPut s off hi lo v).retry = s.retry := rfl
@[simp] theorem regPut_blockq (off hi lo v : Nat) : (regPut s off hi lo v).blockq = s.blockq := rfl
@[simp] theorem regPut_filt (off hi lo v : Nat) : (regPut s off hi lo v).filt = s.filt := rfl
@[simp] theorem regPut_dir (off hi lo v : Nat) : (regPut s off hi lo v).dir = s.dir := rfl
@[simp] theorem regPut_store (off hi lo v : Nat) : (regPut s off hi lo v).store = s.store := rfl
@[simp] theorem regPut_kernels (off hi lo v : Nat) : (regPut s off hi lo v).kernels = s.kernels := rfl
@[simp] theorem regPut_lathes (off hi lo v : Nat) : (regPut s off hi lo v).lathes = s.lathes := rfl
@[simp] theorem regPut_ctxs (off hi lo v : Nat) : (regPut s off hi lo v).ctxs = s.ctxs := rfl
@[simp] theorem regPut_kites (off hi lo v : Nat) : (regPut s off hi lo v).kites = s.kites := rfl
@[simp] theorem regPut_shadows (off hi lo v : Nat) : (regPut s off hi lo v).shadows = s.shadows := rfl
@[simp] theorem regPut_sess (off hi lo v : Nat) : (regPut s off hi lo v).sess = s.sess := rfl
@[simp] theorem regPut_reels (off hi lo v : Nat) : (regPut s off hi lo v).reels = s.reels := rfl
@[simp] theorem regPut_links (off hi lo v : Nat) : (regPut s off hi lo v).links = s.links := rfl
@[simp] theorem regPut_cells (off hi lo v : Nat) : (regPut s off hi lo v).cells = s.cells := rfl
@[simp] theorem regPut_fetches (off hi lo v : Nat) : (regPut s off hi lo v).fetches = s.fetches := rfl
@[simp] theorem regPut_freeFrames (off hi lo v : Nat) : (regPut s off hi lo v).freeFrames = s.freeFrames := rfl
@[simp] theorem regPut_dirtyFrames (off hi lo v : Nat) : (regPut s off hi lo v).dirtyFrames = s.dirtyFrames := rfl
@[simp] theorem regPut_cmpWait (off hi lo v : Nat) : (regPut s off hi lo v).cmpWait = s.cmpWait := rfl
@[simp] theorem regPut_tierCache (off hi lo v : Nat) : (regPut s off hi lo v).tierCache = s.tierCache := rfl
@[simp] theorem regPut_versions (off hi lo v : Nat) : (regPut s off hi lo v).versions = s.versions := rfl
@[simp] theorem regPut_stbyUp (off hi lo v : Nat) : (regPut s off hi lo v).stbyUp = s.stbyUp := rfl
@[simp] theorem regPut_mgmtOut (off hi lo v : Nat) : (regPut s off hi lo v).mgmtOut = s.mgmtOut := rfl
@[simp] theorem regPut_ballastQ (off hi lo v : Nat) : (regPut s off hi lo v).ballastQ = s.ballastQ := rfl
@[simp] theorem regPut_clocked (off hi lo v : Nat) : (regPut s off hi lo v).clocked = s.clocked := rfl
@[simp] theorem regPut_degraded (off hi lo v : Nat) : (regPut s off hi lo v).degraded = s.degraded := rfl
@[simp] theorem regPut_toRestore (off hi lo v : Nat) : (regPut s off hi lo v).toRestore = s.toRestore := rfl
@[simp] theorem regPut_lathQ (off hi lo v : Nat) : (regPut s off hi lo v).lathQ = s.lathQ := rfl
@[simp] theorem regPut_engQ (off hi lo v : Nat) : (regPut s off hi lo v).engQ = s.engQ := rfl
@[simp] theorem regPut_missq (off hi lo v : Nat) : (regPut s off hi lo v).missq = s.missq := rfl
@[simp] theorem regPut_pubs (off hi lo v : Nat) : (regPut s off hi lo v).pubs = s.pubs := rfl
@[simp] theorem regPut_lost (off hi lo v : Nat) : (regPut s off hi lo v).lost = s.lost := rfl
@[simp] theorem regPut_nameds (off hi lo v : Nat) : (regPut s off hi lo v).nameds = s.nameds := rfl
@[simp] theorem regPut_recallq (off hi lo v : Nat) : (regPut s off hi lo v).recallq = s.recallq := rfl
@[simp] theorem regPut_wbq (off hi lo v : Nat) : (regPut s off hi lo v).wbq = s.wbq := rfl
@[simp] theorem regPut_covers (off hi lo v : Nat) : (regPut s off hi lo v).covers = s.covers := rfl
@[simp] theorem regPut_restoreq (off hi lo v : Nat) : (regPut s off hi lo v).restoreq = s.restoreq := rfl
@[simp] theorem regPut_peerOuts (off hi lo v : Nat) : (regPut s off hi lo v).peerOuts = s.peerOuts := rfl
@[simp] theorem regPut_progs (off hi lo v : Nat) : (regPut s off hi lo v).progs = s.progs := rfl
@[simp] theorem regPut_dumps (off hi lo v : Nat) : (regPut s off hi lo v).dumps = s.dumps := rfl
@[simp] theorem regPut_tsWait (off hi lo v : Nat) : (regPut s off hi lo v).tsWait = s.tsWait := rfl

@[simp] theorem setBit_pending (off b : Nat) : (setBit s off b).pending = s.pending := rfl
@[simp] theorem setBit_mem (off b : Nat) : (setBit s off b).mem = s.mem := rfl
@[simp] theorem setBit_poison (off b : Nat) : (setBit s off b).poison = s.poison := rfl
@[simp] theorem setBit_counters (off b : Nat) : (setBit s off b).counters = s.counters := rfl
@[simp] theorem setBit_wins (off b : Nat) : (setBit s off b).wins = s.wins := rfl
@[simp] theorem setBit_areas (off b : Nat) : (setBit s off b).areas = s.areas := rfl
@[simp] theorem setBit_inj (off b : Nat) : (setBit s off b).inj = s.inj := rfl
@[simp] theorem setBit_out (off b : Nat) : (setBit s off b).out = s.out := rfl
@[simp] theorem setBit_free (off b : Nat) : (setBit s off b).free = s.free := rfl
@[simp] theorem setBit_seq (off b : Nat) : (setBit s off b).seq = s.seq := rfl
@[simp] theorem setBit_trk (off b : Nat) : (setBit s off b).trk = s.trk := rfl
@[simp] theorem setBit_retry (off b : Nat) : (setBit s off b).retry = s.retry := rfl
@[simp] theorem setBit_blockq (off b : Nat) : (setBit s off b).blockq = s.blockq := rfl
@[simp] theorem setBit_filt (off b : Nat) : (setBit s off b).filt = s.filt := rfl
@[simp] theorem setBit_dir (off b : Nat) : (setBit s off b).dir = s.dir := rfl
@[simp] theorem setBit_store (off b : Nat) : (setBit s off b).store = s.store := rfl
@[simp] theorem setBit_kernels (off b : Nat) : (setBit s off b).kernels = s.kernels := rfl
@[simp] theorem setBit_lathes (off b : Nat) : (setBit s off b).lathes = s.lathes := rfl
@[simp] theorem setBit_ctxs (off b : Nat) : (setBit s off b).ctxs = s.ctxs := rfl
@[simp] theorem setBit_kites (off b : Nat) : (setBit s off b).kites = s.kites := rfl
@[simp] theorem setBit_shadows (off b : Nat) : (setBit s off b).shadows = s.shadows := rfl
@[simp] theorem setBit_sess (off b : Nat) : (setBit s off b).sess = s.sess := rfl
@[simp] theorem setBit_reels (off b : Nat) : (setBit s off b).reels = s.reels := rfl
@[simp] theorem setBit_links (off b : Nat) : (setBit s off b).links = s.links := rfl
@[simp] theorem setBit_cells (off b : Nat) : (setBit s off b).cells = s.cells := rfl
@[simp] theorem setBit_fetches (off b : Nat) : (setBit s off b).fetches = s.fetches := rfl
@[simp] theorem setBit_freeFrames (off b : Nat) : (setBit s off b).freeFrames = s.freeFrames := rfl
@[simp] theorem setBit_dirtyFrames (off b : Nat) : (setBit s off b).dirtyFrames = s.dirtyFrames := rfl
@[simp] theorem setBit_cmpWait (off b : Nat) : (setBit s off b).cmpWait = s.cmpWait := rfl
@[simp] theorem setBit_tierCache (off b : Nat) : (setBit s off b).tierCache = s.tierCache := rfl
@[simp] theorem setBit_versions (off b : Nat) : (setBit s off b).versions = s.versions := rfl
@[simp] theorem setBit_stbyUp (off b : Nat) : (setBit s off b).stbyUp = s.stbyUp := rfl
@[simp] theorem setBit_mgmtOut (off b : Nat) : (setBit s off b).mgmtOut = s.mgmtOut := rfl
@[simp] theorem setBit_ballastQ (off b : Nat) : (setBit s off b).ballastQ = s.ballastQ := rfl
@[simp] theorem setBit_clocked (off b : Nat) : (setBit s off b).clocked = s.clocked := rfl
@[simp] theorem setBit_degraded (off b : Nat) : (setBit s off b).degraded = s.degraded := rfl
@[simp] theorem setBit_toRestore (off b : Nat) : (setBit s off b).toRestore = s.toRestore := rfl
@[simp] theorem setBit_lathQ (off b : Nat) : (setBit s off b).lathQ = s.lathQ := rfl
@[simp] theorem setBit_engQ (off b : Nat) : (setBit s off b).engQ = s.engQ := rfl
@[simp] theorem setBit_missq (off b : Nat) : (setBit s off b).missq = s.missq := rfl
@[simp] theorem setBit_pubs (off b : Nat) : (setBit s off b).pubs = s.pubs := rfl
@[simp] theorem setBit_lost (off b : Nat) : (setBit s off b).lost = s.lost := rfl
@[simp] theorem setBit_nameds (off b : Nat) : (setBit s off b).nameds = s.nameds := rfl
@[simp] theorem setBit_recallq (off b : Nat) : (setBit s off b).recallq = s.recallq := rfl
@[simp] theorem setBit_wbq (off b : Nat) : (setBit s off b).wbq = s.wbq := rfl
@[simp] theorem setBit_covers (off b : Nat) : (setBit s off b).covers = s.covers := rfl
@[simp] theorem setBit_restoreq (off b : Nat) : (setBit s off b).restoreq = s.restoreq := rfl
@[simp] theorem setBit_peerOuts (off b : Nat) : (setBit s off b).peerOuts = s.peerOuts := rfl
@[simp] theorem setBit_progs (off b : Nat) : (setBit s off b).progs = s.progs := rfl
@[simp] theorem setBit_dumps (off b : Nat) : (setBit s off b).dumps = s.dumps := rfl
@[simp] theorem setBit_tsWait (off b : Nat) : (setBit s off b).tsWait = s.tsWait := rfl

@[simp] theorem clrBit_pending (off b : Nat) : (clrBit s off b).pending = s.pending := rfl
@[simp] theorem clrBit_mem (off b : Nat) : (clrBit s off b).mem = s.mem := rfl
@[simp] theorem clrBit_poison (off b : Nat) : (clrBit s off b).poison = s.poison := rfl
@[simp] theorem clrBit_counters (off b : Nat) : (clrBit s off b).counters = s.counters := rfl
@[simp] theorem clrBit_wins (off b : Nat) : (clrBit s off b).wins = s.wins := rfl
@[simp] theorem clrBit_areas (off b : Nat) : (clrBit s off b).areas = s.areas := rfl
@[simp] theorem clrBit_inj (off b : Nat) : (clrBit s off b).inj = s.inj := rfl
@[simp] theorem clrBit_out (off b : Nat) : (clrBit s off b).out = s.out := rfl
@[simp] theorem clrBit_free (off b : Nat) : (clrBit s off b).free = s.free := rfl
@[simp] theorem clrBit_seq (off b : Nat) : (clrBit s off b).seq = s.seq := rfl
@[simp] theorem clrBit_trk (off b : Nat) : (clrBit s off b).trk = s.trk := rfl
@[simp] theorem clrBit_retry (off b : Nat) : (clrBit s off b).retry = s.retry := rfl
@[simp] theorem clrBit_blockq (off b : Nat) : (clrBit s off b).blockq = s.blockq := rfl
@[simp] theorem clrBit_filt (off b : Nat) : (clrBit s off b).filt = s.filt := rfl
@[simp] theorem clrBit_dir (off b : Nat) : (clrBit s off b).dir = s.dir := rfl
@[simp] theorem clrBit_store (off b : Nat) : (clrBit s off b).store = s.store := rfl
@[simp] theorem clrBit_kernels (off b : Nat) : (clrBit s off b).kernels = s.kernels := rfl
@[simp] theorem clrBit_lathes (off b : Nat) : (clrBit s off b).lathes = s.lathes := rfl
@[simp] theorem clrBit_ctxs (off b : Nat) : (clrBit s off b).ctxs = s.ctxs := rfl
@[simp] theorem clrBit_kites (off b : Nat) : (clrBit s off b).kites = s.kites := rfl
@[simp] theorem clrBit_shadows (off b : Nat) : (clrBit s off b).shadows = s.shadows := rfl
@[simp] theorem clrBit_sess (off b : Nat) : (clrBit s off b).sess = s.sess := rfl
@[simp] theorem clrBit_reels (off b : Nat) : (clrBit s off b).reels = s.reels := rfl
@[simp] theorem clrBit_links (off b : Nat) : (clrBit s off b).links = s.links := rfl
@[simp] theorem clrBit_cells (off b : Nat) : (clrBit s off b).cells = s.cells := rfl
@[simp] theorem clrBit_fetches (off b : Nat) : (clrBit s off b).fetches = s.fetches := rfl
@[simp] theorem clrBit_freeFrames (off b : Nat) : (clrBit s off b).freeFrames = s.freeFrames := rfl
@[simp] theorem clrBit_dirtyFrames (off b : Nat) : (clrBit s off b).dirtyFrames = s.dirtyFrames := rfl
@[simp] theorem clrBit_cmpWait (off b : Nat) : (clrBit s off b).cmpWait = s.cmpWait := rfl
@[simp] theorem clrBit_tierCache (off b : Nat) : (clrBit s off b).tierCache = s.tierCache := rfl
@[simp] theorem clrBit_versions (off b : Nat) : (clrBit s off b).versions = s.versions := rfl
@[simp] theorem clrBit_stbyUp (off b : Nat) : (clrBit s off b).stbyUp = s.stbyUp := rfl
@[simp] theorem clrBit_mgmtOut (off b : Nat) : (clrBit s off b).mgmtOut = s.mgmtOut := rfl
@[simp] theorem clrBit_ballastQ (off b : Nat) : (clrBit s off b).ballastQ = s.ballastQ := rfl
@[simp] theorem clrBit_clocked (off b : Nat) : (clrBit s off b).clocked = s.clocked := rfl
@[simp] theorem clrBit_degraded (off b : Nat) : (clrBit s off b).degraded = s.degraded := rfl
@[simp] theorem clrBit_toRestore (off b : Nat) : (clrBit s off b).toRestore = s.toRestore := rfl
@[simp] theorem clrBit_lathQ (off b : Nat) : (clrBit s off b).lathQ = s.lathQ := rfl
@[simp] theorem clrBit_engQ (off b : Nat) : (clrBit s off b).engQ = s.engQ := rfl
@[simp] theorem clrBit_missq (off b : Nat) : (clrBit s off b).missq = s.missq := rfl
@[simp] theorem clrBit_pubs (off b : Nat) : (clrBit s off b).pubs = s.pubs := rfl
@[simp] theorem clrBit_lost (off b : Nat) : (clrBit s off b).lost = s.lost := rfl
@[simp] theorem clrBit_nameds (off b : Nat) : (clrBit s off b).nameds = s.nameds := rfl
@[simp] theorem clrBit_recallq (off b : Nat) : (clrBit s off b).recallq = s.recallq := rfl
@[simp] theorem clrBit_wbq (off b : Nat) : (clrBit s off b).wbq = s.wbq := rfl
@[simp] theorem clrBit_covers (off b : Nat) : (clrBit s off b).covers = s.covers := rfl
@[simp] theorem clrBit_restoreq (off b : Nat) : (clrBit s off b).restoreq = s.restoreq := rfl
@[simp] theorem clrBit_peerOuts (off b : Nat) : (clrBit s off b).peerOuts = s.peerOuts := rfl
@[simp] theorem clrBit_progs (off b : Nat) : (clrBit s off b).progs = s.progs := rfl
@[simp] theorem clrBit_dumps (off b : Nat) : (clrBit s off b).dumps = s.dumps := rfl
@[simp] theorem clrBit_tsWait (off b : Nat) : (clrBit s off b).tsWait = s.tsWait := rfl

@[simp] theorem addCnt_pending (off n : Nat) : (addCnt s off n).pending = s.pending := rfl
@[simp] theorem addCnt_mem (off n : Nat) : (addCnt s off n).mem = s.mem := rfl
@[simp] theorem addCnt_poison (off n : Nat) : (addCnt s off n).poison = s.poison := rfl
@[simp] theorem addCnt_counters (off n : Nat) : (addCnt s off n).counters = s.counters := rfl
@[simp] theorem addCnt_wins (off n : Nat) : (addCnt s off n).wins = s.wins := rfl
@[simp] theorem addCnt_areas (off n : Nat) : (addCnt s off n).areas = s.areas := rfl
@[simp] theorem addCnt_inj (off n : Nat) : (addCnt s off n).inj = s.inj := rfl
@[simp] theorem addCnt_out (off n : Nat) : (addCnt s off n).out = s.out := rfl
@[simp] theorem addCnt_free (off n : Nat) : (addCnt s off n).free = s.free := rfl
@[simp] theorem addCnt_seq (off n : Nat) : (addCnt s off n).seq = s.seq := rfl
@[simp] theorem addCnt_trk (off n : Nat) : (addCnt s off n).trk = s.trk := rfl
@[simp] theorem addCnt_retry (off n : Nat) : (addCnt s off n).retry = s.retry := rfl
@[simp] theorem addCnt_blockq (off n : Nat) : (addCnt s off n).blockq = s.blockq := rfl
@[simp] theorem addCnt_filt (off n : Nat) : (addCnt s off n).filt = s.filt := rfl
@[simp] theorem addCnt_dir (off n : Nat) : (addCnt s off n).dir = s.dir := rfl
@[simp] theorem addCnt_store (off n : Nat) : (addCnt s off n).store = s.store := rfl
@[simp] theorem addCnt_kernels (off n : Nat) : (addCnt s off n).kernels = s.kernels := rfl
@[simp] theorem addCnt_lathes (off n : Nat) : (addCnt s off n).lathes = s.lathes := rfl
@[simp] theorem addCnt_ctxs (off n : Nat) : (addCnt s off n).ctxs = s.ctxs := rfl
@[simp] theorem addCnt_kites (off n : Nat) : (addCnt s off n).kites = s.kites := rfl
@[simp] theorem addCnt_shadows (off n : Nat) : (addCnt s off n).shadows = s.shadows := rfl
@[simp] theorem addCnt_sess (off n : Nat) : (addCnt s off n).sess = s.sess := rfl
@[simp] theorem addCnt_reels (off n : Nat) : (addCnt s off n).reels = s.reels := rfl
@[simp] theorem addCnt_links (off n : Nat) : (addCnt s off n).links = s.links := rfl
@[simp] theorem addCnt_cells (off n : Nat) : (addCnt s off n).cells = s.cells := rfl
@[simp] theorem addCnt_fetches (off n : Nat) : (addCnt s off n).fetches = s.fetches := rfl
@[simp] theorem addCnt_freeFrames (off n : Nat) : (addCnt s off n).freeFrames = s.freeFrames := rfl
@[simp] theorem addCnt_dirtyFrames (off n : Nat) : (addCnt s off n).dirtyFrames = s.dirtyFrames := rfl
@[simp] theorem addCnt_cmpWait (off n : Nat) : (addCnt s off n).cmpWait = s.cmpWait := rfl
@[simp] theorem addCnt_tierCache (off n : Nat) : (addCnt s off n).tierCache = s.tierCache := rfl
@[simp] theorem addCnt_versions (off n : Nat) : (addCnt s off n).versions = s.versions := rfl
@[simp] theorem addCnt_stbyUp (off n : Nat) : (addCnt s off n).stbyUp = s.stbyUp := rfl
@[simp] theorem addCnt_mgmtOut (off n : Nat) : (addCnt s off n).mgmtOut = s.mgmtOut := rfl
@[simp] theorem addCnt_ballastQ (off n : Nat) : (addCnt s off n).ballastQ = s.ballastQ := rfl
@[simp] theorem addCnt_clocked (off n : Nat) : (addCnt s off n).clocked = s.clocked := rfl
@[simp] theorem addCnt_degraded (off n : Nat) : (addCnt s off n).degraded = s.degraded := rfl
@[simp] theorem addCnt_toRestore (off n : Nat) : (addCnt s off n).toRestore = s.toRestore := rfl
@[simp] theorem addCnt_lathQ (off n : Nat) : (addCnt s off n).lathQ = s.lathQ := rfl
@[simp] theorem addCnt_engQ (off n : Nat) : (addCnt s off n).engQ = s.engQ := rfl
@[simp] theorem addCnt_missq (off n : Nat) : (addCnt s off n).missq = s.missq := rfl
@[simp] theorem addCnt_pubs (off n : Nat) : (addCnt s off n).pubs = s.pubs := rfl
@[simp] theorem addCnt_lost (off n : Nat) : (addCnt s off n).lost = s.lost := rfl
@[simp] theorem addCnt_nameds (off n : Nat) : (addCnt s off n).nameds = s.nameds := rfl
@[simp] theorem addCnt_recallq (off n : Nat) : (addCnt s off n).recallq = s.recallq := rfl
@[simp] theorem addCnt_wbq (off n : Nat) : (addCnt s off n).wbq = s.wbq := rfl
@[simp] theorem addCnt_covers (off n : Nat) : (addCnt s off n).covers = s.covers := rfl
@[simp] theorem addCnt_restoreq (off n : Nat) : (addCnt s off n).restoreq = s.restoreq := rfl
@[simp] theorem addCnt_peerOuts (off n : Nat) : (addCnt s off n).peerOuts = s.peerOuts := rfl
@[simp] theorem addCnt_progs (off n : Nat) : (addCnt s off n).progs = s.progs := rfl
@[simp] theorem addCnt_dumps (off n : Nat) : (addCnt s off n).dumps = s.dumps := rfl
@[simp] theorem addCnt_tsWait (off n : Nat) : (addCnt s off n).tsWait = s.tsWait := rfl

@[simp] theorem incCnt_pending (off : Nat) : (incCnt s off).pending = s.pending := rfl
@[simp] theorem incCnt_mem (off : Nat) : (incCnt s off).mem = s.mem := rfl
@[simp] theorem incCnt_poison (off : Nat) : (incCnt s off).poison = s.poison := rfl
@[simp] theorem incCnt_counters (off : Nat) : (incCnt s off).counters = s.counters := rfl
@[simp] theorem incCnt_wins (off : Nat) : (incCnt s off).wins = s.wins := rfl
@[simp] theorem incCnt_areas (off : Nat) : (incCnt s off).areas = s.areas := rfl
@[simp] theorem incCnt_inj (off : Nat) : (incCnt s off).inj = s.inj := rfl
@[simp] theorem incCnt_out (off : Nat) : (incCnt s off).out = s.out := rfl
@[simp] theorem incCnt_free (off : Nat) : (incCnt s off).free = s.free := rfl
@[simp] theorem incCnt_seq (off : Nat) : (incCnt s off).seq = s.seq := rfl
@[simp] theorem incCnt_trk (off : Nat) : (incCnt s off).trk = s.trk := rfl
@[simp] theorem incCnt_retry (off : Nat) : (incCnt s off).retry = s.retry := rfl
@[simp] theorem incCnt_blockq (off : Nat) : (incCnt s off).blockq = s.blockq := rfl
@[simp] theorem incCnt_filt (off : Nat) : (incCnt s off).filt = s.filt := rfl
@[simp] theorem incCnt_dir (off : Nat) : (incCnt s off).dir = s.dir := rfl
@[simp] theorem incCnt_store (off : Nat) : (incCnt s off).store = s.store := rfl
@[simp] theorem incCnt_kernels (off : Nat) : (incCnt s off).kernels = s.kernels := rfl
@[simp] theorem incCnt_lathes (off : Nat) : (incCnt s off).lathes = s.lathes := rfl
@[simp] theorem incCnt_ctxs (off : Nat) : (incCnt s off).ctxs = s.ctxs := rfl
@[simp] theorem incCnt_kites (off : Nat) : (incCnt s off).kites = s.kites := rfl
@[simp] theorem incCnt_shadows (off : Nat) : (incCnt s off).shadows = s.shadows := rfl
@[simp] theorem incCnt_sess (off : Nat) : (incCnt s off).sess = s.sess := rfl
@[simp] theorem incCnt_reels (off : Nat) : (incCnt s off).reels = s.reels := rfl
@[simp] theorem incCnt_links (off : Nat) : (incCnt s off).links = s.links := rfl
@[simp] theorem incCnt_cells (off : Nat) : (incCnt s off).cells = s.cells := rfl
@[simp] theorem incCnt_fetches (off : Nat) : (incCnt s off).fetches = s.fetches := rfl
@[simp] theorem incCnt_freeFrames (off : Nat) : (incCnt s off).freeFrames = s.freeFrames := rfl
@[simp] theorem incCnt_dirtyFrames (off : Nat) : (incCnt s off).dirtyFrames = s.dirtyFrames := rfl
@[simp] theorem incCnt_cmpWait (off : Nat) : (incCnt s off).cmpWait = s.cmpWait := rfl
@[simp] theorem incCnt_tierCache (off : Nat) : (incCnt s off).tierCache = s.tierCache := rfl
@[simp] theorem incCnt_versions (off : Nat) : (incCnt s off).versions = s.versions := rfl
@[simp] theorem incCnt_stbyUp (off : Nat) : (incCnt s off).stbyUp = s.stbyUp := rfl
@[simp] theorem incCnt_mgmtOut (off : Nat) : (incCnt s off).mgmtOut = s.mgmtOut := rfl
@[simp] theorem incCnt_ballastQ (off : Nat) : (incCnt s off).ballastQ = s.ballastQ := rfl
@[simp] theorem incCnt_clocked (off : Nat) : (incCnt s off).clocked = s.clocked := rfl
@[simp] theorem incCnt_degraded (off : Nat) : (incCnt s off).degraded = s.degraded := rfl
@[simp] theorem incCnt_toRestore (off : Nat) : (incCnt s off).toRestore = s.toRestore := rfl
@[simp] theorem incCnt_lathQ (off : Nat) : (incCnt s off).lathQ = s.lathQ := rfl
@[simp] theorem incCnt_engQ (off : Nat) : (incCnt s off).engQ = s.engQ := rfl
@[simp] theorem incCnt_missq (off : Nat) : (incCnt s off).missq = s.missq := rfl
@[simp] theorem incCnt_pubs (off : Nat) : (incCnt s off).pubs = s.pubs := rfl
@[simp] theorem incCnt_lost (off : Nat) : (incCnt s off).lost = s.lost := rfl
@[simp] theorem incCnt_nameds (off : Nat) : (incCnt s off).nameds = s.nameds := rfl
@[simp] theorem incCnt_recallq (off : Nat) : (incCnt s off).recallq = s.recallq := rfl
@[simp] theorem incCnt_wbq (off : Nat) : (incCnt s off).wbq = s.wbq := rfl
@[simp] theorem incCnt_covers (off : Nat) : (incCnt s off).covers = s.covers := rfl
@[simp] theorem incCnt_restoreq (off : Nat) : (incCnt s off).restoreq = s.restoreq := rfl
@[simp] theorem incCnt_peerOuts (off : Nat) : (incCnt s off).peerOuts = s.peerOuts := rfl
@[simp] theorem incCnt_progs (off : Nat) : (incCnt s off).progs = s.progs := rfl
@[simp] theorem incCnt_dumps (off : Nat) : (incCnt s off).dumps = s.dumps := rfl
@[simp] theorem incCnt_tsWait (off : Nat) : (incCnt s off).tsWait = s.tsWait := rfl

@[simp] theorem regAdd_pending (off hi lo n : Nat) : (regAdd s off hi lo n).pending = s.pending := rfl
@[simp] theorem regAdd_mem (off hi lo n : Nat) : (regAdd s off hi lo n).mem = s.mem := rfl
@[simp] theorem regAdd_poison (off hi lo n : Nat) : (regAdd s off hi lo n).poison = s.poison := rfl
@[simp] theorem regAdd_counters (off hi lo n : Nat) : (regAdd s off hi lo n).counters = s.counters := rfl
@[simp] theorem regAdd_wins (off hi lo n : Nat) : (regAdd s off hi lo n).wins = s.wins := rfl
@[simp] theorem regAdd_areas (off hi lo n : Nat) : (regAdd s off hi lo n).areas = s.areas := rfl
@[simp] theorem regAdd_inj (off hi lo n : Nat) : (regAdd s off hi lo n).inj = s.inj := rfl
@[simp] theorem regAdd_out (off hi lo n : Nat) : (regAdd s off hi lo n).out = s.out := rfl
@[simp] theorem regAdd_free (off hi lo n : Nat) : (regAdd s off hi lo n).free = s.free := rfl
@[simp] theorem regAdd_seq (off hi lo n : Nat) : (regAdd s off hi lo n).seq = s.seq := rfl
@[simp] theorem regAdd_trk (off hi lo n : Nat) : (regAdd s off hi lo n).trk = s.trk := rfl
@[simp] theorem regAdd_retry (off hi lo n : Nat) : (regAdd s off hi lo n).retry = s.retry := rfl
@[simp] theorem regAdd_blockq (off hi lo n : Nat) : (regAdd s off hi lo n).blockq = s.blockq := rfl
@[simp] theorem regAdd_filt (off hi lo n : Nat) : (regAdd s off hi lo n).filt = s.filt := rfl
@[simp] theorem regAdd_dir (off hi lo n : Nat) : (regAdd s off hi lo n).dir = s.dir := rfl
@[simp] theorem regAdd_store (off hi lo n : Nat) : (regAdd s off hi lo n).store = s.store := rfl
@[simp] theorem regAdd_kernels (off hi lo n : Nat) : (regAdd s off hi lo n).kernels = s.kernels := rfl
@[simp] theorem regAdd_lathes (off hi lo n : Nat) : (regAdd s off hi lo n).lathes = s.lathes := rfl
@[simp] theorem regAdd_ctxs (off hi lo n : Nat) : (regAdd s off hi lo n).ctxs = s.ctxs := rfl
@[simp] theorem regAdd_kites (off hi lo n : Nat) : (regAdd s off hi lo n).kites = s.kites := rfl
@[simp] theorem regAdd_shadows (off hi lo n : Nat) : (regAdd s off hi lo n).shadows = s.shadows := rfl
@[simp] theorem regAdd_sess (off hi lo n : Nat) : (regAdd s off hi lo n).sess = s.sess := rfl
@[simp] theorem regAdd_reels (off hi lo n : Nat) : (regAdd s off hi lo n).reels = s.reels := rfl
@[simp] theorem regAdd_links (off hi lo n : Nat) : (regAdd s off hi lo n).links = s.links := rfl
@[simp] theorem regAdd_cells (off hi lo n : Nat) : (regAdd s off hi lo n).cells = s.cells := rfl
@[simp] theorem regAdd_fetches (off hi lo n : Nat) : (regAdd s off hi lo n).fetches = s.fetches := rfl
@[simp] theorem regAdd_freeFrames (off hi lo n : Nat) : (regAdd s off hi lo n).freeFrames = s.freeFrames := rfl
@[simp] theorem regAdd_dirtyFrames (off hi lo n : Nat) : (regAdd s off hi lo n).dirtyFrames = s.dirtyFrames := rfl
@[simp] theorem regAdd_cmpWait (off hi lo n : Nat) : (regAdd s off hi lo n).cmpWait = s.cmpWait := rfl
@[simp] theorem regAdd_tierCache (off hi lo n : Nat) : (regAdd s off hi lo n).tierCache = s.tierCache := rfl
@[simp] theorem regAdd_versions (off hi lo n : Nat) : (regAdd s off hi lo n).versions = s.versions := rfl
@[simp] theorem regAdd_stbyUp (off hi lo n : Nat) : (regAdd s off hi lo n).stbyUp = s.stbyUp := rfl
@[simp] theorem regAdd_mgmtOut (off hi lo n : Nat) : (regAdd s off hi lo n).mgmtOut = s.mgmtOut := rfl
@[simp] theorem regAdd_ballastQ (off hi lo n : Nat) : (regAdd s off hi lo n).ballastQ = s.ballastQ := rfl
@[simp] theorem regAdd_clocked (off hi lo n : Nat) : (regAdd s off hi lo n).clocked = s.clocked := rfl
@[simp] theorem regAdd_degraded (off hi lo n : Nat) : (regAdd s off hi lo n).degraded = s.degraded := rfl
@[simp] theorem regAdd_toRestore (off hi lo n : Nat) : (regAdd s off hi lo n).toRestore = s.toRestore := rfl
@[simp] theorem regAdd_lathQ (off hi lo n : Nat) : (regAdd s off hi lo n).lathQ = s.lathQ := rfl
@[simp] theorem regAdd_engQ (off hi lo n : Nat) : (regAdd s off hi lo n).engQ = s.engQ := rfl
@[simp] theorem regAdd_missq (off hi lo n : Nat) : (regAdd s off hi lo n).missq = s.missq := rfl
@[simp] theorem regAdd_pubs (off hi lo n : Nat) : (regAdd s off hi lo n).pubs = s.pubs := rfl
@[simp] theorem regAdd_lost (off hi lo n : Nat) : (regAdd s off hi lo n).lost = s.lost := rfl
@[simp] theorem regAdd_nameds (off hi lo n : Nat) : (regAdd s off hi lo n).nameds = s.nameds := rfl
@[simp] theorem regAdd_recallq (off hi lo n : Nat) : (regAdd s off hi lo n).recallq = s.recallq := rfl
@[simp] theorem regAdd_wbq (off hi lo n : Nat) : (regAdd s off hi lo n).wbq = s.wbq := rfl
@[simp] theorem regAdd_covers (off hi lo n : Nat) : (regAdd s off hi lo n).covers = s.covers := rfl
@[simp] theorem regAdd_restoreq (off hi lo n : Nat) : (regAdd s off hi lo n).restoreq = s.restoreq := rfl
@[simp] theorem regAdd_peerOuts (off hi lo n : Nat) : (regAdd s off hi lo n).peerOuts = s.peerOuts := rfl
@[simp] theorem regAdd_progs (off hi lo n : Nat) : (regAdd s off hi lo n).progs = s.progs := rfl
@[simp] theorem regAdd_dumps (off hi lo n : Nat) : (regAdd s off hi lo n).dumps = s.dumps := rfl
@[simp] theorem regAdd_tsWait (off hi lo n : Nat) : (regAdd s off hi lo n).tsWait = s.tsWait := rfl

@[simp] theorem regSub_pending (off hi lo n : Nat) : (regSub s off hi lo n).pending = s.pending := rfl
@[simp] theorem regSub_mem (off hi lo n : Nat) : (regSub s off hi lo n).mem = s.mem := rfl
@[simp] theorem regSub_poison (off hi lo n : Nat) : (regSub s off hi lo n).poison = s.poison := rfl
@[simp] theorem regSub_counters (off hi lo n : Nat) : (regSub s off hi lo n).counters = s.counters := rfl
@[simp] theorem regSub_wins (off hi lo n : Nat) : (regSub s off hi lo n).wins = s.wins := rfl
@[simp] theorem regSub_areas (off hi lo n : Nat) : (regSub s off hi lo n).areas = s.areas := rfl
@[simp] theorem regSub_inj (off hi lo n : Nat) : (regSub s off hi lo n).inj = s.inj := rfl
@[simp] theorem regSub_out (off hi lo n : Nat) : (regSub s off hi lo n).out = s.out := rfl
@[simp] theorem regSub_free (off hi lo n : Nat) : (regSub s off hi lo n).free = s.free := rfl
@[simp] theorem regSub_seq (off hi lo n : Nat) : (regSub s off hi lo n).seq = s.seq := rfl
@[simp] theorem regSub_trk (off hi lo n : Nat) : (regSub s off hi lo n).trk = s.trk := rfl
@[simp] theorem regSub_retry (off hi lo n : Nat) : (regSub s off hi lo n).retry = s.retry := rfl
@[simp] theorem regSub_blockq (off hi lo n : Nat) : (regSub s off hi lo n).blockq = s.blockq := rfl
@[simp] theorem regSub_filt (off hi lo n : Nat) : (regSub s off hi lo n).filt = s.filt := rfl
@[simp] theorem regSub_dir (off hi lo n : Nat) : (regSub s off hi lo n).dir = s.dir := rfl
@[simp] theorem regSub_store (off hi lo n : Nat) : (regSub s off hi lo n).store = s.store := rfl
@[simp] theorem regSub_kernels (off hi lo n : Nat) : (regSub s off hi lo n).kernels = s.kernels := rfl
@[simp] theorem regSub_lathes (off hi lo n : Nat) : (regSub s off hi lo n).lathes = s.lathes := rfl
@[simp] theorem regSub_ctxs (off hi lo n : Nat) : (regSub s off hi lo n).ctxs = s.ctxs := rfl
@[simp] theorem regSub_kites (off hi lo n : Nat) : (regSub s off hi lo n).kites = s.kites := rfl
@[simp] theorem regSub_shadows (off hi lo n : Nat) : (regSub s off hi lo n).shadows = s.shadows := rfl
@[simp] theorem regSub_sess (off hi lo n : Nat) : (regSub s off hi lo n).sess = s.sess := rfl
@[simp] theorem regSub_reels (off hi lo n : Nat) : (regSub s off hi lo n).reels = s.reels := rfl
@[simp] theorem regSub_links (off hi lo n : Nat) : (regSub s off hi lo n).links = s.links := rfl
@[simp] theorem regSub_cells (off hi lo n : Nat) : (regSub s off hi lo n).cells = s.cells := rfl
@[simp] theorem regSub_fetches (off hi lo n : Nat) : (regSub s off hi lo n).fetches = s.fetches := rfl
@[simp] theorem regSub_freeFrames (off hi lo n : Nat) : (regSub s off hi lo n).freeFrames = s.freeFrames := rfl
@[simp] theorem regSub_dirtyFrames (off hi lo n : Nat) : (regSub s off hi lo n).dirtyFrames = s.dirtyFrames := rfl
@[simp] theorem regSub_cmpWait (off hi lo n : Nat) : (regSub s off hi lo n).cmpWait = s.cmpWait := rfl
@[simp] theorem regSub_tierCache (off hi lo n : Nat) : (regSub s off hi lo n).tierCache = s.tierCache := rfl
@[simp] theorem regSub_versions (off hi lo n : Nat) : (regSub s off hi lo n).versions = s.versions := rfl
@[simp] theorem regSub_stbyUp (off hi lo n : Nat) : (regSub s off hi lo n).stbyUp = s.stbyUp := rfl
@[simp] theorem regSub_mgmtOut (off hi lo n : Nat) : (regSub s off hi lo n).mgmtOut = s.mgmtOut := rfl
@[simp] theorem regSub_ballastQ (off hi lo n : Nat) : (regSub s off hi lo n).ballastQ = s.ballastQ := rfl
@[simp] theorem regSub_clocked (off hi lo n : Nat) : (regSub s off hi lo n).clocked = s.clocked := rfl
@[simp] theorem regSub_degraded (off hi lo n : Nat) : (regSub s off hi lo n).degraded = s.degraded := rfl
@[simp] theorem regSub_toRestore (off hi lo n : Nat) : (regSub s off hi lo n).toRestore = s.toRestore := rfl
@[simp] theorem regSub_lathQ (off hi lo n : Nat) : (regSub s off hi lo n).lathQ = s.lathQ := rfl
@[simp] theorem regSub_engQ (off hi lo n : Nat) : (regSub s off hi lo n).engQ = s.engQ := rfl
@[simp] theorem regSub_missq (off hi lo n : Nat) : (regSub s off hi lo n).missq = s.missq := rfl
@[simp] theorem regSub_pubs (off hi lo n : Nat) : (regSub s off hi lo n).pubs = s.pubs := rfl
@[simp] theorem regSub_lost (off hi lo n : Nat) : (regSub s off hi lo n).lost = s.lost := rfl
@[simp] theorem regSub_nameds (off hi lo n : Nat) : (regSub s off hi lo n).nameds = s.nameds := rfl
@[simp] theorem regSub_recallq (off hi lo n : Nat) : (regSub s off hi lo n).recallq = s.recallq := rfl
@[simp] theorem regSub_wbq (off hi lo n : Nat) : (regSub s off hi lo n).wbq = s.wbq := rfl
@[simp] theorem regSub_covers (off hi lo n : Nat) : (regSub s off hi lo n).covers = s.covers := rfl
@[simp] theorem regSub_restoreq (off hi lo n : Nat) : (regSub s off hi lo n).restoreq = s.restoreq := rfl
@[simp] theorem regSub_peerOuts (off hi lo n : Nat) : (regSub s off hi lo n).peerOuts = s.peerOuts := rfl
@[simp] theorem regSub_progs (off hi lo n : Nat) : (regSub s off hi lo n).progs = s.progs := rfl
@[simp] theorem regSub_dumps (off hi lo n : Nat) : (regSub s off hi lo n).dumps = s.dumps := rfl
@[simp] theorem regSub_tsWait (off hi lo n : Nat) : (regSub s off hi lo n).tsWait = s.tsWait := rfl

@[simp] theorem send_pending (o : Out) : (send s o).pending = s.pending := rfl
@[simp] theorem send_regs (o : Out) : (send s o).regs = s.regs := rfl
@[simp] theorem send_mem (o : Out) : (send s o).mem = s.mem := rfl
@[simp] theorem send_poison (o : Out) : (send s o).poison = s.poison := rfl
@[simp] theorem send_counters (o : Out) : (send s o).counters = s.counters := rfl
@[simp] theorem send_wins (o : Out) : (send s o).wins = s.wins := rfl
@[simp] theorem send_areas (o : Out) : (send s o).areas = s.areas := rfl
@[simp] theorem send_inj (o : Out) : (send s o).inj = s.inj := rfl
@[simp] theorem send_free (o : Out) : (send s o).free = s.free := rfl
@[simp] theorem send_seq (o : Out) : (send s o).seq = s.seq := rfl
@[simp] theorem send_trk (o : Out) : (send s o).trk = s.trk := rfl
@[simp] theorem send_retry (o : Out) : (send s o).retry = s.retry := rfl
@[simp] theorem send_blockq (o : Out) : (send s o).blockq = s.blockq := rfl
@[simp] theorem send_filt (o : Out) : (send s o).filt = s.filt := rfl
@[simp] theorem send_dir (o : Out) : (send s o).dir = s.dir := rfl
@[simp] theorem send_store (o : Out) : (send s o).store = s.store := rfl
@[simp] theorem send_kernels (o : Out) : (send s o).kernels = s.kernels := rfl
@[simp] theorem send_lathes (o : Out) : (send s o).lathes = s.lathes := rfl
@[simp] theorem send_ctxs (o : Out) : (send s o).ctxs = s.ctxs := rfl
@[simp] theorem send_kites (o : Out) : (send s o).kites = s.kites := rfl
@[simp] theorem send_shadows (o : Out) : (send s o).shadows = s.shadows := rfl
@[simp] theorem send_sess (o : Out) : (send s o).sess = s.sess := rfl
@[simp] theorem send_reels (o : Out) : (send s o).reels = s.reels := rfl
@[simp] theorem send_links (o : Out) : (send s o).links = s.links := rfl
@[simp] theorem send_cells (o : Out) : (send s o).cells = s.cells := rfl
@[simp] theorem send_fetches (o : Out) : (send s o).fetches = s.fetches := rfl
@[simp] theorem send_freeFrames (o : Out) : (send s o).freeFrames = s.freeFrames := rfl
@[simp] theorem send_dirtyFrames (o : Out) : (send s o).dirtyFrames = s.dirtyFrames := rfl
@[simp] theorem send_cmpWait (o : Out) : (send s o).cmpWait = s.cmpWait := rfl
@[simp] theorem send_tierCache (o : Out) : (send s o).tierCache = s.tierCache := rfl
@[simp] theorem send_versions (o : Out) : (send s o).versions = s.versions := rfl
@[simp] theorem send_stbyUp (o : Out) : (send s o).stbyUp = s.stbyUp := rfl
@[simp] theorem send_mgmtOut (o : Out) : (send s o).mgmtOut = s.mgmtOut := rfl
@[simp] theorem send_ballastQ (o : Out) : (send s o).ballastQ = s.ballastQ := rfl
@[simp] theorem send_clocked (o : Out) : (send s o).clocked = s.clocked := rfl
@[simp] theorem send_degraded (o : Out) : (send s o).degraded = s.degraded := rfl
@[simp] theorem send_toRestore (o : Out) : (send s o).toRestore = s.toRestore := rfl
@[simp] theorem send_lathQ (o : Out) : (send s o).lathQ = s.lathQ := rfl
@[simp] theorem send_engQ (o : Out) : (send s o).engQ = s.engQ := rfl
@[simp] theorem send_missq (o : Out) : (send s o).missq = s.missq := rfl
@[simp] theorem send_pubs (o : Out) : (send s o).pubs = s.pubs := rfl
@[simp] theorem send_lost (o : Out) : (send s o).lost = s.lost := rfl
@[simp] theorem send_nameds (o : Out) : (send s o).nameds = s.nameds := rfl
@[simp] theorem send_recallq (o : Out) : (send s o).recallq = s.recallq := rfl
@[simp] theorem send_wbq (o : Out) : (send s o).wbq = s.wbq := rfl
@[simp] theorem send_covers (o : Out) : (send s o).covers = s.covers := rfl
@[simp] theorem send_restoreq (o : Out) : (send s o).restoreq = s.restoreq := rfl
@[simp] theorem send_peerOuts (o : Out) : (send s o).peerOuts = s.peerOuts := rfl
@[simp] theorem send_progs (o : Out) : (send s o).progs = s.progs := rfl
@[simp] theorem send_dumps (o : Out) : (send s o).dumps = s.dumps := rfl
@[simp] theorem send_tsWait (o : Out) : (send s o).tsWait = s.tsWait := rfl

@[simp] theorem armInj_pending (off kind arg : Nat) (p : Bool) : (armInj s off kind arg p).pending = s.pending := rfl
@[simp] theorem armInj_regs (off kind arg : Nat) (p : Bool) : (armInj s off kind arg p).regs = s.regs := rfl
@[simp] theorem armInj_mem (off kind arg : Nat) (p : Bool) : (armInj s off kind arg p).mem = s.mem := rfl
@[simp] theorem armInj_poison (off kind arg : Nat) (p : Bool) : (armInj s off kind arg p).poison = s.poison := rfl
@[simp] theorem armInj_counters (off kind arg : Nat) (p : Bool) : (armInj s off kind arg p).counters = s.counters := rfl
@[simp] theorem armInj_wins (off kind arg : Nat) (p : Bool) : (armInj s off kind arg p).wins = s.wins := rfl
@[simp] theorem armInj_areas (off kind arg : Nat) (p : Bool) : (armInj s off kind arg p).areas = s.areas := rfl
@[simp] theorem armInj_out (off kind arg : Nat) (p : Bool) : (armInj s off kind arg p).out = s.out := rfl
@[simp] theorem armInj_free (off kind arg : Nat) (p : Bool) : (armInj s off kind arg p).free = s.free := rfl
@[simp] theorem armInj_seq (off kind arg : Nat) (p : Bool) : (armInj s off kind arg p).seq = s.seq := rfl
@[simp] theorem armInj_trk (off kind arg : Nat) (p : Bool) : (armInj s off kind arg p).trk = s.trk := rfl
@[simp] theorem armInj_retry (off kind arg : Nat) (p : Bool) : (armInj s off kind arg p).retry = s.retry := rfl
@[simp] theorem armInj_blockq (off kind arg : Nat) (p : Bool) : (armInj s off kind arg p).blockq = s.blockq := rfl
@[simp] theorem armInj_filt (off kind arg : Nat) (p : Bool) : (armInj s off kind arg p).filt = s.filt := rfl
@[simp] theorem armInj_dir (off kind arg : Nat) (p : Bool) : (armInj s off kind arg p).dir = s.dir := rfl
@[simp] theorem armInj_store (off kind arg : Nat) (p : Bool) : (armInj s off kind arg p).store = s.store := rfl
@[simp] theorem armInj_kernels (off kind arg : Nat) (p : Bool) : (armInj s off kind arg p).kernels = s.kernels := rfl
@[simp] theorem armInj_lathes (off kind arg : Nat) (p : Bool) : (armInj s off kind arg p).lathes = s.lathes := rfl
@[simp] theorem armInj_ctxs (off kind arg : Nat) (p : Bool) : (armInj s off kind arg p).ctxs = s.ctxs := rfl
@[simp] theorem armInj_kites (off kind arg : Nat) (p : Bool) : (armInj s off kind arg p).kites = s.kites := rfl
@[simp] theorem armInj_shadows (off kind arg : Nat) (p : Bool) : (armInj s off kind arg p).shadows = s.shadows := rfl
@[simp] theorem armInj_sess (off kind arg : Nat) (p : Bool) : (armInj s off kind arg p).sess = s.sess := rfl
@[simp] theorem armInj_reels (off kind arg : Nat) (p : Bool) : (armInj s off kind arg p).reels = s.reels := rfl
@[simp] theorem armInj_links (off kind arg : Nat) (p : Bool) : (armInj s off kind arg p).links = s.links := rfl
@[simp] theorem armInj_cells (off kind arg : Nat) (p : Bool) : (armInj s off kind arg p).cells = s.cells := rfl
@[simp] theorem armInj_fetches (off kind arg : Nat) (p : Bool) : (armInj s off kind arg p).fetches = s.fetches := rfl
@[simp] theorem armInj_freeFrames (off kind arg : Nat) (p : Bool) : (armInj s off kind arg p).freeFrames = s.freeFrames := rfl
@[simp] theorem armInj_dirtyFrames (off kind arg : Nat) (p : Bool) : (armInj s off kind arg p).dirtyFrames = s.dirtyFrames := rfl
@[simp] theorem armInj_cmpWait (off kind arg : Nat) (p : Bool) : (armInj s off kind arg p).cmpWait = s.cmpWait := rfl
@[simp] theorem armInj_tierCache (off kind arg : Nat) (p : Bool) : (armInj s off kind arg p).tierCache = s.tierCache := rfl
@[simp] theorem armInj_versions (off kind arg : Nat) (p : Bool) : (armInj s off kind arg p).versions = s.versions := rfl
@[simp] theorem armInj_stbyUp (off kind arg : Nat) (p : Bool) : (armInj s off kind arg p).stbyUp = s.stbyUp := rfl
@[simp] theorem armInj_mgmtOut (off kind arg : Nat) (p : Bool) : (armInj s off kind arg p).mgmtOut = s.mgmtOut := rfl
@[simp] theorem armInj_ballastQ (off kind arg : Nat) (p : Bool) : (armInj s off kind arg p).ballastQ = s.ballastQ := rfl
@[simp] theorem armInj_clocked (off kind arg : Nat) (p : Bool) : (armInj s off kind arg p).clocked = s.clocked := rfl
@[simp] theorem armInj_degraded (off kind arg : Nat) (p : Bool) : (armInj s off kind arg p).degraded = s.degraded := rfl
@[simp] theorem armInj_toRestore (off kind arg : Nat) (p : Bool) : (armInj s off kind arg p).toRestore = s.toRestore := rfl
@[simp] theorem armInj_lathQ (off kind arg : Nat) (p : Bool) : (armInj s off kind arg p).lathQ = s.lathQ := rfl
@[simp] theorem armInj_engQ (off kind arg : Nat) (p : Bool) : (armInj s off kind arg p).engQ = s.engQ := rfl
@[simp] theorem armInj_missq (off kind arg : Nat) (p : Bool) : (armInj s off kind arg p).missq = s.missq := rfl
@[simp] theorem armInj_pubs (off kind arg : Nat) (p : Bool) : (armInj s off kind arg p).pubs = s.pubs := rfl
@[simp] theorem armInj_lost (off kind arg : Nat) (p : Bool) : (armInj s off kind arg p).lost = s.lost := rfl
@[simp] theorem armInj_nameds (off kind arg : Nat) (p : Bool) : (armInj s off kind arg p).nameds = s.nameds := rfl
@[simp] theorem armInj_recallq (off kind arg : Nat) (p : Bool) : (armInj s off kind arg p).recallq = s.recallq := rfl
@[simp] theorem armInj_wbq (off kind arg : Nat) (p : Bool) : (armInj s off kind arg p).wbq = s.wbq := rfl
@[simp] theorem armInj_covers (off kind arg : Nat) (p : Bool) : (armInj s off kind arg p).covers = s.covers := rfl
@[simp] theorem armInj_restoreq (off kind arg : Nat) (p : Bool) : (armInj s off kind arg p).restoreq = s.restoreq := rfl
@[simp] theorem armInj_peerOuts (off kind arg : Nat) (p : Bool) : (armInj s off kind arg p).peerOuts = s.peerOuts := rfl
@[simp] theorem armInj_progs (off kind arg : Nat) (p : Bool) : (armInj s off kind arg p).progs = s.progs := rfl
@[simp] theorem armInj_dumps (off kind arg : Nat) (p : Bool) : (armInj s off kind arg p).dumps = s.dumps := rfl
@[simp] theorem armInj_tsWait (off kind arg : Nat) (p : Bool) : (armInj s off kind arg p).tsWait = s.tsWait := rfl

@[simp] theorem clearInj_pending (off : Nat) : (clearInj s off).pending = s.pending := rfl
@[simp] theorem clearInj_regs (off : Nat) : (clearInj s off).regs = s.regs := rfl
@[simp] theorem clearInj_mem (off : Nat) : (clearInj s off).mem = s.mem := rfl
@[simp] theorem clearInj_poison (off : Nat) : (clearInj s off).poison = s.poison := rfl
@[simp] theorem clearInj_counters (off : Nat) : (clearInj s off).counters = s.counters := rfl
@[simp] theorem clearInj_wins (off : Nat) : (clearInj s off).wins = s.wins := rfl
@[simp] theorem clearInj_areas (off : Nat) : (clearInj s off).areas = s.areas := rfl
@[simp] theorem clearInj_out (off : Nat) : (clearInj s off).out = s.out := rfl
@[simp] theorem clearInj_free (off : Nat) : (clearInj s off).free = s.free := rfl
@[simp] theorem clearInj_seq (off : Nat) : (clearInj s off).seq = s.seq := rfl
@[simp] theorem clearInj_trk (off : Nat) : (clearInj s off).trk = s.trk := rfl
@[simp] theorem clearInj_retry (off : Nat) : (clearInj s off).retry = s.retry := rfl
@[simp] theorem clearInj_blockq (off : Nat) : (clearInj s off).blockq = s.blockq := rfl
@[simp] theorem clearInj_filt (off : Nat) : (clearInj s off).filt = s.filt := rfl
@[simp] theorem clearInj_dir (off : Nat) : (clearInj s off).dir = s.dir := rfl
@[simp] theorem clearInj_store (off : Nat) : (clearInj s off).store = s.store := rfl
@[simp] theorem clearInj_kernels (off : Nat) : (clearInj s off).kernels = s.kernels := rfl
@[simp] theorem clearInj_lathes (off : Nat) : (clearInj s off).lathes = s.lathes := rfl
@[simp] theorem clearInj_ctxs (off : Nat) : (clearInj s off).ctxs = s.ctxs := rfl
@[simp] theorem clearInj_kites (off : Nat) : (clearInj s off).kites = s.kites := rfl
@[simp] theorem clearInj_shadows (off : Nat) : (clearInj s off).shadows = s.shadows := rfl
@[simp] theorem clearInj_sess (off : Nat) : (clearInj s off).sess = s.sess := rfl
@[simp] theorem clearInj_reels (off : Nat) : (clearInj s off).reels = s.reels := rfl
@[simp] theorem clearInj_links (off : Nat) : (clearInj s off).links = s.links := rfl
@[simp] theorem clearInj_cells (off : Nat) : (clearInj s off).cells = s.cells := rfl
@[simp] theorem clearInj_fetches (off : Nat) : (clearInj s off).fetches = s.fetches := rfl
@[simp] theorem clearInj_freeFrames (off : Nat) : (clearInj s off).freeFrames = s.freeFrames := rfl
@[simp] theorem clearInj_dirtyFrames (off : Nat) : (clearInj s off).dirtyFrames = s.dirtyFrames := rfl
@[simp] theorem clearInj_cmpWait (off : Nat) : (clearInj s off).cmpWait = s.cmpWait := rfl
@[simp] theorem clearInj_tierCache (off : Nat) : (clearInj s off).tierCache = s.tierCache := rfl
@[simp] theorem clearInj_versions (off : Nat) : (clearInj s off).versions = s.versions := rfl
@[simp] theorem clearInj_stbyUp (off : Nat) : (clearInj s off).stbyUp = s.stbyUp := rfl
@[simp] theorem clearInj_mgmtOut (off : Nat) : (clearInj s off).mgmtOut = s.mgmtOut := rfl
@[simp] theorem clearInj_ballastQ (off : Nat) : (clearInj s off).ballastQ = s.ballastQ := rfl
@[simp] theorem clearInj_clocked (off : Nat) : (clearInj s off).clocked = s.clocked := rfl
@[simp] theorem clearInj_degraded (off : Nat) : (clearInj s off).degraded = s.degraded := rfl
@[simp] theorem clearInj_toRestore (off : Nat) : (clearInj s off).toRestore = s.toRestore := rfl
@[simp] theorem clearInj_lathQ (off : Nat) : (clearInj s off).lathQ = s.lathQ := rfl
@[simp] theorem clearInj_engQ (off : Nat) : (clearInj s off).engQ = s.engQ := rfl
@[simp] theorem clearInj_missq (off : Nat) : (clearInj s off).missq = s.missq := rfl
@[simp] theorem clearInj_pubs (off : Nat) : (clearInj s off).pubs = s.pubs := rfl
@[simp] theorem clearInj_lost (off : Nat) : (clearInj s off).lost = s.lost := rfl
@[simp] theorem clearInj_nameds (off : Nat) : (clearInj s off).nameds = s.nameds := rfl
@[simp] theorem clearInj_recallq (off : Nat) : (clearInj s off).recallq = s.recallq := rfl
@[simp] theorem clearInj_wbq (off : Nat) : (clearInj s off).wbq = s.wbq := rfl
@[simp] theorem clearInj_covers (off : Nat) : (clearInj s off).covers = s.covers := rfl
@[simp] theorem clearInj_restoreq (off : Nat) : (clearInj s off).restoreq = s.restoreq := rfl
@[simp] theorem clearInj_peerOuts (off : Nat) : (clearInj s off).peerOuts = s.peerOuts := rfl
@[simp] theorem clearInj_progs (off : Nat) : (clearInj s off).progs = s.progs := rfl
@[simp] theorem clearInj_dumps (off : Nat) : (clearInj s off).dumps = s.dumps := rfl
@[simp] theorem clearInj_tsWait (off : Nat) : (clearInj s off).tsWait = s.tsWait := rfl

@[simp] theorem putLathe_pending (l : Nat) (x : Lathe) : (putLathe s l x).pending = s.pending := rfl
@[simp] theorem putLathe_regs (l : Nat) (x : Lathe) : (putLathe s l x).regs = s.regs := rfl
@[simp] theorem putLathe_mem (l : Nat) (x : Lathe) : (putLathe s l x).mem = s.mem := rfl
@[simp] theorem putLathe_poison (l : Nat) (x : Lathe) : (putLathe s l x).poison = s.poison := rfl
@[simp] theorem putLathe_counters (l : Nat) (x : Lathe) : (putLathe s l x).counters = s.counters := rfl
@[simp] theorem putLathe_wins (l : Nat) (x : Lathe) : (putLathe s l x).wins = s.wins := rfl
@[simp] theorem putLathe_areas (l : Nat) (x : Lathe) : (putLathe s l x).areas = s.areas := rfl
@[simp] theorem putLathe_inj (l : Nat) (x : Lathe) : (putLathe s l x).inj = s.inj := rfl
@[simp] theorem putLathe_out (l : Nat) (x : Lathe) : (putLathe s l x).out = s.out := rfl
@[simp] theorem putLathe_free (l : Nat) (x : Lathe) : (putLathe s l x).free = s.free := rfl
@[simp] theorem putLathe_seq (l : Nat) (x : Lathe) : (putLathe s l x).seq = s.seq := rfl
@[simp] theorem putLathe_trk (l : Nat) (x : Lathe) : (putLathe s l x).trk = s.trk := rfl
@[simp] theorem putLathe_retry (l : Nat) (x : Lathe) : (putLathe s l x).retry = s.retry := rfl
@[simp] theorem putLathe_blockq (l : Nat) (x : Lathe) : (putLathe s l x).blockq = s.blockq := rfl
@[simp] theorem putLathe_filt (l : Nat) (x : Lathe) : (putLathe s l x).filt = s.filt := rfl
@[simp] theorem putLathe_dir (l : Nat) (x : Lathe) : (putLathe s l x).dir = s.dir := rfl
@[simp] theorem putLathe_store (l : Nat) (x : Lathe) : (putLathe s l x).store = s.store := rfl
@[simp] theorem putLathe_kernels (l : Nat) (x : Lathe) : (putLathe s l x).kernels = s.kernels := rfl
@[simp] theorem putLathe_ctxs (l : Nat) (x : Lathe) : (putLathe s l x).ctxs = s.ctxs := rfl
@[simp] theorem putLathe_kites (l : Nat) (x : Lathe) : (putLathe s l x).kites = s.kites := rfl
@[simp] theorem putLathe_shadows (l : Nat) (x : Lathe) : (putLathe s l x).shadows = s.shadows := rfl
@[simp] theorem putLathe_sess (l : Nat) (x : Lathe) : (putLathe s l x).sess = s.sess := rfl
@[simp] theorem putLathe_reels (l : Nat) (x : Lathe) : (putLathe s l x).reels = s.reels := rfl
@[simp] theorem putLathe_links (l : Nat) (x : Lathe) : (putLathe s l x).links = s.links := rfl
@[simp] theorem putLathe_cells (l : Nat) (x : Lathe) : (putLathe s l x).cells = s.cells := rfl
@[simp] theorem putLathe_fetches (l : Nat) (x : Lathe) : (putLathe s l x).fetches = s.fetches := rfl
@[simp] theorem putLathe_freeFrames (l : Nat) (x : Lathe) : (putLathe s l x).freeFrames = s.freeFrames := rfl
@[simp] theorem putLathe_dirtyFrames (l : Nat) (x : Lathe) : (putLathe s l x).dirtyFrames = s.dirtyFrames := rfl
@[simp] theorem putLathe_cmpWait (l : Nat) (x : Lathe) : (putLathe s l x).cmpWait = s.cmpWait := rfl
@[simp] theorem putLathe_tierCache (l : Nat) (x : Lathe) : (putLathe s l x).tierCache = s.tierCache := rfl
@[simp] theorem putLathe_versions (l : Nat) (x : Lathe) : (putLathe s l x).versions = s.versions := rfl
@[simp] theorem putLathe_stbyUp (l : Nat) (x : Lathe) : (putLathe s l x).stbyUp = s.stbyUp := rfl
@[simp] theorem putLathe_mgmtOut (l : Nat) (x : Lathe) : (putLathe s l x).mgmtOut = s.mgmtOut := rfl
@[simp] theorem putLathe_ballastQ (l : Nat) (x : Lathe) : (putLathe s l x).ballastQ = s.ballastQ := rfl
@[simp] theorem putLathe_clocked (l : Nat) (x : Lathe) : (putLathe s l x).clocked = s.clocked := rfl
@[simp] theorem putLathe_degraded (l : Nat) (x : Lathe) : (putLathe s l x).degraded = s.degraded := rfl
@[simp] theorem putLathe_toRestore (l : Nat) (x : Lathe) : (putLathe s l x).toRestore = s.toRestore := rfl
@[simp] theorem putLathe_lathQ (l : Nat) (x : Lathe) : (putLathe s l x).lathQ = s.lathQ := rfl
@[simp] theorem putLathe_engQ (l : Nat) (x : Lathe) : (putLathe s l x).engQ = s.engQ := rfl
@[simp] theorem putLathe_missq (l : Nat) (x : Lathe) : (putLathe s l x).missq = s.missq := rfl
@[simp] theorem putLathe_pubs (l : Nat) (x : Lathe) : (putLathe s l x).pubs = s.pubs := rfl
@[simp] theorem putLathe_lost (l : Nat) (x : Lathe) : (putLathe s l x).lost = s.lost := rfl
@[simp] theorem putLathe_nameds (l : Nat) (x : Lathe) : (putLathe s l x).nameds = s.nameds := rfl
@[simp] theorem putLathe_recallq (l : Nat) (x : Lathe) : (putLathe s l x).recallq = s.recallq := rfl
@[simp] theorem putLathe_wbq (l : Nat) (x : Lathe) : (putLathe s l x).wbq = s.wbq := rfl
@[simp] theorem putLathe_covers (l : Nat) (x : Lathe) : (putLathe s l x).covers = s.covers := rfl
@[simp] theorem putLathe_restoreq (l : Nat) (x : Lathe) : (putLathe s l x).restoreq = s.restoreq := rfl
@[simp] theorem putLathe_peerOuts (l : Nat) (x : Lathe) : (putLathe s l x).peerOuts = s.peerOuts := rfl
@[simp] theorem putLathe_progs (l : Nat) (x : Lathe) : (putLathe s l x).progs = s.progs := rfl
@[simp] theorem putLathe_dumps (l : Nat) (x : Lathe) : (putLathe s l x).dumps = s.dumps := rfl
@[simp] theorem putLathe_tsWait (l : Nat) (x : Lathe) : (putLathe s l x).tsWait = s.tsWait := rfl

@[simp] theorem putCtx_pending (n : Nat) (c : Ctx) : (putCtx s n c).pending = s.pending := rfl
@[simp] theorem putCtx_regs (n : Nat) (c : Ctx) : (putCtx s n c).regs = s.regs := rfl
@[simp] theorem putCtx_mem (n : Nat) (c : Ctx) : (putCtx s n c).mem = s.mem := rfl
@[simp] theorem putCtx_poison (n : Nat) (c : Ctx) : (putCtx s n c).poison = s.poison := rfl
@[simp] theorem putCtx_counters (n : Nat) (c : Ctx) : (putCtx s n c).counters = s.counters := rfl
@[simp] theorem putCtx_wins (n : Nat) (c : Ctx) : (putCtx s n c).wins = s.wins := rfl
@[simp] theorem putCtx_areas (n : Nat) (c : Ctx) : (putCtx s n c).areas = s.areas := rfl
@[simp] theorem putCtx_inj (n : Nat) (c : Ctx) : (putCtx s n c).inj = s.inj := rfl
@[simp] theorem putCtx_out (n : Nat) (c : Ctx) : (putCtx s n c).out = s.out := rfl
@[simp] theorem putCtx_free (n : Nat) (c : Ctx) : (putCtx s n c).free = s.free := rfl
@[simp] theorem putCtx_seq (n : Nat) (c : Ctx) : (putCtx s n c).seq = s.seq := rfl
@[simp] theorem putCtx_trk (n : Nat) (c : Ctx) : (putCtx s n c).trk = s.trk := rfl
@[simp] theorem putCtx_retry (n : Nat) (c : Ctx) : (putCtx s n c).retry = s.retry := rfl
@[simp] theorem putCtx_blockq (n : Nat) (c : Ctx) : (putCtx s n c).blockq = s.blockq := rfl
@[simp] theorem putCtx_filt (n : Nat) (c : Ctx) : (putCtx s n c).filt = s.filt := rfl
@[simp] theorem putCtx_dir (n : Nat) (c : Ctx) : (putCtx s n c).dir = s.dir := rfl
@[simp] theorem putCtx_store (n : Nat) (c : Ctx) : (putCtx s n c).store = s.store := rfl
@[simp] theorem putCtx_kernels (n : Nat) (c : Ctx) : (putCtx s n c).kernels = s.kernels := rfl
@[simp] theorem putCtx_lathes (n : Nat) (c : Ctx) : (putCtx s n c).lathes = s.lathes := rfl
@[simp] theorem putCtx_kites (n : Nat) (c : Ctx) : (putCtx s n c).kites = s.kites := rfl
@[simp] theorem putCtx_shadows (n : Nat) (c : Ctx) : (putCtx s n c).shadows = s.shadows := rfl
@[simp] theorem putCtx_sess (n : Nat) (c : Ctx) : (putCtx s n c).sess = s.sess := rfl
@[simp] theorem putCtx_reels (n : Nat) (c : Ctx) : (putCtx s n c).reels = s.reels := rfl
@[simp] theorem putCtx_links (n : Nat) (c : Ctx) : (putCtx s n c).links = s.links := rfl
@[simp] theorem putCtx_cells (n : Nat) (c : Ctx) : (putCtx s n c).cells = s.cells := rfl
@[simp] theorem putCtx_fetches (n : Nat) (c : Ctx) : (putCtx s n c).fetches = s.fetches := rfl
@[simp] theorem putCtx_freeFrames (n : Nat) (c : Ctx) : (putCtx s n c).freeFrames = s.freeFrames := rfl
@[simp] theorem putCtx_dirtyFrames (n : Nat) (c : Ctx) : (putCtx s n c).dirtyFrames = s.dirtyFrames := rfl
@[simp] theorem putCtx_cmpWait (n : Nat) (c : Ctx) : (putCtx s n c).cmpWait = s.cmpWait := rfl
@[simp] theorem putCtx_tierCache (n : Nat) (c : Ctx) : (putCtx s n c).tierCache = s.tierCache := rfl
@[simp] theorem putCtx_versions (n : Nat) (c : Ctx) : (putCtx s n c).versions = s.versions := rfl
@[simp] theorem putCtx_stbyUp (n : Nat) (c : Ctx) : (putCtx s n c).stbyUp = s.stbyUp := rfl
@[simp] theorem putCtx_mgmtOut (n : Nat) (c : Ctx) : (putCtx s n c).mgmtOut = s.mgmtOut := rfl
@[simp] theorem putCtx_ballastQ (n : Nat) (c : Ctx) : (putCtx s n c).ballastQ = s.ballastQ := rfl
@[simp] theorem putCtx_clocked (n : Nat) (c : Ctx) : (putCtx s n c).clocked = s.clocked := rfl
@[simp] theorem putCtx_degraded (n : Nat) (c : Ctx) : (putCtx s n c).degraded = s.degraded := rfl
@[simp] theorem putCtx_toRestore (n : Nat) (c : Ctx) : (putCtx s n c).toRestore = s.toRestore := rfl
@[simp] theorem putCtx_lathQ (n : Nat) (c : Ctx) : (putCtx s n c).lathQ = s.lathQ := rfl
@[simp] theorem putCtx_engQ (n : Nat) (c : Ctx) : (putCtx s n c).engQ = s.engQ := rfl
@[simp] theorem putCtx_missq (n : Nat) (c : Ctx) : (putCtx s n c).missq = s.missq := rfl
@[simp] theorem putCtx_pubs (n : Nat) (c : Ctx) : (putCtx s n c).pubs = s.pubs := rfl
@[simp] theorem putCtx_lost (n : Nat) (c : Ctx) : (putCtx s n c).lost = s.lost := rfl
@[simp] theorem putCtx_nameds (n : Nat) (c : Ctx) : (putCtx s n c).nameds = s.nameds := rfl
@[simp] theorem putCtx_recallq (n : Nat) (c : Ctx) : (putCtx s n c).recallq = s.recallq := rfl
@[simp] theorem putCtx_wbq (n : Nat) (c : Ctx) : (putCtx s n c).wbq = s.wbq := rfl
@[simp] theorem putCtx_covers (n : Nat) (c : Ctx) : (putCtx s n c).covers = s.covers := rfl
@[simp] theorem putCtx_restoreq (n : Nat) (c : Ctx) : (putCtx s n c).restoreq = s.restoreq := rfl
@[simp] theorem putCtx_peerOuts (n : Nat) (c : Ctx) : (putCtx s n c).peerOuts = s.peerOuts := rfl
@[simp] theorem putCtx_progs (n : Nat) (c : Ctx) : (putCtx s n c).progs = s.progs := rfl
@[simp] theorem putCtx_dumps (n : Nat) (c : Ctx) : (putCtx s n c).dumps = s.dumps := rfl
@[simp] theorem putCtx_tsWait (n : Nat) (c : Ctx) : (putCtx s n c).tsWait = s.tsWait := rfl

@[simp] theorem putKite_pending (n : Nat) (c : Ctx) : (putKite s n c).pending = s.pending := rfl
@[simp] theorem putKite_regs (n : Nat) (c : Ctx) : (putKite s n c).regs = s.regs := rfl
@[simp] theorem putKite_mem (n : Nat) (c : Ctx) : (putKite s n c).mem = s.mem := rfl
@[simp] theorem putKite_poison (n : Nat) (c : Ctx) : (putKite s n c).poison = s.poison := rfl
@[simp] theorem putKite_counters (n : Nat) (c : Ctx) : (putKite s n c).counters = s.counters := rfl
@[simp] theorem putKite_wins (n : Nat) (c : Ctx) : (putKite s n c).wins = s.wins := rfl
@[simp] theorem putKite_areas (n : Nat) (c : Ctx) : (putKite s n c).areas = s.areas := rfl
@[simp] theorem putKite_inj (n : Nat) (c : Ctx) : (putKite s n c).inj = s.inj := rfl
@[simp] theorem putKite_out (n : Nat) (c : Ctx) : (putKite s n c).out = s.out := rfl
@[simp] theorem putKite_free (n : Nat) (c : Ctx) : (putKite s n c).free = s.free := rfl
@[simp] theorem putKite_seq (n : Nat) (c : Ctx) : (putKite s n c).seq = s.seq := rfl
@[simp] theorem putKite_trk (n : Nat) (c : Ctx) : (putKite s n c).trk = s.trk := rfl
@[simp] theorem putKite_retry (n : Nat) (c : Ctx) : (putKite s n c).retry = s.retry := rfl
@[simp] theorem putKite_blockq (n : Nat) (c : Ctx) : (putKite s n c).blockq = s.blockq := rfl
@[simp] theorem putKite_filt (n : Nat) (c : Ctx) : (putKite s n c).filt = s.filt := rfl
@[simp] theorem putKite_dir (n : Nat) (c : Ctx) : (putKite s n c).dir = s.dir := rfl
@[simp] theorem putKite_store (n : Nat) (c : Ctx) : (putKite s n c).store = s.store := rfl
@[simp] theorem putKite_kernels (n : Nat) (c : Ctx) : (putKite s n c).kernels = s.kernels := rfl
@[simp] theorem putKite_lathes (n : Nat) (c : Ctx) : (putKite s n c).lathes = s.lathes := rfl
@[simp] theorem putKite_ctxs (n : Nat) (c : Ctx) : (putKite s n c).ctxs = s.ctxs := rfl
@[simp] theorem putKite_shadows (n : Nat) (c : Ctx) : (putKite s n c).shadows = s.shadows := rfl
@[simp] theorem putKite_sess (n : Nat) (c : Ctx) : (putKite s n c).sess = s.sess := rfl
@[simp] theorem putKite_reels (n : Nat) (c : Ctx) : (putKite s n c).reels = s.reels := rfl
@[simp] theorem putKite_links (n : Nat) (c : Ctx) : (putKite s n c).links = s.links := rfl
@[simp] theorem putKite_cells (n : Nat) (c : Ctx) : (putKite s n c).cells = s.cells := rfl
@[simp] theorem putKite_fetches (n : Nat) (c : Ctx) : (putKite s n c).fetches = s.fetches := rfl
@[simp] theorem putKite_freeFrames (n : Nat) (c : Ctx) : (putKite s n c).freeFrames = s.freeFrames := rfl
@[simp] theorem putKite_dirtyFrames (n : Nat) (c : Ctx) : (putKite s n c).dirtyFrames = s.dirtyFrames := rfl
@[simp] theorem putKite_cmpWait (n : Nat) (c : Ctx) : (putKite s n c).cmpWait = s.cmpWait := rfl
@[simp] theorem putKite_tierCache (n : Nat) (c : Ctx) : (putKite s n c).tierCache = s.tierCache := rfl
@[simp] theorem putKite_versions (n : Nat) (c : Ctx) : (putKite s n c).versions = s.versions := rfl
@[simp] theorem putKite_stbyUp (n : Nat) (c : Ctx) : (putKite s n c).stbyUp = s.stbyUp := rfl
@[simp] theorem putKite_mgmtOut (n : Nat) (c : Ctx) : (putKite s n c).mgmtOut = s.mgmtOut := rfl
@[simp] theorem putKite_ballastQ (n : Nat) (c : Ctx) : (putKite s n c).ballastQ = s.ballastQ := rfl
@[simp] theorem putKite_clocked (n : Nat) (c : Ctx) : (putKite s n c).clocked = s.clocked := rfl
@[simp] theorem putKite_degraded (n : Nat) (c : Ctx) : (putKite s n c).degraded = s.degraded := rfl
@[simp] theorem putKite_toRestore (n : Nat) (c : Ctx) : (putKite s n c).toRestore = s.toRestore := rfl
@[simp] theorem putKite_lathQ (n : Nat) (c : Ctx) : (putKite s n c).lathQ = s.lathQ := rfl
@[simp] theorem putKite_engQ (n : Nat) (c : Ctx) : (putKite s n c).engQ = s.engQ := rfl
@[simp] theorem putKite_missq (n : Nat) (c : Ctx) : (putKite s n c).missq = s.missq := rfl
@[simp] theorem putKite_pubs (n : Nat) (c : Ctx) : (putKite s n c).pubs = s.pubs := rfl
@[simp] theorem putKite_lost (n : Nat) (c : Ctx) : (putKite s n c).lost = s.lost := rfl
@[simp] theorem putKite_nameds (n : Nat) (c : Ctx) : (putKite s n c).nameds = s.nameds := rfl
@[simp] theorem putKite_recallq (n : Nat) (c : Ctx) : (putKite s n c).recallq = s.recallq := rfl
@[simp] theorem putKite_wbq (n : Nat) (c : Ctx) : (putKite s n c).wbq = s.wbq := rfl
@[simp] theorem putKite_covers (n : Nat) (c : Ctx) : (putKite s n c).covers = s.covers := rfl
@[simp] theorem putKite_restoreq (n : Nat) (c : Ctx) : (putKite s n c).restoreq = s.restoreq := rfl
@[simp] theorem putKite_peerOuts (n : Nat) (c : Ctx) : (putKite s n c).peerOuts = s.peerOuts := rfl
@[simp] theorem putKite_progs (n : Nat) (c : Ctx) : (putKite s n c).progs = s.progs := rfl
@[simp] theorem putKite_dumps (n : Nat) (c : Ctx) : (putKite s n c).dumps = s.dumps := rfl
@[simp] theorem putKite_tsWait (n : Nat) (c : Ctx) : (putKite s n c).tsWait = s.tsWait := rfl

@[simp] theorem setCounter_pending (k : Nat) (v : Word) : (setCounter s k v).pending = s.pending := rfl
@[simp] theorem setCounter_regs (k : Nat) (v : Word) : (setCounter s k v).regs = s.regs := rfl
@[simp] theorem setCounter_mem (k : Nat) (v : Word) : (setCounter s k v).mem = s.mem := rfl
@[simp] theorem setCounter_poison (k : Nat) (v : Word) : (setCounter s k v).poison = s.poison := rfl
@[simp] theorem setCounter_wins (k : Nat) (v : Word) : (setCounter s k v).wins = s.wins := rfl
@[simp] theorem setCounter_areas (k : Nat) (v : Word) : (setCounter s k v).areas = s.areas := rfl
@[simp] theorem setCounter_inj (k : Nat) (v : Word) : (setCounter s k v).inj = s.inj := rfl
@[simp] theorem setCounter_out (k : Nat) (v : Word) : (setCounter s k v).out = s.out := rfl
@[simp] theorem setCounter_free (k : Nat) (v : Word) : (setCounter s k v).free = s.free := rfl
@[simp] theorem setCounter_seq (k : Nat) (v : Word) : (setCounter s k v).seq = s.seq := rfl
@[simp] theorem setCounter_trk (k : Nat) (v : Word) : (setCounter s k v).trk = s.trk := rfl
@[simp] theorem setCounter_retry (k : Nat) (v : Word) : (setCounter s k v).retry = s.retry := rfl
@[simp] theorem setCounter_blockq (k : Nat) (v : Word) : (setCounter s k v).blockq = s.blockq := rfl
@[simp] theorem setCounter_filt (k : Nat) (v : Word) : (setCounter s k v).filt = s.filt := rfl
@[simp] theorem setCounter_dir (k : Nat) (v : Word) : (setCounter s k v).dir = s.dir := rfl
@[simp] theorem setCounter_store (k : Nat) (v : Word) : (setCounter s k v).store = s.store := rfl
@[simp] theorem setCounter_kernels (k : Nat) (v : Word) : (setCounter s k v).kernels = s.kernels := rfl
@[simp] theorem setCounter_lathes (k : Nat) (v : Word) : (setCounter s k v).lathes = s.lathes := rfl
@[simp] theorem setCounter_ctxs (k : Nat) (v : Word) : (setCounter s k v).ctxs = s.ctxs := rfl
@[simp] theorem setCounter_kites (k : Nat) (v : Word) : (setCounter s k v).kites = s.kites := rfl
@[simp] theorem setCounter_shadows (k : Nat) (v : Word) : (setCounter s k v).shadows = s.shadows := rfl
@[simp] theorem setCounter_sess (k : Nat) (v : Word) : (setCounter s k v).sess = s.sess := rfl
@[simp] theorem setCounter_reels (k : Nat) (v : Word) : (setCounter s k v).reels = s.reels := rfl
@[simp] theorem setCounter_links (k : Nat) (v : Word) : (setCounter s k v).links = s.links := rfl
@[simp] theorem setCounter_cells (k : Nat) (v : Word) : (setCounter s k v).cells = s.cells := rfl
@[simp] theorem setCounter_fetches (k : Nat) (v : Word) : (setCounter s k v).fetches = s.fetches := rfl
@[simp] theorem setCounter_freeFrames (k : Nat) (v : Word) : (setCounter s k v).freeFrames = s.freeFrames := rfl
@[simp] theorem setCounter_dirtyFrames (k : Nat) (v : Word) : (setCounter s k v).dirtyFrames = s.dirtyFrames := rfl
@[simp] theorem setCounter_cmpWait (k : Nat) (v : Word) : (setCounter s k v).cmpWait = s.cmpWait := rfl
@[simp] theorem setCounter_tierCache (k : Nat) (v : Word) : (setCounter s k v).tierCache = s.tierCache := rfl
@[simp] theorem setCounter_versions (k : Nat) (v : Word) : (setCounter s k v).versions = s.versions := rfl
@[simp] theorem setCounter_stbyUp (k : Nat) (v : Word) : (setCounter s k v).stbyUp = s.stbyUp := rfl
@[simp] theorem setCounter_mgmtOut (k : Nat) (v : Word) : (setCounter s k v).mgmtOut = s.mgmtOut := rfl
@[simp] theorem setCounter_ballastQ (k : Nat) (v : Word) : (setCounter s k v).ballastQ = s.ballastQ := rfl
@[simp] theorem setCounter_clocked (k : Nat) (v : Word) : (setCounter s k v).clocked = s.clocked := rfl
@[simp] theorem setCounter_degraded (k : Nat) (v : Word) : (setCounter s k v).degraded = s.degraded := rfl
@[simp] theorem setCounter_toRestore (k : Nat) (v : Word) : (setCounter s k v).toRestore = s.toRestore := rfl
@[simp] theorem setCounter_lathQ (k : Nat) (v : Word) : (setCounter s k v).lathQ = s.lathQ := rfl
@[simp] theorem setCounter_engQ (k : Nat) (v : Word) : (setCounter s k v).engQ = s.engQ := rfl
@[simp] theorem setCounter_missq (k : Nat) (v : Word) : (setCounter s k v).missq = s.missq := rfl
@[simp] theorem setCounter_pubs (k : Nat) (v : Word) : (setCounter s k v).pubs = s.pubs := rfl
@[simp] theorem setCounter_lost (k : Nat) (v : Word) : (setCounter s k v).lost = s.lost := rfl
@[simp] theorem setCounter_nameds (k : Nat) (v : Word) : (setCounter s k v).nameds = s.nameds := rfl
@[simp] theorem setCounter_recallq (k : Nat) (v : Word) : (setCounter s k v).recallq = s.recallq := rfl
@[simp] theorem setCounter_wbq (k : Nat) (v : Word) : (setCounter s k v).wbq = s.wbq := rfl
@[simp] theorem setCounter_covers (k : Nat) (v : Word) : (setCounter s k v).covers = s.covers := rfl
@[simp] theorem setCounter_restoreq (k : Nat) (v : Word) : (setCounter s k v).restoreq = s.restoreq := rfl
@[simp] theorem setCounter_peerOuts (k : Nat) (v : Word) : (setCounter s k v).peerOuts = s.peerOuts := rfl
@[simp] theorem setCounter_progs (k : Nat) (v : Word) : (setCounter s k v).progs = s.progs := rfl
@[simp] theorem setCounter_dumps (k : Nat) (v : Word) : (setCounter s k v).dumps = s.dumps := rfl
@[simp] theorem setCounter_tsWait (k : Nat) (v : Word) : (setCounter s k v).tsWait = s.tsWait := rfl

@[simp] theorem putArea_pending (a : Area) : (putArea s a).pending = s.pending := rfl
@[simp] theorem putArea_regs (a : Area) : (putArea s a).regs = s.regs := rfl
@[simp] theorem putArea_mem (a : Area) : (putArea s a).mem = s.mem := rfl
@[simp] theorem putArea_poison (a : Area) : (putArea s a).poison = s.poison := rfl
@[simp] theorem putArea_counters (a : Area) : (putArea s a).counters = s.counters := rfl
@[simp] theorem putArea_wins (a : Area) : (putArea s a).wins = s.wins := rfl
@[simp] theorem putArea_inj (a : Area) : (putArea s a).inj = s.inj := rfl
@[simp] theorem putArea_out (a : Area) : (putArea s a).out = s.out := rfl
@[simp] theorem putArea_free (a : Area) : (putArea s a).free = s.free := rfl
@[simp] theorem putArea_seq (a : Area) : (putArea s a).seq = s.seq := rfl
@[simp] theorem putArea_trk (a : Area) : (putArea s a).trk = s.trk := rfl
@[simp] theorem putArea_retry (a : Area) : (putArea s a).retry = s.retry := rfl
@[simp] theorem putArea_blockq (a : Area) : (putArea s a).blockq = s.blockq := rfl
@[simp] theorem putArea_filt (a : Area) : (putArea s a).filt = s.filt := rfl
@[simp] theorem putArea_dir (a : Area) : (putArea s a).dir = s.dir := rfl
@[simp] theorem putArea_store (a : Area) : (putArea s a).store = s.store := rfl
@[simp] theorem putArea_kernels (a : Area) : (putArea s a).kernels = s.kernels := rfl
@[simp] theorem putArea_lathes (a : Area) : (putArea s a).lathes = s.lathes := rfl
@[simp] theorem putArea_ctxs (a : Area) : (putArea s a).ctxs = s.ctxs := rfl
@[simp] theorem putArea_kites (a : Area) : (putArea s a).kites = s.kites := rfl
@[simp] theorem putArea_shadows (a : Area) : (putArea s a).shadows = s.shadows := rfl
@[simp] theorem putArea_sess (a : Area) : (putArea s a).sess = s.sess := rfl
@[simp] theorem putArea_reels (a : Area) : (putArea s a).reels = s.reels := rfl
@[simp] theorem putArea_links (a : Area) : (putArea s a).links = s.links := rfl
@[simp] theorem putArea_cells (a : Area) : (putArea s a).cells = s.cells := rfl
@[simp] theorem putArea_fetches (a : Area) : (putArea s a).fetches = s.fetches := rfl
@[simp] theorem putArea_freeFrames (a : Area) : (putArea s a).freeFrames = s.freeFrames := rfl
@[simp] theorem putArea_dirtyFrames (a : Area) : (putArea s a).dirtyFrames = s.dirtyFrames := rfl
@[simp] theorem putArea_cmpWait (a : Area) : (putArea s a).cmpWait = s.cmpWait := rfl
@[simp] theorem putArea_tierCache (a : Area) : (putArea s a).tierCache = s.tierCache := rfl
@[simp] theorem putArea_versions (a : Area) : (putArea s a).versions = s.versions := rfl
@[simp] theorem putArea_stbyUp (a : Area) : (putArea s a).stbyUp = s.stbyUp := rfl
@[simp] theorem putArea_mgmtOut (a : Area) : (putArea s a).mgmtOut = s.mgmtOut := rfl
@[simp] theorem putArea_ballastQ (a : Area) : (putArea s a).ballastQ = s.ballastQ := rfl
@[simp] theorem putArea_clocked (a : Area) : (putArea s a).clocked = s.clocked := rfl
@[simp] theorem putArea_degraded (a : Area) : (putArea s a).degraded = s.degraded := rfl
@[simp] theorem putArea_toRestore (a : Area) : (putArea s a).toRestore = s.toRestore := rfl
@[simp] theorem putArea_lathQ (a : Area) : (putArea s a).lathQ = s.lathQ := rfl
@[simp] theorem putArea_engQ (a : Area) : (putArea s a).engQ = s.engQ := rfl
@[simp] theorem putArea_missq (a : Area) : (putArea s a).missq = s.missq := rfl
@[simp] theorem putArea_pubs (a : Area) : (putArea s a).pubs = s.pubs := rfl
@[simp] theorem putArea_lost (a : Area) : (putArea s a).lost = s.lost := rfl
@[simp] theorem putArea_nameds (a : Area) : (putArea s a).nameds = s.nameds := rfl
@[simp] theorem putArea_recallq (a : Area) : (putArea s a).recallq = s.recallq := rfl
@[simp] theorem putArea_wbq (a : Area) : (putArea s a).wbq = s.wbq := rfl
@[simp] theorem putArea_covers (a : Area) : (putArea s a).covers = s.covers := rfl
@[simp] theorem putArea_restoreq (a : Area) : (putArea s a).restoreq = s.restoreq := rfl
@[simp] theorem putArea_peerOuts (a : Area) : (putArea s a).peerOuts = s.peerOuts := rfl
@[simp] theorem putArea_progs (a : Area) : (putArea s a).progs = s.progs := rfl
@[simp] theorem putArea_dumps (a : Area) : (putArea s a).dumps = s.dumps := rfl
@[simp] theorem putArea_tsWait (a : Area) : (putArea s a).tsWait = s.tsWait := rfl

@[simp] theorem State.putLine_pending (a : Nat) (d : LineData) : (s.putLine a d).pending = s.pending := rfl
@[simp] theorem State.putLine_regs (a : Nat) (d : LineData) : (s.putLine a d).regs = s.regs := rfl
@[simp] theorem State.putLine_poison (a : Nat) (d : LineData) : (s.putLine a d).poison = s.poison := rfl
@[simp] theorem State.putLine_counters (a : Nat) (d : LineData) : (s.putLine a d).counters = s.counters := rfl
@[simp] theorem State.putLine_wins (a : Nat) (d : LineData) : (s.putLine a d).wins = s.wins := rfl
@[simp] theorem State.putLine_areas (a : Nat) (d : LineData) : (s.putLine a d).areas = s.areas := rfl
@[simp] theorem State.putLine_inj (a : Nat) (d : LineData) : (s.putLine a d).inj = s.inj := rfl
@[simp] theorem State.putLine_out (a : Nat) (d : LineData) : (s.putLine a d).out = s.out := rfl
@[simp] theorem State.putLine_free (a : Nat) (d : LineData) : (s.putLine a d).free = s.free := rfl
@[simp] theorem State.putLine_seq (a : Nat) (d : LineData) : (s.putLine a d).seq = s.seq := rfl
@[simp] theorem State.putLine_trk (a : Nat) (d : LineData) : (s.putLine a d).trk = s.trk := rfl
@[simp] theorem State.putLine_retry (a : Nat) (d : LineData) : (s.putLine a d).retry = s.retry := rfl
@[simp] theorem State.putLine_blockq (a : Nat) (d : LineData) : (s.putLine a d).blockq = s.blockq := rfl
@[simp] theorem State.putLine_filt (a : Nat) (d : LineData) : (s.putLine a d).filt = s.filt := rfl
@[simp] theorem State.putLine_dir (a : Nat) (d : LineData) : (s.putLine a d).dir = s.dir := rfl
@[simp] theorem State.putLine_store (a : Nat) (d : LineData) : (s.putLine a d).store = s.store := rfl
@[simp] theorem State.putLine_kernels (a : Nat) (d : LineData) : (s.putLine a d).kernels = s.kernels := rfl
@[simp] theorem State.putLine_lathes (a : Nat) (d : LineData) : (s.putLine a d).lathes = s.lathes := rfl
@[simp] theorem State.putLine_ctxs (a : Nat) (d : LineData) : (s.putLine a d).ctxs = s.ctxs := rfl
@[simp] theorem State.putLine_kites (a : Nat) (d : LineData) : (s.putLine a d).kites = s.kites := rfl
@[simp] theorem State.putLine_shadows (a : Nat) (d : LineData) : (s.putLine a d).shadows = s.shadows := rfl
@[simp] theorem State.putLine_sess (a : Nat) (d : LineData) : (s.putLine a d).sess = s.sess := rfl
@[simp] theorem State.putLine_reels (a : Nat) (d : LineData) : (s.putLine a d).reels = s.reels := rfl
@[simp] theorem State.putLine_links (a : Nat) (d : LineData) : (s.putLine a d).links = s.links := rfl
@[simp] theorem State.putLine_cells (a : Nat) (d : LineData) : (s.putLine a d).cells = s.cells := rfl
@[simp] theorem State.putLine_fetches (a : Nat) (d : LineData) : (s.putLine a d).fetches = s.fetches := rfl
@[simp] theorem State.putLine_freeFrames (a : Nat) (d : LineData) : (s.putLine a d).freeFrames = s.freeFrames := rfl
@[simp] theorem State.putLine_dirtyFrames (a : Nat) (d : LineData) : (s.putLine a d).dirtyFrames = s.dirtyFrames := rfl
@[simp] theorem State.putLine_cmpWait (a : Nat) (d : LineData) : (s.putLine a d).cmpWait = s.cmpWait := rfl
@[simp] theorem State.putLine_tierCache (a : Nat) (d : LineData) : (s.putLine a d).tierCache = s.tierCache := rfl
@[simp] theorem State.putLine_versions (a : Nat) (d : LineData) : (s.putLine a d).versions = s.versions := rfl
@[simp] theorem State.putLine_stbyUp (a : Nat) (d : LineData) : (s.putLine a d).stbyUp = s.stbyUp := rfl
@[simp] theorem State.putLine_mgmtOut (a : Nat) (d : LineData) : (s.putLine a d).mgmtOut = s.mgmtOut := rfl
@[simp] theorem State.putLine_ballastQ (a : Nat) (d : LineData) : (s.putLine a d).ballastQ = s.ballastQ := rfl
@[simp] theorem State.putLine_clocked (a : Nat) (d : LineData) : (s.putLine a d).clocked = s.clocked := rfl
@[simp] theorem State.putLine_degraded (a : Nat) (d : LineData) : (s.putLine a d).degraded = s.degraded := rfl
@[simp] theorem State.putLine_toRestore (a : Nat) (d : LineData) : (s.putLine a d).toRestore = s.toRestore := rfl
@[simp] theorem State.putLine_lathQ (a : Nat) (d : LineData) : (s.putLine a d).lathQ = s.lathQ := rfl
@[simp] theorem State.putLine_engQ (a : Nat) (d : LineData) : (s.putLine a d).engQ = s.engQ := rfl
@[simp] theorem State.putLine_missq (a : Nat) (d : LineData) : (s.putLine a d).missq = s.missq := rfl
@[simp] theorem State.putLine_pubs (a : Nat) (d : LineData) : (s.putLine a d).pubs = s.pubs := rfl
@[simp] theorem State.putLine_lost (a : Nat) (d : LineData) : (s.putLine a d).lost = s.lost := rfl
@[simp] theorem State.putLine_nameds (a : Nat) (d : LineData) : (s.putLine a d).nameds = s.nameds := rfl

@[simp] theorem State.writeN_pending (a n v : Nat) : (s.writeN a n v).pending = s.pending := rfl
@[simp] theorem State.writeN_regs (a n v : Nat) : (s.writeN a n v).regs = s.regs := rfl
@[simp] theorem State.writeN_poison (a n v : Nat) : (s.writeN a n v).poison = s.poison := rfl
@[simp] theorem State.writeN_counters (a n v : Nat) : (s.writeN a n v).counters = s.counters := rfl
@[simp] theorem State.writeN_wins (a n v : Nat) : (s.writeN a n v).wins = s.wins := rfl
@[simp] theorem State.writeN_areas (a n v : Nat) : (s.writeN a n v).areas = s.areas := rfl
@[simp] theorem State.writeN_inj (a n v : Nat) : (s.writeN a n v).inj = s.inj := rfl
@[simp] theorem State.writeN_out (a n v : Nat) : (s.writeN a n v).out = s.out := rfl
@[simp] theorem State.writeN_free (a n v : Nat) : (s.writeN a n v).free = s.free := rfl
@[simp] theorem State.writeN_seq (a n v : Nat) : (s.writeN a n v).seq = s.seq := rfl
@[simp] theorem State.writeN_trk (a n v : Nat) : (s.writeN a n v).trk = s.trk := rfl
@[simp] theorem State.writeN_retry (a n v : Nat) : (s.writeN a n v).retry = s.retry := rfl
@[simp] theorem State.writeN_blockq (a n v : Nat) : (s.writeN a n v).blockq = s.blockq := rfl
@[simp] theorem State.writeN_filt (a n v : Nat) : (s.writeN a n v).filt = s.filt := rfl
@[simp] theorem State.writeN_dir (a n v : Nat) : (s.writeN a n v).dir = s.dir := rfl
@[simp] theorem State.writeN_store (a n v : Nat) : (s.writeN a n v).store = s.store := rfl
@[simp] theorem State.writeN_kernels (a n v : Nat) : (s.writeN a n v).kernels = s.kernels := rfl
@[simp] theorem State.writeN_lathes (a n v : Nat) : (s.writeN a n v).lathes = s.lathes := rfl
@[simp] theorem State.writeN_ctxs (a n v : Nat) : (s.writeN a n v).ctxs = s.ctxs := rfl
@[simp] theorem State.writeN_kites (a n v : Nat) : (s.writeN a n v).kites = s.kites := rfl
@[simp] theorem State.writeN_shadows (a n v : Nat) : (s.writeN a n v).shadows = s.shadows := rfl
@[simp] theorem State.writeN_sess (a n v : Nat) : (s.writeN a n v).sess = s.sess := rfl
@[simp] theorem State.writeN_reels (a n v : Nat) : (s.writeN a n v).reels = s.reels := rfl
@[simp] theorem State.writeN_links (a n v : Nat) : (s.writeN a n v).links = s.links := rfl
@[simp] theorem State.writeN_cells (a n v : Nat) : (s.writeN a n v).cells = s.cells := rfl
@[simp] theorem State.writeN_fetches (a n v : Nat) : (s.writeN a n v).fetches = s.fetches := rfl
@[simp] theorem State.writeN_freeFrames (a n v : Nat) : (s.writeN a n v).freeFrames = s.freeFrames := rfl
@[simp] theorem State.writeN_dirtyFrames (a n v : Nat) : (s.writeN a n v).dirtyFrames = s.dirtyFrames := rfl
@[simp] theorem State.writeN_cmpWait (a n v : Nat) : (s.writeN a n v).cmpWait = s.cmpWait := rfl
@[simp] theorem State.writeN_tierCache (a n v : Nat) : (s.writeN a n v).tierCache = s.tierCache := rfl
@[simp] theorem State.writeN_versions (a n v : Nat) : (s.writeN a n v).versions = s.versions := rfl
@[simp] theorem State.writeN_stbyUp (a n v : Nat) : (s.writeN a n v).stbyUp = s.stbyUp := rfl
@[simp] theorem State.writeN_mgmtOut (a n v : Nat) : (s.writeN a n v).mgmtOut = s.mgmtOut := rfl
@[simp] theorem State.writeN_ballastQ (a n v : Nat) : (s.writeN a n v).ballastQ = s.ballastQ := rfl
@[simp] theorem State.writeN_clocked (a n v : Nat) : (s.writeN a n v).clocked = s.clocked := rfl
@[simp] theorem State.writeN_degraded (a n v : Nat) : (s.writeN a n v).degraded = s.degraded := rfl
@[simp] theorem State.writeN_toRestore (a n v : Nat) : (s.writeN a n v).toRestore = s.toRestore := rfl
@[simp] theorem State.writeN_lathQ (a n v : Nat) : (s.writeN a n v).lathQ = s.lathQ := rfl
@[simp] theorem State.writeN_engQ (a n v : Nat) : (s.writeN a n v).engQ = s.engQ := rfl
@[simp] theorem State.writeN_missq (a n v : Nat) : (s.writeN a n v).missq = s.missq := rfl
@[simp] theorem State.writeN_pubs (a n v : Nat) : (s.writeN a n v).pubs = s.pubs := rfl
@[simp] theorem State.writeN_lost (a n v : Nat) : (s.writeN a n v).lost = s.lost := rfl
@[simp] theorem State.writeN_nameds (a n v : Nat) : (s.writeN a n v).nameds = s.nameds := rfl

@[simp] theorem setPoison_pending (key : Nat) : (setPoison s key).pending = s.pending := rfl
@[simp] theorem setPoison_regs (key : Nat) : (setPoison s key).regs = s.regs := rfl
@[simp] theorem setPoison_mem (key : Nat) : (setPoison s key).mem = s.mem := rfl
@[simp] theorem setPoison_counters (key : Nat) : (setPoison s key).counters = s.counters := rfl
@[simp] theorem setPoison_wins (key : Nat) : (setPoison s key).wins = s.wins := rfl
@[simp] theorem setPoison_areas (key : Nat) : (setPoison s key).areas = s.areas := rfl
@[simp] theorem setPoison_inj (key : Nat) : (setPoison s key).inj = s.inj := rfl
@[simp] theorem setPoison_out (key : Nat) : (setPoison s key).out = s.out := rfl
@[simp] theorem setPoison_free (key : Nat) : (setPoison s key).free = s.free := rfl
@[simp] theorem setPoison_seq (key : Nat) : (setPoison s key).seq = s.seq := rfl
@[simp] theorem setPoison_trk (key : Nat) : (setPoison s key).trk = s.trk := rfl
@[simp] theorem setPoison_retry (key : Nat) : (setPoison s key).retry = s.retry := rfl
@[simp] theorem setPoison_blockq (key : Nat) : (setPoison s key).blockq = s.blockq := rfl
@[simp] theorem setPoison_filt (key : Nat) : (setPoison s key).filt = s.filt := rfl
@[simp] theorem setPoison_dir (key : Nat) : (setPoison s key).dir = s.dir := rfl
@[simp] theorem setPoison_store (key : Nat) : (setPoison s key).store = s.store := rfl
@[simp] theorem setPoison_kernels (key : Nat) : (setPoison s key).kernels = s.kernels := rfl
@[simp] theorem setPoison_lathes (key : Nat) : (setPoison s key).lathes = s.lathes := rfl
@[simp] theorem setPoison_ctxs (key : Nat) : (setPoison s key).ctxs = s.ctxs := rfl
@[simp] theorem setPoison_kites (key : Nat) : (setPoison s key).kites = s.kites := rfl
@[simp] theorem setPoison_shadows (key : Nat) : (setPoison s key).shadows = s.shadows := rfl
@[simp] theorem setPoison_sess (key : Nat) : (setPoison s key).sess = s.sess := rfl
@[simp] theorem setPoison_reels (key : Nat) : (setPoison s key).reels = s.reels := rfl
@[simp] theorem setPoison_links (key : Nat) : (setPoison s key).links = s.links := rfl
@[simp] theorem setPoison_cells (key : Nat) : (setPoison s key).cells = s.cells := rfl
@[simp] theorem setPoison_fetches (key : Nat) : (setPoison s key).fetches = s.fetches := rfl
@[simp] theorem setPoison_freeFrames (key : Nat) : (setPoison s key).freeFrames = s.freeFrames := rfl
@[simp] theorem setPoison_dirtyFrames (key : Nat) : (setPoison s key).dirtyFrames = s.dirtyFrames := rfl
@[simp] theorem setPoison_cmpWait (key : Nat) : (setPoison s key).cmpWait = s.cmpWait := rfl
@[simp] theorem setPoison_tierCache (key : Nat) : (setPoison s key).tierCache = s.tierCache := rfl
@[simp] theorem setPoison_versions (key : Nat) : (setPoison s key).versions = s.versions := rfl
@[simp] theorem setPoison_stbyUp (key : Nat) : (setPoison s key).stbyUp = s.stbyUp := rfl
@[simp] theorem setPoison_mgmtOut (key : Nat) : (setPoison s key).mgmtOut = s.mgmtOut := rfl
@[simp] theorem setPoison_ballastQ (key : Nat) : (setPoison s key).ballastQ = s.ballastQ := rfl
@[simp] theorem setPoison_clocked (key : Nat) : (setPoison s key).clocked = s.clocked := rfl
@[simp] theorem setPoison_degraded (key : Nat) : (setPoison s key).degraded = s.degraded := rfl
@[simp] theorem setPoison_toRestore (key : Nat) : (setPoison s key).toRestore = s.toRestore := rfl
@[simp] theorem setPoison_lathQ (key : Nat) : (setPoison s key).lathQ = s.lathQ := rfl
@[simp] theorem setPoison_engQ (key : Nat) : (setPoison s key).engQ = s.engQ := rfl
@[simp] theorem setPoison_missq (key : Nat) : (setPoison s key).missq = s.missq := rfl
@[simp] theorem setPoison_pubs (key : Nat) : (setPoison s key).pubs = s.pubs := rfl
@[simp] theorem setPoison_lost (key : Nat) : (setPoison s key).lost = s.lost := rfl
@[simp] theorem setPoison_nameds (key : Nat) : (setPoison s key).nameds = s.nameds := rfl
@[simp] theorem setPoison_recallq (key : Nat) : (setPoison s key).recallq = s.recallq := rfl
@[simp] theorem setPoison_wbq (key : Nat) : (setPoison s key).wbq = s.wbq := rfl
@[simp] theorem setPoison_covers (key : Nat) : (setPoison s key).covers = s.covers := rfl
@[simp] theorem setPoison_restoreq (key : Nat) : (setPoison s key).restoreq = s.restoreq := rfl
@[simp] theorem setPoison_peerOuts (key : Nat) : (setPoison s key).peerOuts = s.peerOuts := rfl
@[simp] theorem setPoison_progs (key : Nat) : (setPoison s key).progs = s.progs := rfl
@[simp] theorem setPoison_dumps (key : Nat) : (setPoison s key).dumps = s.dumps := rfl
@[simp] theorem setPoison_tsWait (key : Nat) : (setPoison s key).tsWait = s.tsWait := rfl

@[simp] theorem clrPoison_pending (key : Nat) : (clrPoison s key).pending = s.pending := rfl
@[simp] theorem clrPoison_regs (key : Nat) : (clrPoison s key).regs = s.regs := rfl
@[simp] theorem clrPoison_mem (key : Nat) : (clrPoison s key).mem = s.mem := rfl
@[simp] theorem clrPoison_counters (key : Nat) : (clrPoison s key).counters = s.counters := rfl
@[simp] theorem clrPoison_wins (key : Nat) : (clrPoison s key).wins = s.wins := rfl
@[simp] theorem clrPoison_areas (key : Nat) : (clrPoison s key).areas = s.areas := rfl
@[simp] theorem clrPoison_inj (key : Nat) : (clrPoison s key).inj = s.inj := rfl
@[simp] theorem clrPoison_out (key : Nat) : (clrPoison s key).out = s.out := rfl
@[simp] theorem clrPoison_free (key : Nat) : (clrPoison s key).free = s.free := rfl
@[simp] theorem clrPoison_seq (key : Nat) : (clrPoison s key).seq = s.seq := rfl
@[simp] theorem clrPoison_trk (key : Nat) : (clrPoison s key).trk = s.trk := rfl
@[simp] theorem clrPoison_retry (key : Nat) : (clrPoison s key).retry = s.retry := rfl
@[simp] theorem clrPoison_blockq (key : Nat) : (clrPoison s key).blockq = s.blockq := rfl
@[simp] theorem clrPoison_filt (key : Nat) : (clrPoison s key).filt = s.filt := rfl
@[simp] theorem clrPoison_dir (key : Nat) : (clrPoison s key).dir = s.dir := rfl
@[simp] theorem clrPoison_store (key : Nat) : (clrPoison s key).store = s.store := rfl
@[simp] theorem clrPoison_kernels (key : Nat) : (clrPoison s key).kernels = s.kernels := rfl
@[simp] theorem clrPoison_lathes (key : Nat) : (clrPoison s key).lathes = s.lathes := rfl
@[simp] theorem clrPoison_ctxs (key : Nat) : (clrPoison s key).ctxs = s.ctxs := rfl
@[simp] theorem clrPoison_kites (key : Nat) : (clrPoison s key).kites = s.kites := rfl
@[simp] theorem clrPoison_shadows (key : Nat) : (clrPoison s key).shadows = s.shadows := rfl
@[simp] theorem clrPoison_sess (key : Nat) : (clrPoison s key).sess = s.sess := rfl
@[simp] theorem clrPoison_reels (key : Nat) : (clrPoison s key).reels = s.reels := rfl
@[simp] theorem clrPoison_links (key : Nat) : (clrPoison s key).links = s.links := rfl
@[simp] theorem clrPoison_cells (key : Nat) : (clrPoison s key).cells = s.cells := rfl
@[simp] theorem clrPoison_fetches (key : Nat) : (clrPoison s key).fetches = s.fetches := rfl
@[simp] theorem clrPoison_freeFrames (key : Nat) : (clrPoison s key).freeFrames = s.freeFrames := rfl
@[simp] theorem clrPoison_dirtyFrames (key : Nat) : (clrPoison s key).dirtyFrames = s.dirtyFrames := rfl
@[simp] theorem clrPoison_cmpWait (key : Nat) : (clrPoison s key).cmpWait = s.cmpWait := rfl
@[simp] theorem clrPoison_tierCache (key : Nat) : (clrPoison s key).tierCache = s.tierCache := rfl
@[simp] theorem clrPoison_versions (key : Nat) : (clrPoison s key).versions = s.versions := rfl
@[simp] theorem clrPoison_stbyUp (key : Nat) : (clrPoison s key).stbyUp = s.stbyUp := rfl
@[simp] theorem clrPoison_mgmtOut (key : Nat) : (clrPoison s key).mgmtOut = s.mgmtOut := rfl
@[simp] theorem clrPoison_ballastQ (key : Nat) : (clrPoison s key).ballastQ = s.ballastQ := rfl
@[simp] theorem clrPoison_clocked (key : Nat) : (clrPoison s key).clocked = s.clocked := rfl
@[simp] theorem clrPoison_degraded (key : Nat) : (clrPoison s key).degraded = s.degraded := rfl
@[simp] theorem clrPoison_toRestore (key : Nat) : (clrPoison s key).toRestore = s.toRestore := rfl
@[simp] theorem clrPoison_lathQ (key : Nat) : (clrPoison s key).lathQ = s.lathQ := rfl
@[simp] theorem clrPoison_engQ (key : Nat) : (clrPoison s key).engQ = s.engQ := rfl
@[simp] theorem clrPoison_missq (key : Nat) : (clrPoison s key).missq = s.missq := rfl
@[simp] theorem clrPoison_pubs (key : Nat) : (clrPoison s key).pubs = s.pubs := rfl
@[simp] theorem clrPoison_lost (key : Nat) : (clrPoison s key).lost = s.lost := rfl
@[simp] theorem clrPoison_nameds (key : Nat) : (clrPoison s key).nameds = s.nameds := rfl
@[simp] theorem clrPoison_recallq (key : Nat) : (clrPoison s key).recallq = s.recallq := rfl
@[simp] theorem clrPoison_wbq (key : Nat) : (clrPoison s key).wbq = s.wbq := rfl
@[simp] theorem clrPoison_covers (key : Nat) : (clrPoison s key).covers = s.covers := rfl
@[simp] theorem clrPoison_restoreq (key : Nat) : (clrPoison s key).restoreq = s.restoreq := rfl
@[simp] theorem clrPoison_peerOuts (key : Nat) : (clrPoison s key).peerOuts = s.peerOuts := rfl
@[simp] theorem clrPoison_progs (key : Nat) : (clrPoison s key).progs = s.progs := rfl
@[simp] theorem clrPoison_dumps (key : Nat) : (clrPoison s key).dumps = s.dumps := rfl
@[simp] theorem clrPoison_tsWait (key : Nat) : (clrPoison s key).tsWait = s.tsWait := rfl

@[simp] theorem clrPoisonRange_pending (key len : Nat) : (clrPoisonRange s key len).pending = s.pending := rfl
@[simp] theorem clrPoisonRange_regs (key len : Nat) : (clrPoisonRange s key len).regs = s.regs := rfl
@[simp] theorem clrPoisonRange_mem (key len : Nat) : (clrPoisonRange s key len).mem = s.mem := rfl
@[simp] theorem clrPoisonRange_counters (key len : Nat) : (clrPoisonRange s key len).counters = s.counters := rfl
@[simp] theorem clrPoisonRange_wins (key len : Nat) : (clrPoisonRange s key len).wins = s.wins := rfl
@[simp] theorem clrPoisonRange_areas (key len : Nat) : (clrPoisonRange s key len).areas = s.areas := rfl
@[simp] theorem clrPoisonRange_inj (key len : Nat) : (clrPoisonRange s key len).inj = s.inj := rfl
@[simp] theorem clrPoisonRange_out (key len : Nat) : (clrPoisonRange s key len).out = s.out := rfl
@[simp] theorem clrPoisonRange_free (key len : Nat) : (clrPoisonRange s key len).free = s.free := rfl
@[simp] theorem clrPoisonRange_seq (key len : Nat) : (clrPoisonRange s key len).seq = s.seq := rfl
@[simp] theorem clrPoisonRange_trk (key len : Nat) : (clrPoisonRange s key len).trk = s.trk := rfl
@[simp] theorem clrPoisonRange_retry (key len : Nat) : (clrPoisonRange s key len).retry = s.retry := rfl
@[simp] theorem clrPoisonRange_blockq (key len : Nat) : (clrPoisonRange s key len).blockq = s.blockq := rfl
@[simp] theorem clrPoisonRange_filt (key len : Nat) : (clrPoisonRange s key len).filt = s.filt := rfl
@[simp] theorem clrPoisonRange_dir (key len : Nat) : (clrPoisonRange s key len).dir = s.dir := rfl
@[simp] theorem clrPoisonRange_store (key len : Nat) : (clrPoisonRange s key len).store = s.store := rfl
@[simp] theorem clrPoisonRange_kernels (key len : Nat) : (clrPoisonRange s key len).kernels = s.kernels := rfl
@[simp] theorem clrPoisonRange_lathes (key len : Nat) : (clrPoisonRange s key len).lathes = s.lathes := rfl
@[simp] theorem clrPoisonRange_ctxs (key len : Nat) : (clrPoisonRange s key len).ctxs = s.ctxs := rfl
@[simp] theorem clrPoisonRange_kites (key len : Nat) : (clrPoisonRange s key len).kites = s.kites := rfl
@[simp] theorem clrPoisonRange_shadows (key len : Nat) : (clrPoisonRange s key len).shadows = s.shadows := rfl
@[simp] theorem clrPoisonRange_sess (key len : Nat) : (clrPoisonRange s key len).sess = s.sess := rfl
@[simp] theorem clrPoisonRange_reels (key len : Nat) : (clrPoisonRange s key len).reels = s.reels := rfl
@[simp] theorem clrPoisonRange_links (key len : Nat) : (clrPoisonRange s key len).links = s.links := rfl
@[simp] theorem clrPoisonRange_cells (key len : Nat) : (clrPoisonRange s key len).cells = s.cells := rfl
@[simp] theorem clrPoisonRange_fetches (key len : Nat) : (clrPoisonRange s key len).fetches = s.fetches := rfl
@[simp] theorem clrPoisonRange_freeFrames (key len : Nat) : (clrPoisonRange s key len).freeFrames = s.freeFrames := rfl
@[simp] theorem clrPoisonRange_dirtyFrames (key len : Nat) : (clrPoisonRange s key len).dirtyFrames = s.dirtyFrames := rfl
@[simp] theorem clrPoisonRange_cmpWait (key len : Nat) : (clrPoisonRange s key len).cmpWait = s.cmpWait := rfl
@[simp] theorem clrPoisonRange_tierCache (key len : Nat) : (clrPoisonRange s key len).tierCache = s.tierCache := rfl
@[simp] theorem clrPoisonRange_versions (key len : Nat) : (clrPoisonRange s key len).versions = s.versions := rfl
@[simp] theorem clrPoisonRange_stbyUp (key len : Nat) : (clrPoisonRange s key len).stbyUp = s.stbyUp := rfl
@[simp] theorem clrPoisonRange_mgmtOut (key len : Nat) : (clrPoisonRange s key len).mgmtOut = s.mgmtOut := rfl
@[simp] theorem clrPoisonRange_ballastQ (key len : Nat) : (clrPoisonRange s key len).ballastQ = s.ballastQ := rfl
@[simp] theorem clrPoisonRange_clocked (key len : Nat) : (clrPoisonRange s key len).clocked = s.clocked := rfl
@[simp] theorem clrPoisonRange_degraded (key len : Nat) : (clrPoisonRange s key len).degraded = s.degraded := rfl
@[simp] theorem clrPoisonRange_toRestore (key len : Nat) : (clrPoisonRange s key len).toRestore = s.toRestore := rfl
@[simp] theorem clrPoisonRange_lathQ (key len : Nat) : (clrPoisonRange s key len).lathQ = s.lathQ := rfl
@[simp] theorem clrPoisonRange_engQ (key len : Nat) : (clrPoisonRange s key len).engQ = s.engQ := rfl
@[simp] theorem clrPoisonRange_missq (key len : Nat) : (clrPoisonRange s key len).missq = s.missq := rfl
@[simp] theorem clrPoisonRange_pubs (key len : Nat) : (clrPoisonRange s key len).pubs = s.pubs := rfl
@[simp] theorem clrPoisonRange_lost (key len : Nat) : (clrPoisonRange s key len).lost = s.lost := rfl
@[simp] theorem clrPoisonRange_nameds (key len : Nat) : (clrPoisonRange s key len).nameds = s.nameds := rfl
@[simp] theorem clrPoisonRange_recallq (key len : Nat) : (clrPoisonRange s key len).recallq = s.recallq := rfl
@[simp] theorem clrPoisonRange_wbq (key len : Nat) : (clrPoisonRange s key len).wbq = s.wbq := rfl
@[simp] theorem clrPoisonRange_covers (key len : Nat) : (clrPoisonRange s key len).covers = s.covers := rfl
@[simp] theorem clrPoisonRange_restoreq (key len : Nat) : (clrPoisonRange s key len).restoreq = s.restoreq := rfl
@[simp] theorem clrPoisonRange_peerOuts (key len : Nat) : (clrPoisonRange s key len).peerOuts = s.peerOuts := rfl
@[simp] theorem clrPoisonRange_progs (key len : Nat) : (clrPoisonRange s key len).progs = s.progs := rfl
@[simp] theorem clrPoisonRange_dumps (key len : Nat) : (clrPoisonRange s key len).dumps = s.dumps := rfl
@[simp] theorem clrPoisonRange_tsWait (key len : Nat) : (clrPoisonRange s key len).tsWait = s.tsWait := rfl

@[simp] theorem regSet_scrubs (off : Nat) (v : Word) : (regSet s off v).scrubs = s.scrubs := rfl
@[simp] theorem regSet_lateQ (off : Nat) (v : Word) : (regSet s off v).lateQ = s.lateQ := rfl
@[simp] theorem regSet_readyNo (off : Nat) (v : Word) : (regSet s off v).readyNo = s.readyNo := rfl
@[simp] theorem regSet_fireNo (off : Nat) (v : Word) : (regSet s off v).fireNo = s.fireNo := rfl
@[simp] theorem regSet_rowTurn (off : Nat) (v : Word) : (regSet s off v).rowTurn = s.rowTurn := rfl
@[simp] theorem regSet_coverSent (off : Nat) (v : Word) : (regSet s off v).coverSent = s.coverSent := rfl
@[simp] theorem regSet_fabReqs (off : Nat) (v : Word) : (regSet s off v).fabReqs = s.fabReqs := rfl
@[simp] theorem regPut_scrubs (off hi lo v : Nat) : (regPut s off hi lo v).scrubs = s.scrubs := rfl
@[simp] theorem regPut_lateQ (off hi lo v : Nat) : (regPut s off hi lo v).lateQ = s.lateQ := rfl
@[simp] theorem regPut_readyNo (off hi lo v : Nat) : (regPut s off hi lo v).readyNo = s.readyNo := rfl
@[simp] theorem regPut_fireNo (off hi lo v : Nat) : (regPut s off hi lo v).fireNo = s.fireNo := rfl
@[simp] theorem regPut_rowTurn (off hi lo v : Nat) : (regPut s off hi lo v).rowTurn = s.rowTurn := rfl
@[simp] theorem regPut_coverSent (off hi lo v : Nat) : (regPut s off hi lo v).coverSent = s.coverSent := rfl
@[simp] theorem regPut_fabReqs (off hi lo v : Nat) : (regPut s off hi lo v).fabReqs = s.fabReqs := rfl
@[simp] theorem setBit_scrubs (off b : Nat) : (setBit s off b).scrubs = s.scrubs := rfl
@[simp] theorem setBit_lateQ (off b : Nat) : (setBit s off b).lateQ = s.lateQ := rfl
@[simp] theorem setBit_readyNo (off b : Nat) : (setBit s off b).readyNo = s.readyNo := rfl
@[simp] theorem setBit_fireNo (off b : Nat) : (setBit s off b).fireNo = s.fireNo := rfl
@[simp] theorem setBit_rowTurn (off b : Nat) : (setBit s off b).rowTurn = s.rowTurn := rfl
@[simp] theorem setBit_coverSent (off b : Nat) : (setBit s off b).coverSent = s.coverSent := rfl
@[simp] theorem setBit_fabReqs (off b : Nat) : (setBit s off b).fabReqs = s.fabReqs := rfl
@[simp] theorem incCnt_scrubs (off : Nat) : (incCnt s off).scrubs = s.scrubs := rfl
@[simp] theorem incCnt_lateQ (off : Nat) : (incCnt s off).lateQ = s.lateQ := rfl
@[simp] theorem incCnt_readyNo (off : Nat) : (incCnt s off).readyNo = s.readyNo := rfl
@[simp] theorem incCnt_fireNo (off : Nat) : (incCnt s off).fireNo = s.fireNo := rfl
@[simp] theorem incCnt_rowTurn (off : Nat) : (incCnt s off).rowTurn = s.rowTurn := rfl
@[simp] theorem incCnt_coverSent (off : Nat) : (incCnt s off).coverSent = s.coverSent := rfl
@[simp] theorem incCnt_fabReqs (off : Nat) : (incCnt s off).fabReqs = s.fabReqs := rfl
@[simp] theorem send_scrubs (o : Out) : (send s o).scrubs = s.scrubs := rfl
@[simp] theorem send_lateQ (o : Out) : (send s o).lateQ = s.lateQ := rfl
@[simp] theorem send_readyNo (o : Out) : (send s o).readyNo = s.readyNo := rfl
@[simp] theorem send_fireNo (o : Out) : (send s o).fireNo = s.fireNo := rfl
@[simp] theorem send_rowTurn (o : Out) : (send s o).rowTurn = s.rowTurn := rfl
@[simp] theorem send_coverSent (o : Out) : (send s o).coverSent = s.coverSent := rfl
@[simp] theorem send_fabReqs (o : Out) : (send s o).fabReqs = s.fabReqs := rfl
@[simp] theorem putLathe_scrubs (l : Nat) (x : Lathe) : (putLathe s l x).scrubs = s.scrubs := rfl
@[simp] theorem putLathe_lateQ (l : Nat) (x : Lathe) : (putLathe s l x).lateQ = s.lateQ := rfl
@[simp] theorem putLathe_readyNo (l : Nat) (x : Lathe) : (putLathe s l x).readyNo = s.readyNo := rfl
@[simp] theorem putLathe_fireNo (l : Nat) (x : Lathe) : (putLathe s l x).fireNo = s.fireNo := rfl
@[simp] theorem putLathe_rowTurn (l : Nat) (x : Lathe) : (putLathe s l x).rowTurn = s.rowTurn := rfl
@[simp] theorem putLathe_coverSent (l : Nat) (x : Lathe) : (putLathe s l x).coverSent = s.coverSent := rfl
@[simp] theorem putLathe_fabReqs (l : Nat) (x : Lathe) : (putLathe s l x).fabReqs = s.fabReqs := rfl
@[simp] theorem putCtx_scrubs (n : Nat) (c : Ctx) : (putCtx s n c).scrubs = s.scrubs := rfl
@[simp] theorem putCtx_lateQ (n : Nat) (c : Ctx) : (putCtx s n c).lateQ = s.lateQ := rfl
@[simp] theorem putCtx_readyNo (n : Nat) (c : Ctx) : (putCtx s n c).readyNo = s.readyNo := rfl
@[simp] theorem putCtx_fireNo (n : Nat) (c : Ctx) : (putCtx s n c).fireNo = s.fireNo := rfl
@[simp] theorem putCtx_rowTurn (n : Nat) (c : Ctx) : (putCtx s n c).rowTurn = s.rowTurn := rfl
@[simp] theorem putCtx_coverSent (n : Nat) (c : Ctx) : (putCtx s n c).coverSent = s.coverSent := rfl
@[simp] theorem putCtx_fabReqs (n : Nat) (c : Ctx) : (putCtx s n c).fabReqs = s.fabReqs := rfl
@[simp] theorem putWin_scrubs (w : Nat) (x : Win) : (putWin s w x).scrubs = s.scrubs := rfl
@[simp] theorem putWin_lateQ (w : Nat) (x : Win) : (putWin s w x).lateQ = s.lateQ := rfl
@[simp] theorem putWin_readyNo (w : Nat) (x : Win) : (putWin s w x).readyNo = s.readyNo := rfl
@[simp] theorem putWin_fireNo (w : Nat) (x : Win) : (putWin s w x).fireNo = s.fireNo := rfl
@[simp] theorem putWin_rowTurn (w : Nat) (x : Win) : (putWin s w x).rowTurn = s.rowTurn := rfl
@[simp] theorem putWin_coverSent (w : Nat) (x : Win) : (putWin s w x).coverSent = s.coverSent := rfl
@[simp] theorem putWin_fabReqs (w : Nat) (x : Win) : (putWin s w x).fabReqs = s.fabReqs := rfl
@[simp] theorem putArea_scrubs (a : Area) : (putArea s a).scrubs = s.scrubs := rfl
@[simp] theorem putArea_lateQ (a : Area) : (putArea s a).lateQ = s.lateQ := rfl
@[simp] theorem putArea_readyNo (a : Area) : (putArea s a).readyNo = s.readyNo := rfl
@[simp] theorem putArea_fireNo (a : Area) : (putArea s a).fireNo = s.fireNo := rfl
@[simp] theorem putArea_rowTurn (a : Area) : (putArea s a).rowTurn = s.rowTurn := rfl
@[simp] theorem putArea_coverSent (a : Area) : (putArea s a).coverSent = s.coverSent := rfl
@[simp] theorem putArea_fabReqs (a : Area) : (putArea s a).fabReqs = s.fabReqs := rfl
@[simp] theorem regSet_credHeld (off : Nat) (v : Word) : (regSet s off v).credHeld = s.credHeld := rfl
@[simp] theorem regSet_keptCpl (off : Nat) (v : Word) : (regSet s off v).keptCpl = s.keptCpl := rfl
@[simp] theorem regSet_mgmtMsg (off : Nat) (v : Word) : (regSet s off v).mgmtMsg = s.mgmtMsg := rfl
@[simp] theorem regSet_draftUnits (off : Nat) (v : Word) : (regSet s off v).draftUnits = s.draftUnits := rfl
@[simp] theorem regSet_mgmtPort (off : Nat) (v : Word) : (regSet s off v).mgmtPort = s.mgmtPort := rfl
@[simp] theorem regSet_mgmtFar (off : Nat) (v : Word) : (regSet s off v).mgmtFar = s.mgmtFar := rfl
@[simp] theorem regSet_draftMaps (off : Nat) (v : Word) : (regSet s off v).draftMaps = s.draftMaps := rfl
@[simp] theorem regSet_medUse (off : Nat) (v : Word) : (regSet s off v).medUse = s.medUse := rfl
@[simp] theorem regSet_medResv (off : Nat) (v : Word) : (regSet s off v).medResv = s.medResv := rfl
@[simp] theorem regSet_fetchDoms (off : Nat) (v : Word) : (regSet s off v).fetchDoms = s.fetchDoms := rfl
@[simp] theorem regSet_planLoads (off : Nat) (v : Word) : (regSet s off v).planLoads = s.planLoads := rfl
@[simp] theorem regSet_planDigests (off : Nat) (v : Word) : (regSet s off v).planDigests = s.planDigests := rfl
@[simp] theorem regSet_granules (off : Nat) (v : Word) : (regSet s off v).granules = s.granules := rfl
@[simp] theorem regSet_replicas (off : Nat) (v : Word) : (regSet s off v).replicas = s.replicas := rfl
@[simp] theorem regSet_reelStamp (off : Nat) (v : Word) : (regSet s off v).reelStamp = s.reelStamp := rfl
@[simp] theorem regSet_reelTxn (off : Nat) (v : Word) : (regSet s off v).reelTxn = s.reelTxn := rfl
@[simp] theorem regSet_kstamps (off : Nat) (v : Word) : (regSet s off v).kstamps = s.kstamps := rfl
@[simp] theorem regSet_streamUnits (off : Nat) (v : Word) : (regSet s off v).streamUnits = s.streamUnits := rfl
@[simp] theorem regSet_streamWait (off : Nat) (v : Word) : (regSet s off v).streamWait = s.streamWait := rfl
@[simp] theorem regSet_lineBuf (off : Nat) (v : Word) : (regSet s off v).lineBuf = s.lineBuf := rfl
@[simp] theorem regSet_poolMap (off : Nat) (v : Word) : (regSet s off v).poolMap = s.poolMap := rfl
@[simp] theorem regSet_ringPos (off : Nat) (v : Word) : (regSet s off v).ringPos = s.ringPos := rfl
@[simp] theorem regSet_verUnits (off : Nat) (v : Word) : (regSet s off v).verUnits = s.verUnits := rfl
@[simp] theorem regSet_hangs (off : Nat) (v : Word) : (regSet s off v).hangs = s.hangs := rfl
@[simp] theorem regSet_kiteNo (off : Nat) (v : Word) : (regSet s off v).kiteNo = s.kiteNo := rfl
@[simp] theorem regSet_cplWait (off : Nat) (v : Word) : (regSet s off v).cplWait = s.cplWait := rfl
@[simp] theorem regSet_bands (off : Nat) (v : Word) : (regSet s off v).bands = s.bands := rfl
@[simp] theorem regSet_locs (off : Nat) (v : Word) : (regSet s off v).locs = s.locs := rfl
@[simp] theorem regSet_metaLocs (off : Nat) (v : Word) : (regSet s off v).metaLocs = s.metaLocs := rfl
@[simp] theorem regSet_logSeq (off : Nat) (v : Word) : (regSet s off v).logSeq = s.logSeq := rfl
@[simp] theorem regSet_logQ (off : Nat) (v : Word) : (regSet s off v).logQ = s.logQ := rfl
@[simp] theorem regSet_logPtr (off : Nat) (v : Word) : (regSet s off v).logPtr = s.logPtr := rfl
@[simp] theorem regSet_parPtr (off : Nat) (v : Word) : (regSet s off v).parPtr = s.parPtr := rfl
@[simp] theorem regSet_decQ (off : Nat) (v : Word) : (regSet s off v).decQ = s.decQ := rfl
@[simp] theorem regSet_decisions (off : Nat) (v : Word) : (regSet s off v).decisions = s.decisions := rfl
@[simp] theorem regSet_regRecs (off : Nat) (v : Word) : (regSet s off v).regRecs = s.regRecs := rfl
@[simp] theorem regSet_rebuilt (off : Nat) (v : Word) : (regSet s off v).rebuilt = s.rebuilt := rfl
@[simp] theorem regSet_stripes (off : Nat) (v : Word) : (regSet s off v).stripes = s.stripes := rfl
@[simp] theorem regSet_parUnits (off : Nat) (v : Word) : (regSet s off v).parUnits = s.parUnits := rfl
@[simp] theorem regSet_contribs (off : Nat) (v : Word) : (regSet s off v).contribs = s.contribs := rfl
@[simp] theorem regSet_quadGeo (off : Nat) (v : Word) : (regSet s off v).quadGeo = s.quadGeo := rfl
@[simp] theorem regSet_chanRates (off : Nat) (v : Word) : (regSet s off v).chanRates = s.chanRates := rfl
@[simp] theorem regSet_blockTab (off : Nat) (v : Word) : (regSet s off v).blockTab = s.blockTab := rfl
@[simp] theorem regSet_badBlocks (off : Nat) (v : Word) : (regSet s off v).badBlocks = s.badBlocks := rfl
@[simp] theorem regSet_remaps (off : Nat) (v : Word) : (regSet s off v).remaps = s.remaps := rfl
@[simp] theorem regSet_spares (off : Nat) (v : Word) : (regSet s off v).spares = s.spares := rfl
@[simp] theorem regSet_lunTmo (off : Nat) (v : Word) : (regSet s off v).lunTmo = s.lunTmo := rfl
@[simp] theorem regSet_lunOut (off : Nat) (v : Word) : (regSet s off v).lunOut = s.lunOut := rfl
@[simp] theorem regSet_targetBytes (off : Nat) (v : Word) : (regSet s off v).targetBytes = s.targetBytes := rfl
@[simp] theorem regSet_reading (off : Nat) (v : Word) : (regSet s off v).reading = s.reading := rfl
@[simp] theorem regSet_unpowered (off : Nat) (v : Word) : (regSet s off v).unpowered = s.unpowered := rfl
@[simp] theorem regSet_sentinels (off : Nat) (v : Word) : (regSet s off v).sentinels = s.sentinels := rfl
@[simp] theorem regSet_rebuildAt (off : Nat) (v : Word) : (regSet s off v).rebuildAt = s.rebuildAt := rfl
@[simp] theorem regSet_foreign (off : Nat) (v : Word) : (regSet s off v).foreign = s.foreign := rfl
@[simp] theorem regSet_retracts (off : Nat) (v : Word) : (regSet s off v).retracts = s.retracts := rfl
@[simp] theorem regSet_copying (off : Nat) (v : Word) : (regSet s off v).copying = s.copying := rfl
@[simp] theorem regSet_recovs (off : Nat) (v : Word) : (regSet s off v).recovs = s.recovs := rfl
@[simp] theorem regSet_swOut (off : Nat) (v : Word) : (regSet s off v).swOut = s.swOut := rfl
@[simp] theorem regSet_swIn (off : Nat) (v : Word) : (regSet s off v).swIn = s.swIn := rfl
@[simp] theorem regSet_swTurn (off : Nat) (v : Word) : (regSet s off v).swTurn = s.swTurn := rfl
@[simp] theorem regSet_swLive (off : Nat) (v : Word) : (regSet s off v).swLive = s.swLive := rfl
@[simp] theorem regSet_swSpent (off : Nat) (v : Word) : (regSet s off v).swSpent = s.swSpent := rfl
@[simp] theorem regSet_mirCnt (off : Nat) (v : Word) : (regSet s off v).mirCnt = s.mirCnt := rfl
@[simp] theorem regSet_agentq (off : Nat) (v : Word) : (regSet s off v).agentq = s.agentq := rfl
@[simp] theorem regSet_agentReqs (off : Nat) (v : Word) : (regSet s off v).agentReqs = s.agentReqs := rfl
@[simp] theorem regSet_agentTxn (off : Nat) (v : Word) : (regSet s off v).agentTxn = s.agentTxn := rfl
@[simp] theorem regSet_farGot (off : Nat) (v : Word) : (regSet s off v).farGot = s.farGot := rfl
@[simp] theorem regSet_fwdWrites (off : Nat) (v : Word) : (regSet s off v).fwdWrites = s.fwdWrites := rfl
@[simp] theorem regSet_swInTurn (off : Nat) (v : Word) : (regSet s off v).swInTurn = s.swInTurn := rfl
@[simp] theorem regSet_swCycles (off : Nat) (v : Word) : (regSet s off v).swCycles = s.swCycles := rfl
@[simp] theorem regSet_reelWaits (off : Nat) (v : Word) : (regSet s off v).reelWaits = s.reelWaits := rfl
@[simp] theorem regSet_wbParts (off : Nat) (v : Word) : (regSet s off v).wbParts = s.wbParts := rfl
@[simp] theorem regSet_reelParts (off : Nat) (v : Word) : (regSet s off v).reelParts = s.reelParts := rfl
@[simp] theorem regSet_resetAt (off : Nat) (v : Word) : (regSet s off v).resetAt = s.resetAt := rfl
@[simp] theorem regSet_aonUp (off : Nat) (v : Word) : (regSet s off v).aonUp = s.aonUp := rfl
@[simp] theorem regSet_xtal (off : Nat) (v : Word) : (regSet s off v).xtal = s.xtal := rfl
@[simp] theorem regSet_wake (off : Nat) (v : Word) : (regSet s off v).wake = s.wake := rfl
@[simp] theorem regSet_stay (off : Nat) (v : Word) : (regSet s off v).stay = s.stay := rfl
@[simp] theorem regSet_resetLow (off : Nat) (v : Word) : (regSet s off v).resetLow = s.resetLow := rfl
@[simp] theorem regSet_thermTrip (off : Nat) (v : Word) : (regSet s off v).thermTrip = s.thermTrip := rfl
@[simp] theorem regSet_forceRecovery (off : Nat) (v : Word) : (regSet s off v).forceRecovery = s.forceRecovery := rfl
@[simp] theorem regSet_hotJ (off : Nat) (v : Word) : (regSet s off v).hotJ = s.hotJ := rfl
@[simp] theorem regSet_coolRun (off : Nat) (v : Word) : (regSet s off v).coolRun = s.coolRun := rfl
@[simp] theorem regSet_stepAt (off : Nat) (v : Word) : (regSet s off v).stepAt = s.stepAt := rfl
@[simp] theorem regSet_pmbFails (off : Nat) (v : Word) : (regSet s off v).pmbFails = s.pmbFails := rfl
@[simp] theorem regSet_imgRx (off : Nat) (v : Word) : (regSet s off v).imgRx = s.imgRx := rfl
@[simp] theorem regSet_imgWrite (off : Nat) (v : Word) : (regSet s off v).imgWrite = s.imgWrite := rfl
@[simp] theorem regSet_imgPort (off : Nat) (v : Word) : (regSet s off v).imgPort = s.imgPort := rfl
@[simp] theorem regSet_cmpRx (off : Nat) (v : Word) : (regSet s off v).cmpRx = s.cmpRx := rfl
@[simp] theorem regSet_sweeps (off : Nat) (v : Word) : (regSet s off v).sweeps = s.sweeps := rfl
@[simp] theorem regSet_owner (off : Nat) (v : Word) : (regSet s off v).owner = s.owner := rfl
@[simp] theorem regSet_production (off : Nat) (v : Word) : (regSet s off v).production = s.production := rfl
@[simp] theorem regSet_tsEn (off : Nat) (v : Word) : (regSet s off v).tsEn = s.tsEn := rfl
@[simp] theorem regSet_tsOpen (off : Nat) (v : Word) : (regSet s off v).tsOpen = s.tsOpen := rfl
@[simp] theorem regSet_mgmtIdle (off : Nat) (v : Word) : (regSet s off v).mgmtIdle = s.mgmtIdle := rfl
@[simp] theorem regSet_mgmtAddr (off : Nat) (v : Word) : (regSet s off v).mgmtAddr = s.mgmtAddr := rfl
@[simp] theorem regSet_mgmtNext (off : Nat) (v : Word) : (regSet s off v).mgmtNext = s.mgmtNext := rfl
@[simp] theorem regSet_ethAddr (off : Nat) (v : Word) : (regSet s off v).ethAddr = s.ethAddr := rfl
@[simp] theorem regSet_pfcQ (off : Nat) (v : Word) : (regSet s off v).pfcQ = s.pfcQ := rfl
@[simp] theorem regSet_paused (off : Nat) (v : Word) : (regSet s off v).paused = s.paused := rfl
@[simp] theorem regSet_xoff (off : Nat) (v : Word) : (regSet s off v).xoff = s.xoff := rfl
@[simp] theorem regSet_tetherSeen (off : Nat) (v : Word) : (regSet s off v).tetherSeen = s.tetherSeen := rfl
@[simp] theorem regSet_pmcHeld (off : Nat) (v : Word) : (regSet s off v).pmcHeld = s.pmcHeld := rfl
@[simp] theorem regSet_tagRegs (off : Nat) (v : Word) : (regSet s off v).tagRegs = s.tagRegs := rfl
@[simp] theorem regSet_tagFresh (off : Nat) (v : Word) : (regSet s off v).tagFresh = s.tagFresh := rfl
@[simp] theorem regSet_jtag (off : Nat) (v : Word) : (regSet s off v).jtag = s.jtag := rfl
@[simp] theorem regSet_boundary (off : Nat) (v : Word) : (regSet s off v).boundary = s.boundary := rfl
@[simp] theorem regSet_rails (off : Nat) (v : Word) : (regSet s off v).rails = s.rails := rfl
@[simp] theorem regSet_pace (off : Nat) (v : Word) : (regSet s off v).pace = s.pace := rfl
@[simp] theorem regSet_imgFlags (off : Nat) (v : Word) : (regSet s off v).imgFlags = s.imgFlags := rfl
@[simp] theorem regSet_mgmtHeld (off : Nat) (v : Word) : (regSet s off v).mgmtHeld = s.mgmtHeld := rfl
@[simp] theorem regPut_credHeld (off hi lo v : Nat) : (regPut s off hi lo v).credHeld = s.credHeld := rfl
@[simp] theorem regPut_keptCpl (off hi lo v : Nat) : (regPut s off hi lo v).keptCpl = s.keptCpl := rfl
@[simp] theorem regPut_mgmtMsg (off hi lo v : Nat) : (regPut s off hi lo v).mgmtMsg = s.mgmtMsg := rfl
@[simp] theorem regPut_draftUnits (off hi lo v : Nat) : (regPut s off hi lo v).draftUnits = s.draftUnits := rfl
@[simp] theorem regPut_mgmtPort (off hi lo v : Nat) : (regPut s off hi lo v).mgmtPort = s.mgmtPort := rfl
@[simp] theorem regPut_mgmtFar (off hi lo v : Nat) : (regPut s off hi lo v).mgmtFar = s.mgmtFar := rfl
@[simp] theorem regPut_draftMaps (off hi lo v : Nat) : (regPut s off hi lo v).draftMaps = s.draftMaps := rfl
@[simp] theorem regPut_medUse (off hi lo v : Nat) : (regPut s off hi lo v).medUse = s.medUse := rfl
@[simp] theorem regPut_medResv (off hi lo v : Nat) : (regPut s off hi lo v).medResv = s.medResv := rfl
@[simp] theorem regPut_fetchDoms (off hi lo v : Nat) : (regPut s off hi lo v).fetchDoms = s.fetchDoms := rfl
@[simp] theorem regPut_planLoads (off hi lo v : Nat) : (regPut s off hi lo v).planLoads = s.planLoads := rfl
@[simp] theorem regPut_planDigests (off hi lo v : Nat) : (regPut s off hi lo v).planDigests = s.planDigests := rfl
@[simp] theorem regPut_granules (off hi lo v : Nat) : (regPut s off hi lo v).granules = s.granules := rfl
@[simp] theorem regPut_replicas (off hi lo v : Nat) : (regPut s off hi lo v).replicas = s.replicas := rfl
@[simp] theorem regPut_reelStamp (off hi lo v : Nat) : (regPut s off hi lo v).reelStamp = s.reelStamp := rfl
@[simp] theorem regPut_reelTxn (off hi lo v : Nat) : (regPut s off hi lo v).reelTxn = s.reelTxn := rfl
@[simp] theorem regPut_kstamps (off hi lo v : Nat) : (regPut s off hi lo v).kstamps = s.kstamps := rfl
@[simp] theorem regPut_streamUnits (off hi lo v : Nat) : (regPut s off hi lo v).streamUnits = s.streamUnits := rfl
@[simp] theorem regPut_streamWait (off hi lo v : Nat) : (regPut s off hi lo v).streamWait = s.streamWait := rfl
@[simp] theorem regPut_lineBuf (off hi lo v : Nat) : (regPut s off hi lo v).lineBuf = s.lineBuf := rfl
@[simp] theorem regPut_poolMap (off hi lo v : Nat) : (regPut s off hi lo v).poolMap = s.poolMap := rfl
@[simp] theorem regPut_ringPos (off hi lo v : Nat) : (regPut s off hi lo v).ringPos = s.ringPos := rfl
@[simp] theorem regPut_verUnits (off hi lo v : Nat) : (regPut s off hi lo v).verUnits = s.verUnits := rfl
@[simp] theorem regPut_hangs (off hi lo v : Nat) : (regPut s off hi lo v).hangs = s.hangs := rfl
@[simp] theorem regPut_kiteNo (off hi lo v : Nat) : (regPut s off hi lo v).kiteNo = s.kiteNo := rfl
@[simp] theorem regPut_cplWait (off hi lo v : Nat) : (regPut s off hi lo v).cplWait = s.cplWait := rfl
@[simp] theorem regPut_bands (off hi lo v : Nat) : (regPut s off hi lo v).bands = s.bands := rfl
@[simp] theorem regPut_locs (off hi lo v : Nat) : (regPut s off hi lo v).locs = s.locs := rfl
@[simp] theorem regPut_metaLocs (off hi lo v : Nat) : (regPut s off hi lo v).metaLocs = s.metaLocs := rfl
@[simp] theorem regPut_logSeq (off hi lo v : Nat) : (regPut s off hi lo v).logSeq = s.logSeq := rfl
@[simp] theorem regPut_logQ (off hi lo v : Nat) : (regPut s off hi lo v).logQ = s.logQ := rfl
@[simp] theorem regPut_logPtr (off hi lo v : Nat) : (regPut s off hi lo v).logPtr = s.logPtr := rfl
@[simp] theorem regPut_parPtr (off hi lo v : Nat) : (regPut s off hi lo v).parPtr = s.parPtr := rfl
@[simp] theorem regPut_decQ (off hi lo v : Nat) : (regPut s off hi lo v).decQ = s.decQ := rfl
@[simp] theorem regPut_decisions (off hi lo v : Nat) : (regPut s off hi lo v).decisions = s.decisions := rfl
@[simp] theorem regPut_regRecs (off hi lo v : Nat) : (regPut s off hi lo v).regRecs = s.regRecs := rfl
@[simp] theorem regPut_rebuilt (off hi lo v : Nat) : (regPut s off hi lo v).rebuilt = s.rebuilt := rfl
@[simp] theorem regPut_stripes (off hi lo v : Nat) : (regPut s off hi lo v).stripes = s.stripes := rfl
@[simp] theorem regPut_parUnits (off hi lo v : Nat) : (regPut s off hi lo v).parUnits = s.parUnits := rfl
@[simp] theorem regPut_contribs (off hi lo v : Nat) : (regPut s off hi lo v).contribs = s.contribs := rfl
@[simp] theorem regPut_quadGeo (off hi lo v : Nat) : (regPut s off hi lo v).quadGeo = s.quadGeo := rfl
@[simp] theorem regPut_chanRates (off hi lo v : Nat) : (regPut s off hi lo v).chanRates = s.chanRates := rfl
@[simp] theorem regPut_blockTab (off hi lo v : Nat) : (regPut s off hi lo v).blockTab = s.blockTab := rfl
@[simp] theorem regPut_badBlocks (off hi lo v : Nat) : (regPut s off hi lo v).badBlocks = s.badBlocks := rfl
@[simp] theorem regPut_remaps (off hi lo v : Nat) : (regPut s off hi lo v).remaps = s.remaps := rfl
@[simp] theorem regPut_spares (off hi lo v : Nat) : (regPut s off hi lo v).spares = s.spares := rfl
@[simp] theorem regPut_lunTmo (off hi lo v : Nat) : (regPut s off hi lo v).lunTmo = s.lunTmo := rfl
@[simp] theorem regPut_lunOut (off hi lo v : Nat) : (regPut s off hi lo v).lunOut = s.lunOut := rfl
@[simp] theorem regPut_targetBytes (off hi lo v : Nat) : (regPut s off hi lo v).targetBytes = s.targetBytes := rfl
@[simp] theorem regPut_reading (off hi lo v : Nat) : (regPut s off hi lo v).reading = s.reading := rfl
@[simp] theorem regPut_unpowered (off hi lo v : Nat) : (regPut s off hi lo v).unpowered = s.unpowered := rfl
@[simp] theorem regPut_sentinels (off hi lo v : Nat) : (regPut s off hi lo v).sentinels = s.sentinels := rfl
@[simp] theorem regPut_rebuildAt (off hi lo v : Nat) : (regPut s off hi lo v).rebuildAt = s.rebuildAt := rfl
@[simp] theorem regPut_foreign (off hi lo v : Nat) : (regPut s off hi lo v).foreign = s.foreign := rfl
@[simp] theorem regPut_retracts (off hi lo v : Nat) : (regPut s off hi lo v).retracts = s.retracts := rfl
@[simp] theorem regPut_copying (off hi lo v : Nat) : (regPut s off hi lo v).copying = s.copying := rfl
@[simp] theorem regPut_recovs (off hi lo v : Nat) : (regPut s off hi lo v).recovs = s.recovs := rfl
@[simp] theorem regPut_swOut (off hi lo v : Nat) : (regPut s off hi lo v).swOut = s.swOut := rfl
@[simp] theorem regPut_swIn (off hi lo v : Nat) : (regPut s off hi lo v).swIn = s.swIn := rfl
@[simp] theorem regPut_swTurn (off hi lo v : Nat) : (regPut s off hi lo v).swTurn = s.swTurn := rfl
@[simp] theorem regPut_swLive (off hi lo v : Nat) : (regPut s off hi lo v).swLive = s.swLive := rfl
@[simp] theorem regPut_swSpent (off hi lo v : Nat) : (regPut s off hi lo v).swSpent = s.swSpent := rfl
@[simp] theorem regPut_mirCnt (off hi lo v : Nat) : (regPut s off hi lo v).mirCnt = s.mirCnt := rfl
@[simp] theorem regPut_agentq (off hi lo v : Nat) : (regPut s off hi lo v).agentq = s.agentq := rfl
@[simp] theorem regPut_agentReqs (off hi lo v : Nat) : (regPut s off hi lo v).agentReqs = s.agentReqs := rfl
@[simp] theorem regPut_agentTxn (off hi lo v : Nat) : (regPut s off hi lo v).agentTxn = s.agentTxn := rfl
@[simp] theorem regPut_farGot (off hi lo v : Nat) : (regPut s off hi lo v).farGot = s.farGot := rfl
@[simp] theorem regPut_fwdWrites (off hi lo v : Nat) : (regPut s off hi lo v).fwdWrites = s.fwdWrites := rfl
@[simp] theorem regPut_swInTurn (off hi lo v : Nat) : (regPut s off hi lo v).swInTurn = s.swInTurn := rfl
@[simp] theorem regPut_swCycles (off hi lo v : Nat) : (regPut s off hi lo v).swCycles = s.swCycles := rfl
@[simp] theorem regPut_reelWaits (off hi lo v : Nat) : (regPut s off hi lo v).reelWaits = s.reelWaits := rfl
@[simp] theorem regPut_wbParts (off hi lo v : Nat) : (regPut s off hi lo v).wbParts = s.wbParts := rfl
@[simp] theorem regPut_reelParts (off hi lo v : Nat) : (regPut s off hi lo v).reelParts = s.reelParts := rfl
@[simp] theorem regPut_resetAt (off hi lo v : Nat) : (regPut s off hi lo v).resetAt = s.resetAt := rfl
@[simp] theorem regPut_aonUp (off hi lo v : Nat) : (regPut s off hi lo v).aonUp = s.aonUp := rfl
@[simp] theorem regPut_xtal (off hi lo v : Nat) : (regPut s off hi lo v).xtal = s.xtal := rfl
@[simp] theorem regPut_wake (off hi lo v : Nat) : (regPut s off hi lo v).wake = s.wake := rfl
@[simp] theorem regPut_stay (off hi lo v : Nat) : (regPut s off hi lo v).stay = s.stay := rfl
@[simp] theorem regPut_resetLow (off hi lo v : Nat) : (regPut s off hi lo v).resetLow = s.resetLow := rfl
@[simp] theorem regPut_thermTrip (off hi lo v : Nat) : (regPut s off hi lo v).thermTrip = s.thermTrip := rfl
@[simp] theorem regPut_forceRecovery (off hi lo v : Nat) : (regPut s off hi lo v).forceRecovery = s.forceRecovery := rfl
@[simp] theorem regPut_hotJ (off hi lo v : Nat) : (regPut s off hi lo v).hotJ = s.hotJ := rfl
@[simp] theorem regPut_coolRun (off hi lo v : Nat) : (regPut s off hi lo v).coolRun = s.coolRun := rfl
@[simp] theorem regPut_stepAt (off hi lo v : Nat) : (regPut s off hi lo v).stepAt = s.stepAt := rfl
@[simp] theorem regPut_pmbFails (off hi lo v : Nat) : (regPut s off hi lo v).pmbFails = s.pmbFails := rfl
@[simp] theorem regPut_imgRx (off hi lo v : Nat) : (regPut s off hi lo v).imgRx = s.imgRx := rfl
@[simp] theorem regPut_imgWrite (off hi lo v : Nat) : (regPut s off hi lo v).imgWrite = s.imgWrite := rfl
@[simp] theorem regPut_imgPort (off hi lo v : Nat) : (regPut s off hi lo v).imgPort = s.imgPort := rfl
@[simp] theorem regPut_cmpRx (off hi lo v : Nat) : (regPut s off hi lo v).cmpRx = s.cmpRx := rfl
@[simp] theorem regPut_sweeps (off hi lo v : Nat) : (regPut s off hi lo v).sweeps = s.sweeps := rfl
@[simp] theorem regPut_owner (off hi lo v : Nat) : (regPut s off hi lo v).owner = s.owner := rfl
@[simp] theorem regPut_production (off hi lo v : Nat) : (regPut s off hi lo v).production = s.production := rfl
@[simp] theorem regPut_tsEn (off hi lo v : Nat) : (regPut s off hi lo v).tsEn = s.tsEn := rfl
@[simp] theorem regPut_tsOpen (off hi lo v : Nat) : (regPut s off hi lo v).tsOpen = s.tsOpen := rfl
@[simp] theorem regPut_mgmtIdle (off hi lo v : Nat) : (regPut s off hi lo v).mgmtIdle = s.mgmtIdle := rfl
@[simp] theorem regPut_mgmtAddr (off hi lo v : Nat) : (regPut s off hi lo v).mgmtAddr = s.mgmtAddr := rfl
@[simp] theorem regPut_mgmtNext (off hi lo v : Nat) : (regPut s off hi lo v).mgmtNext = s.mgmtNext := rfl
@[simp] theorem regPut_ethAddr (off hi lo v : Nat) : (regPut s off hi lo v).ethAddr = s.ethAddr := rfl
@[simp] theorem regPut_pfcQ (off hi lo v : Nat) : (regPut s off hi lo v).pfcQ = s.pfcQ := rfl
@[simp] theorem regPut_paused (off hi lo v : Nat) : (regPut s off hi lo v).paused = s.paused := rfl
@[simp] theorem regPut_xoff (off hi lo v : Nat) : (regPut s off hi lo v).xoff = s.xoff := rfl
@[simp] theorem regPut_tetherSeen (off hi lo v : Nat) : (regPut s off hi lo v).tetherSeen = s.tetherSeen := rfl
@[simp] theorem regPut_pmcHeld (off hi lo v : Nat) : (regPut s off hi lo v).pmcHeld = s.pmcHeld := rfl
@[simp] theorem regPut_tagRegs (off hi lo v : Nat) : (regPut s off hi lo v).tagRegs = s.tagRegs := rfl
@[simp] theorem regPut_tagFresh (off hi lo v : Nat) : (regPut s off hi lo v).tagFresh = s.tagFresh := rfl
@[simp] theorem regPut_jtag (off hi lo v : Nat) : (regPut s off hi lo v).jtag = s.jtag := rfl
@[simp] theorem regPut_boundary (off hi lo v : Nat) : (regPut s off hi lo v).boundary = s.boundary := rfl
@[simp] theorem regPut_rails (off hi lo v : Nat) : (regPut s off hi lo v).rails = s.rails := rfl
@[simp] theorem regPut_pace (off hi lo v : Nat) : (regPut s off hi lo v).pace = s.pace := rfl
@[simp] theorem regPut_imgFlags (off hi lo v : Nat) : (regPut s off hi lo v).imgFlags = s.imgFlags := rfl
@[simp] theorem regPut_mgmtHeld (off hi lo v : Nat) : (regPut s off hi lo v).mgmtHeld = s.mgmtHeld := rfl
@[simp] theorem setBit_credHeld (off b : Nat) : (setBit s off b).credHeld = s.credHeld := rfl
@[simp] theorem setBit_keptCpl (off b : Nat) : (setBit s off b).keptCpl = s.keptCpl := rfl
@[simp] theorem setBit_mgmtMsg (off b : Nat) : (setBit s off b).mgmtMsg = s.mgmtMsg := rfl
@[simp] theorem setBit_draftUnits (off b : Nat) : (setBit s off b).draftUnits = s.draftUnits := rfl
@[simp] theorem setBit_mgmtPort (off b : Nat) : (setBit s off b).mgmtPort = s.mgmtPort := rfl
@[simp] theorem setBit_mgmtFar (off b : Nat) : (setBit s off b).mgmtFar = s.mgmtFar := rfl
@[simp] theorem setBit_draftMaps (off b : Nat) : (setBit s off b).draftMaps = s.draftMaps := rfl
@[simp] theorem setBit_medUse (off b : Nat) : (setBit s off b).medUse = s.medUse := rfl
@[simp] theorem setBit_medResv (off b : Nat) : (setBit s off b).medResv = s.medResv := rfl
@[simp] theorem setBit_fetchDoms (off b : Nat) : (setBit s off b).fetchDoms = s.fetchDoms := rfl
@[simp] theorem setBit_planLoads (off b : Nat) : (setBit s off b).planLoads = s.planLoads := rfl
@[simp] theorem setBit_planDigests (off b : Nat) : (setBit s off b).planDigests = s.planDigests := rfl
@[simp] theorem setBit_granules (off b : Nat) : (setBit s off b).granules = s.granules := rfl
@[simp] theorem setBit_replicas (off b : Nat) : (setBit s off b).replicas = s.replicas := rfl
@[simp] theorem setBit_reelStamp (off b : Nat) : (setBit s off b).reelStamp = s.reelStamp := rfl
@[simp] theorem setBit_reelTxn (off b : Nat) : (setBit s off b).reelTxn = s.reelTxn := rfl
@[simp] theorem setBit_kstamps (off b : Nat) : (setBit s off b).kstamps = s.kstamps := rfl
@[simp] theorem setBit_streamUnits (off b : Nat) : (setBit s off b).streamUnits = s.streamUnits := rfl
@[simp] theorem setBit_streamWait (off b : Nat) : (setBit s off b).streamWait = s.streamWait := rfl
@[simp] theorem setBit_lineBuf (off b : Nat) : (setBit s off b).lineBuf = s.lineBuf := rfl
@[simp] theorem setBit_poolMap (off b : Nat) : (setBit s off b).poolMap = s.poolMap := rfl
@[simp] theorem setBit_ringPos (off b : Nat) : (setBit s off b).ringPos = s.ringPos := rfl
@[simp] theorem setBit_verUnits (off b : Nat) : (setBit s off b).verUnits = s.verUnits := rfl
@[simp] theorem setBit_hangs (off b : Nat) : (setBit s off b).hangs = s.hangs := rfl
@[simp] theorem setBit_kiteNo (off b : Nat) : (setBit s off b).kiteNo = s.kiteNo := rfl
@[simp] theorem setBit_cplWait (off b : Nat) : (setBit s off b).cplWait = s.cplWait := rfl
@[simp] theorem setBit_bands (off b : Nat) : (setBit s off b).bands = s.bands := rfl
@[simp] theorem setBit_locs (off b : Nat) : (setBit s off b).locs = s.locs := rfl
@[simp] theorem setBit_metaLocs (off b : Nat) : (setBit s off b).metaLocs = s.metaLocs := rfl
@[simp] theorem setBit_logSeq (off b : Nat) : (setBit s off b).logSeq = s.logSeq := rfl
@[simp] theorem setBit_logQ (off b : Nat) : (setBit s off b).logQ = s.logQ := rfl
@[simp] theorem setBit_logPtr (off b : Nat) : (setBit s off b).logPtr = s.logPtr := rfl
@[simp] theorem setBit_parPtr (off b : Nat) : (setBit s off b).parPtr = s.parPtr := rfl
@[simp] theorem setBit_decQ (off b : Nat) : (setBit s off b).decQ = s.decQ := rfl
@[simp] theorem setBit_decisions (off b : Nat) : (setBit s off b).decisions = s.decisions := rfl
@[simp] theorem setBit_regRecs (off b : Nat) : (setBit s off b).regRecs = s.regRecs := rfl
@[simp] theorem setBit_rebuilt (off b : Nat) : (setBit s off b).rebuilt = s.rebuilt := rfl
@[simp] theorem setBit_stripes (off b : Nat) : (setBit s off b).stripes = s.stripes := rfl
@[simp] theorem setBit_parUnits (off b : Nat) : (setBit s off b).parUnits = s.parUnits := rfl
@[simp] theorem setBit_contribs (off b : Nat) : (setBit s off b).contribs = s.contribs := rfl
@[simp] theorem setBit_quadGeo (off b : Nat) : (setBit s off b).quadGeo = s.quadGeo := rfl
@[simp] theorem setBit_chanRates (off b : Nat) : (setBit s off b).chanRates = s.chanRates := rfl
@[simp] theorem setBit_blockTab (off b : Nat) : (setBit s off b).blockTab = s.blockTab := rfl
@[simp] theorem setBit_badBlocks (off b : Nat) : (setBit s off b).badBlocks = s.badBlocks := rfl
@[simp] theorem setBit_remaps (off b : Nat) : (setBit s off b).remaps = s.remaps := rfl
@[simp] theorem setBit_spares (off b : Nat) : (setBit s off b).spares = s.spares := rfl
@[simp] theorem setBit_lunTmo (off b : Nat) : (setBit s off b).lunTmo = s.lunTmo := rfl
@[simp] theorem setBit_lunOut (off b : Nat) : (setBit s off b).lunOut = s.lunOut := rfl
@[simp] theorem setBit_targetBytes (off b : Nat) : (setBit s off b).targetBytes = s.targetBytes := rfl
@[simp] theorem setBit_reading (off b : Nat) : (setBit s off b).reading = s.reading := rfl
@[simp] theorem setBit_unpowered (off b : Nat) : (setBit s off b).unpowered = s.unpowered := rfl
@[simp] theorem setBit_sentinels (off b : Nat) : (setBit s off b).sentinels = s.sentinels := rfl
@[simp] theorem setBit_rebuildAt (off b : Nat) : (setBit s off b).rebuildAt = s.rebuildAt := rfl
@[simp] theorem setBit_foreign (off b : Nat) : (setBit s off b).foreign = s.foreign := rfl
@[simp] theorem setBit_retracts (off b : Nat) : (setBit s off b).retracts = s.retracts := rfl
@[simp] theorem setBit_copying (off b : Nat) : (setBit s off b).copying = s.copying := rfl
@[simp] theorem setBit_recovs (off b : Nat) : (setBit s off b).recovs = s.recovs := rfl
@[simp] theorem setBit_swOut (off b : Nat) : (setBit s off b).swOut = s.swOut := rfl
@[simp] theorem setBit_swIn (off b : Nat) : (setBit s off b).swIn = s.swIn := rfl
@[simp] theorem setBit_swTurn (off b : Nat) : (setBit s off b).swTurn = s.swTurn := rfl
@[simp] theorem setBit_swLive (off b : Nat) : (setBit s off b).swLive = s.swLive := rfl
@[simp] theorem setBit_swSpent (off b : Nat) : (setBit s off b).swSpent = s.swSpent := rfl
@[simp] theorem setBit_mirCnt (off b : Nat) : (setBit s off b).mirCnt = s.mirCnt := rfl
@[simp] theorem setBit_agentq (off b : Nat) : (setBit s off b).agentq = s.agentq := rfl
@[simp] theorem setBit_agentReqs (off b : Nat) : (setBit s off b).agentReqs = s.agentReqs := rfl
@[simp] theorem setBit_agentTxn (off b : Nat) : (setBit s off b).agentTxn = s.agentTxn := rfl
@[simp] theorem setBit_farGot (off b : Nat) : (setBit s off b).farGot = s.farGot := rfl
@[simp] theorem setBit_fwdWrites (off b : Nat) : (setBit s off b).fwdWrites = s.fwdWrites := rfl
@[simp] theorem setBit_swInTurn (off b : Nat) : (setBit s off b).swInTurn = s.swInTurn := rfl
@[simp] theorem setBit_swCycles (off b : Nat) : (setBit s off b).swCycles = s.swCycles := rfl
@[simp] theorem setBit_reelWaits (off b : Nat) : (setBit s off b).reelWaits = s.reelWaits := rfl
@[simp] theorem setBit_wbParts (off b : Nat) : (setBit s off b).wbParts = s.wbParts := rfl
@[simp] theorem setBit_reelParts (off b : Nat) : (setBit s off b).reelParts = s.reelParts := rfl
@[simp] theorem setBit_resetAt (off b : Nat) : (setBit s off b).resetAt = s.resetAt := rfl
@[simp] theorem setBit_aonUp (off b : Nat) : (setBit s off b).aonUp = s.aonUp := rfl
@[simp] theorem setBit_xtal (off b : Nat) : (setBit s off b).xtal = s.xtal := rfl
@[simp] theorem setBit_wake (off b : Nat) : (setBit s off b).wake = s.wake := rfl
@[simp] theorem setBit_stay (off b : Nat) : (setBit s off b).stay = s.stay := rfl
@[simp] theorem setBit_resetLow (off b : Nat) : (setBit s off b).resetLow = s.resetLow := rfl
@[simp] theorem setBit_thermTrip (off b : Nat) : (setBit s off b).thermTrip = s.thermTrip := rfl
@[simp] theorem setBit_forceRecovery (off b : Nat) : (setBit s off b).forceRecovery = s.forceRecovery := rfl
@[simp] theorem setBit_hotJ (off b : Nat) : (setBit s off b).hotJ = s.hotJ := rfl
@[simp] theorem setBit_coolRun (off b : Nat) : (setBit s off b).coolRun = s.coolRun := rfl
@[simp] theorem setBit_stepAt (off b : Nat) : (setBit s off b).stepAt = s.stepAt := rfl
@[simp] theorem setBit_pmbFails (off b : Nat) : (setBit s off b).pmbFails = s.pmbFails := rfl
@[simp] theorem setBit_imgRx (off b : Nat) : (setBit s off b).imgRx = s.imgRx := rfl
@[simp] theorem setBit_imgWrite (off b : Nat) : (setBit s off b).imgWrite = s.imgWrite := rfl
@[simp] theorem setBit_imgPort (off b : Nat) : (setBit s off b).imgPort = s.imgPort := rfl
@[simp] theorem setBit_cmpRx (off b : Nat) : (setBit s off b).cmpRx = s.cmpRx := rfl
@[simp] theorem setBit_sweeps (off b : Nat) : (setBit s off b).sweeps = s.sweeps := rfl
@[simp] theorem setBit_owner (off b : Nat) : (setBit s off b).owner = s.owner := rfl
@[simp] theorem setBit_production (off b : Nat) : (setBit s off b).production = s.production := rfl
@[simp] theorem setBit_tsEn (off b : Nat) : (setBit s off b).tsEn = s.tsEn := rfl
@[simp] theorem setBit_tsOpen (off b : Nat) : (setBit s off b).tsOpen = s.tsOpen := rfl
@[simp] theorem setBit_mgmtIdle (off b : Nat) : (setBit s off b).mgmtIdle = s.mgmtIdle := rfl
@[simp] theorem setBit_mgmtAddr (off b : Nat) : (setBit s off b).mgmtAddr = s.mgmtAddr := rfl
@[simp] theorem setBit_mgmtNext (off b : Nat) : (setBit s off b).mgmtNext = s.mgmtNext := rfl
@[simp] theorem setBit_ethAddr (off b : Nat) : (setBit s off b).ethAddr = s.ethAddr := rfl
@[simp] theorem setBit_pfcQ (off b : Nat) : (setBit s off b).pfcQ = s.pfcQ := rfl
@[simp] theorem setBit_paused (off b : Nat) : (setBit s off b).paused = s.paused := rfl
@[simp] theorem setBit_xoff (off b : Nat) : (setBit s off b).xoff = s.xoff := rfl
@[simp] theorem setBit_tetherSeen (off b : Nat) : (setBit s off b).tetherSeen = s.tetherSeen := rfl
@[simp] theorem setBit_pmcHeld (off b : Nat) : (setBit s off b).pmcHeld = s.pmcHeld := rfl
@[simp] theorem setBit_tagRegs (off b : Nat) : (setBit s off b).tagRegs = s.tagRegs := rfl
@[simp] theorem setBit_tagFresh (off b : Nat) : (setBit s off b).tagFresh = s.tagFresh := rfl
@[simp] theorem setBit_jtag (off b : Nat) : (setBit s off b).jtag = s.jtag := rfl
@[simp] theorem setBit_boundary (off b : Nat) : (setBit s off b).boundary = s.boundary := rfl
@[simp] theorem setBit_rails (off b : Nat) : (setBit s off b).rails = s.rails := rfl
@[simp] theorem setBit_pace (off b : Nat) : (setBit s off b).pace = s.pace := rfl
@[simp] theorem setBit_imgFlags (off b : Nat) : (setBit s off b).imgFlags = s.imgFlags := rfl
@[simp] theorem setBit_mgmtHeld (off b : Nat) : (setBit s off b).mgmtHeld = s.mgmtHeld := rfl
@[simp] theorem clrBit_coverSent (off b : Nat) : (clrBit s off b).coverSent = s.coverSent := rfl
@[simp] theorem clrBit_credHeld (off b : Nat) : (clrBit s off b).credHeld = s.credHeld := rfl
@[simp] theorem clrBit_keptCpl (off b : Nat) : (clrBit s off b).keptCpl = s.keptCpl := rfl
@[simp] theorem clrBit_mgmtMsg (off b : Nat) : (clrBit s off b).mgmtMsg = s.mgmtMsg := rfl
@[simp] theorem clrBit_draftUnits (off b : Nat) : (clrBit s off b).draftUnits = s.draftUnits := rfl
@[simp] theorem clrBit_mgmtPort (off b : Nat) : (clrBit s off b).mgmtPort = s.mgmtPort := rfl
@[simp] theorem clrBit_mgmtFar (off b : Nat) : (clrBit s off b).mgmtFar = s.mgmtFar := rfl
@[simp] theorem clrBit_draftMaps (off b : Nat) : (clrBit s off b).draftMaps = s.draftMaps := rfl
@[simp] theorem clrBit_medUse (off b : Nat) : (clrBit s off b).medUse = s.medUse := rfl
@[simp] theorem clrBit_medResv (off b : Nat) : (clrBit s off b).medResv = s.medResv := rfl
@[simp] theorem clrBit_fetchDoms (off b : Nat) : (clrBit s off b).fetchDoms = s.fetchDoms := rfl
@[simp] theorem clrBit_readyNo (off b : Nat) : (clrBit s off b).readyNo = s.readyNo := rfl
@[simp] theorem clrBit_fireNo (off b : Nat) : (clrBit s off b).fireNo = s.fireNo := rfl
@[simp] theorem clrBit_planLoads (off b : Nat) : (clrBit s off b).planLoads = s.planLoads := rfl
@[simp] theorem clrBit_planDigests (off b : Nat) : (clrBit s off b).planDigests = s.planDigests := rfl
@[simp] theorem clrBit_granules (off b : Nat) : (clrBit s off b).granules = s.granules := rfl
@[simp] theorem clrBit_replicas (off b : Nat) : (clrBit s off b).replicas = s.replicas := rfl
@[simp] theorem clrBit_reelStamp (off b : Nat) : (clrBit s off b).reelStamp = s.reelStamp := rfl
@[simp] theorem clrBit_reelTxn (off b : Nat) : (clrBit s off b).reelTxn = s.reelTxn := rfl
@[simp] theorem clrBit_kstamps (off b : Nat) : (clrBit s off b).kstamps = s.kstamps := rfl
@[simp] theorem clrBit_streamUnits (off b : Nat) : (clrBit s off b).streamUnits = s.streamUnits := rfl
@[simp] theorem clrBit_streamWait (off b : Nat) : (clrBit s off b).streamWait = s.streamWait := rfl
@[simp] theorem clrBit_lineBuf (off b : Nat) : (clrBit s off b).lineBuf = s.lineBuf := rfl
@[simp] theorem clrBit_poolMap (off b : Nat) : (clrBit s off b).poolMap = s.poolMap := rfl
@[simp] theorem clrBit_ringPos (off b : Nat) : (clrBit s off b).ringPos = s.ringPos := rfl
@[simp] theorem clrBit_verUnits (off b : Nat) : (clrBit s off b).verUnits = s.verUnits := rfl
@[simp] theorem clrBit_hangs (off b : Nat) : (clrBit s off b).hangs = s.hangs := rfl
@[simp] theorem clrBit_rowTurn (off b : Nat) : (clrBit s off b).rowTurn = s.rowTurn := rfl
@[simp] theorem clrBit_kiteNo (off b : Nat) : (clrBit s off b).kiteNo = s.kiteNo := rfl
@[simp] theorem clrBit_cplWait (off b : Nat) : (clrBit s off b).cplWait = s.cplWait := rfl
@[simp] theorem clrBit_bands (off b : Nat) : (clrBit s off b).bands = s.bands := rfl
@[simp] theorem clrBit_locs (off b : Nat) : (clrBit s off b).locs = s.locs := rfl
@[simp] theorem clrBit_metaLocs (off b : Nat) : (clrBit s off b).metaLocs = s.metaLocs := rfl
@[simp] theorem clrBit_logSeq (off b : Nat) : (clrBit s off b).logSeq = s.logSeq := rfl
@[simp] theorem clrBit_logQ (off b : Nat) : (clrBit s off b).logQ = s.logQ := rfl
@[simp] theorem clrBit_logPtr (off b : Nat) : (clrBit s off b).logPtr = s.logPtr := rfl
@[simp] theorem clrBit_parPtr (off b : Nat) : (clrBit s off b).parPtr = s.parPtr := rfl
@[simp] theorem clrBit_decQ (off b : Nat) : (clrBit s off b).decQ = s.decQ := rfl
@[simp] theorem clrBit_decisions (off b : Nat) : (clrBit s off b).decisions = s.decisions := rfl
@[simp] theorem clrBit_regRecs (off b : Nat) : (clrBit s off b).regRecs = s.regRecs := rfl
@[simp] theorem clrBit_rebuilt (off b : Nat) : (clrBit s off b).rebuilt = s.rebuilt := rfl
@[simp] theorem clrBit_stripes (off b : Nat) : (clrBit s off b).stripes = s.stripes := rfl
@[simp] theorem clrBit_parUnits (off b : Nat) : (clrBit s off b).parUnits = s.parUnits := rfl
@[simp] theorem clrBit_contribs (off b : Nat) : (clrBit s off b).contribs = s.contribs := rfl
@[simp] theorem clrBit_quadGeo (off b : Nat) : (clrBit s off b).quadGeo = s.quadGeo := rfl
@[simp] theorem clrBit_chanRates (off b : Nat) : (clrBit s off b).chanRates = s.chanRates := rfl
@[simp] theorem clrBit_blockTab (off b : Nat) : (clrBit s off b).blockTab = s.blockTab := rfl
@[simp] theorem clrBit_badBlocks (off b : Nat) : (clrBit s off b).badBlocks = s.badBlocks := rfl
@[simp] theorem clrBit_remaps (off b : Nat) : (clrBit s off b).remaps = s.remaps := rfl
@[simp] theorem clrBit_spares (off b : Nat) : (clrBit s off b).spares = s.spares := rfl
@[simp] theorem clrBit_lunTmo (off b : Nat) : (clrBit s off b).lunTmo = s.lunTmo := rfl
@[simp] theorem clrBit_lunOut (off b : Nat) : (clrBit s off b).lunOut = s.lunOut := rfl
@[simp] theorem clrBit_targetBytes (off b : Nat) : (clrBit s off b).targetBytes = s.targetBytes := rfl
@[simp] theorem clrBit_reading (off b : Nat) : (clrBit s off b).reading = s.reading := rfl
@[simp] theorem clrBit_unpowered (off b : Nat) : (clrBit s off b).unpowered = s.unpowered := rfl
@[simp] theorem clrBit_sentinels (off b : Nat) : (clrBit s off b).sentinels = s.sentinels := rfl
@[simp] theorem clrBit_scrubs (off b : Nat) : (clrBit s off b).scrubs = s.scrubs := rfl
@[simp] theorem clrBit_lateQ (off b : Nat) : (clrBit s off b).lateQ = s.lateQ := rfl
@[simp] theorem clrBit_rebuildAt (off b : Nat) : (clrBit s off b).rebuildAt = s.rebuildAt := rfl
@[simp] theorem clrBit_foreign (off b : Nat) : (clrBit s off b).foreign = s.foreign := rfl
@[simp] theorem clrBit_retracts (off b : Nat) : (clrBit s off b).retracts = s.retracts := rfl
@[simp] theorem clrBit_copying (off b : Nat) : (clrBit s off b).copying = s.copying := rfl
@[simp] theorem clrBit_recovs (off b : Nat) : (clrBit s off b).recovs = s.recovs := rfl
@[simp] theorem clrBit_swOut (off b : Nat) : (clrBit s off b).swOut = s.swOut := rfl
@[simp] theorem clrBit_swIn (off b : Nat) : (clrBit s off b).swIn = s.swIn := rfl
@[simp] theorem clrBit_swTurn (off b : Nat) : (clrBit s off b).swTurn = s.swTurn := rfl
@[simp] theorem clrBit_swLive (off b : Nat) : (clrBit s off b).swLive = s.swLive := rfl
@[simp] theorem clrBit_swSpent (off b : Nat) : (clrBit s off b).swSpent = s.swSpent := rfl
@[simp] theorem clrBit_mirCnt (off b : Nat) : (clrBit s off b).mirCnt = s.mirCnt := rfl
@[simp] theorem clrBit_fabReqs (off b : Nat) : (clrBit s off b).fabReqs = s.fabReqs := rfl
@[simp] theorem clrBit_agentq (off b : Nat) : (clrBit s off b).agentq = s.agentq := rfl
@[simp] theorem clrBit_agentReqs (off b : Nat) : (clrBit s off b).agentReqs = s.agentReqs := rfl
@[simp] theorem clrBit_agentTxn (off b : Nat) : (clrBit s off b).agentTxn = s.agentTxn := rfl
@[simp] theorem clrBit_farGot (off b : Nat) : (clrBit s off b).farGot = s.farGot := rfl
@[simp] theorem clrBit_fwdWrites (off b : Nat) : (clrBit s off b).fwdWrites = s.fwdWrites := rfl
@[simp] theorem clrBit_swInTurn (off b : Nat) : (clrBit s off b).swInTurn = s.swInTurn := rfl
@[simp] theorem clrBit_swCycles (off b : Nat) : (clrBit s off b).swCycles = s.swCycles := rfl
@[simp] theorem clrBit_reelWaits (off b : Nat) : (clrBit s off b).reelWaits = s.reelWaits := rfl
@[simp] theorem clrBit_wbParts (off b : Nat) : (clrBit s off b).wbParts = s.wbParts := rfl
@[simp] theorem clrBit_reelParts (off b : Nat) : (clrBit s off b).reelParts = s.reelParts := rfl
@[simp] theorem clrBit_resetAt (off b : Nat) : (clrBit s off b).resetAt = s.resetAt := rfl
@[simp] theorem clrBit_aonUp (off b : Nat) : (clrBit s off b).aonUp = s.aonUp := rfl
@[simp] theorem clrBit_xtal (off b : Nat) : (clrBit s off b).xtal = s.xtal := rfl
@[simp] theorem clrBit_wake (off b : Nat) : (clrBit s off b).wake = s.wake := rfl
@[simp] theorem clrBit_stay (off b : Nat) : (clrBit s off b).stay = s.stay := rfl
@[simp] theorem clrBit_resetLow (off b : Nat) : (clrBit s off b).resetLow = s.resetLow := rfl
@[simp] theorem clrBit_thermTrip (off b : Nat) : (clrBit s off b).thermTrip = s.thermTrip := rfl
@[simp] theorem clrBit_forceRecovery (off b : Nat) : (clrBit s off b).forceRecovery = s.forceRecovery := rfl
@[simp] theorem clrBit_hotJ (off b : Nat) : (clrBit s off b).hotJ = s.hotJ := rfl
@[simp] theorem clrBit_coolRun (off b : Nat) : (clrBit s off b).coolRun = s.coolRun := rfl
@[simp] theorem clrBit_stepAt (off b : Nat) : (clrBit s off b).stepAt = s.stepAt := rfl
@[simp] theorem clrBit_pmbFails (off b : Nat) : (clrBit s off b).pmbFails = s.pmbFails := rfl
@[simp] theorem clrBit_imgRx (off b : Nat) : (clrBit s off b).imgRx = s.imgRx := rfl
@[simp] theorem clrBit_imgWrite (off b : Nat) : (clrBit s off b).imgWrite = s.imgWrite := rfl
@[simp] theorem clrBit_imgPort (off b : Nat) : (clrBit s off b).imgPort = s.imgPort := rfl
@[simp] theorem clrBit_cmpRx (off b : Nat) : (clrBit s off b).cmpRx = s.cmpRx := rfl
@[simp] theorem clrBit_sweeps (off b : Nat) : (clrBit s off b).sweeps = s.sweeps := rfl
@[simp] theorem clrBit_owner (off b : Nat) : (clrBit s off b).owner = s.owner := rfl
@[simp] theorem clrBit_production (off b : Nat) : (clrBit s off b).production = s.production := rfl
@[simp] theorem clrBit_tsEn (off b : Nat) : (clrBit s off b).tsEn = s.tsEn := rfl
@[simp] theorem clrBit_tsOpen (off b : Nat) : (clrBit s off b).tsOpen = s.tsOpen := rfl
@[simp] theorem clrBit_mgmtIdle (off b : Nat) : (clrBit s off b).mgmtIdle = s.mgmtIdle := rfl
@[simp] theorem clrBit_mgmtAddr (off b : Nat) : (clrBit s off b).mgmtAddr = s.mgmtAddr := rfl
@[simp] theorem clrBit_mgmtNext (off b : Nat) : (clrBit s off b).mgmtNext = s.mgmtNext := rfl
@[simp] theorem clrBit_ethAddr (off b : Nat) : (clrBit s off b).ethAddr = s.ethAddr := rfl
@[simp] theorem clrBit_pfcQ (off b : Nat) : (clrBit s off b).pfcQ = s.pfcQ := rfl
@[simp] theorem clrBit_paused (off b : Nat) : (clrBit s off b).paused = s.paused := rfl
@[simp] theorem clrBit_xoff (off b : Nat) : (clrBit s off b).xoff = s.xoff := rfl
@[simp] theorem clrBit_tetherSeen (off b : Nat) : (clrBit s off b).tetherSeen = s.tetherSeen := rfl
@[simp] theorem clrBit_pmcHeld (off b : Nat) : (clrBit s off b).pmcHeld = s.pmcHeld := rfl
@[simp] theorem clrBit_tagRegs (off b : Nat) : (clrBit s off b).tagRegs = s.tagRegs := rfl
@[simp] theorem clrBit_tagFresh (off b : Nat) : (clrBit s off b).tagFresh = s.tagFresh := rfl
@[simp] theorem clrBit_jtag (off b : Nat) : (clrBit s off b).jtag = s.jtag := rfl
@[simp] theorem clrBit_boundary (off b : Nat) : (clrBit s off b).boundary = s.boundary := rfl
@[simp] theorem clrBit_rails (off b : Nat) : (clrBit s off b).rails = s.rails := rfl
@[simp] theorem clrBit_pace (off b : Nat) : (clrBit s off b).pace = s.pace := rfl
@[simp] theorem clrBit_imgFlags (off b : Nat) : (clrBit s off b).imgFlags = s.imgFlags := rfl
@[simp] theorem clrBit_mgmtHeld (off b : Nat) : (clrBit s off b).mgmtHeld = s.mgmtHeld := rfl
@[simp] theorem incCnt_credHeld (off : Nat) : (incCnt s off).credHeld = s.credHeld := rfl
@[simp] theorem incCnt_keptCpl (off : Nat) : (incCnt s off).keptCpl = s.keptCpl := rfl
@[simp] theorem incCnt_mgmtMsg (off : Nat) : (incCnt s off).mgmtMsg = s.mgmtMsg := rfl
@[simp] theorem incCnt_draftUnits (off : Nat) : (incCnt s off).draftUnits = s.draftUnits := rfl
@[simp] theorem incCnt_mgmtPort (off : Nat) : (incCnt s off).mgmtPort = s.mgmtPort := rfl
@[simp] theorem incCnt_mgmtFar (off : Nat) : (incCnt s off).mgmtFar = s.mgmtFar := rfl
@[simp] theorem incCnt_draftMaps (off : Nat) : (incCnt s off).draftMaps = s.draftMaps := rfl
@[simp] theorem incCnt_medUse (off : Nat) : (incCnt s off).medUse = s.medUse := rfl
@[simp] theorem incCnt_medResv (off : Nat) : (incCnt s off).medResv = s.medResv := rfl
@[simp] theorem incCnt_fetchDoms (off : Nat) : (incCnt s off).fetchDoms = s.fetchDoms := rfl
@[simp] theorem incCnt_planLoads (off : Nat) : (incCnt s off).planLoads = s.planLoads := rfl
@[simp] theorem incCnt_planDigests (off : Nat) : (incCnt s off).planDigests = s.planDigests := rfl
@[simp] theorem incCnt_granules (off : Nat) : (incCnt s off).granules = s.granules := rfl
@[simp] theorem incCnt_replicas (off : Nat) : (incCnt s off).replicas = s.replicas := rfl
@[simp] theorem incCnt_reelStamp (off : Nat) : (incCnt s off).reelStamp = s.reelStamp := rfl
@[simp] theorem incCnt_reelTxn (off : Nat) : (incCnt s off).reelTxn = s.reelTxn := rfl
@[simp] theorem incCnt_kstamps (off : Nat) : (incCnt s off).kstamps = s.kstamps := rfl
@[simp] theorem incCnt_streamUnits (off : Nat) : (incCnt s off).streamUnits = s.streamUnits := rfl
@[simp] theorem incCnt_streamWait (off : Nat) : (incCnt s off).streamWait = s.streamWait := rfl
@[simp] theorem incCnt_lineBuf (off : Nat) : (incCnt s off).lineBuf = s.lineBuf := rfl
@[simp] theorem incCnt_poolMap (off : Nat) : (incCnt s off).poolMap = s.poolMap := rfl
@[simp] theorem incCnt_ringPos (off : Nat) : (incCnt s off).ringPos = s.ringPos := rfl
@[simp] theorem incCnt_verUnits (off : Nat) : (incCnt s off).verUnits = s.verUnits := rfl
@[simp] theorem incCnt_hangs (off : Nat) : (incCnt s off).hangs = s.hangs := rfl
@[simp] theorem incCnt_kiteNo (off : Nat) : (incCnt s off).kiteNo = s.kiteNo := rfl
@[simp] theorem incCnt_cplWait (off : Nat) : (incCnt s off).cplWait = s.cplWait := rfl
@[simp] theorem incCnt_bands (off : Nat) : (incCnt s off).bands = s.bands := rfl
@[simp] theorem incCnt_locs (off : Nat) : (incCnt s off).locs = s.locs := rfl
@[simp] theorem incCnt_metaLocs (off : Nat) : (incCnt s off).metaLocs = s.metaLocs := rfl
@[simp] theorem incCnt_logSeq (off : Nat) : (incCnt s off).logSeq = s.logSeq := rfl
@[simp] theorem incCnt_logQ (off : Nat) : (incCnt s off).logQ = s.logQ := rfl
@[simp] theorem incCnt_logPtr (off : Nat) : (incCnt s off).logPtr = s.logPtr := rfl
@[simp] theorem incCnt_parPtr (off : Nat) : (incCnt s off).parPtr = s.parPtr := rfl
@[simp] theorem incCnt_decQ (off : Nat) : (incCnt s off).decQ = s.decQ := rfl
@[simp] theorem incCnt_decisions (off : Nat) : (incCnt s off).decisions = s.decisions := rfl
@[simp] theorem incCnt_regRecs (off : Nat) : (incCnt s off).regRecs = s.regRecs := rfl
@[simp] theorem incCnt_rebuilt (off : Nat) : (incCnt s off).rebuilt = s.rebuilt := rfl
@[simp] theorem incCnt_stripes (off : Nat) : (incCnt s off).stripes = s.stripes := rfl
@[simp] theorem incCnt_parUnits (off : Nat) : (incCnt s off).parUnits = s.parUnits := rfl
@[simp] theorem incCnt_contribs (off : Nat) : (incCnt s off).contribs = s.contribs := rfl
@[simp] theorem incCnt_quadGeo (off : Nat) : (incCnt s off).quadGeo = s.quadGeo := rfl
@[simp] theorem incCnt_chanRates (off : Nat) : (incCnt s off).chanRates = s.chanRates := rfl
@[simp] theorem incCnt_blockTab (off : Nat) : (incCnt s off).blockTab = s.blockTab := rfl
@[simp] theorem incCnt_badBlocks (off : Nat) : (incCnt s off).badBlocks = s.badBlocks := rfl
@[simp] theorem incCnt_remaps (off : Nat) : (incCnt s off).remaps = s.remaps := rfl
@[simp] theorem incCnt_spares (off : Nat) : (incCnt s off).spares = s.spares := rfl
@[simp] theorem incCnt_lunTmo (off : Nat) : (incCnt s off).lunTmo = s.lunTmo := rfl
@[simp] theorem incCnt_lunOut (off : Nat) : (incCnt s off).lunOut = s.lunOut := rfl
@[simp] theorem incCnt_targetBytes (off : Nat) : (incCnt s off).targetBytes = s.targetBytes := rfl
@[simp] theorem incCnt_reading (off : Nat) : (incCnt s off).reading = s.reading := rfl
@[simp] theorem incCnt_unpowered (off : Nat) : (incCnt s off).unpowered = s.unpowered := rfl
@[simp] theorem incCnt_sentinels (off : Nat) : (incCnt s off).sentinels = s.sentinels := rfl
@[simp] theorem incCnt_rebuildAt (off : Nat) : (incCnt s off).rebuildAt = s.rebuildAt := rfl
@[simp] theorem incCnt_foreign (off : Nat) : (incCnt s off).foreign = s.foreign := rfl
@[simp] theorem incCnt_retracts (off : Nat) : (incCnt s off).retracts = s.retracts := rfl
@[simp] theorem incCnt_copying (off : Nat) : (incCnt s off).copying = s.copying := rfl
@[simp] theorem incCnt_recovs (off : Nat) : (incCnt s off).recovs = s.recovs := rfl
@[simp] theorem incCnt_swOut (off : Nat) : (incCnt s off).swOut = s.swOut := rfl
@[simp] theorem incCnt_swIn (off : Nat) : (incCnt s off).swIn = s.swIn := rfl
@[simp] theorem incCnt_swTurn (off : Nat) : (incCnt s off).swTurn = s.swTurn := rfl
@[simp] theorem incCnt_swLive (off : Nat) : (incCnt s off).swLive = s.swLive := rfl
@[simp] theorem incCnt_swSpent (off : Nat) : (incCnt s off).swSpent = s.swSpent := rfl
@[simp] theorem incCnt_mirCnt (off : Nat) : (incCnt s off).mirCnt = s.mirCnt := rfl
@[simp] theorem incCnt_agentq (off : Nat) : (incCnt s off).agentq = s.agentq := rfl
@[simp] theorem incCnt_agentReqs (off : Nat) : (incCnt s off).agentReqs = s.agentReqs := rfl
@[simp] theorem incCnt_agentTxn (off : Nat) : (incCnt s off).agentTxn = s.agentTxn := rfl
@[simp] theorem incCnt_farGot (off : Nat) : (incCnt s off).farGot = s.farGot := rfl
@[simp] theorem incCnt_fwdWrites (off : Nat) : (incCnt s off).fwdWrites = s.fwdWrites := rfl
@[simp] theorem incCnt_swInTurn (off : Nat) : (incCnt s off).swInTurn = s.swInTurn := rfl
@[simp] theorem incCnt_swCycles (off : Nat) : (incCnt s off).swCycles = s.swCycles := rfl
@[simp] theorem incCnt_reelWaits (off : Nat) : (incCnt s off).reelWaits = s.reelWaits := rfl
@[simp] theorem incCnt_wbParts (off : Nat) : (incCnt s off).wbParts = s.wbParts := rfl
@[simp] theorem incCnt_reelParts (off : Nat) : (incCnt s off).reelParts = s.reelParts := rfl
@[simp] theorem incCnt_resetAt (off : Nat) : (incCnt s off).resetAt = s.resetAt := rfl
@[simp] theorem incCnt_aonUp (off : Nat) : (incCnt s off).aonUp = s.aonUp := rfl
@[simp] theorem incCnt_xtal (off : Nat) : (incCnt s off).xtal = s.xtal := rfl
@[simp] theorem incCnt_wake (off : Nat) : (incCnt s off).wake = s.wake := rfl
@[simp] theorem incCnt_stay (off : Nat) : (incCnt s off).stay = s.stay := rfl
@[simp] theorem incCnt_resetLow (off : Nat) : (incCnt s off).resetLow = s.resetLow := rfl
@[simp] theorem incCnt_thermTrip (off : Nat) : (incCnt s off).thermTrip = s.thermTrip := rfl
@[simp] theorem incCnt_forceRecovery (off : Nat) : (incCnt s off).forceRecovery = s.forceRecovery := rfl
@[simp] theorem incCnt_hotJ (off : Nat) : (incCnt s off).hotJ = s.hotJ := rfl
@[simp] theorem incCnt_coolRun (off : Nat) : (incCnt s off).coolRun = s.coolRun := rfl
@[simp] theorem incCnt_stepAt (off : Nat) : (incCnt s off).stepAt = s.stepAt := rfl
@[simp] theorem incCnt_pmbFails (off : Nat) : (incCnt s off).pmbFails = s.pmbFails := rfl
@[simp] theorem incCnt_imgRx (off : Nat) : (incCnt s off).imgRx = s.imgRx := rfl
@[simp] theorem incCnt_imgWrite (off : Nat) : (incCnt s off).imgWrite = s.imgWrite := rfl
@[simp] theorem incCnt_imgPort (off : Nat) : (incCnt s off).imgPort = s.imgPort := rfl
@[simp] theorem incCnt_cmpRx (off : Nat) : (incCnt s off).cmpRx = s.cmpRx := rfl
@[simp] theorem incCnt_sweeps (off : Nat) : (incCnt s off).sweeps = s.sweeps := rfl
@[simp] theorem incCnt_owner (off : Nat) : (incCnt s off).owner = s.owner := rfl
@[simp] theorem incCnt_production (off : Nat) : (incCnt s off).production = s.production := rfl
@[simp] theorem incCnt_tsEn (off : Nat) : (incCnt s off).tsEn = s.tsEn := rfl
@[simp] theorem incCnt_tsOpen (off : Nat) : (incCnt s off).tsOpen = s.tsOpen := rfl
@[simp] theorem incCnt_mgmtIdle (off : Nat) : (incCnt s off).mgmtIdle = s.mgmtIdle := rfl
@[simp] theorem incCnt_mgmtAddr (off : Nat) : (incCnt s off).mgmtAddr = s.mgmtAddr := rfl
@[simp] theorem incCnt_mgmtNext (off : Nat) : (incCnt s off).mgmtNext = s.mgmtNext := rfl
@[simp] theorem incCnt_ethAddr (off : Nat) : (incCnt s off).ethAddr = s.ethAddr := rfl
@[simp] theorem incCnt_pfcQ (off : Nat) : (incCnt s off).pfcQ = s.pfcQ := rfl
@[simp] theorem incCnt_paused (off : Nat) : (incCnt s off).paused = s.paused := rfl
@[simp] theorem incCnt_xoff (off : Nat) : (incCnt s off).xoff = s.xoff := rfl
@[simp] theorem incCnt_tetherSeen (off : Nat) : (incCnt s off).tetherSeen = s.tetherSeen := rfl
@[simp] theorem incCnt_pmcHeld (off : Nat) : (incCnt s off).pmcHeld = s.pmcHeld := rfl
@[simp] theorem incCnt_tagRegs (off : Nat) : (incCnt s off).tagRegs = s.tagRegs := rfl
@[simp] theorem incCnt_tagFresh (off : Nat) : (incCnt s off).tagFresh = s.tagFresh := rfl
@[simp] theorem incCnt_jtag (off : Nat) : (incCnt s off).jtag = s.jtag := rfl
@[simp] theorem incCnt_boundary (off : Nat) : (incCnt s off).boundary = s.boundary := rfl
@[simp] theorem incCnt_rails (off : Nat) : (incCnt s off).rails = s.rails := rfl
@[simp] theorem incCnt_pace (off : Nat) : (incCnt s off).pace = s.pace := rfl
@[simp] theorem incCnt_imgFlags (off : Nat) : (incCnt s off).imgFlags = s.imgFlags := rfl
@[simp] theorem incCnt_mgmtHeld (off : Nat) : (incCnt s off).mgmtHeld = s.mgmtHeld := rfl
@[simp] theorem send_credHeld (o : Out) : (send s o).credHeld = s.credHeld := rfl
@[simp] theorem send_keptCpl (o : Out) : (send s o).keptCpl = s.keptCpl := rfl
@[simp] theorem send_mgmtMsg (o : Out) : (send s o).mgmtMsg = s.mgmtMsg := rfl
@[simp] theorem send_draftUnits (o : Out) : (send s o).draftUnits = s.draftUnits := rfl
@[simp] theorem send_mgmtPort (o : Out) : (send s o).mgmtPort = s.mgmtPort := rfl
@[simp] theorem send_mgmtFar (o : Out) : (send s o).mgmtFar = s.mgmtFar := rfl
@[simp] theorem send_draftMaps (o : Out) : (send s o).draftMaps = s.draftMaps := rfl
@[simp] theorem send_medUse (o : Out) : (send s o).medUse = s.medUse := rfl
@[simp] theorem send_medResv (o : Out) : (send s o).medResv = s.medResv := rfl
@[simp] theorem send_fetchDoms (o : Out) : (send s o).fetchDoms = s.fetchDoms := rfl
@[simp] theorem send_planLoads (o : Out) : (send s o).planLoads = s.planLoads := rfl
@[simp] theorem send_planDigests (o : Out) : (send s o).planDigests = s.planDigests := rfl
@[simp] theorem send_granules (o : Out) : (send s o).granules = s.granules := rfl
@[simp] theorem send_replicas (o : Out) : (send s o).replicas = s.replicas := rfl
@[simp] theorem send_reelStamp (o : Out) : (send s o).reelStamp = s.reelStamp := rfl
@[simp] theorem send_reelTxn (o : Out) : (send s o).reelTxn = s.reelTxn := rfl
@[simp] theorem send_kstamps (o : Out) : (send s o).kstamps = s.kstamps := rfl
@[simp] theorem send_streamUnits (o : Out) : (send s o).streamUnits = s.streamUnits := rfl
@[simp] theorem send_streamWait (o : Out) : (send s o).streamWait = s.streamWait := rfl
@[simp] theorem send_lineBuf (o : Out) : (send s o).lineBuf = s.lineBuf := rfl
@[simp] theorem send_poolMap (o : Out) : (send s o).poolMap = s.poolMap := rfl
@[simp] theorem send_ringPos (o : Out) : (send s o).ringPos = s.ringPos := rfl
@[simp] theorem send_verUnits (o : Out) : (send s o).verUnits = s.verUnits := rfl
@[simp] theorem send_hangs (o : Out) : (send s o).hangs = s.hangs := rfl
@[simp] theorem send_kiteNo (o : Out) : (send s o).kiteNo = s.kiteNo := rfl
@[simp] theorem send_cplWait (o : Out) : (send s o).cplWait = s.cplWait := rfl
@[simp] theorem send_bands (o : Out) : (send s o).bands = s.bands := rfl
@[simp] theorem send_locs (o : Out) : (send s o).locs = s.locs := rfl
@[simp] theorem send_metaLocs (o : Out) : (send s o).metaLocs = s.metaLocs := rfl
@[simp] theorem send_logSeq (o : Out) : (send s o).logSeq = s.logSeq := rfl
@[simp] theorem send_logQ (o : Out) : (send s o).logQ = s.logQ := rfl
@[simp] theorem send_logPtr (o : Out) : (send s o).logPtr = s.logPtr := rfl
@[simp] theorem send_parPtr (o : Out) : (send s o).parPtr = s.parPtr := rfl
@[simp] theorem send_decQ (o : Out) : (send s o).decQ = s.decQ := rfl
@[simp] theorem send_decisions (o : Out) : (send s o).decisions = s.decisions := rfl
@[simp] theorem send_regRecs (o : Out) : (send s o).regRecs = s.regRecs := rfl
@[simp] theorem send_rebuilt (o : Out) : (send s o).rebuilt = s.rebuilt := rfl
@[simp] theorem send_stripes (o : Out) : (send s o).stripes = s.stripes := rfl
@[simp] theorem send_parUnits (o : Out) : (send s o).parUnits = s.parUnits := rfl
@[simp] theorem send_contribs (o : Out) : (send s o).contribs = s.contribs := rfl
@[simp] theorem send_quadGeo (o : Out) : (send s o).quadGeo = s.quadGeo := rfl
@[simp] theorem send_chanRates (o : Out) : (send s o).chanRates = s.chanRates := rfl
@[simp] theorem send_blockTab (o : Out) : (send s o).blockTab = s.blockTab := rfl
@[simp] theorem send_badBlocks (o : Out) : (send s o).badBlocks = s.badBlocks := rfl
@[simp] theorem send_remaps (o : Out) : (send s o).remaps = s.remaps := rfl
@[simp] theorem send_spares (o : Out) : (send s o).spares = s.spares := rfl
@[simp] theorem send_lunTmo (o : Out) : (send s o).lunTmo = s.lunTmo := rfl
@[simp] theorem send_lunOut (o : Out) : (send s o).lunOut = s.lunOut := rfl
@[simp] theorem send_targetBytes (o : Out) : (send s o).targetBytes = s.targetBytes := rfl
@[simp] theorem send_reading (o : Out) : (send s o).reading = s.reading := rfl
@[simp] theorem send_unpowered (o : Out) : (send s o).unpowered = s.unpowered := rfl
@[simp] theorem send_sentinels (o : Out) : (send s o).sentinels = s.sentinels := rfl
@[simp] theorem send_rebuildAt (o : Out) : (send s o).rebuildAt = s.rebuildAt := rfl
@[simp] theorem send_foreign (o : Out) : (send s o).foreign = s.foreign := rfl
@[simp] theorem send_retracts (o : Out) : (send s o).retracts = s.retracts := rfl
@[simp] theorem send_copying (o : Out) : (send s o).copying = s.copying := rfl
@[simp] theorem send_recovs (o : Out) : (send s o).recovs = s.recovs := rfl
@[simp] theorem send_swOut (o : Out) : (send s o).swOut = s.swOut := rfl
@[simp] theorem send_swIn (o : Out) : (send s o).swIn = s.swIn := rfl
@[simp] theorem send_swTurn (o : Out) : (send s o).swTurn = s.swTurn := rfl
@[simp] theorem send_swLive (o : Out) : (send s o).swLive = s.swLive := rfl
@[simp] theorem send_swSpent (o : Out) : (send s o).swSpent = s.swSpent := rfl
@[simp] theorem send_mirCnt (o : Out) : (send s o).mirCnt = s.mirCnt := rfl
@[simp] theorem send_agentq (o : Out) : (send s o).agentq = s.agentq := rfl
@[simp] theorem send_agentReqs (o : Out) : (send s o).agentReqs = s.agentReqs := rfl
@[simp] theorem send_agentTxn (o : Out) : (send s o).agentTxn = s.agentTxn := rfl
@[simp] theorem send_farGot (o : Out) : (send s o).farGot = s.farGot := rfl
@[simp] theorem send_fwdWrites (o : Out) : (send s o).fwdWrites = s.fwdWrites := rfl
@[simp] theorem send_swInTurn (o : Out) : (send s o).swInTurn = s.swInTurn := rfl
@[simp] theorem send_swCycles (o : Out) : (send s o).swCycles = s.swCycles := rfl
@[simp] theorem send_reelWaits (o : Out) : (send s o).reelWaits = s.reelWaits := rfl
@[simp] theorem send_wbParts (o : Out) : (send s o).wbParts = s.wbParts := rfl
@[simp] theorem send_reelParts (o : Out) : (send s o).reelParts = s.reelParts := rfl
@[simp] theorem send_resetAt (o : Out) : (send s o).resetAt = s.resetAt := rfl
@[simp] theorem send_aonUp (o : Out) : (send s o).aonUp = s.aonUp := rfl
@[simp] theorem send_xtal (o : Out) : (send s o).xtal = s.xtal := rfl
@[simp] theorem send_wake (o : Out) : (send s o).wake = s.wake := rfl
@[simp] theorem send_stay (o : Out) : (send s o).stay = s.stay := rfl
@[simp] theorem send_resetLow (o : Out) : (send s o).resetLow = s.resetLow := rfl
@[simp] theorem send_thermTrip (o : Out) : (send s o).thermTrip = s.thermTrip := rfl
@[simp] theorem send_forceRecovery (o : Out) : (send s o).forceRecovery = s.forceRecovery := rfl
@[simp] theorem send_hotJ (o : Out) : (send s o).hotJ = s.hotJ := rfl
@[simp] theorem send_coolRun (o : Out) : (send s o).coolRun = s.coolRun := rfl
@[simp] theorem send_stepAt (o : Out) : (send s o).stepAt = s.stepAt := rfl
@[simp] theorem send_pmbFails (o : Out) : (send s o).pmbFails = s.pmbFails := rfl
@[simp] theorem send_imgRx (o : Out) : (send s o).imgRx = s.imgRx := rfl
@[simp] theorem send_imgWrite (o : Out) : (send s o).imgWrite = s.imgWrite := rfl
@[simp] theorem send_imgPort (o : Out) : (send s o).imgPort = s.imgPort := rfl
@[simp] theorem send_cmpRx (o : Out) : (send s o).cmpRx = s.cmpRx := rfl
@[simp] theorem send_sweeps (o : Out) : (send s o).sweeps = s.sweeps := rfl
@[simp] theorem send_owner (o : Out) : (send s o).owner = s.owner := rfl
@[simp] theorem send_production (o : Out) : (send s o).production = s.production := rfl
@[simp] theorem send_tsEn (o : Out) : (send s o).tsEn = s.tsEn := rfl
@[simp] theorem send_tsOpen (o : Out) : (send s o).tsOpen = s.tsOpen := rfl
@[simp] theorem send_mgmtIdle (o : Out) : (send s o).mgmtIdle = s.mgmtIdle := rfl
@[simp] theorem send_mgmtAddr (o : Out) : (send s o).mgmtAddr = s.mgmtAddr := rfl
@[simp] theorem send_mgmtNext (o : Out) : (send s o).mgmtNext = s.mgmtNext := rfl
@[simp] theorem send_ethAddr (o : Out) : (send s o).ethAddr = s.ethAddr := rfl
@[simp] theorem send_pfcQ (o : Out) : (send s o).pfcQ = s.pfcQ := rfl
@[simp] theorem send_paused (o : Out) : (send s o).paused = s.paused := rfl
@[simp] theorem send_xoff (o : Out) : (send s o).xoff = s.xoff := rfl
@[simp] theorem send_tetherSeen (o : Out) : (send s o).tetherSeen = s.tetherSeen := rfl
@[simp] theorem send_pmcHeld (o : Out) : (send s o).pmcHeld = s.pmcHeld := rfl
@[simp] theorem send_tagRegs (o : Out) : (send s o).tagRegs = s.tagRegs := rfl
@[simp] theorem send_tagFresh (o : Out) : (send s o).tagFresh = s.tagFresh := rfl
@[simp] theorem send_jtag (o : Out) : (send s o).jtag = s.jtag := rfl
@[simp] theorem send_boundary (o : Out) : (send s o).boundary = s.boundary := rfl
@[simp] theorem send_rails (o : Out) : (send s o).rails = s.rails := rfl
@[simp] theorem send_pace (o : Out) : (send s o).pace = s.pace := rfl
@[simp] theorem send_imgFlags (o : Out) : (send s o).imgFlags = s.imgFlags := rfl
@[simp] theorem send_mgmtHeld (o : Out) : (send s o).mgmtHeld = s.mgmtHeld := rfl
@[simp] theorem putLathe_credHeld (l : Nat) (x : Lathe) : (putLathe s l x).credHeld = s.credHeld := rfl
@[simp] theorem putLathe_keptCpl (l : Nat) (x : Lathe) : (putLathe s l x).keptCpl = s.keptCpl := rfl
@[simp] theorem putLathe_mgmtMsg (l : Nat) (x : Lathe) : (putLathe s l x).mgmtMsg = s.mgmtMsg := rfl
@[simp] theorem putLathe_draftUnits (l : Nat) (x : Lathe) : (putLathe s l x).draftUnits = s.draftUnits := rfl
@[simp] theorem putLathe_mgmtPort (l : Nat) (x : Lathe) : (putLathe s l x).mgmtPort = s.mgmtPort := rfl
@[simp] theorem putLathe_mgmtFar (l : Nat) (x : Lathe) : (putLathe s l x).mgmtFar = s.mgmtFar := rfl
@[simp] theorem putLathe_draftMaps (l : Nat) (x : Lathe) : (putLathe s l x).draftMaps = s.draftMaps := rfl
@[simp] theorem putLathe_medUse (l : Nat) (x : Lathe) : (putLathe s l x).medUse = s.medUse := rfl
@[simp] theorem putLathe_medResv (l : Nat) (x : Lathe) : (putLathe s l x).medResv = s.medResv := rfl
@[simp] theorem putLathe_fetchDoms (l : Nat) (x : Lathe) : (putLathe s l x).fetchDoms = s.fetchDoms := rfl
@[simp] theorem putLathe_planLoads (l : Nat) (x : Lathe) : (putLathe s l x).planLoads = s.planLoads := rfl
@[simp] theorem putLathe_planDigests (l : Nat) (x : Lathe) : (putLathe s l x).planDigests = s.planDigests := rfl
@[simp] theorem putLathe_granules (l : Nat) (x : Lathe) : (putLathe s l x).granules = s.granules := rfl
@[simp] theorem putLathe_replicas (l : Nat) (x : Lathe) : (putLathe s l x).replicas = s.replicas := rfl
@[simp] theorem putLathe_reelStamp (l : Nat) (x : Lathe) : (putLathe s l x).reelStamp = s.reelStamp := rfl
@[simp] theorem putLathe_reelTxn (l : Nat) (x : Lathe) : (putLathe s l x).reelTxn = s.reelTxn := rfl
@[simp] theorem putLathe_kstamps (l : Nat) (x : Lathe) : (putLathe s l x).kstamps = s.kstamps := rfl
@[simp] theorem putLathe_streamUnits (l : Nat) (x : Lathe) : (putLathe s l x).streamUnits = s.streamUnits := rfl
@[simp] theorem putLathe_streamWait (l : Nat) (x : Lathe) : (putLathe s l x).streamWait = s.streamWait := rfl
@[simp] theorem putLathe_lineBuf (l : Nat) (x : Lathe) : (putLathe s l x).lineBuf = s.lineBuf := rfl
@[simp] theorem putLathe_poolMap (l : Nat) (x : Lathe) : (putLathe s l x).poolMap = s.poolMap := rfl
@[simp] theorem putLathe_ringPos (l : Nat) (x : Lathe) : (putLathe s l x).ringPos = s.ringPos := rfl
@[simp] theorem putLathe_verUnits (l : Nat) (x : Lathe) : (putLathe s l x).verUnits = s.verUnits := rfl
@[simp] theorem putLathe_hangs (l : Nat) (x : Lathe) : (putLathe s l x).hangs = s.hangs := rfl
@[simp] theorem putLathe_kiteNo (l : Nat) (x : Lathe) : (putLathe s l x).kiteNo = s.kiteNo := rfl
@[simp] theorem putLathe_cplWait (l : Nat) (x : Lathe) : (putLathe s l x).cplWait = s.cplWait := rfl
@[simp] theorem putLathe_bands (l : Nat) (x : Lathe) : (putLathe s l x).bands = s.bands := rfl
@[simp] theorem putLathe_locs (l : Nat) (x : Lathe) : (putLathe s l x).locs = s.locs := rfl
@[simp] theorem putLathe_metaLocs (l : Nat) (x : Lathe) : (putLathe s l x).metaLocs = s.metaLocs := rfl
@[simp] theorem putLathe_logSeq (l : Nat) (x : Lathe) : (putLathe s l x).logSeq = s.logSeq := rfl
@[simp] theorem putLathe_logQ (l : Nat) (x : Lathe) : (putLathe s l x).logQ = s.logQ := rfl
@[simp] theorem putLathe_logPtr (l : Nat) (x : Lathe) : (putLathe s l x).logPtr = s.logPtr := rfl
@[simp] theorem putLathe_parPtr (l : Nat) (x : Lathe) : (putLathe s l x).parPtr = s.parPtr := rfl
@[simp] theorem putLathe_decQ (l : Nat) (x : Lathe) : (putLathe s l x).decQ = s.decQ := rfl
@[simp] theorem putLathe_decisions (l : Nat) (x : Lathe) : (putLathe s l x).decisions = s.decisions := rfl
@[simp] theorem putLathe_regRecs (l : Nat) (x : Lathe) : (putLathe s l x).regRecs = s.regRecs := rfl
@[simp] theorem putLathe_rebuilt (l : Nat) (x : Lathe) : (putLathe s l x).rebuilt = s.rebuilt := rfl
@[simp] theorem putLathe_stripes (l : Nat) (x : Lathe) : (putLathe s l x).stripes = s.stripes := rfl
@[simp] theorem putLathe_parUnits (l : Nat) (x : Lathe) : (putLathe s l x).parUnits = s.parUnits := rfl
@[simp] theorem putLathe_contribs (l : Nat) (x : Lathe) : (putLathe s l x).contribs = s.contribs := rfl
@[simp] theorem putLathe_quadGeo (l : Nat) (x : Lathe) : (putLathe s l x).quadGeo = s.quadGeo := rfl
@[simp] theorem putLathe_chanRates (l : Nat) (x : Lathe) : (putLathe s l x).chanRates = s.chanRates := rfl
@[simp] theorem putLathe_blockTab (l : Nat) (x : Lathe) : (putLathe s l x).blockTab = s.blockTab := rfl
@[simp] theorem putLathe_badBlocks (l : Nat) (x : Lathe) : (putLathe s l x).badBlocks = s.badBlocks := rfl
@[simp] theorem putLathe_remaps (l : Nat) (x : Lathe) : (putLathe s l x).remaps = s.remaps := rfl
@[simp] theorem putLathe_spares (l : Nat) (x : Lathe) : (putLathe s l x).spares = s.spares := rfl
@[simp] theorem putLathe_lunTmo (l : Nat) (x : Lathe) : (putLathe s l x).lunTmo = s.lunTmo := rfl
@[simp] theorem putLathe_lunOut (l : Nat) (x : Lathe) : (putLathe s l x).lunOut = s.lunOut := rfl
@[simp] theorem putLathe_targetBytes (l : Nat) (x : Lathe) : (putLathe s l x).targetBytes = s.targetBytes := rfl
@[simp] theorem putLathe_reading (l : Nat) (x : Lathe) : (putLathe s l x).reading = s.reading := rfl
@[simp] theorem putLathe_unpowered (l : Nat) (x : Lathe) : (putLathe s l x).unpowered = s.unpowered := rfl
@[simp] theorem putLathe_sentinels (l : Nat) (x : Lathe) : (putLathe s l x).sentinels = s.sentinels := rfl
@[simp] theorem putLathe_rebuildAt (l : Nat) (x : Lathe) : (putLathe s l x).rebuildAt = s.rebuildAt := rfl
@[simp] theorem putLathe_foreign (l : Nat) (x : Lathe) : (putLathe s l x).foreign = s.foreign := rfl
@[simp] theorem putLathe_retracts (l : Nat) (x : Lathe) : (putLathe s l x).retracts = s.retracts := rfl
@[simp] theorem putLathe_copying (l : Nat) (x : Lathe) : (putLathe s l x).copying = s.copying := rfl
@[simp] theorem putLathe_recovs (l : Nat) (x : Lathe) : (putLathe s l x).recovs = s.recovs := rfl
@[simp] theorem putLathe_swOut (l : Nat) (x : Lathe) : (putLathe s l x).swOut = s.swOut := rfl
@[simp] theorem putLathe_swIn (l : Nat) (x : Lathe) : (putLathe s l x).swIn = s.swIn := rfl
@[simp] theorem putLathe_swTurn (l : Nat) (x : Lathe) : (putLathe s l x).swTurn = s.swTurn := rfl
@[simp] theorem putLathe_swLive (l : Nat) (x : Lathe) : (putLathe s l x).swLive = s.swLive := rfl
@[simp] theorem putLathe_swSpent (l : Nat) (x : Lathe) : (putLathe s l x).swSpent = s.swSpent := rfl
@[simp] theorem putLathe_mirCnt (l : Nat) (x : Lathe) : (putLathe s l x).mirCnt = s.mirCnt := rfl
@[simp] theorem putLathe_agentq (l : Nat) (x : Lathe) : (putLathe s l x).agentq = s.agentq := rfl
@[simp] theorem putLathe_agentReqs (l : Nat) (x : Lathe) : (putLathe s l x).agentReqs = s.agentReqs := rfl
@[simp] theorem putLathe_agentTxn (l : Nat) (x : Lathe) : (putLathe s l x).agentTxn = s.agentTxn := rfl
@[simp] theorem putLathe_farGot (l : Nat) (x : Lathe) : (putLathe s l x).farGot = s.farGot := rfl
@[simp] theorem putLathe_fwdWrites (l : Nat) (x : Lathe) : (putLathe s l x).fwdWrites = s.fwdWrites := rfl
@[simp] theorem putLathe_swInTurn (l : Nat) (x : Lathe) : (putLathe s l x).swInTurn = s.swInTurn := rfl
@[simp] theorem putLathe_swCycles (l : Nat) (x : Lathe) : (putLathe s l x).swCycles = s.swCycles := rfl
@[simp] theorem putLathe_reelWaits (l : Nat) (x : Lathe) : (putLathe s l x).reelWaits = s.reelWaits := rfl
@[simp] theorem putLathe_wbParts (l : Nat) (x : Lathe) : (putLathe s l x).wbParts = s.wbParts := rfl
@[simp] theorem putLathe_reelParts (l : Nat) (x : Lathe) : (putLathe s l x).reelParts = s.reelParts := rfl
@[simp] theorem putLathe_resetAt (l : Nat) (x : Lathe) : (putLathe s l x).resetAt = s.resetAt := rfl
@[simp] theorem putLathe_aonUp (l : Nat) (x : Lathe) : (putLathe s l x).aonUp = s.aonUp := rfl
@[simp] theorem putLathe_xtal (l : Nat) (x : Lathe) : (putLathe s l x).xtal = s.xtal := rfl
@[simp] theorem putLathe_wake (l : Nat) (x : Lathe) : (putLathe s l x).wake = s.wake := rfl
@[simp] theorem putLathe_stay (l : Nat) (x : Lathe) : (putLathe s l x).stay = s.stay := rfl
@[simp] theorem putLathe_resetLow (l : Nat) (x : Lathe) : (putLathe s l x).resetLow = s.resetLow := rfl
@[simp] theorem putLathe_thermTrip (l : Nat) (x : Lathe) : (putLathe s l x).thermTrip = s.thermTrip := rfl
@[simp] theorem putLathe_forceRecovery (l : Nat) (x : Lathe) : (putLathe s l x).forceRecovery = s.forceRecovery := rfl
@[simp] theorem putLathe_hotJ (l : Nat) (x : Lathe) : (putLathe s l x).hotJ = s.hotJ := rfl
@[simp] theorem putLathe_coolRun (l : Nat) (x : Lathe) : (putLathe s l x).coolRun = s.coolRun := rfl
@[simp] theorem putLathe_stepAt (l : Nat) (x : Lathe) : (putLathe s l x).stepAt = s.stepAt := rfl
@[simp] theorem putLathe_pmbFails (l : Nat) (x : Lathe) : (putLathe s l x).pmbFails = s.pmbFails := rfl
@[simp] theorem putLathe_imgRx (l : Nat) (x : Lathe) : (putLathe s l x).imgRx = s.imgRx := rfl
@[simp] theorem putLathe_imgWrite (l : Nat) (x : Lathe) : (putLathe s l x).imgWrite = s.imgWrite := rfl
@[simp] theorem putLathe_imgPort (l : Nat) (x : Lathe) : (putLathe s l x).imgPort = s.imgPort := rfl
@[simp] theorem putLathe_cmpRx (l : Nat) (x : Lathe) : (putLathe s l x).cmpRx = s.cmpRx := rfl
@[simp] theorem putLathe_sweeps (l : Nat) (x : Lathe) : (putLathe s l x).sweeps = s.sweeps := rfl
@[simp] theorem putLathe_owner (l : Nat) (x : Lathe) : (putLathe s l x).owner = s.owner := rfl
@[simp] theorem putLathe_production (l : Nat) (x : Lathe) : (putLathe s l x).production = s.production := rfl
@[simp] theorem putLathe_tsEn (l : Nat) (x : Lathe) : (putLathe s l x).tsEn = s.tsEn := rfl
@[simp] theorem putLathe_tsOpen (l : Nat) (x : Lathe) : (putLathe s l x).tsOpen = s.tsOpen := rfl
@[simp] theorem putLathe_mgmtIdle (l : Nat) (x : Lathe) : (putLathe s l x).mgmtIdle = s.mgmtIdle := rfl
@[simp] theorem putLathe_mgmtAddr (l : Nat) (x : Lathe) : (putLathe s l x).mgmtAddr = s.mgmtAddr := rfl
@[simp] theorem putLathe_mgmtNext (l : Nat) (x : Lathe) : (putLathe s l x).mgmtNext = s.mgmtNext := rfl
@[simp] theorem putLathe_ethAddr (l : Nat) (x : Lathe) : (putLathe s l x).ethAddr = s.ethAddr := rfl
@[simp] theorem putLathe_pfcQ (l : Nat) (x : Lathe) : (putLathe s l x).pfcQ = s.pfcQ := rfl
@[simp] theorem putLathe_paused (l : Nat) (x : Lathe) : (putLathe s l x).paused = s.paused := rfl
@[simp] theorem putLathe_xoff (l : Nat) (x : Lathe) : (putLathe s l x).xoff = s.xoff := rfl
@[simp] theorem putLathe_tetherSeen (l : Nat) (x : Lathe) : (putLathe s l x).tetherSeen = s.tetherSeen := rfl
@[simp] theorem putLathe_pmcHeld (l : Nat) (x : Lathe) : (putLathe s l x).pmcHeld = s.pmcHeld := rfl
@[simp] theorem putLathe_tagRegs (l : Nat) (x : Lathe) : (putLathe s l x).tagRegs = s.tagRegs := rfl
@[simp] theorem putLathe_tagFresh (l : Nat) (x : Lathe) : (putLathe s l x).tagFresh = s.tagFresh := rfl
@[simp] theorem putLathe_jtag (l : Nat) (x : Lathe) : (putLathe s l x).jtag = s.jtag := rfl
@[simp] theorem putLathe_boundary (l : Nat) (x : Lathe) : (putLathe s l x).boundary = s.boundary := rfl
@[simp] theorem putLathe_rails (l : Nat) (x : Lathe) : (putLathe s l x).rails = s.rails := rfl
@[simp] theorem putLathe_pace (l : Nat) (x : Lathe) : (putLathe s l x).pace = s.pace := rfl
@[simp] theorem putLathe_imgFlags (l : Nat) (x : Lathe) : (putLathe s l x).imgFlags = s.imgFlags := rfl
@[simp] theorem putLathe_mgmtHeld (l : Nat) (x : Lathe) : (putLathe s l x).mgmtHeld = s.mgmtHeld := rfl
@[simp] theorem putCtx_credHeld (n : Nat) (c : Ctx) : (putCtx s n c).credHeld = s.credHeld := rfl
@[simp] theorem putCtx_keptCpl (n : Nat) (c : Ctx) : (putCtx s n c).keptCpl = s.keptCpl := rfl
@[simp] theorem putCtx_mgmtMsg (n : Nat) (c : Ctx) : (putCtx s n c).mgmtMsg = s.mgmtMsg := rfl
@[simp] theorem putCtx_draftUnits (n : Nat) (c : Ctx) : (putCtx s n c).draftUnits = s.draftUnits := rfl
@[simp] theorem putCtx_mgmtPort (n : Nat) (c : Ctx) : (putCtx s n c).mgmtPort = s.mgmtPort := rfl
@[simp] theorem putCtx_mgmtFar (n : Nat) (c : Ctx) : (putCtx s n c).mgmtFar = s.mgmtFar := rfl
@[simp] theorem putCtx_draftMaps (n : Nat) (c : Ctx) : (putCtx s n c).draftMaps = s.draftMaps := rfl
@[simp] theorem putCtx_medUse (n : Nat) (c : Ctx) : (putCtx s n c).medUse = s.medUse := rfl
@[simp] theorem putCtx_medResv (n : Nat) (c : Ctx) : (putCtx s n c).medResv = s.medResv := rfl
@[simp] theorem putCtx_fetchDoms (n : Nat) (c : Ctx) : (putCtx s n c).fetchDoms = s.fetchDoms := rfl
@[simp] theorem putCtx_planLoads (n : Nat) (c : Ctx) : (putCtx s n c).planLoads = s.planLoads := rfl
@[simp] theorem putCtx_planDigests (n : Nat) (c : Ctx) : (putCtx s n c).planDigests = s.planDigests := rfl
@[simp] theorem putCtx_granules (n : Nat) (c : Ctx) : (putCtx s n c).granules = s.granules := rfl
@[simp] theorem putCtx_replicas (n : Nat) (c : Ctx) : (putCtx s n c).replicas = s.replicas := rfl
@[simp] theorem putCtx_reelStamp (n : Nat) (c : Ctx) : (putCtx s n c).reelStamp = s.reelStamp := rfl
@[simp] theorem putCtx_reelTxn (n : Nat) (c : Ctx) : (putCtx s n c).reelTxn = s.reelTxn := rfl
@[simp] theorem putCtx_kstamps (n : Nat) (c : Ctx) : (putCtx s n c).kstamps = s.kstamps := rfl
@[simp] theorem putCtx_streamUnits (n : Nat) (c : Ctx) : (putCtx s n c).streamUnits = s.streamUnits := rfl
@[simp] theorem putCtx_streamWait (n : Nat) (c : Ctx) : (putCtx s n c).streamWait = s.streamWait := rfl
@[simp] theorem putCtx_lineBuf (n : Nat) (c : Ctx) : (putCtx s n c).lineBuf = s.lineBuf := rfl
@[simp] theorem putCtx_poolMap (n : Nat) (c : Ctx) : (putCtx s n c).poolMap = s.poolMap := rfl
@[simp] theorem putCtx_ringPos (n : Nat) (c : Ctx) : (putCtx s n c).ringPos = s.ringPos := rfl
@[simp] theorem putCtx_verUnits (n : Nat) (c : Ctx) : (putCtx s n c).verUnits = s.verUnits := rfl
@[simp] theorem putCtx_hangs (n : Nat) (c : Ctx) : (putCtx s n c).hangs = s.hangs := rfl
@[simp] theorem putCtx_kiteNo (n : Nat) (c : Ctx) : (putCtx s n c).kiteNo = s.kiteNo := rfl
@[simp] theorem putCtx_cplWait (n : Nat) (c : Ctx) : (putCtx s n c).cplWait = s.cplWait := rfl
@[simp] theorem putCtx_bands (n : Nat) (c : Ctx) : (putCtx s n c).bands = s.bands := rfl
@[simp] theorem putCtx_locs (n : Nat) (c : Ctx) : (putCtx s n c).locs = s.locs := rfl
@[simp] theorem putCtx_metaLocs (n : Nat) (c : Ctx) : (putCtx s n c).metaLocs = s.metaLocs := rfl
@[simp] theorem putCtx_logSeq (n : Nat) (c : Ctx) : (putCtx s n c).logSeq = s.logSeq := rfl
@[simp] theorem putCtx_logQ (n : Nat) (c : Ctx) : (putCtx s n c).logQ = s.logQ := rfl
@[simp] theorem putCtx_logPtr (n : Nat) (c : Ctx) : (putCtx s n c).logPtr = s.logPtr := rfl
@[simp] theorem putCtx_parPtr (n : Nat) (c : Ctx) : (putCtx s n c).parPtr = s.parPtr := rfl
@[simp] theorem putCtx_decQ (n : Nat) (c : Ctx) : (putCtx s n c).decQ = s.decQ := rfl
@[simp] theorem putCtx_decisions (n : Nat) (c : Ctx) : (putCtx s n c).decisions = s.decisions := rfl
@[simp] theorem putCtx_regRecs (n : Nat) (c : Ctx) : (putCtx s n c).regRecs = s.regRecs := rfl
@[simp] theorem putCtx_rebuilt (n : Nat) (c : Ctx) : (putCtx s n c).rebuilt = s.rebuilt := rfl
@[simp] theorem putCtx_stripes (n : Nat) (c : Ctx) : (putCtx s n c).stripes = s.stripes := rfl
@[simp] theorem putCtx_parUnits (n : Nat) (c : Ctx) : (putCtx s n c).parUnits = s.parUnits := rfl
@[simp] theorem putCtx_contribs (n : Nat) (c : Ctx) : (putCtx s n c).contribs = s.contribs := rfl
@[simp] theorem putCtx_quadGeo (n : Nat) (c : Ctx) : (putCtx s n c).quadGeo = s.quadGeo := rfl
@[simp] theorem putCtx_chanRates (n : Nat) (c : Ctx) : (putCtx s n c).chanRates = s.chanRates := rfl
@[simp] theorem putCtx_blockTab (n : Nat) (c : Ctx) : (putCtx s n c).blockTab = s.blockTab := rfl
@[simp] theorem putCtx_badBlocks (n : Nat) (c : Ctx) : (putCtx s n c).badBlocks = s.badBlocks := rfl
@[simp] theorem putCtx_remaps (n : Nat) (c : Ctx) : (putCtx s n c).remaps = s.remaps := rfl
@[simp] theorem putCtx_spares (n : Nat) (c : Ctx) : (putCtx s n c).spares = s.spares := rfl
@[simp] theorem putCtx_lunTmo (n : Nat) (c : Ctx) : (putCtx s n c).lunTmo = s.lunTmo := rfl
@[simp] theorem putCtx_lunOut (n : Nat) (c : Ctx) : (putCtx s n c).lunOut = s.lunOut := rfl
@[simp] theorem putCtx_targetBytes (n : Nat) (c : Ctx) : (putCtx s n c).targetBytes = s.targetBytes := rfl
@[simp] theorem putCtx_reading (n : Nat) (c : Ctx) : (putCtx s n c).reading = s.reading := rfl
@[simp] theorem putCtx_unpowered (n : Nat) (c : Ctx) : (putCtx s n c).unpowered = s.unpowered := rfl
@[simp] theorem putCtx_sentinels (n : Nat) (c : Ctx) : (putCtx s n c).sentinels = s.sentinels := rfl
@[simp] theorem putCtx_rebuildAt (n : Nat) (c : Ctx) : (putCtx s n c).rebuildAt = s.rebuildAt := rfl
@[simp] theorem putCtx_foreign (n : Nat) (c : Ctx) : (putCtx s n c).foreign = s.foreign := rfl
@[simp] theorem putCtx_retracts (n : Nat) (c : Ctx) : (putCtx s n c).retracts = s.retracts := rfl
@[simp] theorem putCtx_copying (n : Nat) (c : Ctx) : (putCtx s n c).copying = s.copying := rfl
@[simp] theorem putCtx_recovs (n : Nat) (c : Ctx) : (putCtx s n c).recovs = s.recovs := rfl
@[simp] theorem putCtx_swOut (n : Nat) (c : Ctx) : (putCtx s n c).swOut = s.swOut := rfl
@[simp] theorem putCtx_swIn (n : Nat) (c : Ctx) : (putCtx s n c).swIn = s.swIn := rfl
@[simp] theorem putCtx_swTurn (n : Nat) (c : Ctx) : (putCtx s n c).swTurn = s.swTurn := rfl
@[simp] theorem putCtx_swLive (n : Nat) (c : Ctx) : (putCtx s n c).swLive = s.swLive := rfl
@[simp] theorem putCtx_swSpent (n : Nat) (c : Ctx) : (putCtx s n c).swSpent = s.swSpent := rfl
@[simp] theorem putCtx_mirCnt (n : Nat) (c : Ctx) : (putCtx s n c).mirCnt = s.mirCnt := rfl
@[simp] theorem putCtx_agentq (n : Nat) (c : Ctx) : (putCtx s n c).agentq = s.agentq := rfl
@[simp] theorem putCtx_agentReqs (n : Nat) (c : Ctx) : (putCtx s n c).agentReqs = s.agentReqs := rfl
@[simp] theorem putCtx_agentTxn (n : Nat) (c : Ctx) : (putCtx s n c).agentTxn = s.agentTxn := rfl
@[simp] theorem putCtx_farGot (n : Nat) (c : Ctx) : (putCtx s n c).farGot = s.farGot := rfl
@[simp] theorem putCtx_fwdWrites (n : Nat) (c : Ctx) : (putCtx s n c).fwdWrites = s.fwdWrites := rfl
@[simp] theorem putCtx_swInTurn (n : Nat) (c : Ctx) : (putCtx s n c).swInTurn = s.swInTurn := rfl
@[simp] theorem putCtx_swCycles (n : Nat) (c : Ctx) : (putCtx s n c).swCycles = s.swCycles := rfl
@[simp] theorem putCtx_reelWaits (n : Nat) (c : Ctx) : (putCtx s n c).reelWaits = s.reelWaits := rfl
@[simp] theorem putCtx_wbParts (n : Nat) (c : Ctx) : (putCtx s n c).wbParts = s.wbParts := rfl
@[simp] theorem putCtx_reelParts (n : Nat) (c : Ctx) : (putCtx s n c).reelParts = s.reelParts := rfl
@[simp] theorem putCtx_resetAt (n : Nat) (c : Ctx) : (putCtx s n c).resetAt = s.resetAt := rfl
@[simp] theorem putCtx_aonUp (n : Nat) (c : Ctx) : (putCtx s n c).aonUp = s.aonUp := rfl
@[simp] theorem putCtx_xtal (n : Nat) (c : Ctx) : (putCtx s n c).xtal = s.xtal := rfl
@[simp] theorem putCtx_wake (n : Nat) (c : Ctx) : (putCtx s n c).wake = s.wake := rfl
@[simp] theorem putCtx_stay (n : Nat) (c : Ctx) : (putCtx s n c).stay = s.stay := rfl
@[simp] theorem putCtx_resetLow (n : Nat) (c : Ctx) : (putCtx s n c).resetLow = s.resetLow := rfl
@[simp] theorem putCtx_thermTrip (n : Nat) (c : Ctx) : (putCtx s n c).thermTrip = s.thermTrip := rfl
@[simp] theorem putCtx_forceRecovery (n : Nat) (c : Ctx) : (putCtx s n c).forceRecovery = s.forceRecovery := rfl
@[simp] theorem putCtx_hotJ (n : Nat) (c : Ctx) : (putCtx s n c).hotJ = s.hotJ := rfl
@[simp] theorem putCtx_coolRun (n : Nat) (c : Ctx) : (putCtx s n c).coolRun = s.coolRun := rfl
@[simp] theorem putCtx_stepAt (n : Nat) (c : Ctx) : (putCtx s n c).stepAt = s.stepAt := rfl
@[simp] theorem putCtx_pmbFails (n : Nat) (c : Ctx) : (putCtx s n c).pmbFails = s.pmbFails := rfl
@[simp] theorem putCtx_imgRx (n : Nat) (c : Ctx) : (putCtx s n c).imgRx = s.imgRx := rfl
@[simp] theorem putCtx_imgWrite (n : Nat) (c : Ctx) : (putCtx s n c).imgWrite = s.imgWrite := rfl
@[simp] theorem putCtx_imgPort (n : Nat) (c : Ctx) : (putCtx s n c).imgPort = s.imgPort := rfl
@[simp] theorem putCtx_cmpRx (n : Nat) (c : Ctx) : (putCtx s n c).cmpRx = s.cmpRx := rfl
@[simp] theorem putCtx_sweeps (n : Nat) (c : Ctx) : (putCtx s n c).sweeps = s.sweeps := rfl
@[simp] theorem putCtx_owner (n : Nat) (c : Ctx) : (putCtx s n c).owner = s.owner := rfl
@[simp] theorem putCtx_production (n : Nat) (c : Ctx) : (putCtx s n c).production = s.production := rfl
@[simp] theorem putCtx_tsEn (n : Nat) (c : Ctx) : (putCtx s n c).tsEn = s.tsEn := rfl
@[simp] theorem putCtx_tsOpen (n : Nat) (c : Ctx) : (putCtx s n c).tsOpen = s.tsOpen := rfl
@[simp] theorem putCtx_mgmtIdle (n : Nat) (c : Ctx) : (putCtx s n c).mgmtIdle = s.mgmtIdle := rfl
@[simp] theorem putCtx_mgmtAddr (n : Nat) (c : Ctx) : (putCtx s n c).mgmtAddr = s.mgmtAddr := rfl
@[simp] theorem putCtx_mgmtNext (n : Nat) (c : Ctx) : (putCtx s n c).mgmtNext = s.mgmtNext := rfl
@[simp] theorem putCtx_ethAddr (n : Nat) (c : Ctx) : (putCtx s n c).ethAddr = s.ethAddr := rfl
@[simp] theorem putCtx_pfcQ (n : Nat) (c : Ctx) : (putCtx s n c).pfcQ = s.pfcQ := rfl
@[simp] theorem putCtx_paused (n : Nat) (c : Ctx) : (putCtx s n c).paused = s.paused := rfl
@[simp] theorem putCtx_xoff (n : Nat) (c : Ctx) : (putCtx s n c).xoff = s.xoff := rfl
@[simp] theorem putCtx_tetherSeen (n : Nat) (c : Ctx) : (putCtx s n c).tetherSeen = s.tetherSeen := rfl
@[simp] theorem putCtx_pmcHeld (n : Nat) (c : Ctx) : (putCtx s n c).pmcHeld = s.pmcHeld := rfl
@[simp] theorem putCtx_tagRegs (n : Nat) (c : Ctx) : (putCtx s n c).tagRegs = s.tagRegs := rfl
@[simp] theorem putCtx_tagFresh (n : Nat) (c : Ctx) : (putCtx s n c).tagFresh = s.tagFresh := rfl
@[simp] theorem putCtx_jtag (n : Nat) (c : Ctx) : (putCtx s n c).jtag = s.jtag := rfl
@[simp] theorem putCtx_boundary (n : Nat) (c : Ctx) : (putCtx s n c).boundary = s.boundary := rfl
@[simp] theorem putCtx_rails (n : Nat) (c : Ctx) : (putCtx s n c).rails = s.rails := rfl
@[simp] theorem putCtx_pace (n : Nat) (c : Ctx) : (putCtx s n c).pace = s.pace := rfl
@[simp] theorem putCtx_imgFlags (n : Nat) (c : Ctx) : (putCtx s n c).imgFlags = s.imgFlags := rfl
@[simp] theorem putCtx_mgmtHeld (n : Nat) (c : Ctx) : (putCtx s n c).mgmtHeld = s.mgmtHeld := rfl
@[simp] theorem putWin_credHeld (w : Nat) (x : Win) : (putWin s w x).credHeld = s.credHeld := rfl
@[simp] theorem putWin_keptCpl (w : Nat) (x : Win) : (putWin s w x).keptCpl = s.keptCpl := rfl
@[simp] theorem putWin_mgmtMsg (w : Nat) (x : Win) : (putWin s w x).mgmtMsg = s.mgmtMsg := rfl
@[simp] theorem putWin_draftUnits (w : Nat) (x : Win) : (putWin s w x).draftUnits = s.draftUnits := rfl
@[simp] theorem putWin_mgmtPort (w : Nat) (x : Win) : (putWin s w x).mgmtPort = s.mgmtPort := rfl
@[simp] theorem putWin_mgmtFar (w : Nat) (x : Win) : (putWin s w x).mgmtFar = s.mgmtFar := rfl
@[simp] theorem putWin_draftMaps (w : Nat) (x : Win) : (putWin s w x).draftMaps = s.draftMaps := rfl
@[simp] theorem putWin_medUse (w : Nat) (x : Win) : (putWin s w x).medUse = s.medUse := rfl
@[simp] theorem putWin_medResv (w : Nat) (x : Win) : (putWin s w x).medResv = s.medResv := rfl
@[simp] theorem putWin_fetchDoms (w : Nat) (x : Win) : (putWin s w x).fetchDoms = s.fetchDoms := rfl
@[simp] theorem putWin_planLoads (w : Nat) (x : Win) : (putWin s w x).planLoads = s.planLoads := rfl
@[simp] theorem putWin_planDigests (w : Nat) (x : Win) : (putWin s w x).planDigests = s.planDigests := rfl
@[simp] theorem putWin_granules (w : Nat) (x : Win) : (putWin s w x).granules = s.granules := rfl
@[simp] theorem putWin_replicas (w : Nat) (x : Win) : (putWin s w x).replicas = s.replicas := rfl
@[simp] theorem putWin_reelStamp (w : Nat) (x : Win) : (putWin s w x).reelStamp = s.reelStamp := rfl
@[simp] theorem putWin_reelTxn (w : Nat) (x : Win) : (putWin s w x).reelTxn = s.reelTxn := rfl
@[simp] theorem putWin_kstamps (w : Nat) (x : Win) : (putWin s w x).kstamps = s.kstamps := rfl
@[simp] theorem putWin_streamUnits (w : Nat) (x : Win) : (putWin s w x).streamUnits = s.streamUnits := rfl
@[simp] theorem putWin_streamWait (w : Nat) (x : Win) : (putWin s w x).streamWait = s.streamWait := rfl
@[simp] theorem putWin_lineBuf (w : Nat) (x : Win) : (putWin s w x).lineBuf = s.lineBuf := rfl
@[simp] theorem putWin_poolMap (w : Nat) (x : Win) : (putWin s w x).poolMap = s.poolMap := rfl
@[simp] theorem putWin_ringPos (w : Nat) (x : Win) : (putWin s w x).ringPos = s.ringPos := rfl
@[simp] theorem putWin_verUnits (w : Nat) (x : Win) : (putWin s w x).verUnits = s.verUnits := rfl
@[simp] theorem putWin_hangs (w : Nat) (x : Win) : (putWin s w x).hangs = s.hangs := rfl
@[simp] theorem putWin_kiteNo (w : Nat) (x : Win) : (putWin s w x).kiteNo = s.kiteNo := rfl
@[simp] theorem putWin_cplWait (w : Nat) (x : Win) : (putWin s w x).cplWait = s.cplWait := rfl
@[simp] theorem putWin_bands (w : Nat) (x : Win) : (putWin s w x).bands = s.bands := rfl
@[simp] theorem putWin_locs (w : Nat) (x : Win) : (putWin s w x).locs = s.locs := rfl
@[simp] theorem putWin_metaLocs (w : Nat) (x : Win) : (putWin s w x).metaLocs = s.metaLocs := rfl
@[simp] theorem putWin_logSeq (w : Nat) (x : Win) : (putWin s w x).logSeq = s.logSeq := rfl
@[simp] theorem putWin_logQ (w : Nat) (x : Win) : (putWin s w x).logQ = s.logQ := rfl
@[simp] theorem putWin_logPtr (w : Nat) (x : Win) : (putWin s w x).logPtr = s.logPtr := rfl
@[simp] theorem putWin_parPtr (w : Nat) (x : Win) : (putWin s w x).parPtr = s.parPtr := rfl
@[simp] theorem putWin_decQ (w : Nat) (x : Win) : (putWin s w x).decQ = s.decQ := rfl
@[simp] theorem putWin_decisions (w : Nat) (x : Win) : (putWin s w x).decisions = s.decisions := rfl
@[simp] theorem putWin_regRecs (w : Nat) (x : Win) : (putWin s w x).regRecs = s.regRecs := rfl
@[simp] theorem putWin_rebuilt (w : Nat) (x : Win) : (putWin s w x).rebuilt = s.rebuilt := rfl
@[simp] theorem putWin_stripes (w : Nat) (x : Win) : (putWin s w x).stripes = s.stripes := rfl
@[simp] theorem putWin_parUnits (w : Nat) (x : Win) : (putWin s w x).parUnits = s.parUnits := rfl
@[simp] theorem putWin_contribs (w : Nat) (x : Win) : (putWin s w x).contribs = s.contribs := rfl
@[simp] theorem putWin_quadGeo (w : Nat) (x : Win) : (putWin s w x).quadGeo = s.quadGeo := rfl
@[simp] theorem putWin_chanRates (w : Nat) (x : Win) : (putWin s w x).chanRates = s.chanRates := rfl
@[simp] theorem putWin_blockTab (w : Nat) (x : Win) : (putWin s w x).blockTab = s.blockTab := rfl
@[simp] theorem putWin_badBlocks (w : Nat) (x : Win) : (putWin s w x).badBlocks = s.badBlocks := rfl
@[simp] theorem putWin_remaps (w : Nat) (x : Win) : (putWin s w x).remaps = s.remaps := rfl
@[simp] theorem putWin_spares (w : Nat) (x : Win) : (putWin s w x).spares = s.spares := rfl
@[simp] theorem putWin_lunTmo (w : Nat) (x : Win) : (putWin s w x).lunTmo = s.lunTmo := rfl
@[simp] theorem putWin_lunOut (w : Nat) (x : Win) : (putWin s w x).lunOut = s.lunOut := rfl
@[simp] theorem putWin_targetBytes (w : Nat) (x : Win) : (putWin s w x).targetBytes = s.targetBytes := rfl
@[simp] theorem putWin_reading (w : Nat) (x : Win) : (putWin s w x).reading = s.reading := rfl
@[simp] theorem putWin_unpowered (w : Nat) (x : Win) : (putWin s w x).unpowered = s.unpowered := rfl
@[simp] theorem putWin_sentinels (w : Nat) (x : Win) : (putWin s w x).sentinels = s.sentinels := rfl
@[simp] theorem putWin_rebuildAt (w : Nat) (x : Win) : (putWin s w x).rebuildAt = s.rebuildAt := rfl
@[simp] theorem putWin_foreign (w : Nat) (x : Win) : (putWin s w x).foreign = s.foreign := rfl
@[simp] theorem putWin_retracts (w : Nat) (x : Win) : (putWin s w x).retracts = s.retracts := rfl
@[simp] theorem putWin_copying (w : Nat) (x : Win) : (putWin s w x).copying = s.copying := rfl
@[simp] theorem putWin_recovs (w : Nat) (x : Win) : (putWin s w x).recovs = s.recovs := rfl
@[simp] theorem putWin_swOut (w : Nat) (x : Win) : (putWin s w x).swOut = s.swOut := rfl
@[simp] theorem putWin_swIn (w : Nat) (x : Win) : (putWin s w x).swIn = s.swIn := rfl
@[simp] theorem putWin_swTurn (w : Nat) (x : Win) : (putWin s w x).swTurn = s.swTurn := rfl
@[simp] theorem putWin_swLive (w : Nat) (x : Win) : (putWin s w x).swLive = s.swLive := rfl
@[simp] theorem putWin_swSpent (w : Nat) (x : Win) : (putWin s w x).swSpent = s.swSpent := rfl
@[simp] theorem putWin_mirCnt (w : Nat) (x : Win) : (putWin s w x).mirCnt = s.mirCnt := rfl
@[simp] theorem putWin_agentq (w : Nat) (x : Win) : (putWin s w x).agentq = s.agentq := rfl
@[simp] theorem putWin_agentReqs (w : Nat) (x : Win) : (putWin s w x).agentReqs = s.agentReqs := rfl
@[simp] theorem putWin_agentTxn (w : Nat) (x : Win) : (putWin s w x).agentTxn = s.agentTxn := rfl
@[simp] theorem putWin_farGot (w : Nat) (x : Win) : (putWin s w x).farGot = s.farGot := rfl
@[simp] theorem putWin_fwdWrites (w : Nat) (x : Win) : (putWin s w x).fwdWrites = s.fwdWrites := rfl
@[simp] theorem putWin_swInTurn (w : Nat) (x : Win) : (putWin s w x).swInTurn = s.swInTurn := rfl
@[simp] theorem putWin_swCycles (w : Nat) (x : Win) : (putWin s w x).swCycles = s.swCycles := rfl
@[simp] theorem putWin_reelWaits (w : Nat) (x : Win) : (putWin s w x).reelWaits = s.reelWaits := rfl
@[simp] theorem putWin_wbParts (w : Nat) (x : Win) : (putWin s w x).wbParts = s.wbParts := rfl
@[simp] theorem putWin_reelParts (w : Nat) (x : Win) : (putWin s w x).reelParts = s.reelParts := rfl
@[simp] theorem putWin_resetAt (w : Nat) (x : Win) : (putWin s w x).resetAt = s.resetAt := rfl
@[simp] theorem putWin_aonUp (w : Nat) (x : Win) : (putWin s w x).aonUp = s.aonUp := rfl
@[simp] theorem putWin_xtal (w : Nat) (x : Win) : (putWin s w x).xtal = s.xtal := rfl
@[simp] theorem putWin_wake (w : Nat) (x : Win) : (putWin s w x).wake = s.wake := rfl
@[simp] theorem putWin_stay (w : Nat) (x : Win) : (putWin s w x).stay = s.stay := rfl
@[simp] theorem putWin_resetLow (w : Nat) (x : Win) : (putWin s w x).resetLow = s.resetLow := rfl
@[simp] theorem putWin_thermTrip (w : Nat) (x : Win) : (putWin s w x).thermTrip = s.thermTrip := rfl
@[simp] theorem putWin_forceRecovery (w : Nat) (x : Win) : (putWin s w x).forceRecovery = s.forceRecovery := rfl
@[simp] theorem putWin_hotJ (w : Nat) (x : Win) : (putWin s w x).hotJ = s.hotJ := rfl
@[simp] theorem putWin_coolRun (w : Nat) (x : Win) : (putWin s w x).coolRun = s.coolRun := rfl
@[simp] theorem putWin_stepAt (w : Nat) (x : Win) : (putWin s w x).stepAt = s.stepAt := rfl
@[simp] theorem putWin_pmbFails (w : Nat) (x : Win) : (putWin s w x).pmbFails = s.pmbFails := rfl
@[simp] theorem putWin_imgRx (w : Nat) (x : Win) : (putWin s w x).imgRx = s.imgRx := rfl
@[simp] theorem putWin_imgWrite (w : Nat) (x : Win) : (putWin s w x).imgWrite = s.imgWrite := rfl
@[simp] theorem putWin_imgPort (w : Nat) (x : Win) : (putWin s w x).imgPort = s.imgPort := rfl
@[simp] theorem putWin_cmpRx (w : Nat) (x : Win) : (putWin s w x).cmpRx = s.cmpRx := rfl
@[simp] theorem putWin_sweeps (w : Nat) (x : Win) : (putWin s w x).sweeps = s.sweeps := rfl
@[simp] theorem putWin_owner (w : Nat) (x : Win) : (putWin s w x).owner = s.owner := rfl
@[simp] theorem putWin_production (w : Nat) (x : Win) : (putWin s w x).production = s.production := rfl
@[simp] theorem putWin_tsEn (w : Nat) (x : Win) : (putWin s w x).tsEn = s.tsEn := rfl
@[simp] theorem putWin_tsOpen (w : Nat) (x : Win) : (putWin s w x).tsOpen = s.tsOpen := rfl
@[simp] theorem putWin_mgmtIdle (w : Nat) (x : Win) : (putWin s w x).mgmtIdle = s.mgmtIdle := rfl
@[simp] theorem putWin_mgmtAddr (w : Nat) (x : Win) : (putWin s w x).mgmtAddr = s.mgmtAddr := rfl
@[simp] theorem putWin_mgmtNext (w : Nat) (x : Win) : (putWin s w x).mgmtNext = s.mgmtNext := rfl
@[simp] theorem putWin_ethAddr (w : Nat) (x : Win) : (putWin s w x).ethAddr = s.ethAddr := rfl
@[simp] theorem putWin_pfcQ (w : Nat) (x : Win) : (putWin s w x).pfcQ = s.pfcQ := rfl
@[simp] theorem putWin_paused (w : Nat) (x : Win) : (putWin s w x).paused = s.paused := rfl
@[simp] theorem putWin_xoff (w : Nat) (x : Win) : (putWin s w x).xoff = s.xoff := rfl
@[simp] theorem putWin_tetherSeen (w : Nat) (x : Win) : (putWin s w x).tetherSeen = s.tetherSeen := rfl
@[simp] theorem putWin_pmcHeld (w : Nat) (x : Win) : (putWin s w x).pmcHeld = s.pmcHeld := rfl
@[simp] theorem putWin_tagRegs (w : Nat) (x : Win) : (putWin s w x).tagRegs = s.tagRegs := rfl
@[simp] theorem putWin_tagFresh (w : Nat) (x : Win) : (putWin s w x).tagFresh = s.tagFresh := rfl
@[simp] theorem putWin_jtag (w : Nat) (x : Win) : (putWin s w x).jtag = s.jtag := rfl
@[simp] theorem putWin_boundary (w : Nat) (x : Win) : (putWin s w x).boundary = s.boundary := rfl
@[simp] theorem putWin_rails (w : Nat) (x : Win) : (putWin s w x).rails = s.rails := rfl
@[simp] theorem putWin_pace (w : Nat) (x : Win) : (putWin s w x).pace = s.pace := rfl
@[simp] theorem putWin_imgFlags (w : Nat) (x : Win) : (putWin s w x).imgFlags = s.imgFlags := rfl
@[simp] theorem putWin_mgmtHeld (w : Nat) (x : Win) : (putWin s w x).mgmtHeld = s.mgmtHeld := rfl
@[simp] theorem zeroMem_pending (a len : Nat) : (zeroMem s a len).pending = s.pending := by rw [zeroMem, clrPoisonRange_pending]
@[simp] theorem zeroMem_regs (a len : Nat) : (zeroMem s a len).regs = s.regs := by rw [zeroMem, clrPoisonRange_regs]
@[simp] theorem zeroMem_counters (a len : Nat) : (zeroMem s a len).counters = s.counters := by rw [zeroMem, clrPoisonRange_counters]
@[simp] theorem zeroMem_wins (a len : Nat) : (zeroMem s a len).wins = s.wins := by rw [zeroMem, clrPoisonRange_wins]
@[simp] theorem zeroMem_areas (a len : Nat) : (zeroMem s a len).areas = s.areas := by rw [zeroMem, clrPoisonRange_areas]
@[simp] theorem zeroMem_inj (a len : Nat) : (zeroMem s a len).inj = s.inj := by rw [zeroMem, clrPoisonRange_inj]
@[simp] theorem zeroMem_out (a len : Nat) : (zeroMem s a len).out = s.out := by rw [zeroMem, clrPoisonRange_out]
@[simp] theorem zeroMem_free (a len : Nat) : (zeroMem s a len).free = s.free := by rw [zeroMem, clrPoisonRange_free]
@[simp] theorem zeroMem_seq (a len : Nat) : (zeroMem s a len).seq = s.seq := by rw [zeroMem, clrPoisonRange_seq]
@[simp] theorem zeroMem_trk (a len : Nat) : (zeroMem s a len).trk = s.trk := by rw [zeroMem, clrPoisonRange_trk]
@[simp] theorem zeroMem_retry (a len : Nat) : (zeroMem s a len).retry = s.retry := by rw [zeroMem, clrPoisonRange_retry]
@[simp] theorem zeroMem_blockq (a len : Nat) : (zeroMem s a len).blockq = s.blockq := by rw [zeroMem, clrPoisonRange_blockq]
@[simp] theorem zeroMem_filt (a len : Nat) : (zeroMem s a len).filt = s.filt := by rw [zeroMem, clrPoisonRange_filt]
@[simp] theorem zeroMem_dir (a len : Nat) : (zeroMem s a len).dir = s.dir := by rw [zeroMem, clrPoisonRange_dir]
@[simp] theorem zeroMem_store (a len : Nat) : (zeroMem s a len).store = s.store := by rw [zeroMem, clrPoisonRange_store]
@[simp] theorem zeroMem_kernels (a len : Nat) : (zeroMem s a len).kernels = s.kernels := by rw [zeroMem, clrPoisonRange_kernels]
@[simp] theorem zeroMem_lathes (a len : Nat) : (zeroMem s a len).lathes = s.lathes := by rw [zeroMem, clrPoisonRange_lathes]
@[simp] theorem zeroMem_ctxs (a len : Nat) : (zeroMem s a len).ctxs = s.ctxs := by rw [zeroMem, clrPoisonRange_ctxs]
@[simp] theorem zeroMem_kites (a len : Nat) : (zeroMem s a len).kites = s.kites := by rw [zeroMem, clrPoisonRange_kites]
@[simp] theorem zeroMem_shadows (a len : Nat) : (zeroMem s a len).shadows = s.shadows := by rw [zeroMem, clrPoisonRange_shadows]
@[simp] theorem zeroMem_sess (a len : Nat) : (zeroMem s a len).sess = s.sess := by rw [zeroMem, clrPoisonRange_sess]
@[simp] theorem zeroMem_reels (a len : Nat) : (zeroMem s a len).reels = s.reels := by rw [zeroMem, clrPoisonRange_reels]
@[simp] theorem zeroMem_links (a len : Nat) : (zeroMem s a len).links = s.links := by rw [zeroMem, clrPoisonRange_links]
@[simp] theorem zeroMem_cells (a len : Nat) : (zeroMem s a len).cells = s.cells := by rw [zeroMem, clrPoisonRange_cells]
@[simp] theorem zeroMem_fetches (a len : Nat) : (zeroMem s a len).fetches = s.fetches := by rw [zeroMem, clrPoisonRange_fetches]
@[simp] theorem zeroMem_freeFrames (a len : Nat) : (zeroMem s a len).freeFrames = s.freeFrames := by rw [zeroMem, clrPoisonRange_freeFrames]
@[simp] theorem zeroMem_dirtyFrames (a len : Nat) : (zeroMem s a len).dirtyFrames = s.dirtyFrames := by rw [zeroMem, clrPoisonRange_dirtyFrames]
@[simp] theorem zeroMem_cmpWait (a len : Nat) : (zeroMem s a len).cmpWait = s.cmpWait := by rw [zeroMem, clrPoisonRange_cmpWait]
@[simp] theorem zeroMem_tierCache (a len : Nat) : (zeroMem s a len).tierCache = s.tierCache := by rw [zeroMem, clrPoisonRange_tierCache]
@[simp] theorem zeroMem_versions (a len : Nat) : (zeroMem s a len).versions = s.versions := by rw [zeroMem, clrPoisonRange_versions]
@[simp] theorem zeroMem_stbyUp (a len : Nat) : (zeroMem s a len).stbyUp = s.stbyUp := by rw [zeroMem, clrPoisonRange_stbyUp]
@[simp] theorem zeroMem_mgmtOut (a len : Nat) : (zeroMem s a len).mgmtOut = s.mgmtOut := by rw [zeroMem, clrPoisonRange_mgmtOut]
@[simp] theorem zeroMem_ballastQ (a len : Nat) : (zeroMem s a len).ballastQ = s.ballastQ := by rw [zeroMem, clrPoisonRange_ballastQ]
@[simp] theorem zeroMem_clocked (a len : Nat) : (zeroMem s a len).clocked = s.clocked := by rw [zeroMem, clrPoisonRange_clocked]
@[simp] theorem zeroMem_degraded (a len : Nat) : (zeroMem s a len).degraded = s.degraded := by rw [zeroMem, clrPoisonRange_degraded]
@[simp] theorem zeroMem_toRestore (a len : Nat) : (zeroMem s a len).toRestore = s.toRestore := by rw [zeroMem, clrPoisonRange_toRestore]
@[simp] theorem zeroMem_lathQ (a len : Nat) : (zeroMem s a len).lathQ = s.lathQ := by rw [zeroMem, clrPoisonRange_lathQ]
@[simp] theorem zeroMem_engQ (a len : Nat) : (zeroMem s a len).engQ = s.engQ := by rw [zeroMem, clrPoisonRange_engQ]
@[simp] theorem zeroMem_missq (a len : Nat) : (zeroMem s a len).missq = s.missq := by rw [zeroMem, clrPoisonRange_missq]
@[simp] theorem zeroMem_pubs (a len : Nat) : (zeroMem s a len).pubs = s.pubs := by rw [zeroMem, clrPoisonRange_pubs]
@[simp] theorem zeroMem_lost (a len : Nat) : (zeroMem s a len).lost = s.lost := by rw [zeroMem, clrPoisonRange_lost]
@[simp] theorem zeroMem_nameds (a len : Nat) : (zeroMem s a len).nameds = s.nameds := by rw [zeroMem, clrPoisonRange_nameds]
@[simp] theorem zeroMem_recallq (a len : Nat) : (zeroMem s a len).recallq = s.recallq := by rw [zeroMem, clrPoisonRange_recallq]
@[simp] theorem zeroMem_wbq (a len : Nat) : (zeroMem s a len).wbq = s.wbq := by rw [zeroMem, clrPoisonRange_wbq]
@[simp] theorem zeroMem_covers (a len : Nat) : (zeroMem s a len).covers = s.covers := by rw [zeroMem, clrPoisonRange_covers]
@[simp] theorem zeroMem_restoreq (a len : Nat) : (zeroMem s a len).restoreq = s.restoreq := by rw [zeroMem, clrPoisonRange_restoreq]
@[simp] theorem zeroMem_peerOuts (a len : Nat) : (zeroMem s a len).peerOuts = s.peerOuts := by rw [zeroMem, clrPoisonRange_peerOuts]
@[simp] theorem zeroMem_progs (a len : Nat) : (zeroMem s a len).progs = s.progs := by rw [zeroMem, clrPoisonRange_progs]
@[simp] theorem zeroMem_dumps (a len : Nat) : (zeroMem s a len).dumps = s.dumps := by rw [zeroMem, clrPoisonRange_dumps]
@[simp] theorem zeroMem_tsWait (a len : Nat) : (zeroMem s a len).tsWait = s.tsWait := by rw [zeroMem, clrPoisonRange_tsWait]

@[simp] theorem putWin_pending (w : Nat) (x : Win) : (putWin s w x).pending = s.pending := rfl
@[simp] theorem putWin_regs (w : Nat) (x : Win) : (putWin s w x).regs = s.regs := rfl
@[simp] theorem putWin_mem (w : Nat) (x : Win) : (putWin s w x).mem = s.mem := rfl
@[simp] theorem putWin_poison (w : Nat) (x : Win) : (putWin s w x).poison = s.poison := rfl
@[simp] theorem putWin_counters (w : Nat) (x : Win) : (putWin s w x).counters = s.counters := rfl
@[simp] theorem putWin_areas (w : Nat) (x : Win) : (putWin s w x).areas = s.areas := rfl
@[simp] theorem putWin_inj (w : Nat) (x : Win) : (putWin s w x).inj = s.inj := rfl
@[simp] theorem putWin_out (w : Nat) (x : Win) : (putWin s w x).out = s.out := rfl
@[simp] theorem putWin_free (w : Nat) (x : Win) : (putWin s w x).free = s.free := rfl
@[simp] theorem putWin_seq (w : Nat) (x : Win) : (putWin s w x).seq = s.seq := rfl
@[simp] theorem putWin_trk (w : Nat) (x : Win) : (putWin s w x).trk = s.trk := rfl
@[simp] theorem putWin_retry (w : Nat) (x : Win) : (putWin s w x).retry = s.retry := rfl
@[simp] theorem putWin_blockq (w : Nat) (x : Win) : (putWin s w x).blockq = s.blockq := rfl
@[simp] theorem putWin_filt (w : Nat) (x : Win) : (putWin s w x).filt = s.filt := rfl
@[simp] theorem putWin_dir (w : Nat) (x : Win) : (putWin s w x).dir = s.dir := rfl
@[simp] theorem putWin_store (w : Nat) (x : Win) : (putWin s w x).store = s.store := rfl
@[simp] theorem putWin_kernels (w : Nat) (x : Win) : (putWin s w x).kernels = s.kernels := rfl
@[simp] theorem putWin_lathes (w : Nat) (x : Win) : (putWin s w x).lathes = s.lathes := rfl
@[simp] theorem putWin_ctxs (w : Nat) (x : Win) : (putWin s w x).ctxs = s.ctxs := rfl
@[simp] theorem putWin_kites (w : Nat) (x : Win) : (putWin s w x).kites = s.kites := rfl
@[simp] theorem putWin_shadows (w : Nat) (x : Win) : (putWin s w x).shadows = s.shadows := rfl
@[simp] theorem putWin_sess (w : Nat) (x : Win) : (putWin s w x).sess = s.sess := rfl
@[simp] theorem putWin_reels (w : Nat) (x : Win) : (putWin s w x).reels = s.reels := rfl
@[simp] theorem putWin_links (w : Nat) (x : Win) : (putWin s w x).links = s.links := rfl
@[simp] theorem putWin_cells (w : Nat) (x : Win) : (putWin s w x).cells = s.cells := rfl
@[simp] theorem putWin_fetches (w : Nat) (x : Win) : (putWin s w x).fetches = s.fetches := rfl
@[simp] theorem putWin_freeFrames (w : Nat) (x : Win) : (putWin s w x).freeFrames = s.freeFrames := rfl
@[simp] theorem putWin_dirtyFrames (w : Nat) (x : Win) : (putWin s w x).dirtyFrames = s.dirtyFrames := rfl
@[simp] theorem putWin_cmpWait (w : Nat) (x : Win) : (putWin s w x).cmpWait = s.cmpWait := rfl
@[simp] theorem putWin_tierCache (w : Nat) (x : Win) : (putWin s w x).tierCache = s.tierCache := rfl
@[simp] theorem putWin_versions (w : Nat) (x : Win) : (putWin s w x).versions = s.versions := rfl
@[simp] theorem putWin_stbyUp (w : Nat) (x : Win) : (putWin s w x).stbyUp = s.stbyUp := rfl
@[simp] theorem putWin_mgmtOut (w : Nat) (x : Win) : (putWin s w x).mgmtOut = s.mgmtOut := rfl
@[simp] theorem putWin_ballastQ (w : Nat) (x : Win) : (putWin s w x).ballastQ = s.ballastQ := rfl
@[simp] theorem putWin_clocked (w : Nat) (x : Win) : (putWin s w x).clocked = s.clocked := rfl
@[simp] theorem putWin_degraded (w : Nat) (x : Win) : (putWin s w x).degraded = s.degraded := rfl
@[simp] theorem putWin_toRestore (w : Nat) (x : Win) : (putWin s w x).toRestore = s.toRestore := rfl
@[simp] theorem putWin_lathQ (w : Nat) (x : Win) : (putWin s w x).lathQ = s.lathQ := rfl
@[simp] theorem putWin_engQ (w : Nat) (x : Win) : (putWin s w x).engQ = s.engQ := rfl
@[simp] theorem putWin_missq (w : Nat) (x : Win) : (putWin s w x).missq = s.missq := rfl
@[simp] theorem putWin_pubs (w : Nat) (x : Win) : (putWin s w x).pubs = s.pubs := rfl
@[simp] theorem putWin_lost (w : Nat) (x : Win) : (putWin s w x).lost = s.lost := rfl
@[simp] theorem putWin_nameds (w : Nat) (x : Win) : (putWin s w x).nameds = s.nameds := rfl
@[simp] theorem putWin_recallq (w : Nat) (x : Win) : (putWin s w x).recallq = s.recallq := rfl
@[simp] theorem putWin_wbq (w : Nat) (x : Win) : (putWin s w x).wbq = s.wbq := rfl
@[simp] theorem putWin_covers (w : Nat) (x : Win) : (putWin s w x).covers = s.covers := rfl
@[simp] theorem putWin_restoreq (w : Nat) (x : Win) : (putWin s w x).restoreq = s.restoreq := rfl
@[simp] theorem putWin_peerOuts (w : Nat) (x : Win) : (putWin s w x).peerOuts = s.peerOuts := rfl
@[simp] theorem putWin_progs (w : Nat) (x : Win) : (putWin s w x).progs = s.progs := rfl
@[simp] theorem putWin_dumps (w : Nat) (x : Win) : (putWin s w x).dumps = s.dumps := rfl
@[simp] theorem putWin_tsWait (w : Nat) (x : Win) : (putWin s w x).tsWait = s.tsWait := rfl

@[simp] theorem putLink_pending (p : Nat) (x : Link) : (putLink s p x).pending = s.pending := by rw [putLink, regPut_pending]
@[simp] theorem putLink_mem (p : Nat) (x : Link) : (putLink s p x).mem = s.mem := by rw [putLink, regPut_mem]
@[simp] theorem putLink_poison (p : Nat) (x : Link) : (putLink s p x).poison = s.poison := by rw [putLink, regPut_poison]
@[simp] theorem putLink_counters (p : Nat) (x : Link) : (putLink s p x).counters = s.counters := by rw [putLink, regPut_counters]
@[simp] theorem putLink_wins (p : Nat) (x : Link) : (putLink s p x).wins = s.wins := by rw [putLink, regPut_wins]
@[simp] theorem putLink_areas (p : Nat) (x : Link) : (putLink s p x).areas = s.areas := by rw [putLink, regPut_areas]
@[simp] theorem putLink_inj (p : Nat) (x : Link) : (putLink s p x).inj = s.inj := by rw [putLink, regPut_inj]
@[simp] theorem putLink_out (p : Nat) (x : Link) : (putLink s p x).out = s.out := by rw [putLink, regPut_out]
@[simp] theorem putLink_free (p : Nat) (x : Link) : (putLink s p x).free = s.free := by rw [putLink, regPut_free]
@[simp] theorem putLink_seq (p : Nat) (x : Link) : (putLink s p x).seq = s.seq := by rw [putLink, regPut_seq]
@[simp] theorem putLink_trk (p : Nat) (x : Link) : (putLink s p x).trk = s.trk := by rw [putLink, regPut_trk]
@[simp] theorem putLink_retry (p : Nat) (x : Link) : (putLink s p x).retry = s.retry := by rw [putLink, regPut_retry]
@[simp] theorem putLink_blockq (p : Nat) (x : Link) : (putLink s p x).blockq = s.blockq := by rw [putLink, regPut_blockq]
@[simp] theorem putLink_filt (p : Nat) (x : Link) : (putLink s p x).filt = s.filt := by rw [putLink, regPut_filt]
@[simp] theorem putLink_dir (p : Nat) (x : Link) : (putLink s p x).dir = s.dir := by rw [putLink, regPut_dir]
@[simp] theorem putLink_store (p : Nat) (x : Link) : (putLink s p x).store = s.store := by rw [putLink, regPut_store]
@[simp] theorem putLink_kernels (p : Nat) (x : Link) : (putLink s p x).kernels = s.kernels := by rw [putLink, regPut_kernels]
@[simp] theorem putLink_lathes (p : Nat) (x : Link) : (putLink s p x).lathes = s.lathes := by rw [putLink, regPut_lathes]
@[simp] theorem putLink_ctxs (p : Nat) (x : Link) : (putLink s p x).ctxs = s.ctxs := by rw [putLink, regPut_ctxs]
@[simp] theorem putLink_kites (p : Nat) (x : Link) : (putLink s p x).kites = s.kites := by rw [putLink, regPut_kites]
@[simp] theorem putLink_shadows (p : Nat) (x : Link) : (putLink s p x).shadows = s.shadows := by rw [putLink, regPut_shadows]
@[simp] theorem putLink_sess (p : Nat) (x : Link) : (putLink s p x).sess = s.sess := by rw [putLink, regPut_sess]
@[simp] theorem putLink_reels (p : Nat) (x : Link) : (putLink s p x).reels = s.reels := by rw [putLink, regPut_reels]
@[simp] theorem putLink_cells (p : Nat) (x : Link) : (putLink s p x).cells = s.cells := by rw [putLink, regPut_cells]
@[simp] theorem putLink_fetches (p : Nat) (x : Link) : (putLink s p x).fetches = s.fetches := by rw [putLink, regPut_fetches]
@[simp] theorem putLink_freeFrames (p : Nat) (x : Link) : (putLink s p x).freeFrames = s.freeFrames := by rw [putLink, regPut_freeFrames]
@[simp] theorem putLink_dirtyFrames (p : Nat) (x : Link) : (putLink s p x).dirtyFrames = s.dirtyFrames := by rw [putLink, regPut_dirtyFrames]
@[simp] theorem putLink_cmpWait (p : Nat) (x : Link) : (putLink s p x).cmpWait = s.cmpWait := by rw [putLink, regPut_cmpWait]
@[simp] theorem putLink_tierCache (p : Nat) (x : Link) : (putLink s p x).tierCache = s.tierCache := by rw [putLink, regPut_tierCache]
@[simp] theorem putLink_versions (p : Nat) (x : Link) : (putLink s p x).versions = s.versions := by rw [putLink, regPut_versions]
@[simp] theorem putLink_stbyUp (p : Nat) (x : Link) : (putLink s p x).stbyUp = s.stbyUp := by rw [putLink, regPut_stbyUp]
@[simp] theorem putLink_mgmtOut (p : Nat) (x : Link) : (putLink s p x).mgmtOut = s.mgmtOut := by rw [putLink, regPut_mgmtOut]
@[simp] theorem putLink_ballastQ (p : Nat) (x : Link) : (putLink s p x).ballastQ = s.ballastQ := by rw [putLink, regPut_ballastQ]
@[simp] theorem putLink_clocked (p : Nat) (x : Link) : (putLink s p x).clocked = s.clocked := by rw [putLink, regPut_clocked]
@[simp] theorem putLink_degraded (p : Nat) (x : Link) : (putLink s p x).degraded = s.degraded := by rw [putLink, regPut_degraded]
@[simp] theorem putLink_toRestore (p : Nat) (x : Link) : (putLink s p x).toRestore = s.toRestore := by rw [putLink, regPut_toRestore]
@[simp] theorem putLink_lathQ (p : Nat) (x : Link) : (putLink s p x).lathQ = s.lathQ := by rw [putLink, regPut_lathQ]
@[simp] theorem putLink_engQ (p : Nat) (x : Link) : (putLink s p x).engQ = s.engQ := by rw [putLink, regPut_engQ]
@[simp] theorem putLink_missq (p : Nat) (x : Link) : (putLink s p x).missq = s.missq := by rw [putLink, regPut_missq]
@[simp] theorem putLink_pubs (p : Nat) (x : Link) : (putLink s p x).pubs = s.pubs := by rw [putLink, regPut_pubs]
@[simp] theorem putLink_lost (p : Nat) (x : Link) : (putLink s p x).lost = s.lost := by rw [putLink, regPut_lost]
@[simp] theorem putLink_nameds (p : Nat) (x : Link) : (putLink s p x).nameds = s.nameds := by rw [putLink, regPut_nameds]
@[simp] theorem putLink_recallq (p : Nat) (x : Link) : (putLink s p x).recallq = s.recallq := by rw [putLink, regPut_recallq]
@[simp] theorem putLink_wbq (p : Nat) (x : Link) : (putLink s p x).wbq = s.wbq := by rw [putLink, regPut_wbq]
@[simp] theorem putLink_covers (p : Nat) (x : Link) : (putLink s p x).covers = s.covers := by rw [putLink, regPut_covers]
@[simp] theorem putLink_restoreq (p : Nat) (x : Link) : (putLink s p x).restoreq = s.restoreq := by rw [putLink, regPut_restoreq]
@[simp] theorem putLink_peerOuts (p : Nat) (x : Link) : (putLink s p x).peerOuts = s.peerOuts := by rw [putLink, regPut_peerOuts]
@[simp] theorem putLink_progs (p : Nat) (x : Link) : (putLink s p x).progs = s.progs := by rw [putLink, regPut_progs]
@[simp] theorem putLink_dumps (p : Nat) (x : Link) : (putLink s p x).dumps = s.dumps := by rw [putLink, regPut_dumps]
@[simp] theorem putLink_tsWait (p : Nat) (x : Link) : (putLink s p x).tsWait = s.tsWait := by rw [putLink, regPut_tsWait]

@[simp] theorem storeFree_pending (off : Nat) : (storeFree s off).pending = s.pending := rfl
@[simp] theorem storeFree_regs (off : Nat) : (storeFree s off).regs = s.regs := rfl
@[simp] theorem storeFree_mem (off : Nat) : (storeFree s off).mem = s.mem := rfl
@[simp] theorem storeFree_poison (off : Nat) : (storeFree s off).poison = s.poison := rfl
@[simp] theorem storeFree_counters (off : Nat) : (storeFree s off).counters = s.counters := rfl
@[simp] theorem storeFree_wins (off : Nat) : (storeFree s off).wins = s.wins := rfl
@[simp] theorem storeFree_areas (off : Nat) : (storeFree s off).areas = s.areas := rfl
@[simp] theorem storeFree_inj (off : Nat) : (storeFree s off).inj = s.inj := rfl
@[simp] theorem storeFree_out (off : Nat) : (storeFree s off).out = s.out := rfl
@[simp] theorem storeFree_free (off : Nat) : (storeFree s off).free = s.free := rfl
@[simp] theorem storeFree_seq (off : Nat) : (storeFree s off).seq = s.seq := rfl
@[simp] theorem storeFree_trk (off : Nat) : (storeFree s off).trk = s.trk := rfl
@[simp] theorem storeFree_retry (off : Nat) : (storeFree s off).retry = s.retry := rfl
@[simp] theorem storeFree_blockq (off : Nat) : (storeFree s off).blockq = s.blockq := rfl
@[simp] theorem storeFree_filt (off : Nat) : (storeFree s off).filt = s.filt := rfl
@[simp] theorem storeFree_dir (off : Nat) : (storeFree s off).dir = s.dir := rfl
@[simp] theorem storeFree_kernels (off : Nat) : (storeFree s off).kernels = s.kernels := rfl
@[simp] theorem storeFree_lathes (off : Nat) : (storeFree s off).lathes = s.lathes := rfl
@[simp] theorem storeFree_ctxs (off : Nat) : (storeFree s off).ctxs = s.ctxs := rfl
@[simp] theorem storeFree_kites (off : Nat) : (storeFree s off).kites = s.kites := rfl
@[simp] theorem storeFree_shadows (off : Nat) : (storeFree s off).shadows = s.shadows := rfl
@[simp] theorem storeFree_sess (off : Nat) : (storeFree s off).sess = s.sess := rfl
@[simp] theorem storeFree_reels (off : Nat) : (storeFree s off).reels = s.reels := rfl
@[simp] theorem storeFree_links (off : Nat) : (storeFree s off).links = s.links := rfl
@[simp] theorem storeFree_cells (off : Nat) : (storeFree s off).cells = s.cells := rfl
@[simp] theorem storeFree_fetches (off : Nat) : (storeFree s off).fetches = s.fetches := rfl
@[simp] theorem storeFree_freeFrames (off : Nat) : (storeFree s off).freeFrames = s.freeFrames := rfl
@[simp] theorem storeFree_dirtyFrames (off : Nat) : (storeFree s off).dirtyFrames = s.dirtyFrames := rfl
@[simp] theorem storeFree_cmpWait (off : Nat) : (storeFree s off).cmpWait = s.cmpWait := rfl
@[simp] theorem storeFree_tierCache (off : Nat) : (storeFree s off).tierCache = s.tierCache := rfl
@[simp] theorem storeFree_versions (off : Nat) : (storeFree s off).versions = s.versions := rfl
@[simp] theorem storeFree_stbyUp (off : Nat) : (storeFree s off).stbyUp = s.stbyUp := rfl
@[simp] theorem storeFree_mgmtOut (off : Nat) : (storeFree s off).mgmtOut = s.mgmtOut := rfl
@[simp] theorem storeFree_ballastQ (off : Nat) : (storeFree s off).ballastQ = s.ballastQ := rfl
@[simp] theorem storeFree_clocked (off : Nat) : (storeFree s off).clocked = s.clocked := rfl
@[simp] theorem storeFree_degraded (off : Nat) : (storeFree s off).degraded = s.degraded := rfl
@[simp] theorem storeFree_toRestore (off : Nat) : (storeFree s off).toRestore = s.toRestore := rfl
@[simp] theorem storeFree_lathQ (off : Nat) : (storeFree s off).lathQ = s.lathQ := rfl
@[simp] theorem storeFree_engQ (off : Nat) : (storeFree s off).engQ = s.engQ := rfl
@[simp] theorem storeFree_missq (off : Nat) : (storeFree s off).missq = s.missq := rfl
@[simp] theorem storeFree_pubs (off : Nat) : (storeFree s off).pubs = s.pubs := rfl
@[simp] theorem storeFree_lost (off : Nat) : (storeFree s off).lost = s.lost := rfl
@[simp] theorem storeFree_nameds (off : Nat) : (storeFree s off).nameds = s.nameds := rfl
@[simp] theorem storeFree_recallq (off : Nat) : (storeFree s off).recallq = s.recallq := rfl
@[simp] theorem storeFree_wbq (off : Nat) : (storeFree s off).wbq = s.wbq := rfl
@[simp] theorem storeFree_covers (off : Nat) : (storeFree s off).covers = s.covers := rfl
@[simp] theorem storeFree_restoreq (off : Nat) : (storeFree s off).restoreq = s.restoreq := rfl
@[simp] theorem storeFree_peerOuts (off : Nat) : (storeFree s off).peerOuts = s.peerOuts := rfl
@[simp] theorem storeFree_progs (off : Nat) : (storeFree s off).progs = s.progs := rfl
@[simp] theorem storeFree_dumps (off : Nat) : (storeFree s off).dumps = s.dumps := rfl
@[simp] theorem storeFree_tsWait (off : Nat) : (storeFree s off).tsWait = s.tsWait := rfl

@[simp] theorem storeTouch_pending (off : Nat) : (storeTouch s off).pending = s.pending := rfl
@[simp] theorem storeTouch_regs (off : Nat) : (storeTouch s off).regs = s.regs := rfl
@[simp] theorem storeTouch_mem (off : Nat) : (storeTouch s off).mem = s.mem := rfl
@[simp] theorem storeTouch_poison (off : Nat) : (storeTouch s off).poison = s.poison := rfl
@[simp] theorem storeTouch_counters (off : Nat) : (storeTouch s off).counters = s.counters := rfl
@[simp] theorem storeTouch_wins (off : Nat) : (storeTouch s off).wins = s.wins := rfl
@[simp] theorem storeTouch_areas (off : Nat) : (storeTouch s off).areas = s.areas := rfl
@[simp] theorem storeTouch_inj (off : Nat) : (storeTouch s off).inj = s.inj := rfl
@[simp] theorem storeTouch_out (off : Nat) : (storeTouch s off).out = s.out := rfl
@[simp] theorem storeTouch_free (off : Nat) : (storeTouch s off).free = s.free := rfl
@[simp] theorem storeTouch_seq (off : Nat) : (storeTouch s off).seq = s.seq := rfl
@[simp] theorem storeTouch_trk (off : Nat) : (storeTouch s off).trk = s.trk := rfl
@[simp] theorem storeTouch_retry (off : Nat) : (storeTouch s off).retry = s.retry := rfl
@[simp] theorem storeTouch_blockq (off : Nat) : (storeTouch s off).blockq = s.blockq := rfl
@[simp] theorem storeTouch_filt (off : Nat) : (storeTouch s off).filt = s.filt := rfl
@[simp] theorem storeTouch_dir (off : Nat) : (storeTouch s off).dir = s.dir := rfl
@[simp] theorem storeTouch_kernels (off : Nat) : (storeTouch s off).kernels = s.kernels := rfl
@[simp] theorem storeTouch_lathes (off : Nat) : (storeTouch s off).lathes = s.lathes := rfl
@[simp] theorem storeTouch_ctxs (off : Nat) : (storeTouch s off).ctxs = s.ctxs := rfl
@[simp] theorem storeTouch_kites (off : Nat) : (storeTouch s off).kites = s.kites := rfl
@[simp] theorem storeTouch_shadows (off : Nat) : (storeTouch s off).shadows = s.shadows := rfl
@[simp] theorem storeTouch_sess (off : Nat) : (storeTouch s off).sess = s.sess := rfl
@[simp] theorem storeTouch_reels (off : Nat) : (storeTouch s off).reels = s.reels := rfl
@[simp] theorem storeTouch_links (off : Nat) : (storeTouch s off).links = s.links := rfl
@[simp] theorem storeTouch_cells (off : Nat) : (storeTouch s off).cells = s.cells := rfl
@[simp] theorem storeTouch_fetches (off : Nat) : (storeTouch s off).fetches = s.fetches := rfl
@[simp] theorem storeTouch_freeFrames (off : Nat) : (storeTouch s off).freeFrames = s.freeFrames := rfl
@[simp] theorem storeTouch_dirtyFrames (off : Nat) : (storeTouch s off).dirtyFrames = s.dirtyFrames := rfl
@[simp] theorem storeTouch_cmpWait (off : Nat) : (storeTouch s off).cmpWait = s.cmpWait := rfl
@[simp] theorem storeTouch_tierCache (off : Nat) : (storeTouch s off).tierCache = s.tierCache := rfl
@[simp] theorem storeTouch_versions (off : Nat) : (storeTouch s off).versions = s.versions := rfl
@[simp] theorem storeTouch_stbyUp (off : Nat) : (storeTouch s off).stbyUp = s.stbyUp := rfl
@[simp] theorem storeTouch_mgmtOut (off : Nat) : (storeTouch s off).mgmtOut = s.mgmtOut := rfl
@[simp] theorem storeTouch_ballastQ (off : Nat) : (storeTouch s off).ballastQ = s.ballastQ := rfl
@[simp] theorem storeTouch_clocked (off : Nat) : (storeTouch s off).clocked = s.clocked := rfl
@[simp] theorem storeTouch_degraded (off : Nat) : (storeTouch s off).degraded = s.degraded := rfl
@[simp] theorem storeTouch_toRestore (off : Nat) : (storeTouch s off).toRestore = s.toRestore := rfl
@[simp] theorem storeTouch_lathQ (off : Nat) : (storeTouch s off).lathQ = s.lathQ := rfl
@[simp] theorem storeTouch_engQ (off : Nat) : (storeTouch s off).engQ = s.engQ := rfl
@[simp] theorem storeTouch_missq (off : Nat) : (storeTouch s off).missq = s.missq := rfl
@[simp] theorem storeTouch_pubs (off : Nat) : (storeTouch s off).pubs = s.pubs := rfl
@[simp] theorem storeTouch_lost (off : Nat) : (storeTouch s off).lost = s.lost := rfl
@[simp] theorem storeTouch_nameds (off : Nat) : (storeTouch s off).nameds = s.nameds := rfl
@[simp] theorem storeTouch_recallq (off : Nat) : (storeTouch s off).recallq = s.recallq := rfl
@[simp] theorem storeTouch_wbq (off : Nat) : (storeTouch s off).wbq = s.wbq := rfl
@[simp] theorem storeTouch_covers (off : Nat) : (storeTouch s off).covers = s.covers := rfl
@[simp] theorem storeTouch_restoreq (off : Nat) : (storeTouch s off).restoreq = s.restoreq := rfl
@[simp] theorem storeTouch_peerOuts (off : Nat) : (storeTouch s off).peerOuts = s.peerOuts := rfl
@[simp] theorem storeTouch_progs (off : Nat) : (storeTouch s off).progs = s.progs := rfl
@[simp] theorem storeTouch_dumps (off : Nat) : (storeTouch s off).dumps = s.dumps := rfl
@[simp] theorem storeTouch_tsWait (off : Nat) : (storeTouch s off).tsWait = s.tsWait := rfl

@[simp] theorem recPut_pending (line : Nat) (st : LState) (v : BitVec 64) : (recPut s line st v).pending = s.pending := rfl
@[simp] theorem recPut_regs (line : Nat) (st : LState) (v : BitVec 64) : (recPut s line st v).regs = s.regs := rfl
@[simp] theorem recPut_mem (line : Nat) (st : LState) (v : BitVec 64) : (recPut s line st v).mem = s.mem := rfl
@[simp] theorem recPut_poison (line : Nat) (st : LState) (v : BitVec 64) : (recPut s line st v).poison = s.poison := rfl
@[simp] theorem recPut_counters (line : Nat) (st : LState) (v : BitVec 64) : (recPut s line st v).counters = s.counters := rfl
@[simp] theorem recPut_wins (line : Nat) (st : LState) (v : BitVec 64) : (recPut s line st v).wins = s.wins := rfl
@[simp] theorem recPut_areas (line : Nat) (st : LState) (v : BitVec 64) : (recPut s line st v).areas = s.areas := rfl
@[simp] theorem recPut_inj (line : Nat) (st : LState) (v : BitVec 64) : (recPut s line st v).inj = s.inj := rfl
@[simp] theorem recPut_out (line : Nat) (st : LState) (v : BitVec 64) : (recPut s line st v).out = s.out := rfl
@[simp] theorem recPut_free (line : Nat) (st : LState) (v : BitVec 64) : (recPut s line st v).free = s.free := rfl
@[simp] theorem recPut_seq (line : Nat) (st : LState) (v : BitVec 64) : (recPut s line st v).seq = s.seq := rfl
@[simp] theorem recPut_trk (line : Nat) (st : LState) (v : BitVec 64) : (recPut s line st v).trk = s.trk := rfl
@[simp] theorem recPut_retry (line : Nat) (st : LState) (v : BitVec 64) : (recPut s line st v).retry = s.retry := rfl
@[simp] theorem recPut_blockq (line : Nat) (st : LState) (v : BitVec 64) : (recPut s line st v).blockq = s.blockq := rfl
@[simp] theorem recPut_dir (line : Nat) (st : LState) (v : BitVec 64) : (recPut s line st v).dir = s.dir := rfl
@[simp] theorem recPut_store (line : Nat) (st : LState) (v : BitVec 64) : (recPut s line st v).store = s.store := rfl
@[simp] theorem recPut_kernels (line : Nat) (st : LState) (v : BitVec 64) : (recPut s line st v).kernels = s.kernels := rfl
@[simp] theorem recPut_lathes (line : Nat) (st : LState) (v : BitVec 64) : (recPut s line st v).lathes = s.lathes := rfl
@[simp] theorem recPut_ctxs (line : Nat) (st : LState) (v : BitVec 64) : (recPut s line st v).ctxs = s.ctxs := rfl
@[simp] theorem recPut_kites (line : Nat) (st : LState) (v : BitVec 64) : (recPut s line st v).kites = s.kites := rfl
@[simp] theorem recPut_shadows (line : Nat) (st : LState) (v : BitVec 64) : (recPut s line st v).shadows = s.shadows := rfl
@[simp] theorem recPut_sess (line : Nat) (st : LState) (v : BitVec 64) : (recPut s line st v).sess = s.sess := rfl
@[simp] theorem recPut_reels (line : Nat) (st : LState) (v : BitVec 64) : (recPut s line st v).reels = s.reels := rfl
@[simp] theorem recPut_links (line : Nat) (st : LState) (v : BitVec 64) : (recPut s line st v).links = s.links := rfl
@[simp] theorem recPut_cells (line : Nat) (st : LState) (v : BitVec 64) : (recPut s line st v).cells = s.cells := rfl
@[simp] theorem recPut_fetches (line : Nat) (st : LState) (v : BitVec 64) : (recPut s line st v).fetches = s.fetches := rfl
@[simp] theorem recPut_freeFrames (line : Nat) (st : LState) (v : BitVec 64) : (recPut s line st v).freeFrames = s.freeFrames := rfl
@[simp] theorem recPut_dirtyFrames (line : Nat) (st : LState) (v : BitVec 64) : (recPut s line st v).dirtyFrames = s.dirtyFrames := rfl
@[simp] theorem recPut_cmpWait (line : Nat) (st : LState) (v : BitVec 64) : (recPut s line st v).cmpWait = s.cmpWait := rfl
@[simp] theorem recPut_tierCache (line : Nat) (st : LState) (v : BitVec 64) : (recPut s line st v).tierCache = s.tierCache := rfl
@[simp] theorem recPut_versions (line : Nat) (st : LState) (v : BitVec 64) : (recPut s line st v).versions = s.versions := rfl
@[simp] theorem recPut_stbyUp (line : Nat) (st : LState) (v : BitVec 64) : (recPut s line st v).stbyUp = s.stbyUp := rfl
@[simp] theorem recPut_mgmtOut (line : Nat) (st : LState) (v : BitVec 64) : (recPut s line st v).mgmtOut = s.mgmtOut := rfl
@[simp] theorem recPut_ballastQ (line : Nat) (st : LState) (v : BitVec 64) : (recPut s line st v).ballastQ = s.ballastQ := rfl
@[simp] theorem recPut_clocked (line : Nat) (st : LState) (v : BitVec 64) : (recPut s line st v).clocked = s.clocked := rfl
@[simp] theorem recPut_degraded (line : Nat) (st : LState) (v : BitVec 64) : (recPut s line st v).degraded = s.degraded := rfl
@[simp] theorem recPut_toRestore (line : Nat) (st : LState) (v : BitVec 64) : (recPut s line st v).toRestore = s.toRestore := rfl
@[simp] theorem recPut_lathQ (line : Nat) (st : LState) (v : BitVec 64) : (recPut s line st v).lathQ = s.lathQ := rfl
@[simp] theorem recPut_engQ (line : Nat) (st : LState) (v : BitVec 64) : (recPut s line st v).engQ = s.engQ := rfl
@[simp] theorem recPut_missq (line : Nat) (st : LState) (v : BitVec 64) : (recPut s line st v).missq = s.missq := rfl
@[simp] theorem recPut_pubs (line : Nat) (st : LState) (v : BitVec 64) : (recPut s line st v).pubs = s.pubs := rfl
@[simp] theorem recPut_lost (line : Nat) (st : LState) (v : BitVec 64) : (recPut s line st v).lost = s.lost := rfl
@[simp] theorem recPut_nameds (line : Nat) (st : LState) (v : BitVec 64) : (recPut s line st v).nameds = s.nameds := rfl
@[simp] theorem recPut_recallq (line : Nat) (st : LState) (v : BitVec 64) : (recPut s line st v).recallq = s.recallq := rfl
@[simp] theorem recPut_wbq (line : Nat) (st : LState) (v : BitVec 64) : (recPut s line st v).wbq = s.wbq := rfl
@[simp] theorem recPut_covers (line : Nat) (st : LState) (v : BitVec 64) : (recPut s line st v).covers = s.covers := rfl
@[simp] theorem recPut_restoreq (line : Nat) (st : LState) (v : BitVec 64) : (recPut s line st v).restoreq = s.restoreq := rfl
@[simp] theorem recPut_peerOuts (line : Nat) (st : LState) (v : BitVec 64) : (recPut s line st v).peerOuts = s.peerOuts := rfl
@[simp] theorem recPut_progs (line : Nat) (st : LState) (v : BitVec 64) : (recPut s line st v).progs = s.progs := rfl
@[simp] theorem recPut_dumps (line : Nat) (st : LState) (v : BitVec 64) : (recPut s line st v).dumps = s.dumps := rfl
@[simp] theorem recPut_tsWait (line : Nat) (st : LState) (v : BitVec 64) : (recPut s line st v).tsWait = s.tsWait := rfl

@[simp] theorem filtDrop_pending (e : FEntry) : (filtDrop s e).pending = s.pending := rfl
@[simp] theorem filtDrop_regs (e : FEntry) : (filtDrop s e).regs = s.regs := rfl
@[simp] theorem filtDrop_mem (e : FEntry) : (filtDrop s e).mem = s.mem := rfl
@[simp] theorem filtDrop_poison (e : FEntry) : (filtDrop s e).poison = s.poison := rfl
@[simp] theorem filtDrop_counters (e : FEntry) : (filtDrop s e).counters = s.counters := rfl
@[simp] theorem filtDrop_wins (e : FEntry) : (filtDrop s e).wins = s.wins := rfl
@[simp] theorem filtDrop_areas (e : FEntry) : (filtDrop s e).areas = s.areas := rfl
@[simp] theorem filtDrop_inj (e : FEntry) : (filtDrop s e).inj = s.inj := rfl
@[simp] theorem filtDrop_out (e : FEntry) : (filtDrop s e).out = s.out := rfl
@[simp] theorem filtDrop_free (e : FEntry) : (filtDrop s e).free = s.free := rfl
@[simp] theorem filtDrop_seq (e : FEntry) : (filtDrop s e).seq = s.seq := rfl
@[simp] theorem filtDrop_trk (e : FEntry) : (filtDrop s e).trk = s.trk := rfl
@[simp] theorem filtDrop_retry (e : FEntry) : (filtDrop s e).retry = s.retry := rfl
@[simp] theorem filtDrop_blockq (e : FEntry) : (filtDrop s e).blockq = s.blockq := rfl
@[simp] theorem filtDrop_store (e : FEntry) : (filtDrop s e).store = s.store := rfl
@[simp] theorem filtDrop_kernels (e : FEntry) : (filtDrop s e).kernels = s.kernels := rfl
@[simp] theorem filtDrop_lathes (e : FEntry) : (filtDrop s e).lathes = s.lathes := rfl
@[simp] theorem filtDrop_ctxs (e : FEntry) : (filtDrop s e).ctxs = s.ctxs := rfl
@[simp] theorem filtDrop_kites (e : FEntry) : (filtDrop s e).kites = s.kites := rfl
@[simp] theorem filtDrop_shadows (e : FEntry) : (filtDrop s e).shadows = s.shadows := rfl
@[simp] theorem filtDrop_sess (e : FEntry) : (filtDrop s e).sess = s.sess := rfl
@[simp] theorem filtDrop_reels (e : FEntry) : (filtDrop s e).reels = s.reels := rfl
@[simp] theorem filtDrop_links (e : FEntry) : (filtDrop s e).links = s.links := rfl
@[simp] theorem filtDrop_cells (e : FEntry) : (filtDrop s e).cells = s.cells := rfl
@[simp] theorem filtDrop_fetches (e : FEntry) : (filtDrop s e).fetches = s.fetches := rfl
@[simp] theorem filtDrop_freeFrames (e : FEntry) : (filtDrop s e).freeFrames = s.freeFrames := rfl
@[simp] theorem filtDrop_dirtyFrames (e : FEntry) : (filtDrop s e).dirtyFrames = s.dirtyFrames := rfl
@[simp] theorem filtDrop_cmpWait (e : FEntry) : (filtDrop s e).cmpWait = s.cmpWait := rfl
@[simp] theorem filtDrop_tierCache (e : FEntry) : (filtDrop s e).tierCache = s.tierCache := rfl
@[simp] theorem filtDrop_versions (e : FEntry) : (filtDrop s e).versions = s.versions := rfl
@[simp] theorem filtDrop_stbyUp (e : FEntry) : (filtDrop s e).stbyUp = s.stbyUp := rfl
@[simp] theorem filtDrop_mgmtOut (e : FEntry) : (filtDrop s e).mgmtOut = s.mgmtOut := rfl
@[simp] theorem filtDrop_ballastQ (e : FEntry) : (filtDrop s e).ballastQ = s.ballastQ := rfl
@[simp] theorem filtDrop_clocked (e : FEntry) : (filtDrop s e).clocked = s.clocked := rfl
@[simp] theorem filtDrop_degraded (e : FEntry) : (filtDrop s e).degraded = s.degraded := rfl
@[simp] theorem filtDrop_toRestore (e : FEntry) : (filtDrop s e).toRestore = s.toRestore := rfl
@[simp] theorem filtDrop_lathQ (e : FEntry) : (filtDrop s e).lathQ = s.lathQ := rfl
@[simp] theorem filtDrop_engQ (e : FEntry) : (filtDrop s e).engQ = s.engQ := rfl
@[simp] theorem filtDrop_missq (e : FEntry) : (filtDrop s e).missq = s.missq := rfl
@[simp] theorem filtDrop_pubs (e : FEntry) : (filtDrop s e).pubs = s.pubs := rfl
@[simp] theorem filtDrop_lost (e : FEntry) : (filtDrop s e).lost = s.lost := rfl
@[simp] theorem filtDrop_nameds (e : FEntry) : (filtDrop s e).nameds = s.nameds := rfl
@[simp] theorem filtDrop_recallq (e : FEntry) : (filtDrop s e).recallq = s.recallq := rfl
@[simp] theorem filtDrop_wbq (e : FEntry) : (filtDrop s e).wbq = s.wbq := rfl
@[simp] theorem filtDrop_covers (e : FEntry) : (filtDrop s e).covers = s.covers := rfl
@[simp] theorem filtDrop_restoreq (e : FEntry) : (filtDrop s e).restoreq = s.restoreq := rfl
@[simp] theorem filtDrop_peerOuts (e : FEntry) : (filtDrop s e).peerOuts = s.peerOuts := rfl
@[simp] theorem filtDrop_progs (e : FEntry) : (filtDrop s e).progs = s.progs := rfl
@[simp] theorem filtDrop_dumps (e : FEntry) : (filtDrop s e).dumps = s.dumps := rfl
@[simp] theorem filtDrop_tsWait (e : FEntry) : (filtDrop s e).tsWait = s.tsWait := rfl

end Sys2Proof.Machine
end

