-- ==== Sys2Proof/Tests/Slice0.lean ====
section
/-! SUPPORT. Tests/Slice0.lean: a well-formedness check refused for each rule of WellFormed.lean, and, for every statement of
Certificates/Slice0/Obligations.lean with hypotheses, concrete states and operands that meet them, at boundary values where a field has
a range. A hypothesis that rests on a signature is met under the one condition that the signature verifies, which the model leaves free. -/

namespace Sys2Proof.Tests

open Sys2Proof Sys2Proof.Machine

set_option Elab.async false

/-! ## Well-formedness: one ill-formed command for each check, and one good neighbour of the longest ones -/

theorem test_wf_page_words : Instr.wf (.pageReadDone 0 0 [(0, 0)]) = false := by decide
theorem test_wf_page_step : Instr.wf (.scrubRead 0 0 [(0, 0), (0, 0), (0, 0), (12, 0)]) = false := by decide
theorem test_wf_page_good : Instr.wf (.pageReadDone 0 0 [(0, 0), (0, 0), (0, 0), (11, 0)]) = true := by decide
theorem test_wf_contribution : Instr.wf (.contributionArrive 0 0 []) = false := by decide
theorem test_wf_retraction : Instr.wf (.retraction 0 0 [0]) = false := by decide
theorem test_wf_reel_fetch : Instr.wf (.reelFetchDone 0 [] none) = false := by decide
theorem test_wf_reel_wb : Instr.wf (.reelWbApply ⟨0, 0⟩ 0 0 0 [(3, 0, false), (3, 1, false)]) = false := by decide
theorem test_wf_reel_wb_empty : Instr.wf (.reelWbApply ⟨0, 0⟩ 0 0 0 []) = false := by decide
theorem test_wf_degraded : Instr.wf (.degradedRead 0 0 (some []) []) = false := by decide
/-- A target of `luns` LUNs of 4 planes of 8 blocks of 128 pages, with no factory mark. -/
def tTarget (luns : BitVec 4) : MedTarget := ⟨luns, 4, 8, 128, 16384, 2048, [3600], []⟩
theorem test_wf_enumerate : Instr.wf (.mediumEnumerate [⟨1, [tTarget 1], []⟩, ⟨1, [tTarget 1], []⟩] 0 0) = false := by decide
/-- R106: a target has 1 to 8 LUNs and a channel 1 to 4 targets. -/
theorem test_wf_targets : Instr.wf (.mediumEnumerate [⟨1, [tTarget 9], []⟩] 0 0) = false ∧ Instr.wf (.mediumEnumerate [⟨1, [tTarget 0], []⟩] 0 0) = false ∧
    Instr.wf (.mediumEnumerate [⟨1, [], []⟩] 0 0) = false ∧ Instr.wf (.mediumEnumerate [⟨1, List.replicate 4 (tTarget 8), []⟩] 0 0) = true ∧
    Instr.wf (.mediumEnumerate [⟨1, List.replicate 5 (tTarget 8), []⟩] 0 0) = false := by decide
theorem test_wf_config : Instr.wf (.configDone 0 false 0 [(1, 2), (1, 3)]) = false := by decide
theorem test_wf_align : Instr.wf (.alignDone 0 [0, 1, 2, 2] 15) = false := by decide
theorem test_wf_payload : Instr.wf (.flitPayload 0 0 [0] true) = false := by decide
/-- R564: a UDP datagram holds at most 141 lines under a block's header. -/
theorem test_wf_zct : ∀ src h, Instr.wf (.zctWrite 0 src h (List.replicate 142 0)) = false ∧ Instr.wf (.zctWrite 0 src h [0]) = true := by
  intro src h; exact ⟨by simp [Instr.wf], by simp [Instr.wf]⟩
theorem test_wf_enrol : Instr.wf (.tsEnrol 0 []) = false := by decide
theorem test_wf_extest : Instr.wf (.extest [] []) = false := by decide
theorem test_wf_sample : Instr.wf (.samplePreload [true] []) = false := by decide

/-! ## The queue and reset -/

/-- A small state of the RUNNING block: domain 0 also holds R and W grants to every arrival counter, window and Chuck. -/
def tGrants : List (Nat × Word) :=
  [(0x200018, 0x3C00000000001000), (0x200020, 0x4C00000000000400), (0x200028, 0x5C00000000000080)]

/-- The RUNNING block with registers of its own beside the grants, all below PWR_STAT. -/
def tRegs (rs : List (Nat × Word)) : State :=
  { State.reset with aonUp := true, stbyUp := true, xtal := true, regs := tGrants ++ rs ++ [(rPwr 8, 4)] }

def tRun : State := tRegs []

/-- The RUNNING block with every unit in service. -/
def tServed : State := tRegs [(rRecov 0xC0, -1), (rRecov 0xC8, -1), (rRecov 0xD0, -1), (rRecov 0xD8, -1)]

/-- The global address of a slice offset while no box is assigned (R38). -/
def tGa (off : Nat) : Nat := 63 * 2 ^ 54 + off

theorem test_front_command : ∃ t, step { tRun with pending := [.tfenceDone 0, .idcode] } = .next t ∧ t.pending = [.idcode] :=
  ⟨_, rfl, rfl⟩
theorem test_idle : State.reset.pending = [] := by decide
theorem test_running : running tRun = true ∧ running State.reset = false := by decide
theorem test_fast_only : fastOnly (.mfenceDone 0) = true ∧ running State.reset = false := by decide
theorem test_regs_canonical : regsCanon tRun.regs := by decide
/-- R16: the capability register CAP_ID holds its constant, and the frame pool and the windows are as their maps say. -/
theorem test_reset_cap_id : reg State.reset 0 = 0x5C1A748020000000 ∧ regFld State.reset (rWinStat 5) 2 0 = 7 := by decide
theorem test_reset_no_map : regRow 0x5F000 = none ∧ reg State.reset 0x5F000 = 0 := by decide

/-! ## Injections -/

theorem test_injections_arm : running tRun = true ∧ latheLive tRun 127 = false ∧ tRun.stbyUp = true ∧ State.reset.stbyUp = false := by decide
theorem test_injection_at_once : (3 ≤ pwrState tRun) ∧ ripHeld { tRun with recovs := [⟨1, 7, 0, []⟩] } = false ∧
    recovOf { tRun with recovs := [⟨1, 7, 0, []⟩] } 1 7 ≠ none := by decide

/-! ## Lathes -/

/-- A kernel that runs on Lathe 0, context 0 and kite 0, with handle 0 of each on arrival counter 9. -/
def tKernel : Kernel :=
  { win := 5, plan := 0, dom := 0, params := [7], binds := [], slots := [], ctrBase := 0, baseRow := 0, baseCol := 0, started := true,
    lathes := [0], ctxs := [0], kites := [0], pins := [], outs := [],
    handles := [(0, ⟨tGa (ctrOff 9), some (tGa (chuckOff 0 4096), 64)⟩), (65536, ⟨tGa (ctrOff 9), none⟩)],
    done := [], fault := none, frozen := false, fired := [], hspool := [], replays := 0, suspect := false, guilty := false,
    tabs := [], idxs := [], work := 0, units := [], told := false, prep := false }

/-- The block with Lathe 0 in state `st` for that kernel, and a plan whose only descriptor is a ZERO one. -/
def tLatheSt (st : Word) (x : Lathe) : State :=
  { tRegs [(rLathe 0 0, st)] with
    mem := [(spKey (spPlan 0) 26, 1), (spKey (spPlan 0) 256, 2), (spKey (spPlan 0) 260, 1), (spKey (spPlan 0) 265, 2),
            (spKey (spPlan 0) 519, 0x20)]
    kernels := [tKernel], areas := [⟨chuckOff 0 4096, 1, 9, [], true, none⟩], counters := [(9, 3)]
    lathes := [(0, { x with ncode := 4, win := 5 })] }

/-- The kernel as Lathe 0 acts for it, at the row gate of its row. -/
def tLatheK : Kernel := tKernel.at 26 (some (.lathe 0))

def tLathe : State := tLatheSt 2 { s := [(1, 5), (2, 3), (3, 9)], v := [(1, 0x40400000)] }

theorem test_slot_ready : SlotReady tLathe 0 := by unfold SlotReady; decide
/-- SADD adds (R273) at the end of its bundle (R268): s4 takes 5 + 3. -/
theorem test_sadd : ∃ t, exec (.sadd 0 4 1 2 true) tLathe = .next t ∧ sGet (latheAt t 0) 4 = 8 ∧ lathePc t 0 = 1 := ⟨_, rfl, by decide⟩
/-- s0 keeps reading zero (R271). -/
theorem test_s0 : ∃ t, exec (.sli 0 0 5 true) tLathe = .next t ∧ sGet (latheAt t 0) 0 = 0 := ⟨_, rfl, by decide⟩
theorem test_svalue_listed : ((.ssub 0 4 1 2 true : Instr), (2 : Word)) ∈ sValue tLathe 0 true 4 1 2 0 0 0 0 := by decide
theorem test_illegal_operands : 8 ≤ (15 : BitVec 4).toNat ∧ 11 ≤ (11 : BitVec 4).toNat ∧ 10 ≤ (10 : BitVec 4).toNat ∧
    4 ≤ (4 : BitVec 4).toNat ∧ ([0, 1, 2].any (vPending (latheAt tLathe 0))) = false := by decide
theorem test_nocommit : running (tLatheSt 2 {}) = true ∧ latheState { tLatheSt 2 {} with lathes := [] } 0 = 2 ∧
    (latheAt { tLatheSt 2 {} with lathes := [] } 0).ncode ≤ lathePc { tLatheSt 2 {} with lathes := [] } 0 ∧
    (latheAt { tLatheSt 2 {} with lathes := [] } 0).stopped = false := by decide

theorem test_chuck_access : latheKernel (useGen tLathe 0 1).2 0 = some tLatheK ∧ chuckAddr (useGen tLathe 0 1).1 = (0, 0) ∧
    (useGen tLathe 0 1).1.toNat % 64 = 0 ∧ vPending (latheAt tLathe 0) 1 = false := by decide +kernel
theorem test_chuck_load : ∃ t, chuckRead (useGen tLathe 0 1).2 tLatheK 0 0 16 = .ok (List.replicate 16 0) t := ⟨_, rfl⟩
theorem test_chuck_store :
    ∃ t, chuckWrite (useGen tLathe 0 1).2 tLatheK 0 0 (blankLines (vGet (latheAt tLathe 0) 1).toNat 1024) = .ok () t := ⟨_, rfl⟩
theorem test_chuck_scalar_load : ∃ d t, kReadChuck (useGen tLathe 0 1).2 tLatheK 0 0 = .ok d t := ⟨_, _, rfl⟩
theorem test_chuck_scalar_store : areaAt (useGen tLathe 0 1).2 (chuckOff 0 0) = none ∧ replicaAt (useGen tLathe 0 1).2 0 0 = none ∧
    runsKernel (useGen tLathe 0 1).2 0 5 = true := by decide

theorem test_mspool_descriptor : ∃ ws, planDesc tLathe 0 2 (latheAt tLathe 0).image 0 = some ws ∧ (latheAt tLathe 0).spool.length < 64 ∧
    (Desc.ofWords (addOffsets ws 0 0)).ok tLathe = true ∧ (Desc.ofWords (addOffsets ws 0 0)).op = 2 :=
  ⟨[0x2000000000000000, 0, 0, 0, 0, 0, 0, 0], by decide⟩
theorem test_handles : ∃ h, handleOf tLatheK (latheAt tLathe 0).rank 0 = some h ∧ h.area ≠ none ∧ handleValue tLathe tLatheK h 0 = some 3 ∧
    (sGet (latheAt tLathe 0) 2).toNat ≤ 3 ∧ 3 < (sGet (latheAt tLathe 0) 3).toNat ∧ sGet (latheAt tLathe 0) 1 ≠ 0 :=
  ⟨⟨tGa (ctrOff 9), some (tGa (chuckOff 0 4096), 64)⟩, by decide⟩
/-- CARM arms the area of its handle (R286): the counter reads zero. -/
theorem test_carm : ∃ t, exec (.carm 0 0 true) tLathe = .next t ∧ counter t 9 = 0 := ⟨_, rfl, by decide⟩

/-- A tmma of TD0 over one block that has read its operands. -/
def tTmma : Tmma := ⟨1, 0, 0, 1, false, 0, [], [], [], [], some ⟨[], [], [], []⟩⟩
/-- The Lathe with a descriptor in flight and a tmma in its queue, in a tfence's wait or not. -/
def tWaits (fence : Bool) : State :=
  tLatheSt 2 { tfence := fence, spool := [⟨0, [0x2000000000000000], 0, {}⟩], tq := [.tmma tTmma, .tzero 1, .tread 2 1 0] }

theorem test_fences : SlotReady (tWaits false) 0 ∧ (latheAt (tWaits false) 0).spool ≠ [] ∧
    (latheAt (tWaits false) 0).tq.any TqEnt.isTmma = true ∧ (latheAt (tWaits true) 0).tfence = true := by
  unfold SlotReady; decide
/-- R285: the end of a tfence leaves a cwait of the same bundle in force, so that the Lathe keeps waiting. -/
theorem test_waits_apart : ∃ t, exec (.tfenceDone 0) (tLatheSt 3 { tfence := true, wait := .cwait (tGa (ctrOff 9)) 4 0 }) = .next t ∧
    latheState t 0 = 3 ∧ (latheAt t 0).tfence = false ∧ (latheAt t 0).wait = .cwait (tGa (ctrOff 9)) 4 0 := ⟨_, rfl, by decide⟩
theorem test_fence_ends : (latheAt (tLatheSt 3 { wait := .mfence }) 0).wait = .mfence ∧ (latheAt (tLatheSt 3 { wait := .mdrain }) 0).wait = .mdrain ∧
    (latheAt (tLatheSt 3 { wait := .mdrain }) 0).spool = [] := by decide
theorem test_cwait_event : ∃ s, s = tLatheSt 3 { wait := .cwait (tGa (ctrOff 9)) 3 1 } ∧ (latheAt s 0).wait = .cwait (tGa (ctrOff 9)) 3 1 ∧
    latheKernel s 0 = some tLatheK ∧ handleValue s tLatheK ⟨tGa (ctrOff 9), none⟩ 0 = some 3 := ⟨_, rfl, by decide +kernel⟩

theorem test_tensor_queue : (latheAt tLathe 0).tq = [] ∧ (latheAt (tWaits false) 0).tq ≠ [] ∧ (latheAt (tWaits false) 0).tq.length < 4 ∧
    (9 : BitVec 4).toNat < 10 ∧ vPending (latheAt (tWaits false) 0) 1 = false := by decide
/-- The Lathe of `tWaits` before a bundle whose V slot reads v2, which awaits a tread: no slot of the bundle issues (R267). -/
def tStalled : State :=
  { tWaits false with
    mem := [(spKey (spPlan 0) 26, 1), (spKey (spPlan 0) 256, 1), (spKey (spPlan 0) 260, 1), (spKey (spPlan 0) 265, 2),
            (spKey (spPlan 0) 525, 0x80), (spKey (spPlan 0) 526, 0x08), (spKey (spPlan 0) 527, 0x07)] }
theorem test_bundle_stalls : latheState tStalled 0 = 2 ∧ lathePc tStalled 0 < (latheAt tStalled 0).ncode ∧
    (latheAt tStalled 0).stall = none ∧ (latheAt tStalled 0).mid = false ∧ bundleStalls tStalled 0 = true := by decide +kernel
theorem test_stalled_store : ∃ t, exec (.mstore 0 1 0 false) tStalled = .next t ∧ (latheAt t 0).stall = some 1 := ⟨_, rfl, by decide +kernel⟩

/-- A read of TD0 by a tread that waits keeps its register pending (R267). -/
theorem test_tread_pending : vPending (latheAt (tWaits false) 0) 2 = true := by decide
theorem test_tmma_head : latheState (tWaits false) 0 = 2 ∧ ∃ e rest, (latheAt (tWaits false) 0).tq = e :: rest ∧ e.isTmma = true :=
  ⟨by decide, _, _, rfl, rfl⟩
/-- The bf16 tmma of one block whose A and B stripes stand at the start of the Lathe's own Chuck. -/
def tEntry : Tmma := tmmaEntry (latheAt tLathe 0) 1 0 0 1 0 false 2 0
theorem test_tmma_reads : tEntry.fault 0 = none ∧ (match readTmma tLathe tLatheK tEntry with | .inl p => p.1.vals.isSome | _ => false) = true := by
  decide +kernel
theorem test_tmma_listed : (1, .tmmaBf16 0 0 0 1 0 false 2 true) ∈ tmmaOps 0 0 0 1 0 false 2 true ∧ (2 : BitVec 2) ≠ 3 := by decide
/-- R302: a tmma behind another one waits with its operands unread; its generators advance at the end of its bundle. -/
theorem test_tmma_queued : ∃ t, exec (.tmmaBf16 0 0 0 1 0 false 2 true) (tWaits false) = .next t ∧ (latheAt t 0).tq.length = 4 ∧
    ((latheAt t 0).tq.getLast?.map (fun e => match e with | .tmma m => m.vals.isNone | _ => false)) = some true := ⟨_, rfl, by decide +kernel⟩

theorem test_vector_ready : [1, 1, 1].any (vPending (latheAt tLathe 0)) = false ∧ (3 : BitVec 4).toNat < 4 ∧ cvtFmt 5 = true ∧
    (3 : BitVec 4).toNat < 32 / fmtBits 5 := by decide
theorem test_lanes_not_empty : ∃ a rest, lanes (vGet (latheAt tLathe 0) 1) = a :: rest := ⟨_, _, rfl⟩
/-- FP32 (R319, R323): 3.0 + 3.0 = 6.0, and 1.0 + 2^-24 rounds to even. -/
theorem test_fadd : fadd 0x40400000 0x40400000 = 0x40C00000 ∧ fadd 0x3F800000 0x33800000 = 0x3F800000 := by decide
/-- R335: the reciprocal of three, rounded once, is 0x3EAAAAAB. -/
theorem test_frcp : frcp 0x40400000 = 0x3EAAAAAB := by decide +kernel
/-- R335: the exponential of zero is one. -/
theorem test_fexp : fexp 0 = 0x3F800000 := by decide +kernel

theorem test_lathe_drained : latheState (tLatheSt 4 {}) 0 = 4 ∧ (latheAt (tLatheSt 4 {}) 0).tq = [] ∧
    (latheAt (tLatheSt 4 {}) 0).spool = [] ∧ (latheAt (tLatheSt 4 {}) 0).wait = .none ∧
    kernelOf (tLatheSt 4 {}) (latheAt (tLatheSt 4 {}) 0).win = some tKernel ∧ latheLive tLathe 0 = true := by decide +kernel
theorem test_in_service : inService tServed 1 127 = true ∧ inService tRun 1 127 = false := by decide

/-! ## Words of programs, written out from the tables of chapters 06, 10 and 11 -/

/-- sadd s3, s1, s2 and cwait c2, s4, s5. -/
theorem test_words_sAndM : slotCommand 5 0 0x03184400 0 false = some (.sadd 5 3 1 2 false) ∧
    slotCommand 5 1 0x11221400 9 true = some (.cwait 5 2 4 5 9 true) := by decide +kernel
/-- tmma.mxfp4 to td1 with generators 2 and 3, KB 1, ACC 1, SHAPE 2; vcvt.e4m3 of v6 to part 3 of v4. -/
theorem test_words_tAndV : slotCommand 5 2 0x0B24600E 0 false = some (.tmmaMxfp4 5 1 2 3 1 true 2 false) ∧
    slotCommand 5 3 0x30218604 0 true = some (.vcvt 5 4 6 3 4 true) := by decide +kernel
/-- gwait c1, g2, g3; kloop.p of parameter 7 over 5 instructions. -/
theorem test_words_engines : gougeCommand 7 0x11123000 9 = some (.gwait 7 1 2 3 9) ∧
    kiteCommand 8 0x21004007 0 = some (.kloopP 8 4 7) := by decide +kernel
/-- A bit of no field, SHAPE 3 and an opcode that no slot lists (R274, R298). -/
theorem test_words_undefined : slotCommand 5 0 0x03184401 0 false = none ∧ slotCommand 5 2 0x0B24600F 0 false = none ∧
    bundleCommands 5 (0x40000000 * 2 ^ 96) 0 = [.nop 5 false, .nop 5 false, .nop 5 false, .illegalBundle 5 3] := by
  decide +kernel

/-! ## Gouges and walkers -/

/-- A table of one row of two FP32 elements, in region 3, and a batch descriptor's batch over it with one bag of one index. -/
def tTab : GTab := ⟨2, 1, none, [⟨0, 1, 1008, 3, 0, 1, 16, 0⟩]⟩
def tBatch : Batch :=
  { tab := 0, pool := 0, outFmt := 1, idx64 := false, weighted := false, counted := false, nidx := 1, nbags := 1, pitch := 64,
    idxAddr := tGa (winOff 5 0), wgtAddr := 0, outAddr := tGa (winOff 5 0), dropAddr := 0, dropMax := 0, offs := [0, 1], pos := 0, seg := none,
    idx := [], slots := [], bag := 0, acc := [], n := 0, drops := [] }
/-- A search index of two nodes at the start of window 5, as no root would place it, and a query over it. -/
def tIdx : KIdx :=
  { base := tGa (winOff 5 0), dim := 2, fmt := 3, metric := 0, degree := 1, nodes := 2, pitch := 192, off := 0, entries := [0], side := 0, cap := 1,
    spitch := 64, hidden := [], live := [] }
def tQuery : Query :=
  { index := 0, fmode := 0, k := 1, ef := 1, widen := 0, visit := 4, counted := true, fmask := 0, fval := 0, resAddr := tGa (chuckOff 0 4096),
    vec := [0, 0], todo := [7], side := [], visited := [], q := [], r := [], evaluated := 0, expanded := 0, sideLive := 0, bad := 0,
    widened := 0, budget := false, ended := false }

/-- The block with context 0 and kite 0 in the given states for the kernel, whose table and index those are; window 5 holds a batch
or query descriptor at its byte 64, and region 3 is valid, VERSIONED and of domain 0. -/
def tEng (gst kst : Word) (g k : Ctx) : State :=
  { tRegs [(rGctx 0 0, gst), (rKite 0 0, kst)] with
    regs := [(rRegion 3 0, 0xC000000000000001)] ++ tGrants ++ [(rKite 0 0, kst), (rGctx 0 0, gst), (rPwr 8, 4)]
    mem := [(winOff 5 65, 3), (winOff 5 66, 1), (winOff 5 68, 1), (winOff 5 76, 64), (winOff 5 130, 1), (winOff 5 132, 1), (winOff 5 136, 1)]
    kernels := [{ tKernel with tabs := [tTab], idxs := [tIdx] }], areas := [⟨chuckOff 0 4096, 2, 9, [], true, none⟩]
    counters := [(9, 3)], ctxs := [(0, { g with ninsn := 4, win := 5 })], kites := [(0, { k with ninsn := 4, win := 5 })] }

def tEngK : Kernel := { tKernel with tabs := [tTab], idxs := [tIdx] }
def tProg : State := tEng 6 1 { g := [(1, BitVec.ofNat 64 (tGa (winOff 5 64))), (2, 3), (3, 9)] } { g := [(1, BitVec.ofNat 64 (tGa (winOff 5 128))), (2, 3), (3, 9)] }

/-- The kernel as context 0 and kite 0 act for it, at the port of their cluster. -/
def tGctxK : Kernel := tEngK.at 34 (some (.gctx 0))
def tKiteK : Kernel := tEngK.at 34 (some (.kite 0))

theorem test_gouge_ready : EngReady gougeKind tProg 0 tGctxK := by unfold EngReady; decide +kernel
theorem test_kite_ready : EngReady kiteKind tProg 0 tKiteK := by unfold EngReady; decide +kernel
theorem test_gvalue_listed : ((.gadd 0 4 2 3 : Instr), (12 : Word)) ∈ gValue tProg 0 tGctxK 4 2 3 0 0 0 := by decide
theorem test_kvalue_listed : ((.kadd 0 4 2 3 : Instr), (12 : Word)) ∈ kValue tProg 0 tKiteK 4 2 3 0 0 0 := by decide
/-- GADD (R444): g4 takes 3 + 9, and the next instruction is the second. -/
theorem test_gadd : ∃ t, exec (.gadd 0 4 2 3) tProg = .next t ∧ cGet (ctxOf t 0) 4 = 12 ∧ (ctxOf t 0).pc = 1 := ⟨_, rfl, by decide⟩
theorem test_loop_fits : LoopFits (ctxOf tProg 0) 1 ∧ LoopFits (kiteOf tProg 0) 4 := by
  unfold LoopFits; simp [show (ctxOf tProg 0).loops = [] from rfl, show (kiteOf tProg 0).loops = [] from rfl]
theorem test_loop_params : tGctxK.param 0 % 2 ^ 32 ≠ 0 ∧ tKiteK.param 1 % 2 ^ 32 = 0 := by decide
theorem test_eng_wait : ∃ h, engHandle tEngK 0 = some h ∧ handleValue tProg tEngK h 0 = some 3 ∧ (cGet (ctxOf tProg 0) 2).toNat ≤ 3 ∧
    3 < (cGet (kiteOf tProg 0) 3).toNat ∧ cGet (kiteOf tProg 0) 2 ≠ 0 := ⟨⟨tGa (ctrOff 9), none⟩, by decide⟩
theorem test_gsig_line : ∃ t, kOutLine tProg tGctxK true (tGa (chuckOff 0 4096)) 1 = .ok () t := ⟨_, rfl⟩
theorem test_eng_waits : ∃ s, s = tEng 3 2 { wait := some (tGa (ctrOff 9), 3) } { wait := some (tGa (ctrOff 9), 3) } ∧ running s = true ∧
    liveKernel s (ctxOf s 0).win = some tEngK ∧ (ctxOf s 0).wait = some (tGa (ctrOff 9), 3) ∧ (kiteOf s 0).wait = some (tGa (ctrOff 9), 3) ∧
    handleValue s tEngK ⟨tGa (ctrOff 9), none⟩ 0 = some 3 ∧ engAwake gougeKind s 0 = true ∧ engAwake kiteKind s 0 = true := ⟨_, rfl, by decide +kernel⟩

/-- What an access answers, and the state it leaves, when it succeeds. -/
def tVal {α : Type} (a : KAcc α) : Option α :=
  match a with
  | .ok v _ => some v
  | _ => none
def tAfter {α : Type} (a : KAcc α) : Option State :=
  match a with
  | .ok _ s => some s
  | _ => none

/-- The same of the accesses that tell where one of them faulted. -/
def tGot {α : Type} (a : Start α) : Option α :=
  match a with
  | .ok v _ => some v
  | _ => none
def tThen {α : Type} (a : Start α) : Option State :=
  match a with
  | .ok _ s => some s
  | _ => none

theorem test_grun_descriptor : ((tVal (kBytes tProg tEngK ((cGet (ctxOf tProg 0) 1).toNat % 2 ^ 60) 64 [])).bind (batchOf tEngK.tabs)).map
    (fun p => p.1.pool) = some 3 := by decide +kernel

/-- A batch descriptor (R429) and a query descriptor (R469) at bytes 192 and 320 of window 5, the bag offsets 0 and 1 at byte 256. -/
def tDescs (s : State) : State :=
  ((s.writeN (winOff 5 192) 64 (2 ^ 16 + 2 ^ 32 + 2 ^ 64 + 64 * 2 ^ 96 + tGa (winOff 5 0) * 2 ^ 128 + tGa (winOff 5 256) * 2 ^ 192 +
      tGa (chuckOff 0 4096) * 2 ^ 320)).writeN (winOff 5 260) 4 1).writeN (winOff 5 320) 64
    (2 ^ 16 + 2 ^ 32 + 4 * 2 ^ 64 + tGa (winOff 5 0) * 2 ^ 128 + tGa (chuckOff 0 4096) * 2 ^ 320)

/-- The same with SEG_MAX 16 and VISIT_MAX 4,096 in the plan, and context 0 with a batch. -/
def tBatchSt (st : Word) (b : Batch) : State :=
  tDescs { tEng st 1 { batch := some b } {} with mem := [(spKey (spPlan 0) 4, 16), (spKey (spPlan 0) 5, 16)] }

def tOut : Batch := { tBatch with counted := true, outAddr := tGa (chuckOff 0 4096), dropAddr := tGa (chuckOff 0 4096) }

theorem test_grun_bags : ((tVal (kBytes (tDescs tProg) tGctxK (tGa (winOff 5 192)) 64 [])).bind (batchOf tGctxK.tabs)).map
      (fun p => (p.1.pool, p.1.nidx, p.2)) = some (0, 1, tGa (winOff 5 256)) ∧
    tGot (kVals (tDescs tProg) tGctxK (tGa (winOff 5 256)) 4 2 []) = some [0, 1] ∧ rising [0, 1] = true := by decide +kernel

theorem test_segment_start : BatchReady (tBatchSt 1 tBatch) 0 1 tBatch tGctxK ∧ tBatch.seg = none ∧ tBatch.pos < tBatch.nidx ∧
    entriesHeld (tBatchSt 1 tBatch) 0 + segMax (tBatchSt 1 tBatch) tGctxK ≤ regFld (tBatchSt 1 tBatch) 0x38 55 32 ∧
    tGot (cutSeg (tBatchSt 1 tBatch) tGctxK tBatch 1 (segMax (tBatchSt 1 tBatch) tGctxK) [] 1 0 []) = some [0] ∧
    tGot (validRows (tBatchSt 1 tBatch) tGctxK (batchTab tGctxK tBatch) [0] []) = some [0] := by
  unfold BatchReady; decide +kernel

def tSeg : Batch := { tOut with seg := some 1, idx := [0], slots := [(0, none)], issued := 1 }
theorem test_row_lands : BatchReady (tBatchSt 1 tSeg) 0 1 tSeg tGctxK ∧ tSeg.slots[(0 : BitVec 16).toNat]? = some (0, none) ∧ (0 : BitVec 16).toNat < tSeg.issued ∧
    (pieceOf (batchTab tGctxK tSeg) 0).isSome = true ∧ rowBytes 1 (batchTab tGctxK tSeg).dim = some 8 ∧
    ownCtrl (tBatchSt 1 tSeg) = 1008 ∧ tVal (verBytes (tBatchSt 1 tSeg) tGctxK 3 0 0 8) = some 0 := by
  unfold BatchReady; decide +kernel

/-- A row that another controller of the box holds. -/
def tFarK : Kernel := { tGctxK with tabs := [⟨2, 1, none, [⟨0, 1, 5, 3, 0, 1, 16, 0⟩]⟩] }
theorem test_far_row : (pieceOf (batchTab tFarK tSeg) 0).map (fun p => p.ctrl) = some 5 ∧ ownCtrl (tBatchSt 1 tSeg) ≠ 5 := by decide +kernel

def tLanded : Batch := { tSeg with slots := [(0, some 0x4000000040400000)] }
theorem test_pass_b : BatchReady (tBatchSt 1 tLanded) 0 1 tLanded tGctxK ∧ tLanded.slots.any (fun e => e.2.isNone) = false ∧ tLanded.weighted = false ∧
    (tGot (passB (tBatchSt 1 tLanded) tGctxK (batchTab tGctxK tLanded) tLanded [(0, 0)] 1 2)).isSome = true := by
  unfold BatchReady; decide +kernel
/-- R431, R435: the sum of a bag of one row is that row, written at the batch's output. -/
theorem test_pass_b_output : (tThen (passB (tBatchSt 1 tLanded) tGctxK (batchTab tGctxK tLanded) tLanded [(0, 0)] 1 2)).map
    (fun s => s.readN (chuckOff 0 4096) 8) = some 0x4000000040400000 := by decide +kernel
theorem test_batch_complete : BatchReady (tBatchSt 2 tOut) 0 2 tOut tGctxK ∧
    (tThen (kOutLines (tBatchSt 2 tOut) tGctxK tOut.counted tOut.dropAddr (dropLines tOut))).isSome = true := by
  unfold BatchReady; decide +kernel

/-- R446, R476: a line of the batch's output, or of the result record, that another controller has not answered yet. -/
theorem test_not_served : batchServed { tRun with agentReqs := [⟨34, 1, tOut.outAddr / 64, 6, .kwrite 5 none, 0, 0⟩] } tGctxK tOut = false ∧
    batchServed tRun tGctxK tOut = true ∧ resultServed { tRun with agentReqs := [⟨34, 1, tQuery.resAddr / 64, 6, .kwrite 5 none, 0, 0⟩] } tKiteK tQuery = false ∧
    resultServed tRun tKiteK tQuery = true ∧ tOut.dropAddr % 64 = 0 := by decide +kernel
/-- R453: kite 0's descriptor read is in flight while its walker has room, and waits while a read of 1,024 lines is. -/
theorem test_kwalk_room : kiteReads (kiteAsk (tBatchSt 1 tOut) 0 1) 0 = true ∧ kiteReads (kiteAsk { tBatchSt 1 tOut with
      kites := [(0, { ninsn := 4, win := 5 }), (1, { ninsn := 4, win := 5, fetch := some 1024 })] } 0 1) 0 = false := by decide +kernel
theorem test_kwalk_vector : (kiteOf (tBatchSt 1 tOut) 0).fetch = none ∧ kiteReads (kiteAsk (kiteAsk (tBatchSt 1 tOut) 0 1) 0 (cdiv (4 * 2) 64)) 0 = true := by
  decide +kernel
theorem test_kwalk_descriptor : ((tVal (kBytes (tBatchSt 1 tOut) tKiteK (tGa (winOff 5 320)) 64 [])).bind
      (queryOf tKiteK.idxs (visitMax (tBatchSt 1 tOut) tKiteK))).map (fun p => (p.1.k, p.1.ef, p.2)) = some (1, 1, tGa (winOff 5 0)) ∧
    (tVal (kBytes (tBatchSt 1 tOut) tKiteK (tGa (winOff 5 0)) 8 [])).isSome = true := by decide +kernel

/-- The block with kite 0 walking with query `q`. -/
def tWalk (q : Query) : State := tEng 0 1 {} { query := some q }
theorem test_walk_step : QueryReady (tWalk tQuery) 0 tQuery tIdx tKiteK ∧ tQuery.ended = false ∧ kiteReads (tWalk tQuery) 0 = true ∧
    (tVal (walkStep (tWalk tQuery) tKiteK tIdx tQuery [])).map (fun q => q.bad) = some 1 := by unfold QueryReady; decide +kernel
/-- A kite whose walker has 1,024 lines of another kite in flight takes no step (R453). -/
theorem test_walk_waits : ∃ s, s = { tWalk tQuery with kites := [(0, { ninsn := 4, win := 5, query := some { tQuery with todo := [0] }, turn := 1 }),
      (1, { ninsn := 4, win := 5, fetch := some 1024 })] } ∧ QueryReady s 0 { tQuery with todo := [0] } tIdx tKiteK ∧ kiteReads s 0 = false :=
  ⟨_, rfl, by unfold QueryReady; decide +kernel⟩
/-- An evaluation of node 0 (R461, R472): the squared L2 distance of (0, 2^-24) to the origin is 2^-48. -/
theorem test_evaluation : (tVal (walkStep (tWalk tQuery) tKiteK tIdx { tQuery with todo := [0] } [])).map
    (fun q => (q.evaluated, q.r.map (fun e => e.dist))) = some (1, [0x27800000]) := by decide +kernel
theorem test_query_fewer : QueryReady (tWalk { tQuery with todo := [], ended := true }) 0 { tQuery with todo := [], ended := true } tIdx tKiteK ∧
    ([] : List Item).length < tQuery.k ∧
    (tThen (kOutLines (tWalk tQuery) tKiteK true tQuery.resAddr (resultLines tQuery))).isSome = true := by unfold QueryReady; decide +kernel
theorem test_query_whole : ({ tQuery with r := [⟨0, 0, 0, 0, false⟩] } : Query).r.length = tQuery.k := by decide

/-! ## Command windows, drafts, plans and kernels -/

/-- The block with window 5 in state `st`, whose command `n` (a little-endian number) has arrived whole from domain 0; `rs` are more
registers and `ready` says whether it is ready. -/
def tWin (st : Word) (ready : Bool) (rs : List (Nat × Word)) (n : Nat) : State :=
  ({ tRegs (rs ++ [(rWinStat 5, st)]) with
    wins := [(5, ⟨[0], some 0, [0], ready, 0⟩)], counters := [(5, 1), (9, 3)] }).writeN (winOff 5 0) 64 n

/-- A header: LEN 1, OPCODE, the AFTER counter and value, and the operands from byte 36. -/
def tHdr (op after val rest : Nat) : Nat := 1 + op * 2 ^ 16 + after * 2 ^ 64 + val * 2 ^ 128 + rest * 2 ^ 288

theorem test_window_full : WindowFull (tWin 1 false [] (tHdr 7 0 0 0)) 5 ∧ headerFault (tWin 1 false [] (tHdr 7 0 0 0)) 5 = none ∧
    hdr (tWin 1 false [] (tHdr 7 0 0 0)) 5 2 1 ≠ 1 := by unfold WindowFull; decide +kernel
theorem test_window_full_run : WindowFull (tWin 1 false [] (tHdr 1 0 0 0)) 5 ∧ headerFault (tWin 1 false [] (tHdr 1 0 0 0)) 5 = none ∧
    hdr (tWin 1 false [] (tHdr 1 0 0 0)) 5 2 1 = 1 := by unfold WindowFull; decide +kernel
/-- R364: OPCODE 9 is not defined, and the refusal is OPCODE (2). -/
theorem test_header_fault : WindowFull (tWin 1 false [] (tHdr 9 0 0 0)) 5 ∧ headerFault (tWin 1 false [] (tHdr 9 0 0 0)) 5 = some 2 := by
  unfold WindowFull; decide +kernel
/-- R361: a window whose lines 0 and 2 have arrived with LEN 2 is refused with BADLEN (1). -/
def tGap : State := { tWin 1 false [] (tHdr 7 0 0 0 + 1) with wins := [(5, ⟨[0, 2], some 0, [0], false, 0⟩)], counters := [(5, 2)] }
theorem test_bad_len : mailbox tGap 5 = false ∧ winState tGap 5 = 1 ∧ (winOf tGap 5).ready = false ∧ tGap.inj = [] ∧ (winOf tGap 5).arrived.contains 0 = true ∧
    hdr tGap 5 0 2 ≤ (counter tGap (winCtr 5)).toNat ∧ (winOf tGap 5).arrived ≠ List.range (hdr tGap 5 0 2) := by decide +kernel
theorem test_after : ∃ s, s = tWin 2 true [] (tHdr 7 (tGa (ctrOff 9)) 3 0) ∧ running s = true ∧ winState s 5 = 2 ∧ s.inj = [] ∧
    afterValue s 5 0 = some 3 ∧ hdr s 5 16 8 ≤ 3 ∧
    afterValue (tWin 2 true [] (tHdr 7 (tGa (ctrOff 9)) 4 0)) 5 0 = some 3 ∧ 3 < hdr (tWin 2 true [] (tHdr 7 (tGa (ctrOff 9)) 4 0)) 5 16 8 :=
  ⟨_, rfl, by decide +kernel⟩

/-- An ARM of MODE `mode` in window 5: the area, its size and its counter. -/
def tArm (mode ga size ctr : Nat) (rs : List (Nat × Word)) (areas : List Area) : State :=
  { tWin 5 true rs (tHdr 4 0 0 (ga + size * 2 ^ 64 + ctr * 2 ^ 96 + mode * 2 ^ 128)) with areas := areas }

theorem test_arm_window : ∃ s, s = tArm 0 (tGa (winOff 6 0)) 65536 6 [(rWinStat 6, 0)] [] ∧ ArmServed s 5 0 (winOff 6 0) ∧
    target (winOff 6 0) = .window 6 0 ∧ isWinCtr (hdr s 5 48 4) = true ∧ mailbox s 6 = false := ⟨_, rfl, by unfold ArmServed; decide +kernel⟩
theorem test_arm_chuck : ∃ s, s = tArm 0 (tGa (chuckOff 1 0)) 64 200 [] [] ∧ ArmServed s 5 0 (chuckOff 1 0) ∧ target (chuckOff 1 0) = .chuck 1 0 ∧
    overlapsArea s (chuckOff 1 0) (hdr s 5 44 4) = false ∧ s.areas.any (fun a => a.counter == hdr s 5 48 4) = false :=
  ⟨_, rfl, by unfold ArmServed; decide +kernel⟩
theorem test_rearm_window : ArmServed (tArm 1 (tGa (winOff 6 0)) 65536 6 [(rWinStat 6, 0)] []) 5 1 (winOff 6 0) := by unfold ArmServed; decide +kernel
theorem test_rearm_chuck : ∃ s, s = tArm 1 (tGa (chuckOff 1 0)) 64 200 [] [⟨chuckOff 1 0, 1, 200, [0], true, none⟩] ∧ ArmServed s 5 1 (chuckOff 1 0) ∧
    (sameArea s (chuckOff 1 0) (hdr s 5 44 4) (hdr s 5 48 4)).isSome = true := ⟨_, rfl, by unfold ArmServed; decide +kernel⟩
theorem test_unbind : ∃ s, s = tArm 2 (tGa (chuckOff 1 0)) 64 200 [] [⟨chuckOff 1 0, 1, 200, [0], true, none⟩] ∧ ArmServed s 5 2 (chuckOff 1 0) ∧
    (sameArea s (chuckOff 1 0) (hdr s 5 44 4) (hdr s 5 48 4)).isSome = true := ⟨_, rfl, by unfold ArmServed; decide +kernel⟩
theorem test_command_mode : ∃ s, s = tArm 3 (tGa (winOff 6 0)) 65536 6 [(rWinStat 6, 8)] [] ∧ ArmServed s 5 3 (winOff 6 0) ∧ mailbox s 6 = true :=
  ⟨_, rfl, by unfold ArmServed; decide +kernel⟩
/-- R367: a size of 1 byte is no counted area, and the refusal is COUNTERS (13). -/
theorem test_arm_refused : serving (tArm 0 (tGa (chuckOff 1 0)) 1 200 [] []) 5 4 = true ∧
    armCheck (tArm 0 (tGa (chuckOff 1 0)) 1 200 [] []) 5 = .inl 13 := by decide +kernel

/-- Region 3: VALID, VERSIONED, 2 MiB, of domain 0, CURRENT 7; `w0` is its first word. -/
def tRegion (w0 : Word) : List (Nat × Word) := [(rRegion 3 0, w0), (rRegion 3 2, 7)]
theorem test_draft_open : ∃ s, s = tWin 5 true (tRegion 0xC000000000000001 ++ [(rQuota 0 4, 1)]) (tHdr 5 0 0 3) ∧ serving s 5 5 = true ∧
    hdr s 5 36 2 < 16384 ∧ rgValid s (hdr s 5 36 2) = true ∧ rgVersioned s (hdr s 5 36 2) = true ∧ rgDeleting s (hdr s 5 36 2) = false ∧ regionDeciding s (hdr s 5 36 2) = false ∧
    permitRegion s (winDom s 5) (hdr s 5 36 2) true = true ∧
    regFld s (rQuota (winDom s 5) 5) 10 0 < regFld s (rQuota (winDom s 5) 4) 10 0 ∧
    freeSlots s ((rgSize s (hdr s 5 36 2) + 2 ^ 38 - 1) / 2 ^ 38) = some 0 := ⟨_, rfl, by decide +kernel⟩

/-- A draft of region 3 at slot 0 in state `st`, based on version `base`. -/
def tDraft (st base : Nat) : List (Nat × Word) :=
  [(rDraftStat 0, BitVec.ofNat 64 (st * 2 ^ 61 + 3 * 2 ^ 44 + 2 ^ 24)), (rDraftBase 0, BitVec.ofNat 64 base)]
theorem test_draft_discard : ∃ s, s = tWin 5 true (tRegion 0xC000000000000001 ++ tDraft 1 7) (tHdr 7 0 0 0) ∧ serving s 5 7 = true ∧
    draftStateOf s (hdr s 5 36 2) = 1 ∧ permitRegion s (winDom s 5) (drRegion s (hdr s 5 36 2)) true = true ∧ draftBound s (hdr s 5 36 2) = false ∧
    draftOwn s (hdr s 5 36 2) = [] ∧ draftOwnMaps s (hdr s 5 36 2) = [] ∧
    rgDurable (freeDraft s (hdr s 5 36 2)) (drRegion s (hdr s 5 36 2)) = false := ⟨_, rfl, by decide +kernel⟩
theorem test_publish : ∃ s, s = tWin 5 true (tRegion 0xC000000000000001 ++ tDraft 1 7) (tHdr 6 0 0 (7 * 2 ^ 32)) ∧ serving s 5 6 = true ∧
    draftStateOf s (hdr s 5 36 2) = 1 ∧ hdr s 5 40 6 = 7 ∧ permitRegion s (winDom s 5) (drRegion s (hdr s 5 36 2)) true = true ∧ rgDeleting s (drRegion s (hdr s 5 36 2)) = false := ⟨_, rfl, by decide +kernel⟩

/-- The draft on its way through a publish that expects version `pred`, at stage `stage` of its log writes. -/
def tPub (st pred stage : Nat) (w0 : Word) : State :=
  { tWin 5 true (tRegion w0 ++ tDraft st 7) (tHdr 6 0 0 0) with pubs := [⟨0, 5, pred, [], stage⟩], versions := [(3, 7)] }
theorem test_sealed : ∃ s, s = tPub 2 7 0 0xC000000000000001 ∧ s.pubs.find? (fun p => p.draft == 0) = some ⟨0, 5, 7, [], 0⟩ ∧ drState s 0 = 2 ∧ (7 : Nat) ≠ 2 ^ 48 - 1 ∧
    draftHeld s 0 = [] ∧ s.trk = [] ∧ s.recallq = [] ∧ s.kernels = [] ∧ (draftPoison s 0).any (fun l => !([] : List Nat).contains l) = false ∧
    rgCurrent s (drRegion s 0) = 7 ∧ rgDurable s (drRegion s 0) = false ∧ rgDurable (tPub 2 7 0 0xD000000000000001) 3 = true ∧
    rgCurrent (tPub 2 6 0 0xC000000000000001) 3 ≠ 6 := ⟨_, rfl, by decide +kernel⟩
theorem test_writing : drState (tPub 3 7 3 0xD000000000000001) 0 = 3 ∧ pubWritten (tPub 3 7 3 0xD000000000000001) ⟨0, 5, 7, [], 3⟩ = true ∧
    pubWritten (tPub 3 7 1 0xD000000000000001) ⟨0, 5, 7, [], 1⟩ = false := by decide +kernel
theorem test_decide : ∃ s p, s = tPub 4 7 0 0xC000000000000001 ∧ p = ⟨0, 5, 7, [], 0⟩ ∧ s.pubs.find? (fun q => q.draft == 0) = some p ∧ drState s 0 = 4 ∧
    decisionOut s p = false ∧ rgCurrent s (drRegion s 0) = 7 ∧ (heldBeside s p).length < 8 ∧ newUnits s 0 7 = ([], []) ∧ staleLines s p [] [] = [] ∧
    backUnits s p = 0 ∧ rgDurable s (drRegion s 0) = false ∧ rgDurable (tPub 4 7 3 0xD000000000000001) 3 = true ∧
    rgCurrent (tPub 4 6 0 0xC000000000000001) 3 ≠ 6 ∧ decidedUnits (tPub 4 7 5 0xD000000000000001) ⟨0, 5, 7, [], 5⟩ = ([], []) :=
  ⟨_, _, rfl, rfl, by decide +kernel⟩
/-- R81: the publish makes version 8 and completes. -/
theorem test_publish_decided : ∃ t, exec (.publishDecide 0) (tPub 4 7 0 0xC000000000000001) = .next t ∧ rgCurrent t 3 = 8 ∧ drState t 0 = 0 :=
  ⟨_, rfl, by decide +kernel⟩

theorem test_plan_load : ∃ s, s = tWin 5 true [(rQuota 0 0, 1)] (tHdr 2 0 0 (tGa (winOff 5 0) + 64 * 2 ^ 64)) ∧ serving s 5 2 = true ∧
    s.planLoads.any (fun p => p.1 == 5) = false ∧ 1 ≤ hdr s 5 44 8 ∧ hdr s 5 44 8 ≤ 2 ^ 28 ∧ hdr s 5 36 8 < 2 ^ 60 ∧
    (tVal (kBytes s (loader 5 (winDom s 5)) (hdr s 5 36 8) (hdr s 5 44 8) [])).isSome = true ∧
    (match allocFrames s (winDom s 5) ((hdr s 5 44 8 + 65535) / 65536) with | .ok _ => true | _ => false) = true := ⟨_, rfl, by decide +kernel⟩
/-- R351: an empty container fails the format check with FORMAT (6). -/
theorem test_plan_refused : ∃ s, s = { tWin 5 true [] (tHdr 2 0 0 0) with planLoads := [(5, 64, 1)] } ∧
    s.planLoads.find? (fun p => p.1 == 5) = some (5, 64, 1) ∧ s.inj = [] ∧ planCheck s (stageKey 5) 64 false = some (6, 0) := ⟨_, rfl, by decide +kernel⟩
theorem test_plan_unload : ∃ s, s = tWin 5 true [(rPlanStat 0, 0x8000000000000000)] (tHdr 3 0 0 0) ∧ serving s 5 3 = true ∧ hdr s 5 36 2 = 0 ∧
    reg s (rPlanStat 0) ≠ 0 ∧ permitPlan s (winDom s 5) 0 = true ∧ regFld s (rPlanStat 0) 37 27 = 0 := ⟨_, rfl, by decide +kernel⟩
/-- R354: a plan that a kernel uses, and a handle that holds no plan. -/
theorem test_plan_kept : regFld (tRegs [(rPlanStat 0, 0x8000000008000000)]) (rPlanStat 0) 37 27 = 1 ∧ reg tRun (rPlanStat 0) = 0 := by decide +kernel
theorem test_plan_handle : (List.range 256).find? (fun p => reg tRun (rPlanStat p) == 0) = some 0 := by decide +kernel

theorem test_run : ∃ s, s = tWin 1 true [(rPlanStat 0, 0x8000000000000000)] (tHdr 1 0 0 0) ∧ winState s 5 = 1 ∧ (winOf s 5).ready = true ∧ hdr s 5 2 1 = 1 ∧
    kernelOf s 5 = none ∧ (match runCheck s 5 {} with | .inr k => k.plan == 0 | .inl _ => false) = true := ⟨_, rfl, by decide +kernel⟩
/-- R368: a RUN of a handle without a plan is refused with PLAN (5). -/
theorem test_run_refused : runCheck (tWin 1 true [] (tHdr 1 0 0 0)) 5 {} = .inl 5 := by decide +kernel

/-- The RUN of window 5 in window state `st`, at the head of its queue while it waits there; its plan has `ranks` rows of one Lathe. -/
def tQueuedK : Kernel := { tKernel with started := false, lathes := [], ctxs := [], kites := [], handles := [] }
def tQueued (st : Word) (ranks : Byte) : State :=
  { tWin st true [(rPlanStat 0, 0x8000000000000000)] 0 with
    mem := if ranks = 0 then [] else [(spKey (spPlan 0) 24, ranks), (spKey (spPlan 0) 25, 1)]
    lathQ := if st = 3 then [5] else [], kernels := [tQueuedK] }
theorem test_start : ∃ s, s = tQueued 3 1 ∧ kernelOf s 5 = some tQueuedK ∧ winState s 5 = 3 ∧ planKept s tQueuedK = true ∧ s.lathQ.head? = some 5 ∧
    uncheckedRun s 5 tQueuedK = false ∧ replayDue s = false ∧ s.kernels.any (fun x => x.started && x.win != 5 && outsMeet x.outs tQueuedK.outs) = false ∧
    placeAll s tQueuedK = some ([0], [], []) ∧ permitPlan s 0 0 = true := ⟨_, rfl, by decide +kernel⟩
/-- R360, R372: the RUN leaves its queue for STARTING, and the clock of its Lathe is asked for; the Lathe loads once it runs. -/
theorem test_starting : ∃ t, exec (.kernelStart 5 {} []) (tQueued 3 1) = .next t ∧ winState t 5 = 4 ∧ latheState t 0 = 0 ∧ t.lathQ = [] ∧
    t.ballastQ.length = 1 := ⟨_, rfl, by decide +kernel⟩
/-- The kernel in STARTING with output units of controller 5. -/
def tOutK : Kernel := { tQueuedK with outs := [(2 ^ 34 * 5, 2 ^ 34 * 5)] }
theorem test_start_down : ∃ s, s = { tQueued 4 0 with kernels := [tOutK] } ∧ (farDown s (startAsks s tOutK)).isSome = true ∧
    farDown (tQueued 4 0) (startAsks (tQueued 4 0) tQueuedK) = none := ⟨_, rfl, by decide +kernel⟩
theorem test_start_reserves : ∃ s, s = { tQueued 4 0 with kernels := [tOutK] } ∧ winState s 5 = 4 ∧ kernelOf s 5 = some tOutK ∧ tOutK.started = false ∧
    planKept s tOutK = true ∧ tOutK.loaded = false ∧ ownTurn s tOutK [] = tOutK ∧ (askReserve (putKernel s tOutK) tOutK []).isSome = true := ⟨_, rfl, by decide +kernel⟩
theorem test_start_asks_clocks : ∃ s k, s = tQueued 4 0 ∧ k = { tQueuedK with lathes := [0] } ∧ planKept s k = true ∧ ownTurn s k [] = k ∧
    askReserve (putKernel s k) k [] = none ∧ (engClocks k).all (fun u => (putKernel s k).clocked.contains u) = false := ⟨_, _, rfl, rfl, by decide +kernel⟩
theorem test_start_loads : ∃ s, s = putKernel (tQueued 4 0) tQueuedK ∧ ownTurn (tQueued 4 0) tQueuedK [] = tQueuedK ∧ askReserve s tQueuedK [] = none ∧
    (engClocks tQueuedK).all (fun u => s.clocked.contains u) = true ∧ (tQueuedK.lathes.all (fun l => latheState s l == 0)) = true ∧
    (match loadKernel s tQueuedK with
     | some (k, t) => (match allocFrames t k.dom (ctxFrames t k.plan) with
       | .ok u => (match allocFrames u k.dom (kiteFrames u k.plan) with | .ok _ => true | _ => false)
       | _ => false)
     | none => false) = true := ⟨_, rfl, by decide +kernel⟩
theorem test_start_point : ∃ s k1, s = tQueued 4 0 ∧ k1 = snapshot s tQueuedK [] ∧
    tQueuedK.slots.any (fun x => x.role == 1 && x.ctrl == ownCtrl s && regionDeciding s x.region) = false ∧ heldAll s tQueuedK [] = true ∧ k1.pins = [] ∧
    (match readTables s k1 [] with
     | .ok k2 t => (match readIdxs t k2 [] (idxSlots t k2.plan) with | .ok k3 u => farPins (readDone u k3.win) k3 == [] | _ => false)
     | _ => false) = true := ⟨_, _, rfl, rfl, by decide +kernel⟩
/-- A PINNED slot whose region controller 19 of this box holds, which port 4 reaches when it is `up`. -/
def tFarSlotK : Kernel := { tQueuedK with slots := [⟨0, 1, 19, 3, none, 0, 2097152, true, none⟩] }
def tFarAt : FarRegion := { slot := 0, granted := true, valid := true, versioned := true, size2m := 1, base := 0, draftOpen := false, current := 7, reserved := false, held := true }
def tFarSt (up : Bool) : State :=
  tWin 4 true ([(rPlanStat 0, 0x8000000000000000), (rAddrSelf, 0x12)] ++ (if up then [(rFab 4 0, 0x4130000000000000), (rFab 4 8, 5)] else [])) 0
/-- The versions that the kernel's snapshot needs at controller 19, and whether a port reaches it. -/
def tFarPins (up : Bool) : Option (Bool × Bool) :=
  match readTables (tFarSt up) (snapshot (tFarSt up) tFarSlotK [tFarAt]) [] with
  | .ok k2 t => (match readIdxs t k2 [] (idxSlots t k2.plan) with
    | .ok k3 u => some (farPins (readDone u k3.win) k3 != [], farDown (readDone u k3.win) ((farPins (readDone u k3.win) k3).map (fun q => q.1 * 2 ^ 50)) == none)
    | _ => none)
  | _ => none
theorem test_start_pins_far : heldAll (tFarSt true) tFarSlotK [tFarAt] = true ∧ (snapshot (tFarSt true) tFarSlotK [tFarAt]).pins = [] ∧
    tFarSlotK.pinSent = false ∧ tFarPins true = some (true, true) ∧ tFarPins false = some (true, false) := by decide +kernel
theorem test_start_launches : tQueuedK.holding = false ∧ (kernelOf (launch (tQueued 4 0) tQueuedK false) 5).isSome = true := by decide +kernel

/-- The kernel with one schedule entry on handle 0 of rank 0 at value 3. -/
def tSched : State :=
  { tLathe with mem := [(spKey (spPlan 0) 26, 1), (spKey (spPlan 0) 256, 8), (spKey (spPlan 0) 260, 1), (spKey (spPlan 0) 265, 2),
      (spKey (spPlan 0) 520, 3)] }
theorem test_schedule : liveKernel tSched 5 = some tKernel ∧ 0 < (planSect tSched 0 8 0).1 ∧ tKernel.fired.contains 0 = false ∧ schedN tSched 0 0 2 1 ≠ 0xFF ∧
    tKernel.done.length ≠ tKernel.lathes.length + tKernel.ctxs.length + tKernel.kites.length ∧ schedN tSched 0 0 8 4 = 3 ∧
    (handleOf tKernel (schedN tSched 0 0 4 2) (schedN tSched 0 0 2 1)).isSome = true := by decide +kernel

def tDoneK : Kernel := { tKernel with done := [.lathe 0, .gctx 0, .kite 0] }
def tDone : State := { tLathe with kernels := [tDoneK] }
theorem test_commit : liveKernel tDone 5 = some tDoneK ∧ AllDone tDone tDoneK ∧ tDoneK.suspect = false ∧ tDoneK.reelsDue = [] ∧ tDone.peerOuts = [] ∧ tDone.shadows = [] ∧
    (planSect tDone 0 8 0).1 = tDoneK.fired.length ∧ tDone.reels = [] ∧ (sendOutputs tDone tDoneK).reels = [] ∧
    (releaseHeld (endKernel (walkTally (pmc (freeEngines tDone tDoneK) 206 1 1 (some 0)) tDoneK 1) 5) 5).covers = [] := by
  unfold AllDone; decide +kernel
/-- An output unit of the kernel, of which host 2 holds line 1, is recalled first. -/
theorem test_commit_recalls : ∃ s, s = { tDone with shadows := [⟨0, 5, 0, false⟩], filt := [⟨1, .S, oneHost 2⟩] } ∧ liveKernel s 5 = some tDoneK ∧
    s.peerOuts = [] ∧ (unitLookups s [0]).2 = false ∧ sharedLines s 0 ++ heldLines s 0 ≠ [] := ⟨_, rfl, by decide +kernel⟩
/-- R104: a kernel whose written lines are still on their way to a mirror or a parity holder waits in state 6. -/
theorem test_commit_waits : (releaseHeld (endKernel (walkTally (pmc (freeEngines { tDone with covers := [(9, .kernel 5)] } tDoneK) 206 1 1 (some 0))
    tDoneK 1) 5) 5).covers.any (fun e => e.2 == .kernel 5) = true := by decide +kernel

/-- A ZERO descriptor to the start of Chuck 0, and one to an address of another box. -/
def tZero : List Word := [0x2000000000000000, 0, BitVec.ofNat 64 (tGa (chuckOff 0 0)), 0, 0, 0, 0, 0]
def tSpool (ws : List Word) : State := tLatheSt 2 { spool := [⟨0, ws, 0, {}⟩] }

/-- How far a move of the kernel's descriptor comes, and how it ends: 0 when it has moved its line, 1 when it waits, 2 when it faults. -/
def tMoved (s : State) (lathe : Bool) (ws : List Word) : Option (Nat × Nat) :=
  match spoolMove s (spoolEngine s tKernel (Desc.ofWords ws)) lathe (Desc.ofWords ws) [] {} 1 with
  | (p, .ok _ _) => some (p.moved, 0)
  | (p, .wait _) => some (p.moved, 1)
  | (p, .fault _ _ _) => some (p.moved, 2)

theorem test_spool_done : latheKernel (tSpool tZero) 0 = some tLatheK ∧ (latheAt (tSpool tZero) 0).spool[0]? = some ⟨0, tZero, 0, {}⟩ ∧
    spoolTurn ((latheAt (tSpool tZero) 0).spool.map (fun e => (e.words, e.pos))) 0 = true ∧
    (moveEntry (tSpool tZero) 0 0 allLines []).1 = true ∧ tMoved (tSpool tZero) true tZero = some (1, 0) := by decide +kernel
/-- A second descriptor waits behind the first while that has a line to move (R291). -/
theorem test_spool_order : spoolTurn [(tZero, {}), (tZero, {})] 1 = false ∧ spoolTurn [(tZero, { moved := 64 }), (tZero, {})] 1 = true := by decide +kernel
/-- A descriptor whose destination lies in a hole of the address map (R41). -/
def tBadZero : List Word := [0x2000000000000000, 0, BitVec.ofNat 64 (tGa (2 ^ 49 + 6 * 2 ^ 20)), 0, 0, 0, 0, 0]
theorem test_spool_fault : tMoved (tSpool tBadZero) true tBadZero = some (0, 2) := by
  decide +kernel
/-- A descriptor that copies lines from controller 19 of this box, which has not sent them; port 4 leads there. -/
def tFarCopy : List Word := [0, BitVec.ofNat 64 (2 ^ 54 + 3 * 2 ^ 50), BitVec.ofNat 64 (2 ^ 54 + 2 * 2 ^ 50 + chuckOff 0 0), 0, 0, 0, 0, 0]
def tFarSpool : State :=
  { tSpool tFarCopy with regs := tGrants ++ [(rLathe 0 0, 2), (rAddrSelf, 0x12), (rFab 4 0, 0x4130000000000000), (rFab 4 8, 5), (rPwr 8, 4)] }
theorem test_spool_waits : tMoved tFarSpool true tFarCopy = some (0, 1) ∧ (moveEntry tFarSpool 0 0 allLines []).1 = false := by
  decide +kernel
/-- A plain copy from the start of Chuck 0 to its byte 65,536. -/
def tOwnCopy : List Word := [0, BitVec.ofNat 64 (tGa (chuckOff 0 0)), BitVec.ofNat 64 (tGa (chuckOff 0 65536)), 0, 0, 0, 0, 0]
theorem test_plain_copy : (Desc.ofWords tOwnCopy).op = 0 ∧ (Desc.ofWords tOwnCopy).plainCopy = true ∧ 0 < (Desc.ofWords tOwnCopy).srcBytes / 64 ∧
    (tVal (kRead (tSpool tOwnCopy) tLatheK true ((Desc.ofWords tOwnCopy).src + 64 * 0) none)).isSome = true ∧
    (tVal (kWrite ctlLine (tSpool tOwnCopy) tLatheK ((Desc.ofWords tOwnCopy).dst + 64 * 0) 0)).isSome = true := by decide +kernel
theorem test_home_spool : ∃ s, s = { tSpool tZero with kernels := [{ tKernel with hspool := [⟨0, tZero, 0, {}, 0⟩] }] } ∧
    (hspoolQueue s (128 - 128))[0]?.isSome = true ∧
    (Desc.ofWords tZero).ok s = true ∧
    spoolTurn ((hspoolQueue s 0).map (fun e => (e.2.desc, e.2.pos))) 0 = true ∧ tMoved s false tZero = some (1, 0) ∧
    (moveHome s 0 0 allLines []).1 = true ∧ (kernelOf (moveHome s 0 0 allLines []).2 5).isSome = true := ⟨_, rfl, by decide +kernel⟩

/-! ## Home agents, line accesses and registers -/

/-- Host 2 VALID in domain 0, and region 3 VALID, COHERENT, 2 MiB at offset 0 of domain 0; its home 0 READY. -/
def tHostRegs : List (Nat × Word) := [(rRegion 3 0, 0xA000000000000001), (rHome 0 0, 1), (rCohCfg, 0x4000), (rCohHost 2, 1)]
def tHost : State := tRegs tHostRegs

theorem test_host_path : HostPath tHost 2 (BitVec.ofNat 60 (tGa 64)) ∧
    Accepted tHost (mkReq .rds 7 (.host 2) 64 0 0) 3 ∧ Accepted tHost (mkReq .wrback 7 (.host 2) 64 9 0) 3 ∧
    Accepted tHost (mkReq .wrnc 7 (.host 2) 64 9 allBytes) 3 := by
  refine ⟨⟨by decide +kernel, by decide +kernel, by decide +kernel, by decide +kernel, by decide +kernel, by decide +kernel,
      .inl (by decide +kernel), by decide +kernel⟩, ?_, ?_, ?_⟩ <;>
    exact ⟨by decide +kernel, by decide +kernel, by decide +kernel, by decide +kernel, by decide +kernel, by decide +kernel,
      fun h => absurd h (by decide), by decide +kernel⟩

/-- A line that a request of host 1 holds busy. -/
def tBusy : State := { tHost with trk := [⟨0, mkReq .rde 3 (.host 1) 64 0 0, false, .snoop, [5], true, none, false, none⟩] }
theorem test_home_takes : ∃ r, r = mkReq .rds 7 (.host 2) 64 0 0 ∧ deferred tHost r.off = false ∧ blocking tHost = false ∧ busy tBusy r.off = true ∧
    busy tHost r.off = false ∧ trkPlain tHost (homeOf r.off) < 1792 ∧ (tHost.retry.filter (fun p => p.1 == homeOf r.off)).length < 4096 ∧
    blocking (tRegs ((rCohCfg, 1) :: tHostRegs)) = true := ⟨_, rfl, by decide +kernel⟩
theorem test_retry_full : 4096 ≤ ({ tBusy with retry := List.replicate 4096 (0, mkReq .rds 3 (.host 1) 128 0 0) }.retry.filter (fun (p : Nat × Req) => p.1 == homeOf 64)).length ∧
    blocking tBusy = false := by decide +kernel
/-- R226: a new request finds an older deferred one for its line still waiting, since that line is busy. -/
theorem test_deferred_first : ∃ s, s = { tBusy with retry := [(0, mkReq .rds 3 (.host 1) 64 0 0)] } ∧ deferred s 64 = true ∧
    deferred (activateAll s.retry.length s (homeOf 64)) 64 = true := ⟨_, rfl, by decide +kernel⟩
theorem test_tracker_full : ∃ s, s = { tHost with trk := List.replicate 1792 ⟨0, mkReq .rde 3 (.host 1) 128 0 0, false, .snoop, [5], true, none, false, none⟩ } ∧
    busy s 64 = false ∧ 1792 ≤ trkPlain s 0 := ⟨_, rfl, by decide +kernel⟩

theorem test_snoop_waits : running tBusy = true ∧ tBusy.inj = [] ∧ fenced tBusy 5 = false ∧ (lineRec tBusy 64).1 ≠ .M ∧
    (tBusy.trk.find? (fun t => t.phase == .snoop && t.wait.contains 5 && t.req.off == 64 && t.req.txn == 3)).isSome = true := by decide +kernel
theorem test_snoop_dirty : lineRec { tBusy with filt := [⟨1, .M, oneHost 5⟩] } 64 = (.M, oneHost 5) := by decide +kernel
theorem test_cmpack_waits : ∃ s, s = { tRegs ((rCohCfg, 1) :: tHostRegs) with
      trk := [⟨0, mkReq .rde 3 (.host 1) 64 0 0, false, .cmpAck, [], false, none, false, none⟩] } ∧ blocking s = true ∧
    (s.trk.find? (fun t => t.phase == .cmpAck && t.req.off == 64 && t.req.txn == 3 && decide (t.req.src = .host 1))).isSome = true :=
  ⟨_, rfl, by decide +kernel⟩
theorem test_fetch_waits : ∃ s, s = { tHost with
      trk := [⟨0, mkReq .wrline 3 (.host 1) 64 0 0, true, .fetch, [1], false, none, false, none⟩] } ∧ fenced s 1 = false ∧
    (s.trk.find? (fun t => t.phase == .fetch && t.req.off == 64 && t.req.txn == 3 && decide (t.req.src = .host 1))).isSome = true :=
  ⟨_, rfl, by decide +kernel⟩
/-- The Fetch of a write whose draft was freed meanwhile (R76, R77). -/
def tFreed : Txn := ⟨0, mkReq .wrline 3 (.host 1) (2 ^ 48) 0 0, true, .fetch, [1], false, none, true, none⟩
theorem test_fetch_freed : ∃ s, s = { tHost with trk := [tFreed] } ∧ tFreed.bad = true ∧
    s.trk.find? (fun t => t.phase == .fetch && t.req.off == 2 ^ 48 && t.req.txn == 3 && decide (t.req.src = .host 1)) = some tFreed := ⟨_, rfl, by decide +kernel⟩
theorem test_deferred_read : ∃ s, s = { tHost with retry := [(0, mkReq .rds 3 (.host 1) 64 0 0)] } ∧
    (s.retry.find? (fun p => p.1 == 0 && !busy s p.2.off)).map (fun p => p.2.op) = some .rds := ⟨_, rfl, by decide +kernel⟩
theorem test_deferred : ∃ s, s = { tRegs ((rFab 0 8, 5) :: tHostRegs) with retry := [(0, mkReq .wrline 3 (.host 1) 64 0 0)] } ∧ trkReserved s 0 < 256 ∧
    (s.retry.find? (fun p => p.1 == 0 && !busy s p.2.off)).map (fun p => p.2.op) = some .wrline ∧ hostPortUp s 1 = true := ⟨_, rfl, by decide +kernel⟩
theorem test_timeout_waits : tBusy.trk.any (fun t => t.home == 0 && t.req.off == 64 && t.wait.contains 5) = true := by decide +kernel

theorem test_line_targets : route tRun (tGa (chuckOff 127 0)) = .own (chuckOff 127 0) ∧ target (chuckOff 127 0) = .chuck 127 0 ∧
    permitChuck tRun 0 127 false = true ∧ permitChuck tRun 0 127 true = true ∧ areaAt tRun (chuckOff 127 0) = none ∧
    replicaAt tRun 127 0 = none ∧ latheBusy tRun 127 = false := by decide +kernel
theorem test_window_target : target (winOff 1023 0) = .window 1023 0 ∧ permitWindow tRun 0 1023 true = true ∧
    (windowWrite (countedFrom tRun (ownCtrl tRun)) 1023 0 0 1).1 = false := by decide +kernel
theorem test_counter_target : target (ctrOff 0) = .counters 0 ∧ (List.range 8).all (fun i => permitCounter tRun 0 (0 / 8 * 8 + i) false) = true := by
  decide +kernel
theorem test_control_target : target (2 ^ 49 + 2 ^ 31) = .control 0 ∧ permitControl tRun 0 0 false = true ∧ permitControl tRun 0 0 true = true ∧ inRings 0 = false := by
  decide +kernel
theorem test_hole_target : target (2 ^ 49 + 6 * 2 ^ 20) = .hole ∧ target (2 ^ 49 + 6 * 2 ^ 20 - 1) = .chuck 0 (6 * 2 ^ 20 - 1) := by decide +kernel

/-- ADDR_SELF takes plain writes. -/
theorem test_register_write : ∃ off : BitVec 28, off.toNat = rAddrSelf ∧ off.toNat % 8 = 0 ∧ tRun.stbyUp = true ∧ regUp tRun off.toNat = true ∧
    (regRow off.toNat).isSome = true ∧ writeInj tRun off.toNat 5 = none ∧
    off.toNat ∉ [0x5040088, rRecov 0x110, rPwr 0, rPwr 0x18, rPmu 0, rPmu 0x10, rPmu 0x20, rPmu 0x30] ∧
    unitAt off.toNat 0x5001008 12 16 = none ∧ pmcAt off.toNat 0x80 = false := ⟨0x1000, by decide +kernel⟩

/-! ## Composition, covers and the medium -/

/-- A COMPOSE in window 5 of one KEY_REVOKE of slot 1, signed with slot 0, sequence number 9 (R660); `serial` is the serial it names. -/
def tCompose (serial : Nat) (rs : List (Nat × Word)) : State :=
  (((tWin 5 true rs (tHdr 16 0 0 80 + 51)).writeN (winOff 5 64) 64
    (0x4F434D53 + 2 ^ 32 + serial * 2 ^ 64 + 9 * 2 ^ 192)).writeN (winOff 5 128) 16 (0x0B + 16 * 2 ^ 16 + 2 ^ 64))

theorem test_compose_format : serving (tWin 5 true [] (tHdr 16 0 0 0)) 5 16 = true ∧ composeFormat (tWin 5 true [] (tHdr 16 0 0 0)) (winOff 5 0) = none := by
  decide +kernel
/-- R661: a command for another serial number fails its signature check. -/
theorem test_compose_serial : serving (tCompose 1 []) 5 16 = true ∧ composeFormat (tCompose 1 []) (winOff 5 0) = some [.keyRevoke 1] ∧
    bootState (tCompose 1 []) ≠ 1 ∧ ripHeld (tCompose 1 []) = false ∧ (composeSigned (tCompose 1 []) (winOff 5 0)).1 = false := by decide +kernel
theorem test_compose_recovery : composeFormat (tCompose 1 [(rBoot 0, 1)]) (winOff 5 0) = some [.keyRevoke 1] ∧ bootState (tCompose 1 [(rBoot 0, 1)]) = 1 := by
  decide +kernel
/-- The operations of a signed command are applied in order (R662), or fail with their index. -/
theorem test_compose_ops : (match compOps 0 { s := tRegs [(rBoot 0xB0, 3)] } 0 [.keyRevoke 1] with | .inl c => regFld c.s (rBoot 0xB0) 7 0 | _ => 0) = 0x23 ∧
    (match compOps 0 { s := tRun } 0 [.keyRevoke 0] with | .inr (i, _, _) => i + 1 | _ => 0) = 1 := by decide +kernel

theorem test_composable : Composable tRun ∧ HomesIdle tRun := by unfold Composable HomesIdle; decide +kernel
/-- Every row of the register maps either is the switch budgets' row, whose reset value is zero, or ends before it or starts after it. -/
theorem switch_row_alone : ∀ r ∈ regTable, r.s1 ≠ 0 ∧ ((r.base = 0x2110000 ∧ r.reset = 0) ∨ r.base + r.n1 * r.s1 ≤ 0x2110000 ∨ 0x2111500 ≤ r.base) := by
  decide +kernel
/-- A switch budget register resets to zero. -/
theorem switch_resets_zero (off : Nat) (h : 0x2110000 ≤ off) (h' : off < 0x2111500) : regReset off = 0 := by
  unfold regReset
  rw [if_neg (by omega), if_neg (by omega)]
  split
  · next r hr =>
    have hp := List.find?_some hr
    simp only [RegRow.has, Bool.and_eq_true, decide_eq_true_eq] at hp
    obtain ⟨⟨⟨h1, h2⟩, -⟩, -⟩ := hp
    obtain ⟨hz, ⟨-, h0⟩ | h0 | h0⟩ := switch_row_alone r (List.mem_of_find?_eq_some hr)
    · simp [h0]
    · have := (Nat.div_lt_iff_lt_mul (Nat.pos_of_ne_zero hz)).1 h2
      omega
    · omega
  · rfl
/-- A key that a map does not list reads as its default. -/
theorem get_unlisted (m : List (Nat × Word)) (k : Nat) (d : Word) (h : ∀ e ∈ m, e.1 ≠ k) : Sparse.get m k d = d := by
  induction m with
  | nil => rfl
  | cons e m ih =>
    simp only [Sparse.get]
    rw [if_neg (h e (by simp)), ih (fun x hx => h x (by simp [hx]))]
/-- A state that lists no switch budget has them all at zero, within the limits of REG_SET's checks. -/
theorem budgets_of_unlisted (s : State) (h : ∀ e ∈ s.regs, e.1 < 0x2110000 ∨ 0x2111500 ≤ e.1) : budgetsOk s = true := by
  have z : ∀ n hi lo, n < 672 → regFld s (0x2110000 + 8 * n) hi lo = 0 := fun n hi lo hn => by
    unfold regFld reg
    rw [get_unlisted _ _ _ (fun e he => by have := h e he; omega), switch_resets_zero _ (by omega) (by omega)]
    simp [bits]
  have y : ∀ (l : List Nat) (f : Nat → Nat), (∀ i ∈ l, f i = 0) → (l.map f).sum = 0 := fun l f hl =>
    List.sum_eq_zero (fun x hx => by obtain ⟨i, hi, rfl⟩ := List.mem_map.1 hx; exact hl i hi)
  simp only [budgetsOk, Bool.and_eq_true, List.all_eq_true, decide_eq_true_eq]
  refine ⟨fun o ho => ?_, ?_⟩
  · rw [y _ _ (fun i hi => z _ _ _ (by have := List.mem_range.1 ho; have := List.mem_range.1 hi; omega))]; exact Nat.zero_le _
  · rw [y _ _ (fun i hi => z _ _ _ (List.mem_range.1 hi))]; exact Nat.zero_le _
theorem test_reg_set : bits ((reg tRun (rCohHost 63) &&& ~~~0xFFFF01) ||| (0x050F01 &&& 0xFFFF01)).toNat 15 8 ≤ 15 := by decide +kernel
theorem test_budgets : budgetsOk (regSet tRun (rCohHost 63) 0x050F01) = true := budgets_of_unlisted _ (by decide +kernel)
/-- REGION_SET: a region of 2 MiB at offset 0 in domain 0 with nothing else set is created; one with an index beyond the table is refused. -/
theorem test_region_set : (match opRegionSet { s := tRegs [(rQuota 0 0, 100)] } 3 0x8000000000000001 with | .ok _ => true | _ => false) = true := by decide +kernel
theorem test_region_refused : (match opRegionSet { s := tRun } 16384 0x8000000000000001 with | .bad _ _ => true | _ => false) = true := by decide +kernel
theorem test_region_delete : rgValid tHost 4 = false ∧ rgValid tHost 3 = true ∧ rgDeleting tHost 3 = false ∧
    rgDurable tHost 3 = false ∧ regionHeld tHost 3 = false ∧
    regionHeld (tRegs (tHostRegs ++ tDraft 1 0)) 3 = true := by decide +kernel
theorem test_group_set : ∃ (e : BitVec 2048) (ts : List Nat), e = BitVec.ofNat 2048 (2 + 1023 * 2 ^ 512 + 5 * 2 ^ 528) ∧
    ts = (List.range (e.toNat % 65536)).map (groupTarget e) ∧ ts = [1023, 5] ∧ bits e.toNat 511 16 = 0 ∧
    bits e.toNat 2047 (512 + 16 * (e.toNat % 65536)) = 0 ∧ ts.any (fun t => decide (1024 ≤ t)) = false ∧ ts.dedup = ts :=
  ⟨_, _, rfl, rfl, by decide +kernel⟩
theorem test_releases : regBit (tRegs [(rBoot 0x100, 8)]) (rBoot 0x100) 3 = true ∧
    unitNumber 1 127 = true ∧ unitNumber 1 128 = false ∧ inService tServed (4223 / 4096) (4223 % 4096) = true ∧
    inService tRun 1 127 = false := by decide +kernel
theorem test_key_revoke : (List.range 4).any (fun i => regBit (tRegs [(rBoot 0xB0, 3)]) (rBoot 0xB0) i &&
      !regBit (tRegs [(rBoot 0xB0, 3)]) (rBoot 0xB0) (4 + i) && i != 1) = true ∧
    (List.range 4).any (fun i => regBit (tRegs [(rBoot 0xB0, 2)]) (rBoot 0xB0) i &&
      !regBit (tRegs [(rBoot 0xB0, 2)]) (rBoot 0xB0) (4 + i) && i != 1) = false := by decide +kernel

theorem test_host_release : ∃ buf : BitVec 64, buf.toNat = tGa 0 ∧ buf.toNat < 2 ^ 60 ∧ route tHost (buf.toNat % 2 ^ 60) = .own 0 ∧ tHost.sweeps = [] ∧
    tHost.sweeps.any (fun e => e.host == 2) = false ∧ regionAt tHost 0 = some 3 ∧ rgVersioned tHost 3 = false ∧
    0 + 8 ≤ rgBase tHost 3 + rgSize tHost 3 ∧ Composable tHost :=
  ⟨BitVec.ofNat 64 (tGa 0), by unfold Composable; decide +kernel⟩
/-- Region 4: VALID, VERSIONED, 2 MiB at 2 MiB, with version 7 held; the line at 64 of region 3 is poisoned. -/
def tRestore : State :=
  { tRegs (tHostRegs ++ [(rRegion 4 0, 0xC000000010000001), (rRegion 4 2, 7)]) with versions := [(4, 7)], poison := [1] }
theorem test_restorable : Restorable tRestore (BitVec.ofNat 64 (tGa 64)) 64 4 7 128 3 := by unfold Restorable; decide +kernel
theorem test_restore_step : touchLine tRestore 64 = tRestore ∧ isPoisoned tRestore 64 = true ∧ draftOpen tRestore 64 = true ∧ (lineRec tRestore 64).1 = .I ∧
    (lineRec { tRestore with filt := [⟨1, .S, oneHost 5⟩] } 64).1 ≠ .I ∧ isPoisoned tRestore 0 = false ∧
    (match ensureUnit { tRestore with restoreq := tRestore.restoreq.erase (64, some 5) } 64 with
     | .ok w => !covered (setRec (clearPoison (putStack (storeFree w 64) 64 5) 64) 64 .I 0) 64
     | _ => false) = true := by decide +kernel
/-- With no injection armed a home's look-ups find no error (R253). -/
theorem test_lookups (s : State) (hi : s.inj = []) (l : List Nat) : lookups s l = (s, false) := by
  induction l with
  | nil => rfl
  | cons o l ih => simp [lookups, lookupErr, takeInj, hi, ih]
/-- R250: the home writes the version's bytes to the poisoned line and clears its poison. -/
theorem test_line_restored : ∃ t, exec (.lineRestore (BitVec.ofNat 64 (tGa 64)) 1 4 7 128) tRestore = .next t ∧ isPoisoned t 64 = false := ⟨_, rfl, by decide +kernel⟩
theorem test_rip_release : ∃ s, s = tRegs [(rRecov 8, 3)] ∧ bootState s ≠ 1 ∧ ripHeld s = true := ⟨_, rfl, by decide +kernel⟩
theorem test_sweep_done : ∃ s, s = { tHost with sweeps := [{ host := 2, off := 0, len := 8 }] } ∧ running s = true ∧
    s.sweeps.find? (fun e => e.host == 2 && e.stage == 0) = some { host := 2, off := 0, len := 8 } ∧ (sweepLines s 2 (recordedLines s)).2 = [] := ⟨_, rfl, by decide +kernel⟩
theorem test_sweep_stages : ({ host := 2, off := 0, len := 8, stage := 1 } : Sweep).stage = 1 ∧ ({ host := 2, off := 0, len := 8, stage := 2 } : Sweep).stage = 2 := by decide

theorem test_fetch_done : ∃ s, s = { tRun with fetches := [5], reading := [(5, 2 ^ 40)], toRestore := [(327680, 65536)] } ∧ s.fetches.contains 5 = true ∧
    s.reading.any (fun e => e.1 == 5) = true ∧ awaitsRestore s (5 * 65536) = true := ⟨_, rfl, by decide +kernel⟩
theorem test_fetch_tiered : ∃ s u, s = { tRegs [(rRegion 4 0, 0xC100000010000001)] with fetches := [u], reading := [(u, 2 ^ 40)] } ∧
    u = spKey (spVersion 4 7) 0 / 65536 ∧ s.reading.any (fun e => e.1 == u) = true ∧ awaitsRestore s (u * 65536) = false ∧ unitRegion u = some 4 ∧
    rgPlace s 4 = 1 ∧ s.tierCache.any (fun e => e.key == u) = false ∧ (cacheFrame s).isSome = true := ⟨_, _, rfl, rfl, by decide +kernel⟩
/-- A STREAM region's unit that no PREFETCH names is kept in no frame (R55). -/
theorem test_fetch_stream : ∃ s, s = tRegs [(rRegion 4 0, 0xC300000010000001)] ∧ rgPlace s 4 = 3 ∧ s.nameds.any (fun p => p.2 == spKey (spVersion 4 7) 0 / 65536) = false := ⟨_, rfl, by decide +kernel⟩
theorem test_delete_final : ∃ s, s = tRegs [(rRegion 3 0, 0x8000000000000001), (rRegion 3 1, 0x2000000000)] ∧ rgValid s 3 = true ∧
    rgDeleting s 3 = true ∧ regionHeld s 3 = false := ⟨_, rfl, by decide +kernel⟩
theorem test_mirror_peer : route (tRegs [(rAddrSelf, 0x12)]) (2 ^ 54 + 3 * 2 ^ 50 + 64) = .peer 3 64 ∧
    route (tRegs [(rAddrSelf, 0x12)]) (2 ^ 54 + 2 * 2 ^ 50 + 64) = .own 64 := by decide +kernel
/-- A write to the mirror peer 7 that waits, the only one; and a lost peer to which nothing was sent. -/
theorem test_cover_waits : ∃ s, s = { tRun with coverSent := [(tGa 64, 2 * 7)] } ∧ coverOldest s 0 (tGa 64) = some (tGa 64, 2 * 7) ∧
    (∀ e ∈ s.coverSent, e.2 ≠ 2 * 8) ∧ route s (tGa 64) = .own 64 := ⟨_, rfl, by decide +kernel⟩
theorem test_covers : { tRun with dirtyFrames := 1 }.dirtyFrames ≠ 0 ∧ tRun.trk = [] ∧ tRun.covers = [] ∧ tRun.coverSent = [] := by decide
theorem test_copies : ({ tRun with copying := [(3, 0, 0, 0)] }.copying.find? (fun e => e.1 == 3) = some (3, 0, 0, 0)) ∧
    ({ tRun with copying := [(3, 1, 7, 0)] }.copying.find? (fun e => e.1 == 3) = some (3, 1, 7, 0)) ∧
    ({ tRun with copying := [(3, 2, 0, 4)] }.copying.find? (fun e => e.1 == 3) = some (3, 2, 0, 4)) := by decide
theorem test_fold_acks : coverOldest { tRun with coverSent := [(tGa 64, 2 * 3 + 1)] } 1 (tGa 64) = some (tGa 64, 7) ∧ coverOldest tRun 1 (tGa 64) = none := by
  decide +kernel
theorem test_degraded_copy : { tRun with degraded := [3] }.degraded.contains 3 = true ∧ tRun.degraded.contains 3 = false := by decide

theorem test_medium_replays : regBit (tRegs [(rMed 8, 2)]) (rMed 8) 1 = true ∧ regBit tRun (rMed 8) 1 = false ∧ regBit tRun (rMed 8) 0 = false ∧
    regBit (tRegs [(rMed 8, 1)]) (rMed 8) 0 = true := by decide +kernel
/-- R108: a target with 16 KiB pages and 2 KiB of spare area is usable, one with a smaller spare area is not. -/
theorem test_usable : usable (tTarget 1) = true ∧ usable { tTarget 1 with spareBytes := 2047 } = false := by decide
/-- R25, R108: a channel with one usable target of one LUN of 8 blocks of 4 planes of 128 pages has 64 MiB; its other target has too
small a spare area and stays out. -/
theorem test_raw_bytes : (match exec (.mediumEnumerate [⟨0, [tTarget 1, { tTarget 1 with spareBytes := 2047 }], [3600]⟩] 2 3000) tRun with
    | .next t => t.targetBytes == [(0, 2 ^ 26)] && regFld t (rMed 0) 15 8 == 2
    | _ => false) = true := by decide +kernel
theorem test_ladder_steps : [(0, 0), (9, 3), (10, 0)].foldl (fun m (x : BitVec 4 × BitVec 16) => max m x.1.toNat) 0 = 10 ∧
    [(9, 0)].foldl (fun m (x : BitVec 4 × BitVec 16) => max m x.1.toNat) 0 < 10 ∧ locChan 0 3 = 24 := by decide
theorem test_degraded (d e : LineData) : parityHere tRun (4096 : BitVec 41).toNat = false ∧
    some [d] :: ([⟨1, 7, some [e]⟩] : List PartRead).map (fun p => p.lines) = [[d], [e]].map some ∧
    (none : Option (List LineData)) ∈ some [d] :: ([⟨1, 7, none⟩] : List PartRead).map (fun p => p.lines) := ⟨by decide +kernel, by simp, by simp⟩
/-- A PARITY unit that this controller wrote, in its band. -/
theorem test_degraded_parity : parityHere { tRun with bands := [(locBand 4097, { units := [(locPage 4097, { type := 4 })] })] } (4097 : BitVec 41).toNat = true := by decide +kernel

/-- A program of a DATA unit of region 3 at location `l`, in flight, and its band, whose reclaim has come to state `rc`. -/
def tProgSt (l rc : Nat) : State :=
  { tRun with progs := [⟨l, { type := 1, region := 3, version := 8, unit := 0 }, none⟩]
              bands := [(locBand l, { next := 1, reclaim := rc })] }
theorem test_program_in_flight : (tProgSt 4097 0).progs.find? (fun p => locBand p.loc == locBand 4097) =
      some ⟨4097, { type := 1, region := 3, version := 8, unit := 0 }, none⟩ ∧ (tProgSt 4097 0).inj = [] := by decide +kernel
/-- R119: the unit programmed without a failure is located where it was written. -/
theorem test_unit_located : (programmed (tProgSt 4097 0) ⟨4097, { type := 1, region := 3, version := 8, unit := 0 }, none⟩).locs =
    [(unitName 3 8 0, 4097)] := by decide +kernel
theorem test_erase_ordered : (bandOf (tProgSt 4097 4) (locBand 4097)).reclaim = 4 ∧ (bandOf (tProgSt 4097 4) (locBand 4097)).gone = false := by
  decide +kernel
theorem test_reclaimable : ∃ s, s = { tRegs ((List.range 32).map (fun c => (rMedCh c 0, 1))) with bands := [(locBand 4097, { next := 1 })] } ∧
    (bandOf s (locBand 4097)).isOpen = false ∧ (bandOf s (locBand 4097)).next ≠ 0 ∧ s.progs = [] ∧ lunUp s (bandLoc (locBand 4097)) = true ∧
    regBit s (rMed 8) 2 = false ∧ regBit (tRegs [(rMed 8, 4)]) (rMed 8) 2 = true :=
  ⟨_, rfl, by decide +kernel⟩
theorem test_retraction_waits : Sparse.get { tRun with retracts := [(0, 1)] }.retracts 0 0 = 0 + 1 := by decide
theorem test_stripes : { tRun with stripes := [⟨4, [(1, 9)], 0⟩] }.stripes.find? (fun (x : Stripe) => !x.parts.any (fun p => p.1 == 2)) = some ⟨4, [(1, 9)], 0⟩ ∧
    { tRun with contribs := [⟨9, 1, true, false⟩] }.contribs.any (fun (c : Contrib) => c.loc == 9 && !c.cov) = true ∧
    { tRun with parUnits := [⟨4, [(1, 9)], 0⟩] }.parUnits.find? (fun (x : Stripe) => x.parts.contains (1, 9)) = some ⟨4, [(1, 9)], 0⟩ ∧
    ({ (⟨4, [(1, 9), (2, 8)], 0⟩ : Stripe) with parts := [(1, 9), (2, 8)].erase (1, 9) } : Stripe).parts ≠ [] ∧
    tRun.parUnits.find? (fun (x : Stripe) => x.parts.contains (1, 9)) = none := by decide +kernel
/-- R158: after a MAP unit a DATA unit is in order, and a decision record no longer is. -/
theorem test_rebuild_order : ∃ s, s = { tRun with rebuildAt := 2 } ∧ s.rebuildAt ≤ itemOrder (.data 3 8 0 []) ∧ itemOrder (.decision 3 8 7 []) < s.rebuildAt :=
  ⟨_, rfl, by decide⟩

/-! ## Fabric, command Ethernet, management and recovery -/

/-- Port 4 in state `st` (FAB_STAT bits 3 to 0), bound as kind `kind`. -/
def tPort (st kind : Word) : State := tRegs [(rFab 4 0, kind <<< 62), (rFab 4 8, st), (rAddrSelf, 0x12)]

theorem test_port_states : [1, 2, 3, 4, 5, 6, 7].map (fun (n : Nat) => fabState (tPort (BitVec.ofNat 64 n) 1) 4) = [1, 2, 3, 4, 5, 6, 7] ∧
    fabKind (tPort 7 1) 4 = 1 ∧ regFld (tPort 4 3) rAddrSelf 9 4 ≠ 63 ∧ running (tPort 4 3) = true ∧ (tPort 4 3).inj = [] := by decide +kernel
theorem test_port_aligned : (linkOf { tPort 3 1 with links := [(4, { conv := 15 })] } 4).conv = 15 := by decide +kernel
theorem test_port_far : ∃ f : Word → Nat → State, f = (fun kind host => regPut (regPut (send (tPort 4 kind) (.train 4 (ownCtrl (tPort 4 kind) ::
      (recvSlots (tPort 4 kind) 4).flatMap (fun e => [e.1, e.2])))) (rFab 4 8) 37 28 0) (rFab 4 8) 27 27 host) ∧
    fabKind (f 3 0) 4 = 3 ∧ fabKind (f 1 0) 4 = 1 ∧ regFld (f 1 0) (rFab 4 0) 61 52 = 0 ∧ fabKind (f 2 1) 4 = 2 ∧ regFld (f 2 1) (rFab 4 0) 51 46 = 0 ∧
    fabKind (f 0 0) 4 = 0 := ⟨_, rfl, by decide +kernel⟩
/-- R507: a PAYLOAD flit with SEQ 0 is the next one after reset's 4,095, and a CONTROL flit likewise. -/
theorem test_flit_next : (rxFlit (tPort 5 1) 4 (flitHdr 0x1000000000000000) true (overCredit (tPort 5 1) 4 [])).1 = true ∧ (flitHdr 0x1000000000000000).type = 1 ∧
    (rxFlit (tPort 5 1) 4 (flitHdr 0x2000000000000000) true false).1 = true ∧ (flitHdr 0x2000000000000000).type = 2 ∧
    fabKind (rxFlit (tPort 5 1) 4 (flitHdr 0x2000000000000000) true false).2 4 = 1 ∧ bits (1 : BitVec 128).toNat 7 0 = 1 := by decide +kernel
/-- R513: a flit beyond the credits is not taken. -/
theorem test_flit_beyond : (rxFlit (tPort 5 1) 4 (flitHdr 0x1000000000000000) true true).1 = false := by decide +kernel
theorem test_flit_owes_ack : 0 < (linkOf { tPort 5 1 with links := [(4, { got := 1 })] } 4).got := by decide +kernel
theorem test_switch_idle : (tRegs [(rSw 8, 1)]).cells = [] ∧ regBit (tRegs [(rSw 8, 1)]) (rSw 8) 0 = true ∧
    (tRegs [(rSw 8, 1)]).swCycles < 65536 ∧ (tRegs [(rSw 8, 1)]).agentq = [] ∧ 65536 ≤ { tRun with swCycles := 65536 }.swCycles ∧
    (0x8000000000000000 : BitVec 64).toNat.testBit 63 = true ∧ regBit tRun (rSw 0x20) 63 = false := by decide +kernel
/-- R547, R550: the live budgets take over the pending mode with the epoch. -/
theorem test_switch_mode : rcMode tRun = false ∧ rcMode { tRun with swLive := [(rSw 0, 0x100)] } = true := by decide +kernel
/-- A full-size cell of class 0 and the address that the switch core takes to home 0's port, alone in the switch. -/
def tCell : Cell := { inp := 24, outs := [(18, 0)], cls := 0, rc := 0, dom := 0, slots := [1] }
theorem test_switch_match : ∃ s, s = { tRegs [(rSw 8, 1)] with cells := [tCell] } ∧ s.cells = [tCell] ∧ tCell.outs = [(18, 0)] ∧ tCell.cls < 4 ∧ tCell.rc < 16 ∧
    regBit s (rSw 8) 0 = true ∧ canSend s 18 tCell = true := ⟨_, rfl, by decide +kernel⟩
theorem test_agent_request : { tRun with fabReqs := [⟨4, 9, 26, 3, 64, 0, 1⟩] }.fabReqs.find? (fun (r : FabReq) => r.port == 4 && r.txn == 9) = some ⟨4, 9, 26, 3, 64, 0, 1⟩ ∧
    (0x26 : BitVec 6).toNat ≠ 0x24 ∧ (0x26 : BitVec 6).toNat ≠ 0x25 ∧ (⟨4, 9, 26, 3, 64, 0, 1⟩ : FabReq).left ≤ 1 := by
  decide
/-- The answers, by opcode, to a request of the row gate at port 26, TXN 3, for the line at 64. -/
def tAsked (who : ReqWho) : State := { tRun with agentReqs := [⟨26, 3, 1, 4, who, 0, 0⟩] }
theorem test_agent_answers : [0x24, 0x26, 0x27, 0x31].map (fun op => hOpcode (respHdr tRun op 3 5 64 0 false false)) = [0x24, 0x26, 0x27, 0x31] ∧
    [.kread 5 none, .kwrite 5 none, .cpl 0].map (fun w => ((tAsked w).agentReqs.find? (fun r => r.port == 26 && r.txn == hTxn (respHdr tRun 0x31 3 5 64 0 false false) &&
      r.addr == hAddr (respHdr tRun 0x31 3 5 64 0 false false) / 64)).map (fun r => r.who)) = [some (.kread 5 none), some (.kwrite 5 none), some (.cpl 0)] := by
  decide +kernel
theorem test_engines_live : latheBusy tLathe 0 = true ∧ regFld tProg (rGctx 0 0) 2 0 ≠ 0 ∧ regFld tProg (rKite 0 0) 2 0 ≠ 0 ∧
    (hspoolQueue { tSpool tZero with kernels := [{ tKernel with hspool := [⟨0, tZero, 0, {}, 0⟩] }] } 0).isEmpty = false := by decide +kernel

theorem test_reel_read : route tRun (tGa 0) = .own 0 ∧ regionOf tRun 0 = none ∧ regionOf tRestore (2 ^ 21) = some 4 ∧ rgDeleting tRestore 4 = false ∧
    permitRegion tRestore 9 4 false = false ∧ permitRegion tRestore 0 4 false = true ∧ (versionsOf tRestore 4).contains 8 = false ∧
    (versionsOf tRestore 4).contains 7 = true ∧ missFor tRestore 2053 4 (spKey (spVersion 4 7) 0) = none ∧
    missFor (gwWork tRestore) 2053 4 (spKey (spVersion 4 7) 0) = none ∧
    rgDeleting (tRegs [(rRegion 3 0, 0x8000000000000001), (rRegion 3 1, 0x2000000000)]) 3 = true ∧
    regionOf (tRegs [(rRegion 3 0, 0x8000000000000001), (rRegion 3 1, 0x2000000000)]) 0 = some 3 := by decide +kernel
theorem test_reel_current : tRun.shadows = [] ∧ reelHolds tHost 0 = false ∧ heldLines tHost 0 = [] ∧ tHost.inj = [] ∧ tHost.filt = [] ∧ tHost.dir = [] ∧
    missFor tHost 2053 3 ((backing tHost 0).getD 0) = none ∧ missFor (gwWork tHost) 2053 3 ((backing tHost 0).getD 0) = none := by decide +kernel
/-- A read of a reel whose version lies on the medium waits (R523). -/
def tReelWait : ReelWait := ⟨4, 5, 9, 0, 2 ^ 21, some 7⟩
theorem test_reel_waits : ∃ s, s = { tRegs (tHostRegs ++ [(rRegion 4 0, 0xC100000010000001), (rRegion 4 2, 7)]) with versions := [(4, 7)] } ∧
    (reelRead s tReelWait).1 = false ∧ (reelRead s tReelWait).2.reelWaits = [] := ⟨_, rfl, by decide +kernel⟩
/-- With no injection armed and no line recorded in a filter or a directory, a reel's look-ups find no error and change nothing. -/
theorem test_reel_lookups (s : State) (off : Nat) (hi : s.inj = []) (hf : s.filt = []) (hd : s.dir = []) : reelLookups s off = (s, false) := by
  have b : ∀ o, touchLine s o = s := fun o => by
    have h : lineRec s o = (.I, 0) := by
      simp only [lineRec, hf, hd, List.find?_nil, Sparse.get]
      decide
    simp [touchLine, h]
  have c : ∀ l : List Nat, forEach l s (fun s i => if lineActive s (off + 64 * i) then s else touchLine s (off + 64 * i)) = s := fun l => by
    induction l with
    | nil => rfl
    | cons i l ih => simp only [forEach, List.foldl_cons, b, ite_self] at ih ⊢; exact ih
  have u : unitLookups s [off / 65536] = (s, false) := by
    unfold unitLookups
    rw [if_pos (by simp [hi])]
  simp only [reelLookups, u, c]
theorem test_reel_fetching : ∃ s, s = { tRun with reels := [(0, { addr := 65536, st := .fetching, txn := 6 })] } ∧
    (s.reels.find? (fun e => e.2.st == .fetching && e.2.txn == 6)).isSome = true ∧ s.reels.find? (fun e => e.2.st == .fetching && e.2.txn == 7) = none ∧
    (s.reels.find? (fun e => (e.2.st == .fetching || e.2.st == .writing) && e.2.txn == 6)).map (fun e => e.2.st) = some .fetching ∧
    (List.replicate 1024 ((0 : LineData), false)).length = 1024 ∧ (15 : BitVec 4).toNat ≠ errStale ∧ ∃ e : BitVec 4, e.toNat = errStale :=
  ⟨_, rfl, by decide +kernel, by decide +kernel, by decide +kernel, List.length_replicate, by decide, ⟨BitVec.ofNat 4 errStale, by decide⟩⟩
theorem test_reel_written : ∃ s, s = { tRun with reels := [(0, { addr := 65536, st := .writing, txn := 6 })] } ∧
    (s.reels.find? (fun e => e.2.st == .writing && e.2.txn == 6)).map (fun e => e.2.overflow) = some false := ⟨_, rfl, by decide +kernel⟩
theorem test_reel_apply : regionOf tHost 0 = some 3 ∧ rgDeleting tHost 3 = false ∧ permitRegion tHost 9 3 true = false ∧ permitRegion tHost 0 3 true = true ∧
    rgVersioned tHost 3 = false ∧ draftOpen tHost 0 = true := by decide +kernel
/-- A write-back of one line from controller 5 that the homes hold. -/
def tHold : WbHold := ⟨4, 5, 9, 0, 0, [(1, 7, false)]⟩
theorem test_reel_route : (match route tHost (2 ^ 54) with | .own _ => false | _ => true) = true := by decide +kernel
theorem test_reel_copies : ∃ o ∈ tHold.offs, (lineRec { tHost with filt := [⟨1, .S, oneHost 5⟩] } o).1 ≠ .I := ⟨64, by decide +kernel⟩
theorem test_reel_held : ∃ s, s = { tHost with wbq := [tHold] } ∧ tHold.offs = [64] ∧ (lineRec s 64).1 = .I ∧ draftOpen s 0 = true ∧
    (match ensureUnit { s with wbq := s.wbq.erase tHold } 0 with
      | .ok u => regionOf u 0 == some 3 && !isTether u 3 && u.trk.isEmpty && !covered u 64 && !foldLost u 0
      | _ => false) = true := ⟨_, rfl, by decide +kernel⟩

/-- Command port 0 with a link and addresses of its own, session 3 READY in domain 0, its block 5 unacknowledged after `n` resends. -/
def tEth (n : Nat) : State :=
  { tRegs [(rEth 0 0, 7), (rSstat 3, 0x2000000000000000)] with
    ethAddr := [(0, 10), (1, 9)]
    sess := [(3, { sessOf tRun 3 with out := [{ kind := 5, seq := 5, addr := 0, data := [], resends := n }], unacked := 1 })] }
/-- A block of session 3, SEQ 1, with LINES 0 or 1, its CRC computed over it. -/
def tHdrZ (kind : BitVec 8) (lines : BitVec 16) (data : List LineData) : ZHdr :=
  let h : ZHdr := ⟨0x5A43, kind, 0, 3, lines, 1, 0, 0, 2 ^ 60, 0, 0, 0, 0⟩
  { h with crc := BitVec.ofNat 32 (zctCrc h data) }

/-- R563: the CRC32C of the nine digits, the check value of that code. -/
theorem test_crc32c : crc32c ((List.range 9).map (fun i => 49 + i)) = 0xE3069283 := by decide +kernel
theorem test_eth_link : ethLink (tEth 0) 0 = true ∧ ethLink (tEth 0) 1 = false ∧
    ∃ f : EthRx, f = { bytes := 64 } ∧ f.uncorr = 0 ∧ f.bytes.toNat ≤ 9216 ∧ ∃ u, u = addCnt (ethRx (tEth 0) 0 f.bytes.toNat) (rEth 0 0x18) f.corr.toNat ∧
    u.ethAddr.any (fun p => p.1 == 2 * 0 + 1 && p.2 == 9) = true ∧ u.pfcQ = [] ∧
    u.ethAddr.any (fun p => p.1 == 2 * 0 + 1 && p.2 == 8) = false ∧ u.ethAddr.any (fun p => p.1 == 2 * 0 && p.2 == 10) = true ∧
    u.ethAddr.any (fun p => p.1 == 2 * 0 && p.2 == 8) = false := ⟨by decide +kernel, by decide +kernel, _, rfl, by decide, by decide, _, rfl, by decide +kernel⟩
theorem test_eth_dropped : ({ bytes := 64, uncorr := 1 } : EthRx).uncorr ≠ 0 ∧ 9216 < ({ bytes := 9217 } : EthRx).bytes.toNat ∧ 9216 ≤ ({ bytes := 9216 } : EthRx).bytes.toNat := by
  decide
/-- R564: a block with a wrong CRC is discarded; a good ACK and a good WRITE of a line are not, on no VLAN as their session. -/
theorem test_zct_blocks : ∃ u, u = addCnt (ethRx (tEth 0) 0 (zctBytes 0)) (rEth 0 0x18) 0 ∧ zctBytes 141 ≤ 9216 ∧ ({ far := 7 } : ZFrom).uncorr = 0 ∧
    regBit u (rEth 0 0) 2 = true ∧ u.inj = [] ∧ zctBad u { tHdrZ 5 0 [] with crc := 0 } [] = true ∧ zctBad u (tHdrZ 5 0 []) [] = false ∧
    zctBad u (tHdrZ 1 1 [8]) [8] = false ∧ (tHdrZ 5 0 []).kind = 5 ∧ (tHdrZ 1 1 [8]).kind ≠ 5 ∧
    vlanOf none = regFld u (rSess (tHdrZ 5 0 []).session.toNat) 54 43 ∧ vlanOf (some 5) ≠ regFld u (rSess (tHdrZ 5 0 []).session.toNat) 54 43 :=
  ⟨_, rfl, by decide +kernel⟩
theorem test_zct_timers : zctLive (tEth 0) 4 = false ∧ zctLive (tEth 0) 3 = true ∧ (sessOf (zctSettle (tEth 0) 3) 3).unacked ≠ 0 ∧
    ((sessOf (tEth 16) 3).out.find? (fun b => b.seq == (5 : BitVec 32).toNat)).map (fun b => (b.resends, b.fence)) = some (16, false) ∧
    ((sessOf (tEth 15) 3).out.find? (fun b => b.seq == (5 : BitVec 32).toNat)).map (fun b => (b.resends, b.fence)) = some (15, false) := by decide +kernel

/-- Management port 0 UP and port 1 not, each with a global address, and one message out. -/
def tMsg : MgmtOut := { msg := 7, kind := 1, payload := [], port := 0, cls := none }
def tMgmt : State := { tRegs [(rMgmtStat, 4)] with mgmtOut := [tMsg], mgmtAddr := [(0, 77), (1, 78)] }
def tSrc (sack : BitVec 64) : MgmtFrom := { port := 0, dst := 77, far := 5, ack := 0, sack := sack }
theorem test_mgmt_next : MgmtNext { tMgmt with mgmtOut := [] } (tSrc 0) (BitVec.ofNat 32 (mgmtCame { tMgmt with mgmtOut := [] } (tSrc 0)).mgmtNext) := by
  unfold MgmtNext
  refine ⟨?_, ?_, ?_⟩ <;> decide +kernel
theorem test_mgmt_image_part : ∃ s, s = { mgmtTaken (tRegs [(rMgmtStat, 4), (rBoot 0, 2)]) (tSrc 0) with mgmtAddr := [] } ∧ (imagePart s 0 0 256 [1]).1 = none ∧
    (imagePart s 0 0 256 [1]).2.1 = false := ⟨_, rfl, by decide +kernel⟩
theorem test_mgmt_timers : mgmtUp tMgmt 0 ≠ 0 ∧ mgmtUp tMgmt 1 = 0 ∧ mgmtTakes tMgmt (tSrc 0) = true ∧ mgmtTakes tMgmt { tSrc 0 with port := 1 } = false ∧
    (∀ m ∈ tMgmt.mgmtOut, seqLt m.msg (7 : BitVec 32).toNat = false) ∧ (∀ m ∈ tMgmt.mgmtOut, seqLt m.msg (8 : BitVec 32).toNat = true) ∧ tMgmt.mgmtOut.length ≤ 16 ∧
    (tMgmt.mgmtOut.take 16).find? (fun m => m.msg == (7 : BitVec 32).toNat && !m.covered) = some tMsg ∧ mgmtUp tMgmt (1 - 0) = 0 ∧
    mgmtUp { tMgmt with regs := [(rMgmtStat, 20)] } (1 - 0) ≠ 0 ∧ (∀ x ∈ tMgmt.mgmtOut, x.msg = tMsg.msg → x = tMsg) ∧ State.reset.stbyUp = false := by
  decide +kernel
/-- R571: with ACK 7, SACK bit 0 covers message 8, and message 7 before it is sent again. -/
theorem test_mgmt_covered : ∃ s : State, s = { tMgmt with mgmtOut := [tMsg, { tMsg with msg := 8 }] } ∧ mgmtTakes s (tSrc 1) = true ∧ s.mgmtOut.length ≤ 16 ∧
    (∀ m ∈ s.mgmtOut, seqLt m.msg (7 : BitVec 32).toNat = false) ∧ s.mgmtOut.map (fun m => decide ((m.msg + 2 ^ 32 - 7 - 1) % 2 ^ 32 < 64)
      && (tSrc 1).sack.toNat.testBit ((m.msg + 2 ^ 32 - 7 - 1) % 2 ^ 32)) = [false, true] := ⟨_, rfl, by decide +kernel⟩
/-- R574: message numbers go around: 2^32 - 1 comes before 0. -/
theorem test_mgmt_wraps : seqLt (2 ^ 32 - 1) 0 = true ∧ seqLt 0 (2 ^ 32 - 1) = false := by decide

theorem test_units_in_service : inService tServed 2 31 = true ∧ inService tServed 4 (47 - 32) = true ∧ inService tServed 6 7 = true ∧
    inService tServed 8 31 = true ∧ inService tRun 6 7 = false := by decide +kernel
/-- The same with the RECOVERY log full, so that a reset's own entry is only counted. -/
def tFull : State := tRegs [(rErrHead 8, 0x4000000000000000), (rRecov 0xC0, -1), (rRecov 0xC8, -1), (rRecov 0xD0, -1), (rRecov 0xD8, -1)]
theorem test_home_reset : (openReset tFull 6 7 false).store = tFull.store := by decide +kernel
theorem test_home_windows : (homeWins 7).filter (fun w => winState tFull w == 4) = [] ∧
    (validRegions tFull).any (rgCoherent tFull) = false ∧ (validRegions tHost).any (rgCoherent tHost) = true := by decide +kernel
theorem test_channel_trains : trainRate [1600, 3600, 2400] [2400, 1600] = some 2400 ∧ trainRate [3600] [800] = none := by decide
theorem test_restore_due : { tRun with toRestore := [(4096 * 9, 4096)] }.toRestore.find? (fun p => p.1 / 4096 % 8 == 1) = some (4096 * 9, 4096) := by decide
theorem test_switch_reset : recovOf tFull 11 0 = none ∧ runningWins (openReset tFull 11 0 false) = [] := by decide +kernel

/-- A kernel that aborted in context 0 alone. -/
def tAborted : Kernel := { tKernel with lathes := [], fault := some ⟨17, 288, 0, false⟩, told := true }
theorem test_kernel_recovery : kernelOf { tRun with kernels := [tAborted] } 5 = some tAborted ∧ tAborted.fault ≠ none ∧ tAborted.frozen = false ∧
    tAborted.guilty = false ∧ tAborted.suspect = false ∧ kernelOf tLathe 5 = some tKernel ∧ tKernel.fault = none := by decide +kernel
/-- The suspect whose replay comes next: its context and kite go back to the units that they may use. -/
def tSuspect : Kernel := { tAborted with suspect := true, kites := [] }
def tReplay : State := { tServed with kernels := [tSuspect], hangs := [⟨288, [5], false⟩] }
theorem test_replay_due : kernelOf tReplay 5 = some tSuspect ∧
    (tReplay.hangs.find? (fun h => (replayOrder tReplay h).head? == some 5)).map (fun h => h.eng) = some 288 ∧
    tSuspect.replays = 0 ∧ (tSuspect.lathes.all (fun l => latheState tReplay l == 0)) = true ∧ tSuspect.ctxs.any (ctxUsed tReplay) = false ∧
    tSuspect.kites.any (kiteUsed tReplay) = false ∧
    replace tReplay 8 288 288 ((List.range 16).filter (fun g => decide (regFld tReplay (rGouge g 0) 3 0 < 3)))
      ((List.range 128).filter (ctxUsed tReplay)) tSuspect.ctxs = some [0] ∧
    replace tReplay 128 256 288 ((List.range 32).filter (fun x => decide (regFld tReplay (rWalker x 0) 3 0 < 3)))
      (if tSuspect.kites = [] then [] else (List.range 4096).filter (kiteUsed tReplay)) tSuspect.kites = some [] := by decide +kernel
theorem test_recovery_timers : regFld (tRegs [(rRecov 0, 5)]) (rRecov 0) 47 32 = 0 ∧ regFld (tRegs [(rRecov 0, 5 * 2 ^ 32)]) (rRecov 0) 47 32 ≠ 0 ∧
    regBit tRun (rTether 15) 63 = false ∧ (recovOf tRun 16 5).isNone = true ∧
    (recovOf { tRun with recovs := [⟨16, 5, 0, []⟩] } 16 5).isNone = false ∧ ripHeld tRun = false := by decide +kernel
/-- R635, R636: a tether record of epoch 5 held by 0x0102, seen before, and an entry of the sweep over its region. -/
def tRecord : State :=
  { tRegs (tHostRegs ++ [(rTether 0, 0x8000003000000000)]) with mem := [(64, 5), (70, 2), (71, 1)], tetherSeen := [(64, 5 * 2 ^ 32)] }
theorem test_sweep_record : regBit tRecord (rTether 0) 63 = true ∧ regFld tRecord (rTether 0) 49 36 = 3 ∧ rgValid tRecord 3 = true ∧
    isPoisoned tRecord 64 = false ∧ lineFld (curLine tRecord 64) 0 6 = 5 ∧ tRecord.tetherSeen.contains (64, 5 * 2 ^ 32 + lineFld (curLine tRecord 64) 8 4) = true ∧
    lineFld (curLine tRecord 64) 6 2 = 0x0102 ∧ lineFld (curLine tRecord 64) 26 1 % 4 = 0 ∧
    { tRecord with tetherSeen := [] }.tetherSeen.contains (64, 5 * 2 ^ 32 + lineFld (curLine tRecord 64) 8 4) = false := by decide +kernel
/-- The same at the last epoch. -/
theorem test_sweep_last : ∃ s, s = { tRecord with mem := [(64, 255), (65, 255), (66, 255), (67, 255), (68, 255), (69, 255), (70, 2), (71, 1)]
                                                  tetherSeen := [(64, (2 ^ 48 - 1) * 2 ^ 32)] } ∧
    isPoisoned s 64 = false ∧ lineFld (curLine s 64) 0 6 + 1 = 2 ^ 48 ∧ lineFld (curLine s 64) 6 2 = 0x0102 ∧ lineFld (curLine s 64) 26 1 % 4 = 0 ∧
    s.tetherSeen.contains (64, lineFld (curLine s 64) 0 6 * 2 ^ 32 + lineFld (curLine s 64) 8 4) = true := ⟨_, rfl, by decide +kernel⟩

/-! ## Boot, power, clocks, counters, Tailstock and test access -/

/-- The block in STANDBY with its standby domain up and HEADSTOCK due. -/
def tStandby : State := { State.reset with aonUp := true, stbyUp := true, xtal := true, regs := [(rPwr 8, 2)] }

/-- R668: an empty slot fails the check of its magic number, CODE 2. -/
theorem test_headstock_due : HeadstockDue tStandby ∧ imageCheck (bootCounted tStandby) slotKey = some 2 := by unfold HeadstockDue; decide +kernel
/-- A slot whose image is well-formed: whether it passes is then its signature's alone (R668), which the model leaves free. -/
def tImage : State := { tStandby with
  mem := [(slotKey, 0x53), (slotKey + 1, 0x4B), (slotKey + 2, 0x49), (slotKey + 3, 0x4D), (slotKey + 4, 1), (slotKey + 17, 1)] }
theorem test_image_signed (h : Config.falconVerify (Config.romKey 0) (leBytes 64 (imgDigest (bootCounted tImage) slotKey).toNat)
      (memBytes (bootCounted tImage) (slotKey + 256) 1280) = true) :
    HeadstockDue tImage ∧ imageCheck (bootCounted tImage) slotKey = none := by
  refine ⟨by unfold HeadstockDue; decide +kernel, ?_⟩
  have a : imgSize (bootCounted tImage) slotKey = 256 := by decide +kernel
  have b : (bootCounted tImage).readN (slotKey + 6) 1 = 0 := by decide +kernel
  simp only [imageCheck, a, b]
  rw [if_neg (by decide +kernel), if_neg (by decide +kernel), if_neg (by decide +kernel), if_pos h]
theorem test_boot_others : bootState (tRegs [(rBoot 0, 1)]) ≠ 0 ∧ { tRun with imgFlags := 1 }.imgFlags % 2 = 1 ∧ tRun.imgFlags % 2 = 0 ∧
    (List.range 8).all (fun h => regBit (tRegs ((List.range 8).map (fun h => (rHome h 0, 1)))) (rHome h 0) 0) = true ∧
    tRun.inj = [] ∧ tRun.imgWrite = none := by decide +kernel

theorem test_power_up : State.reset.aonUp = false ∧ State.reset.stbyUp = false ∧ tStandby.stbyUp = true ∧ ripHeld tStandby = false ∧
    bootState tStandby ≠ 1 ∧ bootState (tRegs [(rBoot 0, 1)]) = 1 ∧ ripHeld (tRegs [(rRecov 8, 3)]) = true := by decide +kernel
theorem test_power_requests : ∃ u, u = regPut tStandby (rPwr 0) 1 0 0 ∧ u.stbyUp = true ∧ pwrState u = 2 ∧ bootState u ≠ 1 ∧ ripHeld u = false ∧
    u.hotJ < 95 := ⟨_, rfl, by decide +kernel⟩
theorem test_power_standby : ∃ u, u = regPut (tRegs [(rPwr 0, 4)]) (rPwr 0) 1 0 0 ∧ u.stbyUp = true ∧ ripHeld u = false ∧ 3 ≤ pwrState u ∧
    regBit u (rPwr 0) 2 = true := ⟨_, rfl, by decide +kernel⟩
/-- With the fast domain off and its stacks held, and the same while a whole-device reset would wake the device. -/
theorem test_power_stays : ∃ u, u = regPut { tStandby with regs := [(rPwr 0, 4), (rPwr 8, 2)] } (rPwr 0) 1 0 0 ∧ u.stbyUp = true ∧ ripHeld u = false ∧
    pwrState u < 3 ∧ u.recovs.any (fun r => r.kind == 15) = false ∧ regBit u (rPwr 0) 2 = true ∧ ripHeld { u with recovs := [⟨15, 0, 0, []⟩] } = false ∧
    { u with recovs := [⟨15, 0, 0, []⟩] }.recovs.any (fun r => r.kind == 15) = true := ⟨_, rfl, by decide +kernel⟩
theorem test_power_down : ∃ u, u = regPut (tRegs []) (rPwr 0) 1 0 0 ∧ 3 ≤ pwrState u ∧ regBit u (rPwr 0) 2 = false := ⟨_, rfl, by decide +kernel⟩
theorem test_waking : pwrState { tStandby with regs := [(rPwr 8, 3)] } = 3 ∧ pwrState tRun ≠ 3 ∧ 3 ≤ pwrState tRun := by decide +kernel

theorem test_ballast : tStandby.ballastQ = [] ∧ unitIdle tRun 4096 = true ∧ unitIdle tLathe 4096 = false := by decide +kernel
/-- R695, R696: at 115 °C or more the device trips, at 114 °C or less it does not; above the cap it throttles. -/
theorem test_samples : ∃ s u, s = tRegs [(rPwr 0x10, 1000), (rPwr 0x28, 0x0A5F0100)] ∧
    u = regPut (regPut { s with hotJ := 114 } (rPwr 8) 63 56 114) (rPwr 8) 55 40 65535 ∧ 3 ≤ pwrState u ∧
    (regFld u (rPwr 0x28) 15 0 < 65535 ∨ regFld s (rPwr 0x28) 23 16 ≤ 114) ∧
    arithMhz { u with coolRun := 0 } ≤ max 1200 (100 * regFld { u with coolRun := 0 } (rPwr 0x28) 31 24) ∧ pwrState tStandby < 3 ∧ 115 ≤ (115 : BitVec 8).toNat :=
  ⟨_, _, rfl, rfl, by decide +kernel⟩
/-- The clock at 2,000 MHz above its floor of 1,000 MHz and over the cap of 256 W; and nine samples well below cap and limit. -/
theorem test_samples_clock : ∃ s, s = tRegs [(rPwr 0x10, 2000), (rPwr 0x28, 0x0A5F0100)] ∧ regFld s (rPwr 0x28) 15 0 < (300 : BitVec 16).toNat ∧
    max 1200 (100 * regFld s (rPwr 0x28) 31 24) < arithMhz s ∧ 3 ≤ pwrState s ∧ 100 * (200 : BitVec 16).toNat < 95 * regFld s (rPwr 0x28) 15 0 ∧
    (80 : BitVec 8).toNat + 5 ≤ regFld s (rPwr 0x28) 23 16 ∧ { s with coolRun := 8 }.coolRun + 1 < 10 ∧ 9 ≤ { s with coolRun := 9 }.coolRun ∧
    arithMhz s < 2400 := ⟨_, rfl, by decide +kernel⟩
theorem test_rail_read : regBit (tRegs [(rPwr 0x138, 0x10000)]) (rPwr (0x100 + 8 * 7)) 16 = true := by decide +kernel
theorem test_counters_control : tRun.pmcHeld = [] ∧ regBit tRun (rPmu 8) 1 = false ∧ regBit { tRun with regs := tRun.regs ++ [(rPmu 8, 2)] } (rPmu 8) 1 = true ∧
    (regRow (rPmc 206 (0x80 + 8 * 1))).isSome = true ∧ pmcAt (rPmc 206 0x80) 0x80 = true ∧
    1 < regFld { tRun with regs := tRun.regs ++ [(rPmu 0x18, 0x20000)] } (rPmu 0x18) 28 16 ∧ regFld tRun (rPmu 0x18) 28 16 ≤ 0 := by decide +kernel

/-- The RUNNING block with a Tailstock session and the strap on. -/
def tTail : State := { tRun with tsOpen := true, tsEn := true }
theorem test_tailstock : tsAvail tTail = true ∧ tTail.tsOpen = true ∧ regFld tTail (rErrHead 11) 63 56 = 0 ∧ tTail.dumps = [] ∧ tTail.tsWait = none ∧
    tsAwaits tTail (tGa (ctrOff 0)) = true ∧ tsAwaits tTail (tGa 0) = false ∧
    (writeInj tTail (rSw 0x18) (1 + 256 * 0)).isSome = true ∧ regUp tTail (rSw 0x18) = true ∧ (writeInj tTail rAddrSelf 1).isNone = true ∧
    regBit tTail (rBoot 0xB0) 3 = false ∧ regBit (tRegs [(rBoot 0xB0, 8)]) (rBoot 0xB0) 3 = true ∧ bootState tTail ≠ 1 ∧
    tsAvail { tTail with production := true, tsEn := false } = false ∧ tsAvail { tRun with tsEn := true } = true := by decide +kernel
theorem test_tailstock_load : ∃ s u, s = tRegs [(rBoot 0, 2)] ∧ u = { (imagePart { s with imgRx := ⟨0, []⟩ } 2 0 0 []).2.2 with imgRx := ⟨0, []⟩ } ∧
    s.imgWrite = none ∧ bootState s ≠ 0 ∧ (imageCheck u stagedKey).isSome = true := ⟨_, _, rfl, rfl, by decide +kernel⟩
theorem test_tailstock_key : (List.replicate 1793 (0 : BitVec 8)).length = 1793 := List.length_replicate
theorem test_fast_off : fastOff tStandby = true ∧ fastOff tRun = false ∧ (255 : BitVec 8).toNat ∉ [0, 1, 2, 4, 5] := by decide +kernel
/-- R745: IDCODE shifts out its least significant bit, a one, first. -/
theorem test_idcode : ∃ t, exec .idcode tStandby = .next t ∧ t.jtag = 2 := ⟨_, rfl, rfl⟩

/-! ## Rules stated whole -/

/-- R324: infinity less infinity is the canonical NaN, and so is a sum with any NaN. -/
theorem test_nan : fadd 0x7F800000 0xFF800000 = 0x7FC00000 ∧ fadd 0xFFFFFFFF 0 = 0x7FC00000 ∧ f32 0x7FC00000 = .nan ∧ f32 (ffma 0x7FFFFFFF 0 0) = .nan ∧
    f32 (frcp 0xFFC00001) = .nan ∧ f32 (toF32 (elemVal 3 0x7E01)) = .nan ∧ elemVal 5 (toElem 5 .nan) = .nan := by decide +kernel
theorem test_nan_tensor : f32 (tmmaElem 1 1 0x7FC00000 [] [] [] [] 0 0) = .nan := by decide +kernel
theorem test_ranks : isNan32 0x7FC00000 = true ∧ isNan32 0 = false ∧ flt 0x80000001 1 = true ∧ fle 0x7FC00000 0 = false := by decide +kernel
theorem test_counted_area : ∃ a, a = (⟨chuckOff 0 4096, 1, 9, [], true, none⟩ : Area) ∧ a ∈ tLathe.areas ∧ (∀ b ∈ tLathe.areas, b.base = a.base → b = a) ∧
    a.armed = true ∧ 0 < a.lines ∧ a.arrived.contains 0 = false ∧ ({ a with arrived := [0] } : Area).arrived.contains 0 = true :=
  ⟨_, rfl, by decide +kernel⟩
theorem test_counted_window : mailbox (tRegs [(rWinStat 6, 8)]) 6 = true ∧ (windowWrite (tRegs [(rWinStat 6, 8)]) 6 64 0 1).1 = false ∧
    (winOf (tRegs [(rWinStat 6, 8)]) 6).arrived.contains (64 / 64) = false := by decide +kernel
/-- R692: a DEPTH of 63 written becomes 64, and 65 stays. -/
theorem test_depth : ∃ t u, exec (.ballastCfgWrite 0x3F0000) tStandby = .next t ∧ exec (.ballastCfgWrite 0x410000) tStandby = .next u ∧
    regFld t (rPwr 0x18) 23 16 = 64 ∧ regFld u (rPwr 0x18) 23 16 = 65 := ⟨_, _, rfl, rfl, by decide +kernel⟩

end Sys2Proof.Tests
end

section
/-! The register conventions (chapter 00): the values after reset, and what a register write does by access type. -/

namespace Sys2Proof.Machine

/-! ## The state after reset -/

/-- The register file of the reset state lists nothing, so every register reads what its map gives (R16). -/
@[simp] theorem reg_reset (off : Nat) : reg State.reset off = regReset off := rfl

theorem canonical_reset : Canonical State.reset :=
  ⟨⟨.nil, List.forall_mem_nil _⟩, ⟨.nil, List.forall_mem_nil _⟩, .nil, List.forall_mem_nil _⟩

theorem queueOk_reset : QueueOk State.reset := List.forall_mem_nil _

/-- Outside the two fixed words of the domain table, a register of no map holds zero. -/
theorem regReset_of_no_row {off : Nat} (hrow : regRow off = none) (h0 : off ≠ 0x200000) (h2 : off ≠ 0x200010) :
    regReset off = 0 := by
  simp [regReset, hrow, h0, h2]

/-- Outside the two fixed words of the domain table (R648), a register holds the reset value of its row. -/
theorem regReset_of_row {off : Nat} {r : RegRow} (hrow : regRow off = some r) (h0 : off ≠ 0x200000) (h2 : off ≠ 0x200010) :
    regReset off = BitVec.ofNat 64 r.reset := by
  simp [regReset, hrow, h0, h2]

/-- Settles O6: the register file starts empty, so each register reads its map's value, and the named fields are read off the maps. -/
theorem resetStateValues : Obligations.ResetStateValues := by
  refine ⟨⟨canonical_reset, queueOk_reset, rfl, rfl⟩, reg_reset, ?power, ?first, ?last, rfl, ?unmapped, ?mapped⟩
  case power => decide
  case first => decide
  case last => decide
  case unmapped =>
    intro off hrow h0 h2
    rw [reg_reset, regReset_of_no_row hrow h0 h2]
  case mapped =>
    intro r _ hrow h0 h2
    rw [reg_reset, regReset_of_row hrow h0 h2]

/-! ## Register writes -/

section
variable {s : State}

/-- R12, R13: a write that is narrower or wider than its register, or unaligned, is an access error and nothing else. -/
theorem exec_registerWrite_of_misfit {off : BitVec 28} {width : BitVec 8} (v : BitVec 64) (hup : s.stbyUp = true)
    (hfit : width ≠ 8 ∨ off.toNat % 8 ≠ 0) : exec (.registerWrite off width v) s = .next (cwAccessErr s off.toNat 0) := by
  have hmis : ¬ (width = 8 ∧ off.toNat % 8 = 0) := by tauto
  change Host.Outcome.next (doRegisterWrite off width v s) = _
  rw [doRegisterWrite, if_neg (by simp [hup]), if_neg hmis]

/-- A full-width aligned write is the register's own write, in domain 0. -/
theorem exec_registerWrite_of_fit {off : BitVec 28} (v : BitVec 64) (hup : s.stbyUp = true) (hoff : off.toNat % 8 = 0) :
    exec (.registerWrite off 8 v) s = .next (regWrite s 0 off.toNat v) := by
  change Host.Outcome.next (doRegisterWrite off 8 v s) = _
  simp [doRegisterWrite, hup, hoff]

theorem plainWrite_of_row {off : Nat} {v : Word} {r : RegRow} (hrow : regRow off = some r) :
    plainWrite s off v = regSet s off (((reg s off &&& ~~~(BitVec.ofNat 64 r.rw)) ||| (v &&& BitVec.ofNat 64 r.rw)) &&&
      ~~~(v &&& BitVec.ofNat 64 r.w1c)) := by
  simp [plainWrite, hrow]

/-- The single registers, SW_MIRROR aside, that `regWrite` does not write by access type alone: ORPH_ACK, DUMP_CTL, PWR_CTL, BALLAST_CFG
and four of the central performance block. -/
def actionRegs : List Nat :=
  [0x5040088, rRecov 0x110, rPwr 0, rPwr 0x18, rPmu 0, rPmu 0x10, rPmu 0x20, rPmu 0x30]

/-- R14: a powered register that names no action is written by its access type, after the clock of its unit was asked for (R685). -/
theorem regWrite_of_no_action {off : Nat} {v : Word} (hup : regUp s off = true)
    (hinj : writeInj (touchUnit s off) off v.toNat = none) (hact : off ∉ actionRegs) (hmir : off ≠ rSw 0x20)
    (hack : unitAt off 0x5001008 12 16 = none) (hcnt : pmcAt off 0x80 = false) :
    regWrite s 0 off v = plainWrite (touchUnit s off) off v := by
  simp only [actionRegs, List.mem_cons, List.not_mem_nil, or_false, not_or] at hact
  simp [regWrite, hup, hinj, hact, hmir, hack, hcnt]

/-- The law that O30 states holds of every register but SW_MIRROR. -/
theorem exec_registerWrite_of_no_action {off : BitVec 28} {v : BitVec 64} {r : RegRow} (hoff : off.toNat % 8 = 0)
    (hup : regUp s off.toNat = true) (hrow : regRow off.toNat = some r)
    (hinj : writeInj (touchUnit s off.toNat) off.toNat v.toNat = none) (hact : off.toNat ∉ actionRegs) (hmir : off.toNat ≠ rSw 0x20)
    (hack : unitAt off.toNat 0x5001008 12 16 = none) (hcnt : pmcAt off.toNat 0x80 = false) :
    exec (.registerWrite off 8 v) s = .next (regSet (touchUnit s off.toNat) off.toNat
      (((reg (touchUnit s off.toNat) off.toNat &&& ~~~(BitVec.ofNat 64 r.rw)) ||| (v &&& BitVec.ofNat 64 r.rw)) &&&
        ~~~(v &&& BitVec.ofNat 64 r.w1c))) := by
  have hstby : s.stbyUp = true := by
    rw [regUp, Bool.and_eq_true] at hup
    exact hup.1
  rw [exec_registerWrite_of_fit v hstby hoff, regWrite_of_no_action hup hinj hact hmir hack hcnt, plainWrite_of_row hrow]

/-- SW_MIRROR belongs to no unit whose clock starts with work. -/
@[simp] theorem touchUnit_mirror : touchUnit s (rSw 0x20) = s := rfl

@[simp] theorem writeInj_mirror (n : Nat) : writeInj s (rSw 0x20) n = none := rfl

/-- A write to SW_MIRROR acts on the mirror (R545). -/
theorem regWrite_mirror (v : Word) (hup : regUp s (rSw 0x20) = true) : regWrite s 0 (rSw 0x20) v = mirrorWrite s v := by
  have hact : rSw 0x20 ∉ actionRegs := by decide
  have hack : unitAt (rSw 0x20) 0x5001008 12 16 = none := by decide
  simp only [actionRegs, List.mem_cons, List.not_mem_nil, or_false, not_or] at hact
  simp [regWrite, hup, hact, hack]

/-- R545: mirroring counts from the moment EN is set. -/
theorem mirrorWrite_mirCnt_of_rise {v : Word} (hset : v.toNat.testBit 63 = true) (hclear : regBit s (rSw 0x20) 63 = false) :
    (mirrorWrite s v).mirCnt = 0 := by
  simp [mirrorWrite, hset, hclear]

end

/-- A RUNNING block whose mirror is off and had counted one cell while it was on. -/
def mirrorStopped : State := { State.reset with stbyUp := true, regs := [(rPwr 8, 4)], mirCnt := 1 }

/-- Refutes O30: its list of registers that name an action leaves out SW_MIRROR, whose write also starts the count of cells anew when it
sets EN (R545). In `mirrorStopped` that count is 1 and becomes 0, where a write by access type alone leaves it. -/
theorem not_registerWritesByType : ¬ Obligations.RegisterWritesByType := by
  unfold Obligations.RegisterWritesByType
  intro h
  obtain ⟨-, hplain⟩ := h mirrorStopped 0x2100020 8 0x8000000000000000 rfl
  have hup : regUp mirrorStopped (rSw 0x20) = true := by decide
  have hwrite := hplain _ _ rfl rfl rfl hup rfl (writeInj_mirror _) (by decide) (by decide) (by decide)
  rw [exec_registerWrite_of_fit _ rfl rfl] at hwrite
  have hkept : (regWrite mirrorStopped 0 (rSw 0x20) 0x8000000000000000).mirCnt = 1 :=
    congrArg State.mirCnt (Host.Outcome.next.inj hwrite)
  have hrestarted : (regWrite mirrorStopped 0 (rSw 0x20) 0x8000000000000000).mirCnt = 0 := by
    rw [regWrite_mirror _ hup]
    exact mirrorWrite_mirCnt_of_rise (by decide) (by decide)
  exact absurd (hkept.symm.trans hrestarted) (by decide)

end Sys2Proof.Machine
end

section
/-! Chapter 02: what the tier cache, the frames, and the mirror and parity covers do with what arrives (R60 to R62, R98 to R104, R176,
R651, R756, R758). -/

namespace Sys2Proof.Machine

/-- While RUNNING a command of a fast domain acts. -/
theorem whenRunning_of_running {s : State} (hrun : running s = true) (f : State → State) : whenRunning s f = f s :=
  if_pos hrun

/-! ## Registers that an update leaves alone -/

/-- Registers are read the same in a state that differs only elsewhere. -/
theorem reg_congr {s t : State} (hregs : t.regs = s.regs) (off : Nat) : reg t off = reg s off := by
  rw [reg, reg, hregs]

/-- A route rests on the registers alone. -/
theorem route_congr {s t : State} (hregs : t.regs = s.regs) (a : Nat) : route t a = route s a := by
  unfold route regFld
  rw [reg_congr hregs]

theorem reg_regSet_ne (s : State) {off other : Nat} (v : Word) (hne : other ≠ off) : reg (regSet s off v) other = reg s other :=
  Sparse.get_set_ne _ _ _ _ hne

theorem reg_regPut_ne (s : State) {off other : Nat} (hi lo v : Nat) (hne : other ≠ off) :
    reg (regPut s off hi lo v) other = reg s other :=
  reg_regSet_ne s _ hne

theorem reg_setBit_ne (s : State) {off other : Nat} (b : Nat) (hne : other ≠ off) : reg (setBit s off b) other = reg s other :=
  reg_regPut_ne s b b 1 hne

theorem reg_ite (c : Prop) [Decidable c] (s t : State) (off : Nat) :
    reg (if c then s else t) off = if c then reg s off else reg t off :=
  apply_ite (reg · off) c s t

/-! ## What a line in a ring leaves alone (R104, R178) -/

section
variable (s : State) {off : Nat} (hoff : off < 0x7000000)
include hoff

/-- A performance count changes registers of the performance blocks alone, which lie from 0x7000000 on. -/
theorem reg_pmcAdd_of_lt (b i n : Nat) : reg (pmcAdd s b i n) off = reg s off := by
  have hpmc : ∀ k, off ≠ rPmc b k := fun k => by unfold rPmc; omega
  have hpmu : off ≠ rPmu 8 := by unfold rPmu; omega
  simp only [pmcAdd, reg_ite, reg_regPut_ne _ _ _ _ (hpmc _), reg_setBit_ne _ _ (hpmc _), reg_setBit_ne _ _ hpmu, ite_self]

theorem reg_pmc_of_lt (b i n : Nat) (dom : Option Nat) : reg (pmc s b i n dom) off = reg s off := by
  rw [pmc]
  split
  · rfl
  · exact reg_pmcAdd_of_lt s hoff b i n

theorem reg_countedWrite_of_lt (a : Area) (x dom : Nat) (d : LineData) : reg (countedWrite s a x dom d) off = reg s off := by
  rw [countedWrite]
  split
  · rfl
  · exact reg_pmc_of_lt _ hoff _ _ _ _

theorem reg_ringPut_of_lt (m pos dom : Nat) (d : LineData) : reg (ringPut s m pos dom d) off = reg s off := by
  simp only [ringPut]
  split
  · rw [reg_countedWrite_of_lt _ hoff]
    split <;> rfl
  · split <;> rfl

theorem reg_ringLine_of_lt (m : Nat) (d : LineData) : reg (ringLine s m d) off = reg s off := by
  simp only [ringLine]
  rw [reg_ringPut_of_lt _ hoff]
  split <;> rfl

end

/-- The controller's own number stands in ADDR_SELF, below every performance register. -/
theorem regFld_addrSelf_ringLine (s : State) (m hi lo : Nat) (d : LineData) :
    regFld (ringLine s m d) rAddrSelf hi lo = regFld s rAddrSelf hi lo := by
  rw [regFld, regFld, reg_ringLine_of_lt s (by decide)]

/-! ## Units that arrive (R55, R60 to R62) -/

/-- Not served from the stream: a unit whose region is not STREAM, or which a PREFETCH has named. -/
theorem isStream_eq_false {s : State} {r u : Nat} (hkept : rgPlace s r ≠ 3 ∨ s.nameds.any (fun p => p.2 == u) = true) :
    (decide (rgPlace s r = 3) && !s.nameds.any (fun p => p.2 == u)) = false := by
  rcases hkept with hplace | hnamed
  · rw [decide_eq_false hplace, Bool.false_and]
  · rw [hnamed, Bool.not_true, Bool.and_false]

section
variable {s : State} {u : BitVec 96} (hrun : running s = true) (hfetch : s.fetches.contains u.toNat = true)
  (hread : s.reading.any (fun e => e.1 == u.toNat) = true)
include hrun hfetch hread

theorem exec_unitFetchDone_of_restore (hwait : awaitsRestore s (u.toNat * 65536) = true) :
    exec (.unitFetchDone u) s = .next (serveUnit (restored s (u.toNat * 65536) 65536) u.toNat) := by
  change Host.Outcome.next (doUnitFetchDone u s) = _
  simp only [doUnitFetchDone, whenRunning_of_running hrun, hfetch, hread, hwait, Bool.not_true, Bool.or_self, Bool.false_eq_true,
    if_false, if_true]

variable {r : Nat} (hwait : awaitsRestore s (u.toNat * 65536) = false) (hreg : unitRegion u.toNat = some r)
include hwait hreg

theorem exec_unitFetchDone_of_stream (hplace : rgPlace s r = 3) (hnamed : s.nameds.any (fun p => p.2 == u.toNat) = false) :
    exec (.unitFetchDone u) s = .next (serveHeld s u.toNat) := by
  change Host.Outcome.next (doUnitFetchDone u s) = _
  simp only [doUnitFetchDone, whenRunning_of_running hrun, hfetch, hread, hwait, hreg, hplace, hnamed, decide_true, Bool.not_true,
    Bool.not_false, Bool.or_self, Bool.and_self, Bool.false_eq_true, if_false, if_true]

variable (hkept : rgPlace s r ≠ 3 ∨ s.nameds.any (fun p => p.2 == u.toNat) = true)
  (hnew : s.tierCache.any (fun e => e.key == u.toNat) = false)
include hkept hnew

theorem exec_unitFetchDone_of_frame {t : State} (hframe : cacheFrame s = some t) :
    exec (.unitFetchDone u) s = .next (serveUnit { t with tierCache := t.tierCache ++ [⟨u.toNat, true⟩] } u.toNat) := by
  change Host.Outcome.next (doUnitFetchDone u s) = _
  simp only [doUnitFetchDone, whenRunning_of_running hrun, hfetch, hread, hwait, hreg, isStream_eq_false hkept, hnew, hframe,
    Bool.not_true, Bool.or_self, Bool.false_eq_true, if_false]

theorem exec_unitFetchDone_of_no_frame (hframe : cacheFrame s = none) : exec (.unitFetchDone u) s = .next (serveHeld s u.toNat) := by
  change Host.Outcome.next (doUnitFetchDone u s) = _
  simp only [doUnitFetchDone, whenRunning_of_running hrun, hfetch, hread, hwait, hreg, isStream_eq_false hkept, hnew, hframe,
    Bool.not_true, Bool.or_self, Bool.false_eq_true, if_false]

end

/-! ## Frames and deferred deletions (R651, R758) -/

section
variable {s : State} (hrun : running s = true)
include hrun

theorem exec_frameZeroed_of_dirty (hdirty : s.dirtyFrames ≠ 0) :
    exec .frameZeroed s = .next { s with dirtyFrames := s.dirtyFrames - 1, freeFrames := s.freeFrames + 1 } := by
  change Host.Outcome.next (doFrameZeroed s) = _
  rw [doFrameZeroed, whenRunning_of_running hrun, if_neg hdirty]

theorem exec_regionDeleteFinal_of_free {r : Fin 16384} (hvalid : rgValid s r.val = true) (hdel : rgDeleting s r.val = true)
    (hfree : regionHeld s r.val = false) : exec (.regionDeleteFinal r) s = .next (deleteRegion s r.val) := by
  change Host.Outcome.next (doRegionDeleteFinal r s) = _
  simp only [doRegionDeleteFinal, whenRunning_of_running hrun, hvalid, hdel, hfree, Bool.not_false, Bool.and_self, if_true]

end

/-! ## Mirror covers (R98, R100) -/

/-- An acknowledgement ends the oldest message of its kind for a line of this controller. -/
theorem coverAck_of_own {s : State} {kind a off : Nat} {e : Nat × Nat} (hroute : route s a = .own off)
    (hold : coverOldest s kind a = some e) : coverAck s kind a = coverDone { s with coverSent := s.coverSent.erase e } off := by
  simp only [coverAck, hold]
  rw [route_congr (s := s), hroute]
  rfl

section
variable {s : State} (hrun : running s = true)
include hrun

section
variable {port : Fin 16} {txn : BitVec 12} {addr : BitVec 60} (data : LineData) (haddr : addr.toNat % 64 = 0)
include haddr

theorem exec_mirrorPeerWrite_of_own {off : Nat} (hroute : route s addr.toNat = .own off) :
    exec (.mirrorPeerWrite ⟨port, txn, addr⟩ data) s = .next (coverAck s 0 addr.toNat) := by
  change Host.Outcome.next (doMirrorPeerWrite ⟨port, txn, addr⟩ data s) = _
  have hline : addr.toNat / 64 * 64 = addr.toNat := Nat.div_mul_cancel (Nat.dvd_of_mod_eq_zero haddr)
  simp only [doMirrorPeerWrite, whenRunning_of_running hrun, hline, hroute]

theorem exec_mirrorPeerWrite_of_peer {slot off : Nat} (hroute : route s addr.toNat = .peer slot off) :
    exec (.mirrorPeerWrite ⟨port, txn, addr⟩ data) s =
      .next (sendResp (s.putLine (mirrorKey (regFld s rAddrSelf 9 4 * 16 + slot) off) data) (18 + homeOf off) port.val
        (regFld s rAddrSelf 9 4 * 16 + slot) addr.toNat 0x26 txn.toNat 0 0 false false [11] 0) := by
  change Host.Outcome.next (doMirrorPeerWrite ⟨port, txn, addr⟩ data s) = _
  have hline : addr.toNat / 64 * 64 = addr.toNat := Nat.div_mul_cancel (Nat.dvd_of_mod_eq_zero haddr)
  simp only [doMirrorPeerWrite, whenRunning_of_running hrun, hline, hroute]

end

/-- The regions that a lost mirror peer degrades, besides those that were before (R100). -/
def degradedBy (s : State) (peer : Nat) : List Nat :=
  ((validRegions s).filter (fun r => rgProtect s r == 1 && rgPeer s r == peer)).foldl Sparse.add s.degraded

/-- A lost peer to which no message is out degrades its regions and ends no wait. -/
theorem exec_mirrorPeerLost_of_none_sent {peer : BitVec 10} (hsent : ∀ e ∈ s.coverSent, e.2 ≠ 2 * peer.toNat) :
    exec (.mirrorPeerLost peer) s = .next (dropOldPeer { s with degraded := degradedBy s peer.toNat } peer.toNat) := by
  change Host.Outcome.next (doMirrorPeerLost peer s) = _
  have hdue : s.coverSent.filter (fun e => e.2 == 2 * peer.toNat) = [] :=
    List.filter_eq_nil_iff.mpr fun e he => by simpa using hsent e he
  have hkept : s.coverSent.filter (fun e => e.2 != 2 * peer.toNat) = s.coverSent :=
    List.filter_eq_self.mpr fun e he => by simpa using hsent e he
  rw [doMirrorPeerLost, whenRunning_of_running hrun]
  simp only [hdue, hkept]
  rfl

/-- A lost peer to which the one message that is out went: what waited for it goes on. -/
theorem exec_mirrorPeerLost_of_one_sent {peer : BitVec 10} {a off : Nat} (hsent : s.coverSent = [(a, 2 * peer.toNat)])
    (hroute : route s a = .own off) : exec (.mirrorPeerLost peer) s =
      .next (coverDone (dropOldPeer { s with degraded := degradedBy s peer.toNat, coverSent := [] } peer.toNat) off) := by
  change Host.Outcome.next (doMirrorPeerLost peer s) = _
  rw [doMirrorPeerLost, whenRunning_of_running hrun]
  simp only [hsent, List.filter_cons, List.filter_nil, beq_self_eq_true, bne_self_eq_false, Bool.false_eq_true, if_false, if_true,
    List.map_cons, List.map_nil, (List.nodup_singleton a).dedup, forEach, List.foldl_cons, List.foldl_nil]
  rw [route_congr (s := s), hroute] <;> rfl

end

/-! ## Parity folds and new covers (R100, R104, R756) -/

section
variable {s : State} (hrun : running s = true)
include hrun

/-- The acknowledgement goes to a controller of this box: the number of the box stands in ADDR_SELF, which the record's two lines leave
alone. -/
theorem exec_parityFoldRecord (slot : Fin 16) (unit : BitVec 32) (line : Fin 1024) (addr : BitVec 60) (delta : LineData) {t : State}
    (ht : t = ringLine (ringLine s slot.val (BitVec.ofNat 512 (unit.toNat + line.val * 2 ^ 32))) slot.val delta) {pos : Nat}
    (hpos : pos = Sparse.get t.ringPos (2 * slot.val) 0) :
    exec (.parityFoldRecord slot unit line addr delta) s = .next (sendReq
      { (t.putLine (poolKey unit.toNat line.val) (t.readLine (poolKey unit.toNat line.val) ^^^ delta)) with
        ringPos := Sparse.ins t.ringPos (2 * slot.val) ((pos + 64) % 2 ^ 20) } (18 + line.val / 64 % 8) 6
      (regFld s rAddrSelf 9 4 * 16 + slot.val) (ringAddr t slot.val pos) 0 .agent [11, addr.toNat] 0 (BitVec.ofNat 512 addr.toNat)) := by
  have hself : regFld s rAddrSelf 9 4 = regFld t rAddrSelf 9 4 := by
    rw [ht, regFld_addrSelf_ringLine, regFld_addrSelf_ringLine]
  rw [hself, hpos, ht]
  exact congrArg Host.Outcome.next (whenRunning_of_running hrun _)

theorem exec_parityFoldAck_of_none {addr : BitVec 60} (hold : coverOldest s 1 addr.toNat = none) :
    exec (.parityFoldAck addr) s = .next s := by
  change Host.Outcome.next (doParityFoldAck addr s) = _
  rw [doParityFoldAck, whenRunning_of_running hrun, hold]

theorem exec_parityFoldAck_of_some {addr : BitVec 60} {e : Nat × Nat} (hold : coverOldest s 1 addr.toNat = some e) :
    exec (.parityFoldAck addr) s = .next (coverAck (ringLine s (e.2 / 2) (BitVec.ofNat 512 addr.toNat)) 1 addr.toNat) := by
  change Host.Outcome.next (doParityFoldAck addr s) = _
  rw [doParityFoldAck, whenRunning_of_running hrun, hold]

theorem exec_peerCopyDone_of_degraded {r : Fin 16384} (hlost : s.degraded.contains r.val = true) :
    exec (.peerCopyDone r) s = .next s := by
  change Host.Outcome.next (doPeerCopyDone r s) = _
  simp only [doPeerCopyDone, whenRunning_of_running hrun, hlost, if_true]

/-- A complete cover is no longer being copied; what the old cover was says how it is released: a mirror peer (1) is told, a parity
pool (2) loses the region's frames. -/
theorem exec_peerCopyDone_of_copied {r : Fin 16384} {prot peer pgroup : Nat} {t : State} (hlive : s.degraded.contains r.val = false)
    (hcopy : s.copying.find? (fun e => e.1 == r.val) = some (r.val, prot, peer, pgroup))
    (ht : t = { s with copying := s.copying.filter (fun x => x.1 != r.val) }) :
    (prot = 0 → exec (.peerCopyDone r) s = .next t) ∧
    (prot = 1 → exec (.peerCopyDone r) s = .next (send t (.peer peer (globalAddr t (rgBase t r.val)) [16] 0))) ∧
    (prot = 2 → exec (.peerCopyDone r) s = .next (poolDrop t pgroup (fun k => regionOfKey t k == some r.val))) := by
  change (_ → Host.Outcome.next (doPeerCopyDone r s) = _) ∧ (_ → Host.Outcome.next (doPeerCopyDone r s) = _) ∧
    (_ → Host.Outcome.next (doPeerCopyDone r s) = _)
  rw [doPeerCopyDone, whenRunning_of_running hrun, hlive, if_neg Bool.false_ne_true, hcopy, ht]
  refine ⟨?uncovered, ?mirror, ?parity⟩
  case uncovered => rintro rfl; rfl
  case mirror => rintro rfl; rfl
  case parity => rintro rfl; rfl

end

/-- Settles O34, clause by clause from the equations of the commands that arrive. -/
theorem coversAndFramesAct : Obligations.CoversAndFramesAct := by
  intro s hrun
  refine ⟨?fetch, ?zeroed, ?deleted, ?mirror, ?ack, ?lost, ?fold, ?foldAck, ?copyLost, ?copyDone⟩
  case fetch =>
    intro u hfetch hread
    refine ⟨exec_unitFetchDone_of_restore hrun hfetch hread, fun r hwait hreg =>
      ⟨exec_unitFetchDone_of_stream hrun hfetch hread hwait hreg, fun hkept hnew => ⟨fun t hframe => ?_, fun hframe => ?_⟩⟩⟩
    · exact exec_unitFetchDone_of_frame hrun hfetch hread hwait hreg hkept hnew hframe
    · exact exec_unitFetchDone_of_no_frame hrun hfetch hread hwait hreg hkept hnew hframe
  case zeroed => exact exec_frameZeroed_of_dirty hrun
  case deleted => exact fun r => exec_regionDeleteFinal_of_free hrun
  case mirror =>
    intro port txn addr data haddr
    refine ⟨fun off hroute => exec_mirrorPeerWrite_of_own hrun data haddr hroute, ?_⟩
    rintro slot off c hroute rfl
    exact exec_mirrorPeerWrite_of_peer hrun data haddr hroute
  case ack => exact fun kind a off e hroute hold => coverAck_of_own hroute hold
  case lost =>
    rintro peer d rfl
    exact ⟨exec_mirrorPeerLost_of_none_sent hrun, fun a off hsent hroute => exec_mirrorPeerLost_of_one_sent hrun hsent hroute⟩
  case fold => exact fun slot unit line addr delta => ⟨_, _, rfl, rfl, exec_parityFoldRecord hrun slot unit line addr delta rfl rfl⟩
  case foldAck => exact fun addr => ⟨exec_parityFoldAck_of_none hrun, fun e hold => exec_parityFoldAck_of_some hrun hold⟩
  case copyLost => exact fun r hlost => exec_peerCopyDone_of_degraded hrun hlost
  case copyDone => exact fun r prot peer pgroup t hlive hcopy ht => exec_peerCopyDone_of_copied hrun hlive hcopy ht

end Sys2Proof.Machine
end

section
/-! Chapter 02: drafts and their publication, from DRAFT_OPEN to the commit point (R74 to R92, R125, R154). -/

namespace Sys2Proof.Machine

/-! ## Commands on drafts (R74, R80, R92) -/

section
variable {s : State} {w : Fin 1024}

/-- The DRAFT_STAT word of a new draft of a region (R74): OPEN, its region, its domain and its slots of 256 GiB. -/
def openStat (s : State) (w : Nat) : Word :=
  BitVec.ofNat 64 (2 ^ 61 + hdr s w 36 2 * 2 ^ 44 + winDom s w * 2 ^ 36 + (rgSize s (hdr s w 36 2) + 2 ^ 38 - 1) / 2 ^ 38 * 2 ^ 24)

/-- A new draft in slot `d`, based on CURRENT and counted by its region (R74). -/
def draftOpened (s : State) (w d : Nat) : State :=
  let t := regSet s (rDraftStat d) (openStat s w)
  let t := regSet t (rDraftBase d) (BitVec.ofNat 64 (rgCurrent t (hdr s w 36 2)))
  rgPut t (hdr s w 36 2) 271 256 (rgFld t (hdr s w 36 2) 271 256 + 1)

theorem exec_draftOpen_of_slots {d : Nat} (hserve : serving s w 5 = true) (hlt : hdr s w.val 36 2 < 16384)
    (hvalid : rgValid s (hdr s w.val 36 2) = true) (hver : rgVersioned s (hdr s w.val 36 2) = true)
    (hdel : rgDeleting s (hdr s w.val 36 2) = false) (hpermit : permitRegion s (winDom s w.val) (hdr s w.val 36 2) true = true)
    (hturn : regionDeciding s (hdr s w.val 36 2) = false)
    (hquota : regFld s (rQuota (winDom s w.val) 5) 10 0 < regFld s (rQuota (winDom s w.val) 4) 10 0)
    (hslots : freeSlots s ((rgSize s (hdr s w.val 36 2) + 2 ^ 38 - 1) / 2 ^ 38) = some d) :
    exec (.draftOpen w) s =
      .next (complete (regAdd (draftOpened s w.val d) (rQuota (winDom s w.val) 5) 10 0 1) w.val { status := 0, v0 := d }) := by
  have hregion : ¬ (16384 ≤ hdr s w.val 36 2 ∨ !rgValid s (hdr s w.val 36 2) ∨ !rgVersioned s (hdr s w.val 36 2) ∨
      rgDeleting s (hdr s w.val 36 2)) := by simp [hlt, hvalid, hver, hdel]
  change Host.Outcome.next (doDraftOpen w s) = _
  simp only [doDraftOpen, hserve, hregion, hpermit, hturn, Nat.not_le.mpr hquota, hslots, Bool.not_true, Bool.false_eq_true, if_false]
  rfl

theorem exec_draftDiscard_of_bare (hserve : serving s w 7 = true) (hopen : draftStateOf s (hdr s w.val 36 2) = 1)
    (hpermit : permitRegion s (winDom s w.val) (drRegion s (hdr s w.val 36 2)) true = true)
    (hbound : draftBound s (hdr s w.val 36 2) = false) (hunits : draftOwn s (hdr s w.val 36 2) = [])
    (hmaps : draftOwnMaps s (hdr s w.val 36 2) = [])
    (hvolatile : rgDurable (freeDraft s (hdr s w.val 36 2)) (drRegion s (hdr s w.val 36 2)) = false) :
    exec (.draftDiscard w) s =
      .next (complete (sweepVersions (freeDraft s (hdr s w.val 36 2)) (drRegion s (hdr s w.val 36 2))) w.val { status := 0 }) := by
  change Host.Outcome.next (doDraftDiscard w s) = _
  simp [doDraftDiscard, hserve, hopen, hpermit, hbound, hunits, hmaps, hvolatile]

/-- The draft that a PUBLISH names is in SEALING, its publish on record (R80). -/
def draftSealing (s : State) (w : Nat) : State :=
  regPut { s with pubs := s.pubs ++ [⟨hdr s w 36 2, w, hdr s w 40 6, draftPoison s (hdr s w 36 2), 0⟩] }
    (rDraftStat (hdr s w 36 2)) 63 61 2

theorem exec_publish_of_open (hserve : serving s w 6 = true) (hopen : draftStateOf s (hdr s w.val 36 2) = 1)
    (hpermit : permitRegion s (winDom s w.val) (drRegion s (hdr s w.val 36 2)) true = true)
    (hdel : rgDeleting s (drRegion s (hdr s w.val 36 2)) = false) :
    exec (.publish w) s = .next (recallAll
      (unitLookups (draftSealing s w.val) (draftOwn (draftSealing s w.val) (hdr s w.val 36 2))).1
      (draftHeld (unitLookups (draftSealing s w.val) (draftOwn (draftSealing s w.val) (hdr s w.val 36 2))).1 (hdr s w.val 36 2))) := by
  change Host.Outcome.next (doPublish w s) = _
  simp only [doPublish, hserve, hopen, hpermit, hdel, Bool.not_true, Bool.false_eq_true, ne_eq, not_true_eq_false, if_false]
  rfl

end

/-! ## A sealed draft's compare (R80, R82, R84) -/

section
variable {s : State} {d : Fin 1024} {p : Pub} (hrun : running s = true) (hpub : s.pubs.find? (fun p => p.draft == d.val) = some p)
include hrun hpub

section
variable (hstate : drState s d.val = 2) (hheld : draftHeld s d.val = [])
  (hquiet : s.trk.any (fun t => (draftOwn s d.val).contains (t.req.off / 65536) && lineActive s t.req.off) = false)
  (hrecall : s.recallq.any (fun q => (draftOwn s d.val).contains (q.line * 64 / 65536)) = false)
  (hkernels : s.kernels.any (fun k => k.slots.any (fun x => x.draft == some d.val && x.role == 3 && x.ctrl == ownCtrl s)) = false)
include hstate hheld hquiet hrecall hkernels

theorem exec_sealComplete_of_poison (hpoison : (draftPoison s d.val).any (fun l => !p.poisoned.contains l) = true) :
    exec (.sealComplete d) s = .next (endPublish s p 1 { status := 9 }) := by
  change Host.Outcome.next (doSealComplete d s) = _
  simp only [doSealComplete, whenRunning_of_running hrun, hpub, hstate, hheld, hquiet, hrecall, hkernels, hpoison, ne_eq,
    not_true_eq_false, Bool.or_self, Bool.false_eq_true, or_self, if_false, if_true]

variable (hclean : (draftPoison s d.val).any (fun l => !p.poisoned.contains l) = false)
include hclean

theorem exec_sealComplete_of_conflict (hmoved : rgCurrent s (drRegion s d.val) ≠ p.pred) :
    exec (.sealComplete d) s = .next (endPublish s p 5 { status := 3, v0 := rgCurrent s (drRegion s d.val) }) := by
  change Host.Outcome.next (doSealComplete d s) = _
  simp only [doSealComplete, whenRunning_of_running hrun, hpub, hstate, hheld, hquiet, hrecall, hkernels, hclean, hmoved, ne_eq,
    not_true_eq_false, not_false_eq_true, Bool.or_self, Bool.false_eq_true, or_self, if_false, if_true]

variable (hcurrent : rgCurrent s (drRegion s d.val) = p.pred) (hnext : p.pred ≠ 2 ^ 48 - 1)
include hcurrent hnext

/-- A draft whose predecessor is CURRENT goes on to WRITING when its region is DURABLE, else to be decided. -/
theorem exec_sealComplete_of_current : exec (.sealComplete d) s = .next (if rgDurable s (drRegion s d.val) = true
    then writeStage (forEach (s.store.filter (fun e => (draftOwn s d.val).contains (e.line * 64 / 65536)))
      (regPut s (rDraftStat d.val) 63 61 3) storeEvict) p 1
    else regPut s (rDraftStat d.val) 63 61 4) := by
  change Host.Outcome.next (doSealComplete d s) = _
  simp only [doSealComplete, whenRunning_of_running hrun, hpub, hstate, hheld, hquiet, hrecall, hkernels, hclean, hcurrent, hnext,
    ne_eq, not_true_eq_false, Bool.or_self, Bool.false_eq_true, or_self, if_false]

end

/-! ## WRITING (R154) -/

section
variable {acc : List (BitVec 40)} {u : State} (hstate : drState s d.val = 3)
  (hu : u = { s with contribs := s.contribs.map (fun c => if acc.any (fun (l : BitVec 40) => l.toNat == c.loc)
    then { c with acc := true } else c) })
include hstate hu

/-- Accepting contributions touches neither the publishes nor the drafts' states: WRITING ends as `pubWritten` says. -/
theorem exec_writingDone_of_writing :
    exec (.writingDone d acc) s = .next (if pubWritten u p = true then regPut u (rDraftStat d.val) 63 61 4 else u) := by
  have hstate' : drState u d.val = 3 := by rw [hu]; exact hstate
  change Host.Outcome.next (doWritingDone d acc s) = _
  simp only [doWritingDone, whenRunning_of_running hrun, hpub, ← hu, hstate', decide_true, Bool.true_and]

end

/-! ## The decision (R81 to R84, R125) -/

section
variable (hstate : drState s d.val = 4) (hout : decisionOut s p = false)
include hstate hout

section
variable (hcompared : p.stage ≠ 4) (hundecided : p.stage ≠ 5)
include hcompared hundecided

theorem exec_publishDecide_of_conflict (hmoved : rgCurrent s (drRegion s d.val) ≠ p.pred) : exec (.publishDecide d) s =
    .next (endPublish s p 5 { status := 3, v0 := rgCurrent s (drRegion s d.val) }) := by
  change Host.Outcome.next (doPublishDecide d s) = _
  simp only [doPublishDecide, whenRunning_of_running hrun, hpub, hstate, hout, hcompared, hundecided, hmoved, ne_eq,
    not_true_eq_false, not_false_eq_true, Bool.false_eq_true, or_self, if_false, if_true]

variable (hcurrent : rgCurrent s (drRegion s d.val) = p.pred) (hheld : (heldBeside s p).length < 8) {u v : State}
  (hlook : staleLookups s p (newUnits s d.val p.pred).1 (newUnits s d.val p.pred).2 = (u, false))
  (hlines : staleLines u p (newUnits s d.val p.pred).1 (newUnits s d.val p.pred).2 = [])
  (hframes : allocFor u (drRegion s d.val) (rgDomain u (drRegion s d.val)) (backUnits u p) = .ok v)
include hcurrent hheld hlook hlines hframes

/-- A version that is made is committed, for a DURABLE region once its DECISION record is on the medium. -/
theorem exec_publishDecide_of_made : exec (.publishDecide d) s = .next (if rgDurable v (drRegion s d.val) = true
    then appendRecord (setStage v d.val 4) (drRegion s d.val)
      (.decision (drRegion s d.val) (p.pred + 1) p.pred ((stageUnits v p 3).map (fun u => metaWord v u.metaName)))
    else publishEnd (versionBytes v p) p (newUnits s d.val p.pred).1 (newUnits s d.val p.pred).2) := by
  change Host.Outcome.next (doPublishDecide d s) = _
  simp only [doPublishDecide, whenRunning_of_running hrun, hpub, hstate, hout, hcompared, hundecided, hcurrent,
    Nat.not_lt.mpr hheld, hlook, hlines, hframes, ne_eq, not_true_eq_false, Bool.false_eq_true, or_self, if_false]

end

theorem exec_publishDecide_of_decided {u : State} (hdecided : p.stage = 5)
    (hlook : staleLookups s p (decidedUnits s p).1 (decidedUnits s p).2 = (u, false))
    (hlines : staleLines u p (decidedUnits s p).1 (decidedUnits s p).2 = []) : exec (.publishDecide d) s =
      .next (retainEight (publishEnd u p (decidedUnits s p).1 (decidedUnits s p).2) (drRegion u p.draft)) := by
  change Host.Outcome.next (doPublishDecide d s) = _
  simp [doPublishDecide, whenRunning_of_running hrun, hpub, hstate, hout, hdecided, decidedOn, hlook, hlines]

end

end

/-- Settles O22, clause by clause from the equations of the draft commands and of the publish's events. -/
theorem draftsOpenAndPublish : Obligations.DraftsOpenAndPublish := by
  refine ⟨?opened, ?discarded, ?published, ?sealed, ?written, ?decided⟩
  case opened =>
    intro s w d hserve hlt hvalid hver hdel hpermit hturn hquota hslots
    exact ⟨_, _, rfl, rfl, exec_draftOpen_of_slots hserve hlt hvalid hver hdel hpermit hturn hquota hslots⟩
  case discarded =>
    intro s w hserve hopen hpermit hbound hunits hmaps hvolatile
    exact exec_draftDiscard_of_bare hserve hopen hpermit hbound hunits hmaps hvolatile
  case published =>
    intro s w hserve hopen hpermit hdel
    exact ⟨_, _, rfl, rfl, exec_publish_of_open hserve hopen hpermit hdel⟩
  case sealed =>
    intro s d p hrun hpub hstate hheld hquiet hrecall hkernels
    refine ⟨exec_sealComplete_of_poison hrun hpub hstate hheld hquiet hrecall hkernels,
      exec_sealComplete_of_conflict hrun hpub hstate hheld hquiet hrecall hkernels,
      fun hclean hcurrent hnext => ?_⟩
    have hdone := exec_sealComplete_of_current hrun hpub hstate hheld hquiet hrecall hkernels hclean hcurrent hnext
    exact ⟨fun hdur => by rw [hdone, if_pos hdur], fun hdur => by rw [hdone, if_neg (ne_true_of_eq_false hdur)]⟩
  case written =>
    intro s d p acc u hrun hpub hstate hu
    have hdone := exec_writingDone_of_writing hrun hpub hstate hu
    exact ⟨fun hall => by rw [hdone, if_pos hall], fun hsome => by rw [hdone, if_neg (ne_true_of_eq_false hsome)]⟩
  case decided =>
    intro s d p us hrun hpub hstate hout
    refine ⟨exec_publishDecide_of_conflict hrun hpub hstate hout, ?_, ?_⟩
    · rintro hcompared hundecided hcurrent hheld rfl r u v rfl hlook hlines hframes
      have hdone := exec_publishDecide_of_made hrun hpub hstate hout hcompared hundecided hcurrent hheld hlook hlines hframes
      exact ⟨fun hdur => by rw [hdone, if_neg (ne_true_of_eq_false hdur)], fun hdur => by rw [hdone, if_pos hdur]⟩
    · rintro hdecided rfl u hlook hlines
      exact exec_publishDecide_of_decided hrun hpub hstate hout hdecided hlook hlines

end Sys2Proof.Machine
end

section
/-! Chapter 03: what the medium's own operations leave alone: the fields of a register, what is stored, and the injections. -/

namespace Sys2Proof.Machine

/-! ## Fields of a register -/

/-- Bits below `2 ^ m` are those of the number modulo it. -/
theorem bits_mod_two_pow (n : Nat) {hi lo m : Nat} (hlo : lo ≤ hi) (hm : hi < m) : bits (n % 2 ^ m) hi lo = bits n hi lo := by
  refine Nat.eq_of_testBit_eq fun i => ?_
  simp only [bits, Nat.testBit_mod_two_pow, Nat.testBit_div_two_pow]
  by_cases hi' : i < hi - lo + 1
  · have : i + lo < m := by omega
    simp [this]
  · simp [hi']

/-- A word with a field replaced: what is below the field, the field, and what is above it. -/
theorem toNat_putBits (w : Word) (hi lo v : Nat) : (putBits w hi lo v).toNat =
    (w.toNat % 2 ^ lo + 2 ^ lo * (v % 2 ^ (hi - lo + 1) + 2 ^ (hi - lo + 1) * (w.toNat / 2 ^ lo / 2 ^ (hi - lo + 1)))) % 2 ^ 64 := by
  have hlow := Nat.mod_add_div w.toNat (2 ^ lo)
  have hhigh := congrArg (2 ^ lo * ·) (Nat.mod_add_div (w.toNat / 2 ^ lo) (2 ^ (hi - lo + 1)))
  simp only [Nat.mul_add] at hhigh
  rw [putBits, BitVec.toNat_ofNat, bits, Nat.mul_comm _ (2 ^ lo), Nat.mul_comm _ (2 ^ lo), Nat.mul_add]
  congr 1
  omega

theorem bits_putBits_self (w : Word) {hi lo : Nat} (v : Nat) (hlo : lo ≤ hi) (hhi : hi < 64) :
    bits (putBits w hi lo v).toNat hi lo = v % 2 ^ (hi - lo + 1) := by
  rw [toNat_putBits, bits_mod_two_pow _ hlo hhi, bits, Nat.add_mul_div_left _ _ (Nat.two_pow_pos lo),
    Nat.div_eq_of_lt (Nat.mod_lt _ (Nat.two_pow_pos lo)), Nat.zero_add, Nat.add_mul_mod_self_left, Nat.mod_mod]

theorem bits_putBits_below (w : Word) {hi lo hi' lo' : Nat} (v : Nat) (hlo : lo' ≤ hi') (hbelow : hi' < lo) (hhi : hi' < 64) :
    bits (putBits w hi lo v).toNat hi' lo' = bits w.toNat hi' lo' := by
  rw [toNat_putBits, bits_mod_two_pow _ hlo hhi, ← bits_mod_two_pow _ hlo hbelow, Nat.add_mul_mod_self_left, Nat.mod_mod,
    bits_mod_two_pow _ hlo hbelow]

@[simp] theorem reg_regSet_self (s : State) (off : Nat) (v : Word) : reg (regSet s off v) off = v :=
  Sparse.get_set_self _ _ _ _

/-- A field reads what was put into it. -/
theorem regFld_regPut_self (s : State) (off : Nat) {hi lo : Nat} (v : Nat) (hlo : lo ≤ hi) (hhi : hi < 64) :
    regFld (regPut s off hi lo v) off hi lo = v % 2 ^ (hi - lo + 1) := by
  rw [regFld, regPut, reg_regSet_self, bits_putBits_self _ _ hlo hhi]

/-- A field leaves the fields below it alone. -/
theorem regFld_regPut_below (s : State) (off : Nat) {hi lo hi' lo' : Nat} (v : Nat) (hlo : lo' ≤ hi') (hbelow : hi' < lo) (hhi : hi' < 64) :
    regFld (regPut s off hi lo v) off hi' lo' = regFld s off hi' lo' := by
  rw [regFld, regPut, reg_regSet_self, bits_putBits_below _ _ hlo hbelow hhi, regFld]

theorem regFld_congr {s t : State} {off : Nat} (hreg : reg t off = reg s off) (hi lo : Nat) : regFld t off hi lo = regFld s off hi lo := by
  rw [regFld, hreg, regFld]

theorem regFld_regPut_ne (s : State) {off other : Nat} (hi lo v hi' lo' : Nat) (hne : other ≠ off) :
    regFld (regPut s off hi lo v) other hi' lo' = regFld s other hi' lo' :=
  regFld_congr (reg_regPut_ne s hi lo v hne) hi' lo'

/-- A clear bit is a field of one bit that holds 0. -/
theorem regFld_of_clear {s : State} {off : Nat} (hclear : regBit s off 0 = false) : regFld s off 0 0 = 0 := by
  rw [regBit, Nat.testBit_zero, decide_eq_false_iff_not] at hclear
  rw [regFld, bits, Nat.pow_zero, Nat.div_one]
  omega

/-! ## Views that a repeated change keeps -/

/-- What each change of a list keeps, the whole list keeps. -/
theorem forEach_keeps {α β : Type} (view : State → β) {f : State → α → State} (hkeep : ∀ t a, view (f t a) = view t) (l : List α)
    (s : State) : view (forEach l s f) = view s := by
  induction l generalizing s with
  | nil => rfl
  | cons a rest ih => exact (ih (f s a)).trans (hkeep s a)

/-! ## What is stored -/

/-- What reads of memory and of the medium find: the bytes, their poison, and where units are or that they are lost. -/
structure Stored where
  mem : List Host.Cell
  poison : List Nat
  locs : List (Nat × Nat)
  lost : List Nat

def stored (s : State) : Stored := ⟨s.mem, s.poison, s.locs, s.lost⟩

/-- A state with the same bytes, poison, locators and lost units stores the same. -/
theorem stored_congr {s t : State} (hmem : t.mem = s.mem) (hpoison : t.poison = s.poison) (hlocs : t.locs = s.locs)
    (hlost : t.lost = s.lost) : stored t = stored s := by
  rw [stored, hmem, hpoison, hlocs, hlost, stored]

theorem stored_ite (c : Prop) [Decidable c] (s t : State) : stored (if c then s else t) = if c then stored s else stored t :=
  apply_ite stored c s t

@[simp] theorem stored_regPut (s : State) (off hi lo v : Nat) : stored (regPut s off hi lo v) = stored s :=
  stored_congr rfl rfl rfl rfl

@[simp] theorem stored_setBit (s : State) (off b : Nat) : stored (setBit s off b) = stored s := stored_regPut s off b b 1

@[simp] theorem stored_addCnt (s : State) (off n : Nat) : stored (addCnt s off n) = stored s := stored_regPut s off 47 0 _

@[simp] theorem stored_send (s : State) (o : Out) : stored (send s o) = stored s := stored_congr rfl rfl rfl rfl

@[simp] theorem stored_putBand (s : State) (b : Nat) (x : Band) : stored (putBand s b x) = stored s := stored_congr rfl rfl rfl rfl

@[simp] theorem stored_putBlock (s : State) (k : Nat) (x : MedBlock) : stored (putBlock s k x) = stored s :=
  stored_congr rfl rfl rfl rfl

theorem stored_drawFree (s : State) : stored (drawFree s).2 = stored s := stored_congr rfl rfl rfl rfl

@[simp] theorem stored_pmc (s : State) (b i n : Nat) (dom : Option Nat) : stored (pmc s b i n dom) = stored s := by
  simp only [pmc, pmcAdd, stored_ite, stored_regPut, stored_setBit, ite_self]

@[simp] theorem pmc_inj (s : State) (b i n : Nat) (dom : Option Nat) : (pmc s b i n dom).inj = s.inj := by
  simp only [pmc, pmcAdd, apply_ite State.inj, regPut_inj, setBit_inj, ite_self]

@[simp] theorem stored_medCnt (s : State) (c k n : Nat) : stored (medCnt s c k n) = stored s := by
  simp only [medCnt, stored_ite, stored_addCnt, stored_setBit, ite_self]

@[simp] theorem stored_askStart (s : State) (u : Nat) : stored (askStart s u) = stored s := by
  have hqueue : ∀ q, stored (showQueue { s with ballastQ := q }) = stored s := fun q => by
    rw [showQueue, stored_regPut, stored_regPut]
    exact stored_congr rfl rfl rfl rfl
  rw [askStart, askClock]
  split <;> simp only [stored_ite, hqueue, ite_self]

@[simp] theorem stored_orders (s : State) (c : Nat) (l : List (Onfi × List Nat)) : stored (orders s c l) = stored s := by
  rw [orders, forEach_keeps stored (fun t _ => stored_send t _), stored_ite, stored_askStart, ite_self]

@[simp] theorem stored_readPage (s : State) (l i : Nat) : stored (readPage s l i) = stored s := stored_orders s _ _

@[simp] theorem stored_scrubUnit (s : State) (l : Nat) : stored (scrubUnit s l) = stored s := by
  rw [scrubUnit, readUnit, forEach_keeps stored (fun t i => stored_readPage t l i)]
  exact stored_congr rfl rfl rfl rfl

@[simp] theorem stored_scrubBand (s : State) (b : Nat) : stored (scrubBand s b) = stored s :=
  forEach_keeps stored (fun t _ => stored_scrubUnit t _) _ _

/-- What a read met is noted for its band, and may order reads. -/
@[simp] theorem stored_bandRead (s : State) (loc i step nbits : Nat) : stored (bandRead s loc i step nbits) = stored s := by
  unfold bandRead
  split
  next now t hdraw =>
    have ht : stored t = stored s := by rw [← stored_drawFree s, hdraw]
    extract_lets _ _ _ _ _ _ _ read _ counted noted
    have hread : stored read = stored s := by
      rw [← ht]
      simp only [read, stored_ite]
      split <;> exact stored_congr rfl rfl rfl rfl
    have hnoted : stored noted = stored s := by simp only [noted, counted, stored_putBand, stored_putBlock, hread]
    clear_value noted
    split
    · split
      · rw [← hnoted]
        exact stored_congr rfl rfl rfl rfl
      · rw [stored_scrubBand, hnoted]
    · exact hnoted

theorem stored_ladderStep (s : State) (loc i k : Nat) : stored (ladderStep s loc i k) = stored s := by
  have hagain : ∀ (t : State) (l : List (Onfi × List Nat)), stored (readPage (orders t (locChan loc i) l) loc i) = stored t :=
    fun t l => by rw [stored_readPage, stored_orders]
  rw [ladderStep]
  split
  · exact forEach_keeps stored (fun t _ => hagain t _) _ _
  · split
    · exact forEach_keeps stored (fun t _ => hagain t _) _ _
    · exact hagain s _

@[simp] theorem stored_ladderSteps (s : State) (loc i step : Nat) : stored (ladderSteps s loc i step) = stored s :=
  forEach_keeps stored (fun t k => stored_ladderStep t loc i (k + 1)) _ _

/-! ## Writing to the log (R121 to R123) -/

@[simp] theorem stored_chooseHolder (s : State) (u : LogUnit) : stored (chooseHolder s u).2 = stored s := by
  unfold chooseHolder
  extract_lets
  split
  · rfl
  · split
    · rfl
    · exact stored_congr rfl rfl rfl rfl

@[simp] theorem stored_issueUnit (s : State) (b : Nat) (u : LogUnit) (src : Option Nat) : stored (issueUnit s b u src) = stored s := by
  unfold issueUnit
  extract_lets
  split
  next v t hholder =>
    have ht : stored t = stored s := by rw [← stored_chooseHolder s u, hholder]
    extract_lets _ _ placed _
    rw [forEach_keeps stored (fun t _ => by rw [stored_orders, stored_send])]
    have hplaced : stored placed = stored s := by simp only [placed, stored_putBand, ht]
    rw [← hplaced]
    exact stored_congr rfl rfl rfl rfl

@[simp] theorem stored_countBands (s : State) : stored (countBands s) = stored s := by
  simp only [countBands, stored_regPut]

@[simp] theorem stored_openBand (s : State) (b : Nat) : stored (openBand s b) = stored s := by
  unfold openBand
  split
  next n t hdraw =>
    have ht : stored t = stored s := by rw [← stored_drawFree s, hdraw]
    extract_lets _ headed
    have hheaded : stored headed = stored s := by simp only [headed, stored_issueUnit, ht]
    rw [stored_countBands, ← hheaded]
    exact stored_congr rfl rfl rfl rfl

/-- A unit that is written to the log is programmed or waits; where units are changes when the program ends. -/
@[simp] theorem stored_logWrite (s : State) (u : LogUnit) (src : Option Nat) : stored (logWrite s u src) = stored s := by
  rw [logWrite]
  split
  · exact stored_congr rfl rfl rfl rfl
  · rw [stored_issueUnit, stored_ite, stored_openBand]
    split <;> exact stored_congr rfl rfl rfl rfl

theorem stored_sendUnit (s : State) (code holder loc : Nat) (u : LogUnit) : stored (sendUnit s code holder loc u) = stored s := by
  rw [sendUnit, forEach_keeps stored (fun t _ => ?_)]
  rw [stored_send]
  exact stored_congr rfl rfl rfl rfl

theorem stored_sendContrib (s : State) (c : Contrib) : stored (sendContrib s c) = stored s := by
  rw [sendContrib]
  split
  · rw [stored_sendUnit, stored_pmc]
  · exact stored_pmc s _ _ _ _

/-! ## No injection armed (R160) -/

section
variable {s : State} (hinj : s.inj = [])
include hinj

theorem takeInj_of_none_armed (off kind : Nat) (p : Nat → Bool) : takeInj s off kind p = none := by
  rw [takeInj, hinj]
  rfl

theorem injTimeout_of_none_armed (c : Nat) : injTimeout s c = none := by
  rw [injTimeout, takeInj_of_none_armed hinj]
  rfl

theorem injectRead_of_none_armed (c : Nat) (cws : List (Nat × Nat)) : injectRead s c cws = (cws, s) := by
  simp only [injectRead, takeInj_of_none_armed hinj]

end

end Sys2Proof.Machine
end

section
/-! Chapter 03: the medium comes up (R106 to R112, R129, R142) and its log is replayed (R128 to R130). -/

namespace Sys2Proof.Machine

/-! ## What the bring-up of channels leaves alone: every register below those of the channels -/

section
variable {off : Nat} (hoff : off < 0x301000)
include hoff

theorem reg_regPut_medCh (s : State) (c k hi lo v : Nat) : reg (regPut s (rMedCh c k) hi lo v) off = reg s off :=
  reg_regPut_ne s hi lo v (by unfold rMedCh; omega)

theorem reg_askStart_of_lt (s : State) (u : Nat) : reg (askStart s u) off = reg s off := by
  have hqueue : ∀ q, reg (showQueue { s with ballastQ := q }) off = reg s off := fun q => by
    have hne : off ≠ rPwr 0x20 := by unfold rPwr; omega
    rw [showQueue, reg_regPut_ne _ _ _ _ hne, reg_regPut_ne _ _ _ _ hne]
    exact reg_congr rfl off
  rw [askStart, askClock]
  split <;> simp only [reg_ite, hqueue, ite_self]

theorem reg_orders_of_lt (s : State) (c : Nat) (l : List (Onfi × List Nat)) : reg (orders s c l) off = reg s off := by
  rw [orders, forEach_keeps (reg · off) (fun t e => reg_congr (s := t) (t := send t _) rfl off), reg_ite, reg_askStart_of_lt hoff, ite_self]

theorem reg_bringUp_of_lt (s : State) (c n rate : Nat) : reg (bringUp s c n rate) off = reg s off :=
  forEach_keeps (reg · off) (fun t _ => reg_orders_of_lt hoff t _ _) _ _

theorem reg_regSetList_of_lt (s : State) {base : Nat} (hbase : 0x301000 ≤ base) (ws : List Word) :
    reg (regSetList s base ws) off = reg s off := by
  induction ws generalizing s base with
  | nil => rfl
  | cons w rest ih => rw [regSetList, ih _ (Nat.le_add_right_of_le hbase), reg_regSet_ne _ _ (by omega)]

/-- The error log lies beyond the medium's registers. -/
theorem reg_logErr_of_lt (s : State) (a : LogArgs) : reg (logErr s a) off = reg s off := by
  have hhead : off ≠ rErrHead a.cls := by unfold rErrHead; omega
  have hovf : off ≠ rErrOvf a.cls := by unfold rErrOvf; omega
  have hlog : ∀ i, 0x301000 ≤ rErrLog a.cls i := fun i => by unfold rErrLog; omega
  unfold logErr
  extract_lets
  split
  · exact reg_regPut_ne s _ _ _ hovf
  · split
    next n t hdraw =>
      have ht : reg t off = reg s off := by rw [← reg_congr (s := s) (t := (drawFree s).2) rfl, hdraw]
      extract_lets _ _ _ _ _ logged counted headed
      have hlogged : reg logged off = reg s off :=
        (reg_regSetList_of_lt hoff _ (hlog _) _).trans ((reg_congr rfl off).trans ht)
      have hheaded : reg headed off = reg s off := by
        simp only [headed, counted, reg_ite, reg_regPut_ne _ _ _ _ hhead, hlogged, ite_self]
      rw [← hheaded]
      unfold mgmtSend
      extract_lets
      rw [reg_ite]
      split <;> exact reg_congr rfl off

theorem reg_medEvent_of_lt (s : State) (c b action addr : Nat) : reg (medEvent s c b action addr) off = reg s off := by
  rw [medEvent, reg_logErr_of_lt hoff, setBit, reg_regPut_medCh hoff]

theorem reg_enumChan_of_lt (s : State) (m : MedChan) : reg (enumChan s m) off = reg s off := by
  unfold enumChan
  extract_lets c _ _ _ _ brought _ geom served trained _
  have htrained : reg trained off = reg s off := by
    have hne : off ≠ rRecov 0xD8 := by unfold rRecov; omega
    have hgeom : off ≠ rMedCh c 0 := by unfold rMedCh; omega
    simp only [trained, served, geom, brought, reg_ite, reg_medEvent_of_lt hoff, reg_regPut_ne _ _ _ _ hne, reg_regSet_ne _ _ hgeom,
      reg_bringUp_of_lt hoff, ite_self]
  rw [← htrained]
  refine (forEach_keeps (reg · off) (fun t e => ?_) _ _).trans (reg_congr rfl off)
  rw [reg_ite]
  split
  · exact reg_congr rfl off
  · rfl

theorem reg_countSpares_of_lt (s : State) (c : Nat) : reg (countSpares s c) off = reg s off := by
  rw [countSpares]
  split
  · rfl
  · exact reg_regPut_medCh hoff s _ _ _ _ _

theorem reg_freeGone_of_lt (s : State) (b : Nat) : reg (freeGone s b) off = reg s off := by
  refine forEach_keeps (reg · off) (fun t c => ?_) _ _
  extract_lets
  rw [reg_ite, reg_countSpares_of_lt hoff]
  split <;> exact reg_congr rfl off

theorem reg_substitute_of_lt (s : State) (c b : Nat) : reg (substitute s c b) off = reg s off := by
  unfold substitute
  extract_lets _ _ _ retired
  split
  · extract_lets spared
    have hspared : reg spared off = reg s off := (reg_countSpares_of_lt hoff _ _).trans (reg_congr rfl off)
    rw [← hspared, reg_ite]
    split
    · rfl
    · exact reg_congr rfl off
  · have hretired : reg retired off = reg s off := (reg_regPut_medCh hoff _ _ _ _ _ _).trans (reg_congr rfl off)
    rw [reg_ite, reg_freeGone_of_lt hoff, ite_self, hretired]

theorem reg_enumSpares_of_lt (s : State) (m : MedChan) : reg (enumSpares s m) off = reg s off := by
  unfold enumSpares
  extract_lets
  split
  · rfl
  · rw [reg_countSpares_of_lt hoff]
    refine forEach_keeps (reg · off) (fun t e => ?_) _ _
    rw [reg_ite]
    split
    · rfl
    · refine forEach_keeps (reg · off) (fun t l => ?_) _ _
      extract_lets
      rw [reg_ite]
      split
      · rfl
      · exact reg_congr rfl off

theorem reg_enumRemaps_of_lt (s : State) (m : MedChan) : reg (enumRemaps s m) off = reg s off := by
  unfold enumRemaps
  extract_lets
  split
  · rfl
  · refine forEach_keeps (reg · off) (fun t e => ?_) _ _
    refine forEach_keeps (reg · off) (fun t x => ?_) _ _
    extract_lets
    rw [reg_ite, reg_substitute_of_lt hoff, ite_self]

end

/-! ## The medium is enumerated (R25, R106 to R112) -/

/-- The end of an enumeration, once the channels' blocks are known: the quads that are degraded, the rated erases, the raw capacity, the free
bands, and REPLAYING. -/
def enumEnd (s : State) (pe : Nat) : State :=
  let t := regPut (degradeQuads s) (rMed 0x18) 15 0 pe
  regPut (countBands (regPut t 0x28 23 0 (rawGib t))) (rMed 8) 1 1 1

/-- From a medium that is neither READY nor REPLAYING, enumeration brings the channels up, sets the profile, substitutes marked blocks, and
comes to its end; what lies between leaves the registers below the channels' alone. -/
theorem doMediumEnumerate_of_new {s : State} (hrun : running s = true) (hready : medReady s = false) (hreplay : regBit s (rMed 8) 1 = false)
    (chans : List MedChan) (profile : BitVec 8) (pe : BitVec 16) : ∃ t u quads,
      (∀ off < 0x301000, reg t off = reg s off) ∧
      (∀ off < 0x301000, reg u off = reg (regPut (regPut t (rMed 0) 39 32 quads) (rMed 0) 15 8 profile.toNat) off) ∧
      doMediumEnumerate chans profile pe s = enumEnd u pe.toNat := by
  rw [doMediumEnumerate, whenRunning_of_running hrun, hready, hreplay, Bool.or_self, if_neg Bool.false_ne_true]
  extract_lets quads brought _ _ spared _ _
  refine ⟨brought, spared, quads.foldl (fun a e => a + 2 ^ e.1) 0, fun off hoff => ?_, fun off hoff => ?_, rfl⟩
  · exact (forEach_keeps (reg · off) (fun t m => reg_enumChan_of_lt hoff t m) _ _).trans (reg_congr rfl off)
  · rw [forEach_keeps (reg · off) (fun t m => reg_countSpares_of_lt hoff t _),
      forEach_keeps (reg · off) (fun t m => reg_enumRemaps_of_lt hoff t m),
      forEach_keeps (reg · off) (fun t m => reg_enumSpares_of_lt hoff t m)]

theorem doMediumEnumerate_of_up {s : State} (hup : (medReady s || regBit s (rMed 8) 1) = true)
    (chans : List MedChan) (profile : BitVec 8) (pe : BitVec 16) : doMediumEnumerate chans profile pe s = s := by
  rw [doMediumEnumerate, whenRunning, hup, if_pos rfl, ite_self]

/-! ## The fields that the end of an enumeration leaves and sets -/

theorem reg_countBands_ne (s : State) {off : Nat} (hne : off ≠ rMed 8) : reg (countBands s) off = reg s off := by
  rw [countBands, reg_regPut_ne _ _ _ _ hne, reg_regPut_ne _ _ _ _ hne]

theorem targetBytes_countBands (s : State) : (countBands s).targetBytes = s.targetBytes := by
  rw [countBands, regPut_targetBytes, regPut_targetBytes]

theorem rawGib_lt (s : State) : rawGib s < 2 ^ (23 - 0 + 1) := by
  rw [rawGib]
  omega

theorem rawGib_congr {s t : State} (htargets : t.targetBytes = s.targetBytes) : rawGib t = rawGib s := by
  rw [rawGib, htargets, rawGib]

section
variable (s : State) (pe : Nat)

theorem regFld_profile_enumEnd : regFld (enumEnd s pe) (rMed 0) 15 8 = regFld s (rMed 0) 15 8 := by
  have hne : rMed 0 ≠ rMed 8 := by decide
  refine regFld_congr ?_ 15 8
  rw [enumEnd, reg_regPut_ne _ _ _ _ hne, reg_countBands_ne _ hne, reg_regPut_ne _ _ _ _ (by decide),
    reg_regPut_ne _ _ _ _ (by decide), degradeQuads, reg_regPut_ne _ _ _ _ hne]

/-- READY lies below the fields of MED_STAT that are set. -/
theorem regFld_ready_enumEnd : regFld (enumEnd s pe) (rMed 8) 0 0 = regFld s (rMed 8) 0 0 := by
  have hbelow : ∀ (t : State) (hi lo v : Nat), 0 < lo → regFld (regPut t (rMed 8) hi lo v) (rMed 8) 0 0 = regFld t (rMed 8) 0 0 :=
    fun t hi lo v hlo => regFld_regPut_below t _ v le_rfl hlo (by decide)
  have hother : ∀ (t : State) (off hi lo v : Nat), rMed 8 ≠ off → regFld (regPut t off hi lo v) (rMed 8) 0 0 = regFld t (rMed 8) 0 0 :=
    fun t off hi lo v hne => regFld_regPut_ne t hi lo v 0 0 hne
  rw [enumEnd, hbelow _ _ _ _ (by decide), countBands, hbelow _ _ _ _ (by decide), hbelow _ _ _ _ (by decide),
    hother _ _ _ _ _ (by decide), hother _ _ _ _ _ (by decide), degradeQuads, hbelow _ _ _ _ (by decide)]

theorem regFld_replaying_enumEnd : regFld (enumEnd s pe) (rMed 8) 1 1 = 1 :=
  regFld_regPut_self _ _ _ (by decide) (by decide)

theorem regFld_capacity_enumEnd : regFld (enumEnd s pe) 0x28 23 0 = rawGib (enumEnd s pe) := by
  have hcap : rawGib (enumEnd s pe) = rawGib (regPut (degradeQuads s) (rMed 0x18) 15 0 pe) :=
    rawGib_congr (by rw [enumEnd, regPut_targetBytes, targetBytes_countBands, regPut_targetBytes])
  rw [hcap, enumEnd, regFld_regPut_ne _ _ _ _ _ _ (by decide), regFld_congr (reg_countBands_ne _ (by decide)),
    regFld_regPut_self _ _ _ (by decide) (by decide), Nat.mod_eq_of_lt (rawGib_lt _)]

end

/-! ## The log is replayed (R128 to R130) -/

theorem exec_logReplay_of_idle {s : State} (hrun : running s = true) (hidle : regBit s (rMed 8) 1 = false) :
    exec .logReplay s = .next s := by
  change Host.Outcome.next (doLogReplay s) = _
  rw [doLogReplay, whenRunning_of_running hrun, hidle, Bool.not_false, if_pos rfl]

theorem exec_logReplay_of_replaying {s : State} (hrun : running s = true) (hreplay : regBit s (rMed 8) 1 = true) {t u v : State}
    (ht : t = replayReads s (replayKeeps s)) (hu : u = { t with
      locs := t.locs.filter (fun e => mapNames t (replayKeeps s) e.1)
      lost := t.lost.filter (mapNames t (replayKeeps s))
      metaLocs := t.metaLocs.filter (fun e => mapKept t (replayKeeps s) e.1)
      rebuilt := replayKeeps s })
    (hv : v = forEach (u.contribs.filter (fun c => !c.cov)) u sendContrib) : exec .logReplay s =
      .next (logStep (startReads (readSentinels (regPut (regPut v (rMed 8) 1 1 0) (rMed 8) 0 0 1)))) := by
  change Host.Outcome.next (doLogReplay s) = _
  have hcontribs : u.contribs = t.contribs := by rw [hu]
  rw [hcontribs] at hv
  simp only [doLogReplay, whenRunning_of_running hrun, hreplay, Bool.not_true, Bool.false_eq_true, if_false, ← ht, ← hu, ← hv]

/-- Settles O35: the end of an enumeration keeps the profile and READY and sets the other two fields, and a replay is its definition. -/
theorem mediumComesUpAndReplays : Obligations.MediumComesUpAndReplays := by
  intro s hrun
  refine ⟨fun chans profile pe => ⟨?enumerated, ?refused⟩, ?replayed, ?idle⟩
  case enumerated =>
    intro hready hreplay
    obtain ⟨t, u, quads, ht, hu, henum⟩ := doMediumEnumerate_of_new hrun hready hreplay chans profile pe
    refine ⟨_, rfl, ?profile, ?ready, ?replaying, ?capacity⟩
    all_goals rw [henum]
    case profile =>
      rw [regFld_profile_enumEnd, regFld_congr (hu _ (by decide)), regFld_regPut_self _ _ _ (by decide) (by decide),
        Nat.mod_eq_of_lt profile.isLt]
    case ready =>
      rw [regFld_ready_enumEnd, regFld_congr (hu _ (by decide)), regFld_regPut_ne _ _ _ _ _ _ (by decide),
        regFld_regPut_ne _ _ _ _ _ _ (by decide), regFld_congr (ht _ (by decide)), regFld_of_clear hready]
    case replaying => exact regFld_replaying_enumEnd _ _
    case capacity => exact regFld_capacity_enumEnd _ _
  case refused =>
    intro hup
    rw [← Bool.or_eq_true] at hup
    exact congrArg Host.Outcome.next (doMediumEnumerate_of_up hup chans profile pe)
  case replayed =>
    intro hreplay t u v ht hu hv
    exact exec_logReplay_of_replaying hrun hreplay ht hu hv
  case idle => exact exec_logReplay_of_idle hrun

end Sys2Proof.Machine
end

section
/-! Chapter 03: page reads and the ladder, scrub reads, and reads of a unit from its parity (R137 to R140, R147, R157). -/

namespace Sys2Proof.Machine

/-! ## A page read climbs the ladder (R138, R139) -/

/-- What a page read notes leaves the bytes, their poison and the places of units alone. -/
theorem stored_readNoted (s : State) (dom : Option Nat) (loc : BitVec 40) (page : Fin 4) (cws : List (BitVec 4 × BitVec 16)) :
    stored (readNoted s dom loc page cws) = stored s := by
  have hok : ∀ c l, stored (lunOk s c l) = stored s := fun c l => stored_congr rfl rfl rfl rfl
  simp only [readNoted, stored_ladderSteps, stored_bandRead, stored_medCnt, stored_ite, stored_pmc, ite_self, hok]

section
variable {s : State} (hinj : s.inj = []) (dom : Option Nat) (loc : BitVec 40) (page : Fin 4) (cws : List (BitVec 4 × BitVec 16))
include hinj

/-- Without an injection a page read notes what its codewords met, asks for the rebuild of a unit that no step up to 9 decodes, and lets
reclaim go on. -/
theorem pageRead_of_none_armed : pageRead dom loc page cws s = reclaimStep
    (if 10 ≤ cws.foldl (fun m x => max m x.1.toNat) 0 then askRebuild (readNoted s dom loc page cws) (locChan loc.toNat page.val) loc.toNat
      else readNoted s dom loc page cws) := by
  have hok : ∀ c l, (lunOk s c l).inj = [] := fun _ _ => hinj
  simp only [pageRead, injTimeout_of_none_armed hinj, injectRead_of_none_armed (hok _ _), List.foldl_map, List.filter_map,
    List.length_map, Function.comp_def, readNoted]

/-- A page read keeps what was stored until a step beyond 9 asks for its unit's rebuild; reclaim goes on after it (R138 to R140). -/
theorem exec_pageRead_climbs {i : Instr} {t : State} (hkept : stored s = stored t)
    (hexec : exec i t = .next (pageRead dom loc page cws s)) : ∃ u, u = readNoted s dom loc page cws ∧
    u.mem = t.mem ∧ u.locs = t.locs ∧ u.lost = t.lost ∧ u.poison = t.poison ∧
    (cws.foldl (fun m x => max m x.1.toNat) 0 < 10 → exec i t = .next (reclaimStep u)) ∧
    (10 ≤ cws.foldl (fun m x => max m x.1.toNat) 0 →
      exec i t = .next (reclaimStep (askRebuild u (locChan loc.toNat page.val) loc.toNat))) := by
  have hnoted := (stored_readNoted s dom loc page cws).trans hkept
  refine ⟨_, rfl, congrArg Stored.mem hnoted, congrArg Stored.locs hnoted, congrArg Stored.lost hnoted, congrArg Stored.poison hnoted,
    fun hdecoded => ?_, fun hundecoded => ?_⟩
  · rw [hexec, pageRead_of_none_armed hinj, if_neg (Nat.not_le.mpr hdecoded)]
  · rw [hexec, pageRead_of_none_armed hinj, if_pos hundecoded]

end

/-! ## A degraded read (R157) -/

/-- The parts that a degraded read XORs: the parity unit and the other contributions, of a PARITY unit of this holder the contributions
alone. -/
def rebuildParts (s : State) (at' : Nat) (parity : Option (List LineData)) (others : List PartRead) : List (Option (List LineData)) :=
  if parityHere s at' then others.map (fun p => p.lines) else parity :: others.map (fun p => p.lines)

/-- A parity unit that was read at its holder names the other contributions, which are asked for. -/
def partsAsked (s : State) (at' : Nat) (parity : Option (List LineData)) (others : List PartRead) : State :=
  if parity.isSome && !parityHere s at' then forEach others s (fun s p => askPart s p.member.val p.loc.toNat) else s

section
variable {s : State} {at' : Nat} {parity : Option (List LineData)} {others : List PartRead}

theorem rebuildParts_of_here (hhere : parityHere s at' = true) : rebuildParts s at' parity others = others.map (fun p => p.lines) :=
  if_pos hhere

theorem rebuildParts_of_far (hfar : parityHere s at' = false) :
    rebuildParts s at' parity others = parity :: others.map (fun p => p.lines) :=
  if_neg (ne_true_of_eq_false hfar)

theorem partsAsked_of_here (hhere : parityHere s at' = true) : partsAsked s at' parity others = s := by
  rw [partsAsked, hhere, Bool.not_true, Bool.and_false, if_neg Bool.false_ne_true]

theorem partsAsked_of_far (hfar : parityHere s at' = false) : partsAsked s at' parity others =
    if parity.isSome then forEach others s (fun s p => askPart s p.member.val p.loc.toNat) else s := by
  rw [partsAsked, hfar, Bool.not_false, Bool.and_true]

end

section
variable {s : State} (hrun : running s = true) (chan : Fin 32) (at' : BitVec 41) (parity : Option (List LineData)) (others : List PartRead)
include hrun

theorem exec_degradedRead : exec (.degradedRead chan at' parity others) s =
    .next (logStep (if (rebuildParts s at'.toNat parity others).all (fun p => p.isSome) = true then
        rebuildUnit (pmc (partsAsked s at'.toNat parity others) (184 + chan.val / 16) 7 1
          (readDom (partsAsked s at'.toNat parity others) at'.toNat)) chan.val at'.toNat
          (xorLines ((rebuildParts s at'.toNat parity others).filterMap id))
      else loseUnit (partsAsked s at'.toNat parity others) chan.val at'.toNat)) :=
  congrArg Host.Outcome.next (whenRunning_of_running hrun _)

/-- With every part there the unit is their XOR. -/
theorem exec_degradedRead_of_whole {us : List (List LineData)} (hwhole : rebuildParts s at'.toNat parity others = us.map some) :
    exec (.degradedRead chan at' parity others) s = .next (logStep (rebuildUnit (pmc (partsAsked s at'.toNat parity others)
      (184 + chan.val / 16) 7 1 (readDom (partsAsked s at'.toNat parity others) at'.toNat)) chan.val at'.toNat (xorLines us))) := by
  have hall : (us.map some).all (fun p => p.isSome) = true := by simp
  have hparts : (us.map some).filterMap id = us := by simp [List.filterMap_map]
  rw [exec_degradedRead hrun, hwhole, if_pos hall, hparts]

/-- A part that cannot be read loses the unit. -/
theorem exec_degradedRead_of_unreadable (hnone : none ∈ rebuildParts s at'.toNat parity others) :
    exec (.degradedRead chan at' parity others) s = .next (logStep (loseUnit (partsAsked s at'.toNat parity others) chan.val at'.toNat)) := by
  have hsome : ¬ (rebuildParts s at'.toNat parity others).all (fun p => p.isSome) = true := fun hall =>
    Bool.false_ne_true (List.all_eq_true.mp hall none hnone)
  rw [exec_degradedRead hrun, if_neg hsome]

end

section
variable {s : State} (hrun : running s = true) (loc : BitVec 40) (page : Fin 4) (cws : List (BitVec 4 × BitVec 16))
include hrun

theorem exec_pageReadDone : exec (.pageReadDone loc page cws) s = .next (pageRead (readDom s loc.toNat) loc page cws s) :=
  congrArg Host.Outcome.next (whenRunning_of_running hrun _)

/-- A scrubbed unit is counted with its first page. -/
theorem exec_scrubRead : exec (.scrubRead loc page cws) s = .next (pageRead none loc page cws
    (if page.val = 0 then pmc s (184 + locChan loc.toNat 0 / 16) 4 1 none else s)) :=
  congrArg Host.Outcome.next (whenRunning_of_running hrun _)

end

/-- Settles O36: both page reads are `pageRead`, and a degraded read's parts are whole or not. -/
theorem pageReadsClimbTheLadder : Obligations.PageReadsClimbTheLadder := by
  rintro s loc page cws step c hrun hinj rfl rfl
  refine ⟨?access, ?scrub, ?degraded⟩
  case access => exact exec_pageRead_climbs hinj _ loc page cws rfl (exec_pageReadDone hrun loc page cws)
  case scrub =>
    have hcounted : stored (if page.val = 0 then pmc s (184 + locChan loc.toNat 0 / 16) 4 1 none else s) = stored s := by
      rw [stored_ite, stored_pmc, ite_self]
    have hnone : (if page.val = 0 then pmc s (184 + locChan loc.toNat 0 / 16) 4 1 none else s).inj = [] := by
      rw [apply_ite State.inj, pmc_inj, ite_self, hinj]
    obtain ⟨u, hread⟩ := exec_pageRead_climbs hnone none loc page cws hcounted (exec_scrubRead hrun loc page cws)
    exact ⟨_, u, rfl, hread⟩
  case degraded =>
    intro chan at' parity others
    refine ⟨?far, ?here⟩
    case far =>
      rintro t hfar rfl
      rw [← partsAsked_of_far hfar, ← rebuildParts_of_far hfar]
      exact ⟨fun us => exec_degradedRead_of_whole hrun chan at' parity others, exec_degradedRead_of_unreadable hrun chan at' parity others⟩
    case here =>
      intro hhere
      rw [← rebuildParts_of_here (parity := parity) hhere]
      have hasked := partsAsked_of_here (parity := parity) (others := others) hhere
      refine ⟨fun us hwhole => ?_, fun hnone => ?_⟩
      · rw [exec_degradedRead_of_whole hrun chan at' parity others hwhole, hasked]
      · rw [exec_degradedRead_of_unreadable hrun chan at' parity others hnone, hasked]

end Sys2Proof.Machine
end

section
/-! Chapter 03: programs that place units in the log (R113 to R116, R121, R128). -/

namespace Sys2Proof.Machine

/-! ## A program that has ended (R113 to R116, R128) -/

theorem stored_contribute (s : State) (loc : Nat) (u : LogUnit) : stored (contribute s loc u) = stored s := by
  rw [contribute]
  split
  · rfl
  · rw [stored_sendContrib, stored_putBand]
    exact stored_congr rfl rfl rfl rfl

/-- A new DATA unit is located where it was programmed, by its version's name or, until its version is decided, by its draft's (R128),
and it is no longer lost. -/
theorem stored_programmed_of_data {s : State} {p : Prog} (hsrc : p.src = none) (htype : p.unit.type = 1) :
    stored (programmed s p) =
      ⟨s.mem, s.poison, Sparse.ins s.locs p.unit.dataName p.loc, Sparse.rem s.lost p.unit.dataName⟩ := by
  unfold programmed
  split
  next n t hdraw =>
    have ht : stored t = stored s := by rw [← stored_drawFree s, hdraw]
    extract_lets _ timed _ placed unit _ located
    have hplaced : stored placed = stored s := by
      have htimed : stored timed = stored t := forEach_keeps stored (fun t _ => stored_putBlock t _ _) _ _
      rw [← ht, ← htimed]
      exact (stored_putBand _ _ _).trans (stored_congr rfl rfl rfl rfl)
    clear_value placed
    injection hplaced with hmem hpoison hlocs hlost
    rw [stored_contribute]
    simp only [located, unit, hsrc, htype, if_true, stored, hmem, hpoison, hlocs, hlost]

/-- The program of unit 0 of draft 0, a DATA unit, at locator 0. -/
def draftProg : Prog := ⟨0, { type := 1, draft := some 0 }, none⟩

/-- A RUNNING block that programs `draftProg`. -/
def draftProgramming : State := { State.reset with regs := [(rPwr 8, 4)], progs := [draftProg] }

/-- Refutes O37: it names every new DATA unit by its version, but one that a publish writes (`stageUnits`) goes by its draft's name until
the version is decided (R128). In `draftProgramming` the unit is then located under the name of unit 0 of draft 0. -/
theorem not_programsAndErasesUpdateBands : ¬ Obligations.ProgramsAndErasesUpdateBands := by
  unfold Obligations.ProgramsAndErasesUpdateBands
  intro h
  obtain ⟨hprogram, -⟩ := h draftProgramming 0 0 0 (by decide) rfl rfl rfl
  obtain ⟨-, hdata⟩ := hprogram draftProg rfl rfl
  obtain ⟨hversion, -⟩ := hdata rfl rfl
  have hdraft : (programmed draftProgramming draftProg).locs = Sparse.ins [] (draftName 0 0) 0 :=
    congrArg Stored.locs (stored_programmed_of_data (s := draftProgramming) (p := draftProg) rfl rfl)
  rw [hdraft] at hversion
  exact absurd hversion (by decide)

end Sys2Proof.Machine
end

section
/-! Chapter 03: parity across controllers: contributions, stripes, retractions and rebuilds (R149 to R158). -/

namespace Sys2Proof.Machine

section
variable {s : State} (hrun : running s = true)
include hrun

/-! ## Contributions and stripes at the holder (R151 to R153) -/

theorem exec_contributionArrive_of_room {member : Fin 16} {loc : BitVec 40} {lines : List LineData} {x : Stripe}
    (hroom : (ringUnit s member.val loc.toNat lines).stripes.find? (fun x => !x.parts.any (fun p => p.1 == member.val)) = some x) :
    exec (.contributionArrive member loc lines) s =
      .next (joinStripe (ringUnit s member.val loc.toNat lines) x member.val loc.toNat lines) := by
  change Host.Outcome.next (doContributionArrive member loc lines s) = _
  simp only [doContributionArrive, whenRunning_of_running hrun, hroom]

theorem exec_stripeCloseTimer_of_open {x : Stripe} {rest : List Stripe} (hopen : s.stripes = x :: rest) :
    exec .stripeCloseTimer s = .next (closeStripe s x) := by
  change Host.Outcome.next (doStripeCloseTimer s) = _
  simp only [doStripeCloseTimer, whenRunning_of_running hrun, hopen]

/-! ## Contributions and retractions at the member and the holder (R152, R155, R156) -/

theorem exec_contributionCovered_of_open {loc : BitVec 40} (hopen : s.contribs.any (fun c => c.loc == loc.toNat && !c.cov) = true) :
    exec (.contributionCovered loc) s = .next (logStep (putBand
      { s with contribs := s.contribs.map (fun c => if c.loc == loc.toNat then { c with cov := true } else c) } (locBand loc.toNat)
      { bandOf s (locBand loc.toNat) with uncovered := (bandOf s (locBand loc.toNat)).uncovered - 1 })) := by
  change Host.Outcome.next (doContributionCovered loc s) = _
  rw [doContributionCovered, whenRunning_of_running hrun, hopen, Bool.not_true, if_neg Bool.false_ne_true]

section
variable {member : Fin 16} {loc : BitVec 40} {lines : List LineData} {u : State} (hu : u = ringUnit s member.val loc.toNat lines)
include hu

theorem exec_retraction_of_none (hnone : u.parUnits.find? (fun x => x.parts.contains (member.val, loc.toNat)) = none) :
    exec (.retraction member loc lines) s = .next u := by
  change Host.Outcome.next (doRetraction member loc lines s) = _
  simp only [doRetraction, whenRunning_of_running hrun, ← hu, hnone]

variable {x : Stripe} (hfound : u.parUnits.find? (fun x => x.parts.contains (member.val, loc.toNat)) = some x)
include hfound

/-- With no contribution left the parity unit is retired. -/
theorem exec_retraction_of_only (honly : x.parts = [(member.val, loc.toNat)]) : exec (.retraction member loc lines) s =
    .next (logStep (send { u with parUnits := u.parUnits.erase x, metaLocs := u.metaLocs.filter (fun e => e.1 != ⟨4, 0, 0, x.id⟩) }
      (.peer (peerOf u member.val) 0 [0x54, loc.toNat] 0))) := by
  change Host.Outcome.next (doRetraction member loc lines s) = _
  have hempty : x.parts.erase (member.val, loc.toNat) = [] := by rw [honly, List.erase_cons_head]
  simp only [doRetraction, whenRunning_of_running hrun, ← hu, hfound, hempty, if_true]

/-- With others left a new PARITY unit is written, from the newest one and the lines that are taken out. -/
theorem exec_retraction_of_others (hothers : x.parts.erase (member.val, loc.toNat) ≠ []) : exec (.retraction member loc lines) s =
    .next (logWrite { u with
        parUnits := u.parUnits.map (fun z => if z.id == x.id then { x with parts := x.parts.erase (member.val, loc.toNat) } else z) }
      { type := 4, unit := x.id, parts := x.parts.erase (member.val, loc.toNat), bytes := xorLines [parityLines u x.id, lines],
        acks := [(0x54, member.val, loc.toNat)] } none) := by
  change Host.Outcome.next (doRetraction member loc lines s) = _
  simp only [doRetraction, whenRunning_of_running hrun, ← hu, hfound, hothers, if_false]

end

/-! ## The rebuild of a lost member's medium (R158) -/

theorem exec_substituteRebuild_of_due {item : RebuildItem} {last : Bool} (hdue : s.rebuildAt ≤ itemOrder item) :
    exec (.substituteRebuild item last) s = .next (rebuildItem
      { regPut s (rMed 8) 3 3 (if last then 0 else 1) with rebuildAt := if last then 0 else itemOrder item } item) := by
  change Host.Outcome.next (doSubstituteRebuild item last s) = _
  rw [doSubstituteRebuild, whenRunning_of_running hrun, if_neg (Nat.not_lt.mpr hdue)]

theorem exec_substituteRebuild_of_past {item : RebuildItem} {last : Bool} (hpast : itemOrder item < s.rebuildAt) :
    exec (.substituteRebuild item last) s = .next s := by
  change Host.Outcome.next (doSubstituteRebuild item last s) = _
  rw [doSubstituteRebuild, whenRunning_of_running hrun, if_pos hpast]

end

/-- A DATA unit that is rebuilt without lines only stops being lost. -/
theorem stored_rebuildItem_data (s : State) (r : BitVec 14) (v : BitVec 48) (k : BitVec 40) :
    stored (rebuildItem s (.data r v k [])) = { stored s with lost := Sparse.rem s.lost (unitName r.toNat v.toNat k.toNat) } := by
  rw [rebuildItem, stored_logWrite]
  rfl

/-- Settles O38, clause by clause from the equations of the holder's commands and of the rebuild. -/
theorem parityStripesAndRebuild : Obligations.ParityStripesAndRebuild := by
  intro s hrun
  refine ⟨?arrive, ?timer, ?covered, ?retraction, ?item, ?data⟩
  case arrive =>
    rintro member loc lines x u rfl hroom
    exact exec_contributionArrive_of_room hrun hroom
  case timer => exact fun x rest hopen => exec_stripeCloseTimer_of_open hrun hopen
  case covered => exact fun loc hopen => ⟨_, rfl, exec_contributionCovered_of_open hrun hopen⟩
  case retraction =>
    intro member loc lines u hu
    refine ⟨fun x hfound => ⟨fun honly => ⟨_, rfl, exec_retraction_of_only hrun hu hfound honly⟩, ?_⟩, exec_retraction_of_none hrun hu⟩
    rintro y rfl hothers
    exact ⟨_, rfl, exec_retraction_of_others hrun hu hfound hothers⟩
  case item =>
    rintro item last u rfl
    exact ⟨exec_substituteRebuild_of_due hrun, exec_substituteRebuild_of_past hrun⟩
  case data =>
    intro r v k
    have hrebuilt := stored_rebuildItem_data s r v k
    exact ⟨congrArg Stored.lost hrebuilt, congrArg Stored.mem hrebuilt⟩

end Sys2Proof.Machine
end

section
/-! Chapter 04: counted areas and the arrival areas of the windows (R176 to R184, R358, R359): arming, and what a counted write stores,
marks and counts. -/

namespace Sys2Proof.Machine

/-! ## Marks and counters -/

/-- A set that a number was added to holds it and what it held. -/
theorem Sparse.mem_add {m : List Nat} {k i : Nat} : i ∈ Sparse.add m k ↔ i = k ∨ i ∈ m := by
  induction m with
  | nil => rw [Sparse.add, List.mem_singleton, List.mem_nil_iff, or_false]
  | cons j rest ih =>
    rw [Sparse.add]
    split
    · exact List.mem_cons
    · split
      next hk => rw [hk, List.mem_cons, or_self_left]
      next => rw [List.mem_cons, ih, List.mem_cons, or_left_comm]

@[simp] theorem counter_setCounter_self (s : State) (k : Nat) (v : Word) : counter (setCounter s k v) k = v :=
  Sparse.get_set_self _ _ _ _

theorem counter_setCounter_ne (s : State) {k j : Nat} (v : Word) (hne : j ≠ k) : counter (setCounter s k v) j = counter s j :=
  Sparse.get_set_ne _ _ _ _ hne

theorem counter_congr {s t : State} (hcounters : t.counters = s.counters) (k : Nat) : counter t k = counter s k := by
  rw [counter, hcounters, counter]

theorem winOf_congr {s t : State} (hwins : t.wins = s.wins) (w : Nat) : winOf t w = winOf s w := by
  rw [winOf, hwins, winOf]

@[simp] theorem winOf_setCounter (s : State) (k : Nat) (v : Word) (w : Nat) : winOf (setCounter s k v) w = winOf s w := rfl

theorem mailbox_congr {s t : State} (hregs : t.regs = s.regs) (w : Nat) : mailbox t w = mailbox s w := by
  rw [mailbox, regBit, reg_congr hregs, mailbox, regBit]

@[simp] theorem winOf_putWin_self (s : State) (w : Nat) (x : Win) : winOf (putWin s w x) w = x :=
  Sparse.get_set_self _ _ _ _

/-- Where an area was replaced, the one with its base is the new one. -/
theorem eq_of_mem_putArea {s : State} {a b : Area} (hmem : b ∈ (putArea s a).areas) (hbase : b.base = a.base) : b = a := by
  obtain ⟨c, -, rfl⟩ := List.mem_map.1 hmem
  split at hbase
  next hc => rw [if_pos hc]
  next hc => exact absurd (beq_iff_eq.2 hbase) hc

/-! ## What counted writes act on -/

/-- What a counted write acts on: the bytes, the arrival counters, and the marks of the areas and of the windows. -/
structure Arrivals where
  mem : List Host.Cell
  counters : List (Nat × Word)
  areas : List Area
  wins : List (Nat × Win)

def arrivals (s : State) : Arrivals := ⟨s.mem, s.counters, s.areas, s.wins⟩

theorem arrivals_congr {s t : State} (hmem : t.mem = s.mem) (hcounters : t.counters = s.counters) (hareas : t.areas = s.areas)
    (hwins : t.wins = s.wins) : arrivals t = arrivals s := by
  rw [arrivals, hmem, hcounters, hareas, hwins, arrivals]

theorem arrivals_ite (c : Prop) [Decidable c] (s t : State) : arrivals (if c then s else t) = if c then arrivals s else arrivals t :=
  apply_ite arrivals c s t

@[simp] theorem arrivals_regPut (s : State) (off hi lo v : Nat) : arrivals (regPut s off hi lo v) = arrivals s :=
  arrivals_congr rfl rfl rfl rfl

@[simp] theorem arrivals_setBit (s : State) (off b : Nat) : arrivals (setBit s off b) = arrivals s := arrivals_regPut s off b b 1

@[simp] theorem arrivals_setWinState (s : State) (w v : Nat) : arrivals (setWinState s w v) = arrivals s :=
  arrivals_regPut s _ _ _ v

@[simp] theorem arrivals_clrPoison (s : State) (key : Nat) : arrivals (clrPoison s key) = arrivals s :=
  arrivals_congr rfl rfl rfl rfl

@[simp] theorem arrivals_send (s : State) (o : Out) : arrivals (send s o) = arrivals s :=
  arrivals_congr rfl rfl rfl rfl

@[simp] theorem arrivals_putSess (s : State) (n : Nat) (x : Sess) : arrivals (putSess s n x) = arrivals s := by
  rw [putSess, arrivals_regPut]
  exact arrivals_congr rfl rfl rfl rfl

@[simp] theorem arrivals_pmc (s : State) (b i n : Nat) (dom : Option Nat) : arrivals (pmc s b i n dom) = arrivals s := by
  simp only [pmc, pmcAdd, arrivals_ite, arrivals_regPut, arrivals_setBit, ite_self]

theorem arrivals_takeInj {s t : State} {off kind arg : Nat} {p : Nat → Bool} (htake : takeInj s off kind p = some (arg, t)) :
    arrivals t = arrivals s := by
  rw [takeInj] at htake
  split at htake
  · cases htake
  · cases htake
    split <;> rfl

@[simp] theorem arrivals_zctPut (s : State) (p n : Nat) (b : ZBlk) : arrivals (zctPut s p n b) = arrivals s := by
  rw [zctPut]
  split
  next htake => exact arrivals_takeInj htake
  next => simp only [arrivals_send, arrivals_pmc]

@[simp] theorem arrivals_zctEmit (s : State) (n : Nat) (b : ZBlk) : arrivals (zctEmit s n b) = arrivals s := by
  rw [zctEmit]
  split
  · rfl
  · rw [arrivals_ite, arrivals_zctPut]
    split <;> rfl

@[simp] theorem arrivals_zctSend (s : State) (n kind ref reason addr : Nat) (data : List LineData) :
    arrivals (zctSend s n kind ref reason addr data) = arrivals s := by
  rw [zctSend]
  split
  · rfl
  · extract_lets
    split
    · rw [arrivals_zctEmit, arrivals_putSess]
    · rw [arrivals_putSess]

/-- A line that arrived in a mailbox goes on in blocks of the sessions, which touch no counted area (R572). -/
@[simp] theorem arrivals_zctForward (s : State) (w off : Nat) (d : LineData) : arrivals (zctForward s w off d) = arrivals s :=
  forEach_keeps arrivals (fun t _ => arrivals_zctSend t _ _ _ _ _ _) _ _

/-! ## Counted areas (R177, R178) -/

section
variable (s : State) {a : Area} {n : Nat} (dom : Nat) (d : LineData) (harmed : a.armed = true)
include harmed

/-- At a line already arrived a counted write only stores the line. -/
theorem arrivals_countedWrite_of_arrived (hold : a.arrived.contains n = true) :
    arrivals (countedWrite s a (a.base + 64 * n) dom d) = arrivals (s.putLine (a.base + 64 * n) d) := by
  have hline : (a.base + 64 * n - a.base) / 64 = n := by omega
  simp only [countedWrite, hline, harmed, hold, Bool.not_true, Bool.false_or, if_true, arrivals_clrPoison]

/-- At a line not yet arrived it also marks the line and counts it. -/
theorem arrivals_countedWrite_of_new (hnew : a.arrived.contains n = false) :
    arrivals (countedWrite s a (a.base + 64 * n) dom d) =
      arrivals (setCounter (putArea (s.putLine (a.base + 64 * n) d) { a with arrived := Sparse.add a.arrived n }) a.counter
        (counter s a.counter + 1)) := by
  have hline : (a.base + 64 * n - a.base) / 64 = n := by omega
  simp only [countedWrite, hline, harmed, hnew, Bool.not_true, Bool.or_self, Bool.false_eq_true, if_false]
  generalize hcounted : pmc (clrPoison (s.putLine (a.base + 64 * n) d) (a.base + 64 * n)) (176 + ctrHome a.counter) 10 1 (some dom) = u
  have hu : arrivals u = arrivals (s.putLine (a.base + 64 * n) d) := by rw [← hcounted, arrivals_pmc, arrivals_clrPoison]
  obtain ⟨hmem, hcounters, hareas, hwins⟩ := Arrivals.mk.inj hu
  have hcount : counter u a.counter = counter s a.counter := counter_congr hcounters _
  simp only [arrivals, setCounter, putArea, hmem, hcounters, hareas, hwins, hcount]

/-- Every counted write to an armed area stores the line's bytes and no other byte. -/
theorem mem_countedWrite : (countedWrite s a (a.base + 64 * n) dom d).mem = Mem.putLine s.mem (a.base + 64 * n) d := by
  cases hin : a.arrived.contains n
  · exact congrArg Arrivals.mem (arrivals_countedWrite_of_new s dom d harmed hin)
  · exact congrArg Arrivals.mem (arrivals_countedWrite_of_arrived s dom d harmed hin)

end

/-! ## Windows (R177, R359, R572) -/

/-- Arming a window starts its marks and its counter over. -/
theorem arrivals_armWindow (s : State) (w : Nat) : arrivals (armWindow s w) = arrivals (setCounter (putWin s w win0) (winCtr w) 0) := by
  rw [armWindow, arrivals_setWinState, arrivals_regPut]

/-- A window's marks after the first arrival at line `i`, from domain `dom` (R178, R645). -/
def markWin (x : Win) (i dom : Nat) : Win :=
  { x with arrived := Sparse.add x.arrived i, dom0 := if i = 0 then some dom else x.dom0, doms := Sparse.add x.doms dom }

section
variable {s : State} {w x dom : Nat} {d : LineData} (hbox : mailbox s w = true)
include hbox

/-- At a line already arrived a mailbox's write only stores the line. -/
theorem arrivals_windowWrite_of_arrived (hold : (winOf s w).arrived.contains (x / 64) = true) :
    arrivals (windowWrite s w x dom d).2 = arrivals (s.putLine (winOff w (x / 64 * 64)) d) := by
  simp only [windowWrite, hbox, hold, Bool.not_true, Bool.false_and, Bool.false_eq_true, if_false, if_true, ite_self,
    arrivals_clrPoison]

/-- Window numbers are not bounded here, and WIN_STAT_w of one far out could be a register that the performance count changes: what follows
the count is followed in either mode, and keeps the view in both. -/
theorem arrivals_windowWrite_of_new (hnew : (winOf s w).arrived.contains (x / 64) = false) :
    arrivals (windowWrite s w x dom d).2 =
      arrivals (setCounter (putWin (s.putLine (winOff w (x / 64 * 64)) d) w (markWin (winOf s w) (x / 64) dom)) (winCtr w)
        (counter s (winCtr w) + 1)) := by
  unfold windowWrite
  extract_lets off i st rec1 stored counted advanced rec2 marked opened
  have hstored : mailbox stored w = true := (mailbox_congr rfl w).trans hbox
  simp only [i, rec1, hbox, hstored, hnew, Bool.not_true, Bool.false_and, Bool.and_false, Bool.false_eq_true, if_false]
  have hview : arrivals counted = arrivals (s.putLine off d) := by simp only [counted, stored, arrivals_pmc, arrivals_clrPoison]
  obtain ⟨hmem, hcounters, hareas, hwins⟩ := Arrivals.mk.inj hview
  have hcount : counter counted (winCtr w) = counter s (winCtr w) := counter_congr hcounters _
  have hmarked : arrivals marked =
      arrivals (setCounter (putWin (s.putLine off d) w (markWin rec1 i dom)) (winCtr w) (counter s (winCtr w) + 1)) := by
    simp only [marked, advanced, rec2, markWin, arrivals, setCounter, putWin, hmem, hcounters, hareas, hwins, hcount]
  clear_value counted
  split
  · exact (arrivals_zctForward marked w off d).trans hmarked
  · split
    · rw [arrivals_regPut, arrivals_regPut, arrivals_setWinState, hmarked]
    · rw [arrivals_setWinState, hmarked]

theorem mem_windowWrite : (windowWrite s w x dom d).2.mem = Mem.putLine s.mem (winOff w (x / 64 * 64)) d := by
  cases hin : (winOf s w).arrived.contains (x / 64)
  · exact congrArg Arrivals.mem (arrivals_windowWrite_of_new hbox hin)
  · exact congrArg Arrivals.mem (arrivals_windowWrite_of_arrived hbox hin)

end

/-- Settles O58: what arming and a counted write do follows from what each leaves of the bytes, the counters and the marks. -/
theorem countedAreasCountFirstArrivals : Obligations.CountedAreasCountFirstArrivals := by
  refine ⟨fun s a _ _ => ⟨?armArea, ?area⟩, ?armWindow, ?window⟩
  case armArea =>
    refine ⟨counter_setCounter_self _ _ _, fun k hk => counter_setCounter_ne _ _ hk, rfl, fun b hb hbase => ?_⟩
    rw [eq_of_mem_putArea (s := s) (a := { a with arrived := [], armed := true }) hb hbase]
    exact ⟨rfl, rfl⟩
  case area =>
    rintro n dom d harmed - t rfl
    refine ⟨?_, fun x hx => ?_, fun hnew => ?_, fun hold => ?_⟩
    · rw [mem_countedWrite s dom d harmed, Mem.line_putLine_self]
    · rw [mem_countedWrite s dom d harmed, Mem.read_putLine_out _ _ _ _ hx]
    · obtain ⟨-, hcounters, hareas, -⟩ := Arrivals.mk.inj (arrivals_countedWrite_of_new s dom d harmed hnew)
      refine ⟨(counter_congr hcounters _).trans (counter_setCounter_self _ _ _),
        fun k hk => (counter_congr hcounters k).trans (counter_setCounter_ne _ _ hk), fun b hb hbase i => ?_⟩
      rw [hareas] at hb
      rw [eq_of_mem_putArea (s := s) (a := { a with arrived := Sparse.add a.arrived n }) hb hbase]
      exact Sparse.mem_add
    · obtain ⟨-, hcounters, hareas, -⟩ := Arrivals.mk.inj (arrivals_countedWrite_of_arrived s dom d harmed hold)
      exact ⟨hcounters, hareas⟩
  case armWindow =>
    intro s w
    obtain ⟨hmem, hcounters, -, hwins⟩ := Arrivals.mk.inj (arrivals_armWindow s w)
    have hempty : winOf (armWindow s w) w = win0 := by rw [winOf_congr hwins, winOf_setCounter, winOf_putWin_self]
    exact ⟨(counter_congr hcounters _).trans (counter_setCounter_self _ _ _),
      fun k hk => (counter_congr hcounters k).trans (counter_setCounter_ne _ _ hk), hmem, congrArg Win.arrived hempty⟩
  case window =>
    intro s w x dom d t hbox hwrite
    obtain rfl : (windowWrite s w x dom d).2 = t := congrArg Prod.snd hwrite
    refine ⟨?_, fun hold => ?_, fun hnew => ?_⟩
    · rw [mem_windowWrite hbox, Mem.line_putLine_self]
    · obtain ⟨-, hcounters, -, hwins⟩ := Arrivals.mk.inj (arrivals_windowWrite_of_arrived hbox hold)
      exact ⟨hcounters, hwins⟩
    · obtain ⟨-, hcounters, -, hwins⟩ := Arrivals.mk.inj (arrivals_windowWrite_of_new hbox hnew)
      have hmarked : winOf (windowWrite s w x dom d).2 w = markWin (winOf s w) (x / 64) dom := by
        rw [winOf_congr hwins, winOf_setCounter, winOf_putWin_self]
      refine ⟨(counter_congr hcounters _).trans (counter_setCounter_self _ _ _),
        fun k hk => (counter_congr hcounters k).trans (counter_setCounter_ne _ _ hk), ?_⟩
      rw [hmarked, List.contains_iff_mem]
      exact Sparse.mem_add.2 (.inl rfl)

end Sys2Proof.Machine
end

section
/-! Chapters 02, 04 and 05: line accesses of the management port to the Chucks, the windows, the counters and the control window of this
controller (R41 to R45, R182, R185 to R189, R206, R358, R649, R760). -/

namespace Sys2Proof.Machine

/-- With no injection armed a Chuck meets no error (R258, R316). -/
theorem chuckErrors_of_none_armed {s : State} (hinj : s.inj = []) (l : Nat) : chuckErrors s l = (false, s) := by
  simp only [chuckErrors, takeInj_of_none_armed hinj]

/-- A request of the management port is this controller's own. -/
theorem senderOf_mgmt (s : State) (sender : BitVec 10) : senderOf s .mgmt sender = ownCtrl s := rfl

/-! ## The access reaches its target -/

section
variable {s : State} {addr : BitVec 60} {off : Nat} (haddr : addr.toNat % 64 = 0) (hroute : route s addr.toNat = .own off)
include haddr hroute

/-- An access of the management port to a line of this controller passes no gate. -/
theorem lineAccess_mgmt_of_own (op : ReqOp) (txn : BitVec 12) (data : LineData) (mask : BitVec 64) (sender : Nat) :
    lineAccess op .mgmt txn addr.toNat data mask sender s =
      ownAccess s addr.toNat off sender (mkReq op txn .mgmt (addr.toNat % 2 ^ 50) data mask) := by
  have hline : addr.toNat / 64 * 64 = addr.toNat := Nat.div_mul_cancel (Nat.dvd_of_mod_eq_zero haddr)
  simp only [lineAccess, hostGate, hline, hroute]

variable (hrun : running s = true) (txn : BitVec 12)
include hrun

theorem exec_rdnc_mgmt_of_own : exec (.rdnc .mgmt txn addr) s =
    .next (ownAccess s addr.toNat off (ownCtrl s) (mkReq .rdnc txn .mgmt (addr.toNat % 2 ^ 50) 0 0)) := by
  change Host.Outcome.next (doRdnc .mgmt txn addr s) = _
  rw [doRdnc, whenRunning_of_running hrun, lineAccess_mgmt_of_own haddr hroute]

theorem exec_wrline_mgmt_of_own (data : LineData) (sender : BitVec 10) : exec (.wrline .mgmt txn addr data sender) s =
    .next (ownAccess s addr.toNat off (ownCtrl s) (mkReq .wrline txn .mgmt (addr.toNat % 2 ^ 50) data allBytes)) := by
  change Host.Outcome.next (doWrline .mgmt txn addr data sender s) = _
  rw [doWrline, whenRunning_of_running hrun, lineAccess_mgmt_of_own haddr hroute, senderOf_mgmt]

theorem exec_wrnc_mgmt_of_own (mask : BitVec 64) (data : LineData) (sender : BitVec 10) :
    exec (.wrnc .mgmt txn addr mask data sender) s =
      .next (ownAccess s addr.toNat off (ownCtrl s) (mkReq .wrnc txn .mgmt (addr.toNat % 2 ^ 50) data mask)) := by
  change Host.Outcome.next (doWrnc .mgmt txn addr mask data sender s) = _
  rw [doWrnc, whenRunning_of_running hrun, lineAccess_mgmt_of_own haddr hroute, senderOf_mgmt]

end

/-! ## What each target does with it -/

section
variable {s : State} {r : Req} (a : Nat) {l x : Nat}

theorem chuckWindowAccess_read (sender : Nat) (hinj : s.inj = []) (hop : r.op = .rdnc)
    (hgrant : permitChuck s (masterDom s r.src) l false = true) :
    chuckWindowAccess s a l x sender r = gwReply s a r 0x31 0 0 (chuckLine s l x) false := by
  simp [chuckWindowAccess, hop, hgrant, chuckErrors_of_none_armed hinj]

/-- A full line is scratch where no counted area and no replica is, and no kernel runs. -/
theorem chuckWindowAccess_scratch (sender : Nat) (hop : r.op = .wrline)
    (hgrant : permitChuck s (masterDom s r.src) l true = true) (harea : areaAt s (chuckOff l x) = none) (hreplica : replicaAt s l x = none)
    (hidle : latheBusy s l = false) :
    chuckWindowAccess s a l x sender r = gwReply (putScratch s l x r.data) a r 0x26 0 0 0 false := by
  simp [chuckWindowAccess, hop, hgrant, harea, hreplica, hidle]

theorem windowAccess_write {w sender : Nat} {t : State} (hop : r.op = .wrline)
    (hgrant : permitWindow s (masterDom s r.src) w true = true)
    (hwrite : windowWrite (countedFrom s sender) w x (masterDom s r.src) r.data = (false, t)) :
    windowAccess s a w x sender r = gwReply t a r 0x26 0 0 0 false := by
  have hwr : (ReqOp.wrline != .rdnc) = true := rfl
  have hread : (ReqOp.wrline == .rdnc) = false := rfl
  have hfull : fullMask r = true := by simp [fullMask, hop]
  simp only [windowAccess, hop, hwr, hread, hgrant, hfull, hwrite, Bool.not_true, Bool.false_eq_true, if_false]

theorem counterAccess_read {k : Nat} (hop : r.op = .rdnc)
    (hgrant : (List.range 8).all (fun i => permitCounter s (masterDom s r.src) (k / 8 * 8 + i) false) = true) :
    counterAccess s a k r = gwReply s a r 0x31 0 0 (counterLine s k) false := by
  simp only [counterAccess, hop, hgrant, bne_self_eq_false, Bool.not_true, Bool.or_self, Bool.false_eq_true, if_false]

theorem controlAccess_read (hop : r.op = .rdnc) (hgrant : permitControl s (masterDom s r.src) x false = true) :
    controlAccess s a x r =
      gwReply (touchUnit s (x / 64 * 64)) a r 0x31 0 0 (controlLine s (masterDom s r.src) x) false := by
  simp [controlAccess, hop, hgrant]

variable (hgrant : permitControl s (masterDom s r.src) x true = true)
include hgrant

theorem controlAccess_line (hop : r.op = .wrline) :
    controlAccess s a x r = gwReply (ctlLine s x (masterDom s r.src) r.data) a r 0x26 0 0 0 false := by
  have hwr : (ReqOp.wrline != .rdnc) = true := rfl
  simp only [controlAccess, hop, hwr, hgrant, Bool.not_true, Bool.false_eq_true, if_false]

theorem controlAccess_masked (hop : r.op = .wrnc) (hplain : inRings x = false) :
    controlAccess s a x r = gwReply (ctlMasked s x (masterDom s r.src) r.data r.mask) a r 0x26 0 0 0 false := by
  have hwr : (ReqOp.wrnc != .rdnc) = true := rfl
  simp only [controlAccess, hop, hwr, hgrant, hplain, Bool.not_true, Bool.false_eq_true, if_false]

end

/-- Settles O29, target by target: the access reaches the target of its offset, which acts as its own rule says. -/
theorem lineAccessesBeyondTheHomes : Obligations.LineAccessesBeyondTheHomes := by
  intro s txn addr off hrun hinj haddr hroute
  have hread := exec_rdnc_mgmt_of_own haddr hroute hrun txn
  have hline := exec_wrline_mgmt_of_own haddr hroute hrun txn
  have hmasked := exec_wrnc_mgmt_of_own haddr hroute hrun txn
  refine ⟨?chuck, ?window, ?counters, ?control, ?hole⟩
  case chuck =>
    intro l x htarget
    simp only [ownAccess, htarget] at hread hline
    refine ⟨fun hgrant => ?_, fun data sender hgrant harea hreplica hidle => ?_⟩
    · exact hread.trans (congrArg _ (chuckWindowAccess_read _ _ hinj rfl hgrant))
    · exact (hline _ _).trans (congrArg _ (chuckWindowAccess_scratch _ _ rfl hgrant harea hreplica hidle))
  case window =>
    intro w x data sender t htarget hgrant hwrite
    simp only [ownAccess, htarget] at hline
    exact (hline _ _).trans (congrArg _ (windowAccess_write _ rfl hgrant hwrite))
  case counters =>
    intro k htarget hgrant
    simp only [ownAccess, htarget] at hread
    exact hread.trans (congrArg _ (counterAccess_read _ rfl hgrant))
  case control =>
    intro x htarget
    simp only [ownAccess, htarget] at hread hline hmasked
    refine ⟨fun hgrant => ?_, fun hgrant => ⟨fun data sender => ?_, fun mask data sender hplain => ?_⟩⟩
    · exact hread.trans (congrArg _ (controlAccess_read _ rfl hgrant))
    · exact (hline _ _).trans (congrArg _ (controlAccess_line _ hgrant rfl))
    · exact (hmasked _ _ _).trans (congrArg _ (controlAccess_masked _ hgrant rfl hplain))
  case hole =>
    intro htarget
    simp only [ownAccess, htarget] at hread
    exact hread

end Sys2Proof.Machine
end

section
/-! Chapter 05: requests of hosts reach their home agents (R204 to R206, R212, R222, R644, R649). -/

namespace Sys2Proof.Machine

/-- R205, R222, R644 to R649, R759: a request that passes the home's checks is taken. -/
theorem homeRequest_of_accepted {s : State} {r : Req} {rg : Nat} (hacc : Accepted s r rg) : homeRequest s r = takeRequest s r := by
  obtain ⟨hregion, hcoh, hroom, hkept, hgrant, hdirect, hdraft, hwhole⟩ := hacc
  have hsource : ((r.op == .rds || r.op == .rde || r.op == .upgr || r.op == .wrback || r.op == .evict) && (hostNo r.src).isNone) = false :=
    Bool.and_eq_false_imp.2 fun h => (hcoh h).1
  have hcoherent : ((r.op == .rds || r.op == .rde || r.op == .upgr || r.op == .wrback || r.op == .evict) && !rgCoherent s rg) = false :=
    Bool.and_eq_false_imp.2 fun h => by rw [(hcoh h).2, Bool.not_true]
  have hslot : (decide (regFld s rCohCfg 15 8 ≤ outstanding s (homeOf r.off) r.src) && (hostNo r.src).isSome) = false := by
    rw [Bool.and_comm]
    exact Bool.and_eq_false_imp.2 fun h => decide_eq_false (Nat.not_le.2 (hroom h))
  have hlive : (decide (r.off < 2 ^ 48) && rgDeleting s rg) = false :=
    Bool.and_eq_false_imp.2 fun h => hkept (of_decide_eq_true h)
  have hpermit : (!(r.op == .wrback || r.op == .evict) && !permitRegion s (masterDom s r.src) rg r.op.writes) = false :=
    Bool.and_eq_false_imp.2 fun h => by rw [hgrant (Bool.not_eq_true' _ ▸ h), Bool.not_true]
  have hversion : (decide (r.off < 2 ^ 48) && rgVersioned s rg && r.op.writes) = false := by
    rw [Bool.and_assoc, Bool.and_comm (rgVersioned s rg), ← Bool.and_assoc]
    exact Bool.and_eq_false_imp.2 fun h => hdirect (of_decide_eq_true (Bool.and_eq_true_iff.1 h).1) (Bool.and_eq_true_iff.1 h).2
  have htether : (isTether s rg && (r.op == .wrnc && !fullMask r)) = false := Bool.and_eq_false_imp.2 fun ht =>
    Bool.and_eq_false_imp.2 fun hop => by rw [hwhole ht (eq_of_beq hop), Bool.not_true]
  simp only [homeRequest, hregion, hsource, hcoherent, hslot, hlive, hpermit, hversion, htether, Bool.false_eq_true, if_false]
  refine if_neg fun hshut => ?_
  obtain ⟨hfar, hstate⟩ := Bool.and_eq_true_iff.1 hshut
  obtain ⟨hrange, hwrite⟩ := Bool.and_eq_true_iff.1 hfar
  obtain ⟨d, x, hat, hd⟩ := hdraft (of_decide_eq_true hrange) hwrite
  simp [hat, hd] at hstate

section
variable {s : State} {n : Fin 64} {addr : BitVec 60} (hpath : HostPath s n addr) (op : ReqOp) (txn : BitVec 12) (data : LineData)
include hpath

/-- R204, R245, R653, R656: a VALID host that is neither fenced nor frozen passes the gate of its port. -/
theorem hostGate_of_hostPath (a : Nat) : hostGate s (.host n) op a = (none, s) := by
  obtain ⟨-, hfence, hfreeze, hvalid, hinj, -⟩ := hpath
  simp only [hostGate, hfence, hfreeze, hvalid, takeInj_of_none_armed hinj, Bool.false_and, Bool.not_true, Bool.false_eq_true, if_false]

/-- R205: a coherent request for a line of the home or draft range goes to the line's home. -/
theorem coherentReq_of_hostPath : coherentReq op (.host n) txn addr data s =
    homeRequest s (mkReq op txn (.host n) (addr.toNat % 2 ^ 50) data 0) := by
  have hgate := hostGate_of_hostPath hpath op addr.toNat
  obtain ⟨hrun, -, -, -, -, hroute, hrange, hready⟩ := hpath
  rw [coherentReq, whenRunning_of_running hrun]
  obtain hhome | ⟨d, x, hdraft⟩ := hrange
  · simp only [hgate, hostNo, hroute, hhome, hready, Option.isNone_some, Bool.false_eq_true, if_false, if_true]
  · simp only [hgate, hostNo, hroute, hdraft, hready, Option.isNone_some, Bool.false_eq_true, if_false, if_true]

/-- R206: so does a line access. -/
theorem lineAccess_of_hostPath (hline : addr.toNat % 64 = 0) (mask : BitVec 64) (sender : Nat) :
    lineAccess op (.host n) txn addr.toNat data mask sender s =
      homeRequest s (mkReq op txn (.host n) (addr.toNat % 2 ^ 50) data mask) := by
  have hgate := hostGate_of_hostPath hpath op addr.toNat
  have hwhole : addr.toNat / 64 * 64 = addr.toNat := Nat.div_mul_cancel (Nat.dvd_of_mod_eq_zero hline)
  obtain ⟨-, -, -, -, -, hroute, hrange, hready⟩ := hpath
  obtain hhome | ⟨d, x, hdraft⟩ := hrange
  · simp only [lineAccess, hwhole, hgate, hroute, ownAccess, hhome, hready, if_true]
  · simp only [lineAccess, hwhole, hgate, hroute, ownAccess, hdraft, hready, if_true]

end

section
variable {s : State} {n : Fin 64} {addr : BitVec 60} {rg : Nat} (hpath : HostPath s n addr)
include hpath

theorem coherentReq_of_accepted {op : ReqOp} {txn : BitVec 12} {data : LineData}
    (hacc : Accepted s (mkReq op txn (.host n) (addr.toNat % 2 ^ 50) data 0) rg) : coherentReq op (.host n) txn addr data s =
      takeRequest s (mkReq op txn (.host n) (addr.toNat % 2 ^ 50) data 0) :=
  (coherentReq_of_hostPath hpath op txn data).trans (homeRequest_of_accepted hacc)

variable (hline : addr.toNat % 64 = 0)
include hline

theorem lineAccess_of_accepted {op : ReqOp} {txn : BitVec 12} {data : LineData} {mask : BitVec 64} (sender : Nat)
    (hacc : Accepted s (mkReq op txn (.host n) (addr.toNat % 2 ^ 50) data mask) rg) :
    lineAccess op (.host n) txn addr.toNat data mask sender s =
      takeRequest s (mkReq op txn (.host n) (addr.toNat % 2 ^ 50) data mask) :=
  (lineAccess_of_hostPath hpath op txn data hline mask sender).trans (homeRequest_of_accepted hacc)

end

/-! ## The rows of the requests -/

section
variable (src : Master) (txn : BitVec 12) (addr : BitVec 60) (data : LineData) (s : State)

theorem exec_rds : exec (.rds src txn addr) s = .next (coherentReq .rds src txn addr 0 s) := rfl
theorem exec_rde : exec (.rde src txn addr) s = .next (coherentReq .rde src txn addr 0 s) := rfl
theorem exec_upgr : exec (.upgr src txn addr) s = .next (coherentReq .upgr src txn addr 0 s) := rfl
theorem exec_wrback : exec (.wrback src txn addr data) s = .next (coherentReq .wrback src txn addr data s) := rfl
theorem exec_evict : exec (.evict src txn addr) s = .next (coherentReq .evict src txn addr 0 s) := rfl

variable {s} (hrun : running s = true)
include hrun

theorem exec_rdnc_of_running :
    exec (.rdnc src txn addr) s = .next (lineAccess .rdnc src txn addr.toNat 0 0 (ownCtrl s) s) := by
  change Host.Outcome.next (doRdnc src txn addr s) = _
  rw [doRdnc, whenRunning_of_running hrun]

theorem exec_wrnc_of_running (mask : BitVec 64) (sender : BitVec 10) : exec (.wrnc src txn addr mask data sender) s =
    .next (lineAccess .wrnc src txn addr.toNat data mask (senderOf s src sender) s) := by
  change Host.Outcome.next (doWrnc src txn addr mask data sender s) = _
  rw [doWrnc, whenRunning_of_running hrun]

theorem exec_wrline_of_running (sender : BitVec 10) : exec (.wrline src txn addr data sender) s =
    .next (lineAccess .wrline src txn addr.toNat data allBytes (senderOf s src sender) s) := by
  change Host.Outcome.next (doWrline src txn addr data sender s) = _
  rw [doWrline, whenRunning_of_running hrun]

end

/-- Settles O26: the request passes the gate of the host's port, its address leads to a home, and the home's checks take it. -/
theorem hostRequestsReachTheHome : Obligations.HostRequestsReachTheHome := by
  intro s n txn addr rg hpath
  have hrun := hpath.1
  refine ⟨fun hacc => ?rds, fun hacc => ?rde, fun hacc => ?upgr, fun data hacc => ?wrback, fun hacc => ?evict, fun hline =>
    ⟨fun hacc => ?rdnc, fun mask data sender hacc => ?wrnc, fun data sender hacc => ?wrline⟩⟩
  case rds => rw [exec_rds, coherentReq_of_accepted hpath hacc]
  case rde => rw [exec_rde, coherentReq_of_accepted hpath hacc]
  case upgr => rw [exec_upgr, coherentReq_of_accepted hpath hacc]
  case wrback => rw [exec_wrback, coherentReq_of_accepted hpath hacc]
  case evict => rw [exec_evict, coherentReq_of_accepted hpath hacc]
  case rdnc => rw [exec_rdnc_of_running _ _ _ hrun, lineAccess_of_accepted hpath hline _ hacc]
  case wrnc => rw [exec_wrnc_of_running _ _ _ _ hrun, lineAccess_of_accepted hpath hline _ hacc]
  case wrline => rw [exec_wrline_of_running _ _ _ _ hrun, lineAccess_of_accepted hpath hline _ hacc]

end Sys2Proof.Machine
end

section
/-! Chapter 05: a home serves a request that it takes, defers it or queues it (R219 to R221, R226, R230, R231). -/

namespace Sys2Proof.Machine

/-! ## The branches of a request that is taken

`u` is the state in which the home takes the request: the deferred requests that can be activated have been, when one waits for its line
(R223, log entry 160). -/

section
variable {s u : State} {r : Req} (hu : u = if deferred s r.off = true then activateAll s.retry.length s (homeOf r.off) else s)
include hu

/-- R231: in blocking mode a busy line or a full tracker queues the request. -/
theorem takeRequest_of_blocking_wait (hmode : blocking u = true)
    (hwait : busy u r.off = true ∨ 1792 ≤ trkPlain u (homeOf r.off)) :
    takeRequest s r = { u with blockq := u.blockq ++ [(homeOf r.off, r)] } := by
  have hheld : (busy u r.off || !trkRoom u (homeOf r.off)) = true := by simpa [trkRoom] using hwait
  simp only [takeRequest, ← hu, hmode, hheld, if_true]

/-- R221, R226: in native mode a line that is busy, or for which a deferred request waits, defers the request with reason LINE, or
queues it when the retry list is full. -/
theorem takeRequest_of_line_wait (hmode : blocking u = false) (hwait : busy u r.off = true ∨ deferred u r.off = true) :
    takeRequest s r = if 4096 ≤ (u.retry.filter (fun p => p.1 == homeOf r.off)).length
      then { u with blockq := u.blockq ++ [(homeOf r.off, r)] } else deferReq u (homeOf r.off) r 1 := by
  have hheld : (busy u r.off || deferred u r.off) = true := Bool.or_eq_true_iff.2 hwait
  simp only [takeRequest, ← hu, hmode, hheld, decide_eq_true_eq, Bool.false_eq_true, if_true, if_false]

/-- R221: in native mode a full tracker does so with reason TRK. -/
theorem takeRequest_of_tracker_wait (hmode : blocking u = false) (hfree : busy u r.off = false) (hnone : deferred u r.off = false)
    (hfull : 1792 ≤ trkPlain u (homeOf r.off)) :
    takeRequest s r = if 4096 ≤ (u.retry.filter (fun p => p.1 == homeOf r.off)).length
      then { u with blockq := u.blockq ++ [(homeOf r.off, r)] } else deferReq u (homeOf r.off) r 2 := by
  have hheld : (!trkRoom u (homeOf r.off)) = true := by simpa [trkRoom] using hfull
  have hline : (busy u r.off || deferred u r.off) = false := by rw [hfree, hnone, Bool.or_false]
  simp only [takeRequest, ← hu, hmode, hline, hheld, decide_eq_true_eq, Bool.false_eq_true, if_true, if_false]

/-- A request for a free line is served, in blocking mode behind no deferred one, with room in the tracker. -/
theorem takeRequest_of_free (hfree : busy u r.off = false) (hnone : blocking u = false → deferred u r.off = false)
    (hroom : trkPlain u (homeOf r.off) < 1792) : takeRequest s r = settleAll (serve u r false) := by
  have hspace : trkRoom u (homeOf r.off) = true := decide_eq_true hroom
  cases hmode : blocking u
  case true => simp only [takeRequest, ← hu, hmode, hfree, hspace, Bool.not_true, Bool.or_self, Bool.false_eq_true, if_true, if_false]
  case false =>
    simp only [takeRequest, ← hu, hmode, hfree, hnone hmode, hspace, Bool.not_true, Bool.or_self, Bool.false_eq_true, if_false]

end

/-! ## What deferring a request leaves alone -/

/-- What the homes serve from and what waits at them: the bytes, the transactions in service, and the deferred requests. -/
structure HomeWork where
  mem : List Host.Cell
  trk : List Txn
  retry : List (Nat × Req)

def homeWork (s : State) : HomeWork := ⟨s.mem, s.trk, s.retry⟩

theorem homeWork_ite (c : Prop) [Decidable c] (s t : State) : homeWork (if c then s else t) = if c then homeWork s else homeWork t :=
  apply_ite homeWork c s t

@[simp] theorem homeWork_regPut (s : State) (off hi lo v : Nat) : homeWork (regPut s off hi lo v) = homeWork s := rfl

@[simp] theorem homeWork_setBit (s : State) (off b : Nat) : homeWork (setBit s off b) = homeWork s := rfl

@[simp] theorem homeWork_incCnt (s : State) (off : Nat) : homeWork (incCnt s off) = homeWork s := rfl

@[simp] theorem homeWork_pmc (s : State) (b i n : Nat) (dom : Option Nat) : homeWork (pmc s b i n dom) = homeWork s := by
  simp only [pmc, pmcAdd, homeWork_ite, homeWork_regPut, homeWork_setBit, ite_self]

@[simp] theorem homeWork_fromAgent (s : State) (p : Nat) (o : Option Nat) (dom : Nat) (slots : List Nat) :
    homeWork (fromAgent s p o dom slots) = homeWork s := by
  have hcell : ∀ outs, homeWork (agentCell s p outs dom slots) = homeWork s := fun outs => by
    unfold agentCell
    split <;> rfl
  cases o with
  | none => rfl
  | some o => exact (homeWork_ite _ _ _).trans (by rw [hcell, ite_self])

@[simp] theorem homeWork_homeOut (s : State) (p src : Nat) (m : Msg) : homeWork (homeOut s p src m) = homeWork s := by
  rw [homeOut, homeWork_ite, homeWork_incCnt, homeWork_incCnt, homeWork_fromAgent]
  exact ite_self _

theorem homeWork_answer_host (s : State) {m : Msg} {n : Fin 64} (hdst : m.dst = .host n) : homeWork (answer s m) = homeWork s := by
  simp only [answer, hdst, homeWork_homeOut]

/-- R221: a host's deferred request waits in the retry list without its data. -/
theorem homeWork_deferReq_host (s : State) (h : Nat) {r : Req} (rsn : Nat) {n : Fin 64} (hsrc : r.src = .host n) :
    homeWork (deferReq s h r rsn) = ⟨s.mem, s.trk, s.retry ++ [(h, { r with data := 0, mask := 0 })]⟩ := by
  rw [deferReq, homeWork_answer_host _ hsrc, homeWork_pmc, hsrc]
  rfl

/-- Settles O27: one lemma for each branch of a request that is taken, and what deferring one leaves alone. -/
theorem homesServeDeferOrQueue : Obligations.HomesServeDeferOrQueue := by
  intro s r
  refine ⟨fun u hu => ⟨fun hmode => ⟨?queued, ?served⟩, fun hmode => ⟨fun hroom => ⟨?line, ?tracker⟩, ?listFull, ?servedNative⟩⟩,
    ?deferred⟩
  case queued => exact takeRequest_of_blocking_wait hu hmode
  case served => exact fun hfree => takeRequest_of_free hu hfree (fun hnative => absurd (hmode.symm.trans hnative) (by decide))
  case line => exact fun hwait => (takeRequest_of_line_wait hu hmode hwait).trans (if_neg (Nat.not_le.2 hroom))
  case tracker =>
    exact fun hfree hnone hfull => (takeRequest_of_tracker_wait hu hmode hfree hnone hfull).trans (if_neg (Nat.not_le.2 hroom))
  case listFull =>
    intro hlist hwait
    by_cases hline : busy u r.off = true ∨ deferred u r.off = true
    · exact (takeRequest_of_line_wait hu hmode hline).trans (if_pos hlist)
    · obtain ⟨hfree, hnone⟩ := not_or.1 hline
      have hfull : 1792 ≤ trkPlain u (homeOf r.off) := (hwait.resolve_left hfree).resolve_left hnone
      exact (takeRequest_of_tracker_wait hu hmode (Bool.eq_false_iff.2 hfree) (Bool.eq_false_iff.2 hnone) hfull).trans (if_pos hlist)
  case servedNative => exact fun hfree hnone hroom => takeRequest_of_free hu hfree (fun _ => hnone) hroom
  case deferred =>
    intro n rsn hsrc
    obtain ⟨hmem, htrk, hretry⟩ := HomeWork.mk.inj (homeWork_deferReq_host s (homeOf r.off) rsn hsrc)
    exact ⟨hmem, htrk, hretry⟩

end Sys2Proof.Machine
end

section
/-! Chapter 05: what hosts answer, and what else happens to the transactions of a home (R211, R220 to R225, R230, R242 to R245, R761). -/

namespace Sys2Proof.Machine

section
variable {s : State} (hrun : running s = true)
include hrun

/-! ## Answers of hosts -/

section
variable (hinj : s.inj = []) {host : Fin 64} {txn : BitVec 12} {addr : BitVec 60} {off : Nat}
  (hoff : off = addr.toNat % 2 ^ 50 / 64 * 64) (hlive : fenced s host.val = false)
include hinj hoff hlive

section
variable {t : Txn}
  (ht : s.trk.find? (fun t => t.phase == .snoop && t.wait.contains host.val && t.req.off == off && t.req.txn == txn) = some t)
include ht

/-- R212: the transaction that waits for the host takes its snoop answer, and what can then end ends. -/
theorem snoopAnswer_of_waited (upd : LState → BitVec 64 → Txn → Txn) (after : LState → BitVec 64 → Txn → State → State) {t' : Txn}
    (ht' : t' = upd (lineRec s off).1 (lineRec s off).2 { t with wait := t.wait.filter (fun x => x != host.val) }) :
    snoopAnswer host.val txn addr s upd after = settleAll (after (lineRec s off).1 (lineRec s off).2 t'
      { s with trk := s.trk.map (fun x => if x = t then t' else x) }) := by
  rw [snoopAnswer, whenRunning_of_running hrun]
  simp only [← hoff, hlive, takeInj_of_none_armed hinj, ht, ht', Bool.false_eq_true, if_false]

theorem exec_invack_of_waited (hclean : (lineRec s off).1 ≠ .M) : exec (.invack host txn addr) s = .next (settleAll { s with
    trk := s.trk.map (fun x => if x = t then { t with wait := t.wait.filter (fun x => x != host.val) } else x) }) := by
  have hother : ((lineRec s off).1 == .M) = false := beq_false_of_ne hclean
  change Host.Outcome.next (doInvack host txn addr s) = _
  rw [doInvack, snoopAnswer_of_waited hrun hinj hoff hlive ht _ _ rfl]
  simp only [hother, Bool.false_and, Bool.false_eq_true, if_false]

theorem exec_snprspdata_of_holder (dirty : Bool) (data : LineData) (hholder : lineRec s off = (.M, oneHost host.val)) :
    exec (.snprspdata host txn addr dirty data) s = .next (settleAll { s with trk := s.trk.map (fun x =>
      if x = t then { t with wait := t.wait.filter (fun x => x != host.val), got := some data } else x) }) := by
  change Host.Outcome.next (doSnprspdata host txn addr dirty data s) = _
  rw [doSnprspdata, snoopAnswer_of_waited hrun hinj hoff hlive ht _ _ rfl]
  simp only [hholder, beq_self_eq_true, Bool.and_self, Bool.true_or, if_true]

end

/-- R220: in native mode no grant waits for a CmpAck. -/
theorem exec_cmpack_of_native (hmode : blocking s = false) :
    exec (.cmpack host txn addr) s = .next (protoErr s (homeOf off) (globalAddr s off)) := by
  change Host.Outcome.next (doCmpack host txn addr s) = _
  rw [doCmpack, whenRunning_of_running hrun]
  simp only [← hoff, hlive, takeInj_of_none_armed hinj, hmode, Bool.not_false, Bool.false_eq_true, if_true, if_false]

/-- R230: in blocking mode the CmpAck ends the wait of its grant. -/
theorem exec_cmpack_of_blocking {t : Txn} (hmode : blocking s = true) (ht : s.trk.find? (fun t =>
      t.phase == .cmpAck && t.req.off == off && t.req.txn == txn && decide (t.req.src = .host host)) = some t) :
    exec (.cmpack host txn addr) s = .next (settleAll { s with trk := s.trk.erase t }) := by
  change Host.Outcome.next (doCmpack host txn addr s) = _
  rw [doCmpack, whenRunning_of_running hrun]
  simp only [← hoff, hlive, takeInj_of_none_armed hinj, hmode, ht, Bool.not_true, Bool.false_eq_true, if_false]

end

/-- R76, R225: the data of a Fetch lets its home serve the request, or refuse it when its draft was freed meanwhile. -/
theorem exec_wrdata_of_fetch {host : Fin 64} {txn : BitVec 12} {addr : BitVec 60} {off : Nat} (mask : BitVec 64) (data : LineData) {t : Txn}
    (hoff : off = addr.toNat % 2 ^ 50 / 64 * 64) (hlive : fenced s host.val = false) (ht : s.trk.find? (fun t =>
      t.phase == .fetch && t.req.off == off && t.req.txn == txn && decide (t.req.src = .host host)) = some t) :
    exec (.wrdata (.host host) txn addr mask data) s = .next (if t.bad = true
      then settleAll (sendErr (addrFault { s with trk := s.trk.erase t } (globalAddr s off) (masterDom s (.host host))) t.req errAddr true)
      else settleAll (serve { s with trk := s.trk.erase t } { t.req with data := data, mask := mask } true)) := by
  change Host.Outcome.next (doWrdata (.host host) txn addr mask data s) = _
  rw [doWrdata, whenRunning_of_running hrun]
  simp only [← hoff, hostNo, hlive, doWrdata.wrData, ht, Bool.false_eq_true, if_false]
  rfl

/-! ## Activation of a deferred request (R223 to R225) -/

section
variable {home : Fin 8} {p : Nat × Req} (hspare : trkReserved s home.val < 256)
  (hp : s.retry.find? (fun p => p.1 == home.val && !busy s p.2.off) = some p)
include hspare hp

theorem exec_deferActivate_of_next : exec (.deferActivate home) s = .next (activate s p) := by
  change Host.Outcome.next (doDeferActivate home s) = _
  rw [doDeferActivate, whenRunning_of_running hrun]
  simp only [nextDeferred, if_neg (Nat.not_le.2 hspare), hp]

theorem exec_deferActivate_of_read (hop : p.2.op = .rds) :
    exec (.deferActivate home) s = .next (settleAll (serve { s with retry := s.retry.erase p } p.2 true)) := by
  rw [exec_deferActivate_of_next hrun hspare hp, activate, hop]
  rfl

/-- R225: the home asks the host whose full line it deferred for its data. -/
theorem exec_deferActivate_of_write {n : Fin 64} (hop : p.2.op = .wrline) (hsrc : p.2.src = .host n) (hport : hostPortUp s n.val = true) :
    exec (.deferActivate home) s = .next (send { s with
      retry := s.retry.erase p
      trk := s.trk ++ [⟨home.val, p.2, true, .fetch, [n.val], false, none, false, none⟩] } (.coh (reply s p.2 0x25 false))) := by
  have hhome : p.1 = home.val := by
    have hmatch := List.find?_some hp
    exact eq_of_beq (Bool.and_eq_true_iff.1 hmatch).1
  have hdata : ((p.2.op == .wrnc || p.2.op == .wrline || p.2.op == .wrback) && !keepsData p.2.src) = true := by
    rw [hop, hsrc]
    rfl
  rw [exec_deferActivate_of_next hrun hspare hp, activate, if_pos hdata, ← hhome]
  simp only [hsrc, hostNo]
  exact congrArg _ (if_pos hport)

end

/-! ## Timeouts and unknown messages -/

/-- R242, R244: a timer that expires for a host that a transaction waits for fences the host. -/
theorem exec_homeTimeout_of_waited {home : Fin 8} {host : Fin 64} {addr : BitVec 60} {off : Nat} (hoff : off = addr.toNat % 2 ^ 50 / 64 * 64)
    (hwait : s.trk.any (fun t => t.home == home.val && t.req.off == off && t.wait.contains host.val) = true) :
    exec (.homeTimeout home host addr) s = .next (settleAll (fenceHost s home.val host.val (globalAddr s off))) := by
  change Host.Outcome.next (doHomeTimeout home host addr s) = _
  rw [doHomeTimeout, whenRunning_of_running hrun]
  simp only [← hoff, hwait, if_true]

theorem exec_unknownOpcodeMessage (home : Fin 8) (opcode : BitVec 6) :
    exec (.unknownOpcodeMessage home opcode) s = .next (haEvent s home.val 2 (some 0x28) 0 opcode.toNat) :=
  congrArg Host.Outcome.next (whenRunning_of_running hrun _)

end

/-- Settles O28, event by event. -/
theorem homeEventsAct : Obligations.HomeEventsAct := by
  intro s hrun hinj
  refine ⟨?snoop, ?cmpack, ?wrdata, ?activate, ?timeout, fun home opcode => exec_unknownOpcodeMessage hrun home opcode⟩
  case snoop =>
    intro host txn addr off t hoff hlive ht
    exact ⟨exec_invack_of_waited hrun hinj hoff hlive ht, exec_snprspdata_of_holder hrun hinj hoff hlive ht⟩
  case cmpack =>
    intro host txn addr off hoff hlive
    exact ⟨exec_cmpack_of_native hrun hinj hoff hlive, fun t => exec_cmpack_of_blocking hrun hinj hoff hlive⟩
  case wrdata =>
    intro host txn addr mask data off t hoff hlive ht
    have hfetch := exec_wrdata_of_fetch hrun mask data hoff hlive ht
    exact ⟨fun hkept => hfetch.trans (by rw [if_neg (Bool.eq_false_iff.1 hkept)]), fun hfreed => hfetch.trans (by rw [if_pos hfreed])⟩
  case activate =>
    intro home p hspare hp
    exact ⟨exec_deferActivate_of_read hrun hspare hp, fun n => exec_deferActivate_of_write hrun hspare hp⟩
  case timeout => exact fun home host addr off => exec_homeTimeout_of_waited hrun

end Sys2Proof.Machine
end

section
/-! Chapters 05, 14 and 15: HOST_RELEASE and its sweeps, LINE_RESTORE, and RIP_RELEASE (R249 to R251, R608, R655, R662). -/

namespace Sys2Proof.Machine

/-! ## The operations as rows -/

section
variable {s : State} {op : CompOp} {c : CompSt}

/-- R662: while composition operations are taken, one that passes its check is applied, and the homes go on from there. -/
theorem runOp_of_composable (hready : Composable s) (signer : Nat) (hop : compOp signer { s := s } op = .ok c) :
    runOp signer op s = composeAccept c 65537 0 0 0 := by
  obtain ⟨hrun, hrip, hboot⟩ := hready
  simp [runOp, hrun, hrip, hboot, hop]

/-- R251: HOST_RELEASE with its buffer inside one region that is not VERSIONED starts the sweeps of the host. -/
theorem opHostRelease_of_buffer {host buf bytes : BitVec 64} {off r : Nat} (hhost : host.toNat < 64) (hbuf : buf.toNat < 2 ^ 60)
    (hroute : route s (buf.toNat % 2 ^ 60) = .own off) (hoff : off % 8 = 0) (hbytes : bytes.toNat % 8 = 0) (hroom : 8 ≤ bytes.toNat)
    (hhome : off < 2 ^ 48) (hidle : s.sweeps.any (fun e => e.host == host.toNat) = false) (hregion : regionAt s off = some r)
    (hplain : rgVersioned s r = false) (hfit : off + bytes.toNat ≤ rgBase s r + rgSize s r) :
    opHostRelease { s := s } host buf bytes = .ok { hosts := [host.toNat], s := setBit { s with
      sweeps := s.sweeps ++ [{ host := host.toNat, off := off, len := bytes.toNat }] } (rCohHost host.toNat) 2 } := by
  have hformat : ¬ (64 ≤ host.toNat ∨ 2 ^ 60 ≤ buf.toNat ∨ off % 8 ≠ 0 ∨ bytes.toNat % 8 ≠ 0 ∨ bytes.toNat < 8 ∨ 2 ^ 48 ≤ off ∨
      s.sweeps.any (fun e => e.host == host.toNat) = true) := by
    rw [hidle, Bool.false_eq_true, or_false]
    omega
  have hinside : ¬ (rgVersioned s r = true ∨ rgBase s r + rgSize s r < off + bytes.toNat) := by
    rw [hplain, Bool.false_eq_true, false_or]
    omega
  simp only [opHostRelease, hroute, if_neg hformat, hregion, if_neg hinside, List.nil_append]

/-- R250: LINE_RESTORE of one poisoned line gives its home the bytes of the line in the version. -/
theorem opLineRestore_of_restorable {first region version offset : BitVec 64} {off q : Nat}
    (hline : Restorable s first off region.toNat version.toNat offset.toNat q) :
    opLineRestore { s := s } first 1 region version offset = .ok { lines := [off], s := { s with
      restoreq := s.restoreq ++ [(off, some (s.readLine (spKey (spVersion region.toNat version.toNat) offset.toNat)))] } } := by
  obtain ⟨hroute, hfirst, halign, hhome, htarget, hplain, hindex, hvalid, hversioned, hoffset, hfit, hheld, -, hsource⟩ := hline
  have hone : (1 : BitVec 64).toNat = 1 := rfl
  have hlow : decide (off < 2 ^ 48) = true := decide_eq_true (by omega)
  have hopen : draftOpen s off = true := by rw [draftOpen, hlow, Bool.true_or]
  simp only [opLineRestore, hroute, hone, List.range_one, List.map_cons, List.map_nil, Nat.mul_zero, Nat.add_zero, List.all_cons,
    List.all_nil, htarget, hplain, hopen, hvalid, hversioned, hheld, hsource, beq_self_eq_true, Bool.and_false, Bool.not_false, Bool.and_self,
    Bool.not_true, Bool.false_eq_true, Bool.true_eq_false, or_false, false_or, if_false, Nat.sub_self, List.nil_append]
  rw [if_neg (by omega), if_neg (by omega)]

end

/-- R608: under a pulled rip panel RIP_RELEASE is taken, and the whole device is reset. -/
theorem exec_ripRelease_of_held {s : State} (hboot : bootState s ≠ 1) (hrip : ripHeld s = true) :
    exec .ripRelease s = .next (wholeReset (taken s) 0) := by
  change Host.Outcome.next (doRipRelease s) = _
  have hop : compOp 4 { s := s } .ripRelease = .ok { s := s, rip := true } := if_pos hrip
  rw [doRipRelease, runOp, if_neg (by simp [hboot, hrip]), hop]
  rfl

/-! ## A home serves a line of a LINE_RESTORE (R250) -/

section
variable {s t u : State} {off : Nat} {d : LineData} (hlook : lookups s [off] = (t, false)) (hu : u = touchLine t off)
include hlook hu

/-- A copy of a poisoned line is invalidated first. -/
theorem restoreStep_of_copied (hpoison : isPoisoned u off = true) (hopen : draftOpen u off = true) (hcopy : (lineRec u off).1 ≠ .I) :
    restoreStep s (off, some d) = owe u false (off / 64) := by
  have hother : ((lineRec u off).1 != .I) = true := bne_iff_ne.2 hcopy
  simp only [restoreStep, hlook, ← hu, hpoison, hopen, hother, Bool.false_eq_true, if_false, if_true]

/-- A poisoned line that nobody holds takes the version's bytes, and its poison clears. -/
theorem restoreStep_of_poisoned {w x : State} (hpoison : isPoisoned u off = true) (hopen : draftOpen u off = true)
    (hcopy : (lineRec u off).1 = .I) (hframe : ensureUnit { u with restoreq := u.restoreq.erase (off, some d) } off = .ok w)
    (hx : x = setRec (clearPoison (putStack (storeFree w off) off d) off) off .I 0) (hcover : covered x off = false) :
    restoreStep s (off, some d) = restoreEnd x off true := by
  have hnone : ((lineRec u off).1 != .I) = false := by rw [hcopy]; rfl
  simp only [restoreStep, hlook, ← hu, hpoison, hopen, hnone, hframe, ← hx, hcover, Bool.false_eq_true, if_false]

/-- R759: a line of a draft that is not OPEN stays as it is. -/
theorem restoreStep_of_draft_shut (hpoison : isPoisoned u off = true) (hshut : draftOpen u off = false) :
    restoreStep s (off, some d) = restoreEnd { u with restoreq := u.restoreq.erase (off, some d) } off true := by
  simp only [restoreStep, hlook, ← hu, hpoison, hshut, Bool.false_eq_true, if_false]

/-- A line that is not poisoned is only counted. -/
theorem restoreStep_of_sound (hsound : isPoisoned u off = false) :
    restoreStep s (off, some d) = restoreEnd { u with restoreq := u.restoreq.erase (off, some d) } off false := by
  simp only [restoreStep, hlook, ← hu, hsound, Bool.false_eq_true, if_false]

end

/-! ## The sweeps of HOST_RELEASE (R251) -/

/-- When the homes have swept, the addresses of the lines whose data is lost go to the buffer. -/
theorem exec_releaseSweepDone_of_started {s t : State} {host : Fin 64} {e : Sweep} {hit : List Nat} (hrun : running s = true)
    (he : s.sweeps.find? (fun e => e.host == host.val && e.stage == 0) = some e)
    (hsweep : sweepLines s host.val (recordedLines s) = (t, hit)) : exec (.releaseSweepDone host) s =
      .next (settleAll (bufferLines (sweepUnrecorded (putSweep t host.val (fun e => { e with count := hit.length, stage := 1 }))) host.val
        e.off e.len 0 hit)) := by
  change Host.Outcome.next (doReleaseSweepDone host s) = _
  rw [doReleaseSweepDone, whenRunning_of_running hrun]
  simp only [he, hsweep]

/-- The count and OVERFLOW follow the addresses. -/
theorem sweepStep_of_reported (s : State) {e : Sweep} (hstage : e.stage = 1) : sweepStep s e =
    bufferWord (putSweep s e.host (fun e => { e with stage := 2 })) e.host e.off (e.count % 2 ^ 48 + if e.ovf then 2 ^ 63 else 0) :=
  if_pos hstage

/-- After that write FENCED and SWEEP clear, and the command that waited has its count. -/
theorem sweepStep_of_ended (s : State) {e : Sweep} (hstage : e.stage = 2) :
    ∃ u, u = clrBit (clrBit s (rCohHost e.host) 1) (rCohHost e.host) 2 ∧ sweepStep s e = { u with
      sweeps := u.sweeps.filter (fun x => x.host != e.host)
      cmpWait := u.cmpWait.map (fun c => if c.hosts.contains e.host then { c with
        hosts := c.hosts.filter (fun x => x != e.host), poisoned := c.poisoned + e.count, overflow := c.overflow || e.ovf } else c) } :=
  ⟨_, rfl, if_neg (by omega)⟩

/-- Settles O33: the operations as rows, the steps of a restored line, and the stages of a sweep. -/
theorem releasesRestoreAndSweep : Obligations.ReleasesRestoreAndSweep := by
  intro s
  refine ⟨fun hready => ⟨?release, ?restore⟩, ?step, exec_ripRelease_of_held, fun host e t hit => exec_releaseSweepDone_of_started,
    fun e => ⟨sweepStep_of_reported s, sweepStep_of_ended s⟩⟩
  case release =>
    intro host buf bytes off r hhost hbuf hroute hoff hbytes hroom hhome hidle hregion hplain hfit
    exact congrArg Host.Outcome.next (runOp_of_composable hready 4
      (opHostRelease_of_buffer hhost hbuf hroute hoff hbytes hroom hhome hidle hregion hplain hfit))
  case restore =>
    intro first region version offset off q hline
    exact congrArg Host.Outcome.next (runOp_of_composable hready 4 (opLineRestore_of_restorable hline))
  case step =>
    intro off d t u hlook hu
    exact ⟨restoreStep_of_copied hlook hu, fun w hpoison hopen hcopy hframe x => restoreStep_of_poisoned hlook hu hpoison hopen hcopy hframe,
      restoreStep_of_draft_shut hlook hu, restoreStep_of_sound hlook hu⟩

end Sys2Proof.Machine
end

section
/-! Chapter 07: an operation or conversion that produces a NaN produces the canonical one (R324). -/

namespace Sys2Proof.Machine

/-! ## Patterns that are no NaN: without its sign, a NaN lies above every other value -/

/-- The largest pattern of a format, its sign left out, that is no NaN: infinity where the format has one (R319). -/
def fTop (f : FFmt) : Nat := if f.ieee then (2 ^ f.eb - 1) * 2 ^ f.mb else fMax f

section
variable {f : FFmt}

theorem fMax_le_fTop : fMax f ≤ fTop f := by
  by_cases h : f.ieee = true
  · rw [fMax, fTop, if_pos h, if_pos h]
    exact Nat.sub_le ..
  · rw [fTop, if_neg h]

/-- A pattern without its sign: the exponent over the mantissa (R319). -/
theorem mod_eq_exponent_add_mantissa (f : FFmt) (b : Nat) :
    b % 2 ^ (f.eb + f.mb) = b / 2 ^ f.mb % 2 ^ f.eb * 2 ^ f.mb + b % 2 ^ f.mb := by
  rw [Nat.add_comm f.eb, Nat.pow_add, Nat.mod_mul, Nat.mul_comm, Nat.add_comm]

/-- R319: a NaN has the top exponent, with a mantissa that is not 0, or in E4M3 the top one. -/
theorem fTop_lt_of_fDecode_nan {b : Nat} (hbits : 0 < f.eb + f.mb) (hnan : fDecode f b = .nan) : fTop f < b % 2 ^ (f.eb + f.mb) := by
  rw [mod_eq_exponent_add_mantissa]
  simp only [fDecode, Bool.and_eq_true, beq_iff_eq] at hnan
  split at hnan
  next htop =>
    obtain ⟨hieee, hexp⟩ := htop
    have hmant : b % 2 ^ f.mb ≠ 0 := fun h => by simp [h] at hnan
    rw [fTop, if_pos hieee, hexp]
    omega
  next hnoIeeeTop =>
    split at hnan
    next htop =>
      obtain ⟨⟨htopNan, hexp⟩, hmant⟩ := htop
      have hplain : ¬ f.ieee = true := fun h => hnoIeeeTop ⟨h, hexp⟩
      have hone := Nat.one_le_two_pow (n := f.mb)
      have hmul : (2 ^ f.eb - 1) * 2 ^ f.mb = 2 ^ (f.eb + f.mb) - 2 ^ f.mb := by rw [Nat.sub_mul, one_mul, ← Nat.pow_add]
      have hle : 2 ^ f.mb ≤ 2 ^ (f.eb + f.mb) := Nat.pow_le_pow_right two_pos (Nat.le_add_left ..)
      have htwo : 2 ≤ 2 ^ (f.eb + f.mb) := Nat.le_self_pow hbits.ne' 2
      rw [fTop, if_neg hplain, fMax, if_neg hplain, if_pos htopNan, hexp, hmant, hmul]
      omega
    next => split at hnan <;> exact absurd hnan (by simp)

/-- A pattern's sign bit over the rest of it (R319). -/
def fSigned (f : FFmt) (neg : Bool) (c : Nat) : Nat := (if neg then 2 ^ (f.eb + f.mb) else 0) + c

theorem fSigned_mod_le_fTop (neg : Bool) {c : Nat} (hc : c ≤ fTop f) : fSigned f neg c % 2 ^ (f.eb + f.mb) ≤ fTop f := by
  have hmod : fSigned f neg c % 2 ^ (f.eb + f.mb) = c % 2 ^ (f.eb + f.mb) := by cases neg <;> simp [fSigned]
  exact hmod ▸ (Nat.mod_le ..).trans hc

/-- Where a conversion leaves values beyond the largest finite one (R325). -/
def fBeyond (f : FFmt) (sat : Bool) : Nat := if sat || !f.ieee then fMax f else (2 ^ f.eb - 1) * 2 ^ f.mb

theorem fBeyond_le_fTop (sat : Bool) : fBeyond f sat ≤ fTop f := by
  rw [fBeyond]
  split
  next => exact fMax_le_fTop
  next h => simp_all [fTop]

/-- A number rounds to zero, to a code, or past the largest code (R323). -/
theorem fEncode_fin (f : FFmt) (sat neg : Bool) (m : Nat) (e : Int) : ∃ code : Int, fEncode f sat (.fin neg m e) =
    if m = 0 then fSigned f neg 0 else if (fMax f : Int) < code then fSigned f neg (fBeyond f sat) else fSigned f neg code.toNat :=
  ⟨_, rfl⟩

/-- R323, R325: a value that is no NaN is rounded to a pattern that is none. -/
theorem fEncode_mod_le_fTop (sat : Bool) {v : FVal} (hv : v ≠ .nan) : fEncode f sat v % 2 ^ (f.eb + f.mb) ≤ fTop f := by
  cases v with
  | nan => exact absurd rfl hv
  | inf neg => exact fSigned_mod_le_fTop neg (fBeyond_le_fTop sat)
  | fin neg m e =>
    obtain ⟨code, hcode⟩ := fEncode_fin f sat neg m e
    rw [hcode]
    split
    next => exact fSigned_mod_le_fTop neg (Nat.zero_le _)
    next =>
      split
      next => exact fSigned_mod_le_fTop neg (fBeyond_le_fTop sat)
      next hle => exact fSigned_mod_le_fTop neg ((Int.toNat_le.2 (not_lt.1 hle)).trans fMax_le_fTop)

/-- R324: only NaN is rounded to a NaN, and to the canonical one. -/
theorem fEncode_eq_fNan_of_nan {sat : Bool} {v : FVal} (hbits : 0 < f.eb + f.mb) (hnan : fDecode f (fEncode f sat v) = .nan) :
    fEncode f sat v = fNan f := by
  have hv : v = .nan := by_contra fun hv => (fTop_lt_of_fDecode_nan hbits hnan).not_ge (fEncode_mod_le_fTop sat hv)
  rw [hv]
  rfl

end

/-! ## FP32 results -/

/-- An FP32 result that is no NaN but the canonical one. -/
def NanCanonical (x : Nat) : Prop := f32 x = .nan → x = 0x7FC00000

theorem nanCanonical_toF32 (v : FVal) : NanCanonical (toF32 v) := fEncode_eq_fNan_of_nan (by decide)

theorem nanCanonical_fNan : NanCanonical (fNan fp32) := fun _ => rfl

theorem nanCanonical_of_number {x : Nat} (hx : f32 x ≠ .nan) : NanCanonical x := fun h => absurd h hx

theorem nanCanonical_ite {p : Prop} [Decidable p] {x y : Nat} (hx : NanCanonical x) (hy : NanCanonical y) :
    NanCanonical (if p then x else y) := by
  split
  · exact hx
  · exact hy

/-- vmax and vmin answer the canonical NaN or an operand that is none (R331). -/
theorem nanCanonical_fmax (a b : Nat) : NanCanonical (fmax a b) := by
  rw [fmax]
  split
  next => exact nanCanonical_fNan
  next h =>
    obtain ⟨ha, hb⟩ : f32 a ≠ .nan ∧ f32 b ≠ .nan := by simpa [isNan32] using h
    exact nanCanonical_ite (nanCanonical_of_number hb) (nanCanonical_of_number ha)

theorem nanCanonical_fmin (a b : Nat) : NanCanonical (fmin a b) := by
  rw [fmin]
  split
  next => exact nanCanonical_fNan
  next h =>
    obtain ⟨ha, hb⟩ : f32 a ≠ .nan ∧ f32 b ≠ .nan := by simpa [isNan32] using h
    exact nanCanonical_ite (nanCanonical_of_number ha) (nanCanonical_of_number hb)

/-! ## Vector functions: the canonical NaN, a number of R335's table, an input that is no NaN, or a rounded value -/

theorem nanCanonical_fexp (a : Nat) : NanCanonical (fexp a) := by
  rw [fexp]
  split
  next => exact nanCanonical_fNan
  next => exact nanCanonical_ite (nanCanonical_of_number (by decide)) (nanCanonical_of_number (by decide))
  next => exact nanCanonical_toF32 _

theorem nanCanonical_flog (a : Nat) : NanCanonical (flog a) := by
  rw [flog]
  split
  next => exact nanCanonical_fNan
  next => exact nanCanonical_ite nanCanonical_fNan (nanCanonical_of_number (by decide))
  next => exact nanCanonical_ite (nanCanonical_of_number (by decide)) (nanCanonical_ite nanCanonical_fNan (nanCanonical_toF32 _))

theorem nanCanonical_frcp (a : Nat) : NanCanonical (frcp a) := by
  rw [frcp]
  split
  next => exact nanCanonical_fNan
  next => exact nanCanonical_ite (nanCanonical_of_number (by decide)) (nanCanonical_of_number (by decide))
  next =>
    refine nanCanonical_ite (nanCanonical_ite (nanCanonical_of_number (by decide)) (nanCanonical_of_number (by decide))) ?_
    split <;> exact nanCanonical_toF32 _

theorem nanCanonical_frsqrt (a : Nat) : NanCanonical (frsqrt a) := by
  rw [frsqrt]
  split
  next => exact nanCanonical_fNan
  next => exact nanCanonical_ite nanCanonical_fNan (nanCanonical_of_number (by decide))
  next =>
    exact nanCanonical_ite (nanCanonical_ite (nanCanonical_of_number (by decide)) (nanCanonical_of_number (by decide)))
      (nanCanonical_ite nanCanonical_fNan (nanCanonical_toF32 _))

theorem nanCanonical_ftanh (a : Nat) : NanCanonical (ftanh a) := by
  have hone (neg : Bool) : NanCanonical (if neg then 0xBF800000 else 0x3F800000) :=
    nanCanonical_ite (nanCanonical_of_number (by decide)) (nanCanonical_of_number (by decide))
  rw [ftanh]
  split
  next => exact nanCanonical_fNan
  next => exact hone _
  next hfin => exact nanCanonical_ite (nanCanonical_of_number (by simp [hfin])) (nanCanonical_ite (hone _) (nanCanonical_toF32 _))

theorem nanCanonical_fsigm (a : Nat) : NanCanonical (fsigm a) := by
  have hlimit (neg : Bool) : NanCanonical (if neg then 0 else 0x3F800000) :=
    nanCanonical_ite (nanCanonical_of_number (by decide)) (nanCanonical_of_number (by decide))
  rw [fsigm]
  split
  next => exact nanCanonical_fNan
  next => exact hlimit _
  next => exact nanCanonical_ite (hlimit _) (nanCanonical_toF32 _)

theorem nanCanonical_fsin (a : Nat) : NanCanonical (fsin a) := by
  rw [fsin]
  split
  next => exact nanCanonical_fNan
  next => exact nanCanonical_fNan
  next hfin => exact nanCanonical_ite (nanCanonical_of_number (by simp [hfin])) (nanCanonical_toF32 _)

theorem nanCanonical_fcos (a : Nat) : NanCanonical (fcos a) := by
  rw [fcos]
  split
  next => exact nanCanonical_fNan
  next => exact nanCanonical_fNan
  next => exact nanCanonical_toF32 _

/-! ## Tensor sums -/

/-- R327: a tensor sum of one block or more ends with a rounding. -/
theorem nanCanonical_tmmaElem (op : Nat) {blocks : Nat} (start : Nat) (a sa b sb : List (List Nat)) (r c : Nat) (hpos : 0 < blocks) :
    NanCanonical (tmmaElem op blocks start a sa b sb r c) := by
  obtain ⟨n, rfl⟩ := Nat.exists_eq_succ_of_ne_zero hpos.ne'
  rw [tmmaElem, List.range_succ (n := n), List.foldl_append, List.foldl_cons, List.foldl_nil]
  exact nanCanonical_toF32 _

/-! ## Conversions -/

/-- The plain floating-point formats by their format codes (the format code table of chapter 06). -/
def plainFmts : List (Nat × FFmt) := [(1, fp32), (2, bf16), (3, fp16), (4, e4m3), (5, e5m2)]

/-- A plain element is rounded into its format and read as that format gives it (R325). -/
theorem toElem_eq_fNan_of_nan {p : Nat × FFmt} (hp : p ∈ plainFmts) {v : FVal} (hnan : elemVal p.1 (toElem p.1 v) = .nan) :
    toElem p.1 v = fNan p.2 := by
  simp only [plainFmts, List.mem_cons, List.not_mem_nil, or_false] at hp
  rcases hp with rfl | rfl | rfl | rfl | rfl <;> exact fEncode_eq_fNan_of_nan (by decide) hnan

/-- Settles O56: only NaN is rounded to a NaN, and to the canonical one; every result named is rounded, or a number, or that pattern. -/
theorem nanResultsAreCanonical : Obligations.NanResultsAreCanonical := by
  refine ⟨rfl, ?lane, fun a b c => nanCanonical_toF32 _, ?function, ?tensor, fun c b => nanCanonical_toF32 _, ?narrow⟩
  case lane =>
    simp only [List.forall_mem_cons]
    exact ⟨fun a b => nanCanonical_toF32 _, fun a b => nanCanonical_toF32 _, fun a b => nanCanonical_toF32 _, nanCanonical_fmax,
      nanCanonical_fmin, List.forall_mem_nil _⟩
  case function =>
    simp only [List.forall_mem_cons]
    exact ⟨nanCanonical_fexp, nanCanonical_flog, nanCanonical_frcp, nanCanonical_frsqrt, nanCanonical_ftanh, nanCanonical_fsigm,
      nanCanonical_fsin, nanCanonical_fcos, List.forall_mem_nil _⟩
  case tensor => exact fun op blocks start a sa b sb r c => nanCanonical_tmmaElem op start a sa b sb r c
  case narrow =>
    have hpatterns : [(1, 0x7FC00000), (2, 0x7FC0), (3, 0x7E00), (4, 0x7F), (5, 0x7E)] = plainFmts.map (fun p => (p.1, fNan p.2)) := rfl
    rw [hpatterns, List.forall_mem_map]
    exact fun p hp v => toElem_eq_fNan_of_nan hp

end Sys2Proof.Machine
end

section
/-! Chapter 06: a slot of a Lathe that issues (R265 to R268). -/

namespace Sys2Proof.Machine

section
variable {s : State} {l : Fin 128} (hready : SlotReady s l)
include hready

/-- What a slot does that neither stalls nor faults. -/
theorem slot_of_ready (no : Nat) (reads last : Bool) {f : Lathe → State → Slot} {t : State} (hok : f (latheAt s l.val) s = .ok t) :
    slot l no reads last s f = slotEnd t l no last := by
  obtain ⟨hrun, hstate, hstopped, hcommit, hcode, hstall, hissues, hinj⟩ := hready
  have hbundle : (!(latheAt s l.val).mid && bundleStalls s l.val) = false := by
    rcases hissues with h | h <;> simp [h]
  have hplace : ¬ (latheAt s l.val).ncode ≤ lathePc s l.val := not_le.2 hcode
  simp only [slot, whenRunning_of_running hrun, hstate, hstopped, hcommit, hplace, hstall, hbundle, takeInj_of_none_armed hinj, hok,
    ite_self, slotEnd, beq_self_eq_true, Bool.true_or, Bool.not_true, Bool.false_and, Bool.or_false, decide_false, Option.any_none,
    Bool.false_eq_true, if_false]

/-- A V slot instruction whose registers await no tread stages its write. -/
theorem vSlot_of_ready {regs : List (BitVec 5)} (hregs : regs.any (vPending (latheAt s l.val)) = false) (last : Bool)
    {f : Lathe → Option Stage} {w : Stage} (hw : f (latheAt s l.val) = some w) :
    vSlot l regs last s f = slotEnd (stage s l.val w) l 3 last :=
  slot_of_ready hready 3 true last (by simp only [hregs, hw, Bool.false_eq_true, if_false])

end

@[simp] theorem length_lanes (v : VecData) : (lanes v).length = 256 := by simp [lanes]

end Sys2Proof.Machine
end

section
/-! Chapter 07: scans and searches of lanes (R331, R333, R334). -/

namespace Sys2Proof.Machine

/-! ## Running sums (R333) -/

/-- The running sums of lanes, the first lane as it is. -/
def scan (l : List Nat) : List Nat :=
  match l with
  | [] => []
  | a :: rest => a :: scanFrom a rest

@[simp] theorem length_scanFrom (acc : Nat) (l : List Nat) : (scanFrom acc l).length = l.length := by
  induction l generalizing acc with
  | nil => rfl
  | cons a rest ih => simp [scanFrom, ih]

@[simp] theorem length_scan (l : List Nat) : (scan l).length = l.length := by
  cases l <;> simp [scan]

theorem scan_head (l : List Nat) : (scan l)[0]? = l[0]? := by
  cases l <;> rfl

/-- Each sum is the one before it and the next lane. -/
theorem scanFrom_getElem? (acc : Nat) {l : List Nat} {i : Nat} (hi : i < l.length) :
    (scanFrom acc l)[i]? = some (fadd (((acc :: scanFrom acc l)[i]?).getD 0) ((l[i]?).getD 0)) := by
  induction l generalizing acc i with
  | nil => exact absurd hi (Nat.not_lt_zero i)
  | cons a rest ih =>
    cases i with
    | zero => rfl
    | succ i => exact ih (fadd acc a) (Nat.lt_of_succ_lt_succ hi)

theorem scan_succ {l : List Nat} {i : Nat} (hi : i + 1 < l.length) :
    (scan l)[i + 1]? = some (fadd (((scan l)[i]?).getD 0) ((l[i + 1]?).getD 0)) := by
  cases l with
  | nil => exact absurd hi (Nat.not_lt_zero _)
  | cons a rest => exact scanFrom_getElem? a (Nat.lt_of_succ_lt_succ hi)

/-! ## The highest rank (R334) -/

/-- Lane m has the highest rank, and no lane before it has it too. -/
def IsArgMax (l : List Nat) (m : Nat) : Prop :=
  m < l.length ∧ (∀ j, j < l.length → argRank ((l[j]?).getD 0) ≤ argRank ((l[m]?).getD 0)) ∧
    ∀ j, j < m → argRank ((l[j]?).getD 0) < argRank ((l[m]?).getD 0)

section
variable {l : List Nat} {m : Nat} (hmax : IsArgMax l m) {a : Nat}
include hmax

/-- A further lane of a higher rank takes the place. -/
theorem IsArgMax.snoc_of_lt (hlt : argRank ((l[m]?).getD 0) < argRank a) : IsArgMax (l ++ [a]) l.length := by
  obtain ⟨hm, hle, -⟩ := hmax
  have hbelow (j : Nat) (hj : j < l.length) : argRank (((l ++ [a])[j]?).getD 0) < argRank (((l ++ [a])[l.length]?).getD 0) := by
    rw [List.getElem?_append_left hj, List.getElem?_concat_length]
    exact (hle j hj).trans_lt hlt
  refine ⟨by simp, fun j hj => ?_, hbelow⟩
  rcases Nat.lt_succ_iff_lt_or_eq.1 (by simpa using hj) with hj | rfl
  · exact (hbelow j hj).le
  · exact le_rfl

/-- A further lane of no higher rank leaves it. -/
theorem IsArgMax.snoc_of_le (hge : argRank a ≤ argRank ((l[m]?).getD 0)) : IsArgMax (l ++ [a]) m := by
  obtain ⟨hm, hle, hfirst⟩ := hmax
  refine ⟨by simp; omega, fun j hj => ?_, fun j hj => ?_⟩
  · rw [List.getElem?_append_left hm]
    rcases Nat.lt_succ_iff_lt_or_eq.1 (by simpa using hj) with hj | rfl
    · rw [List.getElem?_append_left hj]
      exact hle j hj
    · rw [List.getElem?_concat_length]
      exact hge
  · rw [List.getElem?_append_left hm, List.getElem?_append_left (hj.trans hm)]
    exact hfirst j hj

end

/-- One lane of the search: the lanes seen, the best of them and its rank. -/
def argMaxStep (st : Nat × Nat × Option Int) (a : Nat) : Nat × Nat × Option Int :=
  match st.2.2 with
  | some r => if r < argRank a then (st.1 + 1, st.1, some (argRank a)) else (st.1 + 1, st.2.1, some r)
  | none => (st.1 + 1, st.1, some (argRank a))

theorem argMax_eq_foldl (l : List Nat) : argMax l = (l.foldl argMaxStep (0, 0, none)).2.1 := rfl

/-- After any lanes the search holds their number, the lowest one of the highest rank, and that rank. -/
theorem foldl_argMaxStep {l : List Nat} (hl : l ≠ []) : ∃ m, IsArgMax l m ∧
    l.foldl argMaxStep (0, 0, none) = (l.length, m, some (argRank ((l[m]?).getD 0))) := by
  induction l using List.reverseRecOn with
  | nil => exact absurd rfl hl
  | append_singleton l a ih =>
    rw [List.foldl_append, List.foldl_cons, List.foldl_nil, List.length_append, List.length_singleton]
    by_cases hempty : l = []
    · subst hempty
      exact ⟨0, ⟨by simp, by simp, by simp⟩, rfl⟩
    · obtain ⟨m, hmax, hfold⟩ := ih hempty
      rw [hfold]
      by_cases hlt : argRank ((l[m]?).getD 0) < argRank a
      · refine ⟨l.length, hmax.snoc_of_lt hlt, ?_⟩
        rw [List.getElem?_concat_length]
        exact if_pos hlt
      · refine ⟨m, hmax.snoc_of_le (not_lt.1 hlt), ?_⟩
        rw [List.getElem?_append_left hmax.1]
        exact if_neg hlt

theorem isArgMax_argMax {l : List Nat} (hl : l ≠ []) : IsArgMax l (argMax l) := by
  obtain ⟨m, hmax, hfold⟩ := foldl_argMaxStep hl
  rwa [argMax_eq_foldl, hfold]

/-! ## Ranks and comparisons (R331, R334) -/

theorem rank32_lt (b : Nat) : rank32 b < 2 ^ 32 := by
  have hlow := Nat.mod_lt b (Nat.two_pow_pos 31)
  rw [rank32]
  split <;> omega

theorem argRank_of_nan {x : Nat} (hx : isNan32 x = true) : argRank x = 2 ^ 32 := if_pos hx

theorem argRank_of_number {x : Nat} (hx : isNan32 x = false) : argRank x = rank32 x := if_neg (by simp [hx])

theorem argRank_lt_of_nan {x y : Nat} (hx : isNan32 x = true) (hy : isNan32 y = false) : argRank y < argRank x := by
  rw [argRank_of_nan hx, argRank_of_number hy]
  exact rank32_lt y

theorem argRank_lt_of_flt {x y : Nat} (hlt : flt x y = true) : argRank x < argRank y := by
  simp only [flt, Bool.and_eq_true, Bool.not_eq_true', decide_eq_true_eq] at hlt
  obtain ⟨⟨⟨hx, hy⟩, hrank⟩, -⟩ := hlt
  rwa [argRank_of_number hx, argRank_of_number hy]

theorem fle_of_nan {x y : Nat} (hnan : isNan32 x = true ∨ isNan32 y = true) : fle x y = false := by
  rcases hnan with h | h <;> simp [fle, flt, feq, h]

/-! ## The rows -/

section
variable {s : State} {l : Fin 128} (hready : SlotReady s l) (last : Bool) {vd va vb : BitVec 5}
include hready

theorem exec_vscan_of_ready (hd : vPending (latheAt s l.val) vd = false) (ha : vPending (latheAt s l.val) va = false) :
    exec (.vscan l vd va last) s =
      .next (slotEnd (stage s l.val (.vreg vd.toNat (ofLanes (scan (lanes (vGet (latheAt s l.val) va)))))) l 3 last) :=
  congrArg Host.Outcome.next (vSlot_of_ready hready (by simp [hd, ha]) last rfl)

theorem exec_vargmax_of_ready (sd : BitVec 5) (ha : vPending (latheAt s l.val) va = false) : exec (.vargmax l sd va last) s =
    .next (slotEnd (stage s l.val (.sreg sd.toNat (BitVec.ofNat 64 (argMax (lanes (vGet (latheAt s l.val) va)))))) l 3 last) :=
  congrArg Host.Outcome.next (vSlot_of_ready hready (by simp [ha]) last rfl)

theorem exec_vfirst_of_ready (sd : BitVec 5) (ha : vPending (latheAt s l.val) va = false) (hb : vPending (latheAt s l.val) vb = false) :
    exec (.vfirst l sd va vb last) s = .next (slotEnd (stage s l.val (.sreg sd.toNat (BitVec.ofNat 64
      ((lanes (vGet (latheAt s l.val) va)).findIdx (fle (lane (vGet (latheAt s l.val) vb) 0)))))) l 3 last) := by
  rw [List.findIdx_eq_getD_findIdx?, length_lanes]
  exact congrArg Host.Outcome.next (vSlot_of_ready hready (by simp [ha, hb]) last rfl)

end

/-- Settles O57: the rows stage the running sums, the best lane and the first lane, and each list function is what its lemma says. -/
theorem scansAndSearchesOfLanes : Obligations.ScansAndSearchesOfLanes := by
  refine ⟨?rows, fun x y => argRank_lt_of_nan, by decide, fun x y => argRank_lt_of_flt, fun x y => fle_of_nan⟩
  intro s l last vd va vb sd hready hregs a ha
  obtain ⟨hvd, hva, hvb⟩ : vPending (latheAt s l.val) vd = false ∧ vPending (latheAt s l.val) va = false ∧
    vPending (latheAt s l.val) vb = false := by simpa using hregs
  have hlen : a.length = 256 := ha ▸ length_lanes _
  refine ⟨⟨scan a, ha ▸ exec_vscan_of_ready hready last hvd hva, (length_scan a).trans hlen, scan_head a, fun i hi => scan_succ (by omega)⟩,
    ?highest, ?first⟩
  case highest =>
    obtain ⟨hlt, hle, hlowest⟩ := isArgMax_argMax (List.ne_nil_of_length_pos (hlen ▸ by decide : 0 < a.length))
    exact ⟨argMax a, hlen ▸ hlt, ha ▸ exec_vargmax_of_ready hready last sd hva, fun j hj => hle j (hlen ▸ hj), hlowest⟩
  case first =>
    have hle : a.findIdx (fle (lane (vGet (latheAt s l.val) vb) 0)) ≤ a.length := List.findIdx_le_length
    refine ⟨_, hlen ▸ hle, ha ▸ exec_vfirst_of_ready hready last sd hva hvb, fun j hj => ?_, fun hm => ?_⟩
    · rw [List.getElem?_eq_getElem (hj.trans_le hle), Option.getD_some]
      exact List.not_of_lt_findIdx hj
    · rw [List.getElem?_eq_getElem (hlen ▸ hm), Option.getD_some]
      exact List.findIdx_getElem

end Sys2Proof.Machine
end

section
/-! Chapter 08: a window's command becomes ready (R361 to R365) and waits for its AFTER counter (R369). -/

namespace Sys2Proof.Machine

section
variable {s : State} {w : Fin 1024}

/-! ## The count check and the header (R361, R364, R365) -/

/-- The command of window `w` is ready, the latest of all windows (R361, R370). -/
def readied (s : State) (w : Nat) : State :=
  putWin { s with readyNo := s.readyNo + 1 } w { winOf s w with ready := true, readyAt := s.readyNo + 1 }

/-- What a window that holds a whole command does by its header (R364, R365): a RUN waits for its checks, another command for its AFTER
counter, or goes into service. -/
def headerServed (s : State) (w : Nat) : State :=
  match headerFault s w with
  | some r => refuse s w r
  | none =>
    if hdr s w 2 1 = 1 then readied s w
    else if hdr (readied s w) w 8 8 ≠ 0 then pollAfter (setWinState (readied s w) w 2) w
    else setWinState (readied s w) w 5

theorem exec_commandReady_of_full (hfull : WindowFull s w) : exec (.commandReady w) s = .next (headerServed s w.val) := by
  obtain ⟨hrun, hkept, hmode, hstate, hfilling, hinj, hlines, hsome, hlen, hcount⟩ := hfull
  have hfirst : (winOf s w.val).arrived.contains 0 = true := List.contains_iff_mem.mpr (hlines ▸ List.mem_range.mpr hsome)
  have hwhole : ((winOf s w.val).arrived != List.range (hdr s w.val 0 2)) = false := bne_eq_false_iff_eq.mpr hlines
  have hzero : hdr s w.val 0 2 ≠ 0 := Nat.ne_of_gt hsome
  change Host.Outcome.next (doCommandReady w s) = _
  simp only [doCommandReady, whenRunning_of_running hrun, takeInj_of_none_armed hinj, hkept, hmode, hstate, hfilling, hfirst, hwhole,
    hzero, Nat.not_lt.mpr hlen, Nat.not_lt.mpr hcount, bne_self_eq_false, decide_false, Option.isSome_none, Bool.not_true, Bool.false_and,
    Bool.or_self, Bool.false_eq_true, if_false]
  unfold headerServed
  cases headerFault s w.val <;> rfl

theorem exec_commandReady_of_other_lines (hrun : running s = true) (hkept : keptOf s w.val = none) (hmode : mailbox s w.val = false)
    (hstate : winState s w.val = 1) (hfilling : (winOf s w.val).ready = false) (hinj : s.inj = [])
    (hfirst : (winOf s w.val).arrived.contains 0 = true)
    (hcount : hdr s w.val 0 2 ≤ (counter s (winCtr w.val)).toNat ∨ 1024 < hdr s w.val 0 2)
    (hlines : (winOf s w.val).arrived ≠ List.range (hdr s w.val 0 2)) : exec (.commandReady w) s = .next (refuseLen s w.val) := by
  have hcounted : (decide ((counter s (winCtr w.val)).toNat < hdr s w.val 0 2) && decide (hdr s w.val 0 2 ≤ 1024)) = false := by
    rw [Bool.and_eq_false_iff, decide_eq_false_iff_not, decide_eq_false_iff_not]
    omega
  have hother : ((winOf s w.val).arrived != List.range (hdr s w.val 0 2)) = true := bne_iff_ne.mpr hlines
  change Host.Outcome.next (doCommandReady w s) = _
  simp only [doCommandReady, whenRunning_of_running hrun, takeInj_of_none_armed hinj, hkept, hmode, hstate, hfilling, hfirst, hcounted,
    hother, bne_self_eq_false, Option.isSome_none, Bool.not_true, Bool.or_self, Bool.or_true, Bool.false_eq_true, if_false, if_true]

/-! ## AFTER (R369) -/

section
variable (hrun : running s = true) (hwait : winState s w.val = 2) (hinj : s.inj = [])
include hrun hwait hinj

theorem exec_afterSatisfied_of_value {remote v : Word} (hvalue : afterValue s w.val remote = some v) :
    exec (.afterSatisfied w remote) s =
      .next (if hdr s w.val 16 8 ≤ v.toNat then proceed s w.val else pollAfter s w.val) := by
  change Host.Outcome.next (doAfterSatisfied w remote s) = _
  simp only [doAfterSatisfied, whenRunning_of_running hrun, takeInj_of_none_armed hinj, hwait, hvalue, bne_self_eq_false,
    Bool.false_eq_true, if_false]

theorem exec_afterTimeout_of_waiting : exec (.afterTimeout w) s = .next (afterTimeout s w.val) := by
  change Host.Outcome.next (doAfterTimeout w s) = _
  simp only [doAfterTimeout, whenRunning_of_running hrun, takeInj_of_none_armed hinj, hwait, bne_self_eq_false, Bool.false_eq_true,
    if_false]

end

end

/-- Settles O20: the header decides what a whole command does, and the AFTER counter's value what a waiting one does. -/
theorem commandsBecomeReady : Obligations.CommandsBecomeReady := by
  refine ⟨?full, ?misfit, ?after⟩
  case full =>
    intro s w hfull
    have hdone := exec_commandReady_of_full hfull
    refine ⟨fun hheader => ⟨fun hop => ?_, fun hop => ⟨_, rfl, ?_⟩⟩, fun r hheader => ?_⟩
    · rw [hdone, headerServed, hheader]
      exact congrArg _ (if_pos hop)
    · rw [hdone, headerServed, hheader]
      exact congrArg _ (if_neg hop)
    · rw [hdone, headerServed, hheader]
  case misfit =>
    intro s w hrun hkept hmode hstate hfilling hinj hfirst hcount hlines
    exact exec_commandReady_of_other_lines hrun hkept hmode hstate hfilling hinj hfirst hcount hlines
  case after =>
    intro s w hrun hwait hinj
    refine ⟨fun remote v hvalue hreached => ?_, fun remote v hvalue hshort => ?_, exec_afterTimeout_of_waiting hrun hwait hinj⟩
    · rw [exec_afterSatisfied_of_value hrun hwait hinj hvalue, if_pos hreached]
    · rw [exec_afterSatisfied_of_value hrun hwait hinj hvalue, if_neg (Nat.not_le.mpr hshort)]

end Sys2Proof.Machine
end

section
/-! Chapter 08: ARM (R366, R367). -/

namespace Sys2Proof.Machine

section
variable {s : State} {w : Fin 1024}

/-! ## Serving an ARM of one MODE -/

theorem armServe_of_effect {mode off : Nat} (hserved : ArmServed s w mode off) {f : Nat → Nat → Nat → Nat ⊕ State} {t : State}
    (heffect : f off (hdr s w.val 44 4) (hdr s w.val 48 4) = .inr t) : armServe w.val mode s f = complete t w.val { status := 0 } := by
  obtain ⟨hserve, hmode, hcheck⟩ := hserved
  simp only [armServe, hserve, hmode, hcheck, heffect, Bool.not_true, bne_self_eq_false, Bool.or_self, Bool.false_eq_true, if_false]

theorem armServe_of_failed_check {mode r : Nat} (hserve : serving s w.val 4 = true) (hmode : hdr s w.val 52 1 = mode)
    (hcheck : armCheck s w.val = .inl r) (f : Nat → Nat → Nat → Nat ⊕ State) : armServe w.val mode s f = refuse s w.val r := by
  simp only [armServe, hserve, hmode, hcheck, Bool.not_true, bne_self_eq_false, Bool.or_self, Bool.false_eq_true, if_false]

/-! ## The four modes -/

variable {off : Nat}

theorem exec_armBind_of_window {v x : Nat} (hserved : ArmServed s w 0 off) (htarget : target off = .window v x)
    (hctr : isWinCtr (hdr s w.val 48 4) = true) (hmode : mailbox s v = false) :
    exec (.armBind w) s = .next (complete (armWindow (regPut s (rWinStat v) 3 3 1) v) w.val { status := 0 }) :=
  congrArg Host.Outcome.next (armServe_of_effect hserved (by simp [htarget, hctr, hmode]))

theorem exec_armBind_of_chuck {l x : Nat} (hserved : ArmServed s w 0 off) (htarget : target off = .chuck l x)
    (hfree : overlapsArea s off (hdr s w.val 44 4) = false) (hunbound : s.areas.any (fun a => a.counter == hdr s w.val 48 4) = false) :
    exec (.armBind w) s = .next (complete (setCounter { s with
      areas := s.areas ++ [⟨off, hdr s w.val 44 4 / 64, hdr s w.val 48 4, [], true, none⟩] } (hdr s w.val 48 4) 0) w.val { status := 0 }) :=
  congrArg Host.Outcome.next (armServe_of_effect hserved (by simp only [htarget, hfree, hunbound, Bool.or_self, Bool.false_eq_true, if_false]))

theorem exec_armRearm_of_window {v x : Nat} (hserved : ArmServed s w 1 off) (htarget : target off = .window v x)
    (hctr : isWinCtr (hdr s w.val 48 4) = true) : exec (.armRearm w) s = .next (complete (armWindow s v) w.val { status := 0 }) :=
  congrArg Host.Outcome.next (armServe_of_effect hserved (by simp [htarget, hctr]))

theorem exec_armRearm_of_chuck {l x : Nat} {a : Area} (hserved : ArmServed s w 1 off) (htarget : target off = .chuck l x)
    (hbound : sameArea s off (hdr s w.val 44 4) (hdr s w.val 48 4) = some a) :
    exec (.armRearm w) s = .next (complete (armArea s a) w.val { status := 0 }) :=
  congrArg Host.Outcome.next (armServe_of_effect hserved (by simp [htarget, hbound]))

theorem exec_armUnbind_of_bound {a : Area} (hserved : ArmServed s w 2 off)
    (hbound : sameArea s off (hdr s w.val 44 4) (hdr s w.val 48 4) = some a) : exec (.armUnbind w) s =
      .next (complete { s with areas := s.areas.filter (fun b => b.base != a.base) } w.val { status := 0 }) :=
  congrArg Host.Outcome.next (armServe_of_effect hserved (by simp only [hbound]))

theorem exec_armCommandMode_of_mailbox {v x : Nat} (hserved : ArmServed s w 3 off) (htarget : target off = .window v x)
    (hctr : isWinCtr (hdr s w.val 48 4) = true) (hmode : mailbox s v = true) :
    exec (.armCommandMode w) s = .next (complete (armWindow (regPut s (rWinStat v) 3 3 0) v) w.val { status := 0 }) :=
  congrArg Host.Outcome.next (armServe_of_effect hserved (by simp [htarget, hctr, hmode]))

end

/-- Settles O21: one equation for each MODE and each kind of area, and one for a failed check of every MODE. -/
theorem armActsOnItsArea : Obligations.ArmActsOnItsArea := by
  intro s w
  refine ⟨fun off v x => exec_armBind_of_window, fun off l x => exec_armBind_of_chuck, fun off v x => exec_armRearm_of_window,
    fun off l x a => exec_armRearm_of_chuck, fun off a => exec_armUnbind_of_bound, fun off v x => exec_armCommandMode_of_mailbox, ?refused⟩
  case refused =>
    intro r hserve hcheck
    refine ⟨fun hmode => ?_, fun hmode => ?_, fun hmode => ?_, fun hmode => ?_⟩ <;>
      exact congrArg Host.Outcome.next (armServe_of_failed_check hserve hmode hcheck _)

end Sys2Proof.Machine
end

section
/-! Chapter 08: plans are copied, checked, given a handle and unloaded (R350 to R354). -/

namespace Sys2Proof.Machine

section
variable {s : State} {w : Fin 1024}

/-! ## PLAN_LOAD (R350 to R352) -/

theorem exec_planLoad_of_copied {t u v : State} {ext : List FarLine} {x n : Nat} (hserve : serving s w.val 2 = true)
    (hnew : s.planLoads.any (fun p => p.1 == w.val) = false) (hsrc : hdr s w.val 36 8 < 2 ^ 60) (hn : n = (hdr s w.val 44 8 + 65535) / 65536)
    (hroom : allocFrames s (winDom s w.val) n = .ok v)
    (hbytes : kBytes s (loader w.val (winDom s w.val)) (hdr s w.val 36 8) (hdr s w.val 44 8) ext = .ok x t)
    (hframes : allocFrames (readDone t w.val) (winDom s w.val) n = .ok u) :
    exec (.planLoad w ext) s = .next { (u.writeN (stageKey w.val) (hdr s w.val 44 8) x) with
      planLoads := u.planLoads ++ [(w.val, hdr s w.val 44 8, n)] } := by
  change Host.Outcome.next (doPlanLoad w ext s) = _
  simp only [doPlanLoad, hserve, hnew, Nat.not_le.mpr hsrc, ← hn, hroom, hbytes, hframes, Bool.not_true, Bool.or_self, Bool.false_eq_true,
    if_false]

section
variable {size n : Nat} (hrun : running s = true) (hload : s.planLoads.find? (fun p => p.1 == w.val) = some (w.val, size, n))
  (hinj : s.inj = [])
include hrun hload hinj

theorem exec_planLoadDone_of_failed_check {reason addr : Nat} (hcheck : planCheck s (stageKey w.val) size false = some (reason, addr)) :
    exec (.planLoadDone w) s = .next (refuseAt (releaseFrames { (zeroMem s (stageKey w.val) (n * 65536)) with
      planLoads := s.planLoads.filter (fun p => p.1 != w.val) } (winDom s w.val) n) w.val reason addr) := by
  change Host.Outcome.next (doPlanLoadDone w s) = _
  simp only [doPlanLoadDone, whenRunning_of_running hrun, hload, takeInj_of_none_armed hinj, hcheck]

/-- The PLAN_STAT word of the plan whose copy window `w` holds in `n` frames (R352): VALID, its domain, and its size on the engines. -/
def loadedStat (s : State) (w n : Nat) : Word :=
  BitVec.ofNat 64 (2 ^ 63 + winDom s w * 2 ^ 55 + cN s (stageKey w) 24 1 * 2 ^ 51 + cN s (stageKey w) 25 1 * 2 ^ 46 +
    cN s (stageKey w) 29 1 * 2 ^ 38 + n * 2 ^ 14)

/-- Plan `p` takes the bytes of window `w`'s copy, and the load ends with their digest on record. -/
def planTaken (s : State) (w p n : Nat) : State :=
  let t := zeroMem (copyMem s (stageKey w) (planKey p) (n * 65536)) (stageKey w) (n * 65536)
  { t with
    planLoads := t.planLoads.filter (fun q => q.1 != w)
    planDigests := t.planDigests.filter (fun e => e.1 != p) ++ [(p, BitVec.ofNat 512 (cN s (stageKey w) 64 64))] }

theorem exec_planLoadDone_of_passed {p : Nat} (hcheck : planCheck s (stageKey w.val) size false = none)
    (hfree : (List.range 256).find? (fun p => reg s (rPlanStat p) == 0) = some p) :
    exec (.planLoadDone w) s = .next (complete (pmc (regSet (regSet (planTaken s w.val p n) (rPlanStat p) (loadedStat s w.val n))
      (rPlanBudget p) (BitVec.ofNat 64 (cN s (stageKey w.val) 32 6))) 206 6 1 (some (winDom s w.val))) w.val { status := 0, v0 := p }) := by
  change Host.Outcome.next (doPlanLoadDone w s) = _
  simp only [doPlanLoadDone, whenRunning_of_running hrun, hload, takeInj_of_none_armed hinj, hcheck, hfree]
  rfl

end

/-! ## PLAN_UNLOAD (R354) -/

section
variable {p : Nat} (hserve : serving s w.val 3 = true) (hp : hdr s w.val 36 2 = p)
include hserve hp

theorem exec_planUnload_of_no_plan (hnone : 256 ≤ p ∨ reg s (rPlanStat p) = 0) : exec (.planUnload w) s = .next (refuse s w.val 5) := by
  change Host.Outcome.next (doPlanUnload w s) = _
  simp only [doPlanUnload, hserve, hp, hnone, Bool.not_true, Bool.false_eq_true, if_false, if_true]

variable (hlt : p < 256) (hplan : reg s (rPlanStat p) ≠ 0) (hpermit : permitPlan s (winDom s w.val) p = true)
include hlt hplan hpermit

theorem exec_planUnload_of_used (hused : regFld s (rPlanStat p) 37 27 ≠ 0) : exec (.planUnload w) s = .next (refuse s w.val 17) := by
  change Host.Outcome.next (doPlanUnload w s) = _
  simp only [doPlanUnload, hserve, hp, Nat.not_le.mpr hlt, hplan, hpermit, hused, Bool.not_true, Bool.false_eq_true, or_self, ne_eq,
    not_false_eq_true, if_false, if_true]

/-- The state without the bytes and the frames of plan `p`. -/
def planFreed (s : State) (p : Nat) : State :=
  releaseFrames (zeroMem s (spKey (spPlan p) 0) (regFld s (rPlanStat p) 26 14 * 65536)) (regFld s (rPlanStat p) 62 55)
    (regFld s (rPlanStat p) 26 14)

theorem exec_planUnload_of_unused (hunused : regFld s (rPlanStat p) 37 27 = 0) : exec (.planUnload w) s =
    .next (complete (regSet (regSet { planFreed s p with planDigests := (planFreed s p).planDigests.filter (fun e => e.1 != p) }
      (rPlanStat p) 0) (rPlanBudget p) 0) w.val { status := 0 }) := by
  change Host.Outcome.next (doPlanUnload w s) = _
  simp only [doPlanUnload, hserve, hp, Nat.not_le.mpr hlt, hplan, hpermit, hunused, Bool.not_true, Bool.false_eq_true, or_self, ne_eq,
    not_true_eq_false, if_false]
  rfl

end

end

/-- Settles O23: PLAN_LOAD, its two ends, and PLAN_UNLOAD by what its handle holds. -/
theorem plansLoadAndUnload : Obligations.PlansLoadAndUnload := by
  refine ⟨?load, ?loaded, ?unload⟩
  case load =>
    intro s t u v w ext x n hserve hnew hsrc hn hroom hbytes hframes
    exact exec_planLoad_of_copied hserve hnew hsrc hn hroom hbytes hframes
  case loaded =>
    intro s w size n hrun hload hinj
    exact ⟨fun reason addr hcheck => exec_planLoadDone_of_failed_check hrun hload hinj hcheck,
      fun p hcheck hfree => ⟨_, _, rfl, rfl, exec_planLoadDone_of_passed hrun hload hinj hcheck hfree⟩⟩
  case unload =>
    intro s w p hserve hp
    exact ⟨exec_planUnload_of_no_plan hserve hp, fun hlt hplan hpermit => ⟨exec_planUnload_of_used hserve hp hlt hplan hpermit,
      fun hunused => ⟨_, rfl, exec_planUnload_of_unused hserve hp hlt hplan hpermit hunused⟩⟩⟩

end Sys2Proof.Machine
end

section
/-! Chapter 08: kernels run, start and commit (R163 to R172, R347, R368 to R372). -/

namespace Sys2Proof.Machine

/-! ## The work frames that a plan names rest on memory alone (R438, R456) -/

theorem mem_clockCache {last : Bool} {s t : State} (ht : clockCache last s = some t) : t.mem = s.mem := by
  have hmem : (pmc s 176 5 1 none).mem = s.mem := congrArg Stored.mem (stored_pmc s 176 5 1 none)
  simp only [clockCache] at ht
  split at ht
  · rw [← Option.some.inj ht, ← hmem]
  · split at ht
    · rw [← Option.some.inj ht, ← hmem]
    · exact absurd ht.symm (Option.some_ne_none t)

theorem mem_takeFrame {s t : State} (ht : takeFrame s = some t) : t.mem = s.mem := by
  simp only [takeFrame, cacheFrame] at ht
  split at ht
  next hframe =>
    split at hframe
    · rw [← Option.some.inj ht, ← Option.some.inj hframe]
    · rw [← Option.some.inj ht]
      exact mem_clockCache hframe
  next => exact mem_clockCache ht

theorem mem_takeFrames {n : Nat} {s t : State} (ht : takeFrames s n = some t) : t.mem = s.mem := by
  induction n generalizing s with
  | zero => rw [← Option.some.inj ht]
  | succ n ih =>
    rw [takeFrames] at ht
    split at ht
    · exact absurd ht.symm (Option.some_ne_none t)
    next u hframe => exact (ih ht).trans (mem_takeFrame hframe)

/-- An allocation of frames changes no byte. -/
theorem mem_allocFrames {s t : State} {d n : Nat} (ht : allocFrames s d n = .ok t) : t.mem = s.mem := by
  rw [allocFrames] at ht
  split at ht
  · rw [← Alloc.ok.inj ht]
  · split at ht
    · exact Alloc.noConfusion ht
    · split at ht
      · exact Alloc.noConfusion ht
      next u hframes =>
        rw [← Alloc.ok.inj ht]
        exact (mem_takeFrames hframes : u.mem = s.mem)

section
variable {s t : State} (hmem : t.mem = s.mem)
include hmem

theorem planN_congr (p a n : Nat) : planN t p a n = planN s p a n := by
  rw [planN, planN, State.readN, State.readN, hmem]

theorem planSect_congr (p ty ix : Nat) : planSect t p ty ix = planSect s p ty ix := by
  simp only [planSect, sectionsAt, State.readN, hmem]

theorem planCtxs_congr (p : Nat) : planCtxs t p = planCtxs s p := by
  rw [planCtxs, planSect_congr hmem, planN_congr hmem, planCtxs]

theorem ctxFrames_congr (p : Nat) : ctxFrames t p = ctxFrames s p := by
  rw [ctxFrames, planCtxs_congr hmem, planSect_congr hmem]
  simp only [planN_congr hmem]
  rfl

end

/-! ## RUN (R368) -/

section
variable {s : State} {w : Fin 1024}

/-- The state in which the RUN of window `w` is checked: WIN_STAT shows the plan that it names (R380). -/
def planShown (s : State) (w : Nat) : State := regPut s (rWinStat w) 20 13 (hdr s w 36 2 % 256)

section
variable {far : FarAnswer} (hrun : running s = true) (hstate : winState s w.val = 1) (hready : (winOf s w.val).ready = true)
  (hop : hdr s w.val 2 1 = 1) (hnew : kernelOf s w.val = none)
include hrun hstate hready hop hnew

theorem exec_run_of_failed_check {r : Nat} (hcheck : runCheck (planShown s w.val) w.val far = .inl r) :
    exec (.run w far) s = .next (refuse (planShown s w.val) w.val r) := by
  rw [planShown] at hcheck
  change Host.Outcome.next (doRun w far s) = _
  simp only [doRun, whenRunning_of_running hrun, hstate, hready, hop, hnew, hcheck, bne_self_eq_false, Bool.not_true, Option.isSome_none,
    Bool.or_self, Bool.false_eq_true, if_false]
  rfl

theorem exec_run_of_passed {k : Kernel} {t : State} (hcheck : runCheck (planShown s w.val) w.val far = .inr k)
    (ht : t = { planShown s w.val with kernels := (planShown s w.val).kernels ++ [k] }) : exec (.run w far) s =
      .next (if hdr t w.val 8 8 ≠ 0 then pollAfter (setWinState t w.val 2) w.val else proceed t w.val) := by
  rw [planShown] at hcheck
  change Host.Outcome.next (doRun w far s) = _
  simp only [doRun, whenRunning_of_running hrun, hstate, hready, hop, hnew, hcheck, bne_self_eq_false, Bool.not_true, Option.isSome_none,
    Bool.or_self, Bool.false_eq_true, if_false]
  rw [ht]
  rfl

end

/-! ## KERNEL_START (R370) -/

section
variable {k : Kernel} (far : FarAnswer) (ext : List FarLine) (hrun : running s = true) (hkernel : kernelOf s w.val = some k)
include hrun hkernel

theorem exec_kernelStart_of_head {k1 : Kernel} {ls cs ks : List Nat} (hstate : winState s w.val = 3) (hkept : planKept s k = true)
    (hhead : s.lathQ.head? = some w.val ∨ s.engQ.head? = some w.val) (hchecked : uncheckedRun s w.val k = false)
    (hreplay : replayDue s = false) (hpermit : permitPlan s k.dom k.plan = true)
    (hapart : s.kernels.any (fun x => x.started && x.win != w.val && outsMeet x.outs k.outs) = false)
    (hplace : placeAll s k = some (ls, cs, ks)) (hk1 : k1 = { k with lathes := ls, ctxs := cs, kites := ks }) :
    exec (.kernelStart w far ext) s = .next (reachStart (forEach (engClocks k1) (takeEngines s k1) askStart) k1 far ext) := by
  have hnext : ¬ ((s.lathQ.head? ≠ some w.val ∧ s.engQ.head? ≠ some w.val) ∨ uncheckedRun s w.val k ∨ replayDue s ∨
      !permitPlan s k.dom k.plan ∨ s.kernels.any (fun x => x.started && x.win != w.val && outsMeet x.outs k.outs)) := by
    simp only [hchecked, hreplay, hpermit, hapart, Bool.not_true, Bool.false_eq_true, or_self, or_false]
    tauto
  change Host.Outcome.next (doKernelStart w far ext s) = _
  simp only [doKernelStart, whenRunning_of_running hrun, hkernel, hstate, hkept, hnext, hplace, ← hk1, Bool.not_true, Bool.false_eq_true,
    ne_eq, not_true_eq_false, Nat.reduceEqDiff, if_false]

theorem exec_kernelStart_of_starting (hstate : winState s w.val = 4) (hstarted : k.started = false) :
    exec (.kernelStart w far ext) s = .next (reachStart s k far ext) := by
  change Host.Outcome.next (doKernelStart w far ext s) = _
  simp only [doKernelStart, whenRunning_of_running hrun, hkernel, hstate, hstarted, Bool.false_eq_true, if_false, if_true]

end

end

/-! ## The start sequence: reservations, clocks and step 2 (R372, R438, R456, R518) -/

section
variable {s : State} {k : Kernel} (far : FarAnswer) (ext : List FarLine) (hkept : planKept s k = true)
include hkept

theorem reachStart_of_down {a : Nat} (hdown : farDown s (startAsks s k) = some a) :
    reachStart s k far ext = dropStart (farUp s (a / 2 ^ 50 % 1024) a).2 k.win a := by
  simp only [reachStart, hkept, hdown, Bool.not_true, Bool.false_eq_true, if_false]

variable (hup : farDown s (startAsks s k) = none) (hload : k.loaded = false) {k0 : Kernel} (hk0 : k0 = ownTurn s k far.regions)
  {s0 : State} (hs0 : s0 = putKernel s k0)
include hup hload hk0 hs0

theorem reachStart_of_unreserved {t : State} (hask : askReserve s0 k0 far.regions = some t) : reachStart s k far ext = t := by
  simp only [reachStart, hkept, hup, hload, ← hk0, ← hs0, hask, Bool.not_true, Bool.false_eq_true, if_false]

variable (hreserved : askReserve s0 k0 far.regions = none)
include hreserved

theorem reachStart_of_unclocked (hclocks : (engClocks k0).all (fun u => s0.clocked.contains u) = false) :
    reachStart s k far ext = forEach (engClocks k0) s0 askStart := by
  simp only [reachStart, hkept, hup, hload, ← hk0, ← hs0, hreserved, hclocks, Bool.not_true, Bool.not_false, Bool.false_eq_true, if_false,
    if_true]

theorem reachStart_of_loaded {k1 k2 : Kernel} {t u v : State} (hclocks : (engClocks k0).all (fun u => s0.clocked.contains u) = true)
    (hidle : k0.lathes.all (fun l => latheState s0 l == 0) = true) (hbound : loadKernel s0 k0 = some (k1, t))
    (hctx : allocFrames t k1.dom (ctxFrames t k1.plan) = .ok u) (hkite : allocFrames u k1.dom (kiteFrames u k1.plan) = .ok v)
    (hk2 : k2 = { k1 with work := ctxFrames t k1.plan + kiteFrames v k1.plan }) :
    reachStart s k far ext = reachSnapshot (putKernel v k2) k2 far ext := by
  have hwork : ctxFrames u k1.plan = ctxFrames t k1.plan := ctxFrames_congr (mem_allocFrames hctx) _
  simp only [reachStart, hkept, hup, hload, ← hk0, ← hs0, hreserved, hclocks, hidle, hbound, hctx, hkite, hwork, hk2, Bool.not_true,
    Bool.false_eq_true, if_false]

end

/-! ## The start sequence: the snapshot and the start point (R85, R191, R264, R372, R426) -/

section
variable {s : State} {k : Kernel} (far : FarAnswer) (ext : List FarLine)

section
variable (hsent : k.pinSent = true)
include hsent

theorem reachSnapshot_of_unanswered (hpins : far.pins = none) : reachSnapshot s k far ext = s := by
  simp only [reachSnapshot, hsent, hpins, if_true]

theorem reachSnapshot_of_answered {ok : Bool} (hpins : far.pins = some ok) {k1 : Kernel}
    (hk1 : k1 = { k with bases := far.bases.map (fun b => (b.1.toNat, b.2.1.toNat, b.2.2.toNat)) }) :
    reachSnapshot s k far ext = passStart s k1 (if ok then none else some (stalePin s k1 far.stale)) := by
  simp only [reachSnapshot, hsent, hpins, hk1, if_true]

end

section
variable {s1 t u : State} {k1 k2 k3 : Kernel} (hsent : k.pinSent = false)
  (hdecided : k.slots.any (fun x => x.role == 1 && x.ctrl == ownCtrl s && regionDeciding s x.region) = false)
  (hheld : heldAll s k far.regions = true) (hk1 : k1 = snapshot s k far.regions)
  (hs1 : s1 = forEach (k1.pins.map (fun p => p.1)) s refreshReplica)
  (hfresh : k1.pins.any (fun p => rgPlace s1 p.1 == 2 && Sparse.get s1.replicas p.1 0 != p.2 + 1) = false)
  (htabs : readTables s1 k1 ext = .ok k2 t) (hidxs : readIdxs t k2 ext (idxSlots t k2.plan) = .ok k3 u)
include hsent hdecided hheld hk1 hs1 hfresh htabs hidxs

theorem reachSnapshot_of_own_pins (hpins : farPins (readDone u k3.win) k3 = []) :
    reachSnapshot s k far ext = passStart (readDone u k3.win) k3 none := by
  simp only [reachSnapshot, hsent, hdecided, hheld, ← hk1, ← hs1, hfresh, htabs, hidxs, hpins, Bool.not_true, Bool.false_eq_true, if_false,
    if_true]

theorem reachSnapshot_of_far_pins (hpins : farPins (readDone u k3.win) k3 ≠ [])
    (hup : farDown (readDone u k3.win) ((farPins (readDone u k3.win) k3).map (fun q => q.1 * 2 ^ 50)) = none) :
    reachSnapshot s k far ext = pinFar (readDone u k3.win) k3 := by
  simp only [reachSnapshot, hsent, hdecided, hheld, ← hk1, ← hs1, hfresh, htabs, hidxs, hpins, hup, Bool.not_true, Bool.false_eq_true,
    if_false]

theorem reachSnapshot_of_far_down {a : Nat} (hpins : farPins (readDone u k3.win) k3 ≠ [])
    (hdown : farDown (readDone u k3.win) ((farPins (readDone u k3.win) k3).map (fun q => q.1 * 2 ^ 50)) = some a) :
    reachSnapshot s k far ext = passStart (readDone u k3.win) k3 (some (false, 17, a)) := by
  simp only [reachSnapshot, hsent, hdecided, hheld, ← hk1, ← hs1, hfresh, htabs, hidxs, hpins, hdown, Bool.not_true, Bool.false_eq_true,
    if_false]

end

theorem passStart_of_no_holds {k' : Kernel} (hhold : k.holding = false) (hkernel : kernelOf (launch s k false) k.win = some k') :
    passStart s k none = fireAtStart (launch s k false) k' := by
  have hk : { k with holding := false } = k := by rw [← hhold]
  simp only [passStart, hhold, hk, hkernel, Bool.false_eq_true, if_false]

end

/-! ## SCHEDULE_FIRE (R347) -/

theorem exec_scheduleFire_of_due {s : State} {w : Fin 1024} {entry : BitVec 13} {far v : Word} {k : Kernel} {h : Handle}
    (hrun : running s = true) (hlive : liveKernel s w.val = some k) (hentry : entry.toNat < (planSect s k.plan 8 0).1)
    (hunfired : k.fired.contains entry.toNat = false) (hcounted : schedN s k.plan entry.toNat 2 1 ≠ 0xFF)
    (hundone : k.done.length ≠ k.lathes.length + k.ctxs.length + k.kites.length)
    (hhandle : handleOf k (schedN s k.plan entry.toNat 4 2) (schedN s k.plan entry.toNat 2 1) = some h)
    (hvalue : handleValue s k h far = some v) (hdue : schedN s k.plan entry.toNat 8 4 ≤ v.toNat) :
    exec (.scheduleFire w entry far) s =
      .next (forEach (dueBelow s k entry.toNat ++ [entry.toNat]) s (fun s j => fireEntry s k.win j)) := by
  change Host.Outcome.next (doScheduleFire w entry far s) = _
  simp only [doScheduleFire, whenRunning_of_running hrun, hlive, Nat.not_le.mpr hentry, hunfired, hcounted, hundone, hhandle, hvalue, hdue,
    Bool.false_eq_true, or_self, if_false, if_true]

/-! ## KERNEL_COMMIT (R166, R172, R195, R349) -/

/-- The host copies of a kernel's output units that are recalled before its commit point (R172). -/
def copiesOf (s : State) (mine : List Shadow) : List Nat := mine.flatMap (fun x => sharedLines s x.unit ++ heldLines s x.unit)

section
variable {s s1 : State} {w : Fin 1024} {k : Kernel} {mine : List Shadow} (hrun : running s = true) (hlive : liveKernel s w.val = some k)
  (hdone : AllDone s k) (hstaged : s.reels.any (fun e => e.2.st == .fetching && e.2.kwait.any (fun x => x.1 == w.val)) = false)
  (hreels : k.reelsDue = []) (hup : s.peerOuts.find? (fun e => e.1 == w.val && !peerUp s (e.2.1 / 2 ^ 50 % 1024)) = none)
  (hmine : mine = s.shadows.filter (fun x => x.win == w.val)) (hlook : unitLookups s (mine.map (fun x => x.unit)) = (s1, false))
include hrun hlive hdone hstaged hreels hup hmine hlook

theorem exec_kernelCommit_of_copies (hcopies : copiesOf s1 mine ≠ []) :
    exec (.kernelCommit w) s = .next (recallAll (putKernel s1 { k with prep := true }) (copiesOf s1 mine)) := by
  obtain ⟨hengines, hspool, hunits⟩ := hdone
  rw [copiesOf] at hcopies
  change Host.Outcome.next (doKernelCommit w s) = _
  simp only [doKernelCommit, whenRunning_of_running hrun, hlive, hengines, hspool, hunits, hstaged, hreels, hup, ← hmine, hlook, hcopies,
    ne_eq, not_true_eq_false, not_false_eq_true, Bool.false_eq_true, or_self, if_false, if_true]
  rfl

variable {t u v x : State} {outs : List (Nat × Reel)} {cyc disc : Nat} (hcopies : copiesOf s1 mine = [])
  (hcyc : cyc = k.lathes.foldl (fun m l => max m (reg s1 (rLathe l 0x20)).toNat) 0)
  (hdisc : disc = (planSect s1 k.plan 8 0).1 - k.fired.length)
  (ht : t = sendOutputs (forEach mine (if disc = 0 then s1 else ldrEvent s1 4 0 k.dom 0) (fun s x => commitShadow s x k.dom)) k)
  (houts : outs = t.reels.filter (fun e => e.2.st == .output && e.2.win == some w.val))
  (hu : u = forEach outs t (fun s e => sendWriteback s e.1 e.2))
  (hx : x = walkTally (pmc (freeEngines u k) 206 1 1 (some k.dom)) k 1)
  (hv : v = releaseHeld (endKernel (if k.suspect then leaveHang x w.val false else x) w.val) w.val)
include hcopies hcyc hdisc ht houts hu hx hv

/-- With no host copy left the outputs take their places; the completion waits for reels and covers that are not acknowledged. -/
theorem exec_kernelCommit_of_no_copies : exec (.kernelCommit w) s =
    .next (if outs = [] ∧ !v.covers.any (fun e => e.2 == .kernel w.val) then commitDone v w.val k.replays cyc disc
      else { moveWindow v w.val 6 with cplWait := v.cplWait ++ [(w.val, [k.replays, cyc, disc])] }) := by
  obtain ⟨hengines, hspool, hunits⟩ := hdone
  rw [copiesOf] at hcopies
  change Host.Outcome.next (doKernelCommit w s) = _
  simp only [doKernelCommit, whenRunning_of_running hrun, hlive, hengines, hspool, hunits, hstaged, hreels, hup, ← hmine, hlook, hcopies,
    ne_eq, not_true_eq_false, Bool.false_eq_true, or_self, if_false, ← hcyc, ← hdisc, ← ht, ← houts, ← hu, ← hx, ← hv]

end

/-- Settles O24, clause by clause in the order of a kernel's life; the work frames of step 2 are read after their allocation, which changes
no byte of the plan. -/
theorem kernelsRunStartAndCommit : Obligations.KernelsRunStartAndCommit := by
  refine ⟨?checked, ?queued, ?starting, ?down, ?loading, ?pinned, ?snapshot, ?launched, ?fires, ?commits⟩
  case checked =>
    intro s w far hrun hstate hready hop hnew
    exact ⟨_, rfl, fun r hcheck => exec_run_of_failed_check hrun hstate hready hop hnew hcheck,
      fun k t hcheck ht => exec_run_of_passed hrun hstate hready hop hnew hcheck ht⟩
  case queued =>
    intro s w far ext k k1 ls cs ks hrun hkernel hstate hkept hhead hchecked hreplay hpermit hapart hplace hk1
    exact exec_kernelStart_of_head far ext hrun hkernel hstate hkept hhead hchecked hreplay hpermit hapart hplace hk1
  case starting =>
    intro s w far ext k hrun hkernel hstate hstarted
    exact exec_kernelStart_of_starting far ext hrun hkernel hstate hstarted
  case down => exact fun s far ext k a hkept hdown => reachStart_of_down far ext hkept hdown
  case loading =>
    intro s far ext k k0 s0 hkept hup hload hk0 hs0
    exact ⟨fun t hask => reachStart_of_unreserved far ext hkept hup hload hk0 hs0 hask,
      fun hreserved hclocks => reachStart_of_unclocked far ext hkept hup hload hk0 hs0 hreserved hclocks,
      fun k1 k2 t u v hreserved hclocks hidle hbound hctx hkite hk2 =>
        reachStart_of_loaded far ext hkept hup hload hk0 hs0 hreserved hclocks hidle hbound hctx hkite hk2⟩
  case pinned =>
    intro s far ext k k1 hsent hk1
    exact ⟨reachSnapshot_of_unanswered far ext hsent, fun hpins => reachSnapshot_of_answered far ext hsent hpins hk1,
      fun hpins => reachSnapshot_of_answered far ext hsent hpins hk1⟩
  case snapshot =>
    intro s s1 t u far ext k k1 k2 k3 hsent hdecided hheld hk1 hs1 hfresh htabs hidxs
    exact ⟨reachSnapshot_of_own_pins far ext hsent hdecided hheld hk1 hs1 hfresh htabs hidxs,
      fun hpins => ⟨reachSnapshot_of_far_pins far ext hsent hdecided hheld hk1 hs1 hfresh htabs hidxs hpins,
        fun a hdown => reachSnapshot_of_far_down far ext hsent hdecided hheld hk1 hs1 hfresh htabs hidxs hpins hdown⟩⟩
  case launched => exact fun s k k' hhold hkernel => passStart_of_no_holds hhold hkernel
  case fires =>
    intro s w entry far k h v hrun hlive hentry hunfired hcounted hundone hhandle hvalue hdue
    exact exec_scheduleFire_of_due hrun hlive hentry hunfired hcounted hundone hhandle hvalue hdue
  case commits =>
    intro s s1 t u v x w k mine disc cyc outs hrun hlive hdone hstaged hreels hup hmine hlook
    refine ⟨exec_kernelCommit_of_copies hrun hlive hdone hstaged hreels hup hmine hlook,
      fun hcopies hcyc hdisc ht houts hu hx hv => ?_⟩
    have hcommit := exec_kernelCommit_of_no_copies hrun hlive hdone hstaged hreels hup hmine hlook hcopies hcyc hdisc ht houts hu hx hv
    refine ⟨fun ⟨hnone, hcovered⟩ => ?_, fun hwaits => ?_⟩
    · rw [hcommit, if_pos ⟨hnone, by rw [hcovered]; rfl⟩]
    · rw [hcommit, if_neg]
      rintro ⟨hnone, hcovered⟩
      rcases hwaits with hsome | hcovers
      · exact hsome hnone
      · simp [hcovers] at hcovered

end Sys2Proof.Machine
end

section
/-! Chapters 10 and 11: how a gather context or a kite that runs its program ends an instruction (R444 to R448). -/

namespace Sys2Proof.Machine

/-- The engine after an instruction of kernel `k` ended with `r`, its cycle counted. -/
def insnEnd (e : EngKind) (n : Nat) (k : Kernel) (r : CRes) : State :=
  e.cycle (match r with
    | .next c s => ctxAdvance e (readDone s k.win) n c c.pc
    | .stay s => s
    | .fault code a s => e.fault s n code a) n k.dom

section
variable {e : EngKind} {s : State} {n : Nat} {k : Kernel} (hready : EngReady e s n k)
include hready

theorem insn_of_ready (f : Ctx → Kernel → State → CRes) : insn e n s f = insnEnd e n k (f (e.get s n) k s) := by
  obtain ⟨hrun, hstate, hstopped, hquery, hkernel⟩ := hready
  obtain ⟨k0, hlive, rfl⟩ := Option.map_eq_some_iff.mp hkernel
  simp only [insn, whenRunning_of_running hrun, hstate, hstopped, hquery, hlive, ne_eq, not_true_eq_false, Bool.false_eq_true,
    Option.isSome_none, or_self, if_false]
  rfl

/-! ## Registers and identity (R444) -/

theorem cOp_of_ready (d : BitVec 4) (f : Ctx → Kernel → Word) : cOp e n d s f = engWrite e s n k d (f (e.get s n) k) :=
  insn_of_ready hready _

theorem cId_of_defined (d : BitVec 4) {i : BitVec 4} (count : Kernel → Nat) (unit : Nat) (hi : i.toNat < 4) :
    cId e n d i count unit s = engWrite e s n k d (BitVec.ofNat 64
      (if i = 0 then (e.get s n).rank else if i = 1 then count k else if i = 2 then unit else ownCtrl s)) := by
  rw [cId, insn_of_ready hready, if_neg (Nat.not_le.mpr hi)]
  rfl

theorem cId_of_undefined (d : BitVec 4) {i : BitVec 4} (count : Kernel → Nat) (unit : Nat) (hi : 4 ≤ i.toNat) :
    cId e n d i count unit s = e.cycle (e.fault s n e.illegal 0) n k.dom := by
  rw [cId, insn_of_ready hready, if_pos hi]
  rfl

/-! ## Loops (R445) -/

/-- A loop that fits opens; one of no trips is passed over. -/
theorem cLoop_of_fits {len : Nat} (trips : Kernel → Nat) (hfits : LoopFits (e.get s n) len) :
    cLoop e n len trips s = e.cycle (if trips k = 0 then ctxAdvance e s n (e.get s n) ((e.get s n).pc + len)
      else loopOpened e s n len (trips k)) n k.dom := by
  obtain ⟨hdepth, hwithin⟩ := hfits
  have hshallow : ¬ 2 ≤ (e.get s n).loops.length := Nat.not_le.mpr hdepth
  simp only [cLoop, insn_of_ready hready, loopOpened]
  cases hloops : (e.get s n).loops with
  | nil =>
    simp only [List.length_nil, Nat.reduceLeDiff, Bool.false_eq_true, or_self, if_false]
    split <;> rfl
  | cons v rest =>
    have hinside : ¬ v.last < (e.get s n).pc + len := Nat.not_lt.mpr (hwithin v rest hloops)
    rw [hloops] at hshallow
    simp only [hshallow, hinside, decide_false, Bool.false_eq_true, or_self, if_false]
    split <;> rfl

/-! ## Waits (R446) -/

section
variable {ch gv gt : BitVec 4} {far v : Word} {h : Handle} (inj : Nat) (hinj : s.inj = []) (hhandle : engHandle k ch.toNat = some h)
  (hvalue : handleValue s k h far = some v)
include hinj hhandle hvalue

theorem cWait_of_reached (hle : (cGet (e.get s n) gv).toNat ≤ v.toNat) :
    cWait e n ch gv gt far inj s = engDone e s n k (e.get s n) := by
  simp only [cWait, insn_of_ready hready, hhandle, takeInj_of_none_armed hinj, hvalue, hle, if_true]
  rfl

theorem cWait_of_short (hlt : v.toNat < (cGet (e.get s n) gv).toNat) (htimeout : cGet (e.get s n) gt ≠ 0) :
    cWait e n ch gv gt far inj s = e.cycle (regPut (e.put s n
      { e.get s n with wait := some (h.ctr, (cGet (e.get s n) gv).toNat) }) (e.stat n) 2 0 e.wait) n k.dom := by
  simp only [cWait, insn_of_ready hready, hhandle, takeInj_of_none_armed hinj, hvalue, Nat.not_le.mpr hlt, htimeout, if_false]
  rfl

end

/-! ## Signals and the end (R444, R447) -/

theorem cSig_of_written {a : BitVec 4} {t : State} (hline : kOutLine s k true ((cGet (e.get s n) a).toNat % 2 ^ 60)
      (BitVec.ofNat 512 ((e.get s n).rank % 2 ^ 32 + (e.get s n).ran % 2 ^ 32 * 2 ^ 32)) = .ok () t) :
    cSig e n a s = engDone e t n k (e.get s n) := by
  simp only [cSig, insn_of_ready hready, hline]
  rfl

theorem cEnd_of_ready : cEnd e n s = e.cycle (regPut (putKernel (e.put s n (e.get s n))
    { (k.at 41) with done := k.done ++ [e.eng n] }) (e.stat n) 2 0 e.done) n k.dom :=
  insn_of_ready hready _

end

/-! ## Events of an engine that waits (R446) -/

section
variable {e : EngKind} {s : State} {n : Nat} {k : Kernel} {ctr target : Nat} (hrun : running s = true)
  (hlive : liveKernel s (e.get s n).win = some k) (hwait : (e.get s n).wait = some (ctr, target))
include hrun hlive hwait

theorem cWaitEnd_of_reached {far v : Word} (hvalue : handleValue s k ⟨ctr, none⟩ far = some v) (hle : target ≤ v.toNat) :
    cWaitEnd e n far s = ctxAdvance e (regPut s (e.stat n) 2 0 e.run) n { e.get s n with wait := none } (e.get s n).pc := by
  simp only [cWaitEnd, whenRunning_of_running hrun, hlive, hwait, hvalue, hle, if_true]

theorem cWaitFail_of_waiting : cWaitFail e n s = e.fault s n 9 ctr := by
  simp only [cWaitFail, whenRunning_of_running hrun, hlive, hwait]

end

theorem engWatchdog_of_awake {e : EngKind} {s : State} {n : Nat} (hawake : engAwake e s n = true) :
    engWatchdog e n s = e.fault (e.put s n { e.get s n with dog := 0 }) n 16 0 := by
  rw [engWatchdog, if_pos hawake]

end Sys2Proof.Machine
end

section
/-! Chapter 10: the instructions of a gouge program (R444 to R448). -/

namespace Sys2Proof.Machine

section
variable {s : State} {n : Fin 128} {k : Kernel} (hready : EngReady gougeKind s n.val k)
include hready

/-- The instructions that write a register (R444). -/
theorem exec_gValue_of_ready (d a b : BitVec 4) (imm : BitVec 16) (imm12 : BitVec 12) (p : BitVec 8) :
    ∀ e ∈ gValue s n k d a b imm imm12 p, exec e.1 s = .next (engWrite gougeKind s n.val k d e.2) := by
  have hop (f : Ctx → Kernel → Word) : (Host.Outcome.next (cOp gougeKind n.val d s f) : Host.Outcome State Fault Refusal) =
      .next (engWrite gougeKind s n.val k d (f (ctxOf s n.val) k)) :=
    congrArg Host.Outcome.next (cOp_of_ready hready d f)
  have hid {i : BitVec 4} (hi : i.toNat < 4) : exec (.gid n d i) s = .next (engWrite gougeKind s n.val k d (BitVec.ofNat 64
      (if i = 0 then (ctxOf s n.val).rank else if i = 1 then k.ctxs.length else if i = 2 then n.val / 8 else ownCtrl s))) :=
    congrArg Host.Outcome.next (cId_of_defined hready d (fun k => k.ctxs.length) (n.val / 8) hi)
  simp only [gValue, List.forall_mem_cons]
  exact ⟨hop _, hop _, hop _, hop _, hop _, hop _, hid (i := 0) (by decide), hid (i := 1) (by decide), hid (i := 2) (by decide),
    hid (i := 3) (by decide), List.forall_mem_nil _⟩

theorem exec_gloop_of_fits (len1 n1 : BitVec 12) (hfits : LoopFits (ctxOf s n.val) (len1.toNat + 1)) :
    exec (.gloop n len1 n1) s = .next (loopOpened gougeKind s n.val (len1.toNat + 1) (n1.toNat + 1)) := by
  have hloop := cLoop_of_fits hready (fun _ => n1.toNat + 1) hfits
  rw [if_neg (Nat.succ_ne_zero n1.toNat)] at hloop
  exact congrArg Host.Outcome.next hloop

theorem exec_gloopP_of_fits (len1 : BitVec 12) (p : BitVec 8) (hfits : LoopFits (ctxOf s n.val) (len1.toNat + 1)) :
    exec (.gloopP n len1 p) s = .next (if k.param p.toNat % 2 ^ 32 = 0 then
      ctxAdvance gougeKind s n.val (ctxOf s n.val) ((ctxOf s n.val).pc + (len1.toNat + 1))
      else loopOpened gougeKind s n.val (len1.toNat + 1) (k.param p.toNat % 2 ^ 32)) :=
  congrArg Host.Outcome.next (cLoop_of_fits hready (fun k => k.param p.toNat % 2 ^ 32) hfits)

end

/-- Settles O16: each row is its instruction or event of an engine, taken at a gather context. -/
theorem gougeProgramInstructions : Obligations.GougeProgramInstructions := by
  refine ⟨fun s n k hready => ⟨?registers, ?undefined, ?next, ?loop, ?loopParam, ?wait, ?signal, ?done⟩,
    fun s n k hrun hlive => ⟨?reached, ?timeout, ?watchdog⟩⟩
  case registers => exact exec_gValue_of_ready hready
  case undefined =>
    exact fun d i hi => congrArg Host.Outcome.next (cId_of_undefined hready d (fun k => k.ctxs.length) (n.val / 8) hi)
  case next => exact congrArg Host.Outcome.next (insn_of_ready hready fun c _ s => .next c s)
  case loop => exact exec_gloop_of_fits hready
  case loopParam =>
    exact fun len1 p hfits => ⟨fun htrips => by rw [exec_gloopP_of_fits hready len1 p hfits, if_neg htrips],
      fun htrips => by rw [exec_gloopP_of_fits hready len1 p hfits, if_pos htrips]⟩
  case wait =>
    exact fun ch gv gt far h v hinj hhandle hvalue =>
      ⟨fun hle => congrArg Host.Outcome.next (cWait_of_reached hready _ hinj hhandle hvalue hle),
        fun hlt htimeout => congrArg Host.Outcome.next (cWait_of_short hready _ hinj hhandle hvalue hlt htimeout)⟩
  case signal => exact fun ga t hline => congrArg Host.Outcome.next (cSig_of_written hready hline)
  case done => exact congrArg Host.Outcome.next (cEnd_of_ready hready)
  case reached =>
    exact fun ctr target far v hwait hvalue hle =>
      congrArg Host.Outcome.next (cWaitEnd_of_reached (e := gougeKind) hrun hlive hwait hvalue hle)
  case timeout =>
    exact fun ctr target hwait => congrArg Host.Outcome.next (cWaitFail_of_waiting (e := gougeKind) hrun hlive hwait)
  case watchdog =>
    intro hawake
    change Host.Outcome.next (whenRunning s (engWatchdog gougeKind n.val)) = _
    rw [whenRunning_of_running hrun, engWatchdog_of_awake hawake]
    rfl

end Sys2Proof.Machine
end

section
/-! Chapter 10: the batches of a gather context (R429 to R441, R446). -/

namespace Sys2Proof.Machine

/-! ## GRUN (R429, R430, R437) -/

@[simp] theorem gougeKind_get : gougeKind.get = ctxOf := rfl

/-- Context `n`, at `c`, begins batch `b` of kernel `k` in pass A. -/
def batchBegun (t : State) (n : Fin 128) (k : Kernel) (c : Ctx) (b : Batch) : State :=
  regPut (setPos (putCtx (readDone t k.win) n.val { c with batch := some b }) n.val 0) (rGctx n.val 0) 2 0 1

section
variable {s t : State} {n : Fin 128} {k : Kernel} {ga : BitVec 4} {ext : List FarLine} {d bags : Nat} {b : Batch}
  (hready : EngReady gougeKind s n.val k) (hread : kBytes s k ((cGet (ctxOf s n.val) ga).toNat % 2 ^ 60) 64 ext = .ok d t)
  (hbatch : batchOf k.tabs d = some (b, bags))
include hready hread hbatch

theorem exec_grun_of_none (hpool : b.pool = 3) : exec (.grun n ga ext) s =
    .next (batchBegun t n k (ctxOf s n.val) { b with offs := List.range (b.nidx + 1) }) := by
  change Host.Outcome.next (doGrun n ga ext s) = _
  simp only [doGrun, insn_of_ready hready, gougeKind_get, hread, hbatch, if_pos hpool]
  rfl

theorem exec_grun_of_bags {os : List Nat} {u : State} (hpool : b.pool ≠ 3) (hoffs : kVals t k bags 4 (b.nbags + 1) ext = .ok os u)
    (hfirst : os.head? = some 0) (hlast : os.getLast? = some b.nidx) (hrising : rising os = true) : exec (.grun n ga ext) s =
    .next (batchBegun u n k (ctxOf s n.val) { b with offs := os }) := by
  change Host.Outcome.next (doGrun n ga ext s) = _
  simp only [doGrun, insn_of_ready hready, gougeKind_get, hread, hbatch, if_neg hpool, hoffs, hfirst, hlast, hrising, and_self, if_true]
  rfl

end

/-! ## Events of a batch (R437) -/

theorem batchStep_of_ready {s : State} {n : Fin 128} {st : Nat} {b : Batch} {k : Kernel} (hready : BatchReady s n st b k)
    (f : Ctx → Batch → Kernel → State → State) : batchStep n.val st s f = f (ctxOf s n.val) b k s := by
  obtain ⟨hrun, hstate, hstopped, hbatch, hkernel, hinj⟩ := hready
  obtain ⟨k0, hlive, rfl⟩ := Option.map_eq_some_iff.mp hkernel
  rw [gougeKind_get] at hlive
  simp only [batchStep, whenRunning_of_running hrun, hstate, hstopped, hbatch, hlive, ne_eq, not_true_eq_false, Bool.false_eq_true, or_self,
    if_false]
  rfl

theorem BatchReady.no_injection {s : State} {n : Fin 128} {st : Nat} {b : Batch} {k : Kernel} (hready : BatchReady s n st b k) :
    s.inj = [] := by
  obtain ⟨-, -, -, -, -, hinj⟩ := hready
  exact hinj

/-! ## SEGMENT_START (R433, R437, R439) -/

theorem exec_segmentStart_of_room {s t u : State} {n : Fin 128} {k : Kernel} {b : Batch} {ext : List FarLine} {is ok firsts : List Nat}
    {drops : List (Nat × Nat)} (hready : BatchReady s n 1 b k) (hseg : b.seg = none) (hpos : b.pos < b.nidx)
    (hroom : entriesHeld s (n.val / 8) + segMax s k ≤ regFld s 0x38 55 32)
    (hcut : cutSeg s k b (batchTab k b).rows (segMax s k) ext (b.nidx - b.pos) b.pos [] = .ok is t)
    (hvalid : validRows t k (batchTab k b) (is.filter (fun i => decide (i < (batchTab k b).rows))).dedup ext = .ok ok u) (hstart : b.pos = 0)
    (hinj : u.inj = []) (hfirsts : firsts = is.foldl (fun l i => if ok.contains i && !l.contains i then l ++ [i] else l) [])
    (hdrops : drops = ((List.range is.length).zip is).filterMap (fun p =>
      if (batchTab k b).rows ≤ p.2 then some (b.pos + p.1, 1) else if ok.contains p.2 then none else some (b.pos + p.1, 2))) :
    exec (.segmentStart n ext) s = .next (askRows (setPos (putCtx (addCnt (readDone (pmc (pmc (pmc u (160 + n.val / 8) 0 is.length
      (some k.dom)) (160 + n.val / 8) 3 (is.countP (fun i => ok.contains i) - firsts.length) (some k.dom)) (160 + n.val / 8) 4 1 (some k.dom))
      k.win) (rGouge (n.val / 8) 0x18) drops.length) n.val { ctxOf s n.val with batch := some { b with
        seg := some (b.pos + is.length), idx := is, slots := firsts.map (fun i => (i, none)), drops := b.drops ++ drops, issued := 0 } })
      n.val (b.pos + is.length)) (n.val / 8)) := by
  have hbegins : ¬ (b.seg.isSome ∨ b.nidx ≤ b.pos ∨ regFld s 0x38 55 32 < entriesHeld s (n.val / 8) + segMax s k) := by
    simp only [hseg, Option.isSome_none, Bool.false_eq_true, Nat.not_le.mpr hpos, Nat.not_lt.mpr hroom, or_self, not_false_eq_true]
  change Host.Outcome.next (doSegmentStart n ext s) = _
  simp only [doSegmentStart, batchStep_of_ready hready, hbegins, hcut, hvalid, takeInj_of_none_armed hinj, ite_self, if_pos hstart, ← hfirsts,
    ← hdrops, if_false]

/-! ## ROW_LANDED (R423, R437) -/

/-- Row `v`, of `len` bytes from byte `x` of its region, has landed in combining slot `slot`. -/
def rowPlaced (t : State) (n : Fin 128) (k : Kernel) (c : Ctx) (b : Batch) (slot i x len v : Nat) : State :=
  askRows (putCtx (pmc (pmc (readDone t k.win) (160 + n.val / 8) 1 1 (some k.dom)) (160 + n.val / 8) 2 (cdiv (x % 64 + len) 64) (some k.dom))
    n.val { c with batch := some { b with slots := b.slots.set slot (i, some v) } }) (n.val / 8)

section
variable {s : State} {n : Fin 128} {k : Kernel} {b : Batch} {slot : BitVec 16} {far : List (BitVec 512)} {poison : Bool} {i x len e : Nat}
  {p : Piece} (hready : BatchReady s n 1 b k) (hseg : b.seg = some e) (hslot : b.slots[slot.toNat]? = some (i, none))
  (hissued : slot.toNat < b.issued) (hpiece : pieceOf (batchTab k b) i = some p) (hbytes : rowBytes p.fmt (batchTab k b).dim = some len)
  (hx : x = p.offset + (i - p.first) * p.pitch)
include hready hseg hslot hissued hpiece hbytes hx

theorem exec_rowLanded_of_own {v : Nat} {t : State} (hown : p.ctrl = ownCtrl s) (hread : verBytes s k p.region p.version x len = .ok v t) :
    exec (.rowLanded n slot far poison) s = .next (rowPlaced t n k (ctxOf s n.val) b slot.toNat i x len v) := by
  change Host.Outcome.next (doRowLanded n slot far poison s) = _
  simp only [doRowLanded, batchStep_of_ready hready, hseg, hslot, Nat.not_le.mpr hissued, hpiece, hbytes, ← hx, hown,
    takeInj_of_none_armed hready.no_injection, hread, if_true, if_false, rowPlaced]

theorem exec_rowLanded_of_far (hfar : p.ctrl ≠ ownCtrl s) (hclean : poison = false) : exec (.rowLanded n slot far poison) s =
    .next (rowPlaced s n k (ctxOf s n.val) b slot.toNat i x len (linesBytes far x len)) := by
  change Host.Outcome.next (doRowLanded n slot far poison s) = _
  simp only [doRowLanded, batchStep_of_ready hready, hseg, hslot, Nat.not_le.mpr hissued, hpiece, hbytes, ← hx, hfar, hclean,
    takeInj_of_none_armed hready.no_injection, Bool.false_eq_true, if_false, rowPlaced]

end

/-! ## PASS_B_START (R434, R435, R437) -/

theorem exec_passBStart_of_landed {s t u : State} {n : Fin 128} {k : Kernel} {b b' : Batch} {ext : List FarLine} {last terms : Nat}
    {is : List Nat} {ps : List (Nat × Nat)} (hready : BatchReady s n 1 b k) (hseg : b.seg = some last)
    (hlanded : b.slots.any (fun e => e.2.isNone) = false) (hplain : b.weighted = false)
    (hidx : kVals s k (b.idxAddr + b.pos * b.idxBytes) b.idxBytes b.idx.length ext = .ok is u) (hps : ps = is.map (fun i => (i, 0)))
    (hpooled : passB u k (batchTab k b) b ps last (b.nbags + 1) = .ok b' t)
    (hterms : terms = (List.range b.nbags).foldl (fun m i => m + (multOf b ((ps.drop (max b.pos ((b.offs[i]?).getD 0) - b.pos)).take
      (min last ((b.offs[i + 1]?).getD 0) - max b.pos ((b.offs[i]?).getD 0)))).length) 0) :
    exec (.passBStart n ext) s = .next (regPut (setPos (putCtx (pmc (readDone t k.win) (160 + n.val / 8) 5 terms (some k.dom)) n.val
      { ctxOf s n.val with batch := some { b' with pos := last, seg := none, idx := [], slots := [], issued := 0 } }) n.val last)
      (rGctx n.val 0) 2 0 (if last = b.nidx then 2 else 1)) := by
  change Host.Outcome.next (doPassBStart n ext s) = _
  simp only [doPassBStart, batchStep_of_ready hready, hseg, hlanded, takeInj_of_none_armed hready.no_injection, ite_self, hidx, hplain,
    ← hps, hpooled, ← hterms, Bool.false_eq_true, if_false]

/-! ## BATCH_COMPLETE (R441, R446) -/

section
variable {s t : State} {n : Fin 128} {k : Kernel} {b : Batch} (hready : BatchReady s n 2 b k) (haligned : b.dropAddr % 64 = 0)
  (hdrops : (if b.dropAddr = 0 ∨ b.closed = true then .ok () s else kOutLines s k b.counted b.dropAddr (dropLines b)) = Start.ok () t)
include hready haligned hdrops

theorem exec_batchComplete_of_written : exec (.batchComplete n) s = .next (if batchServed t k b = true then
    ctxAdvance gougeKind (pmc (regPut t (rGctx n.val 0) 2 0 6) (160 + n.val / 8) 6 1 (some k.dom)) n.val
      { ctxOf s n.val with batch := none, ran := (ctxOf s n.val).ran + 1 } (ctxOf s n.val).pc
    else putCtx t n.val { ctxOf s n.val with batch := some { b with closed := true } }) := by
  change Host.Outcome.next (doBatchComplete n s) = _
  simp only [doBatchComplete, batchStep_of_ready hready, haligned, ne_eq, not_true_eq_false, if_false, hdrops, Bool.not_eq_true']
  cases batchServed t k b <;> rfl

end

/-- Settles O17, event by event in the order of a batch. -/
theorem gatherBatchRuns : Obligations.GatherBatchRuns := by
  refine ⟨?grun, ?segment, ?row, ?passB, ?complete⟩
  case grun =>
    intro s t n k ga ext d b bags hready hread hbatch
    exact ⟨exec_grun_of_none hready hread hbatch, fun os u hpool hoffs hfirst hlast hrising =>
      exec_grun_of_bags hready hread hbatch hpool hoffs hfirst hlast hrising⟩
  case segment =>
    intro s t u n k b ext is ok hready hseg hpos hroom hcut hvalid hstart hinj
    exact ⟨_, _, rfl, rfl, exec_segmentStart_of_room hready hseg hpos hroom hcut hvalid hstart hinj rfl rfl⟩
  case row =>
    intro s n k b slot far poison i p len e hready hseg hslot hissued hpiece hbytes
    exact ⟨fun v t => exec_rowLanded_of_own hready hseg hslot hissued hpiece hbytes rfl,
      exec_rowLanded_of_far hready hseg hslot hissued hpiece hbytes rfl⟩
  case passB =>
    intro s t u n k b b' ext last is hready hseg hlanded hplain hidx hpooled
    exact ⟨_, rfl, exec_passBStart_of_landed hready hseg hlanded hplain hidx rfl hpooled rfl⟩
  case complete =>
    intro s t n k b hready haligned hdrops
    have hcomplete := exec_batchComplete_of_written hready haligned hdrops
    exact ⟨fun hserved => by rw [hcomplete, if_pos hserved], fun hwaits => by rw [hcomplete, hwaits, if_neg Bool.false_ne_true]⟩

end Sys2Proof.Machine
end

section
/-! Chapter 11: the instructions of a kite program, and the events that end its waits (R480, R481). -/

namespace Sys2Proof.Machine

@[simp] theorem kiteKind_get : kiteKind.get = kiteOf := rfl

section
variable {s : State} {n : Fin 4096} {k : Kernel} (hready : EngReady kiteKind s n.val k)
include hready

/-- The instructions that write a register (R480), and `kid` of an item that the spec defines. -/
theorem exec_kValue_of_ready (d a b : BitVec 4) (imm : BitVec 16) (imm12 : BitVec 12) (p : BitVec 8) :
    ∀ e ∈ kValue s n k d a b imm imm12 p, exec e.1 s = .next (engWrite kiteKind s n.val k d e.2) := by
  have hop (f : Ctx → Kernel → Word) : (Host.Outcome.next (cOp kiteKind n.val d s f) : Host.Outcome State Fault Refusal) =
      .next (engWrite kiteKind s n.val k d (f (kiteOf s n.val) k)) :=
    congrArg Host.Outcome.next (cOp_of_ready hready d f)
  have hid {i : BitVec 4} (hi : i.toNat < 4) : exec (.kid n d i) s = .next (engWrite kiteKind s n.val k d (BitVec.ofNat 64
      (if i = 0 then (kiteOf s n.val).rank else if i = 1 then k.kites.length else if i = 2 then n.val / 128 else ownCtrl s))) :=
    congrArg Host.Outcome.next (cId_of_defined hready d (fun k => k.kites.length) (n.val / 128) hi)
  simp only [kValue, List.forall_mem_cons]
  exact ⟨hop _, hop _, hop _, hop _, hop _, hop _, hid (i := 0) (by decide), hid (i := 1) (by decide), hid (i := 2) (by decide),
    hid (i := 3) (by decide), List.forall_mem_nil _⟩

theorem exec_kid_of_undefined (d : BitVec 4) {i : BitVec 4} (hi : 4 ≤ i.toNat) :
    exec (.kid n d i) s = .next (kiteCycle 3 (kiteFault s n.val 36 0) n.val k.dom) :=
  congrArg Host.Outcome.next (cId_of_undefined hready d (fun k => k.kites.length) (n.val / 128) hi)

theorem exec_knop_of_ready : exec (.knop n) s = .next (engDone kiteKind s n.val k (kiteOf s n.val)) :=
  congrArg Host.Outcome.next (insn_of_ready hready fun c _ s => .next c s)

/-- `kloop` names at least one trip, so a loop that fits opens. -/
theorem exec_kloop_of_fits (len1 n1 : BitVec 12) (hfits : LoopFits (kiteOf s n.val) (len1.toNat + 1)) :
    exec (.kloop n len1 n1) s = .next (kiteCycle 3 (loopOpened kiteKind s n.val (len1.toNat + 1) (n1.toNat + 1)) n.val k.dom) := by
  have hloop := cLoop_of_fits hready (fun _ => n1.toNat + 1) hfits
  rw [if_neg (Nat.succ_ne_zero n1.toNat)] at hloop
  exact congrArg Host.Outcome.next hloop

theorem exec_kloopP_of_fits (len1 : BitVec 12) (p : BitVec 8) (hfits : LoopFits (kiteOf s n.val) (len1.toNat + 1)) :
    exec (.kloopP n len1 p) s = .next (kiteCycle 3 (if k.param p.toNat % 2 ^ 32 = 0 then
      ctxAdvance kiteKind s n.val (kiteOf s n.val) ((kiteOf s n.val).pc + (len1.toNat + 1))
      else loopOpened kiteKind s n.val (len1.toNat + 1) (k.param p.toNat % 2 ^ 32)) n.val k.dom) :=
  congrArg Host.Outcome.next (cLoop_of_fits hready (fun k => k.param p.toNat % 2 ^ 32) hfits)

end

theorem exec_kiteWatchdog_of_awake {s : State} {n : Fin 4096} (hrun : running s = true) (hawake : engAwake kiteKind s n.val = true) :
    exec (.kiteWatchdog n) s = .next (kiteFault (putKite s n.val { kiteOf s n.val with dog := 0 }) n.val 16 0) := by
  change Host.Outcome.next (whenRunning s (engWatchdog kiteKind n.val)) = _
  rw [whenRunning_of_running hrun, engWatchdog_of_awake hawake]
  rfl

/-- Settles O18: each row is its instruction or event of an engine, taken at a kite, whose walker counts a cycle for the instruction. -/
theorem kiteProgramInstructions : Obligations.KiteProgramInstructions := by
  refine ⟨fun s n k hready => ⟨?registers, ?undefined, ?next, ?loop, ?loopParam, ?wait, ?signal, ?done⟩,
    fun s n k hrun hlive => ⟨?reached, ?timeout, ?watchdog⟩⟩
  case registers => exact exec_kValue_of_ready hready
  case undefined => exact fun d i hi => exec_kid_of_undefined hready d hi
  case next => exact exec_knop_of_ready hready
  case loop => exact exec_kloop_of_fits hready
  case loopParam =>
    exact fun len1 p hfits => ⟨fun htrips => by rw [exec_kloopP_of_fits hready len1 p hfits, if_neg htrips],
      fun htrips => by rw [exec_kloopP_of_fits hready len1 p hfits, if_pos htrips]⟩
  case wait =>
    exact fun ch kv kt far h v hinj hhandle hvalue =>
      ⟨fun hle => congrArg Host.Outcome.next (cWait_of_reached hready _ hinj hhandle hvalue hle),
        fun hlt htimeout => congrArg Host.Outcome.next (cWait_of_short hready _ hinj hhandle hvalue hlt htimeout)⟩
  case signal => exact fun ka t hline => congrArg Host.Outcome.next (cSig_of_written hready hline)
  case done => exact congrArg Host.Outcome.next (cEnd_of_ready hready)
  case reached =>
    exact fun ctr target far v hwait hvalue hle =>
      congrArg Host.Outcome.next (cWaitEnd_of_reached (e := kiteKind) hrun hlive hwait hvalue hle)
  case timeout =>
    exact fun ctr target hwait => congrArg Host.Outcome.next (cWaitFail_of_waiting (e := kiteKind) hrun hlive hwait)
  case watchdog => exact exec_kiteWatchdog_of_awake hrun

end Sys2Proof.Machine
end

section
/-! Chapter 11: the queries of a kite (R453, R454, R469 to R476). -/

namespace Sys2Proof.Machine

/-! ## KWALK (R453, R469, R472) -/

/-- `kwalk` runs as an instruction of its kite, but counts a cycle of reads. -/
theorem insn_kwalk_of_ready {s : State} {n : Nat} {k : Kernel} (hready : EngReady kiteKind s n k) (f : Ctx → Kernel → State → CRes) :
    insn kwalkKind n s f = insnEnd kwalkKind n k (f (kiteOf s n) k s) :=
  insn_of_ready (e := kwalkKind) hready f

/-- Kite `n`, at `c`, begins the walk of query `q` of kernel `k`, last in its walker's rotation. -/
def queryBegun (s : State) (n : Fin 4096) (k : Kernel) (c : Ctx) (q : Query) : State :=
  regPut (putKite (readDone { s with kiteNo := s.kiteNo + 1 } k.win) n.val
    { c with query := some q, turn := s.kiteNo + 1, fetch := none }) (rKite n.val 0) 31 8 0

section
variable {s r : State} {n : Fin 4096} {k : Kernel} (ka : BitVec 4) {ext : List FarLine} (hready : EngReady kiteKind s n.val k)
  (hask : r = (if (kiteOf s n.val).fetch.isSome then s else kiteAsk s n.val 1))
include hready hask

theorem exec_kwalk_of_no_room (hroom : kiteReads r n.val = false) :
    exec (.kwalk n ka ext) s = .next (kiteWorkCycle r n.val k.dom) := by
  change Host.Outcome.next (doKwalk n ka ext s) = _
  simp only [doKwalk, insn_kwalk_of_ready hready, ← hask, hroom, Bool.not_false, if_true]
  rfl

section
variable {t u : State} {d va dim : Nat} {q : Query} (hroom : kiteReads r n.val = true)
  (hread : kBytes r k ((cGet (kiteOf s n.val) ka).toNat % 2 ^ 60) 64 ext = .ok d t) (hquery : queryOf k.idxs (visitMax t k) d = some (q, va))
  (hdim : dim = ((k.idxs[q.index]?).map (fun x => x.dim)).getD 0) (hvector : u = kiteAsk t n.val (cdiv (4 * dim) 64))
include hroom hread hquery hdim hvector

theorem exec_kwalk_of_no_vector_room (hwait : kiteReads u n.val = false) :
    exec (.kwalk n ka ext) s = .next (kiteWorkCycle u n.val k.dom) := by
  change Host.Outcome.next (doKwalk n ka ext s) = _
  simp only [doKwalk, insn_kwalk_of_ready hready, ← hask, hroom, hread, hquery, ← hdim, ← hvector, hwait, Bool.not_true,
    Bool.not_false, Bool.false_eq_true, if_true, if_false]
  rfl

theorem exec_kwalk_of_vector {v : Nat} {w : State} (hgo : kiteReads u n.val = true) (hbytes : kBytes u k va (4 * dim) ext = .ok v w) :
    exec (.kwalk n ka ext) s = .next (kiteWorkCycle (queryBegun w n k (kiteOf s n.val)
      { q with vec := (List.range dim).map (fun i => blankBits v (32 * i) 32) }) n.val k.dom) := by
  change Host.Outcome.next (doKwalk n ka ext s) = _
  simp only [doKwalk, insn_kwalk_of_ready hready, ← hask, hroom, hread, hquery, ← hdim, ← hvector, hgo, hbytes, Bool.not_true,
    Bool.false_eq_true, if_false]
  rfl

end

end

/-! ## Events of a query (R473) -/

theorem queryStep_of_ready {s : State} {n : Fin 4096} {q : Query} {x : KIdx} {k : Kernel} (hready : QueryReady s n q x k)
    (f : Ctx → Query → KIdx → Kernel → State → State) : queryStep n.val s f = f (kiteOf s n.val) q x k s := by
  obtain ⟨hrun, hstate, hstopped, hquery, hkernel, hindex, -⟩ := hready
  obtain ⟨k0, hlive, rfl⟩ := Option.map_eq_some_iff.mp hkernel
  have hindex0 : k0.idxs[q.index]? = some x := hindex
  rw [kiteKind_get] at hlive
  simp only [queryStep, whenRunning_of_running hrun, hstate, hstopped, hquery, hlive, hindex0, ne_eq, not_true_eq_false,
    Bool.false_eq_true, or_self, if_false]
  rfl

theorem QueryReady.no_injection {s : State} {n : Fin 4096} {q : Query} {x : KIdx} {k : Kernel} (hready : QueryReady s n q x k) :
    s.inj = [] := by
  obtain ⟨-, -, -, -, -, -, hinj⟩ := hready
  exact hinj

/-! ## KITE_READ_RETURN (R453, R454, R473, R720) -/

section
variable {s : State} {n : Fin 4096} {k : Kernel} {q : Query} {x : KIdx} {ext : List FarLine} (hready : QueryReady s n q x k)
include hready

theorem exec_kiteReadReturn_of_step {t u : State} {q' : Query} {more : Nat} (hopen : q.ended = false) (hflight : kiteReads s n.val = true)
    (hstep : walkStep s k x q ext = .ok q' t) (hmore : more = q'.evaluated + q'.sideLive - (q.evaluated + q.sideLive))
    (hu : u = readDone (if more = 0 then t else addCnt t (rWalker (n.val / 128) 0x18) more) k.win) :
    exec (.kiteReadReturn n ext) s = .next (kiteCycle 5 (kiteWorkCycle (regPut (noteStep (putKite { u with kiteNo := u.kiteNo + 1 } n.val
      { kiteOf s n.val with query := some q', turn := u.kiteNo + 1 }) n.val k (kiteOf s n.val) (nextStep x q)) (rKite n.val 0) 31 8
      (min (2 ^ 24 - 1) (q'.evaluated + q'.sideLive))) n.val k.dom) n.val k.dom) := by
  change Host.Outcome.next (doKiteReadReturn n ext s) = _
  simp only [doKiteReadReturn, queryStep_of_ready hready, hopen, hflight, takeInj_of_none_armed hready.no_injection, ite_self, hstep,
    ← hmore, ← hu, Bool.not_true, Bool.false_eq_true, or_self, if_false]

theorem exec_kiteReadReturn_of_none_in_flight (hidle : kiteReads s n.val = false) : exec (.kiteReadReturn n ext) s = .next s := by
  change Host.Outcome.next (doKiteReadReturn n ext s) = _
  simp only [doKiteReadReturn, queryStep_of_ready hready, hidle, Bool.not_false, or_true, if_true]

end

/-! ## QUERY_COMPLETE (R476) -/

theorem exec_queryComplete_of_written {s t u : State} {n : Fin 4096} {k : Kernel} {q : Query} {x : KIdx} (hready : QueryReady s n q x k)
    (hended : q.ended = true) (hrecord : (if q.closed then .ok () s else kOutLines s k q.counted q.resAddr (resultLines q)) = Start.ok () t)
    (hu : u = (if q.r.length < q.k then incCnt t (rWalker (n.val / 128) 0x20) else t)) :
    exec (.queryComplete n) s = .next (if resultServed t k q = true then
      ctxAdvance kiteKind (kiteCycle 5 (pmc u (128 + n.val / 128) 9 1 (some k.dom)) n.val k.dom) n.val
        { kiteOf s n.val with query := none, ran := (kiteOf s n.val).ran + 1 } (kiteOf s n.val).pc
      else putKite t n.val { kiteOf s n.val with query := some { q with closed := true } }) := by
  change Host.Outcome.next (doQueryComplete n s) = _
  simp only [doQueryComplete, queryStep_of_ready hready, hended, hrecord, ← hu, Bool.not_eq_true']
  cases resultServed t k q <;> rfl

/-- Settles O19, event by event in the order of a query. -/
theorem kiteQueryRuns : Obligations.KiteQueryRuns := by
  refine ⟨?walk, ?returned, ?idle, ?complete⟩
  case walk =>
    intro s r n k ka ext hready hask
    refine ⟨exec_kwalk_of_no_room ka hready hask, fun t u d q va v dim w hroom hread hquery hdim hvector => ⟨?_, ?_⟩⟩
    · exact exec_kwalk_of_no_vector_room ka hready hask hroom hread hquery hdim hvector
    · exact exec_kwalk_of_vector ka hready hask hroom hread hquery hdim hvector
  case returned =>
    intro s t u n k q q' x ext hready hopen hflight hstep hu
    exact exec_kiteReadReturn_of_step hready hopen hflight hstep rfl hu
  case idle => exact fun s n k q x ext hready hidle => exec_kiteReadReturn_of_none_in_flight hready hidle
  case complete =>
    intro s t u n k q x hready hended hrecord hu
    have hcomplete := exec_queryComplete_of_written hready hended hrecord hu
    exact ⟨fun hserved => by rw [hcomplete, if_pos hserved], fun hwaits => by rw [hcomplete, hwaits, if_neg Bool.false_ne_true]⟩

end Sys2Proof.Machine
end

section
/-! Chapters 12 to 16: the injections that name an event with no later trigger (R556, R580, R587, R595, R704). -/

namespace Sys2Proof.Machine

/-- While RUNNING the outcome of a command of a fast domain is the state after its act. -/
theorem next_whenRunning {s : State} (hrun : running s = true) (f : State → State) :
    (Host.Outcome.next (whenRunning s f) : Host.Outcome State Fault Refusal) = .next (f s) :=
  congrArg Host.Outcome.next (whenRunning_of_running hrun f)

section
variable {s : State} (hrun : running s = true)
include hrun

/-! ## A switch port goes down by its kind (R556) -/

theorem exec_swInjPortDown_of_running (p : Fin 42) : exec (.swInjPortDown p) s =
    .next (if p.val < 16 then portDown s p.val else if p.val < 18 then ethDown s (p.val - 16) else portFlush s p.val) :=
  next_whenRunning hrun _

theorem exec_swInjPortDown_of_fabric {p : Fin 42} (hfab : p.val < 16) : exec (.swInjPortDown p) s = .next (portDown s p.val) := by
  rw [exec_swInjPortDown_of_running hrun, if_pos hfab]

theorem exec_swInjPortDown_of_eth {p : Fin 42} (hfab : 16 ≤ p.val) (heth : p.val < 18) :
    exec (.swInjPortDown p) s = .next (ethDown s (p.val - 16)) := by
  rw [exec_swInjPortDown_of_running hrun, if_neg (Nat.not_lt.mpr hfab), if_pos heth]

theorem exec_swInjPortDown_of_agent {p : Fin 42} (hagent : 18 ≤ p.val) : exec (.swInjPortDown p) s = .next (portFlush s p.val) := by
  have hfab : ¬ p.val < 16 := by omega
  rw [exec_swInjPortDown_of_running hrun, if_neg hfab, if_neg (Nat.not_lt.mpr hagent)]

/-! ## The events of a command Ethernet port (R562, R580) -/

/-- KIND 3 of ETH_INJ_e is a codeword that FEC could not correct. -/
theorem exec_ethInjFec_of_running (e : Fin 2) : exec (.ethInjFec e) s = .next (ethFec s e.val) :=
  next_whenRunning hrun fun s => ethInj s e.val 3

/-- KIND 4 of ETH_INJ_e is the loss of the link. -/
theorem exec_ethInjLinkDown_of_running (e : Fin 2) : exec (.ethInjLinkDown e) s = .next (ethDown s e.val) :=
  next_whenRunning hrun fun s => ethInj s e.val 4

end

/-! ## Recovery and power (R587, R696, R704) -/

/-- A nested error needs a recovery that runs for the unit, and a rip panel that is not pulled. -/
theorem exec_recovInjNested_of_recovering {s : State} {u : BitVec 16} (hrip : ripHeld s = false)
    (hrec : recovOf s (u.toNat / 4096) (u.toNat % 4096) ≠ none) :
    exec (.recovInjNested u) s = .next (nestedError s (u.toNat / 4096) (u.toNat % 4096)) := by
  change Host.Outcome.next (doRecovInjNested u s) = _
  simp only [doRecovInjNested, hrip, Option.isNone_eq_false_iff.mpr (Option.isSome_iff_ne_none.mpr hrec), Bool.or_self,
    Bool.false_eq_true, if_false]

theorem exec_pwrInjTrip_of_on {s : State} (hon : 3 ≤ pwrState s) : exec .pwrInjTrip s = .next (thermalTrip s) := by
  change Host.Outcome.next (doPwrInjTrip s) = _
  rw [doPwrInjTrip, if_neg (Nat.not_lt.mpr hon)]

/-- Settles O8, injection by injection: each is the act of its row while the block is RUNNING. -/
theorem immediateInjections : Obligations.ImmediateInjections := by
  refine ⟨fun s hrun => ⟨?retrain, ?down, ?fabric, ?eth, ?agent, ?tracker, ?counter, ?training, ?window, ?unit, ?nested, ?rip, ?sweep,
    ?abort, ?control, ?fec, ?link⟩, fun s hon => exec_pwrInjTrip_of_on hon⟩
  case retrain => exact fun p => next_whenRunning hrun fun s => startRetrain s p.val
  case down => exact fun p => next_whenRunning hrun fun s => portDown s p.val
  case fabric => exact fun p hfab => exec_swInjPortDown_of_fabric hrun hfab
  case eth => exact fun p hfab heth => exec_swInjPortDown_of_eth hrun hfab heth
  case agent => exact fun p hagent => exec_swInjPortDown_of_agent hrun hagent
  case tracker => exact fun k => next_whenRunning hrun fun s => stkCalls s k.val 3 false
  case counter => exact fun k => next_whenRunning hrun fun s => stkCalls s k.val 4 true
  case training => exact fun k => next_whenRunning hrun fun s => stkCalls s k.val 2 true
  case window => exact next_whenRunning hrun fun s => cwAccessErr s (rRecov 0x20) 0
  case unit => exact fun u => next_whenRunning hrun fun s => resetUnit s (u.toNat / 4096) (u.toNat % 4096)
  case nested => exact fun u hrip hrec => exec_recovInjNested_of_recovering hrip hrec
  case rip => exact next_whenRunning hrun fun s => ripPull s 15 0
  case sweep => exact next_whenRunning hrun fun s => forEach (List.range 16) s tetherSweep
  case abort => exact fun d => next_whenRunning hrun fun s => abortSend s d.toNat 17
  case control =>
    exact next_whenRunning hrun fun s => wholeReset (recovEvent s 11 11 { cls := 8, code := 11, action := 10 }) 0
  case fec => exact fun e => exec_ethInjFec_of_running hrun e
  case link => exact fun e => exec_ethInjLinkDown_of_running hrun e

end Sys2Proof.Machine
end

section
/-! Chapter 12: a fabric port trains state by state (R485, R493 to R499, R510, R511). -/

namespace Sys2Proof.Machine

/-- With no lane failed by FAB_INJ_p the good lanes stay as they are. -/
theorem laneFault_of_none_armed {s : State} (hinj : s.inj = []) (p good : Nat) : laneFault s p good = (good, s) := by
  rw [laneFault, takeInj_of_none_armed hinj]

/-! ## The bound far end (R485, R496) -/

/-- What FAB_BIND_p says of the far end: a PEER of this number, a HOST of this number, or an UPLINK to another controller. -/
def farBound (s : State) (p : Nat) (isHost : Bool) (far : BitVec 10) : Bool :=
  match fabKind s p with
  | 1 => !isHost && regFld s (rFab p 0) 61 52 == far.toNat
  | 2 => isHost && regFld s (rFab p 0) 51 46 == far.toNat
  | 3 => !isHost
  | _ => false

section
variable {s : State} {p : Nat} {isHost : Bool} {far : BitVec 10}

theorem farBound_of_bound (hbound : (fabKind s p = 1 ∧ isHost = false ∧ regFld s (rFab p 0) 61 52 = far.toNat) ∨
    (fabKind s p = 2 ∧ isHost = true ∧ regFld s (rFab p 0) 51 46 = far.toNat) ∨ (fabKind s p = 3 ∧ isHost = false)) :
    farBound s p isHost far = true := by
  rcases hbound with ⟨hpeer, hctrl, hfar⟩ | ⟨hhost, hctrl, hfar⟩ | ⟨huplink, hctrl⟩
  · simp [farBound, hpeer, hctrl, hfar]
  · simp [farBound, hhost, hctrl, hfar]
  · simp [farBound, huplink, hctrl]

/-- Only a port bound to a host takes a host as its far end. -/
theorem farBound_of_foreign_host (hkind : fabKind s p ≠ 2) : farBound s p true far = false := by
  unfold farBound
  split
  case h_2 hhost => exact absurd hhost hkind
  all_goals rfl

theorem farBound_of_other (hother : fabKind s p = 0 ∨ (fabKind s p ≠ 2 ∧ isHost = true) ∨
    (fabKind s p = 1 ∧ regFld s (rFab p 0) 61 52 ≠ far.toNat) ∨ (fabKind s p = 2 ∧ isHost = false) ∨
    (fabKind s p = 2 ∧ regFld s (rFab p 0) 51 46 ≠ far.toNat)) : farBound s p isHost far = false := by
  rcases hother with hunbound | ⟨hkind, rfl⟩ | ⟨hpeer, hfar⟩ | ⟨hhost, hctrl⟩ | ⟨hhost, hfar⟩
  · simp [farBound, hunbound]
  · exact farBound_of_foreign_host hkind
  · simp [farBound, hpeer, hfar]
  · simp [farBound, hhost, hctrl]
  · simp [farBound, hhost, hfar]

end

section
variable {s : State} {port : Fin 16} (hrun : running s = true)
include hrun

/-! ## DETECT and EQUALIZE (R493) -/

theorem exec_portDetect_of_detect (hstate : fabState s port.val = 1) : exec (.portDetect port) s = .next (setFabState s port.val 2) := by
  change Host.Outcome.next (doPortDetect port s) = _
  rw [doPortDetect, whenRunning_of_running hrun, if_pos hstate]

section
variable (hstate : fabState s port.val = 2)
include hstate

theorem exec_equalizeDone_of_converged {conv : BitVec 4} (hconv : conv ≠ 0) : exec (.equalizeDone port conv) s =
    .next (setFabState (putLink s port.val { linkOf s port.val with conv := conv.toNat }) port.val 3) := by
  have hlanes : conv.toNat ≠ 0 := fun h => hconv (BitVec.eq_of_toNat_eq h)
  change Host.Outcome.next (doEqualizeDone port conv s) = _
  simp only [doEqualizeDone, whenRunning_of_running hrun, hstate, hlanes, ne_eq, not_true_eq_false, if_false]

theorem exec_equalizeDone_of_none : exec (.equalizeDone port 0) s = .next (trainFail s port.val) := by
  change Host.Outcome.next (doEqualizeDone port 0 s) = _
  simp only [doEqualizeDone, whenRunning_of_running hrun, hstate, BitVec.ofNat_eq_ofNat, BitVec.toNat_zero, ne_eq, not_true_eq_false,
    if_false, if_true]

end

/-! ## ALIGN (R494, R495) -/

section
variable (hinj : s.inj = []) (hstate : fabState s port.val = 3)
include hinj hstate

/-- Four lanes that all converged and arrive straight are good at both ends. -/
theorem exec_alignDone_of_straight (hconv : (linkOf s port.val).conv = 15) : exec (.alignDone port [0, 1, 2, 3] 15) s =
    .next (setFabState (setLanes (regPut (send s (.train port.val [15])) (rFab port.val 8) 7 7 0) port.val 15) port.val 4) := by
  change Host.Outcome.next (doAlignDone port [0, 1, 2, 3] 15 s) = _
  simp only [doAlignDone, whenRunning_of_running hrun, hstate, hconv, laneFault_of_none_armed hinj, ne_eq, not_true_eq_false, if_false]
  rfl

/-- A far end without a good lane has none in common. -/
theorem exec_alignDone_of_none (order : List (Fin 4)) : ∃ own r, exec (.alignDone port order 0) s =
    .next (trainFail (regPut (send s (.train port.val [own])) (rFab port.val 8) 7 7 r) port.val) := by
  change ∃ own r, Host.Outcome.next (doAlignDone port order 0 s) = _
  simp only [doAlignDone, whenRunning_of_running hrun, hstate, laneFault_of_none_armed hinj, BitVec.ofNat_eq_ofNat, BitVec.toNat_zero,
    Nat.and_zero, ne_eq, not_true_eq_false, if_false, if_true]
  exact ⟨_, _, rfl⟩

end

/-! ## CONFIG (R496, R497) -/

section
variable {isHost : Bool} {far : BitVec 10} {credits : List (BitVec 6 × BitVec 12)} {t u : State} (hstate : fabState s port.val = 4)
  (hself : regFld s rAddrSelf 9 4 ≠ 63)
  (ht : t = send s (.train port.val (ownCtrl s :: (recvSlots s port.val).flatMap (fun e => [e.1, e.2]))))
  (hu : u = regPut (regPut t (rFab port.val 8) 37 28 far.toNat) (rFab port.val 8) 27 27 (if isHost then 1 else 0))

include hstate hself ht hu

/-- The link of a port that goes ACTIVE: the credits of the far end, the own receive buffer, and the lanes that converged. -/
theorem exec_configDone : exec (.configDone port isHost far credits) s = .next (if farBound u port.val isHost far = true then
    setFabState (putLink u port.val { ({} : Link) with
      crd := credits.map (fun c => (c.1.toNat, c.2.toNat)), crd0 := credits.map (fun c => (c.1.toNat, c.2.toNat)),
      share := credits.map (fun c => (c.1.toNat, c.2.toNat)),
      grant := recvSlots u port.val, conv := (linkOf u port.val).conv }) port.val 5
    else fabEvent u port.val 7 none) := by
  change Host.Outcome.next (doConfigDone port isHost far credits s) = _
  simp only [doConfigDone, whenRunning_of_running hrun, hstate, hself, ← ht, ← hu, ne_eq, not_true_eq_false, or_self, if_false]
  rfl

end

/-! ## RETRAIN and DOWN (R493, R499, R510, R511) -/

section
variable (hstate : fabState s port.val = 6)
include hstate

theorem exec_retrainDone_of_all_lanes (hinj : s.inj = []) : exec (.retrainDone port ⟨15, 15⟩) s =
    .next (resend (setFabState (setLanes (send s (.train port.val [15])) port.val 15) port.val 5) port.val) := by
  change Host.Outcome.next (doRetrainDone port 15 15 s) = _
  simp only [doRetrainDone, whenRunning_of_running hrun, hstate, laneFault_of_none_armed hinj, ne_eq, not_true_eq_false, if_false]
  rfl

theorem exec_retrainDone_of_none (hinj : s.inj = []) (far : BitVec 4) : exec (.retrainDone port ⟨0, far⟩) s =
    .next (portDown (send s (.train port.val [0])) port.val) := by
  change Host.Outcome.next (doRetrainDone port 0 far s) = _
  simp only [doRetrainDone, whenRunning_of_running hrun, hstate, laneFault_of_none_armed hinj, BitVec.ofNat_eq_ofNat,
    BitVec.toNat_zero, Nat.zero_and, ne_eq, not_true_eq_false, if_false, if_true]

theorem exec_retrainTimeout_of_retrain : exec (.retrainTimeout port) s = .next (portDown s port.val) := by
  change Host.Outcome.next (doRetrainTimeout port s) = _
  rw [doRetrainTimeout, whenRunning_of_running hrun, if_pos hstate]

end

/-- A bound port that is out of service stays DOWN (R598). -/
theorem exec_trainRetryTimer_of_down (hstate : fabState s port.val = 7) (hbound : fabKind s port.val ≠ 0) :
    exec (.trainRetryTimer port) s = .next (if portServes s port.val then setFabState s port.val 1 else s) := by
  change Host.Outcome.next (doTrainRetryTimer port s) = _
  simp only [doTrainRetryTimer, whenRunning_of_running hrun, hstate, hbound, ne_eq, not_false_eq_true, true_and]

end

/-- Settles O39, state by state in the order of a training. -/
theorem portsTrainStateByState : Obligations.PortsTrainStateByState := by
  intro s port hrun hinj
  refine ⟨?detect, ?equalize, ?align, ?config, ?retrain, ?down⟩
  case detect => exact exec_portDetect_of_detect hrun
  case equalize =>
    exact fun hstate => ⟨fun conv hconv => exec_equalizeDone_of_converged hrun hstate hconv, exec_equalizeDone_of_none hrun hstate⟩
  case align =>
    exact fun hstate => ⟨exec_alignDone_of_straight hrun hinj hstate, exec_alignDone_of_none hrun hinj hstate⟩
  case config =>
    intro hstate hself isHost far credits t u ht hu
    have hconfig := exec_configDone hrun (credits := credits) hstate hself ht hu
    exact ⟨fun hbound => by rw [hconfig, if_pos (farBound_of_bound hbound)],
      fun hother => by rw [hconfig, farBound_of_other hother, if_neg Bool.false_ne_true]⟩
  case retrain =>
    exact fun hstate => ⟨exec_retrainDone_of_all_lanes hrun hstate hinj, exec_retrainDone_of_none hrun hstate hinj,
      exec_retrainTimeout_of_retrain hrun hstate⟩
  case down => exact exec_trainRetryTimer_of_down hrun

end Sys2Proof.Machine
end

section
/-! Chapter 12: an ACTIVE port takes flits in order (R501 to R509, R513, R516), and its timers send and resend. -/

namespace Sys2Proof.Machine

/-- A flit with a wrong CRC is not taken: it is counted, recorded, and asked for again (R501, R507). -/
theorem rxFlit_of_bad_crc {s : State} (hinj : s.inj = []) (p : Nat) (h : FlitHdr) (beyond : Bool) : rxFlit s p h false beyond =
    (false, askAgain (fabEvent (pmc s (186 + p) 1 1 none) p 1 (some 0x20)) p) := by
  have hnone : (pmc s (186 + p) 1 1 none).inj = [] := (pmc_inj s _ _ _ _).trans hinj
  simp only [rxFlit, takeInj_of_none_armed hnone, Bool.not_false, Bool.or_true, Bool.true_or, if_true]

section
variable {s : State} {port : Fin 16} (hrun : running s = true) (hactive : fabState s port.val = 5)
include hrun hactive

/-! ## PAYLOAD flits (R507, R513, R535) -/

/-- A flit that is not taken gives no message, whatever its type. -/
theorem exec_flitPayload_of_refused {hdr : BitVec 64} {slots : List (BitVec 128)} {ok : Bool} {ms : List (List Nat)} {t : State}
    (hms : ms = messages (rxSlots s port.val) 15 ((slots.map BitVec.toNat).take (flitHdr hdr).used))
    (hrx : rxFlit s port.val (flitHdr hdr) ok ((flitHdr hdr).type == 1 && overCredit s port.val ms) = (false, t)) :
    exec (.flitPayload port hdr slots ok) s = .next t := by
  change Host.Outcome.next (doFlitPayload port hdr slots ok s) = _
  simp only [doFlitPayload, whenRunning_of_running hrun, hactive, ← hms, hrx, ne_eq, not_true_eq_false, Bool.not_false, Bool.true_or,
    if_false, if_true]

section
variable {hdr : BitVec 64} {slots : List (BitVec 128)} {ms : List (List Nat)} {t : State} (htype : (flitHdr hdr).type = 1)
  (hms : ms = messages (rxSlots s port.val) 15 ((slots.map BitVec.toNat).take (flitHdr hdr).used))
include htype hms

theorem exec_flitPayload_of_taken (hrx : rxFlit s port.val (flitHdr hdr) true (overCredit s port.val ms) = (true, t)) :
    exec (.flitPayload port hdr slots true) s = .next (drainPort 64 (forEach ms t
      (fun s m => if fabState s port.val = 5 ∨ fabState s port.val = 6 then takeMessage s port.val m else s)) port.val) := by
  change Host.Outcome.next (doFlitPayload port hdr slots true s) = _
  simp only [doFlitPayload, whenRunning_of_running hrun, hactive, htype, ← hms, hrx, ne_eq, not_true_eq_false, Bool.not_true,
    beq_self_eq_true, bne_self_eq_false, Bool.true_and, Bool.or_self, Bool.false_eq_true, if_false]

theorem exec_flitPayload_of_not_taken (hrx : rxFlit s port.val (flitHdr hdr) true (overCredit s port.val ms) = (false, t)) :
    exec (.flitPayload port hdr slots true) s = .next t := by
  refine exec_flitPayload_of_refused hrun hactive hms ?_
  rw [htype, beq_self_eq_true, Bool.true_and, hrx]

end

theorem exec_flitPayload_of_bad_crc (hinj : s.inj = []) (hdr : BitVec 64) (slots : List (BitVec 128)) :
    exec (.flitPayload port hdr slots false) s =
      .next (askAgain (fabEvent (pmc s (186 + port.val) 1 1 none) port.val 1 (some 0x20)) port.val) :=
  exec_flitPayload_of_refused hrun hactive rfl (rxFlit_of_bad_crc hinj _ _ _)

/-! ## IDLE and CONTROL flits (R502, R515, R516, R626) -/

theorem exec_flitIdle_of_active (hdr : BitVec 64) (ok : Bool) :
    exec (.flitIdle port hdr ok) s = .next (rxFlit s port.val (flitHdr hdr) ok false).2 := by
  change Host.Outcome.next (doFlitIdle port hdr ok s) = _
  rw [doFlitIdle, whenRunning_of_running hrun, if_pos hactive]

theorem exec_abortFlit_of_peer {hdr : BitVec 64} {slot : BitVec 128} {t : State}
    (hrx : rxFlit s port.val (flitHdr hdr) true false = (true, t)) (htype : (flitHdr hdr).type = 2) (hpeer : fabKind t port.val = 1)
    (habort : bits slot.toNat 7 0 = 1) : exec (.abortFlit port hdr slot true) s =
      .next (abortComp t (bits slot.toNat 31 16) (bits slot.toNat 47 32 % 1024)) := by
  change Host.Outcome.next (doAbortFlit port hdr slot true s) = _
  simp only [doAbortFlit, whenRunning_of_running hrun, hactive, hrx, htype, hpeer, habort, ne_eq, not_true_eq_false, beq_self_eq_true,
    Bool.and_self, if_false, if_true]

/-! ## Timers (R509) -/

theorem exec_ackTimer_of_owed (howed : 0 < (linkOf s port.val).got) :
    exec (.ackTimer port) s = .next (emitIdle s port.val false noCrd) := by
  change Host.Outcome.next (doAckTimer port s) = _
  rw [doAckTimer, whenRunning_of_running hrun, if_pos ⟨hactive, howed⟩]

theorem exec_resendTimeout_of_active : exec (.resendTimeout port) s = .next (resend s port.val) := by
  change Host.Outcome.next (doResendTimeout port s) = _
  rw [doResendTimeout, whenRunning_of_running hrun, if_pos hactive]

end

/-- Settles O40, flit by flit and then timer by timer. -/
theorem flitsAreTakenInOrder : Obligations.FlitsAreTakenInOrder := by
  intro s port hrun hactive
  refine ⟨?taken, ?refused, ?crc, ?idle, ?abort, ?ack, ?resend⟩
  case taken => exact fun hdr slots ms t htype hms hrx => exec_flitPayload_of_taken hrun hactive htype hms hrx
  case refused => exact fun hdr slots ms t htype hms hrx => exec_flitPayload_of_not_taken hrun hactive htype hms hrx
  case crc => exact fun hdr slots hinj => exec_flitPayload_of_bad_crc hrun hactive hinj hdr slots
  case idle => exact exec_flitIdle_of_active hrun hactive
  case abort => exact fun hdr slot t hrx htype hpeer habort => exec_abortFlit_of_peer hrun hactive hrx htype hpeer habort
  case ack => exact exec_ackTimer_of_owed hrun hactive
  case resend => exact exec_resendTimeout_of_active hrun hactive

end Sys2Proof.Machine
end

section
/-! Chapter 12: the switch core: cells, cycles, epochs, mirroring, answers to the controller's agents, and Err FLUSHED (R505, R518, R519,
R535 to R552). -/

namespace Sys2Proof.Machine

/-- A change that leaves a state as it is does so for a whole list. -/
theorem forEach_of_fixed {α : Type} {f : State → α → State} {s : State} (hfix : ∀ a, f s a = s) (l : List α) : forEach l s f = s :=
  List.foldl_fixed' hfix l

/-! ## Partly filled cells (R535, R545) -/

/-- Without mirroring no cell is counted or copied. -/
theorem mirrorCross_of_off {s : State} (hoff : regBit s (rSw 0x20) 63 = false) (c : Cell) (p o : Nat) (leaving : Bool) :
    mirrorCross s c p o leaving = s := by
  simp only [mirrorCross, hoff, Bool.not_false, Bool.or_true, Bool.true_or, if_true]

theorem cellSent_of_off {s : State} (hoff : regBit s (rSw 0x20) 63 = false) (c : Cell) : cellSent s c = s := by
  rw [cellSent, mirrorCross_of_off hoff, ite_self]

/-- Every cell of input `inp` is ready. -/
def inputReady (s : State) (inp : Nat) : State :=
  { s with cells := s.cells.map (fun c => if c.inp = inp then { c with ready := true } else c) }

section
variable {s : State} (hrun : running s = true) (inp : Fin 42)
include hrun

theorem exec_cellPackTimeout_of_running : exec (.cellPackTimeout inp) s =
    .next (forEach (s.cells.filter (fun c => c.inp == inp.val && !c.mirror && !c.ready)) (inputReady s inp.val)
      (fun s c => cellSent s { c with ready := true })) :=
  next_whenRunning hrun _

theorem exec_cellPackTimeout_of_mirror_off (hoff : regBit s (rSw 0x20) 63 = false) :
    exec (.cellPackTimeout inp) s = .next (inputReady s inp.val) := by
  have hready : regBit (inputReady s inp.val) (rSw 0x20) 63 = false := hoff
  rw [exec_cellPackTimeout_of_running hrun,
    forEach_of_fixed (f := fun s (c : Cell) => cellSent s { c with ready := true }) fun _ => cellSent_of_off hready _]

end

/-! ## One request of the scheduler (R538, R539, R548) -/

/-- A rotation over the sixteen classes comes to the only one that asks. -/
theorem nextClass_singleton (turn : Nat) {k : Nat} (hk : k < 16) : nextClass turn [k] = k := by
  have hmem : k ∈ (List.range 16).map (fun i => (turn + i) % 16) :=
    List.mem_map.mpr ⟨(k + 16 - turn % 16) % 16, List.mem_range.mpr (Nat.mod_lt _ (by decide)), by omega⟩
  rw [nextClass]
  cases hfound : ((List.range 16).map (fun i => (turn + i) % 16)).find? (fun x => [k].contains x) with
  | none => exact absurd (List.find?_eq_none.mp hfound k hmem) (by simp)
  | some x => simpa using List.find?_some hfound

/-- The only pair that asks is matched. -/
theorem matchOnce_singleton (s : State) (i o : Nat) {k : Nat} (hk : k < 16) : matchOnce s [(i, o, k)] [] = [(i, o, k)] := by
  simp [matchOnce, nextClass_singleton _ hk, nearest]

/-- Nothing is matched where nothing asks. -/
theorem matchOnce_nil (s : State) (done : List (Nat × Nat × Nat)) : matchOnce s [] done = [] := rfl

/-- A pair that is matched asks no more. -/
theorem matchOnce_of_matched (s : State) (e : Nat × Nat × Nat) : matchOnce s [e] [e] = [] := by
  simp [matchOnce]

/-- The only cell of a matched pair is picked, of whatever class it is. -/
theorem pickCell_singleton {c : Cell} (hcls : c.cls < 4) : pickCell [c] = some c := by
  by_cases hturn : (decide (16 ≤ c.age) && (c.cls == 0 || c.cls == 1)) = true
  · rw [pickCell, List.find?_singleton, if_pos hturn]
  · have hclass : c.cls = 0 ∨ c.cls = 1 ∨ c.cls = 2 ∨ c.cls = 3 := by omega
    rw [pickCell, List.find?_singleton, if_neg hturn]
    rcases hclass with hreq | hsnp | hrsp | hdat
    · simp [hreq]
    · simp [hsnp]
    · simp [hrsp]
    · simp [hdat]

/-- With no message of an own agent the switch core takes none. -/
theorem drainAgents_of_none {s : State} (hnone : s.agentq = []) : drainAgents s = s := by
  rw [drainAgents, hnone, drainQueue, ← hnone]

/-! ## Switch cycles (R538) -/

/-- The last steps of a cycle: cells that were ready at the head of a queue grow older, credits go back, receive buffers drain, and reel
reads that wait are served. -/
def cycleEnd (s : State) : State :=
  serveReelWaits (forEach (List.range 16) (freeCredits { s with cells := s.cells.map (fun c =>
    if c.ready && !c.mirror && c.outs.any (fun t => queueHead s t.1 c) then { c with age := c.age + 1 } else c) })
    (fun s p => drainPort 64 s p))

section
variable {s u : State} (hrun : running s = true) (hcycle : s.swCycles < 65536) (hagents : s.agentq = []) (hon : regBit s (rSw 8) 0 = true)
  (hu : u = { s with swCycles := s.swCycles + 1 })
include hrun hcycle hagents hon hu

theorem exec_switchCycle_of_no_cell (hcells : s.cells = []) : exec .switchCycle s =
    .next (serveReelWaits (forEach (List.range 16) (freeCredits u) (fun s p => drainPort 64 s p))) := by
  have hagents' : u.agentq = [] := by rw [hu, hagents]
  have hcells' : u.cells = [] := by rw [hu, hcells]
  have hend : { u with cells := [] } = u := by rw [← hcells']
  change Host.Outcome.next (doSwitchCycle s) = _
  simp only [doSwitchCycle, whenRunning_of_running hrun, hon, Nat.not_le.mpr hcycle, ← hu, drainAgents_of_none hagents', hcells',
    List.flatMap_nil, List.dedup_nil, matchOnce_nil, forEach, List.foldl_nil, List.append_nil, List.filterMap_nil, List.map_nil, hend,
    decide_false, Bool.not_true, Bool.or_self, Bool.false_eq_true, if_false]

theorem exec_switchCycle_of_one_cell {c : Cell} {o t : Nat} (hcells : s.cells = [c]) (houts : c.outs = [(o, t)]) (hcls : c.cls < 4)
    (hrc : c.rc < 16) (hsend : canSend s o c = true) : exec .switchCycle s = .next (cycleEnd (deliver
      { u with swOut := Sparse.ins s.swOut o ((c.from + 1) % 42), swIn := Sparse.ins s.swIn c.from ((o + 1) % 42) } o c)) := by
  have hagents' : u.agentq = [] := by rw [hu, hagents]
  have hcells' : u.cells = [c] := by rw [hu, hcells]
  have hsend' : canSend u o c = true := by rw [hu]; exact hsend
  have hclass : (if rcMode u = true then c.rc else 0) < 16 := by split <;> omega
  change Host.Outcome.next (doSwitchCycle s) = _
  simp only [doSwitchCycle, whenRunning_of_running hrun, hon, Nat.not_le.mpr hcycle, ← hu, drainAgents_of_none hagents', hcells',
    List.flatMap_cons, List.flatMap_nil, houts, List.filter_cons, List.filter_nil, hsend', List.map_cons, List.map_nil,
    List.append_nil, List.dedup_cons_of_notMem List.not_mem_nil, List.dedup_nil, matchOnce_singleton u _ _ hclass, matchOnce_of_matched,
    List.filterMap_cons, List.filterMap_nil, pickCell_singleton hcls,
    forEach, List.foldl_cons, List.foldl_nil, beq_self_eq_true, Bool.and_self, Option.map_some,
    decide_false, Bool.not_true, Bool.or_self, Bool.false_eq_true, if_false, if_true]
  rw [hu]
  rfl

end

/-! ## Epochs (R547, R550 to R552) -/

/-- The epoch's budgets and classes are those of the registers, and its spending and its cycles start anew (R552). -/
def epochTaken (s : State) : State :=
  regAdd { s with
    swLive := s.regs.filter (fun e => e.1 == rSw 0 || (decide (0x2110000 ≤ e.1) && decide (e.1 < 0x2130000))),
    swSpent := [], swCycles := 0 } (rSw 8) 27 12 1

/-- The fabric ports that are ACTIVE below full width. -/
def narrowPorts (s : State) : List Nat :=
  (List.range 16).filter (fun p => fabState s p == 5 && decide (regFld s (rFab p 8) 6 4 < 4))

/-- Outside reserved-credit mode every receive buffer is split alike (R512). -/
theorem recvSlots_of_mode_off {s t : State} (hs : rcMode s = false) (ht : rcMode t = false) (p : Nat) : recvSlots s p = recvSlots t p := by
  simp only [recvSlots, hs, ht, Bool.false_eq_true, if_false]

theorem resplit_of_same_split {s t : State} {p : Nat} (hsame : recvSlots s p = recvSlots t p) : resplit s t p = t :=
  if_pos (.inr hsame)

section
variable {s : State} (hrun : running s = true)
include hrun

theorem exec_epochBoundary_of_early (hearly : s.swCycles < 65536) : exec .epochBoundary s = .next s := by
  change Host.Outcome.next (doEpochBoundary s) = _
  rw [doEpochBoundary, whenRunning_of_running hrun, if_pos hearly]

theorem exec_epochBoundary_of_end (hend : 65536 ≤ s.swCycles) : exec .epochBoundary s = .next (forEach (List.range 16)
    (forEach (if rcMode (epochTaken s) && !rcMode s then narrowPorts (epochTaken s) else []) (epochTaken s) (fun t p => swEvent t 4 0 p))
    (fun t p => resplit s t p)) := by
  change Host.Outcome.next (doEpochBoundary s) = _
  rw [doEpochBoundary, whenRunning_of_running hrun, if_neg (Nat.not_lt.mpr hend)]
  rfl

/-- Reserved-credit mode starts: each narrow port is an event (R551). -/
theorem exec_epochBoundary_of_start (hend : 65536 ≤ s.swCycles) (hold : rcMode s = false) (hnew : rcMode (epochTaken s) = true) :
    exec .epochBoundary s = .next (forEach (List.range 16)
      (forEach (narrowPorts (epochTaken s)) (epochTaken s) (fun t p => swEvent t 4 0 p)) (fun t p => resplit s t p)) := by
  rw [exec_epochBoundary_of_end hrun hend, hold, hnew, Bool.not_false, Bool.and_self, if_pos rfl]

theorem exec_epochBoundary_of_no_start (hend : 65536 ≤ s.swCycles) (hmode : rcMode s = true ∨ rcMode (epochTaken s) = false) :
    exec .epochBoundary s = .next (forEach (List.range 16) (epochTaken s) (fun t p => resplit s t p)) := by
  have hstart : (rcMode (epochTaken s) && !rcMode s) = false := by
    rcases hmode with hmode | hmode <;> simp only [hmode, Bool.not_true, Bool.and_false, Bool.false_and]
  rw [exec_epochBoundary_of_end hrun hend, hstart, if_neg Bool.false_ne_true]
  rfl

/-- Outside reserved-credit mode no port splits its channels anew. -/
theorem exec_epochBoundary_of_mode_off (hend : 65536 ≤ s.swCycles) (hold : rcMode s = false) (hnew : rcMode (epochTaken s) = false) :
    exec .epochBoundary s = .next (epochTaken s) := by
  rw [exec_epochBoundary_of_no_start hrun hend (.inr hnew),
    forEach_of_fixed fun p => resplit_of_same_split (recvSlots_of_mode_off hold hnew p)]

end

/-! ## SW_MIRROR (R545) -/

section
variable {s : State} {v : BitVec 64}

theorem mirrorWrite_of_rise (hset : v.toNat.testBit 63 = true) (hclear : regBit s (rSw 0x20) 63 = false) :
    mirrorWrite s v = { (regSet s (rSw 0x20) (BitVec.ofNat 64 (v.toNat &&& 0xFF0000FFFF000000))) with mirCnt := 0 } := by
  simp only [mirrorWrite, hset, hclear, Bool.not_false, Bool.and_self, if_true]

theorem mirrorWrite_of_no_rise (hkept : v.toNat.testBit 63 = false ∨ regBit s (rSw 0x20) 63 = true) :
    mirrorWrite s v = regSet s (rSw 0x20) (BitVec.ofNat 64 (v.toNat &&& 0xFF0000FFFF000000)) := by
  have hrise : (v.toNat.testBit 63 && !regBit s (rSw 0x20) 63) = false := by
    rcases hkept with hkept | hkept <;> simp only [hkept, Bool.not_true, Bool.and_false, Bool.false_and]
  simp only [mirrorWrite, hrise, Bool.false_eq_true, if_false]

theorem exec_swMirrorWrite_of_running (hrun : running s = true) : exec (.swMirrorWrite v) s = .next (mirrorWrite s v) :=
  next_whenRunning hrun fun s => mirrorWrite s v

end

/-! ## Answers to requests of the own agents (R505) -/

/-- A Defer or a Fetch leaves its request open. -/
theorem reqAnswered_of_waiting (s : State) (r : FabReq) {op : Nat} (hop : op = 0x24 ∨ op = 0x25) : reqAnswered s r op = s := if_pos hop

/-- Any other response ends it, a line of a reel when it is the last. -/
theorem reqAnswered_of_last (s : State) {r : FabReq} {op : Nat} (hdefer : op ≠ 0x24) (hfetch : op ≠ 0x25)
    (hlast : op ≠ 0x31 ∨ r.left ≤ 1) : reqAnswered s r op = { s with fabReqs := s.fabReqs.erase r } := by
  have hmore : ¬ (op = 0x31 ∧ 1 < r.left) := by omega
  rw [reqAnswered, if_neg (not_or.mpr ⟨hdefer, hfetch⟩), if_neg hmore]

theorem exec_grantResponse_of_request {s : State} {port : Fin 16} {txn : BitVec 12} {opcode : BitVec 6} {data : LineData} {r : FabReq}
    {a : Nat} (hrun : running s = true) (hfind : s.fabReqs.find? (fun r => r.port == port.val && r.txn == txn.toNat) = some r)
    (ha : a = (if hOpcode r.hdr = 4 ∧ hGw r.hdr = true then r.addr + 64 * (1024 - r.left) else r.addr)) :
    exec (.grantResponse port txn opcode data) s =
      .next (agentAnswer (send (reqAnswered s r opcode.toNat) (.fab r.agent [2, opcode.toNat, r.own, a, data.toNat])) r.agent
        (respHdr s opcode.toNat r.own (ownCtrl s) a (if opcode.toNat = 0x27 then data.toNat % 16 else 0) false false) data) := by
  change Host.Outcome.next (doGrantResponse port txn opcode data s) = _
  simp only [doGrantResponse, whenRunning_of_running hrun, hfind, ← ha]

section
variable {s : State} {p h : Nat} {d : LineData} {r : AgentReq}
  (hfind : s.agentReqs.find? (fun r => r.port == p && r.txn == hTxn h && r.addr == hAddr h / 64) = some r)
include hfind

theorem agentAnswer_of_defer (hop : hOpcode h = 0x24) : agentAnswer s p h d = s := by
  simp only [agentAnswer, hfind, hop, if_true]

section
variable (hdefer : hOpcode h ≠ 0x24) (hfetch : hOpcode h ≠ 0x25)
include hdefer hfetch

theorem agentAnswer_of_kread {w : Nat} {e : Option Engine} (hwho : r.who = .kread w e) : agentAnswer s p h d =
    if hOpcode h = 0x27 then kernelFail { s with agentReqs := s.agentReqs.erase r } w e (errFault (hErr h)) (hAddr h)
    else { s with
      agentReqs := s.agentReqs.erase r
      farGot := s.farGot.filter (fun e => !(e.1 == w && e.2.1 == r.addr)) ++ [(w, r.addr, d, hPoison h)] } := by
  simp only [agentAnswer, hfind, hdefer, hfetch, hwho, decide_eq_true_eq, if_false]

theorem agentAnswer_of_kwrite {w : Nat} {e : Option Engine} (hwho : r.who = .kwrite w e) : agentAnswer s p h d =
    if hOpcode h = 0x27 then kernelFail { s with agentReqs := s.agentReqs.erase r } w e (errFault (hErr h)) (hAddr h)
    else { s with agentReqs := s.agentReqs.erase r } := by
  simp only [agentAnswer, hfind, hdefer, hfetch, hwho, decide_eq_true_eq, if_false]

theorem agentAnswer_of_cpl {dom : Nat} (hwho : r.who = .cpl dom) : agentAnswer s p h d =
    if hOpcode h = 0x27 then ldrEvent { s with agentReqs := s.agentReqs.erase r } 5 0 dom (hAddr h)
    else { s with agentReqs := s.agentReqs.erase r } := by
  simp only [agentAnswer, hfind, hdefer, hfetch, hwho, decide_eq_true_eq, if_false]

end

end

/-! ## Err FLUSHED (R519, R520) -/

section
variable {s : State} (hrun : running s = true) (addr : BitVec 60)
include hrun

theorem exec_errFlushedReceived_of_lathe {l : Fin 128} (hbusy : latheBusy s l.val = true) :
    exec (.errFlushedReceived (.engine (.lathe l)) addr) s = .next (latheFault s l.val 17 0 addr.toNat) := by
  change Host.Outcome.next (doErrFlushedReceived (.engine (.lathe l)) addr s) = _
  rw [doErrFlushedReceived, whenRunning_of_running hrun]
  exact congrArg Host.Outcome.next (if_pos hbusy)

theorem exec_errFlushedReceived_of_gctx {n : Fin 128} (hbusy : regFld s (rGctx n.val 0) 2 0 ≠ 0) :
    exec (.errFlushedReceived (.engine (.gctx n)) addr) s = .next (ctxFault s n.val 17 addr.toNat) := by
  change Host.Outcome.next (doErrFlushedReceived (.engine (.gctx n)) addr s) = _
  rw [doErrFlushedReceived, whenRunning_of_running hrun]
  exact congrArg Host.Outcome.next (if_neg hbusy)

theorem exec_errFlushedReceived_of_kite {n : Fin 4096} (hbusy : regFld s (rKite n.val 0) 2 0 ≠ 0) :
    exec (.errFlushedReceived (.engine (.kite n)) addr) s = .next (kiteFault s n.val 17 addr.toNat) := by
  change Host.Outcome.next (doErrFlushedReceived (.engine (.kite n)) addr s) = _
  rw [doErrFlushedReceived, whenRunning_of_running hrun]
  exact congrArg Host.Outcome.next (if_neg hbusy)

theorem exec_errFlushedReceived_of_spool {h : Fin 8} {e : Kernel × HSpool} {rest : List (Kernel × HSpool)}
    (hqueue : hspoolQueue s h.val = e :: rest) :
    exec (.errFlushedReceived (.spool h) addr) s = .next (homeSpoolFault s h.val e.1.win 17 addr.toNat) := by
  change Host.Outcome.next (doErrFlushedReceived (.spool h) addr s) = _
  simp only [doErrFlushedReceived, whenRunning_of_running hrun, hqueue]

end

/-- Settles O41, in the order of a cell's way: packed, matched, split into epochs, mirrored, and answered or flushed. -/
theorem switchCoreActs : Obligations.SwitchCoreActs := by
  intro s hrun
  refine ⟨?packed, ?cycle, ?epoch, ?mirror, ?granted, ?answered, ?flushed⟩
  case packed =>
    exact fun inp => ⟨_, rfl, exec_cellPackTimeout_of_running hrun inp, exec_cellPackTimeout_of_mirror_off hrun inp⟩
  case cycle =>
    intro hcycle hagents hon u hu
    exact ⟨exec_switchCycle_of_no_cell hrun hcycle hagents hon hu, fun c o t hcells houts hcls hrc hsend =>
      ⟨_, rfl, exec_switchCycle_of_one_cell hrun hcycle hagents hon hu hcells houts hcls hrc hsend⟩⟩
  case epoch =>
    exact ⟨exec_epochBoundary_of_early hrun, fun hend => ⟨_, rfl, exec_epochBoundary_of_mode_off hrun hend,
      exec_epochBoundary_of_no_start hrun hend, exec_epochBoundary_of_start hrun hend⟩⟩
  case mirror =>
    exact fun value => ⟨_, rfl,
      fun hset hclear => by rw [exec_swMirrorWrite_of_running hrun, mirrorWrite_of_rise hset hclear],
      fun hkept => by rw [exec_swMirrorWrite_of_running hrun, mirrorWrite_of_no_rise hkept]⟩
  case granted =>
    exact fun port txn opcode data r a hfind ha => ⟨exec_grantResponse_of_request hrun hfind ha, reqAnswered_of_waiting s r,
      reqAnswered_of_last s⟩
  case answered =>
    intro p h d r hfind
    refine ⟨agentAnswer_of_defer hfind, fun hop w e hwho => ?line, fun hop w e hwho => ?written, fun hop w e hwho => ?failed,
      fun hop dom hwho => ?badcpl⟩
    all_goals
      have hdefer : hOpcode h ≠ 0x24 := by omega
      have hfetch : hOpcode h ≠ 0x25 := by omega
    case line =>
      have hok : hOpcode h ≠ 0x27 := by omega
      rw [agentAnswer_of_kread hfind hdefer hfetch hwho, if_neg hok]
    case written =>
      have hok : hOpcode h ≠ 0x27 := by omega
      rw [agentAnswer_of_kwrite hfind hdefer hfetch hwho, if_neg hok]
    case failed =>
      rcases hwho with hwho | hwho
      · rw [agentAnswer_of_kread hfind hdefer hfetch hwho, if_pos hop]
      · rw [agentAnswer_of_kwrite hfind hdefer hfetch hwho, if_pos hop]
    case badcpl => rw [agentAnswer_of_cpl hfind hdefer hfetch hwho, if_pos hop]
  case flushed =>
    exact fun addr => ⟨fun l hbusy => exec_errFlushedReceived_of_lathe hrun addr hbusy,
      fun n hbusy => exec_errFlushedReceived_of_gctx hrun addr hbusy, fun n hbusy => exec_errFlushedReceived_of_kite hrun addr hbusy,
      fun h e rest hqueue => exec_errFlushedReceived_of_spool hrun addr hqueue⟩

end Sys2Proof.Machine
end

section
/-! Chapter 16: a step runs the command at the front of the queue, and one of the fast domain waits for RUNNING (R681, R697). -/

namespace Sys2Proof.Machine

section
variable {s : State} (hrun : running s = false)
include hrun

/-- A body that waits for RUNNING changes nothing while the device is in another state. -/
theorem whenRunning_not_running (f : State → State) : whenRunning s f = s := by
  simp [whenRunning, hrun]

theorem serving_not_running {w op : Nat} : serving s w op = false := by
  simp [serving, hrun]

theorem slot_not_running {l : Fin 128} {no : Nat} {reads last : Bool} {f : Lathe → State → Slot} :
    slot l no reads last s f = s := whenRunning_not_running hrun _

theorem insn_not_running {e : EngKind} {n : Nat} {f : Ctx → Kernel → State → CRes} : insn e n s f = s :=
  whenRunning_not_running hrun _

theorem ethFrame_not_running {port : Fin 2} {r : EthRx} {f : State → State} : ethFrame port r s f = s := whenRunning_not_running hrun _

theorem batchStep_not_running {n st : Nat} {f : Ctx → Batch → Kernel → State → State} :
    batchStep n st s f = s := whenRunning_not_running hrun _

theorem queryStep_not_running {n : Nat} {f : Ctx → Query → KIdx → Kernel → State → State} :
    queryStep n s f = s := whenRunning_not_running hrun _

theorem coherentReq_not_running {op : ReqOp} {src : Master} {txn : BitVec 12} {addr : BitVec 60} {data : LineData} :
    coherentReq op src txn addr data s = s := whenRunning_not_running hrun _

theorem fabInj_not_running {kind : Nat} {port : Fin 16} {arg : Nat} : fabInj kind port arg s = s := whenRunning_not_running hrun _

theorem medInj_not_running {kind : Nat} {chan : Fin 32} {arg : BitVec 8} : medInj kind chan arg s = s := whenRunning_not_running hrun _

theorem haInj_not_running {kind : Nat} {home : Fin 8} {host : Nat} : haInj kind home host s = s := whenRunning_not_running hrun _

theorem snoopAnswer_not_running {n : Nat} {txn : BitVec 12} {addr : BitVec 60} {upd : LState → BitVec 64 → Txn → Txn}
    {after : LState → BitVec 64 → Txn → State → State} :
    snoopAnswer n txn addr s upd after = s := whenRunning_not_running hrun _

theorem cWaitEnd_not_running {e : EngKind} {n : Nat} {far : Word} : cWaitEnd e n far s = s := whenRunning_not_running hrun _

theorem cWaitFail_not_running {e : EngKind} {n : Nat} : cWaitFail e n s = s := whenRunning_not_running hrun _

theorem doControlCoreUe_not_running : doControlCoreUe s = s := whenRunning_not_running hrun _

theorem armServe_not_running {w mode : Nat} {f : Nat → Nat → Nat → Nat ⊕ State} : armServe w mode s f = s :=
  if_pos (by simp [serving_not_running hrun])

theorem sImm_not_running {l : Fin 128} {sd : BitVec 5} {reads last : Bool} {f : Lathe → State → Word} :
    sImm l sd reads last f s = s := slot_not_running hrun

theorem sOp_not_running {l : Fin 128} {sd sa sb : BitVec 5} {last : Bool} {f : Word → Word → Word} :
    sOp l sd sa sb last f s = s := slot_not_running hrun

theorem tmma_not_running {l : Fin 128} {op : Nat} {td : BitVec 3} {aA aB : BitVec 4} {kb : BitVec 10} {acc : Bool} {shape : BitVec 2}
    {last : Bool} :
    tmma l op td aA aB kb acc shape last s = s := slot_not_running hrun

theorem spoolFence_not_running {l : Fin 128} {w : LWait} {last : Bool} : spoolFence l w last s = s := slot_not_running hrun

theorem vSlot_not_running {l : Fin 128} {regs : List (BitVec 5)} {last : Bool} {f : Lathe → Option Stage} :
    vSlot l regs last s f = s := slot_not_running hrun

theorem vMap1_not_running {l : Fin 128} {vd va : BitVec 5} {last : Bool} {f : Nat → Nat} :
    vMap1 l vd va last f s = s := vSlot_not_running hrun

theorem vMap2_not_running {l : Fin 128} {vd va vb : BitVec 5} {last : Bool} {f : Nat → Nat → Nat} :
    vMap2 l vd va vb last f s = s := vSlot_not_running hrun

theorem vMap3_not_running {l : Fin 128} {vd va vb vc : BitVec 5} {last : Bool} {f : Nat → Nat → Nat → Nat} :
    vMap3 l vd va vb vc last f s = s := vSlot_not_running hrun

theorem cOp_not_running {e : EngKind} {n : Nat} {d : BitVec 4} {f : Ctx → Kernel → Word} : cOp e n d s f = s := insn_not_running hrun

theorem cEnd_not_running {e : EngKind} {n : Nat} : cEnd e n s = s := insn_not_running hrun

theorem cId_not_running {e : EngKind} {n : Nat} {d k : BitVec 4} {count : Kernel → Nat} {unit : Nat} :
    cId e n d k count unit s = s := insn_not_running hrun

theorem cLoop_not_running {e : EngKind} {n len : Nat} {trips : Kernel → Nat} : cLoop e n len trips s = s := insn_not_running hrun

theorem cSig_not_running {e : EngKind} {n : Nat} {a : BitVec 4} : cSig e n a s = s := insn_not_running hrun

theorem cWait_not_running {e : EngKind} {n : Nat} {ch gv gt : BitVec 4} {far : Word} {inj : Nat} :
    cWait e n ch gv gt far inj s = s := insn_not_running hrun

theorem zctRx_not_running {port : Fin 2} {src : ZFrom} {h : ZHdr} {data : List LineData} :
    zctRx port src h data s = s := by
  unfold zctRx
  exact ethFrame_not_running hrun

end

/-- Settles O1: the step takes the front of the queue apart. -/
theorem stepRunsFrontCommand : Obligations.StepRunsFrontCommand := by
  intro s c rest h
  simp only [step, h]

/-- Settles O4: a command of the fast domain is a body that waits for RUNNING, of its own or through the operation it shares. -/
theorem fastCommandsWaitForRunning : Obligations.FastCommandsWaitForRunning := by
  intro c s hrun hfast
  have same {t : State} (h : t = s) : (.next t : Host.Outcome State Fault Refusal) = .next s := congrArg _ h
  cases c with
  | registerWrite | compose | capRead | regRead | regWrite | mgmtCompose | quote | image | slotWriteDone | heartbeat | heartbeatTimer
    | setAddr | mgmtAck | mgmtResendTimeout | errAck | resetDeadline | dumpRelease | recovInjNested | regSet | regionSet | regionDelete
    | domainSet | groupSet | hostRelease | lineRestore | masterRelease | recoverRelease | unitReturn | ripRelease | keyRevoke | headstock
    | bootInjSig | bootInjVerify | isoInjHost | isoInjSession | aonPgRise | aonPgFall | stbyPgRise | stbyPgFall | xtalStart | resetNPulse
    | pllUnlock | ballastTick | powerSample | pwrReqRun | pwrReqStandby | railTimeout | ballastCfgWrite | pmbusPoll | pwrInjHot
    | pwrInjPmbFail | pwrInjStatusFault | pwrInjTrip | tsEnFall | tsSessionStart | tsStat | tsRd | tsWr | tsMrd | tsMwr | tsLog | tsAck
    | tsDump | tsInj | tsRecoverReset | tsRecoverBoot | tsLoad | tsEnrol | extest | samplePreload | idcode | clamp | highz | bypass
    | resetNRise | mgmtLinkDown | mgmtLinkUp => exact Bool.noConfusion hfast
  | aget | saddi | sli | slui | sparam => exact same (sImm_not_running hrun)
  | armBind | armCommandMode | armRearm | armUnbind => exact same (armServe_not_running hrun)
  | arpRequest | icmpEcho | icmpv6Echo | neighborSolicitation | otherFrameDrop | pfcFrame => exact same (ethFrame_not_running hrun)
  | aset | carm | commit | cread | cwait | illegalBundle | loop | loopP | mload | mspool | mstore | nop | sid | sld | sst | tfence
    | tload | tread | tzero => exact same (slot_not_running hrun)
  | batchComplete | passBStart | rowLanded | segmentStart => exact same (batchStep_not_running hrun)
  | draftDiscard | draftOpen | planLoad | planUnload | publish => exact same (if_pos (by simp [serving_not_running hrun]))
  | evict | rde | rds | upgr | wrback => exact same (coherentReq_not_running hrun)
  | fabInjBadRx | fabInjCrc | fabInjLaneFail => exact same (fabInj_not_running hrun)
  | gadd | gaddi | gli | glui | gmul | gparam | kadd | kaddi | kli | klui | kmul | kparam => exact same (cOp_not_running hrun)
  | gend | kend => exact same (cEnd_not_running hrun)
  | gid | kid => exact same (cId_not_running hrun)
  | gloop | gloopP | kloop | kloopP => exact same (cLoop_not_running hrun)
  | gnop | grun | knop | kwalk => exact same (insn_not_running hrun)
  | gsig | ksig => exact same (cSig_not_running hrun)
  | gwait | kwait => exact same (cWait_not_running hrun)
  | gwaitSatisfied | kwaitSatisfied => exact same (cWaitEnd_not_running hrun)
  | gwaitTimeout | kwaitTimeout => exact same (cWaitFail_not_running hrun)
  | haInjDirUe | haInjDropCmpack | haInjDropSnoopAnswer | haInjPoison | haInjSfUe => exact same (haInj_not_running hrun)
  | invack | snprspdata => exact same (snoopAnswer_not_running hrun)
  | kiteReadReturn | queryComplete => exact same (queryStep_not_running hrun)
  | mdrain | mfence => exact same (spoolFence_not_running hrun)
  | medInjEraseFail | medInjFlip | medInjProgFail | medInjRetry | medInjTimeout | medInjUncorr => exact same (medInj_not_running hrun)
  | recovInjCtrlUe => exact same (doControlCoreUe_not_running hrun)
  | sadd | sand | smax | smin | smul | sor | sshl | sshr | ssra | ssub | sxor => exact same (sOp_not_running hrun)
  | tmmaBf16 | tmmaE4m3 | tmmaE5m2 | tmmaFp16 | tmmaInt4 | tmmaInt8 | tmmaMxfp4 | tmmaMxfp4x8 | tmmaMxfp6 | tmmaMxfp6e3 | tmmaMxfp8
    | tmmaMxfp8e5 | tmmaMxint8 | tmmaT2 | tmmaT2i => exact same (tmma_not_running hrun)
  | vabs | vcos | vexp | vlog | vneg | vrcp | vrsqrt | vsigm | vsin | vtanh => exact same (vMap1_not_running hrun)
  | vadd | vmax | vmin | vmul | vsub => exact same (vMap2_not_running hrun)
  | vargmax | vbcast | vcmp | vcvt | vext | vfirst | vredmax | vredsum | vrng | vrotl | vscan | vunp => exact same (vSlot_not_running hrun)
  | vfma | vsel => exact same (vMap3_not_running hrun)
  | zctAck | zctRead | zctWrite => exact same (zctRx_not_running hrun)
  | _ => exact same (whenRunning_not_running hrun _)

end Sys2Proof.Machine
end

section
/-! Chapter 18: the test access port (R744 to R746) and the pulses of RESET_N (R741). -/

namespace Sys2Proof.Machine

section
variable {s : State} (hup : s.stbyUp = true)
include hup

theorem tapLoad_of_up (op : Nat) (f : State → State) : tapLoad s op f = f { s with jtag := op } := if_pos hup

theorem exec_extest_of_off (pins : List Bool) (vals : List (Fin 22 × Bool)) (hoff : fastOff s = true) :
    exec (.extest pins vals) s = .next (tapDrive (tapLatch (send { s with jtag := 0 } (.tdo (pins.take 22))) vals)) :=
  congrArg Host.Outcome.next ((tapLoad_of_up hup 0 _).trans (if_pos (c := fastOff { s with jtag := 0 } = true) hoff))

theorem exec_extest_of_on (pins : List Bool) (vals : List (Fin 22 × Bool)) (hon : fastOff s = false) :
    exec (.extest pins vals) s = .next (tapBypass { s with jtag := 0 }) :=
  congrArg Host.Outcome.next ((tapLoad_of_up hup 0 _).trans (if_neg (c := fastOff { s with jtag := 0 } = true) (Bool.eq_false_iff.1 hon)))

theorem exec_clamp_of_off (hoff : fastOff s = true) : exec .clamp s = .next (tapBypass (tapDrive { s with jtag := 4 })) :=
  congrArg Host.Outcome.next ((tapLoad_of_up hup 4 _).trans (congrArg tapBypass (if_pos (c := fastOff { s with jtag := 4 } = true) hoff)))

theorem exec_clamp_of_on (hon : fastOff s = false) : exec .clamp s = .next (tapBypass { s with jtag := 4 }) :=
  congrArg Host.Outcome.next ((tapLoad_of_up hup 4 _).trans
    (congrArg tapBypass (if_neg (c := fastOff { s with jtag := 4 } = true) (Bool.eq_false_iff.1 hon))))

theorem exec_bypass_of_other {opcode : BitVec 8} (hother : opcode.toNat ∉ [0, 1, 2, 4, 5]) :
    exec (.bypass opcode) s = .next (tapBypass { s with jtag := opcode.toNat }) :=
  congrArg _ ((if_neg (by simpa using hother)).trans (tapLoad_of_up hup _ tapBypass))

end

section
variable {s : State} (hdown : s.stbyUp = false)
include hdown

theorem tapLoad_of_down (op : Nat) (f : State → State) : tapLoad s op f = s := if_neg (Bool.eq_false_iff.1 hdown)

theorem exec_bypass_of_down (opcode : BitVec 8) : exec (.bypass opcode) s = .next s :=
  congrArg _ ((congrArg (ite _ s) (tapLoad_of_down hdown _ tapBypass)).trans (ite_self s))

end

/-- Settles O55: each test instruction loads its opcode, and then only what it does is left. -/
theorem testAccessPortShifts : Obligations.TestAccessPortShifts := by
  intro s pins vals
  constructor
  · intro hup
    exact ⟨congrArg _ (tapLoad_of_up hup 2 _), congrArg _ (tapLoad_of_up hup 1 _),
      fun hoff => ⟨exec_extest_of_off hup pins vals hoff, exec_clamp_of_off hup hoff⟩,
      fun hon => ⟨exec_extest_of_on hup pins vals hon, exec_clamp_of_on hup hon⟩,
      congrArg _ (tapLoad_of_up hup 5 _), fun _ => exec_bypass_of_other hup⟩
  · intro hdown
    have quiet (op : Nat) (f : State → State) : (.next (tapLoad s op f) : Host.Outcome State Fault Refusal) = .next s :=
      congrArg _ (tapLoad_of_down hdown op f)
    exact ⟨quiet 2 _, quiet 0 _, quiet 1 _, quiet 4 _, quiet 5 _, exec_bypass_of_down hdown⟩

/-! ## What a log entry leaves alone -/

/-- An entry of the error log touches the log's registers, the two sequence numbers and the management messages only. -/
theorem logErr_view {β : Type} (view : State → β) (hview : ∀ (s : State) regs seq free mgmtMsg mgmtOut out,
    view { s with regs, seq, free, mgmtMsg, mgmtOut, out } = view s) (s : State) (a : LogArgs) : view (logErr s a) = view s := by
  have hput (s : State) (off hi lo v : Nat) : view (regPut s off hi lo v) = view s := hview s _ _ _ _ _ _
  have hlist (ws : List Word) : ∀ (s : State) (off : Nat), view (regSetList s off ws) = view s := by
    induction ws with
    | nil => exact fun _ _ => rfl
    | cons w ws ih => exact fun s off => (ih _ _).trans (hview s _ _ _ _ _ _)
  have hsend (s : State) (kind : Nat) (ws : List Word) (cls : Option Nat) : view (mgmtSend s kind ws cls) = view s := by
    unfold mgmtSend
    split
    · exact hview s _ _ _ _ _ _
    · exact hview s _ _ _ _ _ _
  unfold logErr
  extract_lets held
  split
  · exact hput _ _ _ _ _
  · simp only [drawFree, hsend, apply_ite view, hput, hlist, ite_self]
    exact hview s _ _ _ _ _ _

theorem logErr_mem (s : State) (a : LogArgs) : (logErr s a).mem = s.mem := logErr_view State.mem (fun _ _ _ _ _ _ _ => rfl) s a

theorem logErr_kernels (s : State) (a : LogArgs) : (logErr s a).kernels = s.kernels :=
  logErr_view State.kernels (fun _ _ _ _ _ _ _ => rfl) s a

/-- The recovery registers lie below the error log's. -/
theorem reg_logErr_recov (s : State) (a : LogArgs) : reg (logErr s a) (rRecov 8) = reg s (rRecov 8) := by
  have hput (s : State) (off hi lo v : Nat) (hoff : rRecov 8 < off) : reg (regPut s off hi lo v) (rRecov 8) = reg s (rRecov 8) :=
    reg_regPut_ne s hi lo v (Nat.ne_of_lt hoff)
  have hhead : rRecov 8 < rErrHead a.cls := by unfold rRecov rErrHead; omega
  have hovf : rRecov 8 < rErrOvf a.cls := by unfold rRecov rErrOvf; omega
  have hlog (i : Nat) : rRecov 8 < rErrLog a.cls i := by unfold rRecov rErrLog; omega
  have hlist (ws : List Word) : ∀ (s : State) (off : Nat), rRecov 8 < off →
      reg (regSetList s off ws) (rRecov 8) = reg s (rRecov 8) := by
    induction ws with
    | nil => exact fun _ _ _ => rfl
    | cons w ws ih => exact fun s off h => (ih _ _ (by omega)).trans (reg_regSet_ne s w (Nat.ne_of_lt h))
  have hsend (s : State) (kind : Nat) (ws : List Word) (cls : Option Nat) : reg (mgmtSend s kind ws cls) (rRecov 8) = reg s (rRecov 8) := by
    unfold mgmtSend
    split
    · exact reg_congr rfl _
    · exact reg_congr rfl _
  unfold logErr
  extract_lets held
  split
  · exact hput _ _ _ _ _ hovf
  · simp only [drawFree, hsend, reg_ite, hput _ _ _ _ _ hhead, hlist _ _ _ (hlog _), ite_self]
    exact reg_congr rfl _

/-! ## Pulses of RESET_N -/

section
variable {s : State} (hup : s.stbyUp = true) (held : Bool)
include hup

theorem exec_resetNPulse_of_rip (hrip : ripHeld s = true) :
    exec (.resetNPulse held) s = .next (logErr s { cls := 8, code := 0, kind := 15, action := 0 }) :=
  congrArg Host.Outcome.next (by simp [doResetNPulse, hup, hrip])

theorem exec_resetNPulse_of_recovery (hrip : ripHeld s = false) (hboot : bootState s = 1) :
    exec (.resetNPulse held) s = .next (regPut { s with resetLow := held } (rBoot 0) 3 0 0) :=
  congrArg Host.Outcome.next (by simp [doResetNPulse, hup, hrip, hboot])

theorem exec_resetNPulse_of_boot (hrip : ripHeld s = false) (hboot : bootState s ≠ 1) :
    exec (.resetNPulse held) s = .next { wholeReset s 0 with resetLow := held } :=
  congrArg Host.Outcome.next (by simp [doResetNPulse, hup, hrip, hboot])

end

/-- Settles O60: a pulse takes one of its three branches, and the identity code is 32 bits long. -/
theorem resetPulsesAndIdcode : Obligations.ResetPulsesAndIdcode := by
  intro s hup
  refine ⟨fun held hrip => ?_, fun held hrip hboot => ?_, ?_⟩
  · exact ⟨_, exec_resetNPulse_of_rip hup held hrip, rfl, (congrArg (· == 3) (regFld_congr (reg_logErr_recov s _) 3 0)).trans hrip,
      logErr_mem s _, logErr_kernels s _⟩
  · exact ⟨_, exec_resetNPulse_of_recovery hup held hrip hboot, regFld_regPut_self _ _ _ (by omega) (by omega), rfl⟩
  · refine ⟨(List.range 32).map (fun i => (0x2748056B : Nat).testBit i), congrArg _ (tapLoad_of_up hup 2 _), rfl, fun n hn => ?_⟩
    have hid : n = 0x2748056B := hn.trans (by decide)
    subst hid
    decide

end Sys2Proof.Machine
end

section
/-! Chapter 17: performance counters are frozen, copied, written and their rings acknowledged (R711 to R715, R726, R727). -/

namespace Sys2Proof.Machine

/-! ## Reads of a list that others were put into -/

theorem Sparse.get_of_not_mem {α : Type} {m : List (Nat × α)} {k : Nat} {d : α} (h : ∀ e ∈ m, e.1 ≠ k) : Sparse.get m k d = d := by
  induction m with
  | nil => rfl
  | cons e m ih =>
    obtain ⟨he, hm⟩ := List.forall_mem_cons.1 h
    exact (if_neg he).trans (ih hm)

theorem Sparse.get_filter {α : Type} (p : Nat → Bool) (m : List (Nat × α)) (k : Nat) (d : α) :
    Sparse.get (m.filter (fun e => p e.1)) k d = if p k then Sparse.get m k d else d := by
  induction m with
  | nil => exact (ite_self d).symm
  | cons e m ih =>
    by_cases hk : e.1 = k
    · subst hk
      cases hp : p e.1 <;> simp [hp, ih, Sparse.get]
    · cases hp : p e.1 <;> simp [hp, ih, hk, Sparse.get]

theorem Sparse.get_map_add {α : Type} (c : Nat) (m : List (Nat × α)) (k : Nat) (d : α) :
    Sparse.get (m.map (fun e => (e.1 + c, e.2))) (k + c) d = Sparse.get m k d := by
  induction m with
  | nil => rfl
  | cons e m ih => simp [Sparse.get, ih]

/-- What was put into a list from another whose keys rise reads as in that other, and else as before. -/
theorem Sparse.get_foldl_ins {α : Type} {l : List (Nat × α)} (hl : l.Pairwise (fun a b => a.1 < b.1)) (m : List (Nat × α)) (k : Nat)
    (d : α) :
    Sparse.get (l.foldl (fun m e => Sparse.ins m e.1 e.2) m) k d = Sparse.get l k (Sparse.get m k d) := by
  induction l generalizing m with
  | nil => rfl
  | cons e l ih =>
    obtain ⟨he, hl⟩ := List.pairwise_cons.1 hl
    refine (ih hl _).trans ?_
    by_cases hk : e.1 = k
    · subst hk
      rw [Sparse.get_ins_self, Sparse.get_of_not_mem fun x hx => Nat.ne_of_gt (he x hx)]
      exact (if_pos rfl).symm
    · rw [Sparse.get_ins_ne _ _ _ (Ne.symm hk)]
      exact (if_neg hk).symm

/-! ## Snapshots -/

/-- The registers with every counter copied into its snapshot register (R714). -/
def snapped (m : List (Nat × Word)) : List (Nat × Word) :=
  ((m.filter (fun e => pmcAt e.1 0x80)).map (fun e => (e.1 + 0x80, e.2))).foldl (fun m e => Sparse.ins m e.1 e.2)
    (m.filter (fun e => !pmcAt e.1 0x100))

theorem pmuSnap_of_idle {s : State} (hidle : regBit s (rPmu 8) 1 = false) :
    pmuSnap s = setBit { s with regs := snapped s.regs } (rPmu 8) 1 :=
  if_neg (Bool.eq_false_iff.1 hidle)

theorem pmcAt_iff {off first : Nat} : pmcAt off first = true ↔
    0x7000000 ≤ off ∧ off < 0x7000000 + 0x200 * 207 ∧ first ≤ off % 0x200 ∧ off % 0x200 < first + 0x80 := by
  simp [pmcAt, and_assoc]

section
variable {m : List (Nat × Word)} (hm : m.Pairwise (fun a b => a.1 < b.1)) {off : Nat} (hoff : pmcAt off 0x80 = true)
include hm

theorem get_snapped (k : Nat) (d : Word) : Sparse.get (snapped m) k d =
    Sparse.get ((m.filter (fun e => pmcAt e.1 0x80)).map (fun e => (e.1 + 0x80, e.2))) k
      (if pmcAt k 0x100 then d else Sparse.get m k d) := by
  have hrise : ((m.filter (fun e => pmcAt e.1 0x80)).map (fun e => (e.1 + 0x80, e.2))).Pairwise (fun a b => a.1 < b.1) :=
    List.pairwise_map.2 ((hm.filter _).imp (fun h => Nat.add_lt_add_right h _))
  rw [snapped, Sparse.get_foldl_ins hrise, Sparse.get_filter (fun k => !pmcAt k 0x100)]
  cases pmcAt k 0x100 <;> rfl

include hoff

theorem get_snapped_copy (d : Word) : Sparse.get (snapped m) (off + 0x80) d = Sparse.get m off d := by
  have hcopy : pmcAt (off + 0x80) 0x100 = true := by
    rw [pmcAt_iff] at hoff ⊢
    omega
  rw [get_snapped hm, Sparse.get_map_add, Sparse.get_filter (pmcAt · 0x80), if_pos hoff, if_pos hcopy]

theorem get_snapped_counter (d : Word) : Sparse.get (snapped m) off d = Sparse.get m off d := by
  rw [pmcAt_iff] at hoff
  have hcopy : ¬ pmcAt off 0x100 = true := fun h => by
    rw [pmcAt_iff] at h
    omega
  rw [get_snapped hm, if_neg hcopy, Sparse.get_of_not_mem]
  intro e he
  obtain ⟨c, hc, rfl⟩ := List.mem_map.1 he
  have hat := pmcAt_iff.1 (List.mem_filter.1 hc).2
  simp only [ne_eq]
  omega

end

/-! ## Counters and rings -/

theorem pmuUnfreeze_of_none_held {s : State} (hheld : s.pmcHeld = []) : pmuUnfreeze s = clrBit (clrBit s (rPmu 0) 0) (rPmu 8) 0 := by
  have hkept : (clrBit (clrBit s (rPmu 0) 0) (rPmu 8) 0).pmcHeld = [] := hheld
  have hnone : pmuUnfreeze s = { clrBit (clrBit s (rPmu 0) 0) (rPmu 8) 0 with pmcHeld := [] } := by
    simp only [pmuUnfreeze, hheld, forEach, List.foldl]
  exact hnone.trans (by rw [← hkept])

theorem pmcWrite_of_counter (s : State) (block : Fin 207) (i : Fin 16) (v : Word)
    (hrow : (regRow (rPmc block.val (0x80 + 8 * i.val))).isSome = true) :
    pmcWrite s (rPmc block.val (0x80 + 8 * i.val)) v = regPut s (rPmc block.val (0x80 + 8 * i.val)) 47 0 v.toNat := by
  have hat : pmcAt (rPmc block.val (0x80 + 8 * i.val)) 0x80 = true := by
    rw [pmcAt_iff, rPmc]
    omega
  rw [pmcWrite, hat, hrow]
  rfl

theorem ringAck_of_part (s : State) {st n : Nat} (hpart : n < regFld s st 28 16) :
    ringAck s st n = regPut (regPut s st 28 16 (regFld s st 28 16 - n)) st 11 0 (regFld s st 11 0 + n) := by
  simp only [ringAck, Nat.min_eq_left hpart.le, if_neg (Nat.ne_of_gt hpart)]

theorem ringAck_of_all (s : State) {st n : Nat} (hall : regFld s st 28 16 ≤ n) :
    ringAck s st n = regPut (regPut (regPut s st 28 16 0) st 11 0 (regFld s st 11 0 + regFld s st 28 16)) st 55 32 0 := by
  simp only [ringAck, Nat.min_eq_right hall, Nat.sub_self, if_true]

/-- Settles O53: each command of the counters is its operation on them, as the device runs. -/
theorem performanceCountersAreControlled : Obligations.PerformanceCountersAreControlled := by
  intro s hrun
  have runs (f : State → State) {t : State} (h : f s = t) : (.next (whenRunning s f) : Host.Outcome State Fault Refusal) = .next t :=
    congrArg _ ((whenRunning_of_running hrun f).trans h)
  refine ⟨runs _ rfl, fun hheld => runs _ (pmuUnfreeze_of_none_held hheld), runs _ rfl, fun hidle => ?_, fun hbusy => ⟨?_, ?_⟩,
    fun hidle => runs _ (if_neg (Bool.eq_false_iff.1 hidle)), fun block i v hrow => runs _ (pmcWrite_of_counter s block i v hrow),
    fun n => ⟨runs _ rfl, runs _ rfl⟩, fun st n => ringAck_of_part s, fun st n => ringAck_of_all s⟩
  · refine ⟨{ s with regs := snapped s.regs }, runs _ (pmuSnap_of_idle hidle), rfl, rfl, fun hcanon off hoff => ?_⟩
    have hrise := hcanon.2.1.1
    exact ⟨get_snapped_copy hrise hoff 0, get_snapped_counter hrise hoff 0⟩
  · exact runs _ (if_pos hbusy)
  · exact runs _ (if_pos hbusy)

end Sys2Proof.Machine
end

section
/-! Chapter 16: the power domains follow the board (R681 to R684, R699, R735 to R743). -/

namespace Sys2Proof.Machine

/-! ## The standby domain comes up -/

theorem regFld_regSet_ne (s : State) {off other : Nat} (v : Word) (hi lo : Nat) (hne : other ≠ off) :
    regFld (regSet s off v) other hi lo = regFld s other hi lo := regFld_congr (reg_regSet_ne s v hne) hi lo

/-- The straps SLOT and HOLD sampled, and the count of boots cleared (R738). -/
def strapsSampled (s : State) (slot : BitVec 4) (hold : Bool) : State :=
  regSet (regPut (regPut s rAddrSelf 3 0 slot.toNat) (rPwr 0) 3 3 (if hold then 1 else 0)) (rBoot 0x18) 0

/-- The standby domain up, with TS_EN sampled (R735). -/
def standbyOn (t : State) (tsEn : Bool) : State := { t with stbyUp := true, tsEn := tsEn }

theorem regFld_standbyOn (t : State) (tsEn : Bool) (off hi lo : Nat) : regFld (standbyOn t tsEn) off hi lo = regFld t off hi lo := rfl

/-- The standby domain as its power-good leaves it: the straps sampled, in STANDBY and HEADSTOCK (R735, R738). -/
def standbyRisen (s : State) (slot : BitVec 4) (hold tsEn : Bool) : State :=
  setPwrState (standbyOn (regPut (strapsSampled s slot hold) (rBoot 0) 3 0 0) tsEn) 1

section
variable (s : State) (slot : BitVec 4) (hold tsEn : Bool)

theorem exec_stbyPgRise_of_down {s : State} (haon : s.aonUp = true) (hdown : s.stbyUp = false) :
    exec (.stbyPgRise slot hold tsEn true) s = .next (standbyRisen s slot hold tsEn) :=
  congrArg Host.Outcome.next (if_neg (by simp [haon, hdown]))

/-- A register but PWR_STAT and BOOT_STAT reads as the sampled straps left it. -/
theorem regFld_standbyRisen {off : Nat} (hstat : off ≠ rPwr 8) (hboot : off ≠ rBoot 0) (hcount : off ≠ rBoot 0x18) (hi lo : Nat) :
    regFld (standbyRisen s slot hold tsEn) off hi lo =
      regFld (regPut (regPut s rAddrSelf 3 0 slot.toNat) (rPwr 0) 3 3 (if hold then 1 else 0)) off hi lo := by
  rw [standbyRisen, setPwrState, regFld_regPut_ne _ _ _ _ _ _ hstat, regFld_standbyOn, regFld_regPut_ne _ _ _ _ _ _ hboot, strapsSampled,
    regFld_regSet_ne _ _ _ _ hcount]

theorem addrSelf_standbyRisen : regFld (standbyRisen s slot hold tsEn) rAddrSelf 3 0 = slot.toNat := by
  rw [regFld_standbyRisen s slot hold tsEn (by decide) (by decide) (by decide), regFld_regPut_ne _ _ _ _ _ _ (by decide),
    regFld_regPut_self _ _ _ (by decide) (by decide)]
  exact Nat.mod_eq_of_lt slot.isLt

theorem hold_standbyRisen : regFld (standbyRisen s slot hold tsEn) (rPwr 0) 3 3 = if hold then 1 else 0 := by
  rw [regFld_standbyRisen s slot hold tsEn (by decide) (by decide) (by decide), regFld_regPut_self _ _ _ (by decide) (by decide)]
  cases hold <;> rfl

theorem pwrState_standbyRisen : regFld (standbyRisen s slot hold tsEn) (rPwr 8) 2 0 = 1 :=
  regFld_regPut_self _ _ 1 (by decide) (by decide)

theorem bootState_standbyRisen : regFld (standbyRisen s slot hold tsEn) (rBoot 0) 3 0 = 0 := by
  rw [standbyRisen, setPwrState, regFld_regPut_ne _ _ _ _ _ _ (by decide), regFld_standbyOn,
    regFld_regPut_self _ _ _ (by decide) (by decide), Nat.zero_mod]

end

/-! ## Requests of RUN and STANDBY -/

section
variable {s u : State} (hu : u = regPut s (rPwr 0) 1 0 0)
include hu

theorem exec_pwrReqRun_of_recovery (hup : u.stbyUp = true) (hstate : pwrState u = 1 ∨ pwrState u = 2) (hboot : bootState u = 1) :
    exec .pwrReqRun s = .next (setBit u (rPwr 0x30) 5) := by
  subst hu
  have hup : s.stbyUp = true := hup
  refine congrArg Host.Outcome.next ((if_neg ?_).trans (if_pos ?_))
  · rcases hstate with h | h <;> simp [hup, h]
  · simp [hboot]

theorem exec_pwrReqRun_of_ready (hup : u.stbyUp = true) (hstate : pwrState u = 1 ∨ pwrState u = 2) (hboot : bootState u ≠ 1)
    (hrip : ripHeld u = false) (hcool : u.hotJ < 95) :
    exec .pwrReqRun s = .next { regPut u (rBoot 0) 3 0 0 with wake := true, stay := false, recovs := [⟨15, 0, 0, []⟩] } := by
  subst hu
  have hup : s.stbyUp = true := hup
  refine congrArg Host.Outcome.next ((if_neg ?_).trans (if_neg ?_))
  · rcases hstate with h | h <;> simp [hup, h]
  · have hcool : s.hotJ < 95 := hcool
    simp [hboot, hrip, Nat.not_le.2 hcool]

theorem exec_pwrReqStandby_of_down (hdown : u.stbyUp = false) : exec .pwrReqStandby s = .next u := by
  subst hu
  have hdown : s.stbyUp = false := hdown
  exact congrArg Host.Outcome.next (if_pos (by simp [hdown]))

section
variable (hup : u.stbyUp = true)
include hup

theorem exec_pwrReqStandby_of_on (hon : 3 ≤ pwrState u) : exec .pwrReqStandby s =
    .next (if regBit u (rPwr 0) 2 then setPwrState (switchRails (fastReset (tsCut (collectDump u 15 0 10 0))) false (regBit u (rPwr 0) 2)) 2
      else stacksOff (switchRails (fastReset (tsCut (collectDump u 15 0 10 0))) false (regBit u (rPwr 0) 2))) := by
  subst hu
  have hup : s.stbyUp = true := hup
  exact congrArg Host.Outcome.next ((if_neg (by simp [hup])).trans (if_neg (Nat.not_lt.2 hon)))

theorem exec_pwrReqStandby_of_off (hoff : pwrState u < 3) (hstacks : pwrState u ≠ 2 ∨ regBit u (rPwr 0) 2 = true) :
    exec .pwrReqStandby s =
      .next (if u.recovs.any (fun r => r.kind == 15) then { u with recovs := [], wake := false, stay := true } else u) := by
  subst hu
  have hup : s.stbyUp = true := hup
  refine congrArg Host.Outcome.next ((if_neg (by simp [hup])).trans ((if_pos hoff).trans (if_neg ?_)))
  have hkept (v : State) (hregs : v.regs = (regPut s (rPwr 0) 1 0 0).regs) : ¬(pwrState v = 2 ∧ regBit v (rPwr 0) 2 = false) := by
    rw [pwrState, regBit, regFld_congr (reg_congr hregs _), reg_congr hregs]
    exact fun h => hstacks.elim (fun h2 => h2 h.1) (fun hk => Bool.noConfusion (hk.symm.trans h.2))
  split
  · exact hkept _ rfl
  · exact hkept _ rfl

end

end

theorem exec_railTimeout_of_waking {s : State} (rail : Fin 7) (hwaking : pwrState s = 3) :
    exec (.railTimeout rail) s = .next (stacksOff { switchRails (pwrEvent s (some 3) 4 0 rail.val) false false with
      clocked := [], ballastQ := [], recovs := [] }) := congrArg Host.Outcome.next (if_neg (not_not.2 hwaking))

/-- Settles O51: each event of the board takes the one branch that its conditions name. -/
theorem powerDomainsFollowTheBoard : Obligations.PowerDomainsFollowTheBoard := by
  intro s
  refine ⟨rfl, fun haon => congrArg _ (if_pos haon), fun haon => congrArg _ (if_neg (Bool.eq_false_iff.1 haon)), rfl,
    fun slot hold tsEn haon hdown => ?_, fun hup => congrArg _ (if_pos hup), fun hup held => ?_, rfl, fun u hu => ⟨?_, ?_, ?_⟩,
    fun rail => ⟨fun hwaking => ⟨_, rfl, exec_railTimeout_of_waking rail hwaking⟩, fun hother => congrArg _ (if_pos hother)⟩,
    fun which hon => ?_⟩
  · exact ⟨_, exec_stbyPgRise_of_down slot hold tsEn haon hdown, rfl, rfl, addrSelf_standbyRisen s slot hold tsEn,
      hold_standbyRisen s slot hold tsEn, pwrState_standbyRisen s slot hold tsEn, bootState_standbyRisen s slot hold tsEn, rfl⟩
  · exact ⟨exec_resetNPulse_of_rip hup held, exec_resetNPulse_of_recovery hup held, exec_resetNPulse_of_boot hup held⟩
  · exact fun hup hstate => ⟨exec_pwrReqRun_of_recovery hu hup hstate, exec_pwrReqRun_of_ready hu hup hstate⟩
  · intro hup
    refine ⟨fun hon hkeep => ?_, fun hon hkeep => ?_, fun hoff hnone hstacks => ?_, fun hoff hsome hstacks => ?_⟩
    · rw [exec_pwrReqStandby_of_on hu hup hon, hkeep, if_pos rfl]
    · rw [exec_pwrReqStandby_of_on hu hup hon, hkeep, if_neg Bool.false_ne_true]
    · rw [exec_pwrReqStandby_of_off hu hup hoff hstacks, hnone, if_neg Bool.false_ne_true]
    · rw [exec_pwrReqStandby_of_off hu hup hoff hstacks, hsome, if_pos rfl]
  · exact exec_pwrReqStandby_of_down hu
  · exact congrArg Host.Outcome.next (if_neg fun h => absurd h.1 (Nat.not_lt.2 hon))

end Sys2Proof.Machine
end

section
/-! Chapter 16: Ballast refills its ledger, and the power cap governs the arithmetic clock (R685 to R696, R702). -/

namespace Sys2Proof.Machine

/-! ## Ticks and idle stops -/

/-- The ledger refilled up to DEPTH times 100 (R689). -/
def refilled (s : State) : State :=
  regPut { s with pace := s.pace + 1 } (rPwr 0x20) 15 0
    (min (100 * regFld s (rPwr 0x18) 23 16) (regFld s (rPwr 0x20) 15 0 + regFld s (rPwr 0x18) 15 0))

/-- The end of a tick: what is left in the queue has waited, and is counted and shown (R690). -/
def tickEnded (v : State) : State :=
  let late := (v.ballastQ.filter (fun q => !q.waited)).length
  showQueue (addCnt { v with ballastQ := v.ballastQ.map (fun q => { q with waited := true }) } (rPwr 0x40) late)

theorem doBallastTick_of_up {s : State} (hup : s.stbyUp = true) :
    doBallastTick s = tickEnded (grantLoop (refilled s).ballastQ.length (refilled s)) := if_neg (by simp [hup])

theorem tickEnded_of_empty {v : State} (hempty : v.ballastQ = []) : tickEnded v = showQueue (addCnt v (rPwr 0x40) 0) := by
  have hsame : { v with ballastQ := [] } = v := by rw [← hempty]
  calc tickEnded v = showQueue (addCnt { v with ballastQ := [] } (rPwr 0x40) 0) := by rw [tickEnded, hempty]; rfl
    _ = showQueue (addCnt v (rPwr 0x40) 0) := congrArg (fun v => showQueue (addCnt v (rPwr 0x40) 0)) hsame

theorem exec_ballastTick_of_empty {s : State} (hup : s.stbyUp = true) (hempty : s.ballastQ = []) :
    exec .ballastTick s = .next (showQueue (addCnt (refilled s) (rPwr 0x40) 0)) := by
  have hqueue : (refilled s).ballastQ = [] := hempty
  have htick : doBallastTick s = tickEnded (refilled s) := by rw [doBallastTick_of_up hup, hqueue]; rfl
  exact congrArg Host.Outcome.next (htick.trans (tickEnded_of_empty hqueue))

theorem exec_clockIdleStop {s : State} (hrun : running s = true) (unit : BitVec 16) :
    exec (.clockIdleStop unit) s = .next (if unitIdle s unit.toNat then askStop s unit.toNat 5 else s) :=
  congrArg _ (whenRunning_of_running hrun _)

/-! ## Power samples -/

/-- A sample shown in PWR_STAT (R694). -/
def sampleShown (s : State) (watts : BitVec 16) (temp : BitVec 8) : State :=
  regPut (regPut { s with hotJ := temp.toNat } (rPwr 8) 63 56 temp.toNat) (rPwr 8) 55 40 watts.toNat

/-- What the cap does about a sample of `watts` at `t` degrees that `u` shows, with the hot limit `lim` (R695, R696). -/
def capGoverned (u : State) (lim watts t : Nat) : State :=
  let cap := regFld u (rPwr 0x28) 15 0
  if pwrState u < 3 then u
  else if 115 ≤ t then thermalTrip u
  else if cap < watts ∨ lim ≤ t then
    let s := { u with coolRun := 0 }
    if arithMhz s ≤ max 1200 (100 * regFld s (rPwr 0x28) 31 24) then s
    else
      let (n, s) := drawFree s
      let s := pwrEvent (incCnt { s with stepAt := [n] } (rPwr 0x48)) (some 1) 6 0 t
      regPut s (rPwr 0x10) 15 0 (arithMhz s - 100)
  else if 100 * watts < 95 * cap ∧ t + 5 ≤ lim then
    if u.coolRun + 1 < 10 then { u with coolRun := u.coolRun + 1 }
    else if arithMhz u < 2400 then askStart { u with coolRun := 0 } (unitCode 16 0) else { u with coolRun := 0 }
  else { u with coolRun := 0 }

theorem exec_powerSample_of_none_armed {s : State} (hup : s.stbyUp = true) (hinj : s.inj = []) (watts : BitVec 16) (temp : BitVec 8) :
    exec (.powerSample watts temp) s =
      .next (capGoverned (sampleShown s watts temp) (regFld s (rPwr 0x28) 23 16) watts.toNat temp.toNat) := by
  refine congrArg Host.Outcome.next ?_
  simp only [doPowerSample, hup, Bool.not_true, Bool.false_eq_true, if_false, takeInj_of_none_armed hinj, capGoverned, sampleShown]

section
variable {u : State} {lim watts t : Nat}

theorem capGoverned_of_off (hoff : pwrState u < 3) : capGoverned u lim watts t = u := if_pos hoff

theorem capGoverned_of_hot (hon : 3 ≤ pwrState u) (hhot : 115 ≤ t) : capGoverned u lim watts t = thermalTrip u :=
  (if_neg (Nat.not_lt.2 hon)).trans (if_pos hhot)

section
variable (hon : 3 ≤ pwrState u) (hcool : t < 115)
include hon hcool

section
variable (hover : regFld u (rPwr 0x28) 15 0 < watts ∨ lim ≤ t)
include hover

/-- Above the cap or the limit the clock is lowered unless it is at its floor. -/
theorem capGoverned_of_over : capGoverned u lim watts t =
    if arithMhz { u with coolRun := 0 } ≤ max 1200 (100 * regFld { u with coolRun := 0 } (rPwr 0x28) 31 24) then { u with coolRun := 0 }
    else
      let x := pwrEvent (incCnt { (drawFree { u with coolRun := 0 }).2 with stepAt := [(drawFree { u with coolRun := 0 }).1] } (rPwr 0x48))
        (some 1) 6 0 t
      regPut x (rPwr 0x10) 15 0 (arithMhz x - 100) :=
  (if_neg (Nat.not_lt.2 hon)).trans ((if_neg (Nat.not_le.2 hcool)).trans (if_pos hover))

theorem capGoverned_of_floor
    (hfloor : arithMhz { u with coolRun := 0 } ≤ max 1200 (100 * regFld { u with coolRun := 0 } (rPwr 0x28) 31 24)) :
    capGoverned u lim watts t = { u with coolRun := 0 } :=
  (capGoverned_of_over hon hcool hover).trans (if_pos hfloor)

theorem capGoverned_of_above {n : Nat} {v x : State} (habove : max 1200 (100 * regFld u (rPwr 0x28) 31 24) < arithMhz u)
    (hdraw : drawFree { u with coolRun := 0 } = (n, v))
    (hx : x = pwrEvent (incCnt { v with stepAt := [n] } (rPwr 0x48)) (some 1) 6 0 t) :
    capGoverned u lim watts t = regPut x (rPwr 0x10) 15 0 (arithMhz x - 100) := by
  rw [capGoverned_of_over hon hcool hover, hdraw, ← hx]
  exact if_neg (Nat.not_le.2 habove)

end

/-- Well below the cap and the limit, every tenth sample in a row asks for a step up. -/
theorem capGoverned_of_below (hwatts : watts ≤ regFld u (rPwr 0x28) 15 0) (hwell : 100 * watts < 95 * regFld u (rPwr 0x28) 15 0)
    (hlim : t + 5 ≤ lim) : capGoverned u lim watts t =
      if u.coolRun + 1 < 10 then { u with coolRun := u.coolRun + 1 }
      else if arithMhz u < 2400 then askStart { u with coolRun := 0 } (unitCode 16 0) else { u with coolRun := 0 } :=
  (if_neg (Nat.not_lt.2 hon)).trans ((if_neg (Nat.not_le.2 hcool)).trans ((if_neg (by omega)).trans (if_pos ⟨hwell, hlim⟩)))

end

end

/-! ## PMBus polls -/

theorem pollRail_of_read {s : State} {r : PmbRead} (hinj : s.inj = []) (hrail : regBit s (rPwr (0x100 + 8 * r.rail.val)) 16 = true)
    (hok : r.ok = true) (hfault : r.fault = false) (hvolt : r.undervolt = false) :
    pollRail s r = regSet s (rPwr (0x200 + 8 * r.rail.val)) r.telem := by
  simp [pollRail, takeInj_of_none_armed hinj, hrail, hok, hfault, hvolt]

theorem exec_pmbusPoll_of_up {s : State} (hup : s.stbyUp = true) (reads : List PmbRead) :
    exec (.pmbusPoll reads) s = .next (forEach reads s pollRail) := congrArg Host.Outcome.next (if_neg (by simp [hup]))

/-- Settles O52: each command is one branch of what Ballast, the cap or the poll does. -/
theorem ballastAndTheCapGovernClocks : Obligations.BallastAndTheCapGovernClocks := by
  intro s
  refine ⟨exec_ballastTick_of_empty, fun v hup => congrArg Host.Outcome.next (if_neg (by simp [hup])),
    fun unit hrun => ⟨fun hidle => ?_, fun hbusy => ?_⟩,
    fun watts temp u hup hinj hu => ?_, fun r hup hinj hrail hok hfault hvolt => ?_, fun hup => exec_pmbusPoll_of_up hup []⟩
  · rw [exec_clockIdleStop hrun, hidle, if_pos rfl]
  · rw [exec_clockIdleStop hrun, hbusy, if_neg Bool.false_ne_true]
  · have hsample := exec_powerSample_of_none_armed hup hinj watts temp
    rw [sampleShown, ← hu] at hsample
    rw [hsample]
    refine ⟨fun hoff => congrArg _ (capGoverned_of_off hoff), fun hon hhot => congrArg _ (capGoverned_of_hot hon hhot),
      fun hon hcool hover hfloor => congrArg _ (capGoverned_of_floor hon hcool hover hfloor),
      fun hon hcool hover habove n v hdraw => ⟨_, rfl, congrArg _ (capGoverned_of_above hon hcool hover habove hdraw rfl)⟩,
      fun hon hwatts hwell hlim hcool => ⟨fun hfew => ?_, fun hten hslow => ?_⟩⟩
    · rw [capGoverned_of_below hon hcool hwatts hwell hlim, if_pos hfew]
    · rw [capGoverned_of_below hon hcool hwatts hwell hlim, if_neg (by omega), if_pos hslow]
  · rw [exec_pmbusPoll_of_up hup]
    exact congrArg _ (pollRail_of_read hinj hrail hok hfault hvolt)

end Sys2Proof.Machine
end

section
/-! Chapter 13: blocks of a ZCT session are taken in order, and its timers acknowledge and resend (R558 to R571). -/

namespace Sys2Proof.Machine

/-! ## A block that arrives -/

/-- A frame of `n` bytes received on port `e`, with `corr` corrected symbols (R556). -/
def frameCounted (s : State) (e n : Nat) (corr : BitVec 16) : State := addCnt (ethRx s e n) (rEth e 0x18) corr.toNat

theorem ethFrame_of_good {s : State} {port : Fin 2} {r : EthRx} (hrun : running s = true) (hlink : ethLink s port.val = true)
    (hcorr : r.uncorr = 0) (hsize : r.bytes.toNat ≤ 9216) (f : State → State) :
    ethFrame port r s f = f (frameCounted s port.val r.bytes.toNat r.corr) := by
  refine (whenRunning_of_running hrun _).trans ?_
  simp only [hlink, hcorr, Nat.not_lt.2 hsize, Bool.not_true, Bool.false_eq_true, if_false, ne_eq, not_true_eq_false, frameCounted]

/-- What a block that no injection hits does on port `p`, once its frame is counted (R563 to R568). -/
def blockHeard (u : State) (p : Nat) (src : ZFrom) (h : ZHdr) (data : List LineData) : State :=
  if zctBad u h data then incCnt u (rEth p 0x30)
  else
    let n := h.session.toNat
    if vlanOf src.tci ≠ regFld u (rSess n) 54 43 then ethDrop u p
    else
      let v := pmc u (202 + p) 4 1 (some (sessDom u n))
      let w := zctAckIn (putSess (regPut v (rSstat n) 60 60 p) n { sessOf v n with far := src.far.toNat }) n h.ack.toNat h.sack.toNat
      if h.kind = 5 then zctSettle w n
      else zctTake w p n { kind := h.kind.toNat, fence := h.flags.getLsbD 0, seq := h.seq.toNat, ref := h.lines.toNat, reason := p,
                           addr := h.addr.toNat, data := data }

section
variable {s u : State} {port : Fin 2} {src : ZFrom} {h : ZHdr} {data : List LineData}

theorem zctRx_of_good (hrun : running s = true) (hlink : ethLink s port.val = true) (hcorr : src.uncorr = 0)
    (hsize : zctBytes data.length ≤ 9216) (hu : u = frameCounted s port.val (zctBytes data.length) src.corr)
    (haddr : regBit u (rEth port.val 0) 2 = true) (hinj : u.inj = []) : zctRx port src h data s = blockHeard u port.val src h data := by
  have hbytes : (BitVec.ofNat 16 (zctBytes data.length)).toNat = zctBytes data.length := by
    rw [BitVec.toNat_ofNat]
    omega
  have hsmall : (BitVec.ofNat 16 (zctBytes data.length)).toNat ≤ 9216 := hbytes.trans_le hsize
  rw [zctRx, ethFrame_of_good hrun hlink hcorr hsmall, hbytes, ← hu]
  simp only [haddr, takeInj_of_none_armed hinj, blockHeard, Bool.not_true, Bool.false_eq_true, if_false, Bool.false_or]

theorem blockHeard_of_bad {p : Nat} (hbad : zctBad u h data = true) : blockHeard u p src h data = incCnt u (rEth p 0x30) := if_pos hbad

theorem blockHeard_of_alien {p : Nat} (hgood : zctBad u h data = false) (hvlan : vlanOf src.tci ≠ regFld u (rSess h.session.toNat) 54 43) :
    blockHeard u p src h data = ethDrop u p := (if_neg (Bool.eq_false_iff.1 hgood)).trans (if_pos hvlan)

/-- A good block of its session's VLAN is heard, its ACK taken, and then itself. -/
theorem blockHeard_of_own {p : Nat} {v w : State} (hgood : zctBad u h data = false)
    (hvlan : vlanOf src.tci = regFld u (rSess h.session.toNat) 54 43) (hv : v = pmc u (202 + p) 4 1 (some (sessDom u h.session.toNat)))
    (hw : w = zctAckIn (putSess (regPut v (rSstat h.session.toNat) 60 60 p) h.session.toNat
      { sessOf v h.session.toNat with far := src.far.toNat }) h.session.toNat h.ack.toNat h.sack.toNat) :
    blockHeard u p src h data = if h.kind = 5 then zctSettle w h.session.toNat
      else zctTake w p h.session.toNat { kind := h.kind.toNat, fence := h.flags.getLsbD 0, seq := h.seq.toNat, ref := h.lines.toNat,
                                         reason := p, addr := h.addr.toNat, data := data } := by
  subst hv hw
  exact (if_neg (Bool.eq_false_iff.1 hgood)).trans (if_neg (not_not.2 hvlan))

theorem exec_zct_eq_zctRx {e : Instr} (he : e ∈ [Instr.zctWrite port src h data, .zctRead port src h data] ++
    (if data = [] then [.zctAck port src h] else [])) : exec e s = .next (zctRx port src h data s) := by
  rcases List.mem_append.1 he with he | he
  · rcases List.mem_pair.1 he with rfl | rfl
    · rfl
    · rfl
  · split at he
    next hdata =>
      obtain rfl := List.mem_singleton.1 he
      rw [hdata]
      rfl
    next => exact absurd he List.not_mem_nil

end

/-! ## The timers of a session -/

section
variable {s : State} (hrun : running s = true) (session : Fin 256)
include hrun

theorem exec_zctAckTimer_of_dead (hdead : zctLive s session.val = false) : exec (.zctAckTimer session) s = .next s :=
  congrArg Host.Outcome.next ((whenRunning_of_running hrun _).trans (if_pos (by simp [hdead])))

theorem exec_zctAckTimer_of_live (hlive : zctLive s session.val = true)
    (hleft : (sessOf (zctSettle s session.val) session.val).unacked ≠ 0) :
    exec (.zctAckTimer session) s = .next (zctSendAck (zctSettle s session.val) session.val) :=
  congrArg Host.Outcome.next ((whenRunning_of_running hrun _).trans ((if_neg (by simp [hlive])).trans (if_neg hleft)))

section
variable {session} {seq : BitVec 32} {b : ZBlk} (hfind : (sessOf s session.val).out.find? (fun b => b.seq == seq.toNat) = some b)
include hfind

theorem exec_zctResendTimeout_of_sent (hfence : b.fence = false) :
    exec (.zctResendTimeout session seq) s = .next (zctResend s session.val seq.toNat) := by
  refine congrArg Host.Outcome.next ((whenRunning_of_running hrun _).trans ?_)
  split
  next hnone =>
    have hseq : (b.seq == seq.toNat) = true := List.find?_some (p := fun b : ZBlk => b.seq == seq.toNat) hfind
    exact absurd (by simp [hseq, hfence]) (List.find?_eq_none.1 hnone b (List.mem_of_find?_eq_some hfind))
  next => rfl

omit hrun in
theorem zctResend_of_spent (hspent : 16 ≤ b.resends) : zctResend s session.val seq.toNat = zctLost s session.val := by
  simp only [zctResend, hfind, if_pos hspent]

end

end

/-- Settles O44: a block is heard through its frame, and each timer takes its one branch. -/
theorem blocksAreTakenInOrder : Obligations.BlocksAreTakenInOrder := by
  intro s hrun _
  refine ⟨fun port src h data u hlink hcorr hsize hu haddr hinj e he => ?_, fun session => ⟨exec_zctAckTimer_of_dead hrun session,
    exec_zctAckTimer_of_live hrun session, fun seq b hfind hfence => ⟨exec_zctResendTimeout_of_sent hrun hfind hfence, fun hspent => ?_⟩⟩⟩
  · rw [exec_zct_eq_zctRx he, zctRx_of_good hrun hlink hcorr hsize hu haddr hinj]
    refine ⟨fun hbad => congrArg _ (blockHeard_of_bad hbad), fun hgood hvlan => congrArg _ (blockHeard_of_alien hgood hvlan),
      fun v w hgood hvlan hv hw => ⟨fun hack => ?_, fun hkind => ?_⟩⟩
    · rw [blockHeard_of_own hgood hvlan hv hw, if_pos hack]
    · rw [blockHeard_of_own hgood hvlan hv hw, if_neg hkind]
  · rw [exec_zctResendTimeout_of_sent hrun hfind hfence, zctResend_of_spent hfind hspent]

end Sys2Proof.Machine
end

section
/-! Chapter 13: a management request that is next in order is served (R574 to R577). -/

namespace Sys2Proof.Machine

/-- A single request held that is next in order is served, and those that follow it. -/
theorem mgmtDrain_of_next {c : State} (hheld : c.mgmtHeld = []) {n port : Nat} (hnext : n = c.mgmtNext) (q : MgmtReq) (k : Nat) :
    mgmtDrain { c with mgmtHeld := c.mgmtHeld ++ [(n, port, q)] } (k + 1) =
      mgmtDrain (mgmtServe { c with mgmtNext := (c.mgmtNext + 1) % 2 ^ 32 } port n q) k := by
  subst hnext
  have hleft : [(c.mgmtNext, port, q)].filter (fun x => x.1 != c.mgmtNext) = c.mgmtHeld := by simp [hheld]
  simp only [mgmtDrain, hheld, List.nil_append, List.find?_cons, beq_self_eq_true, hleft]

section
variable {s u : State} {src : MgmtFrom} {seq : BitVec 32} (hnext : MgmtNext s src seq) (hu : u = mgmtTaken s src)
include hnext hu

theorem mgmtIn_of_next (q : MgmtReq) : mgmtIn src seq q s = mgmtAckOut (mgmtDrain (mgmtServe u src.port.val seq.toNat q) 16) := by
  obtain ⟨htakes, hseq, hheld⟩ := hnext
  rw [hu]
  refine (if_neg (by simp [htakes])).trans ?_
  have hdist : (seq.toNat + 2 ^ 32 - (mgmtCame s src).mgmtNext) % 2 ^ 32 = 0 := by
    rw [hseq, Nat.add_sub_cancel_left, Nat.mod_self]
  have hnew : ¬(2 ^ 31 ≤ (seq.toNat + 2 ^ 32 - (mgmtCame s src).mgmtNext) % 2 ^ 32 ∨
      ((mgmtCame s src).mgmtHeld.any (fun e => e.1 == seq.toNat)) = true) := by
    rw [hdist, hheld]
    simp
  have hnear : ¬16 ≤ (seq.toNat + 2 ^ 32 - (mgmtCame s src).mgmtNext) % 2 ^ 32 := by
    rw [hdist]
    decide
  exact (if_neg hnew).trans ((if_neg hnear).trans (congrArg mgmtAckOut (mgmtDrain_of_next hheld hseq q 16)))

/-- What serves a request gives its command's whole effect. -/
theorem mgmtIn_of_served {q : MgmtReq} {t : State} (hserve : mgmtServe u src.port.val seq.toNat q = t) :
    (.next (mgmtIn src seq q s) : Host.Outcome State Fault Refusal) = .next (mgmtAckOut (mgmtDrain t 16)) := by
  rw [mgmtIn_of_next hnext hu, hserve]

end

theorem mgmtImage_of_reserved (s : State) (ref port off total : Nat) {rsv : BitVec 32} (data : List (BitVec 8)) (hrsv : rsv ≠ 0) :
    mgmtImage s ref port off total rsv.toNat data = mgmtReply s ref refusedFormat [] :=
  if_pos (.inl fun h => hrsv (BitVec.eq_of_toNat_eq h))

theorem mgmtImage_of_part {s t : State} {ref port off total : Nat} {data : List (BitVec 8)} (hsize : data.length ≤ 1392)
    (hpart : imagePart s port off total data = (none, false, t)) : mgmtImage s ref port off total 0 data = mgmtReply t ref 0 [] := by
  rw [mgmtImage, if_neg (by omega), hpart]

/-- Settles O45: a request that is next in order is served at once, and each kind has its answer. -/
theorem managementServesInOrder : Obligations.ManagementServesInOrder := by
  intro s src seq u hnext hu
  have served {q : MgmtReq} {t : State} := mgmtIn_of_served (q := q) (t := t) hnext hu
  exact ⟨served rfl, fun offs hlen => served (if_neg (Nat.not_lt.2 hlen)), fun pairs hlen => served (if_neg (Nat.not_lt.2 hlen)),
    fun off total data => served rfl, fun vnonce filter cert => served rfl,
    fun off total rsv data hrsv => served (mgmtImage_of_reserved u _ _ _ _ data hrsv),
    fun off total data v hsize hpart => served (mgmtImage_of_part hsize hpart), served rfl,
    fun target addr => ⟨served rfl, served rfl⟩⟩

end Sys2Proof.Machine
end

section
/-! Chapter 13: acknowledgements, timers and links of the management ports (R571, R574, R577, R578, R586). -/

namespace Sys2Proof.Machine

/-! ## An acknowledgement: what it frees, then what it covers -/

/-- Is message `m` covered by the SACK `sack` after the ACK `ack` (R571)? -/
def sackCovers (ack sack : Nat) (m : MgmtOut) : Bool :=
  decide ((m.msg + 2 ^ 32 - ack - 1) % 2 ^ 32 < 64) && sack.testBit ((m.msg + 2 ^ 32 - ack - 1) % 2 ^ 32)

/-- The messages `gone` are acknowledged and `left` are not: those that come into the window of 16 go out (R574, R586). -/
def windowMoved (s : State) (gone left : List MgmtOut) : State :=
  let v := forEach gone { s with mgmtOut := left } ackFault
  forEach ((left.take 16).drop (16 - gone.length)) v (fun t m =>
    mgmtEmit { t with mgmtOut := t.mgmtOut.map (fun x => if x.msg = m.msg then { m with port := v.mgmtPort } else x) }
      { m with port := v.mgmtPort })

/-- A SACK is taken: a message behind one that it newly covers is sent again (R571). -/
def sackTaken (s : State) (ack sack : Nat) : State :=
  let news := (s.mgmtOut.take 16).filter (fun m => sackCovers ack sack m && !m.covered)
  let late := (s.mgmtOut.take 16).filter (fun m => !sackCovers ack sack m && !m.covered && news.any (fun c => seqLt m.msg c.msg))
  forEach late { s with mgmtOut := s.mgmtOut.map (fun m => { m with covered := m.covered || sackCovers ack sack m }) } mgmtEmit

theorem mgmtAckIn_eq (s : State) (ack sack : Nat) : mgmtAckIn s ack sack =
    sackTaken (windowMoved s (s.mgmtOut.filter (fun m => seqLt m.msg ack)) (s.mgmtOut.filter (fun m => !seqLt m.msg ack))) ack sack := rfl

theorem sackCovers_zero (ack : Nat) (m : MgmtOut) : sackCovers ack 0 m = false := by
  rw [sackCovers, Nat.zero_testBit, Bool.and_false]

theorem sackTaken_zero (s : State) (ack : Nat) : sackTaken s ack 0 = s := by
  have hsame : s.mgmtOut.map (fun m => { m with covered := m.covered || sackCovers ack 0 m }) = s.mgmtOut :=
    (List.map_congr_left fun m _ => by simp [sackCovers_zero]).trans (List.map_id _)
  have hnews : (s.mgmtOut.take 16).filter (fun m => sackCovers ack 0 m && !m.covered) = [] :=
    List.filter_eq_nil_iff.2 fun m _ => by simp [sackCovers_zero]
  simp only [sackTaken, hsame, hnews, List.any_nil, Bool.and_false, List.filter_false, forEach, List.foldl_nil]

/-- With nothing acknowledged the window does not move. -/
theorem windowMoved_nil (s : State) : windowMoved s [] s.mgmtOut = s := by
  have hnone : (s.mgmtOut.take 16).drop 16 = [] := List.drop_eq_nil_of_le (List.length_take_le 16 _)
  simp only [windowMoved, List.length_nil, Nat.sub_zero, hnone, forEach, List.foldl_nil]

theorem mgmtAckIn_of_none_gone {s : State} {ack : Nat} (sack : Nat) (hnone : ∀ m ∈ s.mgmtOut, seqLt m.msg ack = false) :
    mgmtAckIn s ack sack = sackTaken s ack sack := by
  have hgone : s.mgmtOut.filter (fun m => seqLt m.msg ack) = [] :=
    List.filter_eq_nil_iff.2 fun m hm => Bool.eq_false_iff.1 (hnone m hm)
  have hleft : s.mgmtOut.filter (fun m => !seqLt m.msg ack) = s.mgmtOut := List.filter_eq_self.2 fun m hm => by simp [hnone m hm]
  rw [mgmtAckIn_eq, hgone, hleft, windowMoved_nil]

theorem mgmtAckIn_of_split {s : State} {ack : Nat} {gone left : List MgmtOut} (hout : s.mgmtOut = gone ++ left)
    (hgone : ∀ m ∈ gone, seqLt m.msg ack = true) (hleft : ∀ m ∈ left, seqLt m.msg ack = false) :
    mgmtAckIn s ack 0 = windowMoved s gone left := by
  have hfst : s.mgmtOut.filter (fun m => seqLt m.msg ack) = gone := by
    rw [hout, List.filter_append, List.filter_eq_self.2 hgone, List.filter_eq_nil_iff.2 fun m hm => Bool.eq_false_iff.1 (hleft m hm),
      List.append_nil]
  have hsnd : s.mgmtOut.filter (fun m => !seqLt m.msg ack) = left := by
    rw [hout, List.filter_append, List.filter_eq_nil_iff.2 fun m hm => by simp [hgone m hm],
      List.filter_eq_self.2 fun m hm => by simp [hleft m hm], List.nil_append]
  rw [mgmtAckIn_eq, hfst, hsnd, sackTaken_zero]

theorem sackTaken_of_few {s : State} {ack sack : Nat} (hfew : s.mgmtOut.length ≤ 16) : sackTaken s ack sack =
    forEach (s.mgmtOut.filter (fun m => !sackCovers ack sack m && !m.covered &&
        (s.mgmtOut.filter (fun m => sackCovers ack sack m && !m.covered)).any (fun c => seqLt m.msg c.msg)))
      { s with mgmtOut := s.mgmtOut.map (fun m => { m with covered := m.covered || sackCovers ack sack m }) } mgmtEmit := by
  rw [sackTaken, List.take_of_length_le hfew]

theorem exec_mgmtAck_of_taken {s : State} {src : MgmtFrom} (htakes : mgmtTakes s src = true) (ack : BitVec 32) :
    exec (.mgmtAck src ack) s = .next (mgmtAckIn (mgmtHeard s src) ack.toNat src.sack.toNat) :=
  congrArg Host.Outcome.next (if_neg (by simp [htakes]))

theorem exec_mgmtAck_of_stranger {s : State} {src : MgmtFrom} (hstranger : mgmtTakes s src = false) (ack : BitVec 32) :
    exec (.mgmtAck src ack) s = .next s := congrArg Host.Outcome.next (if_pos (by simp [hstranger]))

/-! ## The resend timer -/

section
variable {s : State} (hup : s.stbyUp = true) {msg : BitVec 32} {m : MgmtOut}
    (hfind : (s.mgmtOut.take 16).find? (fun m => m.msg == msg.toNat && !m.covered) = some m)
include hup hfind

theorem exec_mgmtResendTimeout_of_alone (hfar : mgmtUp s (1 - m.port) = 0) (honly : ∀ x ∈ s.mgmtOut, x.msg = m.msg → x = m) :
    exec (.mgmtResendTimeout msg) s = .next (mgmtEmit s m) := by
  have hsame : s.mgmtOut.map (fun x => if x.msg == m.msg then m else x) = s.mgmtOut := by
    refine (List.map_congr_left fun x hx => ?_).trans (List.map_id _)
    split
    next hmsg => exact (honly x hx (beq_iff_eq.1 hmsg)).symm
    next => rfl
  refine congrArg Host.Outcome.next ((if_neg (by simp [hup])).trans ?_)
  simp only [hfind, hfar, bne_self_eq_false, Bool.false_eq_true, if_false, hsame]

theorem exec_mgmtResendTimeout_of_failover (hfar : mgmtUp s (1 - m.port) ≠ 0) : exec (.mgmtResendTimeout msg) s =
    .next (mgmtEmit { setBit s rMgmtErr 2 with
      mgmtOut := s.mgmtOut.map (fun x => if x.msg = m.msg then { m with port := 1 - m.port } else x) } { m with port := 1 - m.port }) := by
  refine congrArg Host.Outcome.next ((if_neg (by simp [hup])).trans ?_)
  simp only [hfind, bne_iff_ne.2 hfar, if_true, beq_iff_eq, setBit_mgmtOut]

end

/-- Settles O46: what an acknowledgement frees and covers, and the one branch of each timer and link. -/
theorem managementLinksAndTimers : Obligations.ManagementLinksAndTimers := by
  intro s
  refine ⟨fun hup => ⟨congrArg Host.Outcome.next (if_neg (by simp [hup])), fun src ack u hu => ?_,
    fun msg m hfind => exec_mgmtResendTimeout_of_alone hup hfind, fun msg m hfind => exec_mgmtResendTimeout_of_failover hup hfind,
    fun port => ⟨fun hport => ?_, fun hport => ?_⟩⟩, fun hdown => ?_⟩
  · subst hu
    refine ⟨fun hstranger => exec_mgmtAck_of_stranger hstranger ack, fun htakes hnone hfew => ⟨fun hsack => ?_, ?_⟩, ?_⟩
    · rw [exec_mgmtAck_of_taken htakes, mgmtAckIn_of_none_gone (s := mgmtHeard s src) _ hnone, hsack]
      exact congrArg Host.Outcome.next (sackTaken_zero _ _)
    · rintro covered late rfl rfl
      rw [exec_mgmtAck_of_taken htakes, mgmtAckIn_of_none_gone (s := mgmtHeard s src) _ hnone]
      exact congrArg Host.Outcome.next (sackTaken_of_few (s := mgmtHeard s src) hfew)
    · rintro gone left v htakes hsack hout hgone hleft rfl
      rw [exec_mgmtAck_of_taken htakes, hsack]
      exact congrArg Host.Outcome.next (mgmtAckIn_of_split (s := mgmtHeard s src) hout hgone hleft)
  · exact congrArg Host.Outcome.next (if_neg (by simp [hup, hport]))
  · exact congrArg Host.Outcome.next (if_neg (by simp [hup, hport]))
  · have hstranger (src : MgmtFrom) : mgmtTakes s src = false := by rw [mgmtTakes, hdown, Bool.false_and, Bool.false_and]
    exact ⟨congrArg Host.Outcome.next (if_pos (by simp [hdown])), fun src => exec_mgmtAck_of_stranger (hstranger src),
      fun msg => congrArg Host.Outcome.next (if_pos (by simp [hdown])), fun port =>
      ⟨congrArg Host.Outcome.next (if_pos (by simp [hdown])), congrArg Host.Outcome.next (if_pos (by simp [hdown]))⟩⟩

end Sys2Proof.Machine
end

section
/-! Chapter 15: a composition command is checked and then taken (R659 to R664). -/

namespace Sys2Proof.Machine

theorem running_of_serving {s : State} {w op : Nat} (hserve : serving s w op = true) : running s = true := by
  simp only [serving, Bool.and_eq_true] at hserve
  obtain ⟨⟨⟨⟨hrun, _⟩, _⟩, _⟩, _⟩ := hserve
  exact hrun

/-! ## The check of a command, in its order -/

section
variable {s : State} {b : Nat}

theorem composeCheck_of_malformed (hformat : composeFormat s b = none) : composeCheck s b = (.refused 2 3 0, s) := by
  rw [composeCheck, hformat]

section
variable {ops : List CompOp} (hformat : composeFormat s b = some ops)
include hformat

theorem composeCheck_of_recovery (hboot : bootState s = 1) : composeCheck s b = (.refused 2 17 0, s) := by
  rw [composeCheck, hformat]
  exact if_pos (.inl hboot)

section
variable (hrun : running s = true) (hboot : bootState s ≠ 1) (hrip : ripHeld s = false) {t : State}
include hrun hboot hrip

theorem composeCheck_of_unsigned (hsign : composeSigned s b = (false, t)) :
    composeCheck s b = (.refused 2 19 0, bootLog t 9 (bootBit 9) 0) := by
  simp [composeCheck, hformat, hrun, hboot, hrip, hsign]

variable (hsign : composeSigned s b = (true, t))
include hsign

theorem composeCheck_of_refused {i st de : Nat} (hops : compOps (t.readN (b + 70) 1) { s := t } 0 ops = .inr (i, st, de)) :
    composeCheck s b = (.refused st de i, t) := by
  simp [composeCheck, hformat, hrun, hboot, hrip, hsign, hops]

theorem composeCheck_of_applied {c : CompSt} (hops : compOps (t.readN (b + 70) 1) { s := t } 0 ops = .inl c) : composeCheck s b =
    (.accepted { c with s := regSet c.s (rBoot (0x90 + 8 * t.readN (b + 70) 1)) (BitVec.ofNat 64 (t.readN (b + 88) 8)) }
      (t.readN (b + 88) 8), t) := by
  simp [composeCheck, hformat, hrun, hboot, hrip, hsign, hops]

end

end

end

/-! ## What its window answers -/

section
variable {s t : State} {w : Fin 1024} (hserve : serving s w.val 0x10 = true)
include hserve

theorem exec_compose_of_refused {st de v : Nat} (hcheck : composeCheck s (winOff w.val 0) = (.refused st de v, t)) :
    exec (.compose w) s = .next (complete (countRefusal t w.val) w.val { status := st, detail := de, v0 := v }) :=
  congrArg Host.Outcome.next ((if_neg (by simp [hserve])).trans (by rw [hcheck]))

theorem exec_compose_of_accepted {c : CompSt} {q : Nat} (hcheck : composeCheck s (winOff w.val 0) = (.accepted c q, t)) :
    exec (.compose w) s = .next (composeAccept c w.val 0 0 q) :=
  congrArg Host.Outcome.next ((if_neg (by simp [hserve])).trans (by rw [hcheck]))

end

/-- Settles O31: the check answers in its order, and the window completes with the answer. -/
theorem signedCommandsAreChecked : Obligations.SignedCommandsAreChecked := by
  intro s w hserve
  have hrun := running_of_serving hserve
  refine ⟨fun hformat => exec_compose_of_refused hserve (composeCheck_of_malformed hformat),
    fun ops hformat hboot => exec_compose_of_refused hserve (composeCheck_of_recovery hformat hboot),
    fun ops hformat hboot hrip => ⟨fun t hsign => ?_, fun t hsign => ⟨fun i st de hops => ?_, fun c u hops hu => ?_⟩⟩⟩
  · exact exec_compose_of_refused hserve (composeCheck_of_unsigned hformat hrun hboot hrip hsign)
  · exact exec_compose_of_refused hserve (composeCheck_of_refused hformat hrun hboot hrip hsign hops)
  · rw [hu]
    exact exec_compose_of_accepted hserve (composeCheck_of_applied hformat hrun hboot hrip hsign hops)

end Sys2Proof.Machine
end

section
/-! Chapter 15: a sweep that has written its buffer ends as soon as an operation is taken, though no home has anything in service (R251). -/

namespace Sys2Proof.Machine

/-- The state after reset, with the sweep of host 0 at its last stage: its buffer's last write has ended. -/
def endingSweep : State := { State.reset with sweeps := [{ host := 0, off := 0, len := 8, stage := 2 }] }

theorem homesIdle_endingSweep : HomesIdle endingSweep := ⟨rfl, rfl, rfl, rfl, rfl, rfl⟩

/-- Taking an operation carries the homes on, and the sweep ends. -/
theorem sweeps_taken_endingSweep : (taken endingSweep).sweeps = [] := by decide +kernel

/-- Refutes O32: homes with nothing in service may still have a sweep to end, and then taking an operation changes the state. -/
theorem not_compositionOperationsApply : ¬ Obligations.CompositionOperationsApply := by
  intro h
  have hsame : taken endingSweep = endingSweep := h.1 endingSweep homesIdle_endingSweep
  have hsweeps : endingSweep.sweeps = [] := hsame ▸ sweeps_taken_endingSweep
  exact List.cons_ne_nil _ _ hsweeps

end Sys2Proof.Machine
end

section
/-! Every function of the model keeps the queue of commands, and with it the canonical form of memory, of the register file and of the
arrival counters (chapters 02 and 04). A function `f` of the model has the lemma `Keeps.f`: from a state that `s` keeps, `f` answers
one that `s` keeps. So the lemmas compose as the functions do: `h.f.g` is the proof for `g` after `f`, and a proof opens a definition only
where it branches. They stand in the order of the model, each after those that it cites. -/

namespace Sys2Proof.Machine

section
variable {s t u : State} {α : Type}

/-- `t` has the queue of `s`, and its memory, registers and arrival counters are canonical when those of `s` are. -/
structure Keeps (s t : State) : Prop where
  pending : t.pending = s.pending
  canonical : Canonical s → Canonical t

theorem Keeps.refl (s : State) : Keeps s s := ⟨rfl, id⟩

/-- A change of anything but the queue and the three canonical maps. -/
theorem Keeps.frame {
    poison dir filt store trk retry blockq recallq wbq covers coverSent restoreq credHeld areas wins keptCpl inj out free seq mgmtOut
    mgmtMsg freeFrames dirtyFrames draftUnits mgmtPort mgmtFar draftMaps medUse medResv tierCache fetches fetchDoms lost shadows degraded
    toRestore sess lathQ engQ kernels readyNo fireNo planLoads peerOuts planDigests lathes granules replicas reels reelStamp reelTxn missq
    kstamps dumps streamUnits streamWait lineBuf poolMap ringPos versions verUnits pubs hangs rowTurn kiteNo ctxs kites cplWait bands locs
    metaLocs logSeq progs logQ logPtr parPtr decQ decisions regRecs rebuilt stripes parUnits contribs quadGeo chanRates blockTab badBlocks
    remaps spares lunTmo lunOut targetBytes reading unpowered sentinels scrubs lateQ rebuildAt foreign retracts copying recovs nameds
    links cells swOut swIn swTurn swLive swSpent mirCnt fabReqs agentq agentReqs agentTxn farGot fwdWrites swInTurn swCycles reelWaits
    wbParts reelParts resetAt aonUp stbyUp xtal wake stay resetLow thermTrip forceRecovery hotJ ballastQ clocked coolRun stepAt pmbFails
    imgRx imgWrite imgPort cmpRx cmpWait sweeps owner production tsEn tsOpen tsWait mgmtIdle mgmtAddr mgmtNext ethAddr pfcQ paused xoff
    tetherSeen pmcHeld tagRegs tagFresh jtag boundary rails pace imgFlags mgmtHeld : _} (h : Keeps s t) : Keeps s { t with
    poison, dir, filt, store, trk, retry, blockq, recallq, wbq, covers, coverSent, restoreq, credHeld, areas, wins, keptCpl, inj, out,
    free, seq, mgmtOut, mgmtMsg, freeFrames, dirtyFrames, draftUnits, mgmtPort, mgmtFar, draftMaps, medUse, medResv, tierCache, fetches,
    fetchDoms, lost, shadows, degraded, toRestore, sess, lathQ, engQ, kernels, readyNo, fireNo, planLoads, peerOuts, planDigests, lathes,
    granules, replicas, reels, reelStamp, reelTxn, missq, kstamps, dumps, streamUnits, streamWait, lineBuf, poolMap, ringPos, versions,
    verUnits, pubs, hangs, rowTurn, kiteNo, ctxs, kites, cplWait, bands, locs, metaLocs, logSeq, progs, logQ, logPtr, parPtr, decQ,
    decisions, regRecs, rebuilt, stripes, parUnits, contribs, quadGeo, chanRates, blockTab, badBlocks, remaps, spares, lunTmo, lunOut,
    targetBytes, reading, unpowered, sentinels, scrubs, lateQ, rebuildAt, foreign, retracts, copying, recovs, nameds, links, cells, swOut,
    swIn, swTurn, swLive, swSpent, mirCnt, fabReqs, agentq, agentReqs, agentTxn, farGot, fwdWrites, swInTurn, swCycles, reelWaits,
    wbParts, reelParts, resetAt, aonUp, stbyUp, xtal, wake, stay, resetLow, thermTrip, forceRecovery, hotJ, ballastQ, clocked, coolRun,
    stepAt, pmbFails, imgRx, imgWrite, imgPort, cmpRx, cmpWait, sweeps, owner, production, tsEn, tsOpen, tsWait, mgmtIdle, mgmtAddr,
    mgmtNext, ethAddr, pfcQ, paused, xoff, tetherSeen, pmcHeld, tagRegs, tagFresh, jtag, boundary, rails, pace, imgFlags, mgmtHeld } :=
  ⟨h.pending, h.canonical⟩

theorem Keeps.ite {a b : State} {c : Prop} {_ : Decidable c} (ha : Keeps s a) (hb : Keeps s b) : Keeps s (if c then a else b) := by
  split <;> assumption

theorem Keeps.dite {c : Prop} {_ : Decidable c} {a : c → State} {b : ¬c → State} (ha : ∀ h, Keeps s (a h)) (hb : ∀ h, Keeps s (b h)) :
    Keeps s (dite c a b) := by
  split <;> simp [*]

theorem Keeps.foldl {l : List α} {f : State → α → State} (h : Keeps s t) (hf : ∀ u x, Keeps s u → Keeps s (f u x)) :
    Keeps s (l.foldl f t) := by
  induction l generalizing t with
  | nil => exact h
  | cons x xs ih => exact ih (hf t x h)

theorem Keeps.iteFst {a b : State × α} {c : Prop} {_ : Decidable c} (ha : Keeps s a.1) (hb : Keeps s b.1) :
    Keeps s (if c then a else b).1 := by
  split <;> assumption
theorem Keeps.iteSnd {a b : α × State} {c : Prop} {_ : Decidable c} (ha : Keeps s a.2) (hb : Keeps s b.2) :
    Keeps s (if c then a else b).2 := by
  split <;> assumption
theorem Keeps.inFst {a : α} (h : Keeps s u) : Keeps s (u, a).1 := h
theorem Keeps.inSnd {a : α} (h : Keeps s u) : Keeps s (a, u).2 := h
theorem Keeps.fst {p : State × α} {a : α} (h : Keeps s p.1) (e : p = (u, a)) : Keeps s u := by subst e; exact h
theorem Keeps.snd {p : α × State} {a : α} (h : Keeps s p.2) (e : p = (a, u)) : Keeps s u := by subst e; exact h

theorem Keeps.sndSnd {β : Type} {p : α × β × State} {a : α} {b : β} (h : Keeps s p.2.2) (e : p = (a, b, u)) : Keeps s u := by
  subst e; exact h
/-- A pair whose state is kept is taken apart. -/
theorem Keeps.sndThen {p : α × State} {a : α} {C : Prop} (hp : Keeps s p.2) (k : Keeps s u → C) (e : p = (a, u)) : C := k (hp.snd e)
theorem Keeps.fstThen {p : State × α} {a : α} {C : Prop} (hp : Keeps s p.1) (k : Keeps s u → C) (e : p = (u, a)) : C := k (hp.fst e)

/-- What an outcome of each type carries is kept. -/
def KeepsOpt (s : State) (o : Option State) : Prop := ∀ u, o = some u → Keeps s u
def KAcc.Keeps (s : State) : KAcc α → Prop
  | .ok _ u => Machine.Keeps s u
  | .fault _ u => Machine.Keeps s u
  | .wait u => Machine.Keeps s u
def Start.Keeps (s : State) : Start α → Prop
  | .ok _ u => Machine.Keeps s u
  | .fault _ _ u => Machine.Keeps s u
  | .wait u => Machine.Keeps s u
def SpoolRun.Keeps (s : State) : SpoolRun α → Prop
  | .ok _ u => Machine.Keeps s u
  | .fault _ _ u => Machine.Keeps s u
  | .wait u => Machine.Keeps s u
def Slot.Keeps (s : State) : Slot → Prop
  | .ok u => Machine.Keeps s u
  | .fault _ _ u => Machine.Keeps s u
  | .stall => True
def Pre.Keeps (s : State) : Pre → Prop
  | .go u => Machine.Keeps s u
  | _ => True
def Alloc.Keeps (s : State) : Alloc → Prop
  | .ok u => Machine.Keeps s u
  | _ => True
def CompRes.Keeps (s : State) : CompRes → Prop
  | .ok c => Machine.Keeps s c.s
  | .bad _ _ => True
def CRes.Keeps (s : State) : CRes → Prop
  | .next _ u => Machine.Keeps s u
  | .stay u => Machine.Keeps s u
  | .fault _ _ u => Machine.Keeps s u
def Verdict.Keeps (s : State) : Verdict → Prop
  | .refused _ _ _ => True
  | .accepted c _ => Machine.Keeps s c.s

section
variable {o a b : Option State} {c : Prop} {_ : Decidable c}
theorem KeepsOpt.some (h : Keeps s u) : KeepsOpt s (some u) := fun _ e => Option.some.inj e ▸ h
theorem KeepsOpt.none : KeepsOpt s none := fun _ e => nomatch e
theorem KeepsOpt.ite (ha : KeepsOpt s a) (hb : KeepsOpt s b) : KeepsOpt s (if c then a else b) := by split <;> assumption
end
section
variable {r a b : KAcc α} {c : Prop} {_ : Decidable c}
theorem KAcc.Keeps.of (h : KAcc.Keeps s r) (e : r = a) : KAcc.Keeps s a := e ▸ h
theorem KAcc.Keeps.ok {v : α} (h : KAcc.Keeps s r) (e : r = .ok v u) : Machine.Keeps s u := h.of e
theorem KAcc.Keeps.fault {c : Nat} (h : KAcc.Keeps s r) (e : r = .fault c u) : Machine.Keeps s u := h.of e
theorem KAcc.Keeps.wait (h : KAcc.Keeps s r) (e : r = .wait u) : Machine.Keeps s u := h.of e
theorem KAcc.Keeps.ite (ha : KAcc.Keeps s a) (hb : KAcc.Keeps s b) : KAcc.Keeps s (if c then a else b) := by split <;> assumption
end
section
variable {r a b : Start α} {c : Prop} {_ : Decidable c}
theorem Start.Keeps.of (h : Start.Keeps s r) (e : r = a) : Start.Keeps s a := e ▸ h
theorem Start.Keeps.ok {v : α} (h : Start.Keeps s r) (e : r = .ok v u) : Machine.Keeps s u := h.of e
theorem Start.Keeps.fault {c a : Nat} (h : Start.Keeps s r) (e : r = .fault c a u) : Machine.Keeps s u := h.of e
theorem Start.Keeps.wait (h : Start.Keeps s r) (e : r = .wait u) : Machine.Keeps s u := h.of e
theorem Start.Keeps.ite (ha : Start.Keeps s a) (hb : Start.Keeps s b) : Start.Keeps s (if c then a else b) := by split <;> assumption
end
section
variable {r a b : SpoolRun α} {c : Prop} {_ : Decidable c}
theorem SpoolRun.Keeps.of (h : SpoolRun.Keeps s r) (e : r = a) : SpoolRun.Keeps s a := e ▸ h
theorem SpoolRun.Keeps.ok {v : α} (h : SpoolRun.Keeps s r) (e : r = .ok v u) : Machine.Keeps s u := h.of e
theorem SpoolRun.Keeps.fault {c a : Nat} (h : SpoolRun.Keeps s r) (e : r = .fault c a u) : Machine.Keeps s u := h.of e
theorem SpoolRun.Keeps.wait (h : SpoolRun.Keeps s r) (e : r = .wait u) : Machine.Keeps s u := h.of e
theorem SpoolRun.Keeps.ite (ha : SpoolRun.Keeps s a) (hb : SpoolRun.Keeps s b) :
    SpoolRun.Keeps s (if c then a else b) := by split <;> assumption
theorem SpoolRun.Keeps.iteSnd {β : Type} {a b : β × SpoolRun α} (ha : SpoolRun.Keeps s a.2) (hb : SpoolRun.Keeps s b.2) :
    SpoolRun.Keeps s (if c then a else b).2 := by split <;> assumption
end
section
variable {r a b : Slot} {c : Prop} {_ : Decidable c}
theorem Slot.Keeps.of (h : Slot.Keeps s r) (e : r = a) : Slot.Keeps s a := e ▸ h
theorem Slot.Keeps.ite (ha : Slot.Keeps s a) (hb : Slot.Keeps s b) : Slot.Keeps s (if c then a else b) := by split <;> assumption
end
section
variable {r a b : Pre} {c : Prop} {_ : Decidable c}
theorem Pre.Keeps.of (h : Pre.Keeps s r) (e : r = a) : Pre.Keeps s a := e ▸ h
theorem Pre.Keeps.ite (ha : Pre.Keeps s a) (hb : Pre.Keeps s b) : Pre.Keeps s (if c then a else b) := by split <;> assumption
end
section
variable {r a b : Alloc} {c : Prop} {_ : Decidable c}
theorem Alloc.Keeps.of (h : Alloc.Keeps s r) (e : r = a) : Alloc.Keeps s a := e ▸ h
theorem Alloc.Keeps.ite (ha : Alloc.Keeps s a) (hb : Alloc.Keeps s b) : Alloc.Keeps s (if c then a else b) := by split <;> assumption
end
section
variable {r a b : CompRes} {c : Prop} {_ : Decidable c}
theorem CompRes.Keeps.of (h : CompRes.Keeps s r) (e : r = a) : CompRes.Keeps s a := e ▸ h
theorem CompRes.Keeps.ite (ha : CompRes.Keeps s a) (hb : CompRes.Keeps s b) :
    CompRes.Keeps s (if c then a else b) := by split <;> assumption
end
section
variable {r a b : CRes} {c : Prop} {_ : Decidable c}
theorem CRes.Keeps.of (h : CRes.Keeps s r) (e : r = a) : CRes.Keeps s a := e ▸ h
theorem CRes.Keeps.ite (ha : CRes.Keeps s a) (hb : CRes.Keeps s b) : CRes.Keeps s (if c then a else b) := by split <;> assumption
end
theorem KeepsOpt.of {o a : Option State} (h : KeepsOpt s o) (e : o = a) : KeepsOpt s a := e ▸ h
theorem KeepsOpt.get {o : Option State} (h : KeepsOpt s o) (e : o = .some u) : Keeps s u := h u e
theorem KeepsOpt.getSnd {o : Option (α × State)} {a : α} (h : KeepsOpt s (o.map Prod.snd)) (e : o = .some (a, u)) : Keeps s u :=
  h u (by rw [e]; rfl)
theorem KeepsOpt.map {o : Option State} {f : State → State} (h : KeepsOpt s o) (hf : ∀ u, Keeps s u → Keeps s (f u)) :
    KeepsOpt s (o.map f) := by
  cases o with
  | none => exact .none
  | some u => exact .some (hf u (h u rfl))
theorem KeepsOpt.mapSnd {o : Option (α × State)} {f : α × State → State} (h : KeepsOpt s (o.map Prod.snd))
    (hf : ∀ p, Keeps s p.2 → Keeps s (f p)) : KeepsOpt s (o.map f) := by
  cases o with
  | none => exact .none
  | some p => exact .some (hf p (h p.2 rfl))
theorem KeepsOpt.getD {o : Option State} (h : KeepsOpt s o) (ht : Keeps s t) : Keeps s (o.getD t) := by
  cases o with
  | none => exact ht
  | some u => exact h u rfl
theorem SpoolRun.Keeps.snd_ok {β : Type} {p : β × SpoolRun α} {b : β} {v : α} (h : SpoolRun.Keeps s p.2) (e : p = (b, .ok v u)) :
    Machine.Keeps s u := by subst e; exact h
theorem SpoolRun.Keeps.snd_fault {β : Type} {p : β × SpoolRun α} {b : β} {c a : Nat} (h : SpoolRun.Keeps s p.2)
    (e : p = (b, .fault c a u)) : Machine.Keeps s u := by subst e; exact h
theorem SpoolRun.Keeps.snd_wait {β : Type} {p : β × SpoolRun α} {b : β} (h : SpoolRun.Keeps s p.2) (e : p = (b, .wait u)) :
    Machine.Keeps s u := by subst e; exact h
/-- What the functions that an engine's kind names keep. -/
structure EngKind.Keeps (e : EngKind) : Prop where
  put {s t n c} : Machine.Keeps s t → Machine.Keeps s (e.put t n c)
  fault {s t n a b} : Machine.Keeps s t → Machine.Keeps s (e.fault t n a b)
  cycle {s t n a} : Machine.Keeps s t → Machine.Keeps s (e.cycle t n a)
theorem Slot.Keeps.ok {r : Slot} (h : Slot.Keeps s r) (e : r = .ok u) : Machine.Keeps s u := h.of e
theorem Slot.Keeps.fault {r : Slot} {c a : Nat} (h : Slot.Keeps s r) (e : r = .fault c a u) : Machine.Keeps s u := h.of e
theorem Pre.Keeps.go {r : Pre} (h : Pre.Keeps s r) (e : r = .go u) : Machine.Keeps s u := h.of e
theorem Alloc.Keeps.ok {r : Alloc} (h : Alloc.Keeps s r) (e : r = .ok u) : Machine.Keeps s u := h.of e
theorem CompRes.Keeps.ok {r : CompRes} {c : CompSt} (h : CompRes.Keeps s r) (e : r = .ok c) : Machine.Keeps s c.s := h.of e
theorem CRes.Keeps.next {r : CRes} {c : Ctx} (h : CRes.Keeps s r) (e : r = .next c u) : Machine.Keeps s u := h.of e
theorem CRes.Keeps.stay {r : CRes} (h : CRes.Keeps s r) (e : r = .stay u) : Machine.Keeps s u := h.of e
theorem CRes.Keeps.fault {r : CRes} {c a : Nat} (h : CRes.Keeps s r) (e : r = .fault c a u) : Machine.Keeps s u := h.of e
/-- What the reading of a tensor operation's operands keeps: what it has read, or its fault. -/
def TensorRead.Keeps (s : State) : (α × State) ⊕ (Nat × Nat × State) → Prop
  | .inl p => Machine.Keeps s p.2
  | .inr p => Machine.Keeps s p.2.2
theorem TensorRead.Keeps.inl {r : (α × State) ⊕ (Nat × Nat × State)} {v : α} (h : TensorRead.Keeps s r) (e : r = .inl (v, u)) :
    Machine.Keeps s u := by subst e; exact h
theorem TensorRead.Keeps.inr {r : (α × State) ⊕ (Nat × Nat × State)} {p : Nat × Nat × State} (h : TensorRead.Keeps s r) (e : r = .inr p) :
    Machine.Keeps s p.2.2 := by subst e; exact h
theorem Verdict.Keeps.accepted {p : Verdict × State} {c : CompSt} {q : Nat} (h : Verdict.Keeps s p.1) (e : p = (.accepted c q, u)) :
    Machine.Keeps s c.s := by subst e; exact h
theorem Verdict.Keeps.pair {p : Verdict × State} {v : Verdict} (h : Verdict.Keeps s p.1 ∧ Machine.Keeps s p.2) (e : p = (v, u)) :
    Verdict.Keeps s v ∧ Machine.Keeps s u := by subst e; exact h

/-- A change of memory that keeps its canonical form. -/
theorem Keeps.memory (h : Keeps s t) (hm : Memory.wf t.mem → Memory.wf u.mem) (hp : u.pending = t.pending := by rfl)
    (hr : u.regs = t.regs := by rfl) (hc : u.counters = t.counters := by rfl) : Keeps s u :=
  ⟨hp.trans h.pending, fun hs =>
    have ⟨hmem, hregs, hctr⟩ := h.canonical hs
    ⟨hm hmem, by rwa [hr], by rwa [hc]⟩⟩

theorem Keeps.foldlFst {β : Type} {l : List α} {f : State × β → α → State × β} {p : State × β} (h : Keeps s p.1)
    (hf : ∀ p x, Keeps s p.1 → Keeps s (f p x).1) : Keeps s (l.foldl f p).1 := by
  induction l generalizing p with
  | nil => exact h
  | cons x xs ih => exact ih (hf p x h)

theorem Keeps.foldlSnd {β : Type} {l : List α} {f : β × State → α → β × State} {p : β × State} (h : Keeps s p.2)
    (hf : ∀ p x, Keeps s p.2 → Keeps s (f p x).2) : Keeps s (l.foldl f p).2 := by
  induction l generalizing p with
  | nil => exact h
  | cons x xs ih => exact ih (hf p x h)

/-- The registers that outlive a whole-device reset stay canonical (R641). -/
theorem regsCanon_afterReset {m : List (Nat × Word)} (h : regsCanon m) : regsCanon (m.filterMap (fun e =>
    let v := afterReset e.1 e.2; if v = regReset e.1 then none else some (e.1, v))) := by
  have key : ∀ (e e' : Nat × Word), (if afterReset e.1 e.2 = regReset e.1 then none else some (e.1, afterReset e.1 e.2)) = some e' →
      e'.1 = e.1 ∧ e'.2 ≠ regReset e'.1 := by
    intro e e' he
    split at he
    · exact nomatch he
    next hne => cases he; exact ⟨rfl, hne⟩
  refine ⟨h.1.filterMap _ fun a b hab a' ha b' hb => ?_, fun e he => ?_⟩
  · rw [(key a a' ha).1, (key b b' hb).1]; exact hab
  · obtain ⟨a, -, ha⟩ := List.mem_filterMap.1 he
    exact (key a e ha).2

/-- No register in the range of the performance counters has a reset value. -/
theorem regReset_pmc {off : Nat} (hlo : 0x7000000 ≤ off) (hhi : off < 0x7000000 + 0x200 * 207) : regReset off = 0 := by
  have htab : ∀ r ∈ regTable, r.reset = 0 ∨ r.base + r.n1 * r.s1 ≤ 0x7000000 ∨ 0x7000000 + 0x200 * 207 ≤ r.base := by decide +kernel
  have hs1 : ∀ r ∈ regTable, 0 < r.s1 := by decide +kernel
  unfold regReset
  rw [if_neg (by omega), if_neg (by omega)]
  split
  next r hr =>
    have hmem : r ∈ regTable := List.mem_of_find?_eq_some hr
    have hhas : r.has off = true := by simpa using List.find?_some hr
    simp only [RegRow.has, Bool.and_eq_true, decide_eq_true_eq] at hhas
    obtain ⟨⟨⟨hb, hn⟩, -⟩, -⟩ := hhas
    have hlt : off - r.base < r.n1 * r.s1 := (Nat.div_lt_iff_lt_mul (hs1 r hmem)).1 hn
    rcases htab r hmem with h0 | hl | hh
    · rw [h0]; rfl
    · omega
    · omega
  · rfl

theorem Sparse.canon_foldl_ins {d : Nat → α} (l : List (Nat × α)) {m : List (Nat × α)} (hm : Sparse.canon d m) (hl : ∀ e ∈ l, e.2 ≠ d e.1) :
    Sparse.canon d (l.foldl (fun m e => Sparse.ins m e.1 e.2) m) := by
  induction l generalizing m with
  | nil => exact hm
  | cons x xs ih =>
    refine ih ⟨Sparse.ins_pairwise _ _ hm.1, fun e he => ?_⟩ fun e he => hl e (List.mem_cons_of_mem _ he)
    rcases Sparse.mem_ins he with rfl | he
    · exact hl x (List.mem_cons_self ..)
    · exact hm.2 e he

/-- A snapshot's copies stay canonical: neither a counter nor its copy has a reset value (R715). -/
theorem regsCanon_snapshot {m : List (Nat × Word)} (h : regsCanon m) : regsCanon (((m.filter (fun e => pmcAt e.1 0x80)).map (fun e =>
    (e.1 + 0x80, e.2))).foldl (fun m e => Sparse.ins m e.1 e.2) (m.filter (fun e => !pmcAt e.1 0x100))) := by
  refine Sparse.canon_foldl_ins _ (Sparse.canon_filter _ h) fun e he => ?_
  obtain ⟨c, hc, rfl⟩ := List.mem_map.1 he
  obtain ⟨hmem, hat⟩ := List.mem_filter.1 hc
  simp only [pmcAt, Bool.and_eq_true, decide_eq_true_eq] at hat
  have hv := h.2 c hmem
  rw [regReset_pmc (by omega) (by omega)] at hv ⊢
  exact hv

/-! ### Registers, sticky bits and counts -/

theorem Keeps.regSet {off : Nat} {v : Word} (h : Keeps s t) : Keeps s (regSet t off v) :=
  ⟨h.pending, fun hs => have ⟨hm, hr, hc⟩ := h.canonical hs; ⟨hm, Sparse.canon_set off v hr, hc⟩⟩

theorem Keeps.regPut {off hi lo v : Nat} (h : Keeps s t) : Keeps s (regPut t off hi lo v) := h.regSet

theorem Keeps.setBit {off b : Nat} (h : Keeps s t) : Keeps s (setBit t off b) := h.regPut

theorem Keeps.clrBit {off b : Nat} (h : Keeps s t) : Keeps s (clrBit t off b) := h.regPut

theorem Keeps.addCnt {off n : Nat} (h : Keeps s t) : Keeps s (addCnt t off n) := h.regPut

theorem Keeps.incCnt {off : Nat} (h : Keeps s t) : Keeps s (incCnt t off) := h.addCnt

theorem Keeps.regAdd {off hi lo n : Nat} (h : Keeps s t) : Keeps s (regAdd t off hi lo n) := h.regPut

theorem Keeps.regSub {off hi lo n : Nat} (h : Keeps s t) : Keeps s (regSub t off hi lo n) := h.regPut

theorem Keeps.regSetList {off : Nat} {ws : List Word} (h : Keeps s t) : Keeps s (regSetList t off ws) := by
  induction ws generalizing t off with
  | nil => exact h
  | cons w ws ih => exact ih h.regSet

theorem Keeps.forEach {α : Type} {l : List α} {f : State → α → State} (h : Keeps s t) (hf : ∀ u x, Keeps s u → Keeps s (f u x)) :
    Keeps s (forEach l t f) :=
  h.foldl fun _ _ h1 => hf _ _ h1

theorem Keeps.drawFree (h : Keeps s t) : Keeps s (drawFree t).2 := .inSnd h.frame

theorem Keeps.drawFrees {k : Nat} (h : Keeps s t) : Keeps s (drawFrees t k).2 := .inSnd h.frame

theorem Keeps.takeInj {off kind : Nat} {p : Nat → Bool} (h : Keeps s t) : KeepsOpt s ((takeInj t off kind p).map Prod.snd) := by
  unfold Machine.takeInj
  split
  · exact .none
  · exact .some (.ite h h.frame)
theorem Keeps.takeInjUnless {off kind : Nat} {p : Nat → Bool} {c : Prop} {_ : Decidable c} (h : Keeps s t) :
    KeepsOpt s ((if c then none else Machine.takeInj t off kind p).map Prod.snd) := by
  split; exacts [.none, h.takeInj]
theorem Keeps.takeInjWhen {off kind : Nat} {p : Nat → Bool} {c : Prop} {_ : Decidable c} (h : Keeps s t) :
    KeepsOpt s ((if c then Machine.takeInj t off kind p else none).map Prod.snd) := by
  split; exacts [h.takeInj, .none]

theorem Keeps.armInj {off kind arg : Nat} {persist : Bool} (h : Keeps s t) : Keeps s (armInj t off kind arg persist) := h.frame

theorem Keeps.clearInj {off : Nat} (h : Keeps s t) : Keeps s (clearInj t off) := h.frame

theorem Keeps.whenRunning {f : State → State} (h : Keeps s t) (hf : ∀ u, Keeps s u → Keeps s (f u)) : Keeps s (whenRunning t f) :=
  .ite (hf _ h) h

theorem Keeps.pmcAdd {b i n : Nat} (h : Keeps s t) : Keeps s (pmcAdd t b i n) :=
  .ite h.regPut (.ite h.regPut.setBit.setBit h.regPut.setBit)

theorem Keeps.pmc {b i n : Nat} {dom : Option Nat} (h : Keeps s t) : Keeps s (pmc t b i n dom) := .ite h h.pmcAdd

theorem Keeps.pmcEnd {b i n : Nat} {dom : Option Nat} (h : Keeps s t) : Keeps s (pmcEnd t b i n dom) :=
  .ite h (.ite h.frame h.pmcAdd)

theorem Keeps.send {o : Out} (h : Keeps s t) : Keeps s (send t o) := h.frame

/-! ### What an address names -/

theorem Keeps.rgPut {r hi lo v : Nat} (h : Keeps s t) : Keeps s (rgPut t r hi lo v) := h.regPut

/-! ### Messages, cells and header slots -/

theorem Keeps.agentCell {p : Nat} {outs : List (Nat × Nat)} {dom : Nat} {slots : List Nat} {grp : Option Nat} (h : Keeps s t) :
    Keeps s (agentCell t p outs dom slots grp) := by
  unfold Machine.agentCell
  split; exacts [h.frame, h]

theorem Keeps.fromAgent {p : Nat} {o : Option Nat} {dom : Nat} {slots : List Nat} (h : Keeps s t) :
    Keeps s (fromAgent t p o dom slots) := by
  unfold Machine.fromAgent
  split; exacts [.ite h h.agentCell, h]

theorem Keeps.openReq {r : AgentReq} (h : Keeps s t) : Keeps s (openReq t r).2 := .inSnd h.frame

theorem Keeps.crossCore {p o dom addr : Nat} {write : Bool} {d : LineData} (h : Keeps s t) : Keeps s (crossCore t p o dom addr write d) :=
  .ite h h.fromAgent.fromAgent

theorem Keeps.sendReq {p op c addr dom : Nat} {who : ReqWho} {words : List Nat} {mask : Nat} {d : LineData} (h : Keeps s t) :
    Keeps s (sendReq t p op c addr dom who words mask d) := by
  unfold Machine.sendReq
  extract_lets _ u1 _
  have h1 : Keeps s u1 := .ite h.crossCore h
  split
  next e => exact (h1.openReq.snd e).send.fromAgent

theorem Keeps.sendResp {p via c addr op txn err dom : Nat} {gw poison : Bool} {words : List Nat} {d : LineData} (h : Keeps s t) :
    Keeps s (sendResp t p via c addr op txn err dom gw poison words d) :=
  .ite h.incCnt.incCnt h.send.fromAgent

/-! ### Memory, logs, grants, frames and counters -/

theorem Keeps.putLine {a : Nat} {d : LineData} (h : Keeps s t) : Keeps s (t.putLine a d) := h.memory fun hm => Memory.wf_putLine a d hm

theorem Keeps.writeN {a n v : Nat} (h : Keeps s t) : Keeps s (t.writeN a n v) := h.memory fun hm => Memory.wf_writeN a n v hm

theorem Keeps.putLines {a : Nat} {ds : List LineData} (h : Keeps s t) : Keeps s (putLines t a ds) := by
  induction ds generalizing t a with
  | nil => exact h
  | cons d ds ih => exact ih h.putLine

theorem Keeps.setPoison {key : Nat} (h : Keeps s t) : Keeps s (setPoison t key) := h.frame

theorem Keeps.clrPoison {key : Nat} (h : Keeps s t) : Keeps s (clrPoison t key) := h.frame

theorem Keeps.clrPoisonRange {key len : Nat} (h : Keeps s t) : Keeps s (clrPoisonRange t key len) := h.frame

theorem Keeps.copyPoison {src dst len : Nat} (h : Keeps s t) : Keeps s (copyPoison t src dst len) :=
  h.clrPoisonRange.foldl fun _ _ h => h.setPoison

theorem Keeps.copyMem {src dst len : Nat} (h : Keeps s t) : Keeps s (copyMem t src dst len) :=
  .copyPoison (h.memory fun hm => Memory.wf_copy src dst len hm)

theorem Keeps.zeroMem {a len : Nat} (h : Keeps s t) : Keeps s (zeroMem t a len) :=
  .clrPoisonRange (h.memory fun hm => Memory.wf_zero a len hm)

theorem Keeps.mgmtEmit {m : MgmtOut} (h : Keeps s t) : Keeps s (mgmtEmit t m) := h.send

theorem Keeps.mgmtSend {kind : Nat} {payload : List Word} {cls : Option Nat} (h : Keeps s t) : Keeps s (mgmtSend t kind payload cls) :=
  .ite h.frame.mgmtEmit h.frame

theorem Keeps.logErr {a : LogArgs} (h : Keeps s t) : Keeps s (logErr t a) := by
  unfold Machine.logErr
  refine .ite h.incCnt ?_
  split
  next e =>
    extract_lets _ _ _ _ _ _ u1 _ _
    have h1 : Keeps s u1 := (h.drawFree.snd e).frame.regSetList
    exact .mgmtSend (.ite h1.regPut.regPut h1.regPut)

theorem Keeps.errAckOne {c : Nat} (h : Keeps s t) : Keeps s (errAckOne t c) := .ite h h.regPut.regPut.regPut

theorem Keeps.errAck {c n : Nat} (h : Keeps s t) : Keeps s (errAck t c n) := by
  induction n generalizing t with
  | zero => exact h
  | succ n ih => exact ih h.errAckOne

theorem Keeps.cwAccessErr {off dom : Nat} (h : Keeps s t) : Keeps s (cwAccessErr t off dom) := h.setBit.incCnt.logErr

theorem Keeps.addrFault {addr dom : Nat} (h : Keeps s t) : Keeps s (addrFault t addr dom) := h.logErr

theorem Keeps.freeze {m : Master} (h : Keeps s t) : Keeps s (freeze t m) := by
  unfold Machine.freeze
  split; exacts [h.setBit, .ite h.setBit.regPut h.setBit, h]

theorem Keeps.quotaClear {d : Nat} (h : Keeps s t) : Keeps s (quotaClear t d) :=
  .ite (.clrBit (.ite (.clrBit (.ite h.clrBit h)) (.ite h.clrBit h))) (.ite (.clrBit (.ite h.clrBit h)) (.ite h.clrBit h))

theorem Keeps.chargeFrames {d n : Nat} (h : Keeps s t) : Keeps s (chargeFrames t d n) := h.regAdd

theorem Keeps.unchargeFrames {d n : Nat} (h : Keeps s t) : Keeps s (unchargeFrames t d n) := h.regSub.quotaClear

theorem Keeps.releaseFrames {d n : Nat} (h : Keeps s t) : Keeps s (releaseFrames t d n) := h.unchargeFrames.frame

theorem Keeps.cacheTouch {u : Nat} (h : Keeps s t) : Keeps s (cacheTouch t u) := h.frame

theorem Keeps.clockCache {last : Bool} (h : Keeps s t) : KeepsOpt s (clockCache last t) := by
  unfold Machine.clockCache
  extract_lets
  split
  · exact .some h.pmc.frame
  · split; exacts [.some h.pmc.frame, .none]

theorem Keeps.cacheFrame (h : Keeps s t) : KeepsOpt s (cacheFrame t) := .ite (.some h.frame) h.clockCache

theorem Keeps.takeFrame (h : Keeps s t) : KeepsOpt s (takeFrame t) := by
  unfold Machine.takeFrame
  split
  next e => exact .some (h.cacheFrame.get e)
  · exact h.clockCache

theorem Keeps.takeFrames {n : Nat} (h : Keeps s t) : KeepsOpt s (takeFrames t n) := by
  induction n generalizing t with
  | zero => exact .some h
  | succ n ih =>
    unfold Machine.takeFrames
    split
    · exact .none
    next e => exact ih (h.takeFrame.get e)

theorem Keeps.allocFrames {d n : Nat} (h : Keeps s t) : Alloc.Keeps s (allocFrames t d n) := by
  unfold Machine.allocFrames
  refine .ite ?_ ?_
  · exact h
  · refine .ite trivial ?_
    split
    · exact trivial
    next e => exact (h.takeFrames.get e).chargeFrames

theorem Keeps.allocFor {r d n : Nat} (h : Keeps s t) : Alloc.Keeps s (allocFor t r d n) := by
  unfold Machine.allocFor
  split
  · exact h.allocFrames
  · refine .ite ?_ ?_
    · exact h
    · refine .ite trivial ?_
      split; exacts [trivial, h.chargeFrames]

theorem Keeps.releaseFor {r d n : Nat} (h : Keeps s t) : Keeps s (releaseFor t r d n) := by
  unfold Machine.releaseFor
  split; exacts [h.releaseFrames, h.unchargeFrames]

theorem Keeps.setMedUse {d n : Nat} (h : Keeps s t) : Keeps s (setMedUse t d n) := h.frame.regPut.quotaClear

theorem Keeps.setMedResv {d n : Nat} (h : Keeps s t) : Keeps s (setMedResv t d n) := h.frame.regPut.quotaClear

theorem Keeps.streamAwait {w r u : Nat} (h : Keeps s t) : Keeps s (streamAwait t w r u) := .ite h h.frame

theorem Keeps.streamRead {w u : Nat} (h : Keeps s t) : Keeps s (streamRead t w u) := h.frame

theorem Keeps.streamDrop {p : Nat × Nat × Bool → Bool} (h : Keeps s t) : Keeps s (streamDrop t p) := .ite h h.frame

theorem Keeps.gwSend {via c addr op txn err : Nat} {poison : Bool} {d : LineData} (h : Keeps s t) :
    Keeps s (gwSend t via c addr op txn err poison d) :=
  h.sendResp

theorem Keeps.coverOne {prot peer pgroup key addr : Nat} {old new : LineData} (h : Keeps s t) :
    Keeps s (coverOne t prot peer pgroup key addr old new) := by
  unfold Machine.coverOne
  refine .ite h.frame.sendReq ?_
  refine .ite ?_ h
  split; exacts [h, .ite h.frame.frame.sendReq.sendReq h.frame]

theorem Keeps.dropOldPeer {c : Nat} (h : Keeps s t) : Keeps s (dropOldPeer t c) := h.frame

theorem Keeps.coverLine {r key addr : Nat} {old new : LineData} (h : Keeps s t) : Keeps s (coverLine t r key addr old new) := by
  unfold Machine.coverLine
  extract_lets u1
  have h1 : Keeps s u1 := .ite h (.ite h.frame h.coverOne)
  split; exacts [.ite h1.dropOldPeer h1.coverOne, h1]

theorem Keeps.coverSend {off : Nat} {old new : LineData} (h : Keeps s t) : Keeps s (coverSend t off old new) := by
  unfold Machine.coverSend
  split; exacts [h, h.coverLine]

theorem Keeps.coverFill {r key addr len : Nat} (h : Keeps s t) : Keeps s (coverFill t r key addr len) :=
  .ite h (h.forEach fun _ _ h => h.coverLine)

theorem Keeps.coverCopy {r : Nat} (h : Keeps s t) : Keeps s (coverCopy t r) := by
  unfold Machine.coverCopy
  refine .ite h.frame ?_
  exact .forEach (.ite (h.forEach fun _ _ h => h.forEach fun _ _ h => .ite h.coverOne h) (h.forEach fun _ _ h => h.coverOne))
    fun _ _ h => h.forEach fun _ _ h => h.forEach fun _ _ h => h.coverOne

theorem Keeps.poolDrop {g : Nat} {p : Nat → Bool} (h : Keeps s t) : Keeps s (poolDrop t g p) :=
  .ite h (.frame (h.forEach fun _ _ h => h.forEach fun _ _ h => h.coverOne))

theorem Keeps.copyUnit {r src dst : Nat} (h : Keeps s t) : Keeps s (copyUnit t r src dst) :=
  .ite (h.copyMem.forEach fun _ _ h => h.setPoison) h.copyMem

theorem Keeps.ensureUnit {off : Nat} (h : Keeps s t) : Alloc.Keeps s (ensureUnit t off) := by
  unfold Machine.ensureUnit
  refine .ite ?_ ?_
  · exact h
  · split
    · exact h
    · refine .ite trivial ?_
      split
      · exact trivial
      · exact trivial
      next e =>
        extract_lets u1 _ _ _
        have h1 : Keeps s u1 := by unfold u1; split; exacts [(h.allocFor.ok e).copyUnit, (h.allocFor.ok e)]
        exact .regAdd (.ite (.setMedResv (.ite h1.frame.coverFill.frame h1.frame.coverFill)) (.ite h1.frame.coverFill.frame
          h1.frame.coverFill))

theorem Keeps.setCounter {k : Nat} {v : Word} (h : Keeps s t) : Keeps s (setCounter t k v) :=
  ⟨h.pending, fun hs => have ⟨hm, hr, hc⟩ := h.canonical hs; ⟨hm, hr, Sparse.canon_set (d := fun _ => 0) k v hc⟩⟩

theorem Keeps.putArea {a : Area} (h : Keeps s t) : Keeps s (putArea t a) := h.frame

theorem Keeps.armArea {a : Area} (h : Keeps s t) : Keeps s (armArea t a) := h.putArea.setCounter

theorem Keeps.countedWrite {a : Area} {off dom : Nat} {d : LineData} (h : Keeps s t) : Keeps s (countedWrite t a off dom d) :=
  .ite h.putLine.clrPoison h.putLine.clrPoison.pmc.putArea.setCounter

theorem Keeps.ringPut {m pos dom : Nat} {d : LineData} (h : Keeps s t) : Keeps s (ringPut t m pos dom d) := by
  unfold Machine.ringPut
  extract_lets u1
  have h1 : Keeps s u1 := .ite h h.frame.setCounter
  split; exacts [h1.countedWrite, h1]

/-! ### Status bits of the units -/

theorem Keeps.haEvent {h' b : Nat} {cnt : Option Nat} {addr d0 : Nat} (h : Keeps s t) : Keeps s (haEvent t h' b cnt addr d0) := by
  unfold Machine.haEvent
  extract_lets _ u2
  have h2 : Keeps s u2 := by unfold u2; split; exacts [h.setBit.incCnt, h.setBit]
  exact h2.logErr

theorem Keeps.stkCe {h' addr : Nat} (h : Keeps s t) : Keeps s (stkCe t h' addr) := h.setBit.incCnt.logErr

theorem Keeps.stkUe {h' addr : Nat} (h : Keeps s t) : Keeps s (stkUe t h' addr) := h.setBit.incCnt.logErr

theorem Keeps.recovEvent {b k : Nat} {a : LogArgs} (h : Keeps s t) : Keeps s (recovEvent t b k a) := h.setBit.incCnt.logErr

theorem Keeps.collectDump {kind unit action dom : Nat} (h : Keeps s t) : Keeps s (collectDump t kind unit action dom) := by
  unfold Machine.collectDump
  refine .ite h.recovEvent ?_
  split
  next e => exact (h.drawFree.snd e).frame.regPut.regPut.setBit.setBit

theorem Keeps.violate {m : Master} {addr : Nat} (h : Keeps s t) : Keeps s (violate t m addr) := by
  unfold Machine.violate
  split
  · exact .ite h.incCnt.incCnt.logErr h
  · refine .ite h.incCnt.incCnt ?_
    extract_lets
    split; exacts [h.incCnt.incCnt.logErr.setBit.setBit.collectDump.freeze, h.incCnt.incCnt.logErr.setBit.setBit.collectDump.freeze,
      h.incCnt.incCnt.logErr.setBit.setBit]

/-! ### Ballast (chapter 16) -/

theorem Keeps.showQueue (h : Keeps s t) : Keeps s (showQueue t) := h.regPut.regPut

theorem Keeps.askClock {u : Nat} {start : Bool} {prio : Nat} (h : Keeps s t) : Keeps s (askClock t u start prio) := by
  unfold Machine.askClock
  split <;> exact .ite h h.frame.showQueue

theorem Keeps.askStart {u : Nat} (h : Keeps s t) : Keeps s (askStart t u) := h.askClock

theorem Keeps.askStop {u prio : Nat} (h : Keeps s t) : Keeps s (askStop t u prio) := h.askClock

theorem Keeps.touchUnit {off : Nat} (h : Keeps s t) : Keeps s (touchUnit t off) := by
  unfold Machine.touchUnit
  split; exacts [.ite h.askStart h, h]

/-! ### The publish log of the medium (chapter 03) -/

theorem Keeps.putBand {b : Nat} {x : Band} (h : Keeps s t) : Keeps s (putBand t b x) := h.frame

theorem Keeps.putBlock {k : Nat} {x : MedBlock} (h : Keeps s t) : Keeps s (putBlock t k x) := h.frame

theorem Keeps.medCnt {c k n : Nat} (h : Keeps s t) : Keeps s (medCnt t c k n) := .ite h.addCnt.setBit h.addCnt

theorem Keeps.medEvent {c b action addr : Nat} (h : Keeps s t) : Keeps s (medEvent t c b action addr) := h.setBit.logErr

theorem Keeps.orders {c : Nat} {l : List (Onfi × List Nat)} (h : Keeps s t) : Keeps s (orders t c l) :=
  .forEach (.ite h.askStart h) fun _ _ h => h.send

theorem Keeps.countBands (h : Keeps s t) : Keeps s (countBands t) := h.regPut.regPut

theorem Keeps.countSpares {c : Nat} (h : Keeps s t) : Keeps s (countSpares t c) := by
  unfold Machine.countSpares
  split; exacts [h, h.regPut]

theorem Keeps.degradeQuads (h : Keeps s t) : Keeps s (degradeQuads t) := h.regPut

theorem Keeps.freeGone {b : Nat} (h : Keeps s t) : Keeps s (freeGone t b) :=
  h.forEach fun _ _ h => .ite h.frame h.frame.countSpares

theorem Keeps.substitute {c b : Nat} (h : Keeps s t) : Keeps s (substitute t c b) := by
  unfold Machine.substitute
  extract_lets
  split
  · exact .ite h.frame.countSpares h.frame.countSpares.putBand
  · exact .ite h.putBand.setBit.freeGone h.putBand.setBit

theorem Keeps.retireBlock {c b : Nat} (h : Keeps s t) : Keeps s (retireBlock t c b) := h.medCnt.setBit.frame.substitute

theorem Keeps.chooseHolder {u : LogUnit} (h : Keeps s t) : Keeps s (chooseHolder t u).2 :=
  .iteSnd (.inSnd h) (.iteSnd (.inSnd h) (.inSnd h.frame))

theorem Keeps.issueUnit {b : Nat} {u : LogUnit} {src : Option Nat} (h : Keeps s t) : Keeps s (issueUnit t b u src) := by
  unfold Machine.issueUnit
  extract_lets
  split
  next e => exact (h.chooseHolder.snd e).putBand.frame.forEach fun _ _ h => h.send.orders

theorem Keeps.openBand {b : Nat} (h : Keeps s t) : Keeps s (openBand t b) := by
  unfold Machine.openBand
  split
  next e => exact (h.drawFree.snd e).issueUnit.frame.countBands

theorem Keeps.logWrite {u : LogUnit} {src : Option Nat} (h : Keeps s t) : Keeps s (logWrite t u src) := by
  unfold Machine.logWrite
  split; exacts [h.frame, .issueUnit (.ite h.frame.openBand h.frame)]

theorem Keeps.pumpLog (h : Keeps s t) : Keeps s (pumpLog t) := h.frame.forEach fun _ _ h => h.logWrite

theorem Keeps.readPage {l i : Nat} (h : Keeps s t) : Keeps s (readPage t l i) := h.orders

theorem Keeps.readUnit {l : Nat} (h : Keeps s t) : Keeps s (readUnit t l) := h.forEach fun _ _ h => h.readPage

theorem Keeps.loseUnit {c loc : Nat} (h : Keeps s t) : Keeps s (loseUnit t c loc) := h.frame.medCnt.medEvent

theorem Keeps.askPart {m loc : Nat} (h : Keeps s t) : Keeps s (askPart t m loc) := h.send

theorem Keeps.askRebuild {c loc : Nat} (h : Keeps s t) : Keeps s (askRebuild t c loc) := by
  unfold Machine.askRebuild
  refine .ite h.loseUnit ?_
  refine .ite (h.forEach fun _ _ h => h.send) ?_
  split; exacts [h.send, h.forEach fun _ _ h => h.askPart, h.loseUnit]

theorem Keeps.startRead {u : Nat} (h : Keeps s t) : Keeps s (startRead t u) := by
  unfold Machine.startRead
  refine .ite h ?_
  refine .ite h.frame ?_
  refine .ite h ?_
  split
  · exact .ite h.frame (.ite h.frame.readUnit h.frame.askRebuild)
  · split; exacts [h.frame.askRebuild, h.frame]

theorem Keeps.startReads (h : Keeps s t) : Keeps s (startReads t) := h.forEach fun _ _ h => h.startRead

theorem Keeps.relocateBand {b : Nat} (h : Keeps s t) : Keeps s (relocateBand t b) :=
  .forEach (.ite (h.pmc.pmc.forEach fun _ _ h => h.medCnt) h.pmc.pmc) fun _ _ h => h.logWrite

theorem Keeps.startReclaim {b : Nat} (h : Keeps s t) : Keeps s (startReclaim t b) := .ite h h.putBand.relocateBand

theorem Keeps.sendUnit {code holder loc : Nat} {u : LogUnit} (h : Keeps s t) : Keeps s (sendUnit t code holder loc u) :=
  h.forEach fun _ _ h => h.frame.send

theorem Keeps.sendContrib {c : Contrib} (h : Keeps s t) : Keeps s (sendContrib t c) := by
  unfold Machine.sendContrib
  extract_lets
  split; exacts [h.pmc.sendUnit, h.pmc]

theorem Keeps.retractBand {b : Nat} (h : Keeps s t) : Keeps s (retractBand t b) := by
  unfold Machine.retractBand
  refine .ite h ?_
  extract_lets u1 _
  have h1 : Keeps s u1 := by
    unfold u1
    refine h.forEach fun _ _ h => ?_
    split; exacts [h.sendUnit, h]
  exact h1.putBand.frame

theorem Keeps.eraseBand {b : Nat} (h : Keeps s t) : Keeps s (eraseBand t b) := .ite h (h.putBand.forEach fun _ _ h => h.orders)

theorem Keeps.reclaimStep (h : Keeps s t) : Keeps s (reclaimStep t) := h.forEach fun _ _ h => h.retractBand.eraseBand

theorem Keeps.reclaimNow {b : Nat} (h : Keeps s t) : Keeps s (reclaimNow t b) := h.startReclaim.reclaimStep.countBands

theorem Keeps.keepReserve (h : Keeps s t) : Keeps s (keepReserve t) := by
  unfold Machine.keepReserve
  refine .ite ?_ h
  split; exacts [h.reclaimNow, h]

theorem Keeps.levelWear (h : Keeps s t) : Keeps s (levelWear t) := by
  unfold Machine.levelWear
  refine .ite h ?_
  split; exacts [.ite h.reclaimNow h, h]

theorem Keeps.scrubUnit {l : Nat} (h : Keeps s t) : Keeps s (scrubUnit t l) := h.frame.readUnit

theorem Keeps.scrubBand {b : Nat} (h : Keeps s t) : Keeps s (scrubBand t b) := h.forEach fun _ _ h => h.scrubUnit

theorem Keeps.lateWork (h : Keeps s t) : Keeps s (lateWork t) :=
  .ite h (h.frame.forEach fun _ _ h => .ite (.ite h.reclaimNow h) h.scrubBand)

theorem Keeps.logStep (h : Keeps s t) : Keeps s (logStep t) := h.pumpLog.reclaimStep.countBands.keepReserve.levelWear.lateWork

theorem Keeps.setStage {d k : Nat} (h : Keeps s t) : Keeps s (setStage t d k) := h.frame

theorem Keeps.writeStage {p : Pub} {k : Nat} (h : Keeps s t) : Keeps s (writeStage t p k) := by
  unfold Machine.writeStage
  split; exacts [h.setStage.forEach fun _ _ h => h.logWrite, h.setStage]

theorem Keeps.writeOn {d : Nat} (h : Keeps s t) : Keeps s (writeOn t d) := by
  unfold Machine.writeOn
  split; exacts [.ite h.writeStage h, h]

theorem Keeps.adoptUnits {d r v : Nat} (h : Keeps s t) : Keeps s (adoptUnits t d r v) := h.frame

theorem Keeps.dropDraftUnits {d : Nat} (h : Keeps s t) : Keeps s (dropDraftUnits t d) := h.frame

theorem Keeps.decideNext {h' : Nat} (h : Keeps s t) : Keeps s (decideNext t h') := .ite h h.frame.logWrite.logWrite

theorem Keeps.appendRecord {r : Nat} {x : LogRec} (h : Keeps s t) : Keeps s (appendRecord t r x) := h.frame.decideNext

theorem Keeps.dropMeta {p : LogName → Bool} (h : Keeps s t) : Keeps s (dropMeta t p) := h.frame

/-! ### Sessions and their blocks (chapter 13) -/

theorem Keeps.putSess {n : Nat} {x : Sess} (h : Keeps s t) : Keeps s (putSess t n x) := h.frame.regPut

theorem Keeps.zctPut {p n : Nat} {b : ZBlk} (h : Keeps s t) : Keeps s (zctPut t p n b) := by
  unfold Machine.zctPut
  split
  next e => exact h.takeInj.getSnd e
  · exact h.pmc.pmc.pmc.send

theorem Keeps.zctEmit {n : Nat} {b : ZBlk} (h : Keeps s t) : Keeps s (zctEmit t n b) := by
  unfold Machine.zctEmit
  split; exacts [h, .ite h.frame h.zctPut]

theorem Keeps.zctSend {n kind ref reason addr : Nat} {data : List LineData} (h : Keeps s t) :
    Keeps s (zctSend t n kind ref reason addr data) :=
  .ite h (.ite h.putSess.zctEmit h.putSess)

theorem Keeps.zctFinish {n : Nat} {p : ZPend} (h : Keeps s t) : Keeps s (zctFinish t n p) := by
  unfold Machine.zctFinish
  split; exacts [h.zctSend, .ite (.ite h.zctSend.zctSend h.zctSend) h]

theorem Keeps.zctServed {n txn addr : Nat} {ok : LineData × Bool} {bad : Option Nat} (h : Keeps s t) :
    Keeps s (zctServed t n txn addr ok bad) := by
  unfold Machine.zctServed
  extract_lets
  split; exacts [h, .ite h.putSess h.putSess.zctFinish]

theorem Keeps.tsText {cmd res : Nat} {vals : List Nat} (h : Keeps s t) : Keeps s (tsText t cmd res vals) := h.send

theorem Keeps.tsAnswer {cmd : Nat} {due : List Nat} {err : Nat} {m : Msg} (h : Keeps s t) : Keeps s (tsAnswer t cmd due err m) :=
  .ite (.tsText (.frame (.ite h.tsText h))) (.frame (.ite h.tsText h))

theorem Keeps.homeOut {p src : Nat} {m : Msg} (h : Keeps s t) : Keeps s (homeOut t p src m) :=
  .ite h.incCnt.incCnt h.send.fromAgent

theorem Keeps.answer {m : Msg} (h : Keeps s t) : Keeps s (answer t m) := by
  unfold Machine.answer
  cases m.dst with
  | session n => exact .ite h (.ite h.zctServed h.zctServed)
  | mgmt =>
    dsimp only
    split
    · exact .ite (.ite h h.tsAnswer) h.send
    · exact h.send
  | control => exact .ite h.frame h
  | host n => exact h.homeOut
  | peer p _ => exact h.homeOut
  | _ => exact h.send

/-! ### Command windows and completion records (chapter 08) -/

theorem Keeps.zctForward {w off : Nat} {d : LineData} (h : Keeps s t) : Keeps s (zctForward t w off d) :=
  h.forEach fun _ _ h => h.zctSend

theorem Keeps.putWin {w : Nat} {x : Win} (h : Keeps s t) : Keeps s (putWin t w x) := h.frame

theorem Keeps.setWinState {w v : Nat} (h : Keeps s t) : Keeps s (setWinState t w v) := h.regPut

theorem Keeps.armWindow {w : Nat} (h : Keeps s t) : Keeps s (armWindow t w) := h.putWin.setCounter.regPut.setWinState

theorem Keeps.windowWrite {w x dom : Nat} {d : LineData} (h : Keeps s t) : Keeps s (windowWrite t w x dom d).2 := by
  unfold Machine.windowWrite
  refine .iteSnd (.inSnd h.setBit.logErr) ?_
  refine .iteSnd (.inSnd h.putLine.clrPoison) ?_
  refine .iteSnd (.inSnd h.putLine.clrPoison) ?_
  exact .iteSnd (.inSnd h.putLine.clrPoison.pmc.setCounter.putWin.zctForward) (.iteSnd (.inSnd
    h.putLine.clrPoison.pmc.setCounter.putWin.setWinState.regPut.regPut) (.inSnd h.putLine.clrPoison.pmc.setCounter.putWin.setWinState))

theorem Keeps.moveWindow {w v : Nat} (h : Keeps s t) : Keeps s (moveWindow t w v) := .ite h h.setWinState

theorem Keeps.countedLine {dom off : Nat} {d : LineData} (h : Keeps s t) : KeepsOpt s (countedLine t dom off d) := by
  unfold Machine.countedLine
  split
  · refine .ite (.some h.windowWrite) ?_
    refine .ite ?_ .none
    split
    next e => exact .none
    next e => exact .some (h.windowWrite.snd e)
  · split; exacts [.ite (.some h.countedWrite) .none, .none]
  · exact .none

theorem Keeps.ldrEvent {b action dom addr : Nat} (h : Keeps s t) : Keeps s (ldrEvent t b action dom addr) := h.setBit.logErr

theorem Keeps.writeCpl {dom cpl : Nat} {line : LineData} (h : Keeps s t) : Keeps s (writeCpl t dom cpl line) := by
  unfold Machine.writeCpl
  refine .ite h ?_
  split
  · split
    next e => exact h.countedLine.get e
    · exact h.ldrEvent
  · exact .ite h.sendReq h.ldrEvent
  · exact .ite h.sendReq h.ldrEvent
  · exact h.ldrEvent

theorem Keeps.complete {w : Nat} {c : Cpl} (h : Keeps s t) : Keeps s (complete t w c) := by
  unfold Machine.complete
  refine .ite h ?_
  split; exacts [h.frame.writeCpl, h.armWindow.writeCpl]

theorem Keeps.countRefusalBy {w b : Nat} (h : Keeps s t) : Keeps s (countRefusalBy t w b) := h.ldrEvent.setBit.incCnt.pmc

theorem Keeps.countRefusal {w : Nat} (h : Keeps s t) : Keeps s (countRefusal t w) := h.countRefusalBy

theorem Keeps.refuse {w reason : Nat} (h : Keeps s t) : Keeps s (refuse t w reason) := h.countRefusal.complete

theorem Keeps.refuseLen {w : Nat} (h : Keeps s t) : Keeps s (refuseLen t w) := h.countRefusalBy.complete

/-! ### The home agent (chapter 05) -/

theorem Keeps.filtDrop {e : FEntry} (h : Keeps s t) : Keeps s (filtDrop t e) := h.frame

theorem Keeps.putStack {off : Nat} {d : LineData} (h : Keeps s t) : Keeps s (putStack t off d) := by
  unfold Machine.putStack
  split; exacts [h, h.putLine.coverSend]

theorem Keeps.storeFree {off : Nat} (h : Keeps s t) : Keeps s (storeFree t off) := h.frame

theorem Keeps.recPut {line : Nat} {st : LState} {v : BitVec 64} (h : Keeps s t) : Keeps s (recPut t line st v) := h.frame

theorem Keeps.storeEvict {e : StoreEnt} (h : Keeps s t) : Keeps s (storeEvict t e) := by
  unfold Machine.storeEvict
  extract_lets
  split
  · split; exacts [h.frame.putStack.frame.recPut, h.frame.putStack]

theorem Keeps.clockStep {h' : Nat} (h : Keeps s t) : Keeps s (clockStep t h') := by
  unfold Machine.clockStep
  extract_lets
  split; exacts [h, h.frame.storeEvict]

theorem Keeps.storePut {off : Nat} {d : LineData} (h : Keeps s t) : Keeps s (storePut t off d) :=
  .frame (.ite h.storeFree.clockStep h.storeFree)

theorem Keeps.storeTouch {off : Nat} (h : Keeps s t) : Keeps s (storeTouch t off) := h.frame

theorem Keeps.filtRoom {off : Nat} (h : Keeps s t) : Keeps s (filtRoom t off) := by
  unfold Machine.filtRoom
  refine .ite h ?_
  refine .ite h ?_
  extract_lets
  split
  · exact h.filtDrop
  · split
    · exact h
    · extract_lets
      split; exacts [h.storeEvict.filtDrop, h.storeEvict]

theorem Keeps.setRec {off : Nat} {st : LState} {v : BitVec 64} (h : Keeps s t) : Keeps s (setRec t off st v) := by
  unfold Machine.setRec
  extract_lets
  split; exacts [h.frame.frame, h.frame.frame.filtRoom]

theorem Keeps.poisonLine {off : Nat} (h : Keeps s t) : Keeps s (poisonLine t off) := by
  unfold Machine.poisonLine
  refine .ite h ?_
  split; exacts [h, h.setPoison.haEvent]

theorem Keeps.clearPoison {off : Nat} (h : Keeps s t) : Keeps s (clearPoison t off) := by
  unfold Machine.clearPoison
  split; exacts [h, h.clrPoison]

theorem Keeps.touchLine {off : Nat} (h : Keeps s t) : Keeps s (touchLine t off) := by
  unfold Machine.touchLine
  split
  · refine .ite h ?_
    split; exacts [h.poisonLine.setRec, h.poisonLine.setRec, h.setRec, h.setRec, h]

theorem Keeps.timerEnds {h' : Nat} (h : Keeps s t) : Keeps s (timerEnds t h') := h.setBit.setBit.incCnt

theorem Keeps.sendErr {r : Req} {e : Nat} {act : Bool} (h : Keeps s t) : Keeps s (sendErr t r e act) := h.answer

theorem Keeps.fenceHost {h' n addr : Nat} (h : Keeps s t) : Keeps s (fenceHost t h' n addr) :=
  .ite h (.forEach (.frame (h.setBit.timerEnds.haEvent.forEach fun _ _ h => h.timerEnds)) fun _ _ h => h.sendErr)

theorem Keeps.sendCmp {r : Req} {act : Bool} (h : Keeps s t) : Keeps s (sendCmp t r act) := h.answer

theorem Keeps.sendData {r : Req} {act : Bool} {st : LState} {d : LineData} {poison : Bool} (h : Keeps s t) :
    Keeps s (sendData t r act st d poison) :=
  h.answer

theorem Keeps.sendNoData {r : Req} {act : Bool} {st : LState} (h : Keeps s t) : Keeps s (sendNoData t r act st) := h.answer

theorem Keeps.protoErr {h' addr : Nat} (h : Keeps s t) : Keeps s (protoErr t h' addr) := h.haEvent

theorem Keeps.sendSnoops {off txn : Nat} {inv : Bool} {hosts : List Nat} (h : Keeps s t) : Keeps s (sendSnoops t off txn inv hosts).2 := by
  induction hosts generalizing t with
  | nil => exact h
  | cons n hosts ih =>
    unfold Machine.sendSnoops
    split
    · exact ih h
    · split
      · exact ih h.homeOut
      · exact ih h.haEvent.fenceHost

theorem Keeps.homeCount {off i : Nat} {dom : Option Nat} (h : Keeps s t) : Keeps s (homeCount t off i dom) := h.pmc

theorem Keeps.startTxn {r : Req} {act : Bool} {targets : BitVec 64} {inv : Bool} {ue : Option Bool} (h : Keeps s t) :
    Keeps s (startTxn t r act targets inv ue) := by
  unfold Machine.startTxn
  split
  next e => exact (h.sendSnoops.snd e).pmc.frame

theorem Keeps.tetherRefuse {d addr : Nat} (h : Keeps s t) : Keeps s (tetherRefuse t d addr) := h.setBit.incCnt.logErr

theorem Keeps.awaitAck {r : Req} {act : Bool} (h : Keeps s t) : Keeps s (awaitAck t r act) := by
  unfold Machine.awaitAck
  split; exacts [.ite h.frame h, h]

theorem Keeps.endWrite {r : Req} {act : Bool} (h : Keeps s t) : Keeps s (endWrite t r act) :=
  .ite h.sendErr (.ite h.frame h.sendCmp)

theorem Keeps.takeDirty {off : Nat} {v : BitVec 64} {d : LineData} (h : Keeps s t) : Keeps s (takeDirty t off v d) :=
  .ite h.putStack.setRec h.storePut.setRec

theorem Keeps.poisonShared {off : Nat} (h : Keeps s t) : Keeps s (poisonShared t off) := by
  unfold Machine.poisonShared
  split
  · extract_lets
    split; exacts [h.poisonLine.storeFree.setRec, h.poisonLine]

theorem Keeps.grantRead {r : Req} {act : Bool} (h : Keeps s t) : Keeps s (grantRead t r act) := by
  unfold Machine.grantRead
  extract_lets u1
  have h1 : Keeps s u1 := by
    unfold u1
    split
    next e => exact (h.takeInj.getSnd e).poisonShared
    · exact h
  split
  · extract_lets
    split; exacts [h1.storeTouch.sendData, h1.storeTouch.setRec.sendData.awaitAck]

theorem Keeps.grantOwn {r : Req} {act noData : Bool} {got : Option LineData} (h : Keeps s t) : Keeps s (grantOwn t r act noData got) := by
  unfold Machine.grantOwn
  split
  · exact h
  · extract_lets stored dirty blk w
    have h : Keeps s w := h.storeFree
    clear_value dirty w
    cases dirty with
    | none => exact .awaitAck (.ite h.setRec.sendNoData h.setRec.sendData)
    | some d =>
      have k : Keeps s (if blk = true then (LState.E, Machine.putStack w r.off d) else (LState.M, w)).2 := .iteSnd h.putStack h
      exact .awaitAck (.ite k.setRec.sendNoData k.setRec.sendData)

theorem Keeps.doWrite {r : Req} {act : Bool} {got : Option LineData} (h : Keeps s t) : Keeps s (doWrite t r act got) :=
  .ite h.tetherRefuse.sendErr (.endWrite (.setRec (.putStack (.ite h.storeFree.clearPoison h.storeFree))))

theorem Keeps.finishServe {x : Txn} (h : Keeps s t) : Keeps s (finishServe t x) := by
  unfold Machine.finishServe
  extract_lets r u wrote recalled
  have h : Keeps s u := by
    unfold u
    cases r.op with
    | rds | rdnc | rde | wrnc | wrline => exact h.homeCount
    | _ => exact h
  rcases lineRec u r.off with ⟨st, v⟩
  cases r.op with
  | rds =>
    cases x.got with
    | none =>
      cases st with
      | E => exact h.setRec.grantRead
      | _ => exact h.grantRead
    | some d =>
      cases st with
      | E | M => exact h.takeDirty.grantRead
      | _ => exact h.grantRead
  | rdnc =>
    refine .awaitAck (.sendData ?_)
    cases x.got with
    | none =>
      cases st with
      | E => exact h.setRec
      | _ => exact h
    | some d =>
      cases st with
      | E | M => exact h.takeDirty
      | _ => exact h
  | rde => exact h.grantOwn
  | upgr => exact h.grantOwn
  | wrnc => exact h.doWrite
  | wrline => exact h.doWrite
  | wrback => exact .ite h.homeCount.putStack.clearPoison.setRec.endWrite h.sendCmp
  | evict =>
    refine .sendCmp ?_
    cases hostNo r.src with
    | none => exact h
    | some n =>
      cases st with
      | S | O | E => exact .ite h.setRec h
      | _ => exact h
  | _ =>
    -- What is left is a recall, whose constructor's name is also a keyword of Mathlib.
    refine .setRec (.storeFree ?_)
    unfold recalled
    split
    · exact .ite h.putStack h
    · split
      · exact .ite h.putStack h
      · exact h

theorem Keeps.preServe {waited : Bool} {r : Req} (h : Keeps s t) : Pre.Keeps s (preServe waited t r) := by
  unfold Machine.preServe
  extract_lets hold
  clear_value hold
  split
  · trivial
  · split
    · trivial
    · refine .ite trivial (.ite trivial (.ite trivial (.ite ?_ h)))
      split
      next e => exact h.ensureUnit.ok e
      · trivial
      · trivial

theorem Keeps.holdTxn {r : Req} {act : Bool} {p : Phase} (h : Keeps s t) : Keeps s (holdTxn t r act p) := h.frame

theorem Keeps.fetchUnit {u off : Nat} {dom : Option Nat} (h : Keeps s t) : Keeps s (fetchUnit t u off dom) :=
  .ite h h.homeCount.frame.startRead

theorem Keeps.frameHit {off key : Nat} {dom : Option Nat} (h : Keeps s t) : Keeps s (frameHit t off key dom) := by
  unfold Machine.frameHit
  split; exacts [.ite h.cacheTouch.homeCount h, h]

theorem Keeps.lookupErr {off : Nat} (h : Keeps s t) : Keeps s (lookupErr t off).1 := by
  unfold Machine.lookupErr
  extract_lets
  split
  next e => exact .inFst (h.takeInj.getSnd e).haEvent
  · refine .iteFst (.inFst h) ?_
    split
    next e => exact .inFst (h.takeInj.getSnd e).haEvent
    · exact .inFst h

theorem Keeps.lineErrors {off : Nat} (h : Keeps s t) : Keeps s (lineErrors t off).1 := by
  unfold Machine.lineErrors
  extract_lets _ u
  have h : Keeps s u := by
    unfold u
    split
    next e => exact (h.takeInj.getSnd e).stkCe
    · exact h
  clear_value u
  split
  next e =>
    refine Keeps.fstThen (s := s) ?_ (fun k => ?_) e
    · split
      next e =>
        extract_lets
        split
        split
        · exact (h.takeInj.getSnd e).stkUe
        · exact (h.takeInj.getSnd e).stkUe
        · exact (h.takeInj.getSnd e).stkUe.poisonShared
      · exact h
    · split
      next e => exact k.lookupErr.fst e
      next e => exact k.lookupErr.fst e

theorem Keeps.serveFrom {waited : Bool} {r : Req} {act : Bool} (h : Keeps s t) : Keeps s (serveFrom waited t r act) := by
  unfold Machine.serveFrom
  refine .ite h.sendErr ?_
  split
  next e =>
    split
    · exact (h.lineErrors.fst e).startTxn
    · extract_lets u1
      have h1 : Keeps s u1 := (h.lineErrors.fst e).touchLine
      split
      · exact h1.sendErr
      · exact h1.addrFault.sendErr
      · exact h1.holdTxn
      · exact h1.fetchUnit.holdTxn
      next e1 =>
        extract_lets
        split
        · split
          exact .startTxn (.ite (h1.preServe.go e1) (h1.preServe.go e1).frameHit)

theorem Keeps.serve {r : Req} {act : Bool} (h : Keeps s t) : Keeps s (serve t r act) := h.serveFrom

theorem Keeps.absorb {t' : Txn} (h : Keeps s t) : Keeps s (absorb t t') := by
  unfold Machine.absorb
  extract_lets
  split
  · split
    · exact h.storeFree.putStack.setRec
    · exact h.takeDirty
    · split; exacts [h, h.storeFree.putStack.setRec, h.setRec]
    · exact .ite h.setRec h

theorem Keeps.endSnoop {t' : Txn} (h : Keeps s t) : Keeps s (endSnoop t t') := by
  unfold Machine.endSnoop
  refine .ite h.frame.storeFree.setRec ?_
  split
  · extract_lets u2
    have h2 : Keeps s u2 := by
      unfold u2
      split
      · exact h.frame.putStack
      · split; exacts [h.frame.putStack, .ite h.frame.poisonLine h.frame]
    exact h2.storeFree.setRec.serve
  · refine .ite h.frame.poisonLine.setRec.serve ?_
    split
    exact .ite h.frame.touchLine.serve (.ite h.frame.touchLine.absorb.sendErr h.frame.touchLine.finishServe)

theorem Keeps.startRecall {q : Recall} (h : Keeps s t) : Keeps s (startRecall t q) := by
  unfold Machine.startRecall
  extract_lets
  split
  next e => exact (h.lookupErr.fst e).startTxn
  next e => exact .startTxn (.ite (h.lookupErr.fst e) (h.lookupErr.fst e).touchLine)

theorem Keeps.owe {drop : Bool} {line : Nat} (h : Keeps s t) : Keeps s (owe t drop line) := .ite h h.frame

theorem Keeps.lookups {offs : List Nat} (h : Keeps s t) : Keeps s (lookups t offs).1 := by
  induction offs generalizing t with
  | nil => exact h
  | cons o offs ih =>
    unfold Machine.lookups
    split
    next e => exact (h.lookupErr.fst e).startTxn
    next e => exact ih (h.lookupErr.fst e)

theorem Keeps.wbStep {w : WbHold} (h : Keeps s t) : Keeps s (wbStep t w) := by
  unfold Machine.wbStep
  split
  next e =>
    refine .ite (h.lookups.fst e) ?_
    refine .ite ((h.lookups.fst e).forEach fun _ _ h => h.owe) ?_
    extract_lets _ _ u8 _
    have h8 : Keeps s u8 := by
      unfold u8
      refine .ite (h.lookups.fst e).frame.addrFault.gwSend ?_
      split
      · exact (h.lookups.fst e).frame.gwSend
      · exact (h.lookups.fst e).frame.gwSend
      next e1 =>
        split
        · extract_lets u7 _
          have h7 : Keeps s u7 := by
            unfold u7
            refine ((h.lookups.fst e).frame.ensureUnit.ok e1).forEach fun _ _ h => ?_
            extract_lets _ _ u6
            have h6 : Keeps s u6 := h.homeCount.storeFree.putStack.clearPoison
            exact .setRec (.ite h6.poisonLine h6)
          exact .ite h7.gwSend (.ite (.gwSend (h7.forEach fun _ _ h => h.tetherRefuse)) (.ite h7.gwSend h7.frame))
    exact h8.frame.forEach fun _ _ h => h.serve

theorem Keeps.restoreEnd {off : Nat} {hit : Bool} (h : Keeps s t) : Keeps s (restoreEnd t off hit) := by
  unfold Machine.restoreEnd
  extract_lets
  split; exacts [h.frame, h]

theorem Keeps.restoreStep {e : Nat × Option LineData} (h : Keeps s t) : Keeps s (restoreStep t e) := by
  unfold Machine.restoreStep
  extract_lets
  split
  next e =>
    refine .ite (h.lookups.fst e) ?_
    extract_lets u1 _
    have h1 : Keeps s u1 := (h.lookups.fst e).touchLine
    split
    · refine .ite h1.owe ?_
      extract_lets
      split
      next e1 =>
        extract_lets u3
        have h3 : Keeps s u3 := (h1.frame.ensureUnit.ok e1).storeFree.putStack.clearPoison.setRec
        exact .ite h3.frame h3.restoreEnd
      · exact h1.frame.restoreEnd
    · exact h1.frame.restoreEnd

theorem Keeps.putSweep {n : Nat} {f : Sweep → Sweep} (h : Keeps s t) : Keeps s (putSweep t n f) := h.frame

theorem Keeps.bufferWord {n off v : Nat} (h : Keeps s t) : Keeps s (bufferWord t n off v) := .ite h.putSweep h.frame

theorem Keeps.sweepStep {e : Sweep} (h : Keeps s t) : Keeps s (sweepStep t e) := .ite h.putSweep.bufferWord h.clrBit.clrBit.frame

theorem Keeps.settle {fuel : Nat} (h : Keeps s t) : Keeps s (settle fuel t) := by
  induction fuel generalizing t with
  | zero => exact h
  | succ fuel ih =>
    unfold Machine.settle
    split
    · exact ih h.endSnoop
    · split
      · exact ih h.frame.startRecall
      · split
        · exact ih h.frame.serve
        · split
          · exact ih h.wbStep
          · split
            · exact ih h.restoreStep
            · split
              · exact ih h.sweepStep
              · exact h

theorem Keeps.cmpFinish {c : CmpWait} (h : Keeps s t) : Keeps s (cmpFinish t c) := .ite h.complete (.ite h.mgmtSend h)

theorem Keeps.cmpCheck (h : Keeps s t) : Keeps s (cmpCheck t) := h.frame.forEach fun _ _ h => h.cmpFinish

theorem Keeps.oweRegions (h : Keeps s t) : Keeps s (oweRegions t) := h.forEach fun _ _ h => h.forEach fun _ _ h => h.owe

theorem Keeps.settleAll (h : Keeps s t) : Keeps s (settleAll t) := .ite h.oweRegions.settle h.oweRegions.settle.cmpCheck

theorem Keeps.deferReq {h' : Nat} {r : Req} {rsn : Nat} (h : Keeps s t) : Keeps s (deferReq t h' r rsn) := h.frame.pmc.answer

theorem Keeps.activate {p : Nat × Req} (h : Keeps s t) : Keeps s (activate t p) := by
  unfold Machine.activate
  refine .ite ?_ h.frame.serve.settleAll
  split; exacts [.ite h.frame.frame.send h.frame.haEvent.fenceHost.settleAll, h.frame.frame.send]

theorem Keeps.activateAll {fuel n : Nat} (h : Keeps s t) : Keeps s (activateAll fuel t n) := by
  induction fuel generalizing t with
  | zero => exact h
  | succ fuel ih =>
    unfold Machine.activateAll
    split
    · exact h
    · exact ih h.activate

theorem Keeps.takeRequest {r : Req} (h : Keeps s t) : Keeps s (takeRequest t r) :=
  .ite (.ite (.frame (.ite h.activateAll h)) (.settleAll (.serve (.ite h.activateAll h)))) (.ite (.ite (.frame (.ite h.activateAll h))
    (.deferReq (.ite h.activateAll h))) (.ite (.ite (.frame (.ite h.activateAll h)) (.deferReq (.ite h.activateAll h))) (.settleAll
    (.serve (.ite h.activateAll h)))))

theorem Keeps.recallAll {ls : List Nat} (h : Keeps s t) : Keeps s (recallAll t ls) := .settleAll (h.forEach fun _ _ h => h.owe)

theorem Keeps.unitLookups {units : List Nat} (h : Keeps s t) : Keeps s (unitLookups t units).1 := by
  unfold Machine.unitLookups
  refine .iteFst h ?_
  split
  next e =>
    refine Keeps.fstThen (s := s) (.foldlFst h fun p x h => .iteFst h ?_) (fun k => .iteFst (.inFst k.settleAll) k) e
    split
    next e => exact .inFst (h.lookupErr.fst e).startTxn
    next e => exact h.lookupErr.fst e

theorem Keeps.askData {src : Master} {off : Nat} (h : Keeps s t) : Keeps s (askData t src off) := .ite h h.startTxn.settleAll

theorem Keeps.homeRequest {r : Req} (h : Keeps s t) : Keeps s (homeRequest t r) := by
  unfold Machine.homeRequest
  refine .ite h.protoErr.sendErr ?_
  refine .ite h.protoErr.sendErr ?_
  split
  · exact h.addrFault.sendErr
  · exact .ite h.incCnt.sendErr (.ite h.addrFault.sendErr (.ite h.violate.sendErr (.ite h.violate.sendErr (.ite h.addrFault.sendErr (.ite
      h.addrFault.sendErr h.takeRequest)))))

/-! ### The gateway and its staging (chapter 12) -/

theorem Keeps.gwEvent {b addr : Nat} (h : Keeps s t) : Keeps s (gwEvent t b addr) := h.setBit.incCnt.logErr

theorem Keeps.farUp {c ga : Nat} (h : Keeps s t) : Keeps s (farUp t c ga).2 :=
  .iteSnd (.inSnd h) (.iteSnd (.inSnd h) (.inSnd h.gwEvent))

theorem Keeps.tellFar {c ga : Nat} {words : List Nat} (h : Keeps s t) : Keeps s (tellFar t c ga words) := by
  unfold Machine.tellFar
  split
  next e => exact (h.farUp.snd e).send
  next e => exact h.farUp.snd e

theorem Keeps.putReel {k : Nat} {r : Reel} (h : Keeps s t) : Keeps s (putReel t k r) := h.frame

theorem Keeps.freeReel {k : Nat} (h : Keeps s t) : Keeps s (freeReel t k) := h.frame.zeroMem

theorem Keeps.gwMsg {c addr dom : Nat} {slots words : List Nat} {d : LineData} (h : Keeps s t) :
    Keeps s (gwMsg t c addr dom slots words d) :=
  h.send.fromAgent

theorem Keeps.writebackLines {k : Nat} {r : Reel} (h : Keeps s t) : Keeps s (writebackLines t k r) := by
  unfold Machine.writebackLines
  extract_lets _ _ u1 _ _
  have h1 : Keeps s u1 := by
    unfold u1
    split
    next e => exact (h.takeInj.getSnd e).gwEvent.setPoison
    next e => exact h
  exact h1.gwMsg.forEach fun _ _ h => h.gwMsg

theorem Keeps.gwWork (h : Keeps s t) : Keeps s (gwWork t) := h.askStart

theorem Keeps.sendWriteback {k : Nat} {r : Reel} (h : Keeps s t) : Keeps s (sendWriteback t k r) :=
  .writebackLines (.putReel (.pmc (.gwWork (.incCnt (.frame (h.forEach fun _ _ h => h.freeReel))))))

theorem Keeps.takeSlot (h : Keeps s t) : KeepsOpt s ((takeSlot t).map Prod.snd) := by
  unfold Machine.takeSlot
  split
  · exact .some (.inSnd h)
  · extract_lets
    split
    · exact .some (.inSnd h.frame.freeReel)
    · split; exacts [.some (.inSnd h.frame.freeReel), .none]

theorem Keeps.pressDirty (h : Keeps s t) : Keeps s (pressDirty t) := by
  unfold Machine.pressDirty
  split; exacts [h.sendWriteback, h]

theorem Keeps.sendReelRead {k : Nat} {r : Reel} (h : Keeps s t) : Keeps s (sendReelRead t k r) :=
  h.frame.incCnt.gwWork.frame.gwMsg

theorem Keeps.gwReply {addr : Nat} {r : Req} {op st err : Nat} {d : LineData} {p : Bool} (h : Keeps s t) :
    Keeps s (gwReply t addr r op st err d p) :=
  h.answer

theorem Keeps.reelServe {k addr : Nat} {r : Req} (h : Keeps s t) : Keeps s (reelServe t k addr r) := by
  unfold Machine.reelServe
  extract_lets key u v old new put cleared
  have h : Keeps s u := h.frame
  refine .ite (Keeps.gwReply ‹_›) ?_
  have hv : Keeps s v := by
    unfold v
    split
    next e => exact (h.takeInjUnless.getSnd e).gwEvent.setPoison
    · exact h
  have hcleared : Keeps s cleared := .ite hv.putLine.clrPoison hv.putLine
  clear_value u v cleared
  cases r.op with
  | rdnc =>
    dsimp only
    split
    next e => exact (h.takeInj.getSnd e).gwEvent.gwReply
    · exact h.gwReply
  | _ =>
    dsimp only
    split
    · exact h
    · exact .ite hv.gwReply hcleared.putReel.gwReply

theorem Keeps.gwServe {first : Bool} {addr : Nat} {r : Req} (h : Keeps s t) : Keeps s (gwServe first t addr r) := by
  unfold Machine.gwServe
  extract_lets count dirty w op i mine usable u
  refine .ite h.gwReply (.ite h.gwEvent.gwReply (.ite (.sendReq (.ite h (h.forEach fun _ _ h => h.sendWriteback))) ?_))
  have hcount (n : Nat) : Keeps s (count t n) := .ite h.pmc h
  split
  · exact (hcount 1).reelServe
  · have h : Keeps s u := hcount 2
    clear_value u
    refine .ite h.frame ?_
    split
    · exact h.putReel
    · split
      · exact h.frame.pressDirty
      next e => exact .ite (h.takeSlot.getSnd e).frame.reelServe (h.takeSlot.getSnd e).sendReelRead

theorem Keeps.gwAccess {addr : Nat} {r : Req} (h : Keeps s t) : Keeps s (gwAccess t addr r) := .ite h h.pmc.gwServe

theorem Keeps.kernelFetch {win : Nat} {ver : Option (Nat × Nat)} {addr : Nat} (h : Keeps s t) :
    KeepsOpt s (kernelFetch t win ver addr) := by
  unfold Machine.kernelFetch
  split; exacts [.some h.putReel, h.takeSlot.mapSnd fun _ h => h.sendReelRead]

theorem Keeps.kernelOutput {win addr : Nat} (h : Keeps s t) : KeepsOpt s (kernelOutput t win addr) :=
  h.takeSlot.mapSnd fun _ h => h.frame

theorem Keeps.serveMissq {q : List Miss} (h : Keeps s t) : Keeps s (serveMissq t q) := by
  induction q generalizing t with
  | nil => exact h
  | cons m q ih =>
    unfold Machine.serveMissq
    split
    · extract_lets
      split
      · exact ih h
      · split
        next e => exact ih (KeepsOpt.get (.ite h.kernelFetch h.kernelOutput) e)
        · exact h.frame
    · exact .ite h.frame (ih h.gwServe)

theorem Keeps.drainMissq (h : Keeps s t) : Keeps s (drainMissq t) := h.frame.serveMissq

theorem Keeps.kernelQueue {win : Nat} {op : ReqOp} {ver : Option (Nat × Nat)} {addr : Nat} (h : Keeps s t) :
    Keeps s (kernelQueue t win op ver addr) :=
  h.frame.pressDirty

theorem Keeps.kernelStage {win : Nat} {ver : Option (Nat × Nat)} {addr : Nat} {miss : State → State} {dom : Option Nat}
    {staged : Nat → KAcc LineData} (h : Keeps s t) (hmiss : ∀ u, Keeps s u → Keeps s (miss u)) (hstaged : ∀ u, KAcc.Keeps s (staged u)) :
    KAcc.Keeps s (kernelStage t win ver addr miss dom staged) := by
  unfold Machine.kernelStage
  split
  · split
    next e => exact (KAcc.Keeps.ok (hstaged _) e).putReel
    · exact hstaged _
  · refine .ite ?_ ?_
    · exact h
    · refine .ite ?_ ?_
      · exact h.kernelFetch.getD h
      · refine .ite ?_ ?_
        · exact h
        · extract_lets _ _ u2
          have h2 : Keeps s u2 := .ite (.pmc (hmiss _ h)) (hmiss _ h)
          split
          next e => exact h2.kernelFetch.get e
          · exact h2.kernelQueue

theorem Keeps.gwKernelRead {win : Nat} {ver : Option (Nat × Nat)} {addr : Nat} (h : Keeps s t) :
    KAcc.Keeps s (gwKernelRead t win ver addr) := by
  unfold Machine.gwKernelRead
  extract_lets dom hit miss staged
  have hstaged : ∀ k, KAcc.Keeps s (staged k) := by
    intro k
    unfold staged
    split
    next e => exact (h.takeInj.getSnd e).gwEvent
    · exact .ite (by exact h) (by exact h.pmc.pmc)
  refine .ite (by exact h.gwEvent) ?_
  split
  · exact .ite (hstaged _) (h.kernelStage (fun _ h => h.pmc.pmc) hstaged)
  · exact h.kernelStage (fun _ h => h.pmc.pmc) hstaged

theorem Keeps.gwKernelWrite {win dom addr : Nat} {d : LineData} (h : Keeps s t) : KAcc.Keeps s (gwKernelWrite t win dom addr d) := by
  unfold Machine.gwKernelWrite
  refine .ite ?_ ?_
  · exact h.gwEvent
  · split
    · exact h.putLine.clrPoison.putReel
    · refine .ite ?_ ?_
      · refine .ite ?_ ?_
        · exact h
        · split
          · exact h.kernelQueue
          next e => split; exacts [(h.kernelOutput.get e).putLine.clrPoison.putReel, (h.kernelOutput.get e)]
      · split
        · exact h
        · exact h
        next e => exact (h.allocFrames.ok e).frame.putLine.clrPoison.putReel

/-! ### Tag registers (chapter 17) -/

theorem Keeps.tagLoad {key rank : Nat} (h : Keeps s t) : Keeps s (tagLoad t key rank) := .ite h h.frame

theorem Keeps.tagAdvance {key : Nat} (h : Keeps s t) : Keeps s (tagAdvance t key).2 := .inSnd h.frame

theorem Keeps.ringPush {st base : Nat} {ws : List Word} (h : Keeps s t) : Keeps s (ringPush t st base ws) :=
  .ite h.regPut h.regSetList.regPut

theorem Keeps.tagPush {lathe : Option Nat} {dom : Nat} {ws : List Word} (h : Keeps s t) : Keeps s (tagPush t lathe dom ws) := by
  unfold Machine.tagPush
  extract_lets u1
  have h1 : Keeps s u1 := by unfold u1; split; exacts [h.pmc, h]
  exact h1.ringPush

/-! ### Versions of regions (chapter 02) -/

theorem Keeps.dropCached {keys : List Nat} (h : Keeps s t) : Keeps s (dropCached t keys) := h.frame

theorem Keeps.recache {old new : Nat} (h : Keeps s t) : Keeps s (recache t old new) := h.frame

theorem Keeps.zeroVersion {r v : Nat} {us keys : List Nat} (h : Keeps s t) : Keeps s (zeroVersion t r v us keys) :=
  .memory (.forEach h fun _ _ h => h.zeroMem) fun hm => Memory.wf_filter _ hm

theorem Keeps.releaseVersion {r v : Nat} (h : Keeps s t) : Keeps s (releaseVersion t r v) := by
  unfold Machine.releaseVersion
  extract_lets _ _ _ _ _ _ _ _ _ _ _ u2 _ _ _ _ _
  have h2 : Keeps s u2 := h.dropCached.forEach fun _ _ h => h.recache
  exact .ite (.ite h2.poolDrop.frame.dropMeta.zeroVersion h2.poolDrop.frame.dropMeta.zeroVersion.releaseFor) (.setMedUse (.ite
    h2.poolDrop.frame.dropMeta.zeroVersion h2.poolDrop.frame.dropMeta.zeroVersion.releaseFor))

theorem Keeps.sweepVersions {r : Nat} (h : Keeps s t) : Keeps s (sweepVersions t r) := by
  unfold Machine.sweepVersions
  refine .ite h ?_
  extract_lets _ u1
  have h1 : Keeps s u1 := h.forEach fun _ _ h => h.releaseVersion
  split; exacts [h1, h1.rgPut]

theorem Keeps.sweepPins {ps : List (Nat × Nat)} (h : Keeps s t) : Keeps s (sweepPins t ps) :=
  h.forEach fun _ _ h => h.sweepVersions

theorem Keeps.writeReplica {r : Nat} (h : Keeps s t) : Keeps s (writeReplica t r) := .frame (h.forEach fun _ _ h => h.copyUnit)

theorem Keeps.refreshReplica {r : Nat} (h : Keeps s t) : Keeps s (refreshReplica t r) := .ite h (.ite h h.writeReplica)

theorem Keeps.dropRecords {lo len : Nat} (h : Keeps s t) : Keeps s (dropRecords t lo len) := h.frame

theorem Keeps.deleteRegion {r : Nat} (h : Keeps s t) : Keeps s (deleteRegion t r) := by
  unfold Machine.deleteRegion
  extract_lets _ _ u1 _ _ _ _ _ u4 _ _ _ _ _
  have h1 : Keeps s u1 := h.forEach fun _ _ h => h.releaseVersion
  have h4 : Keeps s u4 := .ite h1.dropCached.poolDrop.zeroMem h1.dropCached.poolDrop.zeroMem
  exact .regSetList (.dropMeta (.frame (.ite (.ite h4.dropRecords h4.dropRecords.releaseFor) (.setMedUse (.ite h4.dropRecords
    h4.dropRecords.releaseFor)))))

/-! ### Kernels' accesses, aborts and ends (chapters 04 and 06) -/

theorem Keeps.putKernel {k : Kernel} (h : Keeps s t) : Keeps s (putKernel t k) := h.frame

theorem Keeps.putLathe {l : Nat} {x : Lathe} (h : Keeps s t) : Keeps s (putLathe t l x) := h.frame

theorem Keeps.setLatheState {l v : Nat} (h : Keeps s t) : Keeps s (setLatheState t l v) := h.regPut

theorem Keeps.openGranule {l x : Nat} (h : Keeps s t) : Keeps s (openGranule t l x) :=
  .ite h (h.memory fun hm => Memory.wf_filter _ hm)

theorem Keeps.putScratch {l x : Nat} {d : LineData} (h : Keeps s t) : Keeps s (putScratch t l x d) := h.openGranule.putLine

theorem Keeps.putScratchN {l x n v : Nat} (h : Keeps s t) : Keeps s (putScratchN t l x n v) := h.openGranule.writeN

theorem Keeps.chuckErrors {l : Nat} (h : Keeps s t) : Keeps s (chuckErrors t l).2 := by
  unfold Machine.chuckErrors
  extract_lets u1
  have h1 : Keeps s u1 := by
    unfold u1
    split
    next e => exact (h.takeInj.getSnd e).setBit.incCnt.logErr
    · exact h
  split
  next e => exact .inSnd (h1.takeInj.getSnd e).setBit.putLathe
  · exact .inSnd h1

theorem Keeps.chuckUeBy {l w : Nat} (h : Keeps s t) : Keeps s (chuckUeBy t l w) := .ite h h.putLathe

theorem Keeps.releaseShadow {x : Shadow} (h : Keeps s t) : Keeps s (releaseShadow t x) := by
  unfold Machine.releaseShadow
  split; exacts [h.releaseFor, h.releaseFrames]

theorem Keeps.freeShadows {w : Nat} (h : Keeps s t) : Keeps s (freeShadows t w) := by
  unfold Machine.freeShadows
  refine h.frame.forEach fun _ _ h => ?_
  extract_lets u2
  have h2 : Keeps s u2 := by unfold u2; split; exacts [h.setMedResv, h]
  exact h2.zeroMem.releaseShadow

theorem Keeps.freeOutputs {w dom : Nat} (h : Keeps s t) : Keeps s (freeOutputs t w dom) :=
  h.forEach fun _ _ h => .ite h.freeReel.releaseFrames h.freeReel

theorem Keeps.releaseHeld {w : Nat} (h : Keeps s t) : Keeps s (releaseHeld t w) :=
  .settleAll (h.frame.forEach fun _ _ h => h.serve)

theorem Keeps.stopLathe {l : Nat} (h : Keeps s t) : Keeps s (stopLathe t l) := by
  unfold Machine.stopLathe
  extract_lets _ _ u1 _ _ _ _
  have h1 : Keeps s u1 := h.forEach fun _ _ h => h.tagPush
  exact .setLatheState (.ite h1.pmcEnd.pmcEnd.putLathe.regPut.regSet.setBit.incCnt h1.pmcEnd.pmcEnd.putLathe)

theorem Keeps.stopCtx {n : Nat} (h : Keeps s t) : Keeps s (stopCtx t n) := by
  unfold Machine.stopCtx
  extract_lets _ u1 _
  have h1 : Keeps s u1 := by unfold u1; split; exacts [h.frame, h]
  exact .regPut (.ite h1 h1.setBit.incCnt.regSet)

theorem Keeps.stopKite {n : Nat} (h : Keeps s t) : Keeps s (stopKite t n) := .regPut (.ite h h.setBit.incCnt.regSet)

theorem Keeps.nameUnits {k : Kernel} {ga len : Nat} (h : Keeps s t) : Keeps s (nameUnits t k ga len) := h.frame

theorem Keeps.readDone {w : Nat} (h : Keeps s t) : Keeps s (readDone t w) := h.frame.streamDrop

theorem Keeps.unnameUnits {k : Kernel} {ga len : Nat} (h : Keeps s t) : Keeps s (unnameUnits t k ga len) := h.frame.readDone

theorem Keeps.walkTally {k : Kernel} {i : Nat} (h : Keeps s t) : Keeps s (walkTally t k i) := h.forEach fun _ _ h => h.pmcEnd

theorem Keeps.kernelAbort {w : Nat} {f : FaultRec} (h : Keeps s t) : Keeps s (kernelAbort t w f) := by
  unfold Machine.kernelAbort
  split
  · exact h
  · refine .ite h ?_
    exact .releaseHeld (.freeOutputs (.freeShadows (.forEach (.forEach (h.pmc.walkTally.frame.putKernel.forEach fun _ _ h => h.stopLathe)
      fun _ _ h => h.stopCtx) fun _ _ h => h.stopKite)))

theorem Keeps.leaveHang {w : Nat} {guilty : Bool} (h : Keeps s t) : Keeps s (leaveHang t w guilty) :=
  .ite h.frame.recovEvent h.frame

theorem Keeps.startHang {eng w : Nat} {others : List Nat} (h : Keeps s t) : Keeps s (startHang t eng w others) := by
  unfold Machine.startHang
  extract_lets
  split
  · exact h.setBit.incCnt
  · exact .ite h.setBit.incCnt.recovEvent.putKernel.leaveHang (.frame (.collectDump (h.setBit.incCnt.forEach fun _ _ h => h.kernelAbort)))

theorem Keeps.kernelFaultAt {w eng kind unit code addr : Nat} {others : List Nat} (h : Keeps s t) :
    Keeps s (kernelFaultAt t w eng kind unit code addr others) := by
  unfold Machine.kernelFaultAt
  split
  · exact h
  · refine .ite h ?_
    extract_lets u1 _ _
    have h1 : Keeps s u1 := .ite h.violate (.ite h h.logErr)
    refine .ite ?_ (.ite (.startHang (.kernelAbort (.ite h1.collectDump h1))) (.kernelAbort (.ite h1.collectDump h1)))
    split; exacts [.putKernel (.kernelAbort (.ite h1.collectDump h1)), .kernelAbort (.ite h1.collectDump h1)]

theorem Keeps.kernelFault {w : Nat} {e : Engine} {code addr : Nat} {others : List Nat} (h : Keeps s t) :
    Keeps s (kernelFault t w e code addr others) := by
  unfold Machine.kernelFault
  split
  exact h.kernelFaultAt

theorem Keeps.latheFaultAt {l code slot pc addr : Nat} (h : Keeps s t) : Keeps s (latheFaultAt t l code slot pc addr) := by
  unfold Machine.latheFaultAt
  extract_lets _ u2 _
  have h2 : Keeps s u2 := .ite h.setBit.incCnt.setBit (.ite h.setBit.incCnt.setBit (.ite h.setBit.incCnt.setBit (.ite
    h.setBit.incCnt.setBit h.setBit.incCnt)))
  exact .kernelFault (.ite h2.regSet.regSet h2)

theorem Keeps.latheFault {l code slot addr : Nat} (h : Keeps s t) : Keeps s (latheFault t l code slot addr) := h.latheFaultAt

theorem Keeps.releaseHolds {k : Kernel} (h : Keeps s t) : Keeps s (releaseHolds t k) := h.forEach fun _ _ h => h.tellFar

theorem Keeps.endKernel {w : Nat} (h : Keeps s t) : Keeps s (endKernel t w) := by
  unfold Machine.endKernel
  split
  · exact h
  · extract_lets _ u2 _ _ _ _
    have h2 : Keeps s u2 := .ite (.releaseHolds (.ite h.regSub h)) (.ite h.regSub h)
    exact .forEach (.sweepPins (.dropCached (.forEach (.frame (.streamDrop (.ite h2 h2.releaseFrames))) fun _ _ h => h.tellFar)))
      fun _ _ h => h.refreshReplica

theorem Keeps.freeLathe {l : Nat} (h : Keeps s t) : Keeps s (freeLathe t l) := h.regSet.regSet.setLatheState

theorem Keeps.freeCtx {n : Nat} (h : Keeps s t) : Keeps s (freeCtx t n) := h.regSet.regSet.regPut

theorem Keeps.freeKite {n : Nat} (h : Keeps s t) : Keeps s (freeKite t n) := h.regSet.regSet.regPut

theorem Keeps.freeEngines {k : Kernel} (h : Keeps s t) : Keeps s (freeEngines t k) :=
  .forEach (.forEach (h.forEach fun _ _ h => h.freeLathe) fun _ _ h => h.freeCtx) fun _ _ h => h.freeKite

theorem Keeps.releaseKernel {w : Nat} (h : Keeps s t) : Keeps s (releaseKernel t w) := by
  unfold Machine.releaseKernel
  split
  · exact h
  · split; exacts [h, h.freeEngines.endKernel.complete]

theorem Keeps.dropStart {w addr : Nat} (h : Keeps s t) : Keeps s (dropStart t w addr) := by
  unfold Machine.dropStart
  split; exacts [h, h.freeEngines.endKernel.complete]

theorem Keeps.kGrant (h : Keeps s t) : KAcc.Keeps s (kGrant t : KAcc α) := h

theorem Keeps.kReadUnit {k : Kernel} {r off key : Nat} (h : Keeps s t) : KAcc.Keeps s (kReadUnit t k r off key) := by
  unfold Machine.kReadUnit
  split
  · exact h.streamAwait.fetchUnit
  · refine .ite ?_ ?_
    · exact h
    · split
      next e => exact (h.lookupErr.fst e).startTxn.settleAll
      next e => split; exacts [(h.lookupErr.fst e), (h.lookupErr.fst e).streamRead.frameHit]

theorem Keeps.kAwait {k : Kernel} {r off u : Nat} (h : Keeps s t) : Keeps s (kAwait t k r off u) := h.streamAwait.fetchUnit

theorem Keeps.kFound {k : Kernel} {r off : Nat} (h : Keeps s t) : Keeps s (kFound t k r off) := by
  unfold Machine.kFound
  split; exacts [.ite h h.streamRead, h]

theorem Keeps.kReadHome {k : Kernel} {lathe : Bool} {off : Nat} (h : Keeps s t) : KAcc.Keeps s (kReadHome t k lathe off) := by
  unfold Machine.kReadHome
  split
  · exact h
  · refine .ite ?_ ?_
    · exact h
    · refine .ite h.kGrant ?_
      refine .ite ?_ ?_
      · extract_lets
        split <;> exact h
      · refine .ite ?_ ?_
        · refine .ite ?_ h.kReadUnit
          extract_lets
          split
          next e =>
            refine .ite ?_ ?_
            · exact (h.chuckErrors.snd e).chuckUeBy
            · split <;> exact h.chuckErrors.snd e
        · refine .ite ?_ ?_
          · exact h
          · split
            · exact h.kAwait
            · refine .ite ?_ ?_
              · exact h
              · split
                next e => exact (h.lookupErr.fst e).startTxn.settleAll
                next e =>
                  extract_lets u1
                  have h1 : Keeps s u1 := (h.lookupErr.fst e).touchLine
                  split
                  · refine .ite ?_ ?_
                    · exact h1.askData
                    · split; exacts [h1, h1.kFound.frameHit]

theorem KAcc.Keeps.counted {α : Type} {a : KAcc α} {k : Kernel} {off i : Nat} (ha : KAcc.Keeps s a) :
    KAcc.Keeps s (KAcc.counted a k off i) := by
  unfold Machine.KAcc.counted
  split; exacts [ha.homeCount, ha]

theorem KAcc.Keeps.crossed {α : Type} {a : KAcc α} {k : Kernel} {off : Nat} {write : Bool} {d : α → LineData} (ha : KAcc.Keeps s a) :
    KAcc.Keeps s (KAcc.crossed a k off write d) := by
  unfold Machine.KAcc.crossed
  split; exacts [ha.crossCore, ha]

theorem KAcc.Keeps.throughGw {α : Type} {a : KAcc α} {k : Kernel} {ga : Nat} {write : Bool} {d : α → LineData} (ha : KAcc.Keeps s a) :
    KAcc.Keeps s (KAcc.throughGw a k ga write d) := by
  unfold Machine.KAcc.throughGw
  split; exacts [ha.crossCore, ha]

theorem Keeps.kReadChuck {k : Kernel} {l x : Nat} (h : Keeps s t) : KAcc.Keeps s (kReadChuck t k l x) := by
  unfold Machine.kReadChuck
  refine .ite h.kGrant ?_
  split
  next e =>
    refine .ite ?_ ?_
    · exact (h.chuckErrors.snd e).chuckUeBy
    · split <;> exact h.chuckErrors.snd e

theorem Keeps.kReadFar {k : Kernel} {c ga : Nat} {up : Bool} {ext : Option FarLine} (h : Keeps s t) :
    KAcc.Keeps s (kReadFar t k c ga up ext) := by
  unfold Machine.kReadFar
  split
  · exact h
  · extract_lets _ got
    clear_value got
    split
    · split <;> exact h.frame
    · split
      · exact h
      · split; exacts [h, h.sendReq]

theorem Keeps.kWriteFar {k : Kernel} {ga : Nat} {d : LineData} {grp : Option Nat} (h : Keeps s t) : KAcc.Keeps s (kWriteFar t k ga d grp) :=
  h.frame

theorem Keeps.sendMulticast {k : Kernel} {g off : Nat} {outs : List (Nat × Nat)} {ts : List Nat} {who : ReqWho} {d : LineData}
    (h : Keeps s t) :
    Keeps s (sendMulticast t k g off outs ts who d) := by
  unfold Machine.sendMulticast
  extract_lets
  split
  next e =>
    refine .sndThen ?_ (fun k => .agentCell (k.forEach fun _ _ h => h.send)) e
    split
    · exact h
    · split
      next e => exact .inSnd (h.openReq.snd e).frame

theorem Keeps.sendOutputs {k : Kernel} (h : Keeps s t) : Keeps s (sendOutputs t k) :=
  .forEach (h.frame.forEach fun _ _ h => h.sendMulticast) fun _ _ h => h.sendReq

theorem Keeps.kRead {k : Kernel} {lathe : Bool} {ga : Nat} {ext : Option FarLine} (h : Keeps s t) :
    KAcc.Keeps s (kRead t k lathe ga ext) := by
  unfold Machine.kRead
  refine .ite (by exact h) ?_
  split
  · exact h
  · exact h.kReadFar
  · exact .ite (Keeps.kReadFar (.ite h h.gwEvent)) h.gwKernelRead.throughGw
  · refine .crossed ?_
    split
    · exact h.kReadHome.counted
    · exact h.kReadHome.counted
    · exact h.kReadChuck
    · split; exacts [h, h.kGrant]
    · split; exacts [h, h.kGrant]
    · split; exacts [h, h.kGrant]
    · exact h

theorem Keeps.makeShadow {k : Kernel} {off : Nat} (h : Keeps s t) : KAcc.Keeps s (makeShadow t k off) := by
  unfold Machine.makeShadow
  refine .ite ?_ ?_
  · exact h
  · refine .ite ?_ ?_
    · exact h.unitLookups
    · refine .ite ?_ ?_
      · exact h.recallAll
      · refine .ite ?_ ?_
        · exact h
        · extract_lets
          split
          · exact h
          · refine .ite ?_ ?_
            · exact h
            · split
              · exact h.kAwait
              · split
                · exact h
                · exact h
                next e =>
                  extract_lets u1 _ _
                  have h1 : Keeps s u1 := by unfold u1; split; exacts [(h.allocFor.ok e).kFound.copyUnit, (h.allocFor.ok e)]
                  exact .frame (.homeCount (.forEach (.ite h1.setMedResv h1) fun _ _ h => h.putLine))

theorem Keeps.kWriteHome {k : Kernel} {off ga : Nat} {d : LineData} {mask : BitVec 64} (h : Keeps s t) :
    KAcc.Keeps s (kWriteHome t k off ga d mask) := by
  unfold Machine.kWriteHome
  split
  · exact h
  · refine .ite h.kGrant ?_
    split
    next e =>
      extract_lets
      split; exacts [(h.makeShadow.ok e), (h.makeShadow.ok e).putLine.clrPoison]
    next e => exact h.makeShadow.fault e
    next e => exact h.makeShadow.wait e

theorem Keeps.kWriteChuck {k : Kernel} {l x : Nat} {d : LineData} (h : Keeps s t) : KAcc.Keeps s (kWriteChuck t k l x d) := by
  unfold Machine.kWriteChuck
  refine .ite h.kGrant ?_
  split
  · split; exacts [h.countedWrite, h.kGrant]
  · refine .ite ?_ ?_
    · exact h.putScratch
    · split; exacts [h.kGrant, h.putScratch]

theorem Keeps.kWrite {ctl : CtlWrite} {k : Kernel} {ga : Nat} {d : LineData} (h : Keeps s t)
    (hctl : ∀ u x dom v, Keeps s u → Keeps s (ctl u x dom v)) :
    KAcc.Keeps s (kWrite ctl t k ga d) := by
  unfold Machine.kWrite
  split
  · exact h
  · split
    · exact h
    · exact .ite (.ite h.kWriteFar h.kGrant) (.ite h h.sendReq)
    · exact .ite (.ite h.gwKernelWrite.throughGw h.kGrant) (.ite h.gwEvent h.sendReq)
    · refine .crossed ?_
      split
      · exact h.kWriteHome.counted
      · exact h.kWriteHome.counted
      · exact h.kWriteChuck
      · split
        · exact h.kGrant
        · split
          next e => exact h.windowWrite.snd e
          next e => exact h.windowWrite.snd e
      · exact h.kGrant
      · exact .ite (hctl _ _ _ _ h) h.kGrant
      · exact h

theorem Keeps.keepLine {k : Kernel} {ga : Nat} {d : LineData} (h : Keeps s t) : Keeps s (keepLine t k ga d) := by
  unfold Machine.keepLine
  split; exacts [.ite h.frame h, h]

theorem Keeps.kReadKept {k : Kernel} {lathe : Bool} {ga : Nat} {ext : Option FarLine} (h : Keeps s t) :
    KAcc.Keeps s (kReadKept t k lathe ga ext) := by
  unfold Machine.kReadKept
  split
  · exact h
  · split
    next e => exact (h.kRead.ok e).keepLine
    · exact h.kRead

theorem Keeps.kReadLines {k : Kernel} {lathe : Bool} {ga n : Nat} {ext : Ext} (h : Keeps s t) :
    KAcc.Keeps s (kReadLines t k lathe ga n ext) := by
  induction n generalizing t ga with
  | zero => exact h
  | succ n ih =>
    unfold Machine.kReadLines
    split
    next e =>
      split
      next e' => exact (ih (h.kReadKept.ok e)).ok e'
      next e' => exact (ih (h.kReadKept.ok e)).fault e'
      next e' => exact (ih (h.kReadKept.ok e)).wait e'
    next e => exact h.kReadKept.fault e
    next e => exact h.kReadKept.wait e

theorem Keeps.kBytes {k : Kernel} {ga n : Nat} {ext : Machine.Ext} (h : Keeps s t) : KAcc.Keeps s (kBytes t k ga n ext) := by
  unfold Machine.kBytes
  split
  next e => exact h.kReadLines.ok e
  next e => exact h.kReadLines.fault e
  next e => exact h.kReadLines.wait e

theorem KAcc.Keeps.start {α β : Type} {a : KAcc α} {ga : Nat} {f : α → State → Start β} (ha : KAcc.Keeps s a)
    (hf : ∀ u x, Machine.Keeps s x → Start.Keeps s (f u x)) :
    Start.Keeps s (KAcc.start a ga f) := by
  unfold Machine.KAcc.start
  split; exacts [hf _ _ ha, ha, ha]

theorem Keeps.kOutLine {k : Kernel} {counted : Bool} {ga : Nat} {d : LineData} (h : Keeps s t) :
    KAcc.Keeps s (kOutLine t k counted ga d) := by
  unfold Machine.kOutLine
  refine .ite ?_ ?_
  · exact h
  · split
    · exact h
    · refine .ite ?_ ?_
      · exact h
      · refine .ite (.ite h.kWriteFar h.kGrant) ?_
        refine .ite ?_ ?_
        · exact h
        · split; exacts [h, h.sendReq]
    · refine .ite ?_ ?_
      · refine .ite ?_ ?_
        · exact h
        · split; exacts [h.gwEvent, h.sendReq]
      · split; exacts [h, .ite h.gwKernelWrite.throughGw h.kGrant]
    · refine .crossed (.ite ?_ ?_)
      · split
        · split
          · exact h.kWriteChuck
          · split
            · split; exacts [h.countedWrite, h.kGrant]
            · exact h
        · split
          · refine .ite h.kGrant ?_
            split
            next e => exact h.windowWrite.snd e
            next e => exact h.windowWrite.snd e
          · exact h
      · split; exacts [h.kWriteHome.counted, h.kWriteHome.counted, h]

theorem Keeps.kOutLines {k : Kernel} {counted : Bool} {ga : Nat} {ds : List LineData} (h : Keeps s t) :
    Start.Keeps s (kOutLines t k counted ga ds) := by
  induction ds generalizing t ga with
  | nil => exact h
  | cons d ds ih => exact h.kOutLine.start fun _ _ h => ih h

theorem Keeps.armHandle {h' : Handle} (h : Keeps s t) : Keeps s (armHandle t h') := by
  unfold Machine.armHandle
  split
  · exact h
  · split
    · split; exacts [h.armArea, h]
    · exact h
    · exact h.tellFar

/-! ### Commands of windows (chapter 08) -/

theorem Keeps.pollAfter {w : Nat} (h : Keeps s t) : Keeps s (pollAfter t w) := by
  unfold Machine.pollAfter
  extract_lets
  split
  · exact h
  · exact h
  · split
    next e => exact (h.farUp.snd e).sendReq
    next e => exact h.farUp.snd e

theorem Keeps.doCommandReady {w : Fin 1024} (h : Keeps s t) : Keeps s (doCommandReady w t) := by
  refine h.whenRunning fun u h => .ite h ?_
  extract_lets inj v
  have hinj : KeepsOpt s (inj.map Prod.snd) := h.takeInj
  have h : Keeps s v := by
    unfold v
    clear_value inj
    split
    next e => exact hinj.getSnd rfl
    · exact h
  clear_value v
  refine .ite h.refuseLen ?_
  split
  · exact h.refuse
  · exact .ite h.frame.putWin (.ite h.frame.putWin.setWinState.pollAfter h.frame.putWin.setWinState)

theorem Keeps.proceed {w : Nat} (h : Keeps s t) : Keeps s (proceed t w) := by
  unfold Machine.proceed
  split
  · refine .ite h.endKernel.refuse ?_
    extract_lets u1
    have h1 : Keeps s u1 := h.putKernel.regAdd.setWinState
    exact .ite h1.frame h1.frame
  · exact h.setWinState

theorem Keeps.afterTimeout {w : Nat} (h : Keeps s t) : Keeps s (afterTimeout t w) := h.endKernel.ldrEvent.complete

theorem Keeps.doAfterSatisfied {w : Fin 1024} {remote : BitVec 64} (h : Keeps s t) : Keeps s (doAfterSatisfied w remote t) := by
  unfold Machine.doAfterSatisfied
  refine h.whenRunning fun _ h => .ite h ?_
  split
  next e => exact (h.takeInj.getSnd e).afterTimeout
  · split; exacts [.ite h.proceed h.pollAfter, h]

theorem Keeps.doAfterTimeout {w : Fin 1024} (h : Keeps s t) : Keeps s (doAfterTimeout w t) := by
  unfold Machine.doAfterTimeout
  refine h.whenRunning fun _ h => .ite h ?_
  extract_lets u1
  have h1 : Keeps s u1 := by
    unfold u1
    split
    next e => exact h.takeInj.getSnd e
    · exact h
  exact h1.afterTimeout

theorem Keeps.armServe {w mode : Nat} {f : Nat → Nat → Nat → Nat ⊕ State} (h : Keeps s t)
    (hf : ∀ off size ctr u, f off size ctr = .inr u → Keeps s u) :
    Keeps s (armServe w mode t f) := by
  unfold Machine.armServe
  split
  · exact h
  · split
    · exact h.refuse
    · split
      · exact h.refuse
      next e => exact (hf _ _ _ _ e).complete

theorem Keeps.doArmBind {w : Fin 1024} (h : Keeps s t) : Keeps s (doArmBind w t) := by
  refine h.armServe fun off size ctr u e => ?_
  split at e <;> split at e
  · exact Sum.inr.inj e ▸ h.regPut.armWindow
  · exact nomatch e
  · exact nomatch e
  · exact Sum.inr.inj e ▸ h.frame.setCounter

theorem Keeps.doArmRearm {w : Fin 1024} (h : Keeps s t) : Keeps s (doArmRearm w t) := by
  refine h.armServe fun off size ctr u e => ?_
  split at e <;> split at e
  · exact Sum.inr.inj e ▸ h.armWindow
  · exact nomatch e
  · exact Sum.inr.inj e ▸ h.armArea
  · exact nomatch e

theorem Keeps.doArmUnbind {w : Fin 1024} (h : Keeps s t) : Keeps s (doArmUnbind w t) := by
  refine h.armServe fun off size ctr u e => ?_
  split at e
  · exact Sum.inr.inj e ▸ h.frame
  · exact nomatch e

theorem Keeps.doArmCommandMode {w : Fin 1024} (h : Keeps s t) : Keeps s (doArmCommandMode w t) := by
  refine h.armServe fun off size ctr u e => ?_
  split at e
  · split at e
    · exact Sum.inr.inj e ▸ h.regPut.armWindow
    · exact nomatch e
  · exact nomatch e

theorem Keeps.doDraftOpen {w : Fin 1024} (h : Keeps s t) : Keeps s (doDraftOpen w t) := by
  unfold Machine.doDraftOpen
  refine .ite h ?_
  refine .ite h.refuse ?_
  refine .ite h.refuse ?_
  refine .ite h ?_
  refine .ite h.complete ?_
  extract_lets
  split; exacts [h.complete, h.regSet.regSet.rgPut.regAdd.complete]

theorem Keeps.recallGone {ls : List Nat} (h : Keeps s t) : Keeps s (recallGone t ls) := .settleAll (h.forEach fun _ _ h => h.owe)

theorem Keeps.freeDraft {d : Nat} (h : Keeps s t) : Keeps s (freeDraft t d) :=
  .regSet (.regSet (.quotaClear (.regSub (.rgPut (.frame (.forEach (.poolDrop (.recallGone (h.frame.forEach
    fun _ _ h => h.addrFault.sendErr))) fun _ _ h => h.zeroMem))))))

theorem Keeps.doDraftDiscard {w : Fin 1024} (h : Keeps s t) : Keeps s (doDraftDiscard w t) := by
  unfold Machine.doDraftDiscard
  refine .ite h ?_
  refine .ite h.refuse ?_
  exact .ite h.refuse (.ite h.refuse (.complete (.sweepVersions (.ite (.setMedResv (.ite h.freeDraft h.freeDraft.releaseFor)) (.ite
    h.freeDraft h.freeDraft.releaseFor)))))

theorem Keeps.doPublish {w : Fin 1024} (h : Keeps s t) : Keeps s (doPublish w t) :=
  .ite h (.ite h.refuse (.ite h.refuse (.ite h.refuse h.frame.regPut.unitLookups.recallAll)))

theorem Keeps.endPublish {p : Pub} {st : Nat} {c : Cpl} (h : Keeps s t) : Keeps s (endPublish t p st c) :=
  h.dropDraftUnits.regPut.frame.complete

theorem Keeps.doSealComplete {d : Fin 1024} (h : Keeps s t) : Keeps s (doSealComplete d t) := by
  unfold Machine.doSealComplete
  refine h.whenRunning fun _ h => ?_
  extract_lets
  split
  · exact h
  · refine .ite h ?_
    exact .ite h.recallAll (.ite h (.ite h.endPublish (.ite h.endPublish (.ite h.endPublish (.ite (.writeStage (h.regPut.forEach
      fun _ _ h => h.storeEvict)) h.regPut)))))

theorem Keeps.doWritingDone {d : Fin 1024} {accepted : List (BitVec 40)} (h : Keeps s t) : Keeps s (doWritingDone d accepted t) := by
  unfold Machine.doWritingDone
  refine h.whenRunning fun _ h => ?_
  extract_lets
  split; exacts [.ite h.frame.regPut h.frame, h.frame]

theorem Keeps.mirrorVersion {r pred v : Nat} {us : List Nat} (h : Keeps s t) : Keeps s (mirrorVersion t r pred v us) :=
  .ite h (h.forEach fun _ _ h => h.forEach fun _ _ h => .ite h h.coverLine)

theorem Keeps.versionBytes {p : Pub} (h : Keeps s t) : Keeps s (versionBytes t p) := by
  unfold Machine.versionBytes
  extract_lets
  split
  exact .frame (.forEach (.copyMem (h.forEach fun _ _ h => h.storeEvict)) fun _ _ h => h.copyMem)

theorem Keeps.publishCommit {p : Pub} {us between : List Nat} (h : Keeps s t) : Keeps s (publishCommit t p us between) := by
  unfold Machine.publishCommit
  extract_lets _ _ _ _ _ _ _ _ _ _ u4 _ _ _ _
  have h4 : Keeps s u4 := .ite h.frame.rgPut.poolDrop.frame.mirrorVersion (h.frame.rgPut.poolDrop.frame.forEach fun _ _ h => h.coverFill)
  exact .refreshReplica (.sweepVersions (.freeDraft (.ite (.setMedUse (.setMedResv (.ite h4 h4.releaseFor))) (.ite h4 h4.releaseFor))))

theorem Keeps.staleLookups {p : Pub} {us between : List Nat} (h : Keeps s t) : Keeps s (staleLookups t p us between).1 :=
  h.unitLookups

theorem Keeps.publishEnd {p : Pub} {us between : List Nat} (h : Keeps s t) : Keeps s (publishEnd t p us between) :=
  h.pmc.publishCommit.complete

theorem Keeps.retainEight {r : Nat} (h : Keeps s t) : Keeps s (retainEight t r) := h.forEach fun _ _ h => h.releaseVersion

theorem Keeps.decidedOn {p : Pub} (h : Keeps s t) : Keeps s (decidedOn t p) := by
  unfold Machine.decidedOn
  extract_lets
  split
  next e => exact .ite (h.staleLookups.fst e) (.ite (h.staleLookups.fst e).recallAll (h.staleLookups.fst e).publishEnd.retainEight)

theorem Keeps.doPublishDecide {d : Fin 1024} (h : Keeps s t) : Keeps s (doPublishDecide d t) := by
  unfold Machine.doPublishDecide
  refine h.whenRunning fun _ h => ?_
  extract_lets
  split
  · exact h
  · refine .ite h ?_
    refine .ite h.decidedOn ?_
    refine .ite h.endPublish ?_
    refine .ite h.endPublish ?_
    extract_lets
    split
    next e =>
      refine .ite (h.staleLookups.fst e) ?_
      refine .ite (h.staleLookups.fst e).recallAll ?_
      split
      · exact (h.staleLookups.fst e).endPublish
      · exact (h.staleLookups.fst e).endPublish
      next e1 => exact .ite ((h.staleLookups.fst e).allocFor.ok e1).setStage.appendRecord ((h.staleLookups.fst e).allocFor.ok
        e1).versionBytes.publishEnd

theorem Keeps.doPlanUnload {w : Fin 1024} (h : Keeps s t) : Keeps s (doPlanUnload w t) :=
  .ite h (.ite h.refuse (.ite h.refuse (.ite h.refuse h.zeroMem.releaseFrames.frame.regSet.regSet.complete)))

/-! ### What contexts and kites share (chapters 10 and 11) -/

theorem Keeps.putCtx {n : Nat} {c : Ctx} (h : Keeps s t) : Keeps s (putCtx t n c) := h.frame

theorem Keeps.putKite {n : Nat} {c : Ctx} (h : Keeps s t) : Keeps s (putKite t n c) := h.frame

theorem Keeps.engErr {err cnt ue code : Nat} (h : Keeps s t) : Keeps s (engErr t err cnt ue code) := by
  unfold Machine.engErr
  extract_lets
  split; exacts [h.setBit.incCnt.setBit, h.setBit.incCnt]

theorem Keeps.ctxFault {n code addr : Nat} (h : Keeps s t) : Keeps s (ctxFault t n code addr) := by
  unfold Machine.ctxFault
  exact .kernelFault (.ite h.engErr.regSet.regSet h.engErr)

theorem Keeps.kiteFault {n code addr : Nat} (h : Keeps s t) : Keeps s (kiteFault t n code addr) := by
  unfold Machine.kiteFault
  exact .kernelFault (.ite h.engErr.regSet.regSet h.engErr)

theorem Keeps.kiteCycle {i n dom : Nat} (h : Keeps s t) : Keeps s (kiteCycle i t n dom) := h.pmc.pmc

theorem Keeps.kiteWorkCycle {n dom : Nat} (h : Keeps s t) : Keeps s (kiteWorkCycle t n dom) := by
  unfold Machine.kiteWorkCycle
  extract_lets
  split; exacts [h.pmc.putKernel, h.pmc.pmcEnd]

theorem gougeKind_keeps : EngKind.Keeps gougeKind := ⟨fun h => h.putCtx, fun h => h.ctxFault, id⟩

theorem kiteKind_keeps : EngKind.Keeps kiteKind := ⟨fun h => h.putKite, fun h => h.kiteFault, fun h => h.kiteCycle⟩

theorem kwalkKind_keeps : EngKind.Keeps kwalkKind := ⟨fun h => h.putKite, fun h => h.kiteFault, fun h => h.kiteWorkCycle⟩

theorem EngKind.Keeps.ctxAdvance {e : EngKind} {n : Nat} {c : Ctx} {pc : Nat} (hk : EngKind.Keeps e) (h : Machine.Keeps s t) :
    Machine.Keeps s (ctxAdvance e t n c pc) := by
  unfold Machine.ctxAdvance
  split
  exact .ite (hk.fault (hk.put h)) (hk.put h)

theorem EngKind.Keeps.insn {e : EngKind} {n : Nat} {f : Ctx → Kernel → State → CRes} (hk : EngKind.Keeps e) (h : Machine.Keeps s t)
    (hf : ∀ u x y, Machine.Keeps s y → CRes.Keeps s (f u x y)) :
    Machine.Keeps s (insn e n t f) := by
  unfold Machine.insn
  refine h.whenRunning fun _ h1 => ?_
  refine .ite h1 ?_
  split
  · exact h1
  · refine hk.cycle ?_
    split
    next e => exact hk.ctxAdvance (CRes.Keeps.next (hf _ _ _ h1) e).readDone
    next e => exact CRes.Keeps.stay (hf _ _ _ h1) e
    next e => exact hk.fault (CRes.Keeps.fault (hf _ _ _ h1) e)

theorem EngKind.Keeps.cOp {e : EngKind} {n : Nat} {d : BitVec 4} {f : Ctx → Kernel → Word} (hk : EngKind.Keeps e) (h : Machine.Keeps s t) :
    Machine.Keeps s (cOp e n d t f) :=
  hk.insn h fun _ _ _ h => h

theorem EngKind.Keeps.cId {e : EngKind} {n : Nat} {d k : BitVec 4} {count : Kernel → Nat} {unit : Nat} (hk : EngKind.Keeps e)
    (h : Machine.Keeps s t) :
    Machine.Keeps s (cId e n d k count unit t) :=
  hk.insn h fun _ _ _ h1 => .ite h1 h1

theorem EngKind.Keeps.cLoop {e : EngKind} {n len : Nat} {trips : Kernel → Nat} (hk : EngKind.Keeps e) (h : Machine.Keeps s t) :
    Machine.Keeps s (cLoop e n len trips t) := by
  refine hk.insn h fun c k u h => ?_
  extract_lets crosses
  refine .ite h (.ite (by exact hk.ctxAdvance h) ?_)
  exact Keeps.ite (hk.fault (hk.put h)) (hk.put h)

theorem EngKind.Keeps.cWait {e : EngKind} {n : Nat} {ch gv gt : BitVec 4} {far : Word} {inj : Nat} (hk : EngKind.Keeps e)
    (h : Machine.Keeps s t) :
    Machine.Keeps s (cWait e n ch gv gt far inj t) := by
  unfold Machine.cWait
  refine hk.insn h fun _ _ _ h1 => ?_
  split
  · exact h1
  · split
    next e => exact h1.takeInj.getSnd e
    · split
      · exact h1
      · refine .ite ?_ ?_
        · exact h1
        · split; exacts [h1, .regPut (hk.put h1)]

theorem EngKind.Keeps.cWaitEnd {e : EngKind} {n : Nat} {far : Word} (hk : EngKind.Keeps e) (h : Machine.Keeps s t) :
    Machine.Keeps s (cWaitEnd e n far t) := by
  unfold Machine.cWaitEnd
  refine h.whenRunning fun _ h1 => ?_
  extract_lets
  split
  · split; exacts [.ite (hk.ctxAdvance h1.regPut) h1, h1]
  · exact h1

theorem EngKind.Keeps.cWaitFail {e : EngKind} {n : Nat} (hk : EngKind.Keeps e) (h : Machine.Keeps s t) :
    Machine.Keeps s (cWaitFail e n t) := by
  unfold Machine.cWaitFail
  refine h.whenRunning fun _ h1 => ?_
  extract_lets
  split; exacts [hk.fault h1, h1]

theorem EngKind.Keeps.engWatchdog {e : EngKind} {n : Nat} (hk : EngKind.Keeps e) (h : Machine.Keeps s t) :
    Machine.Keeps s (engWatchdog e n t) :=
  .ite (hk.fault (hk.put h)) h

theorem EngKind.Keeps.dogTick {e : EngKind} {n : Nat} (hk : EngKind.Keeps e) (h : Machine.Keeps s t) : Machine.Keeps s (dogTick e t n) :=
  .ite h (.ite (hk.engWatchdog h) (hk.put h))

theorem EngKind.Keeps.cSig {e : EngKind} {n : Nat} {a : BitVec 4} (hk : EngKind.Keeps e) (h : Machine.Keeps s t) :
    Machine.Keeps s (cSig e n a t) := by
  unfold Machine.cSig
  refine hk.insn h fun _ _ _ h => ?_
  extract_lets
  split
  next e => exact h.kOutLine.ok e
  next e => exact h.kOutLine.fault e
  next e => exact h.kOutLine.wait e

theorem EngKind.Keeps.cEnd {e : EngKind} {n : Nat} (hk : EngKind.Keeps e) (h : Machine.Keeps s t) : Machine.Keeps s (cEnd e n t) :=
  hk.insn h fun _ _ _ h1 => .regPut (.putKernel (hk.put h1))

theorem Keeps.verLine {k : Kernel} {r v x : Nat} (h : Keeps s t) : KAcc.Keeps s (verLine t k r v x) :=
  .ite h.kGrant h.kReadUnit.counted

theorem Keeps.verLines {k : Kernel} {r v x n : Nat} (h : Keeps s t) : KAcc.Keeps s (verLines t k r v x n) := by
  induction n generalizing t x with
  | zero => exact h
  | succ n ih =>
    unfold Machine.verLines
    split
    next e =>
      split
      next e' => exact (ih (h.verLine.ok e)).ok e'
      next e' => exact (ih (h.verLine.ok e)).fault e'
      next e' => exact (ih (h.verLine.ok e)).wait e'
    next e => exact h.verLine.fault e
    next e => exact h.verLine.wait e

theorem Keeps.verBytes {k : Kernel} {r v x n : Nat} (h : Keeps s t) : KAcc.Keeps s (verBytes t k r v x n) := by
  unfold Machine.verBytes
  split
  next e => exact h.verLines.ok e
  next e => exact h.verLines.fault e
  next e => exact h.verLines.wait e

/-! ### The start of a kernel (chapter 08) -/

theorem Keeps.readTabs {k : Kernel} {work : Nat} {ext : Ext} {slots : List Nat} (h : Keeps s t) :
    Start.Keeps s (readTabs t k work ext slots) := by
  induction slots generalizing t k with
  | nil => exact h
  | cons x slots ih =>
    unfold Machine.readTabs
    split
    · exact h
    · refine h.kBytes.start fun _ _ h => h.kBytes.start fun _ _ h => ?_
      split
      · exact h
      · exact ih h

theorem Keeps.sideEntries {k : Kernel} {x : KIdx} {ext : Ext} {m n : Nat} (h : Keeps s t) : Start.Keeps s (sideEntries t k x ext m n) := by
  induction m generalizing t n with
  | zero => exact h
  | succ m ih =>
    refine h.kBytes.start fun _ _ h => .ite (by exact h) ?_
    split
    next e => exact (ih h).ok e
    · exact ih h

theorem Keeps.readSide {k : Kernel} {x : KIdx} {merged side : Nat} {ext : Machine.Ext} (h : Keeps s t) :
    Start.Keeps s (readSide t k x merged side ext) := by
  unfold Machine.readSide
  refine h.kBytes.start fun _ _ h => ?_
  refine .ite ?_ ?_
  · exact h
  · extract_lets
    split
    next e => exact h.sideEntries.ok e
    next e => exact h.sideEntries.fault e
    next e => exact h.sideEntries.wait e

theorem Keeps.readIdxs {k : Kernel} {ext : Ext} {slots : List (Nat × Nat)} (h : Keeps s t) : Start.Keeps s (readIdxs t k ext slots) := by
  induction slots generalizing t k with
  | nil => exact h
  | cons x slots ih =>
    -- the equation of `readIdxs` is costly to generate: one step of evaluation instead
    conv => arg 2; whnf
    split
    · exact h
    · refine .ite (by exact h) (h.kBytes.start fun _ _ h => ?_)
      split
      · exact h
      · refine .ite (ih h) ?_
        split
        · exact h
        · split
          next e => exact ih (h.readSide.ok e)
          next e => exact h.readSide.fault e
          next e => exact h.readSide.wait e

theorem Keeps.bindArea {w : Nat} {h' : Handle} (h : Keeps s t) : KeepsOpt s (bindArea t w h') := by
  unfold Machine.bindArea
  split
  · exact .some h
  · split
    · split; exacts [.ite .none (.ite (.some h) (.some h.frame)), .some h]
    · exact .some h
    · exact .some h
    · exact .some h.tellFar

theorem Keeps.bindAreas {w : Nat} {hs : List Handle} (h : Keeps s t) : KeepsOpt s (bindAreas t w hs) := by
  induction hs generalizing t with
  | nil => exact .some h
  | cons x hs ih =>
    unfold Machine.bindAreas
    split
    next e => exact ih (h.bindArea.get e)
    · exact .none

theorem Keeps.armAtStart {k : Kernel} (h : Keeps s t) : Keeps s (armAtStart t k) := h.forEach fun _ _ h => .ite h.armHandle h

theorem Keeps.prepareChuck {dom l : Nat} (h : Keeps s t) : Keeps s (prepareChuck t dom l) :=
  .frame (.ite h (h.memory fun hm => Memory.wf_filter _ hm))

theorem Keeps.startLathe {k : Kernel} {wdog r l : Nat} (h : Keeps s t) : Keeps s (startLathe t k wdog r l) :=
  h.putLathe.regSet.regSet.regSet.regSet.regSet.regPut.regPut.setLatheState

theorem EngKind.Keeps.startEngine {e : EngKind} {k : Kernel} {ninsn inj r n : Nat} (hk : EngKind.Keeps e) (h : Machine.Keeps s t) :
    Machine.Keeps s (startEngine e t k ninsn inj r n) := by
  unfold Machine.startEngine
  split
  next e =>
    refine Keeps.sndThen (s := s) ?_ (fun k1 => ?_) e
    · split
      next e => exact .inSnd (h.takeInj.getSnd e)
      · exact .inSnd h
    · exact .regSet (hk.put k1)

theorem EngKind.Keeps.startWatchdog {e : EngKind} {inj n : Nat} (hk : EngKind.Keeps e) (h : Machine.Keeps s t) :
    Machine.Keeps s (startWatchdog e t inj n) := by
  unfold Machine.startWatchdog
  split
  next e => exact hk.fault (h.takeInj.getSnd e)
  · exact h

theorem Keeps.startFault {k : Kernel} {kite : Bool} {code addr : Nat} (h : Keeps s t) : Keeps s (startFault t k kite code addr) := by
  unfold Machine.startFault
  split
  · exact h.ctxFault
  · exact .ite h.kiteFault h.ctxFault
  · exact h.kiteFault
  · exact h.latheFault
  · exact h

theorem Keeps.loadKernel {k : Kernel} (h : Keeps s t) : KeepsOpt s ((loadKernel t k).map Prod.snd) := by
  unfold Machine.loadKernel
  extract_lets u1 _ _ _
  have h1 : Keeps s u1 := h.forEach fun _ _ h => h.putLathe.setLatheState.prepareChuck
  split
  · exact .none
  next e => exact .some (.inSnd (h1.bindAreas.get e).putKernel.armAtStart)

theorem Keeps.launch {k : Kernel} {replay : Bool} (h : Keeps s t) : Keeps s (launch t k replay) :=
  .forEach (.forEach (.moveWindow (.pmc (.forEach (.forEach (.forEach (.forEach (h.frame.frame.forEach fun _ _ h => h.startLathe)
    fun _ _ h => gougeKind_keeps.startEngine h) fun _ _ h => kiteKind_keeps.startEngine h) fun _ _ h => h.tagLoad)
    fun _ _ h => h.tagLoad))) fun _ _ h => gougeKind_keeps.startWatchdog h) fun _ _ h => kiteKind_keeps.startWatchdog h

/-! ### Plans and kernels (chapter 08) -/

theorem Keeps.refuseAt {w reason addr : Nat} (h : Keeps s t) : Keeps s (refuseAt t w reason addr) := h.countRefusal.complete

theorem Keeps.doPlanLoad {w : Fin 1024} {ext : List FarLine} (h : Keeps s t) : Keeps s (doPlanLoad w ext t) := by
  unfold Machine.doPlanLoad
  refine .ite h ?_
  refine .ite h.addrFault.refuse ?_
  split
  · exact h.complete
  · exact h.complete
  next e =>
    split
    next e1 => exact h.kBytes.wait e1
    next e1 => exact .ite (h.kBytes.fault e1).readDone.complete (.refuse (.ite (h.kBytes.fault e1).readDone.addrFault (h.kBytes.fault
      e1).readDone))
    next e1 =>
      split
      · exact (h.kBytes.ok e1).readDone.complete
      · exact (h.kBytes.ok e1).readDone.complete
      next e2 => exact ((h.kBytes.ok e1).readDone.allocFrames.ok e2).writeN.frame

theorem Keeps.doPlanLoadDone {w : Fin 1024} (h : Keeps s t) : Keeps s (doPlanLoadDone w t) := by
  unfold Machine.doPlanLoadDone
  refine h.whenRunning fun _ h => ?_
  extract_lets
  split
  · exact h
  · extract_lets
    split
    next e =>
      refine Keeps.sndThen (s := s) ?_ (fun k5 => ?_) e
      · split
        next e => exact .inSnd (h.takeInj.getSnd e)
        · exact .inSnd h
      · extract_lets
        split
        · exact k5.zeroMem.frame.releaseFrames.refuseAt
        · split
          · exact k5.zeroMem.frame.releaseFrames.complete
          · exact k5.copyMem.zeroMem.frame.regSet.regSet.pmc.complete

theorem Keeps.doRun {w : Fin 1024} {far : FarAnswer} (h : Keeps s t) : Keeps s (doRun w far t) := by
  unfold Machine.doRun
  refine h.whenRunning fun _ h => ?_
  refine .ite h ?_
  extract_lets
  split; exacts [h.regPut.refuse, .ite h.regPut.frame.setWinState.pollAfter h.regPut.frame.proceed]

theorem Keeps.prefetchUnit {w : Nat} {x : KSlot} {ga : Nat} (h : Keeps s t) : Keeps s (prefetchUnit t w x ga) := by
  unfold Machine.prefetchUnit
  split
  · exact h
  · split
    · split
      next e => exact (h.gwKernelRead.wait e).putKernel
      · exact h
    · extract_lets
      split; exacts [.fetchUnit (.putKernel (.ite h h.frame)), .ite h h.frame]
    · exact h

theorem Keeps.fireEntry {w i : Nat} (h : Keeps s t) : Keeps s (fireEntry t w i) := by
  unfold Machine.fireEntry
  split
  · exact h
  · refine .ite ?_ ?_
    · split; exacts [h.putKernel, .ite h.frame.putKernel h.frame.putKernel.nameUnits]
    · split; exacts [h.putKernel, h.putKernel.forEach fun _ _ h => h.prefetchUnit]

theorem Keeps.fireAtStart {k : Kernel} (h : Keeps s t) : Keeps s (fireAtStart t k) := h.forEach fun _ _ h => h.fireEntry

theorem Keeps.readTables {k : Kernel} {ext : Machine.Ext} (h : Keeps s t) : Start.Keeps s (readTables t k ext) := by
  unfold Machine.readTables
  split
  next e =>
    refine .ite ?_ ?_
    · exact h.readTabs.ok e
    · split <;> exact h.readTabs.ok e
  · exact h.readTabs

theorem Keeps.askReserve {k : Kernel} {far : List FarRegion} (h : Keeps s t) : KeepsOpt s (askReserve t k far) := by
  unfold Machine.askReserve
  split; exacts [.none, .ite (.some h) (.some (h.putKernel.forEach fun _ _ h => h.tellFar))]

theorem Keeps.pinFar {k : Kernel} (h : Keeps s t) : Keeps s (pinFar t k) := h.putKernel.forEach fun _ _ h => h.tellFar

theorem Keeps.askHolds {k : Kernel} (h : Keeps s t) : Keeps s (askHolds t k) :=
  .forEach (h.putKernel.forEach fun _ _ h => h.tellFar) fun _ _ h => h.tellFar

theorem Keeps.takeEngines {k : Kernel} (h : Keeps s t) : Keeps s (takeEngines t k) := h.frame.putKernel.setWinState

theorem Keeps.passStart {k : Kernel} {bad : Option (Bool × Nat × Nat)} (h : Keeps s t) : Keeps s (passStart t k bad) := by
  unfold Machine.passStart
  extract_lets u1
  have h1 : Keeps s u1 := .launch (.ite h.releaseHolds h)
  split; exacts [h1.startFault, h1.fireAtStart, h1]

theorem Keeps.reachSnapshot {k0 : Kernel} {far : FarAnswer} {ext : List FarLine} (h : Keeps s t) :
    Keeps s (reachSnapshot t k0 far ext) := by
  unfold Machine.reachSnapshot
  refine .ite ?_ ?_
  · split; exacts [h, h.passStart]
  · refine .ite h ?_
    refine .ite (.ite h h.askHolds) ?_
    extract_lets _ u1
    have h1 : Keeps s u1 := h.forEach fun _ _ h => h.refreshReplica
    refine .ite h ?_
    split
    next e => exact h1.readTables.wait e
    next e => exact (h1.readTables.fault e).readDone.passStart
    next e =>
      split
      next e1 => exact (h1.readTables.ok e).readIdxs.wait e1
      next e1 => exact ((h1.readTables.ok e).readIdxs.fault e1).readDone.passStart
      next e1 =>
        extract_lets u2
        have h2 : Keeps s u2 := ((h1.readTables.ok e).readIdxs.ok e1).readDone
        refine .ite h2.passStart ?_
        split; exacts [h2.passStart, h2.pinFar]

theorem Keeps.reachStart {k : Kernel} {far : FarAnswer} {ext : List FarLine} (h : Keeps s t) : Keeps s (reachStart t k far ext) := by
  unfold Machine.reachStart
  refine .ite h.freeEngines.endKernel.refuse ?_
  split
  · exact h.farUp.dropStart
  · refine .ite h.reachSnapshot ?_
    extract_lets
    split
    next e => exact h.putKernel.askReserve.get e
    · refine .ite (h.putKernel.forEach fun _ _ h => h.askStart) ?_
      refine .ite h.putKernel ?_
      split
      · exact h.putKernel.freeEngines.endKernel.refuse
      next e =>
        split
        · exact (h.putKernel.loadKernel.getSnd e).passStart
        · exact (h.putKernel.loadKernel.getSnd e).passStart
        next e1 =>
          extract_lets
          split
          · exact ((h.putKernel.loadKernel.getSnd e).allocFrames.ok e1).passStart
          · exact ((h.putKernel.loadKernel.getSnd e).allocFrames.ok e1).passStart
          next e2 => exact (((h.putKernel.loadKernel.getSnd e).allocFrames.ok e1).allocFrames.ok e2).putKernel.reachSnapshot

theorem Keeps.doKernelStart {w : Fin 1024} {far : FarAnswer} {ext : List FarLine} (h : Keeps s t) :
    Keeps s (doKernelStart w far ext t) := by
  unfold Machine.doKernelStart
  refine h.whenRunning fun _ h => ?_
  extract_lets
  split
  · exact h
  · refine .ite (.ite h h.reachStart) ?_
    refine .ite h ?_
    refine .ite h.endKernel.refuse ?_
    refine .ite h ?_
    split; exacts [h, .reachStart (h.takeEngines.forEach fun _ _ h => h.askStart)]

theorem Keeps.doScheduleFire {w : Fin 1024} {entry : BitVec 13} {far : BitVec 64} (h : Keeps s t) :
    Keeps s (doScheduleFire w entry far t) := by
  unfold Machine.doScheduleFire
  refine h.whenRunning fun _ h => ?_
  split
  · exact h
  · refine .ite h ?_
    split
    · exact h
    · split; exacts [h, .ite (h.forEach fun _ _ h => h.fireEntry) h]

theorem Keeps.commitShadow {x : Shadow} {dom : Nat} (h : Keeps s t) : Keeps s (commitShadow t x dom) := by
  unfold Machine.commitShadow
  extract_lets base sk u v w z last
  have h : Keeps s v := .ite h.frame.frame h.frame
  have hw : Keeps s w := by
    refine h.forEach fun a _ h => ?_
    have hline {off : Nat} {d : LineData} : Keeps s (if d = stackLine a off then a else
        let y := Machine.putStack a off d
        if covered y off then { y with covers := y.covers ++ [(off, CoverFor.kernel x.win)] } else y) :=
      .ite h (.ite h.putStack.frame h.putStack)
    exact .ite hline.setPoison hline.clrPoison
  have hz : Keeps s z := hw.zeroMem
  have hlast : Keeps s last := by
    unfold last
    clear_value z
    refine .ite ?_ hz.releaseShadow
    split
    · exact hz.regAdd
    · exact hz
  exact hlast.frame

theorem Keeps.commitDone {w replays cyc disc : Nat} (h : Keeps s t) : Keeps s (commitDone t w replays cyc disc) := h.complete

theorem Keeps.stageReel {w : Nat} {e : Option (Nat × Nat) × Nat} (h : Keeps s t) : Keeps s (stageReel t w e) := by
  unfold Machine.stageReel
  split
  next e => exact h.gwKernelRead.wait e
  · split; exacts [h.putKernel, h]

theorem Keeps.doKernelCommit {w : Fin 1024} (h : Keeps s t) : Keeps s (doKernelCommit w t) := by
  unfold Machine.doKernelCommit
  refine h.whenRunning fun _ h => ?_
  extract_lets
  split
  · exact h
  · refine .ite h ?_
    refine .ite (h.forEach fun _ _ h => h.stageReel) ?_
    extract_lets
    split
    · exact h.kernelAbort
    · split
      next e =>
        refine .ite (h.unitLookups.fst e) ?_
        refine .ite (h.unitLookups.fst e).putKernel.recallAll ?_
        extract_lets _ _ _ _ _ _ _ u14 _ _ _
        have h14 : Keeps s u14 := .walkTally (.pmc (.freeEngines (.forEach (.sendOutputs (.forEach (.ite (h.unitLookups.fst e)
          (h.unitLookups.fst e).ldrEvent) fun _ _ h => h.commitShadow)) fun _ _ h => h.sendWriteback)))
        exact .ite (.commitDone (.releaseHeld (.endKernel (.ite h14.leaveHang h14)))) (.frame (.moveWindow (.releaseHeld (.endKernel
          (.ite h14.leaveHang h14)))))

theorem Keeps.settleCpl (h : Keeps s t) : Keeps s (settleCpl t) := by
  unfold Machine.settleCpl
  refine h.forEach fun _ _ h => .ite h ?_
  extract_lets
  split; exacts [h.frame.commitDone, h.frame]

/-! ### Fetched units, released frames and covers (chapter 02) -/

theorem Keeps.serveUnit {u : Nat} (h : Keeps s t) : Keeps s (serveUnit t u) :=
  .reclaimStep (.frame (.settleAll (h.frame.forEach fun _ _ h => h.serveFrom)))

theorem Keeps.serveHeld {u : Nat} (h : Keeps s t) : Keeps s (serveHeld t u) := .ite h.serveUnit.frame h.serveUnit

theorem Keeps.restored {lo len : Nat} (h : Keeps s t) : Keeps s (restored t lo len) := h.frame

theorem Keeps.doUnitFetchDone {unit : BitVec 96} (h : Keeps s t) : Keeps s (doUnitFetchDone unit t) := by
  unfold Machine.doUnitFetchDone
  refine h.whenRunning fun _ h => ?_
  refine .ite h ?_
  refine .ite h.restored.serveUnit ?_
  split
  · exact h.serveUnit
  · refine .ite h.serveHeld ?_
    refine .ite h.serveUnit ?_
    split
    next e => exact (h.cacheFrame.get e).frame.serveUnit
    · exact h.serveHeld

theorem Keeps.doFrameZeroed (h : Keeps s t) : Keeps s (doFrameZeroed t) := h.whenRunning fun _ h => .ite h h.frame

theorem Keeps.doRegionDeleteFinal {region : Fin 16384} (h : Keeps s t) : Keeps s (doRegionDeleteFinal region t) :=
  h.whenRunning fun _ h => .ite h.deleteRegion h

theorem Keeps.coverFor {off : Nat} {c : CoverFor} (h : Keeps s t) : Keeps s (coverFor t off c) := by
  unfold Machine.coverFor
  split
  · exact h.settleCpl
  · exact .ite h h.gwSend
  · refine .cmpCheck ?_
    split; exacts [h.frame, h]

theorem Keeps.coverDone {off : Nat} (h : Keeps s t) : Keeps s (coverDone t off) := by
  unfold Machine.coverDone
  refine .ite h ?_
  extract_lets _ u1
  have h1 : Keeps s u1 := h.frame.forEach fun _ _ h => h.coverFor
  split; exacts [h1, h1.frame.sendCmp.settleAll]

theorem Keeps.coverAck {kind a : Nat} (h : Keeps s t) : Keeps s (coverAck t kind a) := by
  unfold Machine.coverAck
  extract_lets u1
  have h1 : Keeps s u1 := by unfold u1; split; exacts [h.frame, h]
  split; exacts [h1.coverDone, h1]

theorem Keeps.doMirrorPeerWrite {line : FabLine} {data : LineData} (h : Keeps s t) : Keeps s (doMirrorPeerWrite line data t) := by
  unfold Machine.doMirrorPeerWrite
  refine h.whenRunning fun _ h => ?_
  extract_lets
  split; exacts [h.coverAck, h.putLine.sendResp, h]

theorem Keeps.doMirrorPeerLost {peer : BitVec 10} (h : Keeps s t) : Keeps s (doMirrorPeerLost peer t) := by
  unfold Machine.doMirrorPeerLost
  refine h.whenRunning fun _ h => ?_
  refine h.frame.dropOldPeer.forEach fun _ _ h => ?_
  split; exacts [h.coverDone, h]

theorem Keeps.ringLine {m : Nat} {d : LineData} (h : Keeps s t) : Keeps s (ringLine t m d) := .ringPut (.frame (.ite h.armArea h))

theorem Keeps.doParityFoldRecord {slot : Fin 16} {unit : BitVec 32} {line : Fin 1024} {addr : BitVec 60} {delta : LineData}
    (h : Keeps s t) :
    Keeps s (doParityFoldRecord slot unit line addr delta t) :=
  h.whenRunning fun _ h => h.ringLine.ringLine.putLine.frame.sendReq

theorem Keeps.doParityFoldAck {addr : BitVec 60} (h : Keeps s t) : Keeps s (doParityFoldAck addr t) := by
  unfold Machine.doParityFoldAck
  refine h.whenRunning fun _ h => ?_
  split; exacts [h, h.ringLine.coverAck]

theorem Keeps.doPeerCopyDone {region : Fin 16384} (h : Keeps s t) : Keeps s (doPeerCopyDone region t) := by
  unfold Machine.doPeerCopyDone
  refine h.whenRunning fun _ h => ?_
  split; exacts [h, .ite (.send (.ite h.frame.poolDrop h.frame)) (.ite h.frame.poolDrop h.frame)]

/-! ### Commands of the medium (chapter 03) -/

theorem Keeps.bringUp {c n rate : Nat} (h : Keeps s t) : Keeps s (bringUp t c n rate) := h.forEach fun _ _ h => h.orders

theorem Keeps.enumChan {m : MedChan} (h : Keeps s t) : Keeps s (enumChan t m) :=
  .forEach (.frame (.ite h.bringUp.regSet.regPut h.bringUp.regSet.regPut.medEvent)) fun _ _ h => .ite h.frame h

theorem Keeps.enumSpares {m : MedChan} (h : Keeps s t) : Keeps s (enumSpares t m) := by
  unfold Machine.enumSpares
  extract_lets
  split
  · exact h
  · exact .countSpares (h.forEach fun _ _ h => .ite h (h.forEach fun _ _ h => .ite h h.frame))

theorem Keeps.enumRemaps {m : MedChan} (h : Keeps s t) : Keeps s (enumRemaps t m) := by
  unfold Machine.enumRemaps
  extract_lets
  split; exacts [h, h.forEach fun _ _ h => h.forEach fun _ _ h => .ite h h.substitute]

theorem Keeps.doMediumEnumerate {chans : List MedChan} {profile : BitVec 8} {peRated : BitVec 16} (h : Keeps s t) :
    Keeps s (doMediumEnumerate chans profile peRated t) := by
  unfold Machine.doMediumEnumerate
  refine h.whenRunning fun _ h => .ite h ?_
  exact .regPut (.countBands (.regPut (.regPut (.degradeQuads (.forEach (.forEach (.forEach (.regPut (.regPut (h.frame.forEach
    fun _ _ h => h.enumChan))) fun _ _ h => h.enumSpares) fun _ _ h => h.enumRemaps) fun _ _ h => h.countSpares)))))

theorem Keeps.readSentinels (h : Keeps s t) : Keeps s (readSentinels t) := .ite h (h.frame.forEach fun _ _ h => h.readPage)

theorem Keeps.replayReads {keep : List (Nat × Nat)} (h : Keeps s t) : Keeps s (replayReads t keep) :=
  h.forEach fun _ _ h => h.scrubUnit

theorem Keeps.doLogReplay (h : Keeps s t) : Keeps s (doLogReplay t) := by
  unfold Machine.doLogReplay
  refine h.whenRunning fun _ h => .ite h ?_
  exact .logStep (.startReads (.readSentinels (.regPut (.regPut (h.replayReads.frame.forEach fun _ _ h => h.sendContrib)))))

theorem Keeps.bandRead {loc i step nbits : Nat} (h : Keeps s t) : Keeps s (bandRead t loc i step nbits) := by
  unfold Machine.bandRead
  extract_lets
  split
  next e =>
    extract_lets _ _ _ _ u1 _ _
    have h1 : Keeps s u1 := .ite (h.drawFree.snd e).frame (h.drawFree.snd e).frame
    exact .ite (.ite h1.putBlock.putBand.frame h1.putBlock.putBand.scrubBand) h1.putBlock.putBand

theorem Keeps.ladderStep {loc i k : Nat} (h : Keeps s t) : Keeps s (ladderStep t loc i k) :=
  .ite (h.forEach fun _ _ h => h.orders.readPage) (.ite (h.forEach fun _ _ h => h.orders.readPage) h.orders.readPage)

theorem Keeps.ladderSteps {loc i step : Nat} (h : Keeps s t) : Keeps s (ladderSteps t loc i step) :=
  h.forEach fun _ _ h => h.ladderStep

theorem Keeps.injectRead {c : Nat} {cws : List (Nat × Nat)} (h : Keeps s t) : Keeps s (injectRead t c cws).2 := by
  unfold Machine.injectRead
  extract_lets
  split
  next e =>
    refine Keeps.sndThen (s := s) ?_ (fun k1 => ?_) e
    · split
      next e => exact .inSnd (h.takeInj.getSnd e)
      · exact .inSnd h
    · split
      next e1 =>
        refine Keeps.sndThen (s := s) ?_ (fun k2 => ?_) e1
        · split
          next e1 => exact .inSnd (k1.takeInj.getSnd e1)
          · exact .inSnd k1
        · split
          next e2 => exact .inSnd (k2.takeInj.getSnd e2)
          · exact .inSnd k2

theorem Keeps.dropProg {p : Prog} (h : Keeps s t) : Keeps s (dropProg t p) := h.frame

theorem Keeps.moveProg {p : Prog} (h : Keeps s t) : Keeps s (moveProg t p) := .ite h.dropProg h.dropProg.logWrite

theorem Keeps.lunOutOf {c loc : Nat} (h : Keeps s t) : Keeps s (lunOutOf t c loc) := by
  unfold Machine.lunOutOf
  extract_lets _ _ _ _ _ _ _ u6 _ _
  have h6 : Keeps s u6 := .forEach (.forEach (.frame (h.frame.regAdd.medEvent.degradeQuads.forEach fun _ _ h => h.putBand))
    fun _ _ h => h.moveProg) fun _ _ h => h.forEach fun _ _ h => h.askRebuild
  exact .ite h6.countBands.frame.regPut h6.countBands

theorem Keeps.statusTimeout {c loc : Nat} (h : Keeps s t) : Keeps s (statusTimeout t c loc) :=
  .ite h.medCnt.medEvent.orders.frame.lunOutOf h.medCnt.medEvent.orders.frame

theorem Keeps.readTimeout {loc i : Nat} (h : Keeps s t) : Keeps s (readTimeout t loc i) :=
  .ite h.statusTimeout.askRebuild (.ite h.statusTimeout h.statusTimeout.ladderStep)

theorem Keeps.injTimeout {c : Nat} (h : Keeps s t) : KeepsOpt s (injTimeout t c) := h.takeInj.mapSnd fun _ h => h

theorem Keeps.lunOk {c loc : Nat} (h : Keeps s t) : Keeps s (lunOk t c loc) := h.frame

theorem Keeps.pageRead {dom : Option Nat} {loc : BitVec 40} {page : Fin 4} {cws : List (BitVec 4 × BitVec 16)} (h : Keeps s t) :
    Keeps s (pageRead dom loc page cws t) := by
  unfold Machine.pageRead
  extract_lets
  split
  next e => exact (h.injTimeout.get e).readTimeout
  · split
    next e =>
      extract_lets _ _ _ u1 _ _ _ _
      have h1 : Keeps s u1 := (h.lunOk.injectRead.snd e).pmc
      exact .reclaimStep (.ite (.askRebuild (.ladderSteps (.bandRead (.medCnt (.medCnt (.medCnt (.medCnt (.medCnt (.ite h1.pmc
        h1))))))))) (.ladderSteps (.bandRead (.medCnt (.medCnt (.medCnt (.medCnt (.medCnt (.ite h1.pmc h1)))))))))

theorem Keeps.doPageReadDone {loc : BitVec 40} {page : Fin 4} {cws : List (BitVec 4 × BitVec 16)} (h : Keeps s t) :
    Keeps s (doPageReadDone loc page cws t) :=
  h.whenRunning fun _ h => h.pageRead

theorem Keeps.doScrubRead {loc : BitVec 40} {page : Fin 4} {cws : List (BitVec 4 × BitVec 16)} (h : Keeps s t) :
    Keeps s (doScrubRead loc page cws t) :=
  h.whenRunning fun _ h => .pageRead (.ite h.pmc h)

theorem Keeps.rebuildUnit {c loc : Nat} {lines : List LineData} (h : Keeps s t) : Keeps s (rebuildUnit t c loc lines) := by
  unfold Machine.rebuildUnit
  refine .ite ?_ ?_
  · split; exacts [h.medCnt.setBit.frame.putLines.logWrite, h.medCnt.setBit]
  · split
    · exact h.medCnt.setBit
    · extract_lets _ u4
      have h4 : Keeps s u4 := .forEach (.ite h.medCnt.setBit.putLines h.medCnt.setBit) fun _ _ h => h.medCnt
      exact .ite h4.logWrite h4

theorem Keeps.doDegradedRead {chan : Fin 32} {loc : BitVec 41} {parity : Option (List LineData)} {others : List PartRead} (h : Keeps s t) :
    Keeps s (doDegradedRead chan loc parity others t) := by
  unfold Machine.doDegradedRead
  refine h.whenRunning fun _ h => ?_
  extract_lets _ u2
  have h2 : Keeps s u2 := .ite (h.forEach fun _ _ h => h.askPart) h
  exact .logStep (.ite h2.pmc.rebuildUnit h2.loseUnit)

theorem Keeps.opFails {loc kind : Nat} {fail : Option (Fin 4)} (h : Keeps s t) : Keeps s (opFails t loc kind fail).2 := by
  unfold Machine.opFails
  split
  · exact .inSnd h
  · refine .foldlSnd (.inSnd h) fun _ _ h => ?_
    split
    · exact h
    · split
      next e => exact .inSnd (h.takeInj.getSnd e)
      · exact h

theorem Keeps.contribute {loc : Nat} {u : LogUnit} (h : Keeps s t) : Keeps s (contribute t loc u) := by
  unfold Machine.contribute
  split; exacts [h, h.frame.putBand.sendContrib]

theorem Keeps.programmed {p : Prog} (h : Keeps s t) : Keeps s (programmed t p) := by
  unfold Machine.programmed
  extract_lets b
  split
  next e =>
    extract_lets u x v w
    have hput : Keeps s v := Keeps.putBand (.dropProg ((h.drawFree.snd e).forEach fun _ _ h => h.putBlock))
    refine Keeps.contribute ?_
    unfold w
    clear_value v
    split
    · exact hput.frame
    · exact .ite hput.frame (.ite hput (.ite hput hput.frame))

theorem Keeps.decisionDone {u : LogUnit} (h : Keeps s t) : Keeps s (decisionDone t u) := by
  unfold Machine.decisionDone
  extract_lets u2
  have h2 : Keeps s u2 := by
    unfold u2
    refine h.forEach fun _ _ h => ?_
    split
    · exact h.frame
    · refine .ite h ?_
      extract_lets
      split; exacts [h.frame.adoptUnits.versionBytes.setStage, h.frame]
  refine .ite h2 ?_
  refine .decideNext (h2.forEach fun _ _ h => ?_)
  split
  · split; exacts [h.decidedOn, h]
  · exact h

theorem Keeps.parityDone {u : LogUnit} (h : Keeps s t) : Keeps s (parityDone t u) := h.forEach fun _ _ h => h.send

theorem Keeps.progDone {p : Prog} (h : Keeps s t) : Keeps s (progDone t p) := by
  unfold Machine.progDone
  refine .ite h.programmed ?_
  refine .ite ?_ (.ite h.programmed.decisionDone (.ite h.programmed.parityDone h.programmed))
  split; exacts [h.programmed.writeOn, h.programmed]

theorem Keeps.programFailed {c : Nat} {p : Prog} (h : Keeps s t) : Keeps s (programFailed t c p) :=
  .startReclaim (h.medCnt.medEvent.retireBlock.putBand.forEach fun _ _ h => h.moveProg)

theorem Keeps.erased {b : Nat} (h : Keeps s t) : Keeps s (erased t b) := by
  unfold Machine.erased
  have hblocks {x : Band} {f : State → Nat → Nat} {g : State → Nat → MedBlock} :
      Keeps s (Machine.forEach (bandChans b) (Machine.putBand t b x) fun s c => Machine.putBlock s (f s c) (g s c)) :=
    h.putBand.forEach fun _ _ h => h.putBlock
  exact .ite hblocks.frame.freeGone hblocks.frame

theorem Keeps.eraseFailed {c b : Nat} (h : Keeps s t) : Keeps s (eraseFailed t c b) :=
  .ite h.medCnt.medEvent.medCnt.setBit.frame.erased h.medCnt.medEvent.erased.retireBlock

theorem Keeps.doPageProgramDone {loc : BitVec 40} {fail : Option (Fin 4)} (h : Keeps s t) : Keeps s (doPageProgramDone loc fail t) := by
  unfold Machine.doPageProgramDone
  refine h.whenRunning fun _ h => ?_
  extract_lets
  split
  · exact h
  · refine .ite h ?_
    split
    next e =>
      split
      · exact (h.opFails.snd e).programFailed.statusTimeout.logStep
      · split
        next e1 =>
          extract_lets u3 _ _
          have h3 : Keeps s u3 := ((h.opFails.snd e).opFails.snd e1).forEach fun _ _ h => h.medCnt.lunOk
          split; exacts [h3.pmc.pmc.programFailed.logStep, h3.pmc.pmc.progDone.logStep]

theorem Keeps.doBlockEraseDone {loc : BitVec 40} {fail : Option (Fin 4)} (h : Keeps s t) : Keeps s (doBlockEraseDone loc fail t) := by
  unfold Machine.doBlockEraseDone
  refine h.whenRunning fun _ h => ?_
  refine .ite h ?_
  split
  next e =>
    split
    · exact (h.opFails.snd e).eraseFailed.statusTimeout.logStep
    · split
      next e1 =>
        extract_lets u3
        have h3 : Keeps s u3 := ((h.opFails.snd e).opFails.snd e1).forEach fun _ _ h => h.medCnt.lunOk
        refine .logStep ?_
        split; exacts [h3.eraseFailed, h3.erased]

theorem Keeps.doStatusTimeout {chan : Fin 32} {loc : BitVec 40} {op : Fin 3} (h : Keeps s t) : Keeps s (doStatusTimeout chan loc op t) :=
    by
  unfold Machine.doStatusTimeout
  refine h.whenRunning fun _ h => ?_
  refine .ite h.readTimeout ?_
  refine .ite ?_ (.ite h.eraseFailed.statusTimeout.logStep h.statusTimeout)
  split; exacts [h.programFailed.statusTimeout.logStep, h.statusTimeout]

theorem Keeps.doBandReclaim {loc : BitVec 40} (h : Keeps s t) : Keeps s (doBandReclaim loc t) :=
  h.whenRunning fun _ h => .ite h (.ite h.frame.logStep h.startReclaim.logStep)

theorem Keeps.xorStripe {x : Stripe} {lines : List LineData} (h : Keeps s t) : Keeps s (xorStripe t x lines) :=
  h.forEach fun _ _ h => h.putLine

theorem Keeps.openStripe (h : Keeps s t) : Keeps s (openStripe t).1 := .inFst h.frame.zeroMem

theorem Keeps.closeStripe {x : Stripe} (h : Keeps s t) : Keeps s (closeStripe t x) := h.frame.zeroMem.logWrite

theorem Keeps.joinStripe {x : Stripe} {m loc : Nat} {lines : List LineData} (h : Keeps s t) : Keeps s (joinStripe t x m loc lines) :=
  .ite h.frame.xorStripe.send.closeStripe h.frame.xorStripe.send

theorem Keeps.ringUnit {m loc : Nat} {lines : List LineData} (h : Keeps s t) : Keeps s (ringUnit t m loc lines) :=
  h.forEach fun _ _ h => h.ringLine

theorem Keeps.doContributionArrive {member : Fin 16} {loc : BitVec 40} {lines : List (BitVec 512)} (h : Keeps s t) :
    Keeps s (doContributionArrive member loc lines t) := by
  unfold Machine.doContributionArrive
  refine h.whenRunning fun _ h => ?_
  extract_lets u v
  have h : Keeps s u := h.ringUnit
  have hv : Keeps s v := by
    refine .ite h ?_
    split
    · exact h.closeStripe
    · exact h
  clear_value u v
  split
  · exact h.joinStripe
  · split
    next e => exact (hv.openStripe.fst e).joinStripe

theorem Keeps.doStripeCloseTimer (h : Keeps s t) : Keeps s (doStripeCloseTimer t) := by
  unfold Machine.doStripeCloseTimer
  refine h.whenRunning fun _ h => ?_
  split; exacts [h.closeStripe, h]

theorem Keeps.doContributionCovered {loc : BitVec 40} (h : Keeps s t) : Keeps s (doContributionCovered loc t) :=
  h.whenRunning fun _ h => .ite h h.frame.putBand.logStep

theorem Keeps.doRetraction {member : Fin 16} {loc : BitVec 40} {lines : List (BitVec 512)} (h : Keeps s t) :
    Keeps s (doRetraction member loc lines t) := by
  unfold Machine.doRetraction
  refine h.whenRunning fun _ h => ?_
  extract_lets
  split; exacts [h.ringUnit, .ite h.ringUnit.frame.send.logStep h.ringUnit.frame.logWrite]

theorem Keeps.doRetractionAck {loc : BitVec 40} (h : Keeps s t) : Keeps s (doRetractionAck loc t) :=
  h.whenRunning fun _ h => .ite h h.frame.logStep

theorem Keeps.rebuildItem {item : RebuildItem} (h : Keeps s t) : Keeps s (rebuildItem t item) := by
  unfold Machine.rebuildItem
  split
  · exact h.appendRecord
  · exact h.logWrite
  · exact h.frame.logWrite
  · exact h.logWrite
  · exact h.putLines.frame.logWrite

theorem Keeps.doSubstituteRebuild {item : RebuildItem} {last : Bool} (h : Keeps s t) : Keeps s (doSubstituteRebuild item last t) :=
  h.whenRunning fun _ h => .ite h h.regPut.frame.rebuildItem

theorem Keeps.medInj {kind : Nat} {chan : Fin 32} {arg : BitVec 8} (h : Keeps s t) : Keeps s (medInj kind chan arg t) :=
  h.whenRunning fun _ h => h.armInj

theorem Keeps.doMedInjFlip {chan : Fin 32} {arg : BitVec 8} (h : Keeps s t) : Keeps s (doMedInjFlip chan arg t) := h.medInj

theorem Keeps.doMedInjRetry {chan : Fin 32} {arg : BitVec 8} (h : Keeps s t) : Keeps s (doMedInjRetry chan arg t) := h.medInj

theorem Keeps.doMedInjUncorr {chan : Fin 32} (h : Keeps s t) : Keeps s (doMedInjUncorr chan t) := h.medInj

theorem Keeps.doMedInjProgFail {chan : Fin 32} (h : Keeps s t) : Keeps s (doMedInjProgFail chan t) := h.medInj

theorem Keeps.doMedInjEraseFail {chan : Fin 32} (h : Keeps s t) : Keeps s (doMedInjEraseFail chan t) := h.medInj

theorem Keeps.doMedInjTimeout {chan : Fin 32} (h : Keeps s t) : Keeps s (doMedInjTimeout chan t) := h.medInj

theorem Keeps.haInj {kind : Nat} {home : Fin 8} {host : Nat} (h : Keeps s t) : Keeps s (haInj kind home host t) :=
  h.whenRunning fun _ h => h.armInj

theorem Keeps.doHaInjDropSnoopAnswer {home : Fin 8} {host : Fin 64} (h : Keeps s t) : Keeps s (doHaInjDropSnoopAnswer home host t) :=
  h.haInj

theorem Keeps.doHaInjDropCmpack {home : Fin 8} {host : Fin 64} (h : Keeps s t) : Keeps s (doHaInjDropCmpack home host t) :=
  h.haInj

theorem Keeps.doHaInjDirUe {home : Fin 8} (h : Keeps s t) : Keeps s (doHaInjDirUe home t) := h.haInj

theorem Keeps.doHaInjSfUe {home : Fin 8} (h : Keeps s t) : Keeps s (doHaInjSfUe home t) := h.haInj

theorem Keeps.doHaInjPoison {home : Fin 8} (h : Keeps s t) : Keeps s (doHaInjPoison home t) := h.haInj

/-! ### Links and flits (chapter 12) -/

theorem Keeps.putLink {p : Nat} {x : Link} (h : Keeps s t) : Keeps s (putLink t p x) := h.frame.regPut

theorem Keeps.setFabState {p v : Nat} (h : Keeps s t) : Keeps s (setFabState t p v) := h.regPut

theorem Keeps.fabEvent {p b : Nat} {cnt : Option Nat} {action : Nat} (h : Keeps s t) : Keeps s (fabEvent t p b cnt action) := by
  unfold Machine.fabEvent
  extract_lets _ u2
  have h2 : Keeps s u2 := by unfold u2; split; exacts [h.setBit.incCnt, h.setBit]
  exact h2.logErr

theorem Keeps.swEvent {b action port : Nat} (h : Keeps s t) : Keeps s (swEvent t b action port) := h.setBit.logErr

theorem Keeps.emitFlit {p type seq : Nat} {nak : Bool} {crd : Nat × Nat × Nat} {slots : List Nat} (h : Keeps s t) :
    Keeps s (emitFlit t p type seq nak crd slots) := by
  unfold Machine.emitFlit
  split
  next e =>
    refine Keeps.sndThen (s := s) ?_ (fun k1 => ?_) e
    · split
      next e => exact .inSnd (h.takeInj.getSnd e)
      · exact .inSnd h
    · exact .send (.ite k1.putLink.pmc.pmc k1.putLink.pmc)

theorem Keeps.emitIdle {p : Nat} {nak : Bool} {crd : Nat × Nat × Nat} (h : Keeps s t) : Keeps s (emitIdle t p nak crd) :=
  h.emitFlit

theorem Keeps.sendFlit {p type : Nat} {slots : List Nat} (h : Keeps s t) : Keeps s (sendFlit t p type slots) := h.putLink.emitFlit

theorem Keeps.drainControl {fuel p : Nat} (h : Keeps s t) : Keeps s (drainControl fuel t p) := by
  induction fuel generalizing t with
  | zero => exact h
  | succ fuel ih =>
    unfold Machine.drainControl
    extract_lets
    split
    · exact h
    · exact .ite h (ih h.putLink.sendFlit)

theorem Keeps.sendControl {p : Nat} {slots : List Nat} (h : Keeps s t) : Keeps s (sendControl t p slots) := h.putLink.drainControl

theorem Keeps.resendAll {p : Nat} (h : Keeps s t) : Keeps s (resendAll t p) := by
  unfold Machine.resendAll
  split
  next e =>
    refine (h.drawFree.snd e).putLink.forEach fun _ _ h => ?_
    extract_lets
    split; exacts [h.incCnt.emitFlit, h.incCnt]

theorem Keeps.kernelFail {w : Nat} {eng : Option Engine} {code addr : Nat} (h : Keeps s t) : Keeps s (kernelFail t w eng code addr) := by
  unfold Machine.kernelFail
  split
  · exact h
  · split
    · exact h.latheFault
    · exact h.ctxFault
    · exact h.kiteFault
    · exact h.latheFault
    · exact h.ctxFault
    · exact h.kiteFault
    · exact h.kernelAbort

theorem Keeps.failReel {x : Reel} {code : Nat} (h : Keeps s t) : Keeps s (failReel t x code) :=
  h.forEach fun _ _ h => h.kernelFail

theorem Keeps.dropFetch {k : Nat} {x : Reel} {err code : Nat} (h : Keeps s t) : Keeps s (dropFetch t k x err code) :=
  .drainMissq (.failReel (h.freeReel.forEach fun _ _ h => h.gwReply))

theorem Keeps.reelStaged {x : Reel} (h : Keeps s t) : Keeps s (reelStaged t x) := h.frame

theorem Keeps.reelFetched {txn : Nat} {lines : List (BitVec 512 × Bool)} {err : Option (BitVec 4)} (h : Keeps s t) :
    Keeps s (reelFetched t txn lines err) := by
  unfold Machine.reelFetched
  split
  · exact h
  · split
    next e => exact (h.takeInj.getSnd e).gwEvent.dropFetch
    · split
      next e =>
        refine Keeps.sndThen (s := s) ?_ (fun hu => ?_) e
        · split
          next e => exact h.takeInj.getSnd e
          · exact h
        · split
          · exact .ite hu.gwEvent.dropFetch hu.gwEvent.dropFetch
          · refine .ite hu (.drainMissq (.reelStaged (.forEach (.putReel (.frame (hu.putLines.pmc.forEach fun _ _ h => ?_)))
              fun _ _ h => h.gwServe)))
            split
            · exact h.setPoison
            · exact h.clrPoison

theorem Keeps.reelWbDone {txn : Nat} (h : Keeps s t) : Keeps s (reelWbDone t txn) := by
  unfold Machine.reelWbDone
  split; exacts [h, .settleCpl (.drainMissq (.ite h.freeReel.releaseFrames h.freeReel))]

theorem Keeps.reelLine {h' : Nat} {d : LineData} (h : Keeps s t) : Keeps s (reelLine t h' d) := .ite h.frame h.frame.reelFetched

theorem Keeps.reelAnswer {h' : Nat} {d : LineData} (h : Keeps s t) : KeepsOpt s (reelAnswer t h' d) :=
  .ite (.some (.ite h.reelLine (.ite h.reelFetched h))) (.ite (.some (.ite h.reelWbDone h)) .none)

theorem Keeps.refusedSession {src : Master} {bad : Bool} {err addr : Nat} (h : Keeps s t) :
    Keeps s (refusedSession t src bad err addr) := by
  unfold Machine.refusedSession
  split; exacts [.ite h.violate h, h]

theorem Keeps.agentAnswer {p h' : Nat} {d : LineData} (h : Keeps s t) : Keeps s (agentAnswer t p h' d) := by
  unfold Machine.agentAnswer
  extract_lets
  split
  · exact .ite (h.reelAnswer.getD h) h
  · refine .ite h ?_
    refine .ite ?_ ?_
    · split; exacts [h.fromAgent, h]
    · extract_lets
      split
      · exact .ite h.frame.kernelFail h.frame.frame
      · exact .ite h.frame.kernelFail h.frame
      · exact .ite h.frame.ldrEvent h.frame
      · exact .ite h.frame h.frame.coverAck
      · exact h.frame.refusedSession.answer
      · exact h.frame

theorem Keeps.errFlush {port h' : Nat} (h : Keeps s t) : Keeps s (errFlush t port h') :=
  .ite h.send.agentAnswer (.ite h.agentCell h.incCnt.incCnt)

theorem Keeps.undeliverable {ctrl n addr : Nat} (h : Keeps s t) : Keeps s (undeliverable t ctrl n addr) :=
  .ite h.send h.haEvent.fenceHost.settleAll

theorem Keeps.flushCell {o : Nat} {c : Cell} (h : Keeps s t) : Keeps s (flushCell t o c) := by
  unfold Machine.flushCell
  refine .forEach (.ite h.incCnt.incCnt h.incCnt) fun _ _ h => ?_
  split; exacts [h, .ite h.errFlush (.ite h.undeliverable h)]

theorem Keeps.portFlush {o : Nat} (h : Keeps s t) : Keeps s (portFlush t o) :=
  .swEvent (.forEach (.forEach (.frame (h.frame.forEach fun _ _ h => h.forEach fun _ _ h => h.flushCell)) fun _ _ h => h.errFlush)
    fun _ _ h => h.forEach fun _ _ h => h.undeliverable)

theorem Keeps.portFall {own : Bool} {p : Nat} (h : Keeps s t) : Keeps s (portFall own t p) :=
  .ite h (.portFlush (.regPut (.regPut (.putLink (.frame (.setFabState (.ite h.fabEvent.collectDump h.fabEvent)))))))

theorem Keeps.portDown {p : Nat} (h : Keeps s t) : Keeps s (portDown t p) := h.portFall

theorem Keeps.ethEvent {e b : Nat} {cnt : Option Nat} {action : Nat} (h : Keeps s t) : Keeps s (ethEvent t e b cnt action) := by
  unfold Machine.ethEvent
  extract_lets _ u2
  have h2 : Keeps s u2 := by unfold u2; split; exacts [h.setBit.incCnt, h.setBit]
  exact h2.logErr

theorem Keeps.ethFall {own : Bool} {e : Nat} (h : Keeps s t) : Keeps s (ethFall own t e) :=
  .ite h (.portFlush (.frame (.clrBit (.clrBit (.ite h.ethEvent.collectDump h.ethEvent)))))

theorem Keeps.ethDown {e : Nat} (h : Keeps s t) : Keeps s (ethDown t e) := h.ethFall

theorem Keeps.fabStart {p : Nat} (h : Keeps s t) : Keeps s (fabStart t p) := h.setFabState

theorem Keeps.startRetrain {p : Nat} (h : Keeps s t) : Keeps s (startRetrain t p) := by
  unfold Machine.startRetrain
  refine .ite h ?_
  split
  next e =>
    extract_lets _ _ _ u1
    have h1 : Keeps s u1 := (h.drawFree.snd e).putLink.fabEvent
    exact .ite h1.portDown h1.setFabState

theorem Keeps.resend {p : Nat} (h : Keeps s t) : Keeps s (resend t p) :=
  .ite h (.ite h.resendAll.fabEvent.startRetrain (.ite h.resendAll.startRetrain h.resendAll))

theorem Keeps.trainFail {p : Nat} (h : Keeps s t) : Keeps s (trainFail t p) :=
  .ite h.putLink.fabEvent.setFabState h.putLink.fabEvent.portDown

theorem Keeps.doPortDetect {port : Fin 16} (h : Keeps s t) : Keeps s (doPortDetect port t) :=
  h.whenRunning fun _ h => .ite h.setFabState h

theorem Keeps.doEqualizeDone {port : Fin 16} {converged : BitVec 4} (h : Keeps s t) : Keeps s (doEqualizeDone port converged t) :=
  h.whenRunning fun _ h => .ite h (.ite h.trainFail h.putLink.setFabState)

theorem Keeps.laneFault {p good : Nat} (h : Keeps s t) : Keeps s (laneFault t p good).2 := by
  unfold Machine.laneFault
  split
  next e => exact .inSnd (h.takeInj.getSnd e)
  · exact .inSnd h

theorem Keeps.setLanes {p good : Nat} (h : Keeps s t) : Keeps s (setLanes t p good) := by
  unfold Machine.setLanes
  split
  exact .ite (.swEvent (.ite h.regPut.regPut.fabEvent h.regPut.regPut)) (.ite h.regPut.regPut.fabEvent h.regPut.regPut)

theorem Keeps.doAlignDone {port : Fin 16} {order : List (Fin 4)} {far : BitVec 4} (h : Keeps s t) :
    Keeps s (doAlignDone port order far t) := by
  unfold Machine.doAlignDone
  refine h.whenRunning fun _ h => ?_
  refine .ite h ?_
  extract_lets
  split
  next e => exact .ite (h.laneFault.snd e).send.regPut.trainFail (h.laneFault.snd e).send.regPut.setLanes.setFabState

theorem Keeps.doConfigDone {port : Fin 16} {isHost : Bool} {far : BitVec 10} {credits : List (BitVec 6 × BitVec 12)} (h : Keeps s t) :
    Keeps s (doConfigDone port isHost far credits t) :=
  h.whenRunning fun _ h => .ite h (.ite h.send.regPut.regPut.putLink.setFabState h.send.regPut.regPut.fabEvent)

theorem Keeps.doRetrainDone {port : Fin 16} {good far : BitVec 4} (h : Keeps s t) : Keeps s (doRetrainDone port good far t) := by
  unfold Machine.doRetrainDone
  refine h.whenRunning fun _ h => ?_
  refine .ite h ?_
  split
  next e => exact .ite (h.laneFault.snd e).send.portDown (h.laneFault.snd e).send.setLanes.setFabState.resend

theorem Keeps.doRetrainTimeout {port : Fin 16} (h : Keeps s t) : Keeps s (doRetrainTimeout port t) :=
  h.whenRunning fun _ h => .ite h.portDown h

theorem Keeps.doTrainRetryTimer {port : Fin 16} (h : Keeps s t) : Keeps s (doTrainRetryTimer port t) :=
  h.whenRunning fun _ h => .ite h.setFabState h

theorem Keeps.askAgain {p : Nat} (h : Keeps s t) : Keeps s (askAgain t p) := .ite h h.putLink.emitIdle

theorem Keeps.takeHeader {p : Nat} {h' : FlitHdr} (h : Keeps s t) : Keeps s (takeHeader t p h') := by
  unfold Machine.takeHeader
  extract_lets
  split
  exact .ite (.drainControl (.ite h.putLink.resend h.putLink)) (.ite h.putLink.resend h.putLink)

theorem Keeps.ackDue {p : Nat} (h : Keeps s t) : Keeps s (ackDue t p) := .ite h.emitIdle h

theorem Keeps.creditError {p : Nat} (h : Keeps s t) : Keeps s (creditError t p) := h.fabEvent.putLink.startRetrain

theorem Keeps.rxFlit {p : Nat} {h' : FlitHdr} {crcOk beyond : Bool} (h : Keeps s t) : Keeps s (rxFlit t p h' crcOk beyond).2 := by
  unfold Machine.rxFlit
  extract_lets
  split
  next e =>
    refine Keeps.sndThen (s := s) ?_ (fun k2 => ?_) e
    · split
      next e => exact .inSnd (h.pmc.takeInj.getSnd e)
      · exact .inSnd h.pmc
    · refine .iteSnd (.inSnd k2.fabEvent.askAgain) ?_
      exact .iteSnd (.inSnd (.ackDue (.takeHeader (.ite k2.putLink k2)))) (.iteSnd (.iteSnd (.inSnd (.creditError (.takeHeader (.ite
        k2.putLink k2)))) (.inSnd (.ackDue (.takeHeader (.ite k2.putLink k2))))) (.inSnd (.ackDue (.ite (.askAgain (.takeHeader (.ite
        k2.putLink k2))) (.takeHeader (.ite k2.putLink k2))))))

theorem Keeps.fabInj {kind : Nat} {port : Fin 16} {arg : Nat} (h : Keeps s t) : Keeps s (fabInj kind port arg t) :=
  h.whenRunning fun _ h => h.armInj

theorem Keeps.doFabInjCrc {port : Fin 16} (h : Keeps s t) : Keeps s (doFabInjCrc port t) := h.fabInj

theorem Keeps.doFabInjBadRx {port : Fin 16} (h : Keeps s t) : Keeps s (doFabInjBadRx port t) := h.fabInj

theorem Keeps.doFabInjLaneFail {port : Fin 16} {lane : Fin 4} (h : Keeps s t) : Keeps s (doFabInjLaneFail port lane t) := h.fabInj

theorem Keeps.doFabInjRetrain {port : Fin 16} (h : Keeps s t) : Keeps s (doFabInjRetrain port t) :=
  h.whenRunning fun _ h => h.startRetrain

theorem Keeps.doFabInjDown {port : Fin 16} (h : Keeps s t) : Keeps s (doFabInjDown port t) := h.whenRunning fun _ h => h.portDown

theorem Keeps.doFlitIdle {port : Fin 16} {hdr : BitVec 64} {crcOk : Bool} (h : Keeps s t) : Keeps s (doFlitIdle port hdr crcOk t) :=
  h.whenRunning fun _ h => .ite h.rxFlit h

theorem Keeps.doAckTimer {port : Fin 16} (h : Keeps s t) : Keeps s (doAckTimer port t) :=
  h.whenRunning fun _ h => .ite h.emitIdle h

theorem Keeps.doResendTimeout {port : Fin 16} (h : Keeps s t) : Keeps s (doResendTimeout port t) :=
  h.whenRunning fun _ h => .ite h.resend h

theorem Keeps.reqAnswered {r : FabReq} {op : Nat} (h : Keeps s t) : Keeps s (reqAnswered t r op) := .ite h (.ite h.frame h.frame)

theorem Keeps.doGrantResponse {port : Fin 16} {txn : BitVec 12} {opcode : BitVec 6} {data : LineData} (h : Keeps s t) :
    Keeps s (doGrantResponse port txn opcode data t) := by
  unfold Machine.doGrantResponse
  refine h.whenRunning fun _ h => ?_
  split; exacts [h, h.reqAnswered.send.agentAnswer]

/-! ### The switch and reels (chapter 12) -/

theorem Keeps.mirrorCopy {c : Cell} {o : Nat} (h : Keeps s t) : Keeps s (mirrorCopy t c o) := by
  unfold Machine.mirrorCopy
  extract_lets
  split
  next e =>
    refine Keeps.sndThen (s := s) ?_ (fun k1 => ?_) e
    · split
      next e => exact .inSnd (h.takeInj.getSnd e)
      · exact .inSnd h
    · exact .ite k1.incCnt.swEvent k1.pmc.frame

theorem Keeps.mirrorCross {c : Cell} {p o : Nat} {leaving : Bool} (h : Keeps s t) : Keeps s (mirrorCross t c p o leaving) :=
  .ite h (.ite h.frame h.frame.mirrorCopy)

theorem Keeps.mirrorWrite {value : BitVec 64} (h : Keeps s t) : Keeps s (mirrorWrite t value) := .ite h.regSet.frame h.regSet

theorem Keeps.doSwMirrorWrite {value : BitVec 64} (h : Keeps s t) : Keeps s (doSwMirrorWrite value t) :=
  h.whenRunning fun _ h => h.mirrorWrite

theorem Keeps.cellSent {c : Cell} (h : Keeps s t) : Keeps s (cellSent t c) := .ite h.mirrorCross h

theorem Keeps.enterCell {c : Cell} (h : Keeps s t) : KeepsOpt s (enterCell t c) := by
  unfold Machine.enterCell
  split
  · exact .some h.frame.cellSent
  · split; exacts [.some h.pmc.pmc.pmc.frame.cellSent, .none]

theorem Keeps.drainQueue {q : List Cell} {held : List (Nat × Nat × Nat)} (h : Keeps s t) : Keeps s (drainQueue q held t) := by
  induction q generalizing t held with
  | nil => exact h
  | cons c q ih =>
    unfold Machine.drainQueue
    extract_lets
    split
    next e => exact ih (KeepsOpt.get (.ite .none h.enterCell) e)
    · exact ih h.frame

theorem Keeps.drainAgents (h : Keeps s t) : Keeps s (drainAgents t) := h.frame.drainQueue

theorem Keeps.returnCredit {p cls rc n : Nat} (h : Keeps s t) : Keeps s (returnCredit t p cls rc n) := by
  unfold Machine.returnCredit
  extract_lets
  split
  exact h.putLink.emitIdle

theorem Keeps.giveCredit {p : Nat} {c : Cell} (h : Keeps s t) : Keeps s (giveCredit t p c) := by
  unfold Machine.giveCredit
  split; exacts [h.frame, h.returnCredit]

theorem Keeps.freeCredits (h : Keeps s t) : Keeps s (freeCredits t) := h.frame.forEach fun _ _ h => .ite h.returnCredit h

theorem Keeps.firstEntry {q : List Cell} (h : Keeps s t) : KeepsOpt s ((firstEntry t q).map Prod.snd) := by
  intro u e
  obtain ⟨p, hp, rfl⟩ := Option.map_eq_some_iff.1 e
  obtain ⟨c, -, hc⟩ := List.exists_of_findSome?_eq_some hp
  split at hc
  · obtain ⟨u, hu, rfl⟩ := Option.map_eq_some_iff.1 hc
    exact h.enterCell.get hu
  · exact nomatch hc

theorem Keeps.drainPort {fuel p : Nat} (h : Keeps s t) : Keeps s (drainPort fuel t p) := by
  induction fuel generalizing t with
  | zero => exact h
  | succ fuel ih =>
    unfold Machine.drainPort
    split
    · exact h
    next e => exact ih (h.firstEntry.getSnd e).putLink.giveCredit

theorem Keeps.refusedHost {p h' : Nat} (h : Keeps s t) : Keeps s (refusedHost t p h') := .ite h.violate h

theorem Keeps.noteWrite {p h' : Nat} (h : Keeps s t) : Keeps s (noteWrite t p h') := .ite h.frame (.ite h.frame h)

theorem Keeps.takeMessage {p : Nat} {m : List Nat} (h : Keeps s t) : Keeps s (takeMessage t p m) := by
  unfold Machine.takeMessage
  split
  · exact h
  · extract_lets h0 dom rc k x _ u req hdr c v
    have hu : Keeps s u := h.putLink.pmc.refusedHost.noteWrite
    have hv : Keeps s v := by
      unfold v
      clear_value v c hdr req
      split
      · exact hu.reqAnswered
      · exact hu
    clear_value v
    split
    · exact .returnCredit (.ite hu.errFlush hu.flushCell)
    · exact .ite hv.flushCell.returnCredit hv.putLink

theorem Keeps.doFlitPayload {port : Fin 16} {hdr : BitVec 64} {slots : List (BitVec 128)} {crcOk : Bool} (h : Keeps s t) :
    Keeps s (doFlitPayload port hdr slots crcOk t) := by
  unfold Machine.doFlitPayload
  refine h.whenRunning fun _ h => ?_
  refine .ite h ?_
  extract_lets
  split
  next e => exact .ite (h.rxFlit.snd e) (.drainPort ((h.rxFlit.snd e).forEach fun _ _ h => .ite h.takeMessage h))

theorem Keeps.doCellPackTimeout {inp : Fin 42} (h : Keeps s t) : Keeps s (doCellPackTimeout inp t) :=
  h.whenRunning fun _ h => h.frame.forEach fun _ _ h => h.cellSent

theorem Keeps.stampReqs {o agent : Nat} {ms : List (List Nat)} (h : Keeps s t) : Keeps s (stampReqs t o agent ms).2 := by
  induction ms generalizing t with
  | nil => exact h
  | cons m ms ih =>
    unfold Machine.stampReqs
    split
    · exact ih h
    · extract_lets
      split
      · exact ih h
      · split
        · exact ih h.frame
        · exact ih h

theorem Keeps.mirrorSample {c : Cell} (h : Keeps s t) : Keeps s (mirrorSample t c) := h.ringPush

theorem Keeps.doSwInjPortDown {port : Fin 42} (h : Keeps s t) : Keeps s (doSwInjPortDown port t) :=
  h.whenRunning fun _ h => .ite h.portDown (.ite h.ethDown h.portFlush)

theorem Keeps.doSwInjCellUe (h : Keeps s t) : Keeps s (doSwInjCellUe t) := h.whenRunning fun _ h => h.armInj

theorem Keeps.doSwInjMirrorDrop (h : Keeps s t) : Keeps s (doSwInjMirrorDrop t) := h.whenRunning fun _ h => h.armInj

theorem Keeps.reelLookups {off : Nat} (h : Keeps s t) : Keeps s (reelLookups t off).1 := by
  unfold Machine.reelLookups
  split
  next e => exact .inFst (h.unitLookups.fst e)
  next e => exact .inFst ((h.unitLookups.fst e).forEach fun _ _ h => .ite h h.touchLine)

theorem Keeps.sendReel {via ctrl txn dom off : Nat} {line : Nat → LineData × Bool} (h : Keeps s t) :
    Keeps s (sendReel t via ctrl txn dom off line) := by
  unfold Machine.sendReel
  refine h.forEach fun _ _ h => ?_
  extract_lets
  split
  exact h.homeCount.gwSend

theorem Keeps.reelFrom {via ctrl txn dom r off key : Nat} {line : Nat → LineData × Bool} (h : Keeps s t) :
    Keeps s (reelFrom t via ctrl txn dom r off key line) := by
  unfold Machine.reelFrom
  extract_lets
  split; exacts [h.gwWork.streamAwait.fetchUnit, h.gwWork.frameHit.sendReel.streamDrop]

theorem Keeps.reelRead {w : ReelWait} (h : Keeps s t) : Keeps s (reelRead t w).2 := by
  unfold Machine.reelRead
  extract_lets
  split
  · exact .inSnd h.addrFault.gwSend
  · refine .iteSnd (.inSnd h.addrFault.gwSend) ?_
    refine .iteSnd (.inSnd h.violate.gwSend) ?_
    split
    · exact .iteSnd (.inSnd h.gwSend) (.inSnd h.reelFrom)
    · refine .iteSnd (.inSnd h) ?_
      split
      next e => exact .iteSnd (.inSnd (h.reelLookups.fst e)) (.iteSnd (.inSnd ((h.reelLookups.fst e).forEach fun _ _ h => h.askData))
        (.inSnd (h.reelLookups.fst e).reelFrom))

theorem Keeps.serveReelWaits (h : Keeps s t) : Keeps s (serveReelWaits t) := by
  unfold Machine.serveReelWaits
  refine h.forEach fun _ _ h => ?_
  split
  next e => exact (h.reelRead.snd e).frame
  next e => exact h.reelRead.snd e

theorem Keeps.reelServeFor {port ctrl txn dom addr : Nat} {version : Option Nat} (h : Keeps s t) :
    Keeps s (reelServeFor t port ctrl txn dom addr version) := by
  unfold Machine.reelServeFor
  extract_lets
  split
  · extract_lets
    split
    next e => exact h.reelRead.snd e
    next e => exact .ite (h.reelRead.snd e) (h.reelRead.snd e).frame
  · exact h.addrFault.gwSend

theorem Keeps.doReelReadServe {port : Fin 16} {ctrl : BitVec 10} {txn : BitVec 12} {dom : BitVec 8} {addr : BitVec 60}
    {version : Option (BitVec 48)} (h : Keeps s t) :
    Keeps s (doReelReadServe port ctrl txn dom addr version t) :=
  h.whenRunning fun _ h => h.reelServeFor

theorem Keeps.doReelFetchDone {txn : Nat} {lines : List (BitVec 512 × Bool)} {err : Option (BitVec 4)} (h : Keeps s t) :
    Keeps s (doReelFetchDone txn lines err t) :=
  h.whenRunning fun _ h => h.reelFetched

theorem Keeps.reelWbApply {port ctrl txn dom base : Nat} {lines : List (Nat × LineData × Bool)} (h : Keeps s t) :
    Keeps s (reelWbApply t port ctrl txn dom base lines) := by
  unfold Machine.reelWbApply
  extract_lets
  split
  · split
    · exact h.addrFault.gwSend
    · exact .ite h.addrFault.gwSend (.ite h.violate.gwSend (.ite h.addrFault.gwSend h.gwWork.frame.settleAll))
  · exact h.addrFault.gwSend

theorem Keeps.doReelWbApply {port : Fin 16} {ctrl : BitVec 10} {txn : BitVec 12} {dom : BitVec 8} {base : BitVec 60}
    {lines : List (BitVec 10 × BitVec 512 × Bool)} (h : Keeps s t) :
    Keeps s (doReelWbApply port ctrl txn dom base lines t) :=
  h.whenRunning fun _ h => h.reelWbApply

theorem Keeps.wbCollect {port h' mask : Nat} {d : LineData} (h : Keeps s t) : Keeps s (wbCollect t port h' mask d) := by
  unfold Machine.wbCollect
  extract_lets
  split; exacts [.ite h.frame.reelWbApply h.frame, h.frame]

theorem Keeps.doReelWbDone {txn : Nat} (h : Keeps s t) : Keeps s (doReelWbDone txn t) := h.whenRunning fun _ h => h.reelWbDone

theorem Keeps.doReelTimeout {txn : Nat} (h : Keeps s t) : Keeps s (doReelTimeout txn t) := by
  unfold Machine.doReelTimeout
  refine h.whenRunning fun _ h => ?_
  split; exacts [h, .ite h.gwEvent.dropFetch h.gwEvent.writebackLines]

theorem Keeps.toAgent {p o : Nat} {m : List Nat} (h : Keeps s t) : Keeps s (toAgent t p o m) := by
  unfold Machine.toAgent
  split; exacts [h, .ite h.agentAnswer (.ite (.ite h.reelServeFor (.ite h.wbCollect h)) h)]

theorem Keeps.deliver {o : Nat} {c : Cell} (h : Keeps s t) : Keeps s (deliver t o c) := by
  unfold Machine.deliver
  extract_lets _ _ _ u2 _
  have h2 : Keeps s u2 := .ite h.frame.frame h.frame
  split
  next e => exact (h2.takeInj.getSnd e).swEvent.flushCell
  · refine .ite h2.mirrorCross.pmc.mirrorSample ?_
    refine .ite ?_ (.ite (h2.mirrorCross.pmc.send.forEach fun _ _ h => h.toAgent) h2.mirrorCross.pmc.send)
    split
    next e =>
      have k4 : Keeps s _ := Keeps.snd (.iteSnd h2.mirrorCross.pmc.stampReqs (.inSnd h2.mirrorCross.pmc)) e
      exact k4.pmc.pmc.putLink.sendFlit

theorem Keeps.doSwitchCycle (h : Keeps s t) : Keeps s (doSwitchCycle t) := by
  unfold Machine.doSwitchCycle
  refine h.whenRunning fun _ h => .ite h ?_
  exact .serveReelWaits (.forEach (.freeCredits (.frame (.forEach (h.frame.drainAgents.forEach fun _ _ h => h.frame)
    fun _ _ h => h.deliver))) fun _ _ h => h.drainPort)

theorem Keeps.resplit {t2 : State} {p : Nat} (_h : Keeps s t) (h2 : Keeps s t2) : Keeps s (resplit t t2 p) := .ite h2 h2.putLink

theorem Keeps.doEpochBoundary (h : Keeps s t) : Keeps s (doEpochBoundary t) :=
  h.whenRunning fun _ h => .ite h (.forEach (h.frame.regAdd.forEach fun _ _ h => h.swEvent) fun _ _ h1 => h.resplit h1)

theorem Keeps.doGwInjRemoteErr (h : Keeps s t) : Keeps s (doGwInjRemoteErr t) := h.whenRunning fun _ h => h.armInj

theorem Keeps.doGwInjTimeout (h : Keeps s t) : Keeps s (doGwInjTimeout t) := h.whenRunning fun _ h => h.armInj

theorem Keeps.doGwInjStageUe (h : Keeps s t) : Keeps s (doGwInjStageUe t) := h.whenRunning fun _ h => h.armInj

theorem Keeps.abortRx {w origin : Nat} (h : Keeps s t) : Keeps s (abortRx t w origin) := by
  unfold Machine.abortRx
  split; exacts [h, .ite h.kernelAbort h.dropStart]

theorem Keeps.abortReady {w origin : Nat} (h : Keeps s t) : Keeps s (abortReady t w origin) := .ite h.complete h

theorem Keeps.abortComp {comp origin : Nat} (h : Keeps s t) : Keeps s (abortComp t comp origin) :=
  .forEach (h.recovEvent.forEach fun _ _ h => h.abortRx) fun _ _ h => h.abortReady

theorem Keeps.doAbortFlit {port : Fin 16} {hdr : BitVec 64} {slot : BitVec 128} {crcOk : Bool} (h : Keeps s t) :
    Keeps s (doAbortFlit port hdr slot crcOk t) := by
  unfold Machine.doAbortFlit
  refine h.whenRunning fun _ h => ?_
  refine .ite h ?_
  extract_lets
  split
  next e => exact .ite (h.rxFlit.snd e).abortComp (h.rxFlit.snd e)

/-! ### Faults and recovery (chapter 14) -/

theorem Keeps.beginRecov {kind unit : Nat} (h : Keeps s t) : Keeps s (beginRecov t kind unit) := .ite h h.frame

theorem Keeps.endRecov {kind unit : Nat} (h : Keeps s t) : Keeps s (endRecov t kind unit) := h.frame

theorem Keeps.openWindows {h' : Nat} (h : Keeps s t) : Keeps s (openWindows t h') := .ite (h.forEach fun _ _ h => h.armWindow) h

theorem Keeps.takeDown {p : Nat} (h : Keeps s t) : Keeps s (takeDown t p) := .ite h.portFall (.ite h.ethFall h.portFlush)

theorem Keeps.markService {kind unit : Nat} {on : Bool} (h : Keeps s t) : Keeps s (markService t kind unit on) := by
  unfold Machine.markService
  extract_lets u1
  have h1 : Keeps s u1 := by unfold u1; split; exacts [h.regPut, h]
  exact .ite h1.setLatheState (.ite h1.regPut (.ite h1.regPut (.ite (.ite h1.regPut.openWindows h1.regPut) (.ite h1.regPut.degradeQuads
    (.ite h1.fabStart h1)))))

theorem Keeps.noteReset {kind unit : Nat} (h : Keeps s t) : Keeps s (noteReset t kind unit) := by
  unfold Machine.noteReset
  split
  · exact h
  · split
    next e =>
      extract_lets
      split; exacts [.ite (h.drawFree.snd e).frame.recovEvent.markService (h.drawFree.snd e).frame, (h.drawFree.snd e).frame]

theorem Keeps.openReset {kind unit : Nat} {cold : Bool} (h : Keeps s t) : Keeps s (openReset t kind unit cold) :=
  h.logErr.collectDump

theorem Keeps.closeReset {kind unit : Nat} (h : Keeps s t) : Keeps s (closeReset t kind unit) := h.endRecov.noteReset

theorem Keeps.abortSend {dom code : Nat} (h : Keeps s t) : Keeps s (abortSend t dom code) := by
  unfold Machine.abortSend
  refine .ite h ?_
  extract_lets _ _ u1
  have h1 : Keeps s u1 := by
    unfold u1
    refine h.forEach fun _ _ h => ?_
    split; exacts [h.sendControl, h]
  exact h1.recovEvent

theorem Keeps.tellMembers {w : Nat} (h : Keeps s t) : Keeps s (tellMembers t w) := by
  unfold Machine.tellMembers
  split
  · exact h
  · split; exacts [h, .ite h h.putKernel.abortSend]

theorem Keeps.recoveryAbort {w addr : Nat} (h : Keeps s t) : Keeps s (recoveryAbort t w addr) := by
  unfold Machine.recoveryAbort
  split
  · exact h
  · split
    exact h.logErr.kernelAbort

theorem Keeps.owedResets {w : Nat} (h : Keeps s t) : Keeps s (owedResets t w) :=
  h.forEach fun _ _ h => .ite h.putLathe.setLatheState (h.putLathe.forEach fun _ _ h => h.recoveryAbort)

theorem Keeps.resetContext {k : Kernel} (h : Keeps s t) : Keeps s (resetContext t k) :=
  .owedResets (.forEach (.forEach (h.forEach fun _ _ h => h.putLathe.freeLathe) fun _ _ h => h.putCtx.freeCtx.regSet)
    fun _ _ h => h.putKite.freeKite.regSet)

theorem Keeps.doKernelContextRecovery {w : Fin 1024} (h : Keeps s t) : Keeps s (doKernelContextRecovery w t) := by
  unfold Machine.doKernelContextRecovery
  refine h.whenRunning fun _ h => ?_
  split
  · exact h
  · refine .ite h ?_
    refine .ite h.tellMembers ?_
    extract_lets u2
    have h2 : Keeps s u2 := h.tellMembers.resetContext.endRecov
    exact .ite h2 (.releaseKernel (.ite h2.leaveHang h2))

theorem Keeps.doReplayStart {w : Fin 1024} (h : Keeps s t) : Keeps s (doReplayStart w t) := by
  unfold Machine.doReplayStart
  refine h.whenRunning fun _ h => ?_
  extract_lets
  split
  · refine .ite h ?_
    extract_lets
    split; exacts [h.putKernel.incCnt.launch.fireAtStart, h]
  · exact h

theorem Keeps.releaseGuilty {w : Nat} (h : Keeps s t) : Keeps s (releaseGuilty t w) := by
  unfold Machine.releaseGuilty
  split; exacts [h, .ite h.collectDump.resetContext.releaseKernel h]

theorem Keeps.doFrozenTimeout {w : Fin 1024} (h : Keeps s t) : Keeps s (doFrozenTimeout w t) :=
  h.whenRunning fun _ h => .ite h h.releaseGuilty

theorem Keeps.abortOn {mine : Kernel → Bool} {drop : Kernel → Kernel} (h : Keeps s t) : Keeps s (abortOn t mine drop) :=
  .frame (.forEach (h.forEach fun _ _ h => h.recoveryAbort) fun _ _ h => h.dropStart)

theorem Keeps.rewriteStripes {l : Nat} (h : Keeps s t) : Keeps s (rewriteStripes t l) :=
  h.forEach fun _ _ h => .ite (h.forEach fun _ _ h => h.copyMem) h

theorem Keeps.resetLathe {l : Nat} (h : Keeps s t) : Keeps s (resetLathe t l) :=
  .regSetList (.regSet (.rewriteStripes (h.abortOn.putLathe.zeroMem.frame.forEach fun _ _ h => h.armArea)))

theorem Keeps.doLatheReset {lathe : Fin 128} (h : Keeps s t) : Keeps s (doLatheReset lathe t) :=
  h.whenRunning fun _ h => .ite h h.openReset.resetLathe.closeReset

theorem Keeps.resetGouge {g : Nat} (h : Keeps s t) : Keeps s (resetGouge t g) :=
  .regSet (.forEach (h.abortOn.forEach fun _ _ h => h.putCtx.freeCtx) fun _ _ h => h.regSet)

theorem Keeps.resetWalker {w : Nat} (h : Keeps s t) : Keeps s (resetWalker t w) :=
  .regSet (.forEach (h.abortOn.forEach fun _ _ h => h.putKite.freeKite) fun _ _ h => h.regSet)

theorem Keeps.doEngineReset {engine : Fin 48} (h : Keeps s t) : Keeps s (doEngineReset engine t) :=
  h.whenRunning fun _ h => .ite (.ite h h.openReset.resetWalker.closeReset) (.ite h h.openReset.resetGouge.closeReset)

theorem Keeps.flushHome {h' : Nat} (h : Keeps s t) : Keeps s (flushHome t h') := by
  unfold Machine.flushHome
  refine h.frame.forEach fun u x h => ?_
  cases x.1.src with
  | kernel w => exact h.recoveryAbort
  | control => exact h
  | _ => exact h.sendErr

theorem Keeps.dropFilter {h' : Nat} (h : Keeps s t) : Keeps s (dropFilter t h') := h.frame

theorem Keeps.doHomeWarmReset {home : Fin 8} (h : Keeps s t) : Keeps s (doHomeWarmReset home t) := by
  unfold Machine.doHomeWarmReset
  refine h.whenRunning fun _ h => ?_
  exact .ite h (.closeReset (.setBit (.portFlush (.settleAll (.forEach (.dropFilter (.flushHome (h.openReset.forEach
    fun _ _ h => h.storeEvict))) fun _ _ h => h.dropStart)))))

theorem Keeps.poisonPiece {key : Nat} (h : Keeps s t) : Keeps s (poisonPiece t key) := h.forEach fun _ _ h => h.setPoison

theorem Keeps.coldRegion {h' r : Nat} (h : Keeps s t) : Keeps s (coldRegion t h' r) :=
  .ite h.frame (h.forEach fun _ _ h => h.poisonPiece)

theorem Keeps.closeWindow {w : Nat} (h : Keeps s t) : Keeps s (closeWindow t w) := by
  unfold Machine.closeWindow
  refine .ite h.putWin.setCounter.setWinState ?_
  refine .ite h.frame.putWin.setCounter.setWinState ?_
  extract_lets u1 u2 _
  have h1 : Keeps s u1 := by unfold u1; split; exacts [h.freeEngines.endKernel, h]
  have h2 : Keeps s u2 := by unfold u2; split; exacts [h1.frame.releaseFrames, h1]
  exact h2.frame.putWin.setCounter.setWinState

theorem Keeps.coldHome {n : Nat} (h : Keeps s t) : Keeps s (coldHome t n) := by
  unfold Machine.coldHome
  extract_lets _ u ws u1 u2 u3 u4 u5
  have h4 : Keeps s u4 := .dropCached (.forEach (.forEach (.forEach h.flushHome.frame fun _ _ h => h.recoveryAbort)
    fun _ _ h => h.coldRegion) fun _ _ h => h.forEach fun _ _ h => h.poisonPiece)
  have h5 : Keeps s u5 :=
    ⟨h4.pending, fun hs => have ⟨hm, hr, hc⟩ := h4.canonical hs; ⟨hm, hr, Sparse.canon_filter (d := fun _ => 0) _ hc⟩⟩
  exact .forEach (.forEach (.settleAll (h5.forEach fun _ _ h => h.armArea)) fun _ _ h => h.closeWindow) fun _ _ h => h.clrBit

theorem Keeps.fastReset (h : Keeps s t) : Keeps s (fastReset t) :=
  ⟨h.pending, fun hs =>
    have ⟨hm, hr, _⟩ := h.canonical hs
    ⟨Memory.wf_filter _ hm, regsCanon_afterReset hr, .nil, List.forall_mem_nil _⟩⟩

theorem Keeps.tsCut (h : Keeps s t) : Keeps s (tsCut t) := by
  unfold Machine.tsCut
  split; exacts [h.frame.tsText, h]

theorem Keeps.setPwrState {v : Nat} (h : Keeps s t) : Keeps s (setPwrState t v) := h.regPut

theorem Keeps.switchRails {on held : Bool} (h : Keeps s t) : Keeps s (switchRails t on held) :=
  .frame (h.forEach fun _ _ h => h.send)

theorem Keeps.railsOff (h : Keeps s t) : Keeps s (railsOff t) := .ite h.switchRails h

theorem Keeps.dumpDevice {action : Nat} (h : Keeps s t) : Keeps s (dumpDevice t action) := .ite h h.collectDump

theorem Keeps.fastOut (h : Keeps s t) : Keeps s (fastOut t) := .ite h h.setPwrState

theorem Keeps.wholeReset {esc : Nat} (h : Keeps s t) : Keeps s (wholeReset t esc) :=
  h.logErr.dumpDevice.tsCut.fastReset.fastOut.railsOff.regPut.frame

theorem Keeps.stopClocks (h : Keeps s t) : Keeps s (stopClocks t) := h.frame.forEach fun _ _ h => h.askStop

theorem Keeps.ripPull {kind unit : Nat} (h : Keeps s t) : Keeps s (ripPull t kind unit) :=
  .send (.regPut (.regPut (.setBit (.logErr (.railsOff (.stopClocks (.fastOut (.frame (.forEach (.dumpDevice (h.forEach
    fun _ _ h => h.recoveryAbort.tellMembers)) fun _ _ h => h.takeDown)))))))))

theorem Keeps.nestedError {kind unit : Nat} (h : Keeps s t) : Keeps s (nestedError t kind unit) := by
  unfold Machine.nestedError
  extract_lets
  split
  exact .ite h.ripPull (.ite h.recovEvent.endRecov.wholeReset h.recovEvent.endRecov.endRecov.frame)

theorem Keeps.coldEscalate {h' : Nat} (h : Keeps s t) : Keeps s (coldEscalate t h') := h.recovEvent.wholeReset

theorem Keeps.doHomeColdReset {home : Fin 8} (h : Keeps s t) : Keeps s (doHomeColdReset home t) :=
  h.whenRunning fun _ h => .ite h (.ite h.coldEscalate h.openReset.coldHome.portFlush.setBit.closeReset.openWindows)

theorem Keeps.doBackgroundRestore {home : Fin 8} (h : Keeps s t) : Keeps s (doBackgroundRestore home t) := by
  unfold Machine.doBackgroundRestore
  refine h.whenRunning fun _ h => ?_
  split; exacts [h, h.restored.serveUnit]

theorem Keeps.doMediumChannelReset {chan : Fin 32} {trains : List (BitVec 16)} (h : Keeps s t) :
    Keeps s (doMediumChannelReset chan trains t) := by
  unfold Machine.doMediumChannelReset
  refine h.whenRunning fun _ h => ?_
  refine .ite h ?_
  extract_lets _ _ u6
  have h6 : Keeps s u6 := by unfold u6; split; exacts [h.openReset.bringUp.regPut, h.openReset.bringUp.medEvent.markService]
  exact h6.closeReset.degradeQuads.startReads.logStep

theorem Keeps.doSwitchCoreReset {parity : Bool} (h : Keeps s t) : Keeps s (doSwitchCoreReset parity t) := by
  unfold Machine.doSwitchCoreReset
  refine h.whenRunning fun _ h => ?_
  exact .closeReset (.forEach (.forEach (.regPut (.regSet (.frame (.forEach (.forEach (.openReset (.ite h.swEvent h))
    fun _ _ h => h.recoveryAbort.tellMembers) fun _ _ h => h.takeDown)))) fun _ _ h => .ite h h.putLink.fabStart) fun _ _ h => .ite
    h.resetLathe (.ite h.resetWalker (.ite h.resetGouge h)))

theorem Keeps.doWholeDeviceReset (h : Keeps s t) : Keeps s (doWholeDeviceReset t) := h.whenRunning fun _ h => h.wholeReset

theorem Keeps.doResetDeadline {kind : Fin 17} {unit : BitVec 12} (h : Keeps s t) : Keeps s (doResetDeadline kind unit t) :=
  .ite h h.nestedError

theorem Keeps.listOrphan {region line epoch holder : Nat} (h : Keeps s t) : Keeps s (listOrphan t region line epoch holder) :=
  .ite h.setBit h.regSetList.regPut

theorem Keeps.sweepRecord {r off : Nat} (h : Keeps s t) : Keeps s (sweepRecord t r off) :=
  .ite h (.ite h.tetherRefuse (.ite h.storeFree.putStack.frame.listOrphan.recovEvent h.frame))

theorem Keeps.tetherSweep {t' : Nat} (h : Keeps s t) : Keeps s (tetherSweep t t') :=
  .ite h (.ite (h.forEach fun _ _ h => h.sweepRecord) h)

theorem Keeps.doTetherSweep {tether : Fin 16} (h : Keeps s t) : Keeps s (doTetherSweep tether t) :=
  h.whenRunning fun _ h => h.tetherSweep

theorem Keeps.doOrphAck {n : BitVec 13} (h : Keeps s t) : Keeps s (doOrphAck n t) :=
  h.whenRunning fun _ h => h.regSub.regPut.clrBit

theorem Keeps.doDumpRelease {slot : Fin 2} (h : Keeps s t) : Keeps s (doDumpRelease slot t) := h.regPut.clrBit

theorem Keeps.doErrAck {cls : Fin 12} {n : BitVec 8} (h : Keeps s t) : Keeps s (doErrAck cls n t) := h.errAck

theorem Keeps.stkCalls {h' b : Nat} {cold : Bool} (h : Keeps s t) : Keeps s (stkCalls t h' b cold) :=
  .ite h.setBit.logErr.nestedError (.ite h.setBit.logErr.coldEscalate h.setBit.logErr.beginRecov)

theorem Keeps.doStackTrainingLoss {stack : Fin 8} (h : Keeps s t) : Keeps s (doStackTrainingLoss stack t) :=
  h.whenRunning fun _ h => h.stkCalls

theorem Keeps.doControlCoreUe (h : Keeps s t) : Keeps s (doControlCoreUe t) := h.whenRunning fun _ h => h.recovEvent.wholeReset

theorem Keeps.doStkInjCe {stack : Fin 8} (h : Keeps s t) : Keeps s (doStkInjCe stack t) := h.whenRunning fun _ h => h.armInj

theorem Keeps.doStkInjUe {stack : Fin 8} (h : Keeps s t) : Keeps s (doStkInjUe stack t) := h.whenRunning fun _ h => h.armInj

theorem Keeps.doStkInjTrkUe {stack : Fin 8} (h : Keeps s t) : Keeps s (doStkInjTrkUe stack t) :=
  h.whenRunning fun _ h => h.stkCalls

theorem Keeps.doStkInjCtrUe {stack : Fin 8} (h : Keeps s t) : Keeps s (doStkInjCtrUe stack t) :=
  h.whenRunning fun _ h => h.stkCalls

theorem Keeps.doStkInjTrain {stack : Fin 8} (h : Keeps s t) : Keeps s (doStkInjTrain stack t) :=
  h.whenRunning fun _ h => h.stkCalls

theorem Keeps.doRecovInjCwAccess (h : Keeps s t) : Keeps s (doRecovInjCwAccess t) := h.whenRunning fun _ h => h.cwAccessErr

theorem Keeps.resetUnit {kind unit : Nat} (h : Keeps s t) : Keeps s (resetUnit t kind unit) := by
  unfold Machine.resetUnit
  refine .ite h.doLatheReset ?_
  refine .ite h.doEngineReset ?_
  refine .ite h.doEngineReset ?_
  refine .ite (.ite h.kernelAbort h) ?_
  refine .ite h.doHomeWarmReset ?_
  exact .ite h.doMediumChannelReset (.ite (.ite h.openReset.portFall.fabStart.closeReset h) (.ite (.ite h.openReset.takeDown.closeReset
    h) (.ite h.doSwitchCoreReset h.wholeReset)))

theorem Keeps.doRecovInjReset {unit : BitVec 16} (h : Keeps s t) : Keeps s (doRecovInjReset unit t) :=
  h.whenRunning fun _ h => h.resetUnit

theorem Keeps.doRecovInjNested {unit : BitVec 16} (h : Keeps s t) : Keeps s (doRecovInjNested unit t) := .ite h h.nestedError

theorem Keeps.doRecovInjRip (h : Keeps s t) : Keeps s (doRecovInjRip t) := h.whenRunning fun _ h => h.ripPull

theorem Keeps.doRecovInjTetherSweep (h : Keeps s t) : Keeps s (doRecovInjTetherSweep t) :=
  h.whenRunning fun _ h => h.forEach fun _ _ h => h.tetherSweep

theorem Keeps.doRecovInjAbort {dom : BitVec 8} (h : Keeps s t) : Keeps s (doRecovInjAbort dom t) :=
  h.whenRunning fun _ h => h.abortSend

theorem Keeps.doRecovInjCtrlUe (h : Keeps s t) : Keeps s (doRecovInjCtrlUe t) := h.doControlCoreUe

/-! ### Power and resets (chapter 16) -/

theorem Keeps.pwrEvent {bit : Option Nat} {code action d0 : Nat} (h : Keeps s t) : Keeps s (pwrEvent t bit code action d0) := by
  unfold Machine.pwrEvent
  extract_lets u1
  have h1 : Keeps s u1 := by unfold u1; split; exacts [h.setBit, h]
  exact h1.logErr

theorem Keeps.errorWhole (h : Keeps s t) : Keeps s (errorWhole t) := .ite h (.ite h.ripPull h.wholeReset)

theorem Keeps.enterRunning (h : Keeps s t) : Keeps s (enterRunning t) :=
  .send (h.frame.setPwrState.setBit.regSetList.forEach fun _ _ h => h.askStart)

theorem Keeps.startWake (h : Keeps s t) : Keeps s (startWake t) := h.setPwrState.switchRails.frame.forEach fun _ _ h => h.askStart

theorem Keeps.grantClock {q : BReq} (h : Keeps s t) : Keeps s (grantClock t q) := by
  unfold Machine.grantClock
  refine .ite h.frame.railsOff ?_
  extract_lets _ _ u2
  have h2 : Keeps s u2 := .ite h.frame.setBit.openWindows (.ite h.frame.setBit h.frame)
  exact .ite h2.enterRunning h2

theorem Keeps.stepUp (h : Keeps s t) : Keeps s (stepUp t) := by
  unfold Machine.stepUp
  split
  next e => exact (h.drawFree.snd e).frame.regPut

theorem Keeps.grantLoop {fuel : Nat} (h : Keeps s t) : Keeps s (grantLoop fuel t) := by
  induction fuel generalizing t with
  | zero => exact h
  | succ fuel ih =>
    unfold Machine.grantLoop
    split
    · exact h
    · exact .ite h (ih (.ite h.frame.regSub.stepUp h.frame.regSub.grantClock))

theorem Keeps.doBallastTick (h : Keeps s t) : Keeps s (doBallastTick t) := .ite h h.frame.regPut.grantLoop.frame.addCnt.showQueue

theorem Keeps.doClockIdleStop {unit : BitVec 16} (h : Keeps s t) : Keeps s (doClockIdleStop unit t) :=
  h.whenRunning fun _ h => .ite h.askStop h

theorem Keeps.doBallastCfgWrite {v : BitVec 64} (h : Keeps s t) : Keeps s (doBallastCfgWrite v t) := .ite h h.regPut.regPut.regPut

theorem Keeps.thermalTrip (h : Keeps s t) : Keeps s (thermalTrip t) :=
  .railsOff (.send (.stopClocks (.setPwrState (.frame (.fastReset (.tsCut (h.pwrEvent.forEach fun _ _ h => h.takeDown)))))))

theorem Keeps.doPowerSample {watts : BitVec 16} {temp : BitVec 8} (h : Keeps s t) : Keeps s (doPowerSample watts temp t) := by
  unfold Machine.doPowerSample
  refine .ite h ?_
  extract_lets
  split
  next e =>
    refine Keeps.sndThen (s := s) ?_ (fun k1 => ?_) e
    · split
      next e => exact .inSnd (h.takeInj.getSnd e)
      · exact .inSnd h
    · refine .ite k1.frame.regPut.regPut ?_
      refine .ite k1.frame.regPut.regPut.thermalTrip ?_
      refine .ite ?_ (.ite (.ite k1.frame.regPut.regPut.frame (.ite k1.frame.regPut.regPut.frame.askStart k1.frame.regPut.regPut.frame))
        k1.frame.regPut.regPut.frame)
      refine .ite k1.frame.regPut.regPut.frame ?_
      split
      next e1 => exact (k1.frame.regPut.regPut.frame.drawFree.snd e1).frame.incCnt.pwrEvent.regPut

theorem Keeps.doPwrReqRun (h : Keeps s t) : Keeps s (doPwrReqRun t) := .ite h.regPut (.ite h.regPut.setBit h.regPut.regPut.frame)

theorem Keeps.stacksOff (h : Keeps s t) : Keeps s (stacksOff t) := h.frame.regSet.setPwrState

theorem Keeps.doPwrReqStandby (h : Keeps s t) : Keeps s (doPwrReqStandby t) := by
  unfold Machine.doPwrReqStandby
  refine .ite h.regPut ?_
  refine .ite (.ite (.stacksOff (.frame (.forEach (.ite h.regPut.frame h.regPut) fun _ _ h => h.send))) (.ite h.regPut.frame h.regPut)) ?_
  extract_lets _ u3
  have h3 : Keeps s u3 := h.regPut.collectDump.tsCut.fastReset.switchRails
  exact .ite h3.setPwrState h3.stacksOff

theorem Keeps.doRailTimeout {rail : Fin 7} (h : Keeps s t) : Keeps s (doRailTimeout rail t) :=
  .ite h h.pwrEvent.switchRails.frame.stacksOff

theorem Keeps.pollRail {r : PmbRead} (h : Keeps s t) : Keeps s (pollRail t r) := by
  unfold Machine.pollRail
  refine .ite h ?_
  split
  next e =>
    refine Keeps.sndThen (s := s) ?_ (fun k1 => ?_) e
    · split
      next e => exact .inSnd (h.takeInj.getSnd e)
      · exact .inSnd h
    · refine .ite k1.pwrEvent.incCnt ?_
      split
      next e1 =>
        refine Keeps.sndThen (s := s) ?_ (fun k2 => ?_) e1
        · split
          next e1 => exact .inSnd (k1.takeInj.getSnd e1)
          · exact .inSnd k1
        · exact .ite (.errorWhole (.setBit (.ite k2.regSet.pwrEvent k2.regSet))) (.ite k2.regSet.pwrEvent k2.regSet)

theorem Keeps.doPmbusPoll {reads : List PmbRead} (h : Keeps s t) : Keeps s (doPmbusPoll reads t) :=
  .ite h (h.forEach fun _ _ h => h.pollRail)

theorem Keeps.doPllUnlock {which : BitVec 8} (h : Keeps s t) : Keeps s (doPllUnlock which t) := .ite h h.pwrEvent.errorWhole

theorem Keeps.powerLoss {aon : Bool} (h : Keeps s t) : Keeps s (powerLoss t aon) := by
  unfold Machine.powerLoss
  extract_lets _ _ _ u1 u2
  have h2 : Keeps s u2 :=
    ⟨h.pending, fun hs => have ⟨hm, hr, hc⟩ := h.fastReset.canonical hs; ⟨hm, Sparse.canon_filter _ hr, hc⟩⟩
  exact .setPwrState (.ite h2.regPut.frame h2.regPut)

theorem Keeps.doAonPgRise (h : Keeps s t) : Keeps s (doAonPgRise t) := h.frame

theorem Keeps.doAonPgFall (h : Keeps s t) : Keeps s (doAonPgFall t) := .ite h.powerLoss h

theorem Keeps.doStbyPgRise {slot : BitVec 4} {hold tsEn ref0 : Bool} (h : Keeps s t) : Keeps s (doStbyPgRise slot hold tsEn ref0 t) :=
  .ite h.frame h.regPut.regPut.regSet.regPut.frame.setPwrState

theorem Keeps.doStbyPgFall (h : Keeps s t) : Keeps s (doStbyPgFall t) := .ite h.powerLoss h

theorem Keeps.doXtalStart (h : Keeps s t) : Keeps s (doXtalStart t) := h.frame

theorem Keeps.doResetNPulse {held : Bool} (h : Keeps s t) : Keeps s (doResetNPulse held t) :=
  .ite h (.ite h.logErr (.ite h.frame.regPut h.wholeReset.frame))

theorem Keeps.doResetNRise (h : Keeps s t) : Keeps s (doResetNRise t) := h.frame

theorem Keeps.pwrInj {kind : Nat} (h : Keeps s t) : Keeps s (pwrInj t kind) := .ite h.armInj h

theorem Keeps.doPwrInjHot (h : Keeps s t) : Keeps s (doPwrInjHot t) := h.pwrInj

theorem Keeps.doPwrInjPmbFail (h : Keeps s t) : Keeps s (doPwrInjPmbFail t) := h.pwrInj

theorem Keeps.doPwrInjStatusFault (h : Keeps s t) : Keeps s (doPwrInjStatusFault t) := h.pwrInj

theorem Keeps.doPwrInjTrip (h : Keeps s t) : Keeps s (doPwrInjTrip t) := .ite h h.thermalTrip

/-! ### Headstock and images (chapter 15) -/

theorem Keeps.putBytes {a : Nat} {bs : List (BitVec 8)} (h : Keeps s t) : Keeps s (putBytes t a bs) := by
  induction bs generalizing t a with
  | nil => exact h
  | cons b bs ih => exact ih (h.memory fun hm => Memory.wf_write _ _ hm)

theorem Keeps.bootLog {code : Nat} {bit : Option Nat} {d0 : Nat} (h : Keeps s t) : Keeps s (bootLog t code bit d0) := by
  unfold Machine.bootLog
  extract_lets u1
  have h1 : Keeps s u1 := by unfold u1; split; exacts [h.setBit, h]
  exact h1.logErr.regPut

theorem Keeps.setBootState {v : Nat} (h : Keeps s t) : Keeps s (setBootState t v) :=
  .ite h.regPut.send (.ite h.regPut h.regPut.send)

theorem Keeps.bootFinish {rails : List (BitVec 17)} (h : Keeps s t) : Keeps s (bootFinish t rails) := by
  unfold Machine.bootFinish
  extract_lets
  split
  next e =>
    extract_lets u2 _ _ _
    have h2 : Keeps s u2 := (h.regSetList.drawFree.snd e).regSet
    exact .ite h2.regSetList.regPut.frame.setBootState h2.regSetList.regPut.frame.setBootState.regSetList.startWake

theorem Keeps.doHeadstock {spiOk identityOk : Bool} {rails : List (BitVec 17)} (h : Keeps s t) :
    Keeps s (doHeadstock spiOk identityOk rails t) := by
  unfold Machine.doHeadstock
  refine .ite h ?_
  extract_lets _ u2
  have h2 : Keeps s u2 := .ite h.regSet.setBit h.regSet.clrBit.bootLog
  refine .ite h2.frame.setBootState ?_
  split; exacts [h2.bootLog.setBootState, h2.bootFinish]

theorem Keeps.doSvnAdvance (h : Keeps s t) : Keeps s (doSvnAdvance t) := h.whenRunning fun _ h => .ite h.regPut h

theorem Keeps.beginSlotWrite {recov : Bool} (h : Keeps s t) : Keeps s (beginSlotWrite t recov) :=
  .ite h.zeroMem.frame h.zeroMem.frame.setBootState

theorem Keeps.patchBytes {a : Nat} {bad : List (BitVec 25 × BitVec 8)} (h : Keeps s t) : Keeps s (patchBytes t a bad).1 :=
  .foldlFst (p := (t, false)) h fun _ _ h => h.memory fun hm => Memory.wf_write _ _ hm

theorem Keeps.doSlotWriteDone {bad : List (BitVec 25 × BitVec 8)} {rails : List (BitVec 17)} (h : Keeps s t) :
    Keeps s (doSlotWriteDone bad rails t) := by
  unfold Machine.doSlotWriteDone
  split
  · exact h
  · extract_lets
    split
    next e =>
      split
      next e1 =>
        refine Keeps.sndThen (s := s) ?_ (fun k2 => ?_) e1
        · split
          next e1 => exact .inSnd ((h.copyMem.patchBytes.fst e).takeInj.getSnd e1)
          · exact .inSnd (h.copyMem.patchBytes.fst e)
        · refine .ite k2.zeroMem.frame ?_
          exact .ite (.ite (.ite k2.zeroMem.frame.bootLog k2.zeroMem.frame) (.bootFinish (.ite k2.zeroMem.frame.bootLog k2.zeroMem.frame)))
            (.setBootState (.ite k2.zeroMem.frame.bootLog k2.zeroMem.frame))

theorem Keeps.bootInj {kind : Nat} (h : Keeps s t) : Keeps s (bootInj t kind) := .ite h.armInj h

theorem Keeps.isoInj {kind arg : Nat} (h : Keeps s t) : Keeps s (isoInj t kind arg) := .ite h.armInj h

theorem Keeps.doBootInjSig (h : Keeps s t) : Keeps s (doBootInjSig t) := h.bootInj

theorem Keeps.doBootInjVerify (h : Keeps s t) : Keeps s (doBootInjVerify t) := h.bootInj

theorem Keeps.doIsoInjHost {host : Fin 64} (h : Keeps s t) : Keeps s (doIsoInjHost host t) := h.isoInj

theorem Keeps.doIsoInjSession {session : Fin 256} (h : Keeps s t) : Keeps s (doIsoInjSession session t) := h.isoInj

/-! ### Ethernet ports (chapter 13) -/

theorem Keeps.ethRx {e n : Nat} (h : Keeps s t) : Keeps s (ethRx t e n) := h.pmc.pmc

theorem Keeps.ethTx {e n : Nat} (h : Keeps s t) : Keeps s (ethTx t e n) := h.pmc.pmc

theorem Keeps.doEthLinkUp {port : Fin 2} (h : Keeps s t) : Keeps s (doEthLinkUp port t) :=
  h.whenRunning fun _ h => .ite h.setBit.setBit h

theorem Keeps.doEthLinkDown {port : Fin 2} (h : Keeps s t) : Keeps s (doEthLinkDown port t) := h.whenRunning fun _ h => h.ethDown

theorem Keeps.ethFec {e : Nat} (h : Keeps s t) : Keeps s (ethFec t e) := h.ethEvent

theorem Keeps.ethDrop {e : Nat} (h : Keeps s t) : Keeps s (ethDrop t e) := h.incCnt

theorem Keeps.ethFrame {port : Fin 2} {r : EthRx} {f : State → State} (h : Keeps s t) (hf : ∀ u, Keeps s u → Keeps s (f u)) :
    Keeps s (ethFrame port r t f) :=
  h.whenRunning fun _ h1 => .ite h1 (.ite h1.ethRx.addCnt.ethFec.addCnt.ethDrop (.ite h1.ethRx.addCnt.ethDrop (hf _ h1.ethRx.addCnt)))

theorem Keeps.ethAnswer {e kind key addr : Nat} {words : List Nat} {r : EthRx} (h : Keeps s t) :
    Keeps s (ethAnswer t e kind key addr words r) :=
  .ite h.ethTx.send h.ethDrop

theorem Keeps.doArpRequest {port : Fin 2} {target : BitVec 32} {frame : EthRx} (h : Keeps s t) :
    Keeps s (doArpRequest port target frame t) :=
  h.ethFrame fun _ h => h.ethAnswer

theorem Keeps.doNeighborSolicitation {port : Fin 2} {target : BitVec 128} {frame : EthRx} (h : Keeps s t) :
    Keeps s (doNeighborSolicitation port target frame t) :=
  h.ethFrame fun _ h => h.ethAnswer

theorem Keeps.doIcmpEcho {port : Fin 2} {dst : BitVec 32} {ident seq : BitVec 16} {frame : EthRx} {payload : List (BitVec 8)}
    (h : Keeps s t) :
    Keeps s (doIcmpEcho port dst ident seq frame payload t) :=
  h.ethFrame fun _ h => h.ethAnswer

theorem Keeps.doIcmpv6Echo {port : Fin 2} {dst : BitVec 128} {ident seq : BitVec 16} {frame : EthRx} {payload : List (BitVec 8)}
    (h : Keeps s t) :
    Keeps s (doIcmpv6Echo port dst ident seq frame payload t) :=
  h.ethFrame fun _ h => h.ethAnswer

theorem Keeps.doPfcFrame {port : Fin 2} {prio : Fin 8} {pause : Bool} (h : Keeps s t) : Keeps s (doPfcFrame port prio pause t) :=
  h.ethFrame fun _ h => .ite h.frame (h.frame.forEach fun _ _ h => h.zctPut)

theorem Keeps.doOtherFrameDrop {port : Fin 2} {frame : EthRx} (h : Keeps s t) : Keeps s (doOtherFrameDrop port frame t) :=
  h.ethFrame fun _ h => h.ethDrop

theorem Keeps.ethInj {e kind : Nat} (h : Keeps s t) : Keeps s (ethInj t e kind) :=
  .ite h.armInj (.ite h.ethFec (.ite h.ethDown h))

theorem Keeps.doEthInjCrc {port : Fin 2} (h : Keeps s t) : Keeps s (doEthInjCrc port t) := h.whenRunning fun _ h => h.ethInj

theorem Keeps.doEthInjDrop {port : Fin 2} (h : Keeps s t) : Keeps s (doEthInjDrop port t) := h.whenRunning fun _ h => h.ethInj

theorem Keeps.doEthInjFec {port : Fin 2} (h : Keeps s t) : Keeps s (doEthInjFec port t) := h.whenRunning fun _ h => h.ethInj

theorem Keeps.doEthInjLinkDown {port : Fin 2} (h : Keeps s t) : Keeps s (doEthInjLinkDown port t) :=
  h.whenRunning fun _ h => h.ethInj

/-! ### The gouges (chapter 10) -/

theorem Keeps.doGnop {n : Fin 128} (h : Keeps s t) : Keeps s (doGnop n t) := gougeKind_keeps.insn h fun _ _ _ h => h

theorem Keeps.doGli {n : Fin 128} {gd : BitVec 4} {imm : BitVec 16} (h : Keeps s t) : Keeps s (doGli n gd imm t) :=
  gougeKind_keeps.cOp h

theorem Keeps.doGlui {n : Fin 128} {gd : BitVec 4} {imm : BitVec 16} (h : Keeps s t) : Keeps s (doGlui n gd imm t) :=
  gougeKind_keeps.cOp h

theorem Keeps.doGadd {n : Fin 128} {gd ga gb : BitVec 4} (h : Keeps s t) : Keeps s (doGadd n gd ga gb t) := gougeKind_keeps.cOp h

theorem Keeps.doGaddi {n : Fin 128} {gd ga : BitVec 4} {imm : BitVec 12} (h : Keeps s t) : Keeps s (doGaddi n gd ga imm t) :=
  gougeKind_keeps.cOp h

theorem Keeps.doGmul {n : Fin 128} {gd ga gb : BitVec 4} (h : Keeps s t) : Keeps s (doGmul n gd ga gb t) := gougeKind_keeps.cOp h

theorem Keeps.doGparam {n : Fin 128} {gd : BitVec 4} {p : BitVec 8} (h : Keeps s t) : Keeps s (doGparam n gd p t) :=
  gougeKind_keeps.cOp h

theorem Keeps.doGid {n : Fin 128} {gd k : BitVec 4} (h : Keeps s t) : Keeps s (doGid n gd k t) := gougeKind_keeps.cId h

theorem Keeps.doGwait {n : Fin 128} {ch gv gt : BitVec 4} {far : BitVec 64} (h : Keeps s t) : Keeps s (doGwait n ch gv gt far t) :=
  gougeKind_keeps.cWait h

theorem Keeps.doGwaitSatisfied {n : Fin 128} {far : BitVec 64} (h : Keeps s t) : Keeps s (doGwaitSatisfied n far t) :=
  gougeKind_keeps.cWaitEnd h

theorem Keeps.doGwaitTimeout {n : Fin 128} (h : Keeps s t) : Keeps s (doGwaitTimeout n t) := gougeKind_keeps.cWaitFail h

theorem Keeps.doGsig {n : Fin 128} {ga : BitVec 4} (h : Keeps s t) : Keeps s (doGsig n ga t) := gougeKind_keeps.cSig h

theorem Keeps.doGloop {n : Fin 128} {len1 n1 : BitVec 12} (h : Keeps s t) : Keeps s (doGloop n len1 n1 t) :=
  gougeKind_keeps.cLoop h

theorem Keeps.doGloopP {n : Fin 128} {len1 : BitVec 12} {p : BitVec 8} (h : Keeps s t) : Keeps s (doGloopP n len1 p t) :=
  gougeKind_keeps.cLoop h

theorem Keeps.doGend {n : Fin 128} (h : Keeps s t) : Keeps s (doGend n t) := gougeKind_keeps.cEnd h

theorem Keeps.setPos {n p : Nat} (h : Keeps s t) : Keeps s (setPos t n p) := h.regPut

theorem Keeps.kVals {k : Kernel} {a w m : Nat} {ext : Ext} (h : Keeps s t) : Start.Keeps s (kVals t k a w m ext) := by
  induction m generalizing t a with
  | zero => exact h
  | succ m ih =>
    refine h.kBytes.start fun _ _ h => ?_
    split
    next e => exact (ih h).ok e
    · exact ih h

theorem Keeps.doGrun {n : Fin 128} {ga : BitVec 4} {ext : List FarLine} (h : Keeps s t) : Keeps s (doGrun n ga ext t) := by
  unfold Machine.doGrun
  refine gougeKind_keeps.insn h fun _ _ _ h => ?_
  extract_lets
  split
  next e => exact h.kBytes.fault e
  next e => exact h.kBytes.wait e
  next e =>
    split
    · exact h.kBytes.ok e
    · refine .ite ?_ ?_
      · exact (h.kBytes.ok e).readDone.putCtx.setPos.regPut
      · split
        next e1 => exact (h.kBytes.ok e).kVals.fault e1
        next e1 => exact (h.kBytes.ok e).kVals.wait e1
        next e1 =>
          refine .ite ?_ ?_
          · exact ((h.kBytes.ok e).kVals.ok e1).readDone.putCtx.setPos.regPut
          · exact (h.kBytes.ok e).kVals.ok e1

theorem Keeps.batchStep {n st : Nat} {f : Ctx → Batch → Kernel → State → State} (h : Keeps s t)
    (hf : ∀ u x y z, Keeps s z → Keeps s (f u x y z)) :
    Keeps s (batchStep n st t f) := by
  unfold Machine.batchStep
  refine h.whenRunning fun _ h1 => ?_
  refine .ite h1 ?_
  split; exacts [hf _ _ _ _ h1, h1]

theorem Keeps.cutSeg {k : Kernel} {b : Batch} {rows lim : Nat} {ext : Ext} {fuel pos : Nat} {seen : List Nat} (h : Keeps s t) :
    Start.Keeps s (cutSeg t k b rows lim ext fuel pos seen) := by
  induction fuel generalizing t pos seen with
  | zero => exact h
  | succ fuel ih =>
    refine h.kBytes.start fun _ _ h => ?_
    extract_lets new
    refine .ite (by exact h) ?_
    split
    next e => exact (ih h).ok e
    · exact ih h

theorem Keeps.present {k : Kernel} {t' : GTab} {i : Nat} {ext : Machine.Ext} (h : Keeps s t) : Start.Keeps s (present t k t' i ext) := by
  unfold Machine.present
  refine .ite ?_ ?_
  · exact h
  · split
    · exact h
    · refine .ite (h.verBytes.start fun _ _ h => h) ?_
      extract_lets
      split
      · split <;> exact h
      · exact h.sendReq

theorem Keeps.validRows {k : Kernel} {g : GTab} {is : List Nat} {ext : Ext} (h : Keeps s t) : Start.Keeps s (validRows t k g is ext) := by
  induction is generalizing t with
  | nil => exact h
  | cons i is ih =>
    unfold Machine.validRows
    split
    next e => exact h.present.fault e
    next e => exact h.present.wait e
    next e =>
      split
      next e' => exact (ih (h.present.ok e)).ok e'
      · exact ih (h.present.ok e)

theorem Keeps.askRow {k : Kernel} {t' : GTab} {i : Nat} (h : Keeps s t) : Keeps s (askRow t k t' i) := by
  unfold Machine.askRow
  split; exacts [h, .ite h (h.forEach fun _ _ h => h.sendReq)]

theorem Keeps.askNext {n : Nat} (h : Keeps s t) : Keeps s (askNext t n) := by
  unfold Machine.askNext
  extract_lets
  split
  · extract_lets u1 _
    have h1 : Keeps s u1 := by unfold u1; split; exacts [h.askRow, h]
    exact h1.putCtx.frame
  · exact h

theorem Keeps.askRows {g : Nat} (h : Keeps s t) : Keeps s (askRows t g) := by
  unfold Machine.askRows
  refine h.forEach fun _ _ h => ?_
  split; exacts [h.askNext, h]

theorem Keeps.doSegmentStart {n : Fin 128} {ext : List FarLine} (h : Keeps s t) : Keeps s (doSegmentStart n ext t) := by
  unfold Machine.doSegmentStart
  refine h.batchStep fun _ _ _ _ h => ?_
  refine .ite h ?_
  split
  next e => exact h.cutSeg.wait e
  next e => exact (h.cutSeg.fault e).ctxFault
  next e =>
    have h := h.cutSeg.ok e
    split
    next e => exact h.validRows.wait e
    next e => exact (h.validRows.fault e).ctxFault
    next e =>
      have h := h.validRows.ok e
      split
      next e => exact (h.takeInjUnless.getSnd e).ctxFault
      · exact .askRows (.setPos (.putCtx (.addCnt (.readDone (.pmc (.pmc (.pmc (.ite h h.incCnt))))))))

theorem Keeps.doRowLanded {n : Fin 128} {slot : BitVec 16} {far : List (BitVec 512)} {poison : Bool} (h : Keeps s t) :
    Keeps s (doRowLanded n slot far poison t) := by
  unfold Machine.doRowLanded
  refine h.batchStep fun _ _ _ _ h => ?_
  extract_lets
  split
  · refine .ite h ?_
    split
    · exact h
    · extract_lets
      split
      · exact h
      · extract_lets
        split
        next e => exact (h.takeInj.getSnd e).ctxFault
        · refine .ite ?_ (.ite h.ctxFault h.readDone.pmc.pmc.putCtx.askRows)
          split
          next e => exact (h.verBytes.ok e).readDone.pmc.pmc.putCtx.askRows
          next e => exact h.verBytes.wait e
          next e => exact (h.verBytes.fault e).ctxFault
  · exact h

theorem Keeps.passB {k : Kernel} {g : GTab} {b : Batch} {ps : List (Nat × Nat)} {last fuel : Nat} (h : Keeps s t) :
    Start.Keeps s (passB t k g b ps last fuel) := by
  induction fuel generalizing t b with
  | zero => exact h
  | succ fuel ih =>
    unfold Machine.passB
    split
    · extract_lets
      split
      · exact h
      · split
        · exact h
        · split
          next e => exact ih (h.kOutLines.ok e)
          next e => exact h.kOutLines.fault e
          next e => exact h.kOutLines.wait e
    · exact h

theorem Keeps.doPassBStart {n : Fin 128} {ext : List FarLine} (h : Keeps s t) : Keeps s (doPassBStart n ext t) := by
  unfold Machine.doPassBStart
  refine h.batchStep fun _ _ _ _ h => ?_
  extract_lets
  split
  · exact h
  · refine .ite h ?_
    split
    next e => exact (h.takeInjUnless.getSnd e).ctxFault
    · split
      next e => exact h.kVals.wait e
      next e => exact (h.kVals.fault e).ctxFault
      next e =>
        have h := h.kVals.ok e
        split
        next e => exact Start.Keeps.wait (.ite h.kVals (by exact h)) e
        next e => exact (Start.Keeps.fault (.ite h.kVals (by exact h)) e).ctxFault
        next e =>
          have h := Start.Keeps.ok (.ite h.kVals (by exact h)) e
          extract_lets
          split
          next e => exact h.passB.wait e
          next e => exact (h.passB.fault e).ctxFault
          next e => exact (h.passB.ok e).readDone.pmc.putCtx.setPos.regPut

theorem Keeps.doBatchComplete {n : Fin 128} (h : Keeps s t) : Keeps s (doBatchComplete n t) := by
  unfold Machine.doBatchComplete
  refine h.batchStep fun _ b _ u h => ?_
  split
  next e => exact Start.Keeps.wait (.ite (by exact h) (.ite (by exact h) h.kOutLines)) e
  next e => exact (Start.Keeps.fault (.ite (by exact h) (.ite (by exact h) h.kOutLines)) e).ctxFault
  next e =>
    have h := Start.Keeps.ok (s := s) (.ite (by exact h) (.ite (by exact h) h.kOutLines)) e
    exact .ite h.putCtx (gougeKind_keeps.ctxAdvance h.regPut.pmc)

theorem Keeps.doContextWatchdog {n : Fin 128} (h : Keeps s t) : Keeps s (doContextWatchdog n t) :=
  h.whenRunning fun _ h => gougeKind_keeps.engWatchdog h

theorem Keeps.doGougeInjClear {g : Fin 16} (h : Keeps s t) : Keeps s (doGougeInjClear g t) := h.whenRunning fun _ h => h.clearInj

theorem Keeps.doGougeInjTableUe {g : Fin 16} (h : Keeps s t) : Keeps s (doGougeInjTableUe g t) :=
  h.whenRunning fun _ h => h.armInj

theorem Keeps.doGougeInjWatchdog {g : Fin 16} (h : Keeps s t) : Keeps s (doGougeInjWatchdog g t) :=
  h.whenRunning fun _ h => h.armInj

theorem Keeps.doGougeInjGwait {g : Fin 16} (h : Keeps s t) : Keeps s (doGougeInjGwait g t) := h.whenRunning fun _ h => h.armInj

theorem Keeps.doGougeInjPoison {g : Fin 16} (h : Keeps s t) : Keeps s (doGougeInjPoison g t) := h.whenRunning fun _ h => h.armInj

theorem Keeps.doGougeInjStop {g : Fin 16} {persist : Bool} (h : Keeps s t) : Keeps s (doGougeInjStop g persist t) :=
  h.whenRunning fun _ h => h.armInj

/-! ### Slots of the Lathe (chapter 06) -/

theorem Keeps.stage {l : Nat} {w : Stage} (h : Keeps s t) : Keeps s (stage t l w) := h.putLathe

theorem Keeps.noteBundle {l pc : Nat} {x : Lathe} (h : Keeps s t) : Keeps s (noteBundle t l pc x) := by
  unfold Machine.noteBundle
  extract_lets k dom y u
  have h : Keeps s u := h.putLathe.pmc
  clear_value u dom k
  split
  next e =>
    have h := h.tagAdvance.snd e
    split
    · exact h
    · refine .ite h ?_
      split
      next e => exact .ite (h.drawFrees.snd e).putLathe (h.drawFrees.snd e).tagPush

theorem Keeps.tagEnded {l n dom : Nat} (h : Keeps s t) : Keeps s (tagEnded t l n dom) := h.putLathe.forEach fun _ _ h => h.tagPush

theorem Keeps.endBundle {l no : Nat} (h : Keeps s t) : Keeps s (endBundle t l no) := by
  unfold Machine.endBundle
  refine .ite h.latheFault ?_
  extract_lets
  split
  · refine .ite h.latheFault ?_
    refine .ite ?_ h.putLathe.putLathe.regPut.noteBundle
    split
    exact h.putLathe.putLathe.regPut.noteBundle
  · refine .ite (.ite h.latheFault h.putLathe.putLathe.regPut.noteBundle.setLatheState) ?_
    split
    exact h.putLathe.putLathe.regPut.noteBundle

theorem Keeps.slot {l : Fin 128} {no : Nat} {reads last : Bool} {f : Lathe → State → Slot} (h : Keeps s t)
    (hf : ∀ x u, Keeps s u → Slot.Keeps s (f x u)) :
    Keeps s (slot l no reads last t f) := by
  refine h.whenRunning fun u h => .ite h (.ite h.putLathe ?_)
  split
  next e => exact (h.takeInjUnless.getSnd e).putLathe
  next e => exact (h.takeInjUnless.getSnd e).latheFault
  · split
    next e => exact (h.takeInjWhen.getSnd e).latheFault
    · split
      · exact h.putLathe
      next e => exact ((hf _ _ h).fault e).latheFault
      next e => exact .ite ((hf _ _ h).ok e).putLathe.endBundle ((hf _ _ h).ok e).putLathe

theorem Keeps.chuckRead {k : Kernel} {c x n : Nat} (h : Keeps s t) : KAcc.Keeps s (chuckRead t k c x n) := by
  induction n generalizing t x with
  | zero => exact h
  | succ n ih =>
    unfold Machine.chuckRead
    split
    next e =>
      split
      next e' => exact (ih (h.kReadChuck.ok e)).ok e'
      next e' => exact (ih (h.kReadChuck.ok e)).fault e'
      next e' => exact (ih (h.kReadChuck.ok e)).wait e'
    next e => exact h.kReadChuck.fault e
    next e => exact h.kReadChuck.wait e

theorem Keeps.chuckWrite {k : Kernel} {c x : Nat} {ds : List LineData} (h : Keeps s t) : KAcc.Keeps s (chuckWrite t k c x ds) := by
  induction ds generalizing t x with
  | nil => exact h
  | cons d ds ih =>
    unfold Machine.chuckWrite
    split
    next e => exact ih (h.kWriteChuck.ok e)
    next e => exact h.kWriteChuck.fault e
    next e => exact h.kWriteChuck.wait e

theorem KAcc.Keeps.slot {α : Type} {a : KAcc α} {ga : Nat} {f : α → State → Slot} (ha : KAcc.Keeps s a)
    (hf : ∀ u x, Machine.Keeps s x → Slot.Keeps s (f u x)) :
    Slot.Keeps s (KAcc.slot a ga f) := by
  unfold Machine.KAcc.slot
  split; exacts [hf _ _ ha, ha, trivial]

/-! ### Events of the Lathe (chapter 06) -/

theorem Keeps.runSlots {l dom : Nat} (h : Keeps s t) : Keeps s (runSlots t l dom) := h.pmcEnd.pmcEnd.pmcEnd.pmcEnd.pmcEnd

theorem Keeps.doLatheDone {l : Fin 128} (h : Keeps s t) : Keeps s (doLatheDone l t) := by
  unfold Machine.doLatheDone
  refine h.whenRunning fun _ h => ?_
  refine .ite h ?_
  split; exacts [h, h.putKernel.runSlots.setLatheState]

theorem Keeps.doLatheWatchdog {l : Fin 128} (h : Keeps s t) : Keeps s (doLatheWatchdog l t) :=
  h.whenRunning fun _ h => .ite h.regSet.latheFault h

theorem Keeps.doLatheInjClear {l : Fin 128} (h : Keeps s t) : Keeps s (doLatheInjClear l t) := h.whenRunning fun _ h => h.clearInj

theorem Keeps.doLatheInjChuckCe {l : Fin 128} (h : Keeps s t) : Keeps s (doLatheInjChuckCe l t) :=
  h.whenRunning fun _ h => h.armInj

theorem Keeps.doLatheInjChuckUe {l : Fin 128} (h : Keeps s t) : Keeps s (doLatheInjChuckUe l t) :=
  h.whenRunning fun _ h => h.armInj

theorem Keeps.doLatheInjParity {l : Fin 128} (h : Keeps s t) : Keeps s (doLatheInjParity l t) := h.whenRunning fun _ h => h.armInj

theorem Keeps.doLatheInjWatchdog {l : Fin 128} (h : Keeps s t) : Keeps s (doLatheInjWatchdog l t) :=
  h.whenRunning fun _ h => .ite h.latheFault h.armInj

theorem Keeps.doLatheInjCwaitFail {l : Fin 128} (h : Keeps s t) : Keeps s (doLatheInjCwaitFail l t) :=
  h.whenRunning fun _ h => h.armInj

theorem Keeps.doLatheInjStop {l : Fin 128} {persist : Bool} (h : Keeps s t) : Keeps s (doLatheInjStop l persist t) :=
  h.whenRunning fun _ h => h.armInj

theorem Keeps.doLdrInjDigest (h : Keeps s t) : Keeps s (doLdrInjDigest t) := h.whenRunning fun _ h => h.armInj

theorem Keeps.doLdrInjAfter (h : Keeps s t) : Keeps s (doLdrInjAfter t) := h.whenRunning fun _ h => h.armInj

theorem Keeps.doLdrInjBadlen {w : Fin 1024} (h : Keeps s t) : Keeps s (doLdrInjBadlen w t) := h.whenRunning fun _ h => h.armInj

/-! ### Performance counters (chapter 17) -/

theorem Keeps.pmuFreeze (h : Keeps s t) : Keeps s (pmuFreeze t) := h.setBit.setBit

theorem Keeps.pmuUnfreeze (h : Keeps s t) : Keeps s (pmuUnfreeze t) := h.clrBit.clrBit.frame.forEach fun _ _ h => h.pmcAdd

theorem Keeps.pmuSnap (h : Keeps s t) : Keeps s (pmuSnap t) := by
  unfold Machine.pmuSnap
  split
  · exact h
  · exact .setBit ⟨h.pending, fun hs => have ⟨hm, hr, hc⟩ := h.canonical hs; ⟨hm, regsCanon_snapshot hr, hc⟩⟩

theorem Keeps.doPmuFreeze (h : Keeps s t) : Keeps s (doPmuFreeze t) := h.whenRunning fun _ h => h.pmuFreeze

theorem Keeps.doPmuUnfreeze (h : Keeps s t) : Keeps s (doPmuUnfreeze t) := h.whenRunning fun _ h => h.pmuUnfreeze

theorem Keeps.doPmuSnap (h : Keeps s t) : Keeps s (doPmuSnap t) := h.whenRunning fun _ h => h.pmuSnap

theorem Keeps.doSnapDone (h : Keeps s t) : Keeps s (doSnapDone t) := h.whenRunning fun _ h => .ite h.regAdd.clrBit h

theorem Keeps.pmcWrite {off : Nat} {v : Word} (h : Keeps s t) : Keeps s (pmcWrite t off v) := .ite h.regPut h

theorem Keeps.doPmcCntWrite {block : Fin 207} {i : Fin 16} {v : BitVec 64} (h : Keeps s t) : Keeps s (doPmcCntWrite block i v t) :=
  h.whenRunning fun _ h => h.pmcWrite

theorem Keeps.ringAck {st n : Nat} (h : Keeps s t) : Keeps s (ringAck t st n) := .ite h.regPut.regPut.regPut h.regPut.regPut

theorem Keeps.doTagAck {n : BitVec 13} (h : Keeps s t) : Keeps s (doTagAck n t) := h.whenRunning fun _ h => h.ringAck

theorem Keeps.doMirAck {n : BitVec 13} (h : Keeps s t) : Keeps s (doMirAck n t) := h.whenRunning fun _ h => h.ringAck

/-! ### The walkers (chapter 11) -/

theorem Keeps.doKnop {n : Fin 4096} (h : Keeps s t) : Keeps s (doKnop n t) := kiteKind_keeps.insn h fun _ _ _ h => h

theorem Keeps.doKli {n : Fin 4096} {kd : BitVec 4} {imm : BitVec 16} (h : Keeps s t) : Keeps s (doKli n kd imm t) :=
  kiteKind_keeps.cOp h

theorem Keeps.doKlui {n : Fin 4096} {kd : BitVec 4} {imm : BitVec 16} (h : Keeps s t) : Keeps s (doKlui n kd imm t) :=
  kiteKind_keeps.cOp h

theorem Keeps.doKadd {n : Fin 4096} {kd ka kb : BitVec 4} (h : Keeps s t) : Keeps s (doKadd n kd ka kb t) := kiteKind_keeps.cOp h

theorem Keeps.doKaddi {n : Fin 4096} {kd ka : BitVec 4} {imm : BitVec 12} (h : Keeps s t) : Keeps s (doKaddi n kd ka imm t) :=
  kiteKind_keeps.cOp h

theorem Keeps.doKmul {n : Fin 4096} {kd ka kb : BitVec 4} (h : Keeps s t) : Keeps s (doKmul n kd ka kb t) := kiteKind_keeps.cOp h

theorem Keeps.doKparam {n : Fin 4096} {kd : BitVec 4} {p : BitVec 8} (h : Keeps s t) : Keeps s (doKparam n kd p t) :=
  kiteKind_keeps.cOp h

theorem Keeps.doKid {n : Fin 4096} {kd k : BitVec 4} (h : Keeps s t) : Keeps s (doKid n kd k t) := kiteKind_keeps.cId h

theorem Keeps.doKwait {n : Fin 4096} {ch kv kt : BitVec 4} {far : BitVec 64} (h : Keeps s t) : Keeps s (doKwait n ch kv kt far t) :=
  kiteKind_keeps.cWait h

theorem Keeps.doKwaitSatisfied {n : Fin 4096} {far : BitVec 64} (h : Keeps s t) : Keeps s (doKwaitSatisfied n far t) :=
  kiteKind_keeps.cWaitEnd h

theorem Keeps.doKwaitTimeout {n : Fin 4096} (h : Keeps s t) : Keeps s (doKwaitTimeout n t) := kiteKind_keeps.cWaitFail h

theorem Keeps.doKsig {n : Fin 4096} {ka : BitVec 4} (h : Keeps s t) : Keeps s (doKsig n ka t) := kiteKind_keeps.cSig h

theorem Keeps.doKloop {n : Fin 4096} {len1 n1 : BitVec 12} (h : Keeps s t) : Keeps s (doKloop n len1 n1 t) :=
  kiteKind_keeps.cLoop h

theorem Keeps.doKloopP {n : Fin 4096} {len1 : BitVec 12} {p : BitVec 8} (h : Keeps s t) : Keeps s (doKloopP n len1 p t) :=
  kiteKind_keeps.cLoop h

theorem Keeps.doKend {n : Fin 4096} (h : Keeps s t) : Keeps s (doKend n t) := kiteKind_keeps.cEnd h

theorem Keeps.kiteAsk {n lines : Nat} (h : Keeps s t) : Keeps s (kiteAsk t n lines) := .ite h h.frame.putKite

theorem Keeps.doKwalk {n : Fin 4096} {ka : BitVec 4} {ext : List FarLine} (h : Keeps s t) : Keeps s (doKwalk n ka ext t) := by
  unfold Machine.doKwalk
  refine kwalkKind_keeps.insn h fun _ _ _ h => ?_
  extract_lets _ u4
  have h4 : Keeps s u4 := .ite h h.kiteAsk
  refine .ite ?_ ?_
  · exact h4
  · split
    next e => exact h4.kBytes.fault e
    next e => exact h4.kBytes.wait e
    next e =>
      split
      · exact h4.kBytes.ok e
      · extract_lets _ u5
        have h5 : Keeps s u5 := (h4.kBytes.ok e).kiteAsk
        refine .ite ?_ ?_
        · exact h5
        · split
          next e1 => exact h5.kBytes.fault e1
          next e1 => exact h5.kBytes.wait e1
          next e1 => exact (h5.kBytes.ok e1).frame.readDone.putKite.regPut

theorem Keeps.nodeHead {k : Kernel} {x : KIdx} {i n : Nat} {ext : Machine.Ext} (h : Keeps s t) : KAcc.Keeps s (nodeHead t k x i n ext) :=
    by
  unfold Machine.nodeHead
  split
  next e => split <;> exact h.kBytes.ok e
  next e => exact h.kBytes.fault e
  next e => exact h.kBytes.wait e

theorem Keeps.evalNode {k : Kernel} {x : KIdx} {q : Query} {i : Nat} {ext : Machine.Ext} (h : Keeps s t) :
    KAcc.Keeps s (evalNode t k x q i ext) := by
  unfold Machine.evalNode
  refine .ite ?_ ?_
  · exact h
  · refine .ite ?_ ?_
    · exact h
    · split
      next e => exact h.nodeHead.fault e
      next e => exact h.nodeHead.wait e
      next e => exact h.nodeHead.ok e
      next e =>
        split
        next e1 => exact (h.nodeHead.ok e).kBytes.fault e1
        next e1 => exact (h.nodeHead.ok e).kBytes.wait e1
        next e1 => exact (h.nodeHead.ok e).kBytes.ok e1

theorem Keeps.evalSide {k : Kernel} {x : KIdx} {q : Query} {sq : Nat} {ext : Machine.Ext} (h : Keeps s t) :
    KAcc.Keeps s (evalSide t k x q sq ext) := by
  unfold Machine.evalSide
  extract_lets
  split
  next e => exact h.kBytes.fault e
  next e => exact h.kBytes.wait e
  next e => exact h.kBytes.ok e

theorem Keeps.expandNode {k : Kernel} {x : KIdx} {q : Query} {i : Nat} {wide : Bool} {ext : Machine.Ext} (h : Keeps s t) :
    KAcc.Keeps s (expandNode t k x q i wide ext) := by
  unfold Machine.expandNode
  split
  next e => exact h.nodeHead.fault e
  next e => exact h.nodeHead.wait e
  next e => exact h.nodeHead.ok e
  next e => exact h.nodeHead.ok e

theorem Keeps.walkStep {k : Kernel} {x : KIdx} {q : Query} {ext : Machine.Ext} (h : Keeps s t) : KAcc.Keeps s (walkStep t k x q ext) := by
  unfold Machine.walkStep
  split
  · refine .ite ?_ ?_
    · exact h
    · split
      next e => exact h.evalNode.ok e
      · exact h.evalNode
  · split
    next e => exact h.evalSide.ok e
    · exact h.evalSide
  · split
    · split
      next e => exact h.expandNode.ok e
      · exact h.expandNode
    · exact h

theorem Keeps.queryStep {n : Nat} {f : Ctx → Query → KIdx → Kernel → State → State} (h : Keeps s t)
    (hf : ∀ u x y z w, Keeps s w → Keeps s (f u x y z w)) :
    Keeps s (queryStep n t f) := by
  unfold Machine.queryStep
  refine h.whenRunning fun _ h1 => ?_
  refine .ite h1 ?_
  split
  · split; exacts [hf _ _ _ _ _ h1, h1]
  · exact h1

theorem Keeps.noteStep {n : Nat} {k : Kernel} {c : Ctx} {st : Nat × Nat × Nat × Nat × Nat} (h : Keeps s t) :
    Keeps s (noteStep t n k c st) := by
  unfold Machine.noteStep
  split
  · refine .ite h.pmc ?_
    extract_lets
    split
    next e =>
      refine .ite (h.pmc.pmc.pmc.putKite.tagAdvance.snd e) ?_
      split
      next e1 => exact ((h.pmc.pmc.pmc.putKite.tagAdvance.snd e).drawFrees.snd e1).tagPush

theorem Keeps.doKiteReadReturn {n : Fin 4096} {ext : List FarLine} (h : Keeps s t) : Keeps s (doKiteReadReturn n ext t) := by
  unfold Machine.doKiteReadReturn
  refine h.queryStep fun _ _ _ _ _ h => ?_
  refine .ite h ?_
  split
  next e => exact (h.takeInj.getSnd e).kiteFault
  · extract_lets
    split
    next e => exact (h.takeInjWhen.getSnd e).kiteFault
    · split
      next e => exact (h.walkStep.wait e).kiteWorkCycle
      next e => exact (h.walkStep.fault e).kiteFault.kiteWorkCycle
      next e =>
        have h := h.walkStep.ok e
        exact .kiteCycle (.kiteWorkCycle (.regPut (.noteStep (.putKite (.frame (.readDone (.ite h h.addCnt)))))))

theorem Keeps.doQueryComplete {n : Fin 4096} (h : Keeps s t) : Keeps s (doQueryComplete n t) := by
  unfold Machine.doQueryComplete
  refine h.queryStep fun _ _ _ _ _ h => .ite h ?_
  split
  next e => exact Start.Keeps.wait (.ite (by exact h) h.kOutLines) e
  next e => exact (Start.Keeps.fault (.ite (by exact h) h.kOutLines) e).kiteFault
  next e =>
    have h := Start.Keeps.ok (s := s) (.ite (by exact h) h.kOutLines) e
    exact .ite h.putKite (kiteKind_keeps.ctxAdvance (.kiteCycle (.pmc (.ite h.incCnt h))))

theorem Keeps.doKiteWatchdog {n : Fin 4096} (h : Keeps s t) : Keeps s (doKiteWatchdog n t) :=
  h.whenRunning fun _ h => kiteKind_keeps.engWatchdog h

theorem Keeps.doWalkerInjClear {w : Fin 32} (h : Keeps s t) : Keeps s (doWalkerInjClear w t) :=
  h.whenRunning fun _ h => h.clearInj

theorem Keeps.doWalkerInjKmemUe {w : Fin 32} (h : Keeps s t) : Keeps s (doWalkerInjKmemUe w t) :=
  h.whenRunning fun _ h => h.armInj

theorem Keeps.doWalkerInjWatchdog {w : Fin 32} (h : Keeps s t) : Keeps s (doWalkerInjWatchdog w t) :=
  h.whenRunning fun _ h => h.armInj

theorem Keeps.doWalkerInjKwait {w : Fin 32} (h : Keeps s t) : Keeps s (doWalkerInjKwait w t) := h.whenRunning fun _ h => h.armInj

theorem Keeps.doWalkerInjPoison {w : Fin 32} (h : Keeps s t) : Keeps s (doWalkerInjPoison w t) :=
  h.whenRunning fun _ h => h.armInj

theorem Keeps.doWalkerInjStop {w : Fin 32} {persist : Bool} (h : Keeps s t) : Keeps s (doWalkerInjStop w persist t) :=
  h.whenRunning fun _ h => h.armInj

/-! ### The control window -/

theorem Keeps.writeLatheInj {l kind : Nat} {persist : Bool} (h : Keeps s t) : Keeps s (writeLatheInj t l kind persist) := by
  unfold Machine.writeLatheInj
  extract_lets
  split
  · exact h.doLatheInjClear
  · exact h.doLatheInjChuckCe
  · exact h.doLatheInjChuckUe
  · exact h.doLatheInjParity
  · exact h.doLatheInjWatchdog
  · exact h.doLatheInjCwaitFail
  · exact h.doLatheInjStop
  · exact h

theorem Keeps.writeGougeInj {g kind : Nat} {persist : Bool} (h : Keeps s t) : Keeps s (writeGougeInj t g kind persist) := by
  unfold Machine.writeGougeInj
  extract_lets
  split
  · exact h.doGougeInjClear
  · exact h.doGougeInjTableUe
  · exact h.doGougeInjWatchdog
  · exact h.doGougeInjGwait
  · exact h.doGougeInjPoison
  · exact h.doGougeInjStop
  · exact h

theorem Keeps.writeWalkerInj {w kind : Nat} {persist : Bool} (h : Keeps s t) : Keeps s (writeWalkerInj t w kind persist) := by
  unfold Machine.writeWalkerInj
  extract_lets
  split
  · exact h.doWalkerInjClear
  · exact h.doWalkerInjKmemUe
  · exact h.doWalkerInjWatchdog
  · exact h.doWalkerInjKwait
  · exact h.doWalkerInjPoison
  · exact h.doWalkerInjStop
  · exact h

theorem Keeps.writeFabInj {p kind lane : Nat} (h : Keeps s t) : Keeps s (writeFabInj t p kind lane) := by
  unfold Machine.writeFabInj
  extract_lets
  split
  · exact h.doFabInjCrc
  · exact h.doFabInjBadRx
  · exact h.doFabInjLaneFail
  · exact h.doFabInjRetrain
  · exact h.doFabInjDown
  · exact h

theorem Keeps.writeRecovInj {kind unit arg : Nat} (h : Keeps s t) : Keeps s (writeRecovInj t kind unit arg) := by
  unfold Machine.writeRecovInj
  split
  · exact h.doRecovInjCwAccess
  · exact h.doRecovInjReset
  · exact h.doRecovInjNested
  · exact h.doRecovInjRip
  · exact h.doRecovInjTetherSweep
  · exact h.doRecovInjAbort
  · exact h.doRecovInjCtrlUe
  · exact h

theorem Keeps.writeStkInj {h' kind : Nat} (h : Keeps s t) : Keeps s (writeStkInj t h' kind) := by
  unfold Machine.writeStkInj
  extract_lets
  split
  · exact h.doStkInjCe
  · exact h.doStkInjUe
  · exact h.doStkInjTrkUe
  · exact h.doStkInjCtrUe
  · exact h.doStkInjTrain
  · exact h

theorem Keeps.writeInj {off v : Nat} (h : Keeps s t) : KeepsOpt s (writeInj t off v) := by
  unfold Machine.writeInj
  extract_lets kind
  clear_value kind
  split
  · exact .some (.ite h.medInj h)
  · exact .some (.ite h.haInj h)
  · exact .some h.writeLatheInj
  · exact .some h.writeGougeInj
  · exact .some h.writeWalkerInj
  · exact .some h.writeFabInj
  · exact .some (h.whenRunning fun _ h => h.ethInj)
  · exact .some h.writeStkInj
  · refine .ite (.some ?_) (.ite (.some ?_) (.ite (.some ?_) (.ite (.some h.writeRecovInj) (.ite (.some (.ite h.bootInj h))
      (.ite (.some (.ite h.isoInj h)) (.ite (.some (.ite h.pwrInj (.ite h.doPwrInjTrip h))) .none))))))
    · split
      · exact h.doLdrInjDigest
      · exact h.doLdrInjAfter
      · exact h.doLdrInjBadlen
      · exact h
    · split
      · exact h.doSwInjCellUe
      · exact .ite h.doSwInjPortDown h
      · exact h.doSwInjMirrorDrop
      · exact h
    · split
      · exact h.doGwInjRemoteErr
      · exact h.doGwInjTimeout
      · exact h.doGwInjStageUe
      · exact h

theorem Keeps.plainWrite {off : Nat} {v : Word} (h : Keeps s t) : Keeps s (plainWrite t off v) := by
  unfold Machine.plainWrite
  split; exacts [h, h.regSet]

theorem Keeps.regWrite {d off : Nat} {v : Word} (h : Keeps s t) : Keeps s (regWrite t d off v) := by
  unfold Machine.regWrite
  refine .ite h ?_
  extract_lets
  split
  next e => exact h.touchUnit.writeInj.get e
  · split
    · exact h.touchUnit.doErrAck
    · refine .ite h.touchUnit.doOrphAck ?_
      refine .ite (.ite h.touchUnit.plainWrite.doDumpRelease h.touchUnit.plainWrite) ?_
      refine .ite (.ite h.touchUnit.regPut.doPwrReqRun (.ite h.touchUnit.regPut.doPwrReqStandby h.touchUnit.regPut)) ?_
      refine .ite h.touchUnit.doBallastCfgWrite ?_
      exact .ite (.ite (.pmuFreeze (.ite h.touchUnit.regPut.pmuSnap h.touchUnit.regPut)) (.pmuUnfreeze (.ite h.touchUnit.regPut.pmuSnap
        h.touchUnit.regPut))) (.ite h.touchUnit.plainWrite.frame (.ite h.touchUnit.mirrorWrite (.ite h.touchUnit.ringAck (.ite
        h.touchUnit.ringAck (.ite h.touchUnit.pmcWrite h.touchUnit.plainWrite)))))

theorem Keeps.ctlLine {x d : Nat} {data : LineData} (h : Keeps s t) : Keeps s (ctlLine t x d data) :=
  .ite h.ringPut (h.forEach fun _ _ h => .ite h.regWrite h)

theorem Keeps.ctlMasked {x d : Nat} {data : LineData} {mask : BitVec 64} (h : Keeps s t) : Keeps s (ctlMasked t x d data mask) :=
  h.forEach fun _ _ h => .ite h (.ite h.regWrite h.cwAccessErr)

/-! ### Commands of the homes (chapter 05) -/

theorem Keeps.hostGate {m : Master} {op : ReqOp} {addr : Nat} (h : Keeps s t) : Keeps s (hostGate t m op addr).2 := by
  unfold Machine.hostGate
  split
  · refine .iteSnd (.inSnd h) ?_
    refine .iteSnd (.inSnd h) ?_
    refine .iteSnd (.inSnd h.violate) ?_
    split
    next e => exact .inSnd (h.takeInj.getSnd e).violate
    · exact .inSnd h
  · exact .inSnd h

theorem Keeps.forwardReq {op : ReqOp} {src : Master} {txn c a : Nat} {d : LineData} {mask : Nat} (h : Keeps s t) :
    Keeps s (forwardReq t op src txn c a d mask) := by
  unfold Machine.forwardReq
  extract_lets
  split; exacts [h.send.fromAgent, h.sendReq, h.sendReq]

theorem Keeps.coherentReq {op : ReqOp} {src : Master} {txn : BitVec 12} {addr : BitVec 60} {data : LineData} (h : Keeps s t) :
    Keeps s (coherentReq op src txn addr data t) := by
  unfold Machine.coherentReq
  refine h.whenRunning fun _ h => ?_
  extract_lets
  split
  next e =>
    split
    · exact (h.hostGate.snd e).sendErr
    · refine .ite (h.hostGate.snd e).protoErr.sendErr ?_
      split
      · exact (h.hostGate.snd e).addrFault.sendErr
      · exact (h.hostGate.snd e).incCnt.sendErr
      · exact .ite (h.hostGate.snd e).forwardReq (h.hostGate.snd e).sendErr
      · split
        · exact .ite (h.hostGate.snd e).homeRequest (h.hostGate.snd e)
        · exact .ite (h.hostGate.snd e).homeRequest (h.hostGate.snd e)
        · exact (h.hostGate.snd e).addrFault.sendErr
        · exact (h.hostGate.snd e).incCnt.sendErr

theorem Keeps.doRds {src : Master} {txn : BitVec 12} {addr : BitVec 60} (h : Keeps s t) : Keeps s (doRds src txn addr t) :=
  h.coherentReq

theorem Keeps.doRde {src : Master} {txn : BitVec 12} {addr : BitVec 60} (h : Keeps s t) : Keeps s (doRde src txn addr t) :=
  h.coherentReq

theorem Keeps.doUpgr {src : Master} {txn : BitVec 12} {addr : BitVec 60} (h : Keeps s t) : Keeps s (doUpgr src txn addr t) :=
  h.coherentReq

theorem Keeps.doWrback {src : Master} {txn : BitVec 12} {addr : BitVec 60} {data : LineData} (h : Keeps s t) :
    Keeps s (doWrback src txn addr data t) :=
  h.coherentReq

theorem Keeps.doEvict {src : Master} {txn : BitVec 12} {addr : BitVec 60} (h : Keeps s t) : Keeps s (doEvict src txn addr t) :=
  h.coherentReq

theorem Keeps.lateRsp {off : Nat} (h : Keeps s t) : Keeps s (lateRsp t off) := h.haEvent

theorem Keeps.snoopAnswer {n : Nat} {txn : BitVec 12} {addr : BitVec 60} {upd : LState → BitVec 64 → Txn → Txn}
    {after : LState → BitVec 64 → Txn → State → State} (h : Keeps s t) (hafter : ∀ u x y z, Keeps s z → Keeps s (after u x y z)) :
    Keeps s (snoopAnswer n txn addr t upd after) := by
  unfold Machine.snoopAnswer
  refine h.whenRunning fun _ h1 => ?_
  refine .ite h1.lateRsp ?_
  split
  next e => exact h1.takeInj.getSnd e
  · split
    · exact h1
    · split
      exact .settleAll (hafter _ _ _ _ h1.frame)

theorem Keeps.doInvack {host : Fin 64} {txn : BitVec 12} {addr : BitVec 60} (h : Keeps s t) : Keeps s (doInvack host txn addr t) :=
  h.snoopAnswer fun _ _ _ _ h => .ite h.protoErr h

theorem Keeps.doSnprspdata {host : Fin 64} {txn : BitVec 12} {addr : BitVec 60} {dirty : Bool} {data : LineData} (h : Keeps s t) :
    Keeps s (doSnprspdata host txn addr dirty data t) :=
  h.snoopAnswer fun _ _ _ _ h => h

theorem Keeps.doCmpack {host : Fin 64} {txn : BitVec 12} {addr : BitVec 60} (h : Keeps s t) : Keeps s (doCmpack host txn addr t) := by
  unfold Machine.doCmpack
  refine h.whenRunning fun _ h => ?_
  refine .ite h.lateRsp ?_
  split
  next e => exact h.takeInj.getSnd e
  · refine .ite h.protoErr ?_
    split; exacts [h, h.frame.settleAll]

theorem Keeps.wrData {src : Master} {txn : BitVec 12} {mask : BitVec 64} {data : LineData} {off : Nat} (h : Keeps s t) :
    Keeps s (doWrdata.wrData src txn mask data off t) := by
  unfold Machine.doWrdata.wrData
  split
  · exact h.incCnt.sendErr
  · exact .ite h.frame.addrFault.sendErr.settleAll h.frame.serve.settleAll

theorem Keeps.doWrdata {src : Master} {txn : BitVec 12} {addr : BitVec 60} {mask : BitVec 64} {data : LineData} (h : Keeps s t) :
    Keeps s (doWrdata src txn addr mask data t) := by
  unfold Machine.doWrdata
  refine h.whenRunning fun _ h => ?_
  extract_lets
  split
  · exact .ite h.lateRsp h.wrData
  · exact h.wrData

theorem Keeps.doUnknownOpcodeMessage {home : Fin 8} {opcode : BitVec 6} (h : Keeps s t) : Keeps s (doUnknownOpcodeMessage home opcode t) :=
  h.whenRunning fun _ h => h.haEvent

theorem Keeps.doDeferActivate {home : Fin 8} (h : Keeps s t) : Keeps s (doDeferActivate home t) := by
  unfold Machine.doDeferActivate
  refine h.whenRunning fun _ h => ?_
  split; exacts [h, h.activate]

theorem Keeps.doHomeTimeout {home : Fin 8} {host : Fin 64} {addr : BitVec 60} (h : Keeps s t) : Keeps s (doHomeTimeout home host addr t) :=
  h.whenRunning fun _ h => .ite h.fenceHost.settleAll h

/-! ### Accesses of every master (chapter 04) -/

theorem Keeps.dropCleanReels {box : Nat} (h : Keeps s t) : Keeps s (dropCleanReels t box) := h.pmc.forEach fun _ _ h => h.freeReel

theorem Keeps.countedFrom {sender : Nat} (h : Keeps s t) : Keeps s (countedFrom t sender) := .ite h h.dropCleanReels

theorem Keeps.refuseLine {a : Nat} {r : Req} {e : Nat} (h : Keeps s t) : Keeps s (refuseLine t a r e) := h.gwReply

theorem Keeps.chuckWindowAccess {a l x sender : Nat} {r : Req} (h : Keeps s t) : Keeps s (chuckWindowAccess t a l x sender r) := by
  unfold Machine.chuckWindowAccess
  refine .ite ?_ ?_
  · refine .ite h.violate.refuseLine ?_
    split
    next e => exact .gwReply (.ite (h.chuckErrors.snd e).logErr (h.chuckErrors.snd e))
  · refine .ite h.violate.refuseLine ?_
    refine .ite h.violate.refuseLine ?_
    split
    · exact .ite h.logErr.refuseLine h.countedFrom.countedWrite.gwReply
    · exact .ite h.violate.refuseLine h.putScratch.gwReply

theorem Keeps.windowAccess {a w x sender : Nat} {r : Req} (h : Keeps s t) : Keeps s (windowAccess t a w x sender r) := by
  unfold Machine.windowAccess
  refine .ite h.violate.refuseLine ?_
  refine .ite h.gwReply ?_
  refine .ite h.logErr.refuseLine ?_
  split
  next e => exact (h.countedFrom.windowWrite.snd e).refuseLine
  next e => exact (h.countedFrom.windowWrite.snd e).gwReply

theorem Keeps.counterAccess {a k : Nat} {r : Req} (h : Keeps s t) : Keeps s (counterAccess t a k r) :=
  .ite h.violate.refuseLine h.gwReply

theorem Keeps.controlAccess {a x : Nat} {r : Req} (h : Keeps s t) : Keeps s (controlAccess t a x r) := by
  unfold Machine.controlAccess
  refine .ite h.violate.refuseLine ?_
  split
  · exact h.touchUnit.gwReply
  · exact h.ctlLine.gwReply
  · exact .ite (.ite h.ctlLine.gwReply h.logErr.refuseLine) h.ctlMasked.gwReply

theorem Keeps.ownAccess {a off sender : Nat} {r : Req} (h : Keeps s t) : Keeps s (ownAccess t a off sender r) := by
  unfold Machine.ownAccess
  split
  · exact .ite h.homeRequest h
  · exact .ite h.homeRequest h
  · exact h.chuckWindowAccess
  · exact h.windowAccess
  · exact h.counterAccess
  · exact h.controlAccess
  · exact h.addrFault.refuseLine

theorem Keeps.lineAccess {op : ReqOp} {src : Master} {txn : BitVec 12} {addr : Nat} {data : LineData} {mask : BitVec 64} {sender : Nat}
    (h : Keeps s t) :
    Keeps s (lineAccess op src txn addr data mask sender t) := by
  unfold Machine.lineAccess
  extract_lets
  split
  next e =>
    split
    · exact (h.hostGate.snd e).sendErr
    · split
      · exact (h.hostGate.snd e).addrFault.sendErr
      · exact .ite (h.hostGate.snd e).forwardReq (h.hostGate.snd e).gwReply
      · exact (h.hostGate.snd e).gwAccess
      · exact (h.hostGate.snd e).ownAccess

theorem Keeps.doRdnc {src : Master} {txn : BitVec 12} {addr : BitVec 60} (h : Keeps s t) : Keeps s (doRdnc src txn addr t) :=
  h.whenRunning fun _ h => h.lineAccess

theorem Keeps.doWrnc {src : Master} {txn : BitVec 12} {addr : BitVec 60} {mask : BitVec 64} {data : LineData} {sender : BitVec 10}
    (h : Keeps s t) :
    Keeps s (doWrnc src txn addr mask data sender t) :=
  h.whenRunning fun _ h => h.lineAccess

theorem Keeps.doWrline {src : Master} {txn : BitVec 12} {addr : BitVec 60} {data : LineData} {sender : BitVec 10} (h : Keeps s t) :
    Keeps s (doWrline src txn addr data sender t) :=
  h.whenRunning fun _ h => h.lineAccess

theorem Keeps.doRegisterWrite {off : BitVec 28} {width : BitVec 8} {v : BitVec 64} (h : Keeps s t) :
    Keeps s (doRegisterWrite off width v t) :=
  .ite h (.ite h.regWrite h.cwAccessErr)

/-! ### Composition operations (chapter 15) -/

theorem Keeps.compCheck : CompRes.Keeps s (compCheck) := trivial

theorem Keeps.reserveFrames {old new : Nat} (h : Keeps s t) : KeepsOpt s (reserveFrames t old new) :=
  .ite h.takeFrames (.some h.frame)

theorem Keeps.quotaFlags {d : Nat} (h : Keeps s t) : Keeps s (quotaFlags t d) :=
  .quotaClear (.ite (.setBit (.ite (.setBit (.ite h.setBit h)) (.ite h.setBit h))) (.ite (.setBit (.ite h.setBit h)) (.ite h.setBit h)))

theorem Keeps.rebind {p : Nat} {old : Word} (h : Keeps s t) : Keeps s (rebind t p old) :=
  .ite h (.ite h.portDown.putLink.fabStart.askStop h.portDown.putLink.fabStart.askStart)

theorem Keeps.resession {n : Nat} {was : Bool} (h : Keeps s t) : Keeps s (resession t n was) := .ite h h.frame.regSet

theorem Keeps.setOne {off : Nat} {v : BitVec 64} (h : Keeps s t) : KeepsOpt s (setOne t off v) := by
  unfold Machine.setOne
  split
  · exact .none
  · refine .ite (h.reserveFrames.map fun _ h => h.regSet) ?_
    refine .ite (.some h.regSet.quotaFlags) ?_
    refine .ite (h.reserveFrames.map fun _ h => h.regSet) ?_
    refine .ite (.ite .none (.ite (.some (h.regSet.forEach fun _ _ h => h.storeEvict)) (.some h.regSet))) ?_
    exact .ite (.ite .none (.some h.regSet)) (.ite (.ite .none (.some h.regSet)) (.ite (.ite (.some h.regSet.rebind) .none) (.ite (.some
      h.regSet.resession) (.ite (.ite (.some h.regSet) .none) (.some h.regSet)))))

theorem Keeps.setPairs {ps : List (BitVec 64 × BitVec 64)} (h : Keeps s t) : KeepsOpt s (setPairs t ps) := by
  induction ps generalizing t with
  | nil => exact .some h
  | cons p ps ih =>
    unfold Machine.setPairs
    split
    · exact .none
    next e => exact ih (h.setOne.get e)

theorem Keeps.setEth {e : EthAddr} (h : Keeps s t) : Keeps s (setEth t e) := h.frame.setBit

theorem Keeps.opRegSet {c : CompSt} {ps : List (BitVec 64 × BitVec 64)} {eth : List EthAddr} (hc : Keeps s c.s) :
    CompRes.Keeps s (opRegSet c ps eth) := by
  unfold Machine.opRegSet
  refine .ite trivial ?_
  split
  · trivial
  next u e =>
    have hset : Keeps s (Machine.forEach eth u Machine.setEth) := (hc.setPairs.get e).forEach fun _ _ h => h.setEth
    cases budgetsOk u with
    | true => exact hset
    | false => trivial

theorem Keeps.putEntry {r : Nat} {e : LineData} (h : Keeps s t) : Keeps s (putEntry t r e) := h.regSetList

theorem Keeps.moveFrames {d : Nat} {old new : Nat × Nat} (h : Keeps s t) : Alloc.Keeps s (moveFrames t d old new) := by
  unfold Machine.moveFrames
  refine .ite trivial ?_
  split
  · trivial
  next e =>
    have hmoved : KeepsOpt s (if old.1 < new.1 then Machine.takeFrames t (new.1 - old.1) else
        some { t with dirtyFrames := t.dirtyFrames + (old.1 - new.1) }) := .ite h.takeFrames (.some h.frame)
    have h := hmoved.get e
    refine .ite trivial ?_
    exact Keeps.ite h.chargeFrames (.ite h.unchargeFrames h)

theorem Keeps.dropTail {r lo : Nat} (h : Keeps s t) : Keeps s (dropTail t r lo) := by
  unfold Machine.dropTail
  extract_lets _ _ _ _ _ _ _ u3 _ _ _
  have h3 : Keeps s u3 := .ite (h.dropCached.poolDrop.forEach fun _ _ h => h.zeroMem) h.dropCached.poolDrop.zeroMem
  exact .ite h3.dropRecords.frame.dropMeta h3.dropRecords.frame.dropMeta.setMedUse

theorem Keeps.dropRebuilt {r : Nat} (h : Keeps s t) : Keeps s (dropRebuilt t r) :=
  .ite h (.dropMeta (.frame (h.forEach fun _ _ h => h.zeroMem)))

theorem Keeps.attachRebuilt {r : Nat} (h : Keeps s t) : Keeps s (attachRebuilt t r) := by
  unfold Machine.attachRebuilt
  extract_lets
  split
  · exact h.frame
  · exact .quotaFlags (.ite h.frame.rgPut.rgPut.setMedUse.chargeFrames (h.frame.rgPut.rgPut.setMedUse.chargeFrames.takeFrames.getD
      h.frame.rgPut.rgPut.setMedUse.chargeFrames))

theorem Keeps.regionRecord {r : Nat} {ws : List Word} (h : Keeps s t) : Keeps s (regionRecord t r ws) := h.appendRecord

theorem Keeps.createRegion {c : CompSt} {r : Nat} {e : LineData} (hc : Keeps s c.s) : CompRes.Keeps s (createRegion c r e) := by
  unfold Machine.createRegion
  refine .ite trivial ?_
  extract_lets u2 _ _
  have h2 : Keeps s u2 := .ite hc.regSetList.putEntry hc.regSetList.putEntry.dropRebuilt
  split
  · exact trivial
  · exact trivial
  next e =>
    extract_lets u3 u4 _
    have h3 : Keeps s u3 := .ite (h2.moveFrames.ok e).attachRebuilt (h2.moveFrames.ok e)
    have h4 : Keeps s u4 := .ite h3.regionRecord h3
    exact .refreshReplica (.ite h4 h4.frame.coverCopy)

theorem Keeps.moveCover {t2 : State} {r : Nat} (_h : Keeps s t) (h2 : Keeps s t2) : Keeps s (moveCover t t2 r) :=
  .ite h2 (.ite (.forEach (.ite h2.frame.send h2.frame) fun _ _ h => .ite h.poolDrop h) h2.frame.frame.coverCopy)

theorem Keeps.changeRegion {c : CompSt} {r : Nat} {e : LineData} (hc : Keeps s c.s) : CompRes.Keeps s (changeRegion c r e) := by
  unfold Machine.changeRegion
  refine .ite trivial (.ite trivial (.ite trivial ?_))
  extract_lets v mine
  have hv : Keeps s v := .putEntry (.ite hc.dropTail hc)
  clear_value v
  split
  · trivial
  · trivial
  next e =>
    extract_lets u w x y z last
    have hu : Keeps s u := .ite (hv.moveFrames.ok e) (hv.moveFrames.ok e).dropCached
    have hx : Keeps s x := hc.moveCover hu.poolDrop
    have hy : Keeps s y := .ite hx hx.frame.refreshReplica
    have hlast : Keeps s last := .sweepVersions (.ite hy.regionRecord hy)
    exact .ite (by exact hlast) (by exact hlast)

theorem Keeps.deleteOne {c : CompSt} {r : Nat} (hc : Keeps s c.s) : CompRes.Keeps s (deleteOne c r) := by
  unfold Machine.deleteOne
  refine .ite ?_ ?_
  · exact hc.dropRebuilt
  · have h : Keeps s (if rgDurable c.s r then Machine.regionRecord c.s r [] else c.s) := .ite hc.regionRecord hc
    exact Keeps.ite h.rgPut h.deleteRegion

theorem Keeps.opRegionSet {c : CompSt} {index : BitVec 64} {e : LineData} (hc : Keeps s c.s) : CompRes.Keeps s (opRegionSet c index e) :=
  .ite trivial (.ite hc.deleteOne (.ite hc.changeRegion hc.createRegion))

theorem Keeps.opDomainSet {c : CompSt} {domain : BitVec 64} {e : BitVec 2048} (hc : Keeps s c.s) :
    CompRes.Keeps s (opDomainSet c domain e) :=
  .ite trivial hc.regSet.regSetList

theorem Keeps.opGroupSet {c : CompSt} {group : BitVec 64} {e : BitVec 2048} (hc : Keeps s c.s) :
    CompRes.Keeps s (opGroupSet c group e) := by
  unfold Machine.opGroupSet
  extract_lets
  split; exacts [trivial, hc.regSetList]

theorem Keeps.opHostRelease {c : CompSt} {host buf bytes : BitVec 64} (hc : Keeps s c.s) :
    CompRes.Keeps s (opHostRelease c host buf bytes) := by
  unfold Machine.opHostRelease
  extract_lets
  split
  · refine .ite trivial ?_
    split
    · exact trivial
    · split; exacts [trivial, hc.frame.setBit]
  · exact trivial

theorem Keeps.opLineRestore {c : CompSt} {first count region version offset : BitVec 64} (hc : Keeps s c.s) :
    CompRes.Keeps s (opLineRestore c first count region version offset) := by
  unfold Machine.opLineRestore
  extract_lets
  split; exacts [.ite trivial (.ite trivial (.ite trivial hc.frame)), trivial]

theorem Keeps.clearViol {d : Nat} (h : Keeps s t) : Keeps s (clearViol t d) := .ite h h.clrBit

theorem Keeps.opMasterRelease {c : CompSt} {kind number : BitVec 64} (hc : Keeps s c.s) :
    CompRes.Keeps s (opMasterRelease c kind number) := by
  unfold Machine.opMasterRelease
  refine .ite ?_ (.ite (.ite ?_ (by exact hc)) (.ite ?_ trivial))
  · split
    · exact hc.clrBit.clearViol
    · exact hc
  · exact Keeps.clearViol (.ite hc.clrBit.regPut hc.clrBit)
  · split
    · refine .ite ?_ (by exact hc)
      exact hc.resetContext.releaseKernel.clearViol
    · exact hc

theorem Keeps.opRecoverRelease {c : CompSt} {win : BitVec 64} (hc : Keeps s c.s) : CompRes.Keeps s (opRecoverRelease c win) := by
  unfold Machine.opRecoverRelease
  split; exacts [trivial, hc.releaseGuilty]

theorem Keeps.opUnitReturn {c : CompSt} {unit : BitVec 64} (hc : Keeps s c.s) : CompRes.Keeps s (opUnitReturn c unit) := by
  refine .ite trivial ?_
  exact Keeps.ite hc hc.markService

theorem Keeps.opRipRelease {c : CompSt} (hc : Keeps s c.s) : CompRes.Keeps s (opRipRelease c) := by
  unfold Machine.opRipRelease
  split; exacts [hc, trivial]

theorem Keeps.opKeyRevoke {c : CompSt} {signer : Nat} {slot : BitVec 64} (hc : Keeps s c.s) :
    CompRes.Keeps s (opKeyRevoke c signer slot) := by
  unfold Machine.opKeyRevoke
  extract_lets
  split; exacts [trivial, hc.setBit]

theorem Keeps.compOp {signer : Nat} {c : CompSt} {op : CompOp} (hc : Keeps s c.s) : CompRes.Keeps s (compOp signer c op) := by
  unfold Machine.compOp
  split
  · exact hc.opRegSet
  · exact hc.opRegionSet
  · exact hc.opDomainSet
  · exact hc.opGroupSet
  · exact hc.opHostRelease
  · exact hc.opLineRestore
  · exact hc.opMasterRelease
  · exact hc.opRecoverRelease
  · exact hc.opUnitReturn
  · exact hc.opRipRelease
  · exact hc.opKeyRevoke

theorem Keeps.compOps {signer i : Nat} {c d : CompSt} {ops : List CompOp} (hc : Keeps s c.s) (e : compOps signer c i ops = .inl d) :
    Keeps s d.s := by
  induction ops generalizing c i with
  | nil => exact Sum.inl.inj e ▸ hc
  | cons op ops ih =>
    unfold Machine.compOps at e
    split at e
    next e' => exact ih (hc.compOp.ok e') e
    · exact nomatch e

/-! ### Composition commands (chapter 15) -/

theorem Keeps.composeSigned {b : Nat} (h : Keeps s t) : Keeps s (composeSigned t b).2 := by
  unfold Machine.composeSigned
  refine .iteSnd (.inSnd h) ?_
  refine .iteSnd (.inSnd h) ?_
  refine .iteSnd (.inSnd h) ?_
  refine .iteSnd (.inSnd h) ?_
  split
  next e => exact .inSnd (h.takeInj.getSnd e)
  · exact .inSnd h

theorem Keeps.composeCheck {b : Nat} (h : Keeps s t) : Verdict.Keeps s (composeCheck t b).1 ∧ Keeps s (composeCheck t b).2 := by
  unfold Machine.composeCheck
  split
  · exact ⟨trivial, h⟩
  · split
    · exact ⟨trivial, h⟩
    · split
      next _ u e =>
        have h : Keeps s u := h.composeSigned.snd e
        split
        · refine ⟨trivial, ?_⟩
          dsimp only
          exact h.bootLog
        · extract_lets k q
          clear_value k q
          split
          · exact ⟨trivial, h⟩
          next e =>
            have hd := Keeps.compOps (c := { s := u }) h e
            exact ⟨Keeps.regSet hd, h⟩

theorem Keeps.composeAccept {c : CompSt} {win ref hseq seq : Nat} (hc : Keeps s c.s) : Keeps s (composeAccept c win ref hseq seq) := by
  unfold Machine.composeAccept
  extract_lets _ u2
  have h2 : Keeps s u2 := hc.frame.settleAll.cmpCheck
  exact .ite h2.wholeReset h2

theorem Keeps.doCompose {w : Fin 1024} (h : Keeps s t) : Keeps s (doCompose w t) := by
  unfold Machine.doCompose
  extract_lets
  split
  · exact h
  · split
    next e => exact .complete (.countRefusal (.snd h.composeCheck.2 e))
    next e => exact .composeAccept (Verdict.Keeps.accepted h.composeCheck.1 e)

theorem Keeps.runOp {signer : Nat} {op : CompOp} (h : Keeps s t) : Keeps s (runOp signer op t) := by
  unfold Machine.runOp
  refine .ite h ?_
  split
  next e => exact (h.compOp.ok e).composeAccept
  · exact h

theorem Keeps.doRegSet {pairs : List (BitVec 64 × BitVec 64)} {eth : List EthAddr} (h : Keeps s t) : Keeps s (doRegSet pairs eth t) :=
  h.runOp

theorem Keeps.doRegionSet {index : BitVec 64} {entry : LineData} (h : Keeps s t) : Keeps s (doRegionSet index entry t) := h.runOp

theorem Keeps.doRegionDelete {index : BitVec 64} (h : Keeps s t) : Keeps s (doRegionDelete index t) := h.runOp

theorem Keeps.doDomainSet {domain : BitVec 64} {entry : BitVec 2048} (h : Keeps s t) : Keeps s (doDomainSet domain entry t) :=
  h.runOp

theorem Keeps.doGroupSet {group : BitVec 64} {entry : BitVec 2048} (h : Keeps s t) : Keeps s (doGroupSet group entry t) := h.runOp

theorem Keeps.doHostRelease {host buf bytes : BitVec 64} (h : Keeps s t) : Keeps s (doHostRelease host buf bytes t) := h.runOp

theorem Keeps.doLineRestore {first count region version offset : BitVec 64} (h : Keeps s t) :
    Keeps s (doLineRestore first count region version offset t) :=
  h.runOp

theorem Keeps.doMasterRelease {kind number : BitVec 64} (h : Keeps s t) : Keeps s (doMasterRelease kind number t) := h.runOp

theorem Keeps.doRecoverRelease {win : BitVec 64} (h : Keeps s t) : Keeps s (doRecoverRelease win t) := h.runOp

theorem Keeps.doUnitReturn {unit : BitVec 64} (h : Keeps s t) : Keeps s (doUnitReturn unit t) := h.runOp

theorem Keeps.doRipRelease (h : Keeps s t) : Keeps s (doRipRelease t) := h.runOp

theorem Keeps.doKeyRevoke {slot : BitVec 64} {signer : BitVec 2} (h : Keeps s t) : Keeps s (doKeyRevoke slot signer t) := h.runOp

theorem Keeps.sweepLine {n l : Nat} (h : Keeps s t) : Keeps s (sweepLine t n l).1 := by
  unfold Machine.sweepLine
  extract_lets
  split
  · exact .inFst h
  · refine .iteFst (.inFst h) ?_
    split
    next e =>
      have k1 : Keeps s _ := Keeps.fst (.iteFst (.inFst h) h.lookupErr) e
      split
      · split
        · exact .inFst k1.startTxn
        · refine .iteFst (.inFst k1) ?_
          split
          · exact .inFst k1.poisonLine.setRec
          · exact .inFst k1.poisonLine.setRec
          · exact .inFst (.ite k1.setRec k1)
          · exact .inFst (.ite k1.setRec k1)
          · exact .inFst k1

theorem Keeps.bufferLines {n off len i : Nat} {ls : List Nat} (h : Keeps s t) : Keeps s (bufferLines t n off len i ls) := by
  induction ls generalizing t i with
  | nil => exact h
  | cons l ls ih => exact .ite h.putSweep (ih h.bufferWord)

theorem Keeps.sweepLines {n : Nat} {ls : List Nat} (h : Keeps s t) : Keeps s (sweepLines t n ls).1 := by
  unfold Machine.sweepLines
  refine .foldlFst (.inFst h) fun _ _ h => ?_
  split
  next e => exact .inFst (h.sweepLine.fst e)

theorem Keeps.sweepUnrecorded (h : Keeps s t) : Keeps s (sweepUnrecorded t) := by
  unfold Machine.sweepUnrecorded
  refine .ite h ?_
  refine h.forEach fun _ _ h => ?_
  split; exacts [h, h.lookups]

theorem Keeps.doReleaseSweepDone {host : Fin 64} (h : Keeps s t) : Keeps s (doReleaseSweepDone host t) := by
  unfold Machine.doReleaseSweepDone
  refine h.whenRunning fun _ h => ?_
  extract_lets
  split
  · exact h
  · split
    next e => exact (h.sweepLines.fst e).putSweep.sweepUnrecorded.bufferLines.settleAll

/-! ### Management requests (chapter 13) -/

theorem Keeps.mgmtReply {ref outcome : Nat} {ws : List Word} (h : Keeps s t) : Keeps s (mgmtReply t ref outcome ws) := h.mgmtSend

theorem Keeps.mgmtReplyBytes {ref : Nat} {bs : List (BitVec 8)} (h : Keeps s t) : Keeps s (mgmtReplyBytes t ref bs) :=
  h.forEach fun _ _ h => h.mgmtReply

theorem Keeps.mgmtRead {off : Nat} (h : Keeps s t) : Keeps s (mgmtRead t off).2 :=
  .iteSnd (.inSnd h.cwAccessErr) (.iteSnd (.inSnd h) (.inSnd h.touchUnit))

theorem Keeps.mgmtWrite {off : Nat} {v : Word} (h : Keeps s t) : Keeps s (mgmtWrite t off v).2 :=
  .iteSnd (.inSnd h.cwAccessErr) (.iteSnd (.inSnd h.regWrite) (.inSnd h))

theorem Keeps.mgmtReads {offs : List (BitVec 64)} (h : Keeps s t) : Keeps s (mgmtReads t offs).2 := by
  unfold Machine.mgmtReads
  refine .foldlSnd (.inSnd h) fun _ _ h => ?_
  split
  next e => exact .inSnd (h.mgmtRead.snd e)

theorem Keeps.mgmtWrites {ps : List (BitVec 64 × BitVec 64)} (h : Keeps s t) : Keeps s (mgmtWrites t ps).2 := by
  unfold Machine.mgmtWrites
  refine .foldlSnd (.inSnd h) fun _ _ h => ?_
  split
  next e => exact .inSnd (h.mgmtWrite.snd e)

theorem Keeps.mgmtCompose {ref off total : Nat} {data : List (BitVec 8)} (h : Keeps s t) : Keeps s (mgmtCompose t ref off total data) := by
  unfold Machine.mgmtCompose
  refine .ite h.mgmtReply ?_
  extract_lets u w v hseq short clear
  have hv : Keeps s v := .frame (.putBytes (.ite h h.zeroMem))
  have hclear {w : State} (h : Keeps s w) : Keeps s (clear w) := h.frame.zeroMem
  clear_value v clear
  refine .ite hv.mgmtReply ?_
  split
  next e =>
    have hcheck : Verdict.Keeps s (if short = true then (Verdict.refused 2 3 0, v) else Machine.composeCheck v cmpKey).1 ∧
        Keeps s (if short = true then (Verdict.refused 2 3 0, v) else Machine.composeCheck v cmpKey).2 := by
      split
      · exact ⟨trivial, hv⟩
      · exact hv.composeCheck
    obtain ⟨hverdict, h⟩ := Verdict.Keeps.pair hcheck e
    split
    · exact (hclear h).mgmtReply
    · exact .composeAccept (hclear hverdict)

theorem Keeps.imagePart {port off total : Nat} {data : List (BitVec 8)} (h : Keeps s t) :
    Keeps s (imagePart t port off total data).2.2 := by
  unfold Machine.imagePart
  split
  · exact h
  · split
    · exact h
    · split
      · exact h
      · exact .frame (.putBytes (.ite h h.zeroMem))

theorem Keeps.imageAct (h : Keeps s t) : Keeps s (imageAct t).2 := by
  unfold Machine.imageAct
  extract_lets
  split; exacts [.inSnd h.frame.bootLog.zeroMem, .inSnd h.frame.beginSlotWrite]

theorem Keeps.mgmtImage {ref port off total rsv : Nat} {data : List (BitVec 8)} (h : Keeps s t) :
    Keeps s (mgmtImage t ref port off total rsv data) := by
  unfold Machine.mgmtImage
  refine .ite h.mgmtReply ?_
  split
  next e => exact (h.imagePart.sndSnd e).mgmtReply
  next e => exact (h.imagePart.sndSnd e).mgmtReply
  next e =>
    split
    next e' => exact ((h.imagePart.sndSnd e).imageAct.snd e').mgmtReply
    next e' => exact ((h.imagePart.sndSnd e).imageAct.snd e').mgmtReply

theorem Keeps.mgmtQuote {ref : Nat} {vnonce : BitVec 256} {filter : Nat} {cert rsvZero : Bool} (h : Keeps s t) :
    Keeps s (mgmtQuote t ref vnonce filter cert rsvZero) :=
  .ite h.mgmtReply (.ite h.mgmtReply h.mgmtReplyBytes)

theorem Keeps.mgmtServe {port ref : Nat} {q : MgmtReq} (h : Keeps s t) : Keeps s (mgmtServe t port ref q) := by
  unfold Machine.mgmtServe
  split
  · exact h.mgmtReply
  · refine .ite h.mgmtReply ?_
    split
    next e => exact (h.mgmtReads.snd e).mgmtReply
  · refine .ite h.mgmtReply ?_
    split
    next e => exact (h.mgmtWrites.snd e).mgmtReply
  · exact h.mgmtCompose
  · exact h.mgmtQuote
  · exact h.mgmtImage
  · exact h
  · exact .ite h.frame.mgmtReply h.mgmtReply

theorem Keeps.mgmtHeard {src : MgmtFrom} (h : Keeps s t) : Keeps s (mgmtHeard t src) := h.frame.regPut

theorem Keeps.ackFault {m : MgmtOut} (h : Keeps s t) : Keeps s (ackFault t m) := by
  unfold Machine.ackFault
  split; exacts [.ite h.errAckOne h, h]

theorem Keeps.mgmtAckIn {ack sack : Nat} (h : Keeps s t) : Keeps s (mgmtAckIn t ack sack) :=
  .forEach (.frame (.forEach (h.frame.forEach fun _ _ h => h.ackFault) fun _ _ h2 => h2.frame.mgmtEmit)) fun _ _ h => h.mgmtEmit

theorem Keeps.mgmtDrain {fuel : Nat} (h : Keeps s t) : Keeps s (mgmtDrain t fuel) := by
  induction fuel generalizing t with
  | zero => exact h
  | succ fuel ih =>
    unfold Machine.mgmtDrain
    split
    · exact h
    · exact ih h.frame.mgmtServe

theorem Keeps.mgmtAckOut (h : Keeps s t) : Keeps s (mgmtAckOut t) := h.send

theorem Keeps.mgmtIn {src : MgmtFrom} {seq : BitVec 32} {q : MgmtReq} (h : Keeps s t) : Keeps s (mgmtIn src seq q t) :=
  .ite h (.ite h.mgmtHeard.mgmtAckIn.mgmtAckOut (.ite h.mgmtHeard.mgmtAckIn h.mgmtHeard.mgmtAckIn.frame.mgmtDrain.mgmtAckOut))

theorem Keeps.doCapRead {src : MgmtFrom} {seq : BitVec 32} (h : Keeps s t) : Keeps s (doCapRead src seq t) := h.mgmtIn

theorem Keeps.doRegRead {src : MgmtFrom} {seq : BitVec 32} {offs : List (BitVec 64)} (h : Keeps s t) : Keeps s (doRegRead src seq offs t) :=
  h.mgmtIn

theorem Keeps.doRegWrite {src : MgmtFrom} {seq : BitVec 32} {pairs : List (BitVec 64 × BitVec 64)} (h : Keeps s t) :
    Keeps s (doRegWrite src seq pairs t) :=
  h.mgmtIn

theorem Keeps.doMgmtCompose {src : MgmtFrom} {seq off total : BitVec 32} {data : List (BitVec 8)} (h : Keeps s t) :
    Keeps s (doMgmtCompose src seq off total data t) :=
  h.mgmtIn

theorem Keeps.doQuote {src : MgmtFrom} {seq : BitVec 32} {vnonce : BitVec 256} {filter : BitVec 16} {cert rsvZero : Bool} (h : Keeps s t) :
    Keeps s (doQuote src seq vnonce filter cert rsvZero t) :=
  h.mgmtIn

theorem Keeps.doImage {src : MgmtFrom} {seq : BitVec 32} {off : BitVec 64} {total rsv : BitVec 32} {data : List (BitVec 8)}
    (h : Keeps s t) :
    Keeps s (doImage src seq off total rsv data t) :=
  h.mgmtIn

theorem Keeps.doHeartbeat {src : MgmtFrom} {seq : BitVec 32} (h : Keeps s t) : Keeps s (doHeartbeat src seq t) := h.mgmtIn

theorem Keeps.doSetAddr {src : MgmtFrom} {seq : BitVec 32} {target : Fin 2} {addr : BitVec 128} {signedOk : Bool} (h : Keeps s t) :
    Keeps s (doSetAddr src seq target addr signedOk t) :=
  h.mgmtIn

theorem Keeps.heartbeatOut {p : Nat} (h : Keeps s t) : Keeps s (heartbeatOut t p) :=
  .ite h.frame (.send (.ite h.frame.regPut h.frame))

theorem Keeps.doHeartbeatTimer (h : Keeps s t) : Keeps s (doHeartbeatTimer t) := .ite h h.heartbeatOut.heartbeatOut

theorem Keeps.doMgmtAck {src : MgmtFrom} {ack : BitVec 32} (h : Keeps s t) : Keeps s (doMgmtAck src ack t) :=
  .ite h h.mgmtHeard.mgmtAckIn

theorem Keeps.doMgmtResendTimeout {msg : BitVec 32} (h : Keeps s t) : Keeps s (doMgmtResendTimeout msg t) := by
  unfold Machine.doMgmtResendTimeout
  refine .ite h ?_
  split; exacts [h, .mgmtEmit (.frame (.ite h.setBit h))]

theorem Keeps.doMgmtLinkDown {port : Fin 2} (h : Keeps s t) : Keeps s (doMgmtLinkDown port t) := .ite h h.regPut.setBit.logErr

theorem Keeps.doMgmtLinkUp {port : Fin 2} (h : Keeps s t) : Keeps s (doMgmtLinkUp port t) := .ite h h.frame.regPut

/-! ### M slots (chapter 06) -/

theorem Keeps.useGen {l : Nat} {ag : BitVec 4} (h : Keeps s t) : Keeps s (useGen t l ag).2 := .inSnd h.stage

theorem Keeps.noteLoad {l c x dom : Nat} (h : Keeps s t) : Keeps s (noteLoad t l c x dom) :=
  .ite (.ite h.putLathe h) (.pmc (.ite h.putLathe h))

theorem Keeps.chuckAccess {l n : Nat} {ag : BitVec 4} {align : Nat} {f : State → Kernel → Nat → Nat → Slot} (h : Keeps s t)
    (hf : ∀ u x y z, Keeps s u → Slot.Keeps s (f u x y z)) :
    Slot.Keeps s (chuckAccess l n ag align t f) := by
  unfold Machine.chuckAccess
  split
  next e =>
    refine .ite ?_ ?_
    · exact h.useGen.snd e
    · split
      · refine .ite ?_ ?_
        · exact h.useGen.snd e
        · split; exacts [hf _ _ _ _ (h.useGen.snd e), trivial]

theorem Keeps.doMload {l : Fin 128} {vd : BitVec 5} {ag : BitVec 4} {last : Bool} (h : Keeps s t) : Keeps s (doMload l vd ag last t) :=
  h.slot fun _ _ h => .ite trivial (h.chuckAccess fun _ _ _ _ h => h.chuckRead.slot fun _ _ h => h.noteLoad.stage)

theorem Keeps.doMstore {l : Fin 128} {vs : BitVec 5} {ag : BitVec 4} {last : Bool} (h : Keeps s t) : Keeps s (doMstore l vs ag last t) :=
  h.slot fun _ _ h => .ite trivial (h.chuckAccess fun _ _ _ _ h => h.chuckWrite.slot fun _ _ h => h)

theorem Keeps.doSld {l : Fin 128} {sd : BitVec 5} {ag : BitVec 4} {last : Bool} (h : Keeps s t) : Keeps s (doSld l sd ag last t) :=
  h.slot fun _ _ h => h.chuckAccess fun _ _ _ _ h => h.kReadChuck.slot fun _ _ h => h.noteLoad.stage

theorem Keeps.doSst {l : Fin 128} {sa : BitVec 5} {ag : BitVec 4} {last : Bool} (h : Keeps s t) : Keeps s (doSst l sa ag last t) :=
  h.slot fun _ _ h => h.chuckAccess fun _ _ _ _ h => .ite h (.ite h (.ite h.putScratchN h))

theorem Keeps.doMspool {l : Fin 128} {dix : BitVec 10} {sa sb : BitVec 5} {last : Bool} (h : Keeps s t) :
    Keeps s (doMspool l dix sa sb last t) := by
  unfold Machine.doMspool
  refine h.slot fun _ _ h => ?_
  split
  · exact trivial
  · split
    · exact h
    · refine .ite trivial ?_
      extract_lets
      split; exacts [.putLathe (.ite h h.nameUnits), h]

theorem Keeps.onHandle {l : Nat} {x : Lathe} {ch : BitVec 4} {f : State → Kernel → Handle → Slot} (h : Keeps s t)
    (hf : ∀ u x y, Keeps s u → Slot.Keeps s (f u x y)) :
    Slot.Keeps s (onHandle l x ch t f) := by
  unfold Machine.onHandle
  split
  · exact trivial
  · split; exacts [h, hf _ _ _ h]

theorem Keeps.farArea {ga : Nat} (h : Keeps s t) : Keeps s (farArea t ga).2 := by
  unfold Machine.farArea
  split; exacts [.inSnd h, .inSnd h, h.farUp]

theorem Keeps.doCarm {l : Fin 128} {ch : BitVec 4} {last : Bool} (h : Keeps s t) : Keeps s (doCarm l ch last t) := by
  unfold Machine.doCarm
  refine h.slot fun _ _ h => h.onHandle fun _ _ _ h => ?_
  split
  · exact h
  · split
    next e => exact (h.farArea.snd e).armHandle
    next e => exact h.farArea.snd e

theorem Keeps.latheWait {l : Nat} {w : LWait} (h : Keeps s t) : Keeps s (latheWait t l w) := h.putLathe.setLatheState

theorem Keeps.doCwait {l : Fin 128} {ch : BitVec 4} {st so : BitVec 5} {far : BitVec 64} {last : Bool} (h : Keeps s t) :
    Keeps s (doCwait l ch st so far last t) := by
  unfold Machine.doCwait
  refine h.slot fun _ _ h => h.onHandle fun _ _ _ h => ?_
  split
  next e => exact h.takeInj.getSnd e
  · split
    · exact h
    · refine .ite ?_ ?_
      · exact h
      · split; exacts [h, h.latheWait]

theorem Keeps.endWait {l : Nat} (h : Keeps s t) : Keeps s (endWait t l) := .ite h.putLathe.setLatheState h.putLathe

theorem Keeps.doCwaitSatisfied {l : Fin 128} {far : BitVec 64} (h : Keeps s t) : Keeps s (doCwaitSatisfied l far t) := by
  unfold Machine.doCwaitSatisfied
  refine h.whenRunning fun _ h => ?_
  split
  · split; exacts [.ite h.endWait h, h]
  · exact h

theorem Keeps.doCwaitTimeout {l : Fin 128} (h : Keeps s t) : Keeps s (doCwaitTimeout l t) := by
  unfold Machine.doCwaitTimeout
  refine h.whenRunning fun _ h => ?_
  split; exacts [.ite h.latheFaultAt h, h]

theorem Keeps.doCread {l : Fin 128} {sd : BitVec 5} {ch : BitVec 4} {far : BitVec 64} {last : Bool} (h : Keeps s t) :
    Keeps s (doCread l sd ch far last t) := by
  unfold Machine.doCread
  refine h.slot fun _ _ h => h.onHandle fun _ _ _ h => ?_
  split; exacts [h, h.stage]

theorem Keeps.spoolFence {l : Fin 128} {w : LWait} {last : Bool} (h : Keeps s t) : Keeps s (spoolFence l w last t) :=
  h.slot fun _ _ h => Keeps.ite h h.latheWait

theorem Keeps.doMfence {l : Fin 128} {last : Bool} (h : Keeps s t) : Keeps s (doMfence l last t) := h.spoolFence

theorem Keeps.doMdrain {l : Fin 128} {last : Bool} (h : Keeps s t) : Keeps s (doMdrain l last t) := h.spoolFence

theorem Keeps.fenceDone {l : Nat} {w : LWait} (h : Keeps s t) : Keeps s (fenceDone l w t) :=
  h.whenRunning fun _ h => .ite h.endWait h

theorem Keeps.doMfenceDone {l : Fin 128} (h : Keeps s t) : Keeps s (doMfenceDone l t) := h.fenceDone

theorem Keeps.doMdrainDone {l : Fin 128} (h : Keeps s t) : Keeps s (doMdrainDone l t) := h.fenceDone

/-! ### Scalar slots (chapter 06) -/

theorem Keeps.sOp {l : Fin 128} {sd sa sb : BitVec 5} {last : Bool} {f : Word → Word → Word} (h : Keeps s t) :
    Keeps s (sOp l sd sa sb last f t) :=
  h.slot fun _ _ h => h.stage

theorem Keeps.sImm {l : Fin 128} {sd : BitVec 5} {reads last : Bool} {f : Lathe → State → Word} (h : Keeps s t) :
    Keeps s (sImm l sd reads last f t) :=
  h.slot fun _ _ h => h.stage

theorem Keeps.doSli {l : Fin 128} {sd : BitVec 5} {imm : BitVec 16} {last : Bool} (h : Keeps s t) : Keeps s (doSli l sd imm last t) :=
  h.sImm

theorem Keeps.doSlui {l : Fin 128} {sd : BitVec 5} {imm : BitVec 16} {last : Bool} (h : Keeps s t) : Keeps s (doSlui l sd imm last t) :=
  h.sImm

theorem Keeps.doSadd {l : Fin 128} {sd sa sb : BitVec 5} {last : Bool} (h : Keeps s t) : Keeps s (doSadd l sd sa sb last t) :=
  h.sOp

theorem Keeps.doSsub {l : Fin 128} {sd sa sb : BitVec 5} {last : Bool} (h : Keeps s t) : Keeps s (doSsub l sd sa sb last t) :=
  h.sOp

theorem Keeps.doSmul {l : Fin 128} {sd sa sb : BitVec 5} {last : Bool} (h : Keeps s t) : Keeps s (doSmul l sd sa sb last t) :=
  h.sOp

theorem Keeps.doSand {l : Fin 128} {sd sa sb : BitVec 5} {last : Bool} (h : Keeps s t) : Keeps s (doSand l sd sa sb last t) :=
  h.sOp

theorem Keeps.doSor {l : Fin 128} {sd sa sb : BitVec 5} {last : Bool} (h : Keeps s t) : Keeps s (doSor l sd sa sb last t) := h.sOp

theorem Keeps.doSxor {l : Fin 128} {sd sa sb : BitVec 5} {last : Bool} (h : Keeps s t) : Keeps s (doSxor l sd sa sb last t) :=
  h.sOp

theorem Keeps.doSshl {l : Fin 128} {sd sa sb : BitVec 5} {last : Bool} (h : Keeps s t) : Keeps s (doSshl l sd sa sb last t) :=
  h.sOp

theorem Keeps.doSshr {l : Fin 128} {sd sa sb : BitVec 5} {last : Bool} (h : Keeps s t) : Keeps s (doSshr l sd sa sb last t) :=
  h.sOp

theorem Keeps.doSsra {l : Fin 128} {sd sa sb : BitVec 5} {last : Bool} (h : Keeps s t) : Keeps s (doSsra l sd sa sb last t) :=
  h.sOp

theorem Keeps.doSaddi {l : Fin 128} {sd sa : BitVec 5} {imm : BitVec 14} {last : Bool} (h : Keeps s t) :
    Keeps s (doSaddi l sd sa imm last t) :=
  h.sImm

theorem Keeps.doSmin {l : Fin 128} {sd sa sb : BitVec 5} {last : Bool} (h : Keeps s t) : Keeps s (doSmin l sd sa sb last t) :=
  h.sOp

theorem Keeps.doSmax {l : Fin 128} {sd sa sb : BitVec 5} {last : Bool} (h : Keeps s t) : Keeps s (doSmax l sd sa sb last t) :=
  h.sOp

theorem Keeps.doSparam {l : Fin 128} {sd : BitVec 5} {p : BitVec 8} {last : Bool} (h : Keeps s t) : Keeps s (doSparam l sd p last t) :=
  h.sImm

theorem Keeps.doSid {l : Fin 128} {sd : BitVec 5} {k : BitVec 4} {last : Bool} (h : Keeps s t) : Keeps s (doSid l sd k last t) :=
  h.slot fun _ _ h => .ite h h.stage

theorem Keeps.doLoop {l : Fin 128} {len1 n1 : BitVec 12} {last : Bool} (h : Keeps s t) : Keeps s (doLoop l len1 n1 last t) :=
  h.slot fun _ _ h => h.putLathe

theorem Keeps.doLoopP {l : Fin 128} {len1 : BitVec 12} {p : BitVec 8} {last : Bool} (h : Keeps s t) : Keeps s (doLoopP l len1 p last t) :=
  h.slot fun _ _ h => h.putLathe

theorem Keeps.doAset {l : Fin 128} {ad f : BitVec 4} {sa : BitVec 5} {last : Bool} (h : Keeps s t) : Keeps s (doAset l ad f sa last t) :=
  h.slot fun _ _ h => .ite h h.stage

theorem Keeps.doAget {l : Fin 128} {sd : BitVec 5} {ad : BitVec 4} {last : Bool} (h : Keeps s t) : Keeps s (doAget l sd ad last t) :=
  h.sImm

theorem Keeps.doCommit {l : Fin 128} {last : Bool} (h : Keeps s t) : Keeps s (doCommit l last t) := h.slot fun _ _ h => h.putLathe

theorem Keeps.doNop {l : Fin 128} {last : Bool} (h : Keeps s t) : Keeps s (doNop l last t) := h.slot fun _ _ h => h

theorem Keeps.doIllegalBundle {l : Fin 128} {no : Fin 4} (h : Keeps s t) : Keeps s (doIllegalBundle l no t) :=
  h.slot fun _ _ h => h

theorem Keeps.doNocommitFault {l : Fin 128} (h : Keeps s t) : Keeps s (doNocommitFault l t) :=
  h.whenRunning fun _ h => .ite h.latheFault h

/-! ### The spool (chapter 06) -/

theorem Keeps.spoolRead {k : Kernel} {lathe : Bool} {ga : Nat} {ext : Ext} {got : List LineData} {n : Nat} (h : Keeps s t) :
    SpoolRun.Keeps s (spoolRead t k lathe ga ext got n).2 := by
  induction n generalizing t ga got with
  | zero => exact h
  | succ n ih =>
    unfold Machine.spoolRead
    split
    next e => exact h.kRead.fault e
    next e => exact h.kRead.wait e
    next e => exact ih (h.kRead.ok e)

theorem Keeps.spoolFill {k : Kernel} {lathe : Bool} {d : Desc} {ext : Ext} {pos : SpoolPos} (h : Keeps s t) :
    SpoolRun.Keeps s (spoolFill t k lathe d ext pos).2 :=
  h.spoolRead

theorem Keeps.castEnter {k : Kernel} {d : Desc} {pos : SpoolPos} {v : LineData} (h : Keeps s t) :
    SpoolRun.Keeps s (castEnter t k d pos v).2 := by
  unfold Machine.castEnter
  refine SpoolRun.Keeps.iteSnd (by exact h) (SpoolRun.Keeps.iteSnd (by exact h.swEvent) (SpoolRun.Keeps.iteSnd ?_ ?_))
  · split
    · exact h
    · have hw {l : List Nat} {ga : Nat → Nat} : Keeps s (Machine.forEach l t fun s c =>
          match Machine.kWriteFar s k (ga c) v (some d.mcast) with
          | .ok _ s => s
          | _ => s) := by
        refine h.forEach fun _ _ h => ?_
        split
        next e => exact h.kWriteFar.ok e
        · exact h
      exact Keeps.ite hw hw.sendMulticast
  · extract_lets w
    have hw : Keeps s w := h.sendMulticast
    split
    · exact hw
    · exact hw

theorem Keeps.castTake {k : Kernel} {off : Nat} {v : LineData} {ts : List Nat} (h : Keeps s t) :
    SpoolRun.Keeps s (castTake t k off v ts).2 := by
  induction ts generalizing t with
  | nil => exact h
  | cons c ts ih =>
    unfold Machine.castTake
    split
    next e => exact (h.kWrite fun _ _ _ _ h => h.ctlLine).fault e
    next e => exact (h.kWrite fun _ _ _ _ h => h.ctlLine).wait e
    next e => exact ih ((h.kWrite fun _ _ _ _ h => h.ctlLine).ok e)

theorem Keeps.spoolWrite {k : Kernel} {d : Desc} {pos : SpoolPos} (h : Keeps s t) : SpoolRun.Keeps s (spoolWrite t k d pos).2 := by
  unfold Machine.spoolWrite
  extract_lets
  split
  · split
    next e => exact (h.kWrite fun _ _ _ _ h => h.ctlLine).fault e
    next e => exact (h.kWrite fun _ _ _ _ h => h.ctlLine).wait e
    next e => exact (h.kWrite fun _ _ _ _ h => h.ctlLine).ok e
  · have hc : SpoolRun.Keeps s (match pos.left with
        | none => Machine.castEnter t k d pos (spoolValue d pos)
        | some _ => (pos, SpoolRun.ok () t)).2 := by
      split
      · exact h.castEnter
      · exact h
    split
    next e =>
      have hu := hc.snd_ok e
      split
      · exact hu
      · split
        next e' => exact hu.castTake.snd_ok e'
        next e' => exact hu.castTake.of (congrArg Prod.snd e')
    · exact hc

theorem Keeps.spoolMove {k : Kernel} {lathe : Bool} {d : Desc} {ext : Ext} {pos : SpoolPos} {n : Nat} (h : Keeps s t) :
    SpoolRun.Keeps s (spoolMove t k lathe d ext pos n).2 := by
  induction n generalizing t pos with
  | zero => exact h
  | succ n ih =>
    have hf : SpoolRun.Keeps s (if pos.left.isSome then (pos, SpoolRun.ok () t) else Machine.spoolFill t k lathe d ext pos).2 :=
      SpoolRun.Keeps.iteSnd (by exact h) h.spoolFill
    unfold Machine.spoolMove
    split
    next e =>
      have h := hf.snd_ok e
      split
      next e' => exact ih (h.spoolWrite.snd_ok e')
      · exact h.spoolWrite
    · exact hf

theorem Keeps.spoolCount {lathe : Option Nat} {k : Kernel} {d : Desc} (h : Keeps s t) : Keeps s (spoolCount t lathe k d) := by
  unfold Machine.spoolCount
  extract_lets _ u1 _
  have h1 : Keeps s u1 := by
    unfold u1
    split
    · exact h
    · refine h.forEach fun _ _ h => ?_
      split
      · split <;> exact h.pmc
      · exact h.pmc
  exact h1.forEach fun _ _ h => h.forEach fun _ _ h => h.pmc

theorem Keeps.spoolDone {lathe : Option Nat} {k : Kernel} {d : Desc} (h : Keeps s t) : Keeps s (spoolDone t lathe k d) :=
  .ite h.spoolCount h.spoolCount.unnameUnits

theorem Keeps.homeSpoolFault {sp w code addr : Nat} (h : Keeps s t) : Keeps s (homeSpoolFault t sp w code addr) := by
  unfold Machine.homeSpoolFault
  split
  next e => exact (h.drawFree.snd e).kernelFaultAt

theorem Keeps.moveEntry {l j n : Nat} {ext : Machine.Ext} (h : Keeps s t) : Keeps s (moveEntry t l j n ext).2 := by
  unfold Machine.moveEntry
  extract_lets
  split
  · refine .iteSnd (.inSnd h) ?_
    split
    next e => exact .inSnd (h.spoolMove.snd_fault e).latheFaultAt
    next e => exact .inSnd (h.spoolMove.snd_wait e).putLathe
    next e => exact .inSnd (h.spoolMove.snd_ok e).putLathe
  · exact .inSnd h

theorem Keeps.moveHome {sp j n : Nat} {ext : Ext} (h : Keeps s t) : Keeps s (moveHome t sp j n ext).2 := by
  unfold Machine.moveHome
  extract_lets
  split
  · exact h
  · extract_lets d put
    have hput : ∀ u p, Keeps s u → Keeps s (put u p) := fun u p h => by
      unfold put; split; exacts [h.putKernel, h]
    split
    · exact h
    · split
      · exact h.homeSpoolFault
      · split
        next e => exact (h.spoolMove.snd_fault e).homeSpoolFault
        next e => exact hput _ _ (h.spoolMove.snd_wait e)
        next e => exact hput _ _ (h.spoolMove.snd_ok e)

theorem Keeps.doSpoolDescDone {spool : Fin 136} {k : Fin 64} {ext : Machine.Ext} (h : Keeps s t) :
    Keeps s (doSpoolDescDone spool k ext t) := by
  unfold Machine.doSpoolDescDone
  refine h.whenRunning fun _ h => .ite ?_ ?_
  · extract_lets _ u4
    have h4 : Keeps s u4 := h.forEach fun _ _ h => h.moveEntry
    split
    next e => exact h4.moveEntry.snd e
    next e => split; exacts [(h4.moveEntry.snd e).putLathe.spoolDone, (h4.moveEntry.snd e)]
  · extract_lets _ u10
    have h10 : Keeps s u10 := h.forEach fun _ _ h => h.moveHome
    split
    next e => exact h10.moveHome.snd e
    next e =>
      split
      · exact h10.moveHome.snd e
      · extract_lets u11
        have h11 : Keeps s u11 := by unfold u11; split; exacts [(h10.moveHome.snd e).putKernel, (h10.moveHome.snd e)]
        exact h11.spoolDone

theorem Keeps.spoolTick {l : Nat} (h : Keeps s t) : Keeps s (spoolTick t l) := by
  unfold Machine.spoolTick
  split; exacts [h.moveEntry, h]

theorem Keeps.homeSpoolTick {sp : Nat} (h : Keeps s t) : Keeps s (homeSpoolTick t sp) := by
  unfold Machine.homeSpoolTick
  split; exacts [h.moveHome, h]

theorem Keeps.doErrFlushedReceived {engine : Flushed} {addr : BitVec 60} (h : Keeps s t) :
    Keeps s (doErrFlushedReceived engine addr t) := by
  unfold Machine.doErrFlushedReceived
  refine h.whenRunning fun _ h => ?_
  split
  · exact .ite h.latheFault h
  · exact .ite h h.ctxFault
  · exact .ite h h.kiteFault
  · split; exacts [h.homeSpoolFault, h]

/-! ### Tailstock (chapter 18) -/

theorem Keeps.tsStart (h : Keeps s t) : Keeps s (tsStart t) := .ite h h.frame.bootLog

theorem Keeps.tsRun {f : State → State} (h : Keeps s t) (hf : ∀ u, Keeps s u → Keeps s (f u)) : Keeps s (tsRun t f) :=
  .ite (hf _ h.tsStart) h

theorem Keeps.doTsSessionStart {tsEn : Bool} (h : Keeps s t) : Keeps s (doTsSessionStart tsEn t) := h.frame.tsRun fun _ h => h

theorem Keeps.doTsEnFall (h : Keeps s t) : Keeps s (doTsEnFall t) := h.frame

theorem Keeps.doTsStat (h : Keeps s t) : Keeps s (doTsStat t) := h.tsRun fun _ h => h.tsText

theorem Keeps.doTsRd {off : BitVec 64} (h : Keeps s t) : Keeps s (doTsRd off t) := by
  unfold Machine.doTsRd
  refine h.tsRun fun _ h => .ite h.tsText ?_
  split
  next e => exact (h.mgmtRead.snd e).tsText

theorem Keeps.doTsWr {off v : BitVec 64} (h : Keeps s t) : Keeps s (doTsWr off v t) := by
  unfold Machine.doTsWr
  refine h.tsRun fun _ h => ?_
  split
  next e => exact (h.mgmtWrite.snd e).tsText

theorem Keeps.tsAccesses {cmd : Nat} {as : List Nat} {f : State → Nat → Nat → State} (h : Keeps s t)
    (hf : ∀ u x y, Keeps s u → Keeps s (f u x y)) :
    Keeps s (tsAccesses t cmd as f) :=
  .ite h (.ite (.tsText (h.forEach fun _ _ h1 => hf _ _ _ h1)) (h.frame.forEach fun _ _ h2 => hf _ _ _ h2))

theorem Keeps.doTsMrd {addr : BitVec 60} {lines : BitVec 8} (h : Keeps s t) : Keeps s (doTsMrd addr lines t) :=
  h.tsRun fun _ h => .ite h.tsText (h.tsAccesses fun _ _ _ h => h.lineAccess)

theorem Keeps.doTsMwr {addr : BitVec 60} {data : LineData} (h : Keeps s t) : Keeps s (doTsMwr addr data t) :=
  h.tsRun fun _ h => .ite h.tsText (h.tsAccesses fun _ _ _ h => h.lineAccess)

theorem Keeps.doTsLog {cls : Fin 12} (h : Keeps s t) : Keeps s (doTsLog cls t) := h.tsRun fun _ h => h.tsText

theorem Keeps.doTsAck {cls : Fin 12} {n : BitVec 8} (h : Keeps s t) : Keeps s (doTsAck cls n t) :=
  h.tsRun fun _ h => h.doErrAck.tsText

theorem Keeps.doTsDump {slot : Fin 2} {off : BitVec 64} {lines : BitVec 16} (h : Keeps s t) : Keeps s (doTsDump slot off lines t) :=
  h.tsRun fun _ h => .ite h.tsText h.tsText

theorem Keeps.doTsInj {off : BitVec 64} {kind : BitVec 4} {arg : BitVec 24} (h : Keeps s t) : Keeps s (doTsInj off kind arg t) := by
  unfold Machine.doTsInj
  refine h.tsRun fun _ h => ?_
  refine .ite h.tsText ?_
  split
  · exact h.tsText
  next e => exact (h.writeInj.get e).tsText

theorem Keeps.doTsRecoverReset (h : Keeps s t) : Keeps s (doTsRecoverReset t) := h.tsRun fun _ h => h.tsText.wholeReset

theorem Keeps.doTsRecoverBoot (h : Keeps s t) : Keeps s (doTsRecoverBoot t) := h.tsRun fun _ h => h.tsText.frame.wholeReset

theorem Keeps.doTsLoad {image : List (BitVec 8)} (h : Keeps s t) : Keeps s (doTsLoad image t) := by
  unfold Machine.doTsLoad
  refine h.tsRun fun _ h => ?_
  split
  next e => exact (h.frame.imagePart.sndSnd e).tsText
  next e =>
    split
    next e' => exact ((h.frame.imagePart.sndSnd e).imageAct.snd e').tsText
    next e' => exact ((h.frame.imagePart.sndSnd e).imageAct.snd e').tsText

theorem Keeps.doTsEnrol {slot : Fin 4} {key : List (BitVec 8)} (h : Keeps s t) : Keeps s (doTsEnrol slot key t) :=
  h.tsRun fun _ h => .ite h.tsText (.ite h.tsText (.ite h.tsText (.ite h h.frame.setBit.bootLog.tsText)))

theorem Keeps.tapLoad {op : Nat} {f : State → State} (h : Keeps s t) (hf : ∀ u, Keeps s u → Keeps s (f u)) : Keeps s (tapLoad t op f) :=
  .ite (hf _ h.frame) h

theorem Keeps.tapBypass (h : Keeps s t) : Keeps s (tapBypass t) := h.send

theorem Keeps.tapDrive (h : Keeps s t) : Keeps s (tapDrive t) := h.forEach fun _ _ h => h.send

theorem Keeps.tapLatch {vals : List (Fin 22 × Bool)} (h : Keeps s t) : Keeps s (tapLatch t vals) := h.forEach fun _ _ h => h.frame

theorem Keeps.doExtest {pins : List Bool} {vals : List (Fin 22 × Bool)} (h : Keeps s t) : Keeps s (doExtest pins vals t) :=
  h.tapLoad fun _ h => .ite h.send.tapLatch.tapDrive h.tapBypass

theorem Keeps.doSamplePreload {pins : List Bool} {vals : List (Fin 22 × Bool)} (h : Keeps s t) : Keeps s (doSamplePreload pins vals t) :=
  h.tapLoad fun _ h => h.send.tapLatch

theorem Keeps.doIdcode (h : Keeps s t) : Keeps s (doIdcode t) := h.tapLoad fun _ h => h.send

theorem Keeps.doClamp (h : Keeps s t) : Keeps s (doClamp t) := h.tapLoad fun _ h => .tapBypass (.ite h.tapDrive h)

theorem Keeps.doHighz (h : Keeps s t) : Keeps s (doHighz t) := h.tapLoad fun _ h => h.tapBypass

theorem Keeps.doBypass {opcode : BitVec 8} (h : Keeps s t) : Keeps s (doBypass opcode t) :=
  .ite h (h.tapLoad fun _ h => h.tapBypass)

/-! ### Tensor slots (chapter 06) -/

theorem Keeps.stripe {k : Kernel} {n : Nat} {p : BitVec 30} (h : Keeps s t) : KAcc.Keeps s (stripe t k n p) := by
  unfold Machine.stripe
  split
  · split
    next e => exact h.chuckRead.ok e
    next e => exact h.chuckRead.fault e
    next e => exact h.chuckRead.wait e

theorem Keeps.stripes {k : Kernel} {n : Nat} {ps : List (BitVec 30)} (h : Keeps s t) : TensorRead.Keeps s (stripes k n ps t) := by
  induction ps generalizing t with
  | nil => exact h
  | cons p ps ih =>
    unfold Machine.stripes
    split
    next e =>
      split
      next e' => exact (ih (h.stripe.ok e)).inl e'
      next e' => exact (ih (h.stripe.ok e)).inr e'
    next e => exact h.stripe.fault e
    next e => exact h.stripe.wait e

theorem Keeps.readTmma {k : Kernel} {x : Tmma} (h : Keeps s t) : TensorRead.Keeps s (readTmma t k x) := by
  unfold Machine.readTmma
  extract_lets
  split
  next e => exact h.stripes.inr e
  next e =>
    have h := h.stripes.inl e
    split
    next e => exact h.stripes.inr e
    next e =>
      have h := h.stripes.inl e
      split
      next e => exact h.stripes.inr e
      next e =>
        have h := h.stripes.inl e
        split
        next e => exact h.stripes.inr e
        next e => exact h.stripes.inl e

theorem Keeps.tmmaUses {l : Nat} {aA aB : BitVec 4} {t' : Tmma} (h : Keeps s t) : Keeps s (tmmaUses t l aA aB t') :=
  h.stage.stage.stage.stage

theorem Keeps.tmmaQueued {l : Nat} {k : Kernel} {aA aB : BitVec 4} {t' : Tmma} (h : Keeps s t) : Keeps s (tmmaQueued t l k aA aB t') :=
  h.tmmaUses.pmc.putLathe

theorem Keeps.tmma {l : Fin 128} {op : Nat} {td : BitVec 3} {aA aB : BitVec 4} {kb : BitVec 10} {acc : Bool} {shape : BitVec 2}
    {last : Bool} (h : Keeps s t) :
    Keeps s (tmma l op td aA aB kb acc shape last t) := by
  refine h.slot fun x u h => ?_
  split
  · exact h
  · split
    · trivial
    · split
      · trivial
      · extract_lets
        split
        · exact h
        · split
          next e => exact TensorRead.Keeps.inr (by split; exacts [h.readTmma, h]) e
          next e => exact .tmmaQueued (TensorRead.Keeps.inl (by split; exacts [h.readTmma, h]) e)

theorem Keeps.startTq {l i : Nat} (h : Keeps s t) : Keeps s (startTq t l i) := by
  unfold Machine.startTq
  extract_lets
  split
  · refine .ite h ?_
    split
    next e => exact (h.readTmma.inr e).latheFaultAt
    next e => exact (h.readTmma.inl e).putLathe
  · exact h

theorem Keeps.doTmmaWriteback {l : Fin 128} (h : Keeps s t) : Keeps s (doTmmaWriteback l t) := by
  unfold Machine.doTmmaWriteback
  refine h.whenRunning fun _ h => ?_
  refine .ite h ?_
  split; exacts [.ite h.putLathe.tagEnded.startTq h, h]

theorem Keeps.tensorOp {l : Nat} {e : TqEnt} {now : Lathe → Lathe} (h : Keeps s t) : Slot.Keeps s (tensorOp t l e now) := by
  unfold Machine.tensorOp
  refine .ite ?_ ?_
  · exact h.putLathe
  · split; exacts [trivial, h.putLathe]

theorem Keeps.doTzero {l : Fin 128} {td : BitVec 3} {last : Bool} (h : Keeps s t) : Keeps s (doTzero l td last t) :=
  h.slot fun _ _ h => h.tensorOp

theorem Keeps.doTread {l : Fin 128} {vd : BitVec 5} {ts : BitVec 3} {part : BitVec 4} {last : Bool} (h : Keeps s t) :
    Keeps s (doTread l vd ts part last t) :=
  h.slot fun _ _ h => .ite h (.ite trivial (.ite h.stage h.stage.tensorOp))

theorem Keeps.doTload {l : Fin 128} {td : BitVec 3} {vs : BitVec 5} {part : BitVec 4} {last : Bool} (h : Keeps s t) :
    Keeps s (doTload l td vs part last t) :=
  h.slot fun _ _ h => .ite h (.ite trivial h.tensorOp)

theorem Keeps.tfenceWait {l : Nat} (h : Keeps s t) : Keeps s (tfenceWait t l) := h.putLathe.setLatheState

theorem Keeps.doTfence {l : Fin 128} {last : Bool} (h : Keeps s t) : Keeps s (doTfence l last t) :=
  h.slot fun _ _ h => Keeps.ite h.tfenceWait h

theorem Keeps.endTfence {l : Nat} (h : Keeps s t) : Keeps s (endTfence t l) := .ite h.putLathe.setLatheState h.putLathe

theorem Keeps.doTfenceDone {l : Fin 128} (h : Keeps s t) : Keeps s (doTfenceDone l t) :=
  h.whenRunning fun _ h => .ite (.endTfence (h.forEach fun _ _ h => h.startTq)) h

/-! ### Vector slots (chapter 06) -/

theorem Keeps.vSlot {l : Fin 128} {regs : List (BitVec 5)} {last : Bool} {f : Lathe → Option Stage} (h : Keeps s t) :
    Keeps s (vSlot l regs last t f) := by
  unfold Machine.vSlot
  refine h.slot fun _ _ h => .ite trivial ?_
  split; exacts [h.stage, h]

theorem Keeps.vMap1 {l : Fin 128} {vd va : BitVec 5} {last : Bool} {f : Nat → Nat} (h : Keeps s t) : Keeps s (vMap1 l vd va last f t) :=
  h.vSlot

theorem Keeps.vMap2 {l : Fin 128} {vd va vb : BitVec 5} {last : Bool} {f : Nat → Nat → Nat} (h : Keeps s t) :
    Keeps s (vMap2 l vd va vb last f t) :=
  h.vSlot

theorem Keeps.vMap3 {l : Fin 128} {vd va vb vc : BitVec 5} {last : Bool} {f : Nat → Nat → Nat → Nat} (h : Keeps s t) :
    Keeps s (vMap3 l vd va vb vc last f t) :=
  h.vSlot

theorem Keeps.doVadd {l : Fin 128} {vd va vb : BitVec 5} {last : Bool} (h : Keeps s t) : Keeps s (doVadd l vd va vb last t) :=
  h.vMap2

theorem Keeps.doVsub {l : Fin 128} {vd va vb : BitVec 5} {last : Bool} (h : Keeps s t) : Keeps s (doVsub l vd va vb last t) :=
  h.vMap2

theorem Keeps.doVmul {l : Fin 128} {vd va vb : BitVec 5} {last : Bool} (h : Keeps s t) : Keeps s (doVmul l vd va vb last t) :=
  h.vMap2

theorem Keeps.doVfma {l : Fin 128} {vd va vb vc : BitVec 5} {last : Bool} (h : Keeps s t) : Keeps s (doVfma l vd va vb vc last t) :=
  h.vMap3

theorem Keeps.doVmax {l : Fin 128} {vd va vb : BitVec 5} {last : Bool} (h : Keeps s t) : Keeps s (doVmax l vd va vb last t) :=
  h.vMap2

theorem Keeps.doVmin {l : Fin 128} {vd va vb : BitVec 5} {last : Bool} (h : Keeps s t) : Keeps s (doVmin l vd va vb last t) :=
  h.vMap2

theorem Keeps.doVabs {l : Fin 128} {vd va : BitVec 5} {last : Bool} (h : Keeps s t) : Keeps s (doVabs l vd va last t) := h.vMap1

theorem Keeps.doVneg {l : Fin 128} {vd va : BitVec 5} {last : Bool} (h : Keeps s t) : Keeps s (doVneg l vd va last t) := h.vMap1

theorem Keeps.doVsel {l : Fin 128} {vd va vb vc : BitVec 5} {last : Bool} (h : Keeps s t) : Keeps s (doVsel l vd va vb vc last t) :=
  h.vMap3

theorem Keeps.doVcmp {l : Fin 128} {vd va vb : BitVec 5} {mod : BitVec 4} {last : Bool} (h : Keeps s t) :
    Keeps s (doVcmp l vd va vb mod last t) :=
  h.vSlot

theorem Keeps.doVexp {l : Fin 128} {vd va : BitVec 5} {last : Bool} (h : Keeps s t) : Keeps s (doVexp l vd va last t) := h.vMap1

theorem Keeps.doVlog {l : Fin 128} {vd va : BitVec 5} {last : Bool} (h : Keeps s t) : Keeps s (doVlog l vd va last t) := h.vMap1

theorem Keeps.doVrcp {l : Fin 128} {vd va : BitVec 5} {last : Bool} (h : Keeps s t) : Keeps s (doVrcp l vd va last t) := h.vMap1

theorem Keeps.doVrsqrt {l : Fin 128} {vd va : BitVec 5} {last : Bool} (h : Keeps s t) : Keeps s (doVrsqrt l vd va last t) :=
  h.vMap1

theorem Keeps.doVtanh {l : Fin 128} {vd va : BitVec 5} {last : Bool} (h : Keeps s t) : Keeps s (doVtanh l vd va last t) := h.vMap1

theorem Keeps.doVsigm {l : Fin 128} {vd va : BitVec 5} {last : Bool} (h : Keeps s t) : Keeps s (doVsigm l vd va last t) := h.vMap1

theorem Keeps.doVsin {l : Fin 128} {vd va : BitVec 5} {last : Bool} (h : Keeps s t) : Keeps s (doVsin l vd va last t) := h.vMap1

theorem Keeps.doVcos {l : Fin 128} {vd va : BitVec 5} {last : Bool} (h : Keeps s t) : Keeps s (doVcos l vd va last t) := h.vMap1

theorem Keeps.doVredsum {l : Fin 128} {vd va : BitVec 5} {last : Bool} (h : Keeps s t) : Keeps s (doVredsum l vd va last t) :=
  h.vSlot

theorem Keeps.doVredmax {l : Fin 128} {vd va : BitVec 5} {last : Bool} (h : Keeps s t) : Keeps s (doVredmax l vd va last t) :=
  h.vSlot

theorem Keeps.doVscan {l : Fin 128} {vd va : BitVec 5} {last : Bool} (h : Keeps s t) : Keeps s (doVscan l vd va last t) := h.vSlot

theorem Keeps.doVargmax {l : Fin 128} {sd va : BitVec 5} {last : Bool} (h : Keeps s t) : Keeps s (doVargmax l sd va last t) :=
  h.vSlot

theorem Keeps.doVfirst {l : Fin 128} {sd va vb : BitVec 5} {last : Bool} (h : Keeps s t) : Keeps s (doVfirst l sd va vb last t) :=
  h.vSlot

theorem Keeps.doVbcast {l : Fin 128} {vd sa : BitVec 5} {last : Bool} (h : Keeps s t) : Keeps s (doVbcast l vd sa last t) :=
  h.vSlot

theorem Keeps.doVext {l : Fin 128} {sd va : BitVec 5} {i : BitVec 8} {last : Bool} (h : Keeps s t) : Keeps s (doVext l sd va i last t) :=
  h.vSlot

theorem Keeps.doVrotl {l : Fin 128} {vd va : BitVec 5} {n : BitVec 8} {last : Bool} (h : Keeps s t) : Keeps s (doVrotl l vd va n last t) :=
  h.vSlot

theorem Keeps.doVcvt {l : Fin 128} {vd va : BitVec 5} {part mod : BitVec 4} {last : Bool} (h : Keeps s t) :
    Keeps s (doVcvt l vd va part mod last t) :=
  h.vSlot

theorem Keeps.doVunp {l : Fin 128} {vd va : BitVec 5} {part mod : BitVec 4} {last : Bool} (h : Keeps s t) :
    Keeps s (doVunp l vd va part mod last t) :=
  h.vSlot

theorem Keeps.doVrng {l : Fin 128} {vd sa sb : BitVec 5} {last : Bool} (h : Keeps s t) : Keeps s (doVrng l vd sa sb last t) :=
  h.vSlot

/-! ### ZCT blocks (chapter 13) -/

theorem Keeps.pfcCheck {p c : Nat} (h : Keeps s t) : Keeps s (pfcCheck t p c) :=
  .ite h.frame.ethTx.send.pmc (.ite h.frame.ethTx.send h)

theorem Keeps.pfcAll (h : Keeps s t) : Keeps s (pfcAll t) := h.forEach fun _ _ h => h.pfcCheck

theorem Keeps.zctSendAck {n : Nat} (h : Keeps s t) : Keeps s (zctSendAck t n) := h.putSess.zctEmit

theorem Keeps.zctLost {n : Nat} (h : Keeps s t) : Keeps s (zctLost t n) := by
  unfold Machine.zctLost
  exact h.putSess.frame.regPut.ethEvent

theorem Keeps.zctResend {n seq : Nat} (h : Keeps s t) : Keeps s (zctResend t n seq) := by
  unfold Machine.zctResend
  extract_lets
  split; exacts [h, .ite h.zctLost h.putSess.incCnt.zctEmit]

theorem Keeps.zctAdmit {n fuel : Nat} (h : Keeps s t) : Keeps s (zctAdmit t n fuel) := by
  induction fuel generalizing t with
  | zero => exact h
  | succ fuel ih =>
    unfold Machine.zctAdmit
    extract_lets
    split
    · exact h
    · exact .ite h (ih h.putSess.zctEmit)

theorem Keeps.zctAckIn {n ack sack : Nat} (h : Keeps s t) : Keeps s (zctAckIn t n ack sack) :=
  h.putSess.zctAdmit.forEach fun _ _ h => h.zctResend

theorem Keeps.zctLine {n seq a : Nat} {wr : Bool} {d : LineData} (h : Keeps s t) : Keeps s (zctLine t n seq a wr d) :=
  h.lineAccess

theorem Keeps.zctServe {n : Nat} {b : ZBlk} {lines : Nat} (h : Keeps s t) : Keeps s (zctServe t n b lines) := by
  unfold Machine.zctServe
  refine .ite h.zctSend ?_
  split
  next e => exact (h.takeInj.getSnd e).violate.zctSend
  · exact .ite h.zctFinish (h.putSess.forEach fun _ _ h => h.zctLine)

theorem Keeps.zctApply {n : Nat} {b : ZBlk} (h : Keeps s t) : Keeps s (zctApply t n b) :=
  .ite h.regPut.zctSend (.ite h.regPut.zctServe (.ite h.regPut.zctServe h.regPut))

theorem Keeps.zctDrain {n fuel : Nat} (h : Keeps s t) : Keeps s (zctDrain t n fuel) := by
  induction fuel generalizing t with
  | zero => exact h
  | succ fuel ih =>
    unfold Machine.zctDrain
    extract_lets
    split
    · exact h
    · exact .ite h (ih h.putSess.zctApply)

theorem Keeps.zctSettle {n : Nat} (h : Keeps s t) : Keeps s (zctSettle t n) := .pfcAll (.ite h.zctDrain.zctSendAck h.zctDrain)

theorem Keeps.zctTake {p n : Nat} {b : ZBlk} (h : Keeps s t) : Keeps s (zctTake t p n b) :=
  .ite h.zctSendAck (.ite h (.ite h.ethEvent (.zctSettle (.putSess (.ite h h.pmc)))))

theorem Keeps.zctRx {port : Fin 2} {src : ZFrom} {h' : ZHdr} {data : List LineData} (h : Keeps s t) :
    Keeps s (zctRx port src h' data t) := by
  unfold Machine.zctRx
  refine h.ethFrame fun _ h => .ite h.ethDrop ?_
  split
  next e =>
    refine Keeps.sndThen (s := s) ?_ (fun k1 => ?_) e
    · split
      next e => exact .inSnd (h.takeInj.getSnd e)
      · exact .inSnd h
    · exact .ite k1.incCnt (.ite k1.ethDrop (.ite k1.pmc.regPut.putSess.zctAckIn.zctSettle k1.pmc.regPut.putSess.zctAckIn.zctTake))

theorem Keeps.doZctWrite {port : Fin 2} {src : ZFrom} {h' : ZHdr} {data : List LineData} (h : Keeps s t) :
    Keeps s (doZctWrite port src h' data t) :=
  h.zctRx

theorem Keeps.doZctRead {port : Fin 2} {src : ZFrom} {h' : ZHdr} {data : List LineData} (h : Keeps s t) :
    Keeps s (doZctRead port src h' data t) :=
  h.zctRx

theorem Keeps.doZctAck {port : Fin 2} {src : ZFrom} {h' : ZHdr} (h : Keeps s t) : Keeps s (doZctAck port src h' t) := h.zctRx

theorem Keeps.doZctAckTimer {session : Fin 256} (h : Keeps s t) : Keeps s (doZctAckTimer session t) :=
  h.whenRunning fun _ h => .ite h (.ite h.zctSettle h.zctSettle.zctSendAck)

theorem Keeps.doZctResendTimeout {session : Fin 256} {seq : BitVec 32} (h : Keeps s t) : Keeps s (doZctResendTimeout session seq t) := by
  unfold Machine.doZctResendTimeout
  refine h.whenRunning fun _ h => ?_
  split; exacts [h, h.zctResend]

/-! ### The passing of a cycle -/

theorem Keeps.latheTick {l : Nat} (h : Keeps s t) : Keeps s (latheTick t l) :=
  .ite (.ite h.putLathe.addCnt.latheFault h.putLathe.addCnt.spoolTick) h

theorem Keeps.walkerTick {w : Nat} (h : Keeps s t) : Keeps s (walkerTick t w) := by
  unfold Machine.walkerTick
  split; exacts [h, h.pmc.pmc]

theorem Keeps.gougeTick {g : Nat} (h : Keeps s t) : Keeps s (gougeTick t g) := .ite h.pmc h

theorem Keeps.waitTick (h : Keeps s t) : Keeps s (waitTick t) :=
  .pmc (.pmc (.forEach (.forEach (.forEach (.forEach (.forEach (.pmc (.forEach (.forEach (.forEach (h.forEach fun _ _ h => .ite h.pmc h)
    fun _ _ h => h.pmc) fun _ _ h => h.pmc) fun _ _ h => .ite h.pmc h)) fun _ _ h => h.forEach fun _ _ h => h.pmc) fun _ _ h => h.pmc)
    fun _ _ h => h.pmc) fun _ _ h => h.forEach fun _ _ h => h.pmc) fun _ _ h => .ite h.pmc h))

theorem Keeps.idle (h : Keeps s t) : Keeps s (idle t) := by
  unfold Machine.idle
  refine h.whenRunning fun _ h => ?_
  exact .waitTick (.drainMissq (.serveReelWaits (.forEach (.forEach (.forEach (.forEach (.forEach (.forEach (h.forEach
    fun _ _ h => h.latheTick) fun _ _ h => h.walkerTick) fun _ _ h => h.gougeTick) fun _ _ h => gougeKind_keeps.dogTick h)
    fun _ _ h => kiteKind_keeps.dogTick h) fun _ _ h => h.homeSpoolTick) fun _ _ h => h.askRows)))

end

end Sys2Proof.Machine
end

section
/-! Every step keeps the queue and the canonical form of memory, of the register file and of the arrival counters (chapters 02 and 04). -/

namespace Sys2Proof.Machine

/-- Every command completes, and keeps the queue and the canonical form: what each does is its lemma of `Keeps`. -/
theorem exec_keeps (c : Instr) (s : State) : ∃ t, exec c s = .next t ∧ Keeps s t := by
  have done {t : State} (h : Keeps s t) : ∃ u, (.next t : Host.Outcome State Fault Refusal) = .next u ∧ Keeps s u := ⟨t, rfl, h⟩
  have h : Keeps s s := .refl s
  cases c with
  | registerWrite => exact done h.doRegisterWrite
  | rds => exact done h.doRds
  | rde => exact done h.doRde
  | upgr => exact done h.doUpgr
  | rdnc => exact done h.doRdnc
  | wrnc => exact done h.doWrnc
  | wrline => exact done h.doWrline
  | wrback => exact done h.doWrback
  | evict => exact done h.doEvict
  | invack => exact done h.doInvack
  | snprspdata => exact done h.doSnprspdata
  | cmpack => exact done h.doCmpack
  | wrdata => exact done h.doWrdata
  | unknownOpcodeMessage => exact done h.doUnknownOpcodeMessage
  | deferActivate => exact done h.doDeferActivate
  | grantResponse => exact done h.doGrantResponse
  | errFlushedReceived => exact done h.doErrFlushedReceived
  | homeTimeout => exact done h.doHomeTimeout
  | commandReady => exact done h.doCommandReady
  | afterSatisfied => exact done h.doAfterSatisfied
  | afterTimeout => exact done h.doAfterTimeout
  | run => exact done h.doRun
  | planLoad => exact done h.doPlanLoad
  | planLoadDone => exact done h.doPlanLoadDone
  | planUnload => exact done h.doPlanUnload
  | armBind => exact done h.doArmBind
  | armRearm => exact done h.doArmRearm
  | armUnbind => exact done h.doArmUnbind
  | armCommandMode => exact done h.doArmCommandMode
  | draftOpen => exact done h.doDraftOpen
  | publish => exact done h.doPublish
  | draftDiscard => exact done h.doDraftDiscard
  | compose => exact done h.doCompose
  | sealComplete => exact done h.doSealComplete
  | writingDone => exact done h.doWritingDone
  | publishDecide => exact done h.doPublishDecide
  | kernelStart => exact done h.doKernelStart
  | scheduleFire => exact done h.doScheduleFire
  | kernelCommit => exact done h.doKernelCommit
  | sli => exact done h.doSli
  | slui => exact done h.doSlui
  | sadd => exact done h.doSadd
  | ssub => exact done h.doSsub
  | smul => exact done h.doSmul
  | sand => exact done h.doSand
  | sor => exact done h.doSor
  | sxor => exact done h.doSxor
  | sshl => exact done h.doSshl
  | sshr => exact done h.doSshr
  | ssra => exact done h.doSsra
  | saddi => exact done h.doSaddi
  | smin => exact done h.doSmin
  | smax => exact done h.doSmax
  | sparam => exact done h.doSparam
  | sid => exact done h.doSid
  | loop => exact done h.doLoop
  | loopP => exact done h.doLoopP
  | aset => exact done h.doAset
  | aget => exact done h.doAget
  | commit => exact done h.doCommit
  | nop => exact done h.doNop
  | illegalBundle => exact done h.doIllegalBundle
  | nocommitFault => exact done h.doNocommitFault
  | mload => exact done h.doMload
  | mstore => exact done h.doMstore
  | sld => exact done h.doSld
  | sst => exact done h.doSst
  | mspool => exact done h.doMspool
  | spoolDescDone => exact done h.doSpoolDescDone
  | carm => exact done h.doCarm
  | cwait => exact done h.doCwait
  | cwaitSatisfied => exact done h.doCwaitSatisfied
  | cwaitTimeout => exact done h.doCwaitTimeout
  | cread => exact done h.doCread
  | mfence => exact done h.doMfence
  | mfenceDone => exact done h.doMfenceDone
  | mdrain => exact done h.doMdrain
  | mdrainDone => exact done h.doMdrainDone
  | tmmaBf16 => exact done h.tmma
  | tmmaFp16 => exact done h.tmma
  | tmmaE4m3 => exact done h.tmma
  | tmmaE5m2 => exact done h.tmma
  | tmmaInt8 => exact done h.tmma
  | tmmaMxfp8 => exact done h.tmma
  | tmmaMxfp8e5 => exact done h.tmma
  | tmmaMxfp6 => exact done h.tmma
  | tmmaMxfp6e3 => exact done h.tmma
  | tmmaMxint8 => exact done h.tmma
  | tmmaMxfp4 => exact done h.tmma
  | tmmaInt4 => exact done h.tmma
  | tmmaMxfp4x8 => exact done h.tmma
  | tmmaT2 => exact done h.tmma
  | tmmaT2i => exact done h.tmma
  | tmmaWriteback => exact done h.doTmmaWriteback
  | tzero => exact done h.doTzero
  | tread => exact done h.doTread
  | tload => exact done h.doTload
  | tfence => exact done h.doTfence
  | tfenceDone => exact done h.doTfenceDone
  | vadd => exact done h.doVadd
  | vsub => exact done h.doVsub
  | vmul => exact done h.doVmul
  | vfma => exact done h.doVfma
  | vmax => exact done h.doVmax
  | vmin => exact done h.doVmin
  | vabs => exact done h.doVabs
  | vneg => exact done h.doVneg
  | vsel => exact done h.doVsel
  | vcmp => exact done h.doVcmp
  | vexp => exact done h.doVexp
  | vlog => exact done h.doVlog
  | vrcp => exact done h.doVrcp
  | vrsqrt => exact done h.doVrsqrt
  | vtanh => exact done h.doVtanh
  | vsigm => exact done h.doVsigm
  | vsin => exact done h.doVsin
  | vcos => exact done h.doVcos
  | vredsum => exact done h.doVredsum
  | vredmax => exact done h.doVredmax
  | vscan => exact done h.doVscan
  | vargmax => exact done h.doVargmax
  | vfirst => exact done h.doVfirst
  | vbcast => exact done h.doVbcast
  | vext => exact done h.doVext
  | vrotl => exact done h.doVrotl
  | vcvt => exact done h.doVcvt
  | vunp => exact done h.doVunp
  | vrng => exact done h.doVrng
  | latheDone => exact done h.doLatheDone
  | latheWatchdog => exact done h.doLatheWatchdog
  | latheReset => exact done h.doLatheReset
  | latheInjClear => exact done h.doLatheInjClear
  | latheInjChuckCe => exact done h.doLatheInjChuckCe
  | latheInjChuckUe => exact done h.doLatheInjChuckUe
  | latheInjParity => exact done h.doLatheInjParity
  | latheInjWatchdog => exact done h.doLatheInjWatchdog
  | latheInjCwaitFail => exact done h.doLatheInjCwaitFail
  | latheInjStop => exact done h.doLatheInjStop
  | ldrInjDigest => exact done h.doLdrInjDigest
  | ldrInjAfter => exact done h.doLdrInjAfter
  | ldrInjBadlen => exact done h.doLdrInjBadlen
  | gnop => exact done h.doGnop
  | gli => exact done h.doGli
  | glui => exact done h.doGlui
  | gadd => exact done h.doGadd
  | gaddi => exact done h.doGaddi
  | gmul => exact done h.doGmul
  | gparam => exact done h.doGparam
  | gid => exact done h.doGid
  | grun => exact done h.doGrun
  | segmentStart => exact done h.doSegmentStart
  | rowLanded => exact done h.doRowLanded
  | passBStart => exact done h.doPassBStart
  | batchComplete => exact done h.doBatchComplete
  | gwait => exact done h.doGwait
  | gwaitSatisfied => exact done h.doGwaitSatisfied
  | gwaitTimeout => exact done h.doGwaitTimeout
  | gsig => exact done h.doGsig
  | gloop => exact done h.doGloop
  | gloopP => exact done h.doGloopP
  | gend => exact done h.doGend
  | contextWatchdog => exact done h.doContextWatchdog
  | gougeInjClear => exact done h.doGougeInjClear
  | gougeInjTableUe => exact done h.doGougeInjTableUe
  | gougeInjWatchdog => exact done h.doGougeInjWatchdog
  | gougeInjGwait => exact done h.doGougeInjGwait
  | gougeInjPoison => exact done h.doGougeInjPoison
  | gougeInjStop => exact done h.doGougeInjStop
  | knop => exact done h.doKnop
  | kli => exact done h.doKli
  | klui => exact done h.doKlui
  | kadd => exact done h.doKadd
  | kaddi => exact done h.doKaddi
  | kmul => exact done h.doKmul
  | kparam => exact done h.doKparam
  | kid => exact done h.doKid
  | kwalk => exact done h.doKwalk
  | kiteReadReturn => exact done h.doKiteReadReturn
  | queryComplete => exact done h.doQueryComplete
  | kwait => exact done h.doKwait
  | kwaitSatisfied => exact done h.doKwaitSatisfied
  | kwaitTimeout => exact done h.doKwaitTimeout
  | ksig => exact done h.doKsig
  | kloop => exact done h.doKloop
  | kloopP => exact done h.doKloopP
  | kend => exact done h.doKend
  | kiteWatchdog => exact done h.doKiteWatchdog
  | walkerInjClear => exact done h.doWalkerInjClear
  | walkerInjKmemUe => exact done h.doWalkerInjKmemUe
  | walkerInjWatchdog => exact done h.doWalkerInjWatchdog
  | walkerInjKwait => exact done h.doWalkerInjKwait
  | walkerInjPoison => exact done h.doWalkerInjPoison
  | walkerInjStop => exact done h.doWalkerInjStop
  | unitFetchDone => exact done h.doUnitFetchDone
  | regionDeleteFinal => exact done h.doRegionDeleteFinal
  | mirrorPeerWrite => exact done h.doMirrorPeerWrite
  | mirrorPeerLost => exact done h.doMirrorPeerLost
  | parityFoldRecord => exact done h.doParityFoldRecord
  | parityFoldAck => exact done h.doParityFoldAck
  | mediumEnumerate => exact done h.doMediumEnumerate
  | logReplay => exact done h.doLogReplay
  | pageReadDone => exact done h.doPageReadDone
  | pageProgramDone => exact done h.doPageProgramDone
  | blockEraseDone => exact done h.doBlockEraseDone
  | statusTimeout => exact done h.doStatusTimeout
  | bandReclaim => exact done h.doBandReclaim
  | retraction => exact done h.doRetraction
  | retractionAck => exact done h.doRetractionAck
  | scrubRead => exact done h.doScrubRead
  | contributionArrive => exact done h.doContributionArrive
  | stripeCloseTimer => exact done h.doStripeCloseTimer
  | contributionCovered => exact done h.doContributionCovered
  | degradedRead => exact done h.doDegradedRead
  | substituteRebuild => exact done h.doSubstituteRebuild
  | medInjFlip => exact done h.doMedInjFlip
  | medInjRetry => exact done h.doMedInjRetry
  | medInjUncorr => exact done h.doMedInjUncorr
  | medInjProgFail => exact done h.doMedInjProgFail
  | medInjEraseFail => exact done h.doMedInjEraseFail
  | medInjTimeout => exact done h.doMedInjTimeout
  | haInjDropSnoopAnswer => exact done h.doHaInjDropSnoopAnswer
  | haInjDropCmpack => exact done h.doHaInjDropCmpack
  | haInjDirUe => exact done h.doHaInjDirUe
  | haInjSfUe => exact done h.doHaInjSfUe
  | haInjPoison => exact done h.doHaInjPoison
  | portDetect => exact done h.doPortDetect
  | equalizeDone => exact done h.doEqualizeDone
  | alignDone => exact done h.doAlignDone
  | configDone => exact done h.doConfigDone
  | retrainDone => exact done h.doRetrainDone
  | retrainTimeout => exact done h.doRetrainTimeout
  | trainRetryTimer => exact done h.doTrainRetryTimer
  | flitPayload => exact done h.doFlitPayload
  | flitIdle => exact done h.doFlitIdle
  | abortFlit => exact done h.doAbortFlit
  | ackTimer => exact done h.doAckTimer
  | resendTimeout => exact done h.doResendTimeout
  | cellPackTimeout => exact done h.doCellPackTimeout
  | switchCycle => exact done h.doSwitchCycle
  | epochBoundary => exact done h.doEpochBoundary
  | switchCoreReset => exact done h.doSwitchCoreReset
  | reelReadServe => exact done h.doReelReadServe
  | reelFetchDone => exact done h.doReelFetchDone
  | reelWbApply => exact done h.doReelWbApply
  | reelWbDone => exact done h.doReelWbDone
  | reelTimeout => exact done h.doReelTimeout
  | swMirrorWrite => exact done h.doSwMirrorWrite
  | fabInjCrc => exact done h.doFabInjCrc
  | fabInjBadRx => exact done h.doFabInjBadRx
  | fabInjLaneFail => exact done h.doFabInjLaneFail
  | fabInjRetrain => exact done h.doFabInjRetrain
  | fabInjDown => exact done h.doFabInjDown
  | swInjCellUe => exact done h.doSwInjCellUe
  | swInjPortDown => exact done h.doSwInjPortDown
  | swInjMirrorDrop => exact done h.doSwInjMirrorDrop
  | gwInjRemoteErr => exact done h.doGwInjRemoteErr
  | gwInjTimeout => exact done h.doGwInjTimeout
  | gwInjStageUe => exact done h.doGwInjStageUe
  | ethLinkUp => exact done h.doEthLinkUp
  | ethLinkDown => exact done h.doEthLinkDown
  | arpRequest => exact done h.doArpRequest
  | neighborSolicitation => exact done h.doNeighborSolicitation
  | icmpEcho => exact done h.doIcmpEcho
  | icmpv6Echo => exact done h.doIcmpv6Echo
  | pfcFrame => exact done h.doPfcFrame
  | otherFrameDrop => exact done h.doOtherFrameDrop
  | zctWrite => exact done h.doZctWrite
  | zctRead => exact done h.doZctRead
  | zctAck => exact done h.doZctAck
  | zctAckTimer => exact done h.doZctAckTimer
  | zctResendTimeout => exact done h.doZctResendTimeout
  | capRead => exact done h.doCapRead
  | regRead => exact done h.doRegRead
  | regWrite => exact done h.doRegWrite
  | mgmtCompose => exact done h.doMgmtCompose
  | quote => exact done h.doQuote
  | image => exact done h.doImage
  | slotWriteDone => exact done h.doSlotWriteDone
  | heartbeat => exact done h.doHeartbeat
  | heartbeatTimer => exact done h.doHeartbeatTimer
  | setAddr => exact done h.doSetAddr
  | mgmtAck => exact done h.doMgmtAck
  | mgmtResendTimeout => exact done h.doMgmtResendTimeout
  | ethInjCrc => exact done h.doEthInjCrc
  | ethInjDrop => exact done h.doEthInjDrop
  | ethInjFec => exact done h.doEthInjFec
  | ethInjLinkDown => exact done h.doEthInjLinkDown
  | errAck => exact done h.doErrAck
  | homeWarmReset => exact done h.doHomeWarmReset
  | homeColdReset => exact done h.doHomeColdReset
  | backgroundRestore => exact done h.doBackgroundRestore
  | mediumChannelReset => exact done h.doMediumChannelReset
  | kernelContextRecovery => exact done h.doKernelContextRecovery
  | engineReset => exact done h.doEngineReset
  | resetDeadline => exact done h.doResetDeadline
  | replayStart => exact done h.doReplayStart
  | frozenTimeout => exact done h.doFrozenTimeout
  | tetherSweep => exact done h.doTetherSweep
  | orphAck => exact done h.doOrphAck
  | dumpRelease => exact done h.doDumpRelease
  | wholeDeviceReset => exact done h.doWholeDeviceReset
  | recovInjCwAccess => exact done h.doRecovInjCwAccess
  | recovInjReset => exact done h.doRecovInjReset
  | recovInjNested => exact done h.doRecovInjNested
  | recovInjRip => exact done h.doRecovInjRip
  | recovInjTetherSweep => exact done h.doRecovInjTetherSweep
  | recovInjAbort => exact done h.doRecovInjAbort
  | recovInjCtrlUe => exact done h.doRecovInjCtrlUe
  | stkInjCe => exact done h.doStkInjCe
  | stkInjUe => exact done h.doStkInjUe
  | stkInjTrkUe => exact done h.doStkInjTrkUe
  | stkInjCtrUe => exact done h.doStkInjCtrUe
  | stkInjTrain => exact done h.doStkInjTrain
  | regSet => exact done h.doRegSet
  | regionSet => exact done h.doRegionSet
  | regionDelete => exact done h.doRegionDelete
  | domainSet => exact done h.doDomainSet
  | groupSet => exact done h.doGroupSet
  | hostRelease => exact done h.doHostRelease
  | lineRestore => exact done h.doLineRestore
  | masterRelease => exact done h.doMasterRelease
  | recoverRelease => exact done h.doRecoverRelease
  | unitReturn => exact done h.doUnitReturn
  | ripRelease => exact done h.doRipRelease
  | keyRevoke => exact done h.doKeyRevoke
  | headstock => exact done h.doHeadstock
  | svnAdvance => exact done h.doSvnAdvance
  | bootInjSig => exact done h.doBootInjSig
  | bootInjVerify => exact done h.doBootInjVerify
  | isoInjHost => exact done h.doIsoInjHost
  | isoInjSession => exact done h.doIsoInjSession
  | aonPgRise => exact done h.doAonPgRise
  | aonPgFall => exact done h.doAonPgFall
  | stbyPgRise => exact done h.doStbyPgRise
  | stbyPgFall => exact done h.doStbyPgFall
  | xtalStart => exact done h.doXtalStart
  | resetNPulse => exact done h.doResetNPulse
  | pllUnlock => exact done h.doPllUnlock
  | ballastTick => exact done h.doBallastTick
  | clockIdleStop => exact done h.doClockIdleStop
  | powerSample => exact done h.doPowerSample
  | pwrReqRun => exact done h.doPwrReqRun
  | pwrReqStandby => exact done h.doPwrReqStandby
  | railTimeout => exact done h.doRailTimeout
  | ballastCfgWrite => exact done h.doBallastCfgWrite
  | pmbusPoll => exact done h.doPmbusPoll
  | pwrInjHot => exact done h.doPwrInjHot
  | pwrInjPmbFail => exact done h.doPwrInjPmbFail
  | pwrInjStatusFault => exact done h.doPwrInjStatusFault
  | pwrInjTrip => exact done h.doPwrInjTrip
  | pmuFreeze => exact done h.doPmuFreeze
  | pmuUnfreeze => exact done h.doPmuUnfreeze
  | pmuSnap => exact done h.doPmuSnap
  | snapDone => exact done h.doSnapDone
  | pmcCntWrite => exact done h.doPmcCntWrite
  | tagAck => exact done h.doTagAck
  | mirAck => exact done h.doMirAck
  | tsEnFall => exact done h.doTsEnFall
  | tsSessionStart => exact done h.doTsSessionStart
  | tsStat => exact done h.doTsStat
  | tsRd => exact done h.doTsRd
  | tsWr => exact done h.doTsWr
  | tsMrd => exact done h.doTsMrd
  | tsMwr => exact done h.doTsMwr
  | tsLog => exact done h.doTsLog
  | tsAck => exact done h.doTsAck
  | tsDump => exact done h.doTsDump
  | tsInj => exact done h.doTsInj
  | tsRecoverReset => exact done h.doTsRecoverReset
  | tsRecoverBoot => exact done h.doTsRecoverBoot
  | tsLoad => exact done h.doTsLoad
  | tsEnrol => exact done h.doTsEnrol
  | extest => exact done h.doExtest
  | samplePreload => exact done h.doSamplePreload
  | idcode => exact done h.doIdcode
  | clamp => exact done h.doClamp
  | highz => exact done h.doHighz
  | bypass => exact done h.doBypass
  | resetNRise => exact done h.doResetNRise
  | mgmtLinkDown => exact done h.doMgmtLinkDown
  | mgmtLinkUp => exact done h.doMgmtLinkUp
  | stackTrainingLoss => exact done h.doStackTrainingLoss
  | controlCoreUe => exact done h.doControlCoreUe
  | releaseSweepDone => exact done h.doReleaseSweepDone
  | peerCopyDone => exact done h.doPeerCopyDone
  | frameZeroed => exact done h.doFrameZeroed

/-- Settles O3: each command keeps the queue. -/
theorem commandsLeaveQueue : Obligations.CommandsLeaveQueue := by
  intro c s
  obtain ⟨t, hexec, hkeeps⟩ := exec_keeps c s
  exact ⟨t, hexec, hkeeps.pending⟩

/-- Settles O5: an idle cycle keeps the canonical form, and so does every command, on whatever queue. -/
theorem stepKeepsCanonical : Obligations.StepKeepsCanonical := by
  intro s t hcanon hstep
  unfold step at hstep
  split at hstep
  · obtain rfl := Host.Outcome.next.inj hstep
    exact (Keeps.idle (.refl s)).canonical hcanon
  next c rest _ =>
    obtain ⟨u, hexec, hkeeps⟩ := exec_keeps c { s with pending := rest }
    obtain rfl := Host.Outcome.next.inj (hexec.symm.trans hstep)
    exact hkeeps.canonical hcanon

end Sys2Proof.Machine
end

section
/-! Chapters 03, 05, 06, 08 and 10 to 16: injection registers arm what is written (R160, R253, R316, R381, R451, R484, R556, R580, R680,
R704). -/

namespace Sys2Proof.Machine

section
variable {s : State}

/-- A write of an injection register of a fast domain arms its injection while the block is RUNNING. -/
theorem next_arms (hrun : running s = true) (off kind arg : Nat) (persist : Bool) :
    (Host.Outcome.next (whenRunning s fun s => armInj s off kind arg persist) : Host.Outcome State Fault Refusal) =
      .next (armInj s off kind arg persist) :=
  next_whenRunning hrun _

/-- A write of KIND 0 clears the persistent injections of the register. -/
theorem next_clears (hrun : running s = true) (off : Nat) :
    (Host.Outcome.next (whenRunning s fun s => clearInj s off) : Host.Outcome State Fault Refusal) = .next (clearInj s off) :=
  next_whenRunning hrun _

/-- A register of the standby domain arms its injection while that domain is up. -/
theorem next_arms_of_up (hup : s.stbyUp = true) (off kind arg : Nat) :
    (Host.Outcome.next (if s.stbyUp then armInj s off kind arg false else s) : Host.Outcome State Fault Refusal) =
      .next (armInj s off kind arg false) :=
  congrArg _ (if_pos hup)

theorem next_same_of_down (hdown : s.stbyUp = false) (off kind arg : Nat) :
    (Host.Outcome.next (if s.stbyUp then armInj s off kind arg false else s) : Host.Outcome State Fault Refusal) = .next s :=
  congrArg _ (if_neg (Bool.eq_false_iff.1 hdown))

/-- KIND 4 of a Lathe fires the watchdog of the kernel that runs on it (R316). -/
theorem exec_latheInjWatchdog (hrun : running s = true) (l : Fin 128) : exec (.latheInjWatchdog l) s =
    .next (if latheLive s l.val then latheFault s l.val 16 0 0 else armInj s (rLathe l.val 0x38) 4 0 false) :=
  next_whenRunning hrun _

end

/-- Settles O7, register by register: Lathes, loader, gouges, walkers, homes, medium channels, fabric ports, switch, gateway, stacks and
Ethernet ports of the fast domains; then boot, isolation and power of the standby domain. -/
theorem injectionsArm : Obligations.InjectionsArm := by
  intro s
  refine ⟨fun hrun => ?fast, fun hup => ?up, fun hdown => ?down⟩
  case fast =>
    have arms := next_arms hrun
    have clears := next_clears hrun
    refine ⟨fun l => clears (rLathe l.val 0x38), fun l => arms (rLathe l.val 0x38) 1 0 false, fun l => arms (rLathe l.val 0x38) 2 0 false,
      fun l => arms (rLathe l.val 0x38) 3 0 false, fun l hidle => ?idle, fun l hlive => ?live,
      fun l => arms (rLathe l.val 0x38) 5 0 false, fun l persist => arms (rLathe l.val 0x38) 6 0 persist,
      arms rLdrInj 1 0 false, arms rLdrInj 2 0 false, fun w => arms rLdrInj 3 w.val false,
      fun g => clears (rGouge g.val 0x10), fun g => arms (rGouge g.val 0x10) 1 0 false, fun g => arms (rGouge g.val 0x10) 2 0 false,
      fun g => arms (rGouge g.val 0x10) 3 0 false, fun g => arms (rGouge g.val 0x10) 4 0 false,
      fun g persist => arms (rGouge g.val 0x10) 5 0 persist,
      fun w => clears (rWalker w.val 0x10), fun w => arms (rWalker w.val 0x10) 1 0 false, fun w => arms (rWalker w.val 0x10) 2 0 false,
      fun w => arms (rWalker w.val 0x10) 3 0 false, fun w => arms (rWalker w.val 0x10) 4 0 false,
      fun w persist => arms (rWalker w.val 0x10) 5 0 persist,
      fun h host => arms (rHome h.val 0x10) 1 host.val false, fun h host => arms (rHome h.val 0x10) 2 host.val false,
      fun h => arms (rHome h.val 0x10) 3 0 false, fun h => arms (rHome h.val 0x10) 4 0 false, fun h => arms (rHome h.val 0x10) 5 0 false,
      fun c a => arms (rMedCh c.val 0x88) 1 a.toNat false, fun c a => arms (rMedCh c.val 0x88) 2 a.toNat false,
      fun c => arms (rMedCh c.val 0x88) 3 0 false, fun c => arms (rMedCh c.val 0x88) 4 0 false,
      fun c => arms (rMedCh c.val 0x88) 5 0 false, fun c => arms (rMedCh c.val 0x88) 6 0 false,
      fun p => arms (rFab p.val 0x18) 1 0 false, fun p => arms (rFab p.val 0x18) 2 0 false,
      fun p lane => arms (rFab p.val 0x18) 3 lane.val false,
      arms (rSw 0x18) 1 0 false, arms (rSw 0x18) 3 0 false,
      arms (rGw 0x10) 1 0 false, arms (rGw 0x10) 2 0 false, arms (rGw 0x10) 3 0 false,
      fun k => arms (rStk k.val 0x18) 1 0 false, fun k => arms (rStk k.val 0x18) 2 0 false,
      fun e => next_whenRunning hrun fun s => ethInj s e.val 1, fun e => next_whenRunning hrun fun s => ethInj s e.val 2⟩
    case idle => rw [exec_latheInjWatchdog hrun, hidle, if_neg Bool.false_ne_true]
    case live => rw [exec_latheInjWatchdog hrun, hlive, if_pos rfl]
  case up =>
    have arms := next_arms_of_up hup
    exact ⟨arms (rBoot 0x10) 1 0, arms (rBoot 0x10) 2 0, fun n => arms (rBoot 0x138) 1 n.val, fun n => arms (rBoot 0x138) 2 n.val,
      arms (rPwr 0x38) 1 0, arms (rPwr 0x38) 2 0, arms (rPwr 0x38) 3 0⟩
  case down =>
    have same := next_same_of_down hdown
    exact ⟨same (rBoot 0x10) 1 0, same (rBoot 0x10) 2 0, fun n => same (rBoot 0x138) 1 n.val, fun n => same (rBoot 0x138) 2 n.val,
      same (rPwr 0x38) 1 0, same (rPwr 0x38) 2 0, same (rPwr 0x38) 3 0⟩

end Sys2Proof.Machine
end

section
/-! Chapter 06: what a slot of a Lathe does when it faults or its bundle stalls (R267, R274), and the S slot (R273 to R280, R307). -/

namespace Sys2Proof.Machine

section
variable {s : State} {l : Fin 128}

/-- A slot of a Lathe that issues raises the fault that its instruction meets. -/
theorem slot_fault_of_ready (hready : SlotReady s l) (no : Nat) (reads last : Bool) {f : Lathe → State → Slot} {c a : Nat} {t : State}
    (hfault : f (latheAt s l.val) s = .fault c a t) : slot l no reads last s f = latheFault t l.val c no a := by
  obtain ⟨hrun, hstate, hstopped, hcommit, hcode, hstall, hissues, hinj⟩ := hready
  have hbundle : (!(latheAt s l.val).mid && bundleStalls s l.val) = false := by
    rcases hissues with h | h <;> simp [h]
  have hplace : ¬ (latheAt s l.val).ncode ≤ lathePc s l.val := not_le.2 hcode
  simp only [slot, whenRunning_of_running hrun, hstate, hstopped, hcommit, hplace, hstall, hbundle, takeInj_of_none_armed hinj, hfault,
    ite_self, beq_self_eq_true, Bool.true_or, Bool.not_true, Bool.false_and, Bool.or_false, decide_false, Option.any_none,
    Bool.false_eq_true, if_false]

/-- R267: a bundle of which a slot cannot issue stalls whole, at the slot that is given first. -/
theorem slot_of_bundle_stalled (hrun : running s = true) (hstate : latheState s l.val = 2) (hstopped : (latheAt s l.val).stopped = false)
    (hcommit : (latheAt s l.val).commit = false) (hcode : lathePc s l.val < (latheAt s l.val).ncode)
    (hstall : (latheAt s l.val).stall = none) (hmid : (latheAt s l.val).mid = false) (hbundle : bundleStalls s l.val = true)
    (no : Nat) (reads last : Bool) (f : Lathe → State → Slot) :
    slot l no reads last s f = putLathe s l.val { latheAt s l.val with stall := some no } := by
  have hplace : ¬ (latheAt s l.val).ncode ≤ lathePc s l.val := not_le.2 hcode
  simp only [slot, whenRunning_of_running hrun, hstate, hstopped, hcommit, hplace, hstall, hmid, hbundle, beq_self_eq_true, Bool.true_or,
    Bool.not_true, Bool.not_false, Bool.or_false, Bool.and_true, decide_false, Option.any_none, Bool.false_eq_true, if_false, if_true]

section
variable (hready : SlotReady s l)
include hready

/-- The outcome of an instruction is what its slot does. -/
theorem next_slot_of_ready (no : Nat) (reads last : Bool) {f : Lathe → State → Slot} {t : State} (hok : f (latheAt s l.val) s = .ok t) :
    (Host.Outcome.next (slot l no reads last s f) : Host.Outcome State Fault Refusal) = .next (slotEnd t l no last) :=
  congrArg _ (slot_of_ready hready no reads last hok)

theorem next_slot_fault_of_ready (no : Nat) (reads last : Bool) {f : Lathe → State → Slot} {c a : Nat} {t : State}
    (hfault : f (latheAt s l.val) s = .fault c a t) :
    (Host.Outcome.next (slot l no reads last s f) : Host.Outcome State Fault Refusal) = .next (latheFault t l.val c no a) :=
  congrArg _ (slot_fault_of_ready hready no reads last hfault)

/-! ## The S slot -/

theorem sOp_of_ready (sd sa sb : BitVec 5) (last : Bool) (f : Word → Word → Word) : sOp l sd sa sb last f s =
    slotEnd (stage s l.val (.sreg sd.toNat (f (sGet (latheAt s l.val) sa) (sGet (latheAt s l.val) sb)))) l 0 last :=
  slot_of_ready hready 0 true last rfl

theorem sImm_of_ready (sd : BitVec 5) (reads last : Bool) (f : Lathe → State → Word) : sImm l sd reads last f s =
    slotEnd (stage s l.val (.sreg sd.toNat (f (latheAt s l.val) s))) l 0 last :=
  slot_of_ready hready 0 reads last rfl

/-- Each register instruction of the S slot stages the value of the table of R273. -/
theorem exec_sValue (last : Bool) (sd sa sb : BitVec 5) (imm : BitVec 16) (imm14 : BitVec 14) (p : BitVec 8) (ad : BitVec 4) :
    ∀ e ∈ sValue s l last sd sa sb imm imm14 p ad, exec e.1 s = .next (slotEnd (stage s l.val (.sreg sd.toNat e.2)) l 0 last) := by
  have op (f) := congrArg (Host.Outcome.next (φ := Fault) (ρ := Refusal)) (sOp_of_ready hready sd sa sb last f)
  have value (reads f) := congrArg (Host.Outcome.next (φ := Fault) (ρ := Refusal)) (sImm_of_ready hready sd reads last f)
  simp only [sValue, List.forall_mem_cons]
  exact ⟨value _ _, value _ _, op _, op _, op _, op _, op _, op _, op _, op _, op _, value _ _, op _, op _, value _ _, value _ _,
    List.forall_mem_nil _⟩

theorem exec_sid_of_lt (sd : BitVec 5) {k : BitVec 4} (last : Bool) (hk : k.toNat < 8) : exec (.sid l sd k last) s =
    .next (slotEnd (stage s l.val (.sreg sd.toNat (BitVec.ofNat 64 (idItem (latheAt s l.val) s l.val k.toNat)))) l 0 last) :=
  next_slot_of_ready hready 0 false last (if_neg (Nat.not_le.2 hk))

theorem exec_sid_of_ge (sd : BitVec 5) {k : BitVec 4} (last : Bool) (hk : 8 ≤ k.toNat) :
    exec (.sid l sd k last) s = .next (latheFault s l.val 1 0 0) :=
  next_slot_fault_of_ready hready 0 false last (if_pos hk)

theorem exec_aset_of_lt (ad : BitVec 4) {f : BitVec 4} (sa : BitVec 5) (last : Bool) (hf : f.toNat < 11) : exec (.aset l ad f sa last) s =
    .next (slotEnd (stage s l.val (.agen ad.toNat f.toNat (sGet (latheAt s l.val) sa))) l 0 last) :=
  next_slot_of_ready hready 0 true last (if_neg (Nat.not_le.2 hf))

theorem exec_aset_of_ge (ad : BitVec 4) {f : BitVec 4} (sa : BitVec 5) (last : Bool) (hf : 11 ≤ f.toNat) :
    exec (.aset l ad f sa last) s = .next (latheFault s l.val 1 0 0) :=
  next_slot_fault_of_ready hready 0 true last (if_pos hf)

end

end

/-- Settles O9: a slot that issues stages what its row says; a slot of a bundle that stalls is marked. -/
theorem scalarSlotStagesItsResult : Obligations.ScalarSlotStagesItsResult := by
  refine ⟨fun s l last hready => ⟨exec_sValue hready last, fun sd k hk => exec_sid_of_lt hready sd last hk, ?loop, ?loopP,
    fun ad f sa hf => exec_aset_of_lt hready ad sa last hf, ?commit, ?nop⟩, ?stalls⟩
  case loop => exact fun len1 n1 => next_slot_of_ready hready 0 false last rfl
  case loopP => exact fun len1 p => next_slot_of_ready hready 0 false last rfl
  case commit => exact next_slot_of_ready hready 0 false last rfl
  case nop => exact next_slot_of_ready hready 0 false last rfl
  case stalls =>
    intro s l last hrun hstate hstopped hcommit hcode hstall hmid hbundle u hu
    subst hu
    have hstalled := slot_of_bundle_stalled hrun hstate hstopped hcommit hcode hstall hmid hbundle
    refine ⟨congrArg _ (hstalled 0 false last _), fun vs ag => congrArg _ (hstalled 1 true last _),
      fun td => congrArg _ (hstalled 2 false last _), fun vd va => congrArg Host.Outcome.next ?_⟩
    rw [doVabs, vMap1, vSlot]
    exact hstalled 3 true last _

end Sys2Proof.Machine
end

section
/-! Chapter 06: the V slot (R305, R306). -/

namespace Sys2Proof.Machine

section
variable {s : State} {l : Fin 128} (hready : SlotReady s l) (last : Bool)
include hready

/-- An operand that a V slot instruction does not define is ILLEGAL (R274). -/
theorem vSlot_fault_of_ready {regs : List (BitVec 5)} (hregs : regs.any (vPending (latheAt s l.val)) = false)
    {f : Lathe → Option Stage} (hnone : f (latheAt s l.val) = none) : vSlot l regs last s f = latheFault s l.val 1 3 0 :=
  slot_fault_of_ready hready 3 true last (by simp only [hregs, hnone, Bool.false_eq_true, if_false])

section
variable {vd va vb vc : BitVec 5}

theorem vMap1_of_ready (hregs : [vd, va].any (vPending (latheAt s l.val)) = false) (f : Nat → Nat) : vMap1 l vd va last f s =
    slotEnd (stage s l.val (.vreg vd.toNat (ofLanes ((lanes (vGet (latheAt s l.val) va)).map f)))) l 3 last :=
  vSlot_of_ready hready hregs last rfl

theorem vMap2_of_ready (hregs : [vd, va, vb].any (vPending (latheAt s l.val)) = false) (f : Nat → Nat → Nat) : vMap2 l vd va vb last f s =
    slotEnd (stage s l.val (.vreg vd.toNat
      (ofLanes (List.zipWith f (lanes (vGet (latheAt s l.val) va)) (lanes (vGet (latheAt s l.val) vb)))))) l 3 last :=
  vSlot_of_ready hready hregs last rfl

theorem vMap3_of_ready (hregs : [vd, va, vb, vc].any (vPending (latheAt s l.val)) = false) (f : Nat → Nat → Nat → Nat) :
    vMap3 l vd va vb vc last f s = slotEnd (stage s l.val (.vreg vd.toNat (ofLanes ((List.range 256).map (fun i =>
      f (lane (vGet (latheAt s l.val) va) i) (lane (vGet (latheAt s l.val) vb) i) (lane (vGet (latheAt s l.val) vc) i)))))) l 3 last :=
  vSlot_of_ready hready hregs last rfl

end

theorem next_vSlot_of_ready {regs : List (BitVec 5)} (hregs : regs.any (vPending (latheAt s l.val)) = false) {f : Lathe → Option Stage}
    {w : Stage} (hw : f (latheAt s l.val) = some w) :
    (Host.Outcome.next (vSlot l regs last s f) : Host.Outcome State Fault Refusal) = .next (slotEnd (stage s l.val w) l 3 last) :=
  congrArg _ (vSlot_of_ready hready hregs last hw)

/-- Each lane-wise instruction, and each sum or maximum over the lanes, stages its row's lanes. -/
theorem exec_vValue (vd va vb vc : BitVec 5) : ∀ e ∈ vValue (latheAt s l.val) l last vd va vb vc,
    e.2.1.any (vPending (latheAt s l.val)) = false →
      exec e.1 s = .next (slotEnd (stage s l.val (.vreg vd.toNat (ofLanes e.2.2))) l 3 last) := by
  have one (f) (h : [vd, va].any (vPending (latheAt s l.val)) = false) :=
    congrArg (Host.Outcome.next (φ := Fault) (ρ := Refusal)) (vMap1_of_ready hready last h f)
  have two (f) (h : [vd, va, vb].any (vPending (latheAt s l.val)) = false) :=
    congrArg (Host.Outcome.next (φ := Fault) (ρ := Refusal)) (vMap2_of_ready hready last h f)
  have three (f) (h : [vd, va, vb, vc].any (vPending (latheAt s l.val)) = false) :=
    congrArg (Host.Outcome.next (φ := Fault) (ρ := Refusal)) (vMap3_of_ready hready last h f)
  simp only [vValue, List.forall_mem_cons]
  exact ⟨two _, two _, two _, two _, two _, three _, three _, one _, one _, one _, one _, one _, one _, one _, one _, one _, one _,
    fun h => next_vSlot_of_ready hready last h rfl, fun h => next_vSlot_of_ready hready last h rfl, List.forall_mem_nil _⟩

end

/-- Settles O14: no register that a row names awaits a tread, so that its slot stages the lanes of its row. -/
theorem vectorSlotStagesItsResult : Obligations.VectorSlotStagesItsResult := by
  intro s l last hready
  refine ⟨exec_vValue hready last, fun vd va vb hregs => ?_⟩
  obtain ⟨hd, ha, hb⟩ : vPending (latheAt s l.val) vd = false ∧ vPending (latheAt s l.val) va = false ∧
    vPending (latheAt s l.val) vb = false := by simpa using hregs
  have hdest : [vd].any (vPending (latheAt s l.val)) = false := by simp [hd]
  have hsrc : [va].any (vPending (latheAt s l.val)) = false := by simp [ha]
  have hboth : [vd, va].any (vPending (latheAt s l.val)) = false := by simp [hd, ha]
  refine ⟨fun mod hmod => next_vSlot_of_ready hready last hregs (if_neg (Nat.not_le.2 hmod)), fun a rest hlanes => ?scan,
    fun sd => exec_vargmax_of_ready hready last sd ha, fun sd => next_vSlot_of_ready hready last (by simp [ha, hb]) rfl,
    fun sa => next_vSlot_of_ready hready last hdest rfl, fun sd idx => next_vSlot_of_ready hready last hsrc rfl,
    fun n => next_vSlot_of_ready hready last hboth rfl, fun part mod hfmt hpart => ?convert,
    fun sa sb => next_vSlot_of_ready hready last hdest rfl⟩
  case scan =>
    rw [exec_vscan_of_ready hready last hd ha, hlanes]
    rfl
  case convert =>
    have hdefined : ¬ (!cvtFmt mod.toNat ∨ 32 / fmtBits mod.toNat ≤ part.toNat) := by simp [hfmt, hpart]
    exact ⟨⟨_, rfl, next_vSlot_of_ready hready last hboth (if_neg hdefined)⟩, next_vSlot_of_ready hready last hboth (if_neg hdefined)⟩

end Sys2Proof.Machine
end

section
/-! Chapter 06: the T slot (R298 to R304), and what a Lathe refuses (R274, R279, R309, R314). -/

namespace Sys2Proof.Machine

section
variable {s : State} {l : Fin 128} (last : Bool)

/-- Each tmma instruction is the tmma of its code of operand formats (R299). -/
theorem exec_tmmaOps (td : BitVec 3) (aA aB : BitVec 4) (kb : BitVec 10) (acc : Bool) (shape : BitVec 2) :
    ∀ e ∈ tmmaOps l td aA aB kb acc shape last, exec e.2 s = .next (tmma l e.1 td aA aB kb acc shape last s) := by
  simp only [tmmaOps, List.forall_mem_cons]
  exact ⟨rfl, rfl, rfl, rfl, rfl, rfl, rfl, rfl, rfl, rfl, rfl, rfl, rfl, rfl, rfl, List.forall_mem_nil _⟩

section
variable (hready : SlotReady s l)
include hready

theorem tmma_of_shape_three (op : Nat) (td : BitVec 3) (aA aB : BitVec 4) (kb : BitVec 10) (acc : Bool) :
    tmma l op td aA aB kb acc 3 last s = latheFault s l.val 1 2 0 :=
  slot_fault_of_ready hready 2 true last (if_pos rfl)

section
variable {op : Nat} {td : BitVec 3} {aA aB : BitVec 4} {kb : BitVec 10} {acc : Bool} {shape : BitVec 2} {k : Kernel} {t : Tmma}
  (hkern : latheKernel s l.val = some k) (hshape : shape ≠ 3) (hroom : (latheAt s l.val).tq.length < 4)
  (ht : t = tmmaEntry (latheAt s l.val) op td aA aB kb acc shape (lathePc s l.val)) (hplaced : t.fault l.val = none)
include hkern hshape hroom ht hplaced

/-- R302: in an empty queue a tmma starts, and has read its operands. -/
theorem tmma_of_empty {t' : Tmma} {u : State} (hempty : (latheAt s l.val).tq = []) (hread : readTmma s k t = .inl (t', u)) :
    tmma l op td aA aB kb acc shape last s = slotEnd (tmmaQueued u l.val k aA aB t') l 2 last :=
  slot_of_ready hready 2 true last (by
    simp only [hshape, Nat.not_le.2 hroom, hkern, ← ht, hplaced, if_false]
    simp only [hempty, hread, if_true])

/-- R302: behind other entries it waits for its turn to read them. -/
theorem tmma_of_waiting (hwait : (latheAt s l.val).tq ≠ []) :
    tmma l op td aA aB kb acc shape last s = slotEnd (tmmaQueued s l.val k aA aB t) l 2 last :=
  slot_of_ready hready 2 true last (by simp only [hshape, Nat.not_le.2 hroom, hkern, ← ht, hplaced, hwait, if_false])

end

end

end

/-! ## What acts on a tile (R303) -/

section
variable {s : State} {l : Nat} {e : TqEnt} {now : Lathe → Lathe}

theorem tensorOp_of_empty (hempty : (latheAt s l).tq = []) : tensorOp s l e now = .ok (putLathe s l (now (latheAt s l))) := if_pos hempty

theorem tensorOp_of_waiting (hwait : (latheAt s l).tq ≠ []) (hroom : (latheAt s l).tq.length < 4) :
    tensorOp s l e now = .ok (putLathe s l { latheAt s l with tqNew := true, tq := (latheAt s l).tq ++ [e] }) :=
  (if_neg hwait).trans (if_neg (Nat.not_le.2 hroom))

@[simp] theorem latheAt_putLathe_self (s : State) (l : Nat) (x : Lathe) : latheAt (putLathe s l x) l = x :=
  Sparse.get_set_self _ _ _ _

/-- A staged write leaves the tensor queue as it is. -/
theorem tq_latheAt_stage (s : State) (l : Nat) (w : Stage) : (latheAt (stage s l w) l).tq = (latheAt s l).tq := by
  rw [stage, latheAt_putLathe_self]

end

section
variable {s : State} {l : Fin 128} (hready : SlotReady s l) (last : Bool) (td : BitVec 3) {vr : BitVec 5} {part : BitVec 4}
  (hpart : part.toNat < 10) (hvr : vPending (latheAt s l.val) vr = false)
include hready

theorem exec_tzero_of_empty (hempty : (latheAt s l.val).tq = []) :
    exec (.tzero l td last) s = .next (slotEnd (putLathe s l.val (setTile (latheAt s l.val) td.toNat 0)) l 2 last) :=
  next_slot_of_ready hready 2 false last (tensorOp_of_empty hempty)

theorem exec_tread_of_part (vr : BitVec 5) (hpart : 10 ≤ part.toNat) :
    exec (.tread l vr td part last) s = .next (latheFault s l.val 1 2 0) :=
  next_slot_fault_of_ready hready 2 true last (if_pos hpart)

theorem exec_tload_of_part (vr : BitVec 5) (hpart : 10 ≤ part.toNat) :
    exec (.tload l td vr part last) s = .next (latheFault s l.val 1 2 0) :=
  next_slot_fault_of_ready hready 2 true last (if_pos hpart)

section
include hpart hvr

theorem exec_tread_of_empty (hempty : (latheAt s l.val).tq = []) : exec (.tread l vr td part last) s =
    .next (slotEnd (stage s l.val (.vreg vr.toNat (tilePart (tGet (latheAt s l.val) td) part.toNat))) l 2 last) :=
  next_slot_of_ready hready 2 true last (by simp only [Nat.not_le.2 hpart, hvr, hempty, Bool.false_eq_true, if_false, if_true])

theorem exec_tread_of_waiting {u : State} (hu : u = stage s l.val (.mark vr.toNat)) (hwait : (latheAt s l.val).tq ≠ [])
    (hroom : (latheAt s l.val).tq.length < 4) : exec (.tread l vr td part last) s = .next (slotEnd (putLathe u l.val { latheAt u l.val with
      tqNew := true, tq := (latheAt u l.val).tq ++ [.tread vr.toNat td.toNat part.toNat] }) l 2 last) := by
  have hqueue : (latheAt u l.val).tq = (latheAt s l.val).tq := by rw [hu, tq_latheAt_stage]
  refine next_slot_of_ready hready 2 true last ?_
  simp only [Nat.not_le.2 hpart, hvr, hwait, Bool.false_eq_true, if_false, ← hu]
  exact tensorOp_of_waiting (hqueue ▸ hwait) (hqueue ▸ hroom)

/-- A tload that nothing refuses acts as the tensor queue lets it. -/
theorem exec_tload_of_op {t : State} (hop : tensorOp s l.val (.tload td.toNat part.toNat (vGet (latheAt s l.val) vr))
    (fun x => runTq x (.tload td.toNat part.toNat (vGet x vr))) = .ok t) :
    exec (.tload l td vr part last) s = .next (slotEnd t l 2 last) :=
  next_slot_of_ready hready 2 true last (by simp only [Nat.not_le.2 hpart, hvr, hop, Bool.false_eq_true, if_false])

end

end

/-! ## The head of the queue (R302) -/

theorem exec_tmmaWriteback_of_tmma {s : State} {l : Fin 128} {e : TqEnt} {rest : List TqEnt} (hrun : running s = true)
    (hstate : latheState s l.val = 2) (hhead : (latheAt s l.val).tq = e :: rest) (htmma : e.isTmma = true) {y : Lathe}
    (hy : y = drainTq 4 (runTq { latheAt s l.val with tq := rest } e)) :
    exec (.tmmaWriteback l) s = .next (startTq (tagEnded (putLathe s l.val y) l.val (rest.length + 1 - y.tq.length)
      (((kernelOf s (latheAt s l.val).win).map (fun k => k.dom)).getD 0)) l.val 0) := by
  refine (next_whenRunning hrun _).trans (congrArg _ ?_)
  subst hy
  simp only [hstate, hhead, htmma, List.length_cons]
  rfl

/-- Settles O13: what enters the queue, what acts on a tile, and what leaves the queue's head. -/
theorem tensorSlot : Obligations.TensorSlot := by
  refine ⟨?queue, ?tiles, fun s l e rest hrun hstate hhead htmma => ⟨_, rfl, exec_tmmaWriteback_of_tmma hrun hstate hhead htmma rfl⟩⟩
  case queue =>
    intro s l last k td aA aB kb acc shape hready hkern hshape hroom e he t ht hplaced
    rw [exec_tmmaOps last td aA aB kb acc shape e he]
    exact ⟨fun t' u hempty hread => congrArg _ (tmma_of_empty last hready hkern hshape hroom ht hplaced hempty hread),
      fun hwait => congrArg _ (tmma_of_waiting last hready hkern hshape hroom ht hplaced hwait)⟩
  case tiles =>
    intro s l last td vr part hready hpart hvr
    refine ⟨fun hempty => ⟨exec_tzero_of_empty hready last td hempty, exec_tread_of_empty hready last td hpart hvr hempty,
        exec_tload_of_op hready last td hpart hvr (tensorOp_of_empty hempty)⟩,
      fun hwait hroom => ⟨next_slot_of_ready hready 2 false last (tensorOp_of_waiting hwait hroom),
        exec_tload_of_op hready last td hpart hvr (tensorOp_of_waiting hwait hroom),
        fun u hu => exec_tread_of_waiting hready last td hpart hvr hu hwait hroom⟩⟩

/-! ## What a Lathe refuses -/

theorem exec_nocommitFault_of_past {s : State} {l : Fin 128} (hrun : running s = true) (hstate : latheState s l.val = 2)
    (hpast : (latheAt s l.val).ncode ≤ lathePc s l.val) (hstopped : (latheAt s l.val).stopped = false) :
    exec (.nocommitFault l) s = .next (latheFault s l.val 3 0 0) :=
  (next_whenRunning hrun _).trans (congrArg _ (if_pos ⟨hstate, hpast, by simp [hstopped]⟩))

/-- Settles O10: each slot refuses its undefined operand. -/
theorem illegalOperandsFault : Obligations.IllegalOperandsFault := by
  refine ⟨fun s l last hready => ⟨?bundle, fun sd k hk => exec_sid_of_ge hready sd last hk,
    fun ad f sa hf => exec_aset_of_ge hready ad sa last hf,
    fun vd ts part hpart => exec_tread_of_part hready last ts vd hpart, fun td vs part hpart => exec_tload_of_part hready last td vs hpart,
    ?shape, ?compare⟩, fun s l hrun hstate hpast hstopped => exec_nocommitFault_of_past hrun hstate hpast hstopped⟩
  case bundle => exact fun no => next_slot_fault_of_ready hready no.val false false rfl
  case shape =>
    intro td aA aB kb acc e he
    rw [exec_tmmaOps last td aA aB kb acc 3 e he, tmma_of_shape_three last hready]
  case compare => exact fun vd va vb mod hmod hregs => congrArg _ (vSlot_fault_of_ready hready last hregs (if_pos hmod))

end Sys2Proof.Machine
end

section
/-! Chapter 06: loads and stores of the M slot (R281 to R283). -/

namespace Sys2Proof.Machine

section
variable {s : State} {l c x : Nat} {ag : BitVec 4} {k : Kernel}

/-- An access whose pointer is aligned and whose bytes lie in the Chuck is performed, with the generator advanced. -/
theorem chuckAccess_of_inside {n align : Nat} (hkern : latheKernel (useGen s l ag).2 l = some k)
    (haddr : chuckAddr (useGen s l ag).1 = (c, x)) (halign : (useGen s l ag).1.toNat % align = 0) (hinside : x + n ≤ 6 * 2 ^ 20)
    (f : State → Kernel → Nat → Nat → Slot) : chuckAccess l n ag align s f = f (useGen s l ag).2 k c x := by
  rcases hgen : useGen s l ag with ⟨p, u⟩
  simp only [hgen] at hkern haddr halign
  simp only [chuckAccess, hgen, halign, haddr, hkern, Nat.not_lt.2 hinside, ne_eq, not_true_eq_false, if_false]

end

/-- Settles O11: each access is performed at the generator's pointer, and its result is the slot's. -/
theorem chuckLoadsAndStores : Obligations.ChuckLoadsAndStores := by
  intro s l last ag k c x hready hkern haddr
  refine ⟨fun vd ds t hvd halign hinside hread => ?mload, fun vs t hvs halign hinside hwrite => ?mstore,
    fun sd d t halign hinside hread => ?sld, fun sa halign hinside harea hreplica hruns => ?sst⟩
  case mload =>
    refine next_slot_of_ready hready 1 true last ?_
    simp only [hvd, Bool.false_eq_true, if_false, chuckAccess_of_inside hkern haddr halign hinside, hread, KAcc.slot]
  case mstore =>
    refine next_slot_of_ready hready 1 true last ?_
    simp only [hvs, Bool.false_eq_true, if_false, chuckAccess_of_inside hkern haddr halign hinside, hwrite, KAcc.slot]
  case sld =>
    refine next_slot_of_ready hready 1 true last ?_
    simp only [chuckAccess_of_inside hkern haddr halign hinside, hread, KAcc.slot]
  case sst =>
    refine next_slot_of_ready hready 1 true last ?_
    simp only [chuckAccess_of_inside hkern haddr halign hinside, hreplica, harea, hruns, Option.isSome_none, Bool.true_or,
      Bool.false_eq_true, if_false, if_true]

end Sys2Proof.Machine
end

section
/-! Chapter 06: a Lathe's own events (R307, R312, R313). -/

namespace Sys2Proof.Machine

/-- Settles O15: each event acts on a Lathe that its condition admits. -/
theorem latheEventsAct : Obligations.LatheEventsAct := by
  intro s l hrun
  refine ⟨fun k hstate htq hspool hwait hkern => ?done, fun hlive => ?watchdog, fun hserve => ?reset⟩
  case done =>
    have hquiet : ¬ (latheState s l.val ≠ 4 ∨ (latheAt s l.val).tq ≠ [] ∨ (latheAt s l.val).spool ≠ [] ∨
        (latheAt s l.val).wait ≠ .none) := by
      simp [hstate, htq, hspool, hwait]
    refine (next_whenRunning hrun _).trans (congrArg _ ((if_neg hquiet).trans ?_))
    rw [hkern]
  case watchdog => exact (next_whenRunning hrun _).trans (congrArg _ (if_pos hlive))
  case reset => exact (next_whenRunning hrun _).trans (congrArg _ (if_neg (by simp [hserve])))

end Sys2Proof.Machine
end

section
/-! Chapters 02, 06 and 08: spools move the bytes of their descriptors in order of issue (R71, R291, R347). -/

namespace Sys2Proof.Machine

section
variable {s t : State} {n : Nat} {ext : Ext} {p : SpoolPos}

/-! ## A Lathe's spool -/

section
variable {l j : Nat} {kern : Kernel} {e : SpoolEnt} (hkern : latheKernel s l = some kern) (he : (latheAt s l).spool[j]? = some e)
include hkern he

theorem moveEntry_of_early (hturn : spoolTurn ((latheAt s l).spool.map (fun e => (e.words, e.pos))) j = false) :
    moveEntry s l j n ext = (false, s) := by
  simp only [moveEntry, hkern, he, hturn, Bool.not_false, if_true]

section
variable {d : Desc} (hd : d = Desc.ofWords e.words) (hturn : spoolTurn ((latheAt s l).spool.map (fun e => (e.words, e.pos))) j = true)
include hd hturn

theorem moveEntry_of_moved
    (hmove : spoolMove s (spoolEngine s kern d) true d ext e.pos (min n (e.pos.due d)) = (p, .ok () t)) : moveEntry s l j n ext =
      (p.due d == 0, putLathe t l { latheAt t l with spool := (latheAt t l).spool.set j { e with pos := p } }) := by
  simp only [moveEntry, hkern, he, hturn, ← hd, hmove, Bool.not_true, Bool.false_eq_true, if_false]

theorem moveEntry_of_wait
    (hmove : spoolMove s (spoolEngine s kern d) true d ext e.pos (min n (e.pos.due d)) = (p, .wait t)) : moveEntry s l j n ext =
      (false, putLathe t l { latheAt t l with spool := (latheAt t l).spool.set j { e with pos := p } }) := by
  simp only [moveEntry, hkern, he, hturn, ← hd, hmove, Bool.not_true, Bool.false_eq_true, if_false]

theorem moveEntry_of_fault {c a : Nat}
    (hmove : spoolMove s (spoolEngine s kern d) true d ext e.pos (min n (e.pos.due d)) = (p, .fault c a t)) :
    moveEntry s l j n ext = (false, latheFaultAt t l c 1 e.pc a) := by
  simp only [moveEntry, hkern, he, hturn, ← hd, hmove, Bool.not_true, Bool.false_eq_true, if_false]

end

end

/-! ## A home-side spool -/

section
variable {sp j : Nat} {kern : Kernel} {h : HSpool} {d : Desc} (he : (hspoolQueue s sp)[j]? = some (kern, h)) (hd : d = Desc.ofWords h.desc)
  (hturn : spoolTurn ((hspoolQueue s sp).map (fun e => (e.2.desc, e.2.pos))) j = true)
include he hd hturn

theorem moveHome_of_refused (hok : d.ok s = false) : moveHome s sp j n ext = (false, homeSpoolFault s sp kern.win 7 h.entry) := by
  simp only [moveHome, he, hturn, ← hd, hok, Bool.not_true, Bool.not_false, Bool.false_eq_true, if_false, if_true]

theorem moveHome_of_moved {x : Kernel} (hok : d.ok s = true)
    (hmove : spoolMove s (spoolEngine s (kern.at (18 + sp)) d) false d ext h.pos (min n (h.pos.due d)) = (p, .ok () t))
    (hx : kernelOf t kern.win = some x) : moveHome s sp j n ext =
      (p.due d == 0, putKernel t { x with hspool := x.hspool.map (fun y => if y = h then { h with pos := p } else y) }) := by
  simp only [moveHome, he, hturn, ← hd, hok, hmove, hx, Bool.not_true, Bool.false_eq_true, if_false]

theorem moveHome_of_fault {c a : Nat} (hok : d.ok s = true)
    (hmove : spoolMove s (spoolEngine s (kern.at (18 + sp)) d) false d ext h.pos (min n (h.pos.due d)) = (p, .fault c a t)) :
    moveHome s sp j n ext = (false, homeSpoolFault t sp kern.win c a) := by
  simp only [moveHome, he, hturn, ← hd, hok, hmove, Bool.not_true, Bool.false_eq_true, if_false]

end

end

/-! ## The command -/

section
variable {s r t : State} {sp : Fin 136} {k : Fin 64} {ext : List FarLine} {b : Bool} (hrun : running s = true)
include hrun

section
variable (hlathe : sp.val < 128) (hr : r = forEach (List.range k.val) s (fun s j => (moveEntry s sp.val j allLines ext).2))
  (hmove : moveEntry r sp.val k.val allLines ext = (b, t))
include hlathe hr hmove

theorem exec_spoolDescDone_of_lathe_left (hb : b = false) : exec (.spoolDescDone sp k ext) s = .next t := by
  refine (next_whenRunning hrun _).trans (congrArg _ ?_)
  simp only [hlathe, if_true, ← hr, hmove, hb]

theorem exec_spoolDescDone_of_lathe_moved {kern : Kernel} {e : SpoolEnt} (hb : b = true) (hkern : latheKernel t sp.val = some kern)
    (he : (latheAt t sp.val).spool[k.val]? = some e) : exec (.spoolDescDone sp k ext) s =
      .next (spoolDone (putLathe t sp.val { latheAt t sp.val with spool := (latheAt t sp.val).spool.eraseIdx k.val }) (some sp.val) kern
        (Desc.ofWords e.words)) := by
  refine (next_whenRunning hrun _).trans (congrArg _ ?_)
  simp only [hlathe, if_true, ← hr, hmove, hb, hkern, he]

end

section
variable (hhome : 128 ≤ sp.val) (hr : r = forEach (List.range k.val) s (fun s j => (moveHome s (sp.val - 128) j allLines ext).2))
  (hmove : moveHome r (sp.val - 128) k.val allLines ext = (b, t))
include hhome hr hmove

theorem exec_spoolDescDone_of_home_left (hb : b = false) : exec (.spoolDescDone sp k ext) s = .next t := by
  refine (next_whenRunning hrun _).trans (congrArg _ ?_)
  simp only [Nat.not_lt.2 hhome, if_false, ← hr, hmove, hb]

theorem exec_spoolDescDone_of_home_moved {kern x : Kernel} {h : HSpool} (hb : b = true)
    (he : (hspoolQueue t (sp.val - 128))[k.val]? = some (kern, h)) (hx : kernelOf t kern.win = some x) :
    exec (.spoolDescDone sp k ext) s =
      .next (spoolDone (putKernel t { x with hspool := x.hspool.erase h }) none kern (Desc.ofWords h.desc)) := by
  refine (next_whenRunning hrun _).trans (congrArg _ ?_)
  simp only [Nat.not_lt.2 hhome, if_false, ← hr, hmove, hb, he, hx]

end

end

/-- R71: a line of a plain copy is read at its own offset in the source and written at that offset in the destination. -/
theorem spoolMove_line_of_plainCopy {s t u : State} {k : Kernel} {lathe : Bool} {d : Desc} {ext : Ext} {j : Nat} {v : LineData}
    (hop : d.op = 0) (hplain : d.plainCopy = true) (hj : j < d.srcBytes / 64)
    (hread : kRead s k lathe (d.src + 64 * j) (ext.at (d.src + 64 * j)) = .ok v t)
    (hwrite : kWrite ctlLine t k (d.dst + 64 * j) v = .ok () u) :
    spoolMove s k lathe d ext { moved := j, src := [], left := none } 1 = ({ moved := j + 1, src := [], left := none }, .ok () u) := by
  have hfill : spoolFill s k lathe d ext { moved := j, src := [], left := none } =
      ({ moved := j, src := [v], left := none }, .ok () t) := by
    simp [spoolFill, hplain, hj, hop, spoolRead, hread]
  have hput : spoolWrite t k d { moved := j, src := [v], left := none } =
      ({ moved := j + 1, src := [], left := none }, .ok () u) := by
    simp [spoolWrite, spoolValue, hop, hplain, hwrite]
  simp [spoolMove, hfill, hput]

/-- Settles O25: the command and one descriptor's move, of a Lathe's spool and of a home-side one, and one line of a plain copy. -/
theorem spoolDescriptorsComplete : Obligations.SpoolDescriptorsComplete := by
  refine ⟨fun s r t sp k ext b hrun hlathe hr hmove => ⟨exec_spoolDescDone_of_lathe_left hrun hlathe hr hmove,
      fun kern e hb hkern he => exec_spoolDescDone_of_lathe_moved hrun hlathe hr hmove hb hkern he⟩,
    fun s t l j n ext kern e d p hkern he hd => ⟨moveEntry_of_early hkern he, fun hturn => ⟨moveEntry_of_moved hkern he hd hturn,
      moveEntry_of_wait hkern he hd hturn, fun c a => moveEntry_of_fault hkern he hd hturn⟩⟩,
    fun s r t sp k ext b hrun hhome hr hmove => ⟨exec_spoolDescDone_of_home_left hrun hhome hr hmove,
      fun kern h x hb he hx => exec_spoolDescDone_of_home_moved hrun hhome hr hmove hb he hx⟩,
    fun s t sp j n ext kern h d p he hd hturn => ⟨moveHome_of_refused he hd hturn, fun hok =>
      ⟨fun x hmove hx => moveHome_of_moved he hd hturn hok hmove hx, fun c a hmove => moveHome_of_fault he hd hturn hok hmove⟩⟩,
    fun s t u k lathe d ext j v hop hplain hj hread hwrite => spoolMove_line_of_plainCopy hop hplain hj hread hwrite⟩

end Sys2Proof.Machine
end

section
/-! What a cycle leaves alone while no engine works (log entry 6): it moves performance counters, which are registers (R705). -/

namespace Sys2Proof.Machine

/-- `t` differs from `s` in its register file alone. -/
def OnlyRegs (s t : State) : Prop := ∃ regs, t = { s with regs := regs }

section
variable {s t : State}

theorem OnlyRegs.refl (s : State) : OnlyRegs s s := ⟨s.regs, rfl⟩

theorem OnlyRegs.regPut (h : OnlyRegs s t) {off hi lo v : Nat} : OnlyRegs s (regPut t off hi lo v) := by
  obtain ⟨r, rfl⟩ := h
  exact ⟨_, rfl⟩

theorem OnlyRegs.ite {a b : State} {c : Prop} {_ : Decidable c} (ha : OnlyRegs s a) (hb : OnlyRegs s b) :
    OnlyRegs s (if c then a else b) := by
  split <;> assumption

theorem OnlyRegs.forEach {α : Type} {l : List α} {f : State → α → State} (h : OnlyRegs s t)
    (hf : ∀ u a, OnlyRegs s u → OnlyRegs s (f u a)) : OnlyRegs s (forEach l t f) := by
  induction l generalizing t with
  | nil => exact h
  | cons a l ih => exact ih (hf t a h)

theorem OnlyRegs.pmc {b i n : Nat} {dom : Option Nat} (h : OnlyRegs s t) : OnlyRegs s (pmc t b i n dom) :=
  .ite h (.ite h.regPut (.ite h.regPut.regPut.regPut h.regPut.regPut))

/-! ## What the walkers, the gouges and the waits count (R705, R720) -/

theorem OnlyRegs.walkerTick {w : Nat} (h : OnlyRegs s t) : OnlyRegs s (walkerTick t w) := by
  unfold Machine.walkerTick
  split
  · exact h
  · exact h.pmc.pmc

theorem OnlyRegs.gougeTick {g : Nat} (h : OnlyRegs s t) : OnlyRegs s (gougeTick t g) := .ite h.pmc h

/-- What waits is counted event by event: units, misses, queues, starts, cells, inputs, budgets, credits, replays, and the channels. -/
theorem OnlyRegs.waitTick (h : OnlyRegs s t) : OnlyRegs s (waitTick t) :=
  .pmc (.pmc (.forEach (.forEach (.forEach (.forEach (.forEach (.pmc (.forEach (.forEach (.forEach (h.forEach fun _ _ h => .ite h.pmc h)
    fun _ _ h => h.pmc) fun _ _ h => h.pmc) fun _ _ h => .ite h.pmc h)) fun _ _ h => h.forEach fun _ _ h => h.pmc) fun _ _ h => h.pmc)
    fun _ _ h => h.pmc) fun _ _ h => h.forEach fun _ _ h => h.pmc) fun _ _ h => .ite h.pmc h))

end

/-! ## What has nothing to do -/

theorem forEach_of_same {α : Type} {f : State → α → State} {s : State} {l : List α} (hsame : ∀ a ∈ l, f s a = s) : forEach l s f = s := by
  induction l with
  | nil => rfl
  | cons a l ih =>
    obtain ⟨ha, hl⟩ := List.forall_mem_cons.1 hsame
    rw [forEach, List.foldl_cons, ha]
    exact ih hl

/-- No context and no kite is placed, nothing is on a home-side spool, and nothing waits at the gateway. -/
structure Resting (s : State) : Prop where
  ctxs : s.ctxs = []
  kites : s.kites = []
  hspool : ∀ k ∈ s.kernels, k.hspool = []
  missq : s.missq = []
  reelWaits : s.reelWaits = []

section
variable {s t : State}

theorem Resting.of_onlyRegs (hrest : Resting s) (h : OnlyRegs s t) : Resting t := by
  obtain ⟨r, rfl⟩ := h
  exact ⟨hrest.ctxs, hrest.kites, hrest.hspool, hrest.missq, hrest.reelWaits⟩

section
variable (hrest : Resting s)
include hrest

theorem hspoolQueue_of_resting (sp : Nat) : hspoolQueue s sp = [] := by
  have hnone : s.kernels.flatMap (fun kern => (kern.hspool.filter (fun h => h.spool == sp && kern.live)).map (fun h => (kern, h))) = [] :=
    List.flatMap_eq_nil_iff.2 fun k hk => by rw [hrest.hspool k hk, List.filter_nil, List.map_nil]
  rw [hspoolQueue, hnone, List.foldl_nil]

theorem homeSpoolTick_of_resting (sp : Nat) : homeSpoolTick s sp = s := by
  rw [homeSpoolTick, hspoolQueue_of_resting hrest, List.findIdx?_nil]

theorem rowsDue_of_resting (n : Nat) : rowsDue s n = 0 := by
  rw [rowsDue, ctxOf, hrest.ctxs]
  rfl

theorem askRows_of_resting (g : Nat) : askRows s g = s := by
  have hdue : ((List.range 8).map (fun j => rowsDue s (8 * g + j))).foldl (· + ·) 0 = 0 := by
    simp only [rowsDue_of_resting hrest]
    rfl
  simp only [askRows, hdue, Nat.min_zero, List.range_zero]
  rfl

theorem dogTicks_of_resting :
    forEach s.kites (forEach s.ctxs s (fun s e => dogTick gougeKind s e.1)) (fun s e => dogTick kiteKind s e.1) = s := by
  rw [hrest.ctxs, hrest.kites]
  rfl

theorem serveReelWaits_of_resting : serveReelWaits s = s := by
  rw [serveReelWaits, hrest.reelWaits]
  rfl

theorem drainMissq_of_resting : drainMissq s = s := by
  rw [drainMissq, hrest.missq, serveMissq, ← hrest.missq]

/-- A cycle of a resting block without a live Lathe moves registers alone. -/
theorem onlyRegs_idle (hrun : running s = true) (hidle : ∀ l, l < 128 → latheLive s l = false) : OnlyRegs s (idle s) := by
  have hlathes : forEach (List.range 128) s latheTick = s :=
    forEach_of_same fun l hl => if_neg (by simp [hidle l (List.mem_range.1 hl)])
  have hticks : OnlyRegs s (forEach (List.range 16) (forEach (List.range 32) s walkerTick) gougeTick) :=
    ((OnlyRegs.refl s).forEach fun _ _ h => h.walkerTick).forEach fun _ _ h => h.gougeTick
  rw [idle, whenRunning_of_running hrun, hlathes]
  dsimp only
  generalize forEach (List.range 16) (forEach (List.range 32) s walkerTick) gougeTick = u at hticks
  have hu := hrest.of_onlyRegs hticks
  have hspools : forEach (List.range 8) u homeSpoolTick = u := forEach_of_same fun sp _ => homeSpoolTick_of_resting hu sp
  have hrows : forEach (List.range 16) u askRows = u := forEach_of_same fun g _ => askRows_of_resting hu g
  rw [dogTicks_of_resting hu, hspools, hrows, serveReelWaits_of_resting hu, drainMissq_of_resting hu]
  exact hticks.waitTick

end

end

/-- Settles O2: an empty queue means an idle cycle, which waits for RUNNING, and moves registers alone while the block rests. -/
theorem idleCycleKeepsTheQuiet : Obligations.IdleCycleKeepsTheQuiet := by
  intro s hqueue
  have hstep : step s = .next (idle s) := by simp only [step, hqueue]
  refine ⟨idle s, hstep, (Keeps.idle (.refl s)).pending.trans hqueue, fun hoff => whenRunning_not_running hoff _, ?_⟩
  intro hlathes hctxs hkites hspool hmissq hreels
  have honly : OnlyRegs s (idle s) := by
    cases hrun : running s
    case false => exact ⟨s.regs, whenRunning_not_running hrun _⟩
    case true => exact onlyRegs_idle ⟨hctxs, hkites, hspool, hmissq, hreels⟩ hrun hlathes
  obtain ⟨r, hr⟩ := honly
  rw [hr]
  exact ⟨rfl, rfl, rfl, rfl, rfl, rfl, rfl, rfl⟩

end Sys2Proof.Machine
end

section
/-! Chapter 06: a carm of a counted area at a controller that no port reaches raises FLUSHED (R286, R518, R520). -/

namespace Sys2Proof.Machine

/-- An instruction on a bound handle acts on that handle. -/
theorem onHandle_of_bound {s : State} {l : Nat} {x : Lathe} {ch : BitVec 4} {k : Kernel} {h : Handle} (hkern : latheKernel s l = some k)
    (hbound : handleOf k x.rank ch.toNat = some h) (f : State → Kernel → Handle → Slot) : onHandle l x ch s f = f s k h := by
  simp only [onHandle, hkern, hbound]

theorem exec_carm_of_unreached {s t : State} {l : Fin 128} (hready : SlotReady s l) (last : Bool) {ch : BitVec 4} {k : Kernel} {h : Handle}
    {ga n : Nat} (hkern : latheKernel s l.val = some k) (hbound : handleOf k (latheAt s l.val).rank ch.toNat = some h)
    (harea : h.area = some (ga, n)) (hfar : farArea s ga = (false, t)) : exec (.carm l ch last) s = .next (latheFault t l.val 17 1 ga) :=
  next_slot_fault_of_ready hready 1 true last (by rw [onHandle_of_bound hkern hbound]; simp only [harea, hfar])

/-- A counter and a counted area of controller 1 of box 0. -/
def farHandle : Handle := ⟨2 ^ 50 + ctrOff 9, some (2 ^ 50 + chuckOff 0 4096, 64)⟩

/-- A kernel on Lathe 0 that has them as its handle 0. -/
def farKernel : Kernel :=
  { win := 5, plan := 0, dom := 0, params := [], binds := [], slots := [], ctrBase := 0, baseRow := 0, baseCol := 0, started := true,
    lathes := [0], ctxs := [], kites := [], pins := [], outs := [], handles := [(0, farHandle)], done := [], fault := none,
    frozen := false, fired := [], hspool := [], replays := 0, suspect := false, guilty := false, tabs := [], idxs := [], work := 0,
    units := [], told := false, prep := false }

/-- Controller 0 of box 0, RUNNING with no port up, while the kernel's bundle issues. -/
def farCarm : State :=
  { State.reset with
    aonUp := true, stbyUp := true, xtal := true, regs := [(rAddrSelf, 0), (rLathe 0 0, 2), (rPwr 8, 4)], kernels := [farKernel],
    lathes := [(0, { win := 5, ncode := 1, mid := true })] }

theorem slotReady_farCarm : SlotReady farCarm 0 := ⟨by decide, by decide, rfl, rfl, by decide, rfl, .inl rfl, rfl⟩

theorem latheKernel_farCarm : latheKernel farCarm 0 = some (farKernel.at (lathePort 0) (some (.lathe 0))) := rfl

/-- No port reaches the area's controller. -/
theorem farArea_farCarm : farArea farCarm (2 ^ 50 + chuckOff 0 4096) = (false, farCarm) := by
  have hroute : route farCarm (2 ^ 50 + chuckOff 0 4096) = .peer 1 (chuckOff 0 4096) := by decide
  have hdown : peerUp farCarm ((2 ^ 50 + chuckOff 0 4096) / 2 ^ 50 % 1024) = false := by decide
  have hbox : (2 ^ 50 + chuckOff 0 4096) / 2 ^ 50 % 1024 / 16 = regFld farCarm rAddrSelf 9 4 := by decide
  simp only [farArea, hroute, farUp, hbox, hdown, if_true]

/-- The Lathe counts the fault; a slot that issues counts none. -/
theorem faults_latheFault_farCarm : reg (latheFault farCarm 0 17 1 (2 ^ 50 + chuckOff 0 4096)) (rLathe 0 0x48) = 1 := by decide +kernel

theorem faults_slotEnd_farCarm : reg (slotEnd (armHandle farCarm farHandle) 0 1 false) (rLathe 0 0x48) = 0 := by decide +kernel

/-- Refutes O12: a handle's area may be at a controller that no port reaches, and its carm then faults instead of arming it. -/
theorem not_spoolCountersAndFences : ¬ Obligations.SpoolCountersAndFences := by
  intro h
  have hfault := exec_carm_of_unreached slotReady_farCarm false (ch := 0) latheKernel_farCarm rfl rfl farArea_farCarm
  have harms := (h.1 farCarm 0 false _ slotReady_farCarm latheKernel_farCarm).2 0 farHandle rfl |>.1 (Option.some_ne_none _)
  have hsame := Host.Outcome.next.inj (harms.symm.trans hfault)
  exact absurd (faults_slotEnd_farCarm.symm.trans ((congrArg (fun t => reg t (rLathe 0 0x48)) hsame).trans faults_latheFault_farCarm))
    (by decide)

end Sys2Proof.Machine
end
